-- ==== Sys2Proof/Word.lean ====
section
/-! DEFINITION. Words, bit fields, two's complement and saturation, on natural numbers.
Registers, counts and record words are kept as natural numbers below 2 to the power of their width; every operation that
stores one reduces it to its width. -/
namespace Sys2Proof

/-- One byte. -/
abbrev Byte := BitVec 8

/-- Bits [lo + w - 1 : lo] of `n`. -/
def bits (n lo w : Nat) : Nat := n / 2 ^ lo % 2 ^ w

/-- Bit `b` of `n`. -/
def bit (n b : Nat) : Bool := n / 2 ^ b % 2 == 1

/-- `n` with bits [lo + w - 1 : lo] replaced by `v`. -/
def setBits (n lo w v : Nat) : Nat :=
  n - bits n lo w * 2 ^ lo + v % 2 ^ w * 2 ^ lo

/-- `n` with bit `b` set or cleared. -/
def setBit (n b : Nat) (v : Bool) : Nat := setBits n b 1 v.toNat

/-- The signed value of the `w`-bit word `n`. -/
def toS (w n : Nat) : Int :=
  let m := n % 2 ^ w
  if 2 * m < 2 ^ w then (m : Int) else (m : Int) - (2 ^ w : Nat)

/-- The `w`-bit two's complement word of `i`. -/
def ofS (w : Nat) (i : Int) : Nat := (i % ((2 ^ w : Nat) : Int)).toNat

/-- `n` saturated to a `w`-bit unsigned word. -/
def satU (w n : Nat) : Nat := min n (2 ^ w - 1)

/-- `i` saturated to the range of a signed `w`-bit word. -/
def satS (w : Nat) (i : Int) : Int :=
  max (-(2 ^ (w - 1) : Nat) : Int) (min i (((2 ^ (w - 1) : Nat) : Int) - 1))

/-- 2 to the power 64, the modulus of a Ridge count (R10). -/
def two64 : Nat := 2 ^ 64

/-- 2 to the power 40, the denominator of the hidden fraction of a Ridge count (R10). -/
def two40 : Nat := 2 ^ 40

/-- The magnitude of `i` rounded up to a multiple of `d`, divided by `d`. -/
def ceilDiv (n d : Nat) : Nat := (n + (d - 1)) / d

/-- The nearest integer to `q`, halves away from zero. -/
def roundRat (q : Rat) : Int :=
  if 0 ≤ q then (q + 1 / 2).floor else -((-q + 1 / 2).floor)

/-- `q` rounded up, as a natural number; 0 when `q` is negative. -/
def ceilNat (q : Rat) : Nat := q.ceil.toNat

/-- The greatest `r` with `r * r ≤ n`, found bit by bit from bit `b - 1` down, `r` being the bits found so far. -/
def isqrtFrom : Nat → Nat → Nat → Nat
  | 0, r, _ => r
  | b + 1, r, n =>
    let r' := r + 2 ^ b
    isqrtFrom b (if r' * r' ≤ n then r' else r) n

/-- The square root of `n`, for `n` below 2 to the power 400, rounded down. -/
def isqrt (n : Nat) : Nat := isqrtFrom 200 0 n

/-- The least natural number whose square is at least `n` (a square root rounded up). -/
def sqrtUp (n : Nat) : Nat :=
  let r := isqrt n
  if r * r = n then r else r + 1

/-- Where a Letterbox command came from, which is where its completion goes: the root's rings, the mailbox (R431), a Noryr
link (R444), the start-up list of the image (R556), or the mirror (R474). -/
inductive CmdSrc where
  | ring | mailbox | noryr | boot | mirror
  deriving DecidableEq, Repr

/-- A Letterbox command, by its source, device number and tag (Table HOST-2); `ser` tells apart commands that have used one tag in
turn. -/
structure CmdRef where
  src : CmdSrc
  dn : Nat
  tag : Nat
  ser : Nat
  deriving DecidableEq, Repr

/-- A received frame: its bytes from the destination address to the last before the FCS, whether the FCS is good, and what the
boundary stamps found (R282, R283): the ru from the crossing of the reference start until now, the physical lane and FEC lane of
the timestamp point, and its position in bits. -/
structure RxFrame where
  bytes : List Nat
  fcsOk : Bool
  back : Nat
  lane : Nat
  fecLane : Nat
  pos : Nat
  deriving DecidableEq, Repr

/-- The placement of a frame that the device sends (R294): as in `RxFrame`, from the crossing until now, or not yet crossed. -/
structure TxPlace where
  ahead : Int
  lane : Nat
  fecLane : Nat
  pos : Nat
  deriving DecidableEq, Repr

/-- A satellite as the management cores see it at an epoch (R231, R233, R240): signal, number, unit direction east, north and up in
2^-30, whether its navigation data call it unhealthy or SBAS excludes it (R216), whether RAIM has removed it (R233), and its
solution residual (LSB 0.25 ns). -/
structure SatIn where
  sig : Nat
  sv : Nat
  east : Int
  north : Int
  up : Int
  unhealthy : Bool
  raim : Bool
  resid : Int
  deriving DecidableEq, Repr

/-- What the management cores compute at an epoch (R229 to R235): the satellites; position and its σ in mm; the NAV position solved
alongside HOLD; the offset of the delivered time against Ridge A at the epoch (ru) and its frequency (LSB 2^-60); the time σ in ps;
the baseline that the carrier differences give (mm); the inter-system offsets; and the UTC parameters. -/
structure GnssFix where
  sats : List SatIn
  pos : List Int
  sig : Nat
  nav : List Int
  ofs : Int
  freq : Int
  sigmaT : Nat
  base : List Int
  isb : List Int
  taiUtc : Nat
  taiUtcNext : Nat
  leapPend : Bool
  leapDay : Nat
  deriving DecidableEq, Repr

/-- What lies outside the block and a register write may need, should it be such a write: the phases measured at the inputs of each
DPLL (as in `DPLL_SWITCH`), the reference frequency of each APLL (Hz), what the GNSS front ends answer and which sample clocks run
(as in `GNSS_ENABLE`), the receive descriptors that each host frame ring posts (as in `HOST_RX_POST`), and the addresses whose crossing
does not complete within 4 µs, each with whether a write has taken effect all the same (R507). -/
structure Env where
  meas : List (List Int)
  fref : List Nat
  fe : List Nat
  sclk : Nat
  bufs : List (List (Nat × Nat))
  late : List (Nat × Bool)
  deriving DecidableEq, Repr

end Sys2Proof
end

