-- ==== Sys2Proof/Syntax.lean ====
section
/-! DEFINITION. The commands of the TE-864: one constructor per row of spec/opcode_table.json, with the operands of this model.
The table gives its rows no bits and no operands; what each operand stands for is said beside the constructor. A measured
quantity (an edge's stamp, a frame that arrives, a tuner's result) is an operand; a Letterbox command carries its
reference `c` and its parameter words. -/
namespace Sys2Proof

/-- The commands, events and jobs of the table. -/
inductive Instr where
  /-- `BEAT_EDGE` (R45): A beat edge of Ridge A passes; staged writes, addend loads, anchors and ALIVE take effect, and beat phase 1 starts. Operands: `fec` codewords of the beat that ends, as port, corrected, uncorrectable; `prbs` the lanes whose pattern checkers are locked, with their bit errors in it; `load` the blocks the Franking unit used in it, percent of capacity. -/
  | beatEdge (fec : List (Nat × Nat × Nat)) (prbs : List (Nat × Nat)) (load : Nat)
  /-- `PHASE_1` (R67): Beat phase 1 runs: TDC gates close and results are published, and a GNSS epoch is latched when one falls on this beat. Operands: `endAt` when the phase ended, from the beat edge, LSB 20 ns; `epoch` the channel measurements latched when a GNSS epoch falls on this beat. -/
  | phase1 (endAt : Nat) (epoch : List (List Nat))
  /-- `PHASE_2` (R124): Beat phase 2 runs once phase 1 has finished: the Thatch update, slot tests, disputes, membership and domain states. Operands: `endAt` as in PHASE_1. -/
  | phase2 (endAt : Nat)
  /-- `PHASE_3` (R175): Beat phase 3 runs: DPLL0 and DPLL1 steer, addends are staged, oscillator steering is evaluated and the Eaves bound is computed. Operands: `endAt` as in PHASE_1; `temp` the die temperature read, LSB 0.25 °C. -/
  | phase3 (endAt : Nat) (temp : Int)
  /-- `PHASE_4` (R480): Beat phase 4 runs: pair mirroring, lease renewal and fault scoring. Operands: `endAt` as in PHASE_1; `checks` the checks of the cores and of the FCU that failed, as source and snapshot. -/
  | phase4 (endAt : Nat) (checks : List (Nat × Nat))
  /-- `PHASE_SLIP` (R46): A phase has not finished at its deadline; the slip is counted, FS 9 is raised and the dependent phase starts later. Operands: `p` the phase, 1 to 4. -/
  | phaseSlip (p : Nat)
  /-- `BEAT_OVERRUN` (R47): A phase is still running 900 µs after the beat edge; its work is abandoned and the later phases are skipped. -/
  | beatOverrun
  /-- `AUTO_STEP_B` (R27): A correction refused on domain B with JUMP_B_EN = 0 is applied as a step at the next beat edge. -/
  | autoStepB
  /-- `SLEW_START` (R29): An accepted slew begins at the first beat edge after its acceptance. Operands: `dom` 0 A, 1 B. -/
  | slewStart (dom : Nat)
  /-- `SLEW_END` (R596): The pending slew value reaches 0; the final remainder is applied and the named rates are forgotten. Operands: `dom` 0 A, 1 B. -/
  | slewEnd (dom : Nat)
  /-- `TIME_STEP` (R31): The command is accepted or refused and is queued for the next beat edge, or for the next whole second. Operands: parameter word 0; words 1–2, the signed step in ru. -/
  | timeStep (c : CmdRef) (w0 step : Nat)
  /-- `TIME_STEP_APPLY` (R38): The steps due for a domain are applied on the tick of the beat edge as one summed step, and the slew is discarded. Operands: `dom` 0 A, 1 B. -/
  | timeStepApply (dom : Nat)
  /-- `TIME_SLEW` (R24): The command is accepted as a slew or refused with BAD_PARAM. Operands: parameter word 0; words 1–2, the signed correction in ru; word 3. -/
  | timeSlew (c : CmdRef) (w0 corr w3 : Nat)
  /-- `TIME_MAP` (R20): The command stages a new class map, which completes when the map is in effect. Operands: parameter word 0. -/
  | timeMap (c : CmdRef) (w0 : Nat)
  /-- `CLASS_MAP_WRITE` (R20): A write to RIDGE_CLASS_MAP is staged for the next beat edge. Operands: requester; the word written. -/
  | classMapWrite (req w : Nat)
  /-- `CLASS_MAP_APPLY` (R22): The staged class map takes effect at a beat edge, after any step due at that edge. -/
  | classMapApply
  /-- `TIME_SNAP` (R39): The command returns both Ridge counts from one CCLK tick. Operands: `buf` the host buffer's address. -/
  | timeSnap (c : CmdRef) (buf : Nat)
  /-- `RIDGE_B_ENABLE` (R19): B_EN is written 1; Ridge A's count, fraction and anchor are copied into Ridge B. Operands: requester; the word written, B_EN apart. -/
  | ridgeBEnable (req w : Nat)
  /-- `RIDGE_B_DISABLE` (R39): B_EN is written 0; Ridge B stops, its step and slew state clear and pending B corrections are discarded. Operands: requester; the word written, B_EN apart. -/
  | ridgeBDisable (req w : Nat)
  /-- `ADD_WRITE` (R178): A host write to a staged addend register is accepted or refused according to the state of its DPLL. Operands: requester; domain; ADD_FRAC or ADD_INT; the value written. -/
  | addWrite (req dom : Nat) (frac : Bool) (v : Nat)
  /-- `ADD_LOAD` (R178): A_LOAD or B_LOAD applies the staged addend on the next tick, or is refused while the DPLL runs. Operands: requester; the word written. -/
  | addLoad (req w : Nat)
  /-- `CMP_ENABLE` (R41): A comparator's EN is set; a late target is discarded or fired, and an invalid period is refused. Operands: requester; comparator; the word written, EN apart. -/
  | cmpEnable (req n w : Nat)
  /-- `CMP_DISABLE` (R44): A comparator's EN is cleared, which unlocks its TGT and PER registers. Operands: requester; comparator; the word written, EN apart. -/
  | cmpDisable (req n w : Nat)
  /-- `CMP_FIRE` (R40): A comparator reaches its target, or is passed by a step, and performs its EVT, TRIG and SNAP actions. Operands: `n` the comparator. -/
  | cmpFire (n : Nat)
  /-- `BEAT_CLR_ACK` (R498): RIDGE_BEAT_CLR.ACK clears the beat overrun counters and the phase high-water marks. -/
  | beatClrAck
  /-- `TDC_EDGE` (R50): An edge reaches a channel capture and is stamped, accumulated and placed in the ring, or drives the START_STOP window. Operands: crossbar source; polarity; position in the present tick, 2^-16 tick. -/
  | tdcEdge (src : Nat) (fall : Bool) (pos : Nat)
  /-- `WINDOW_TIMEOUT` (R64): The length of an open START_STOP window elapses, and the device writes a CLOSE record with TIMEOUT. Operands: logical channel. -/
  | windowTimeout (n : Nat)
  /-- `LOCK_LOST` (R73): The delay-line span stays outside ±3 taps for 2 beats; LOCKED clears and FS 16 is raised. Operands: logical channel. -/
  | lockLost (n : Nat)
  /-- `LOCK_ACQUIRED` (R73): The delay-line span stays within ±1 tap for 4 beats; LOCKED sets and the channel runs. Operands: logical channel. -/
  | lockAcquired (n : Nat)
  /-- `LOCK_TIMEOUT` (R74): A fine channel has not locked 16 beats after its enable, and FS 16 is raised. Operands: logical channel. -/
  | lockTimeout (n : Nat)
  /-- `TDC_CH_ENABLE` (R84): A channel's EN is written 1; the channel starts locking or running, or sets PENDING_ENABLE. Operands: requester; channel; the word written, EN apart. -/
  | tdcChEnable (req n w : Nat)
  /-- `TDC_CH_DISABLE` (R84): A channel's EN is written 0; the pipeline drains and the open gate is discarded. Operands: requester; channel; the word written, EN apart. -/
  | tdcChDisable (req n w : Nat)
  /-- `TDC_STOP_DONE` (R83): A channel finishes STOPPING, becomes DISABLED and starts again if an enable is pending. Operands: channel. -/
  | tdcStopDone (n : Nat)
  /-- `MEAS_UNLOCK` (R85): The measurement PLL loses lock; open gates are invalidated and stamps stop. -/
  | measUnlock
  /-- `MEAS_RELOCK` (R85): The measurement PLL locks again; fine channels relock and every channel starts a short gate. -/
  | measRelock
  /-- `TDC_ARRAY_ENABLE` (R85): TDC_CTL.EN is written, which turns the array and the measurement PLL on or off. Operands: requester; the word written. -/
  | tdcArrayEnable (req w : Nat)
  /-- `CAL_TRIGGER` (R75): The PERIOD time or the TEMP_STEP change is reached, and TDC_CAL runs are queued for every channel. Operands: a calibration trigger is judged at die temperature `temp`, LSB 0.25 °C. -/
  | calTrigger (temp : Int)
  /-- `TDC_CAL_DONE` (R77): A calibration run completes; its table is applied or kept. Operands: the calibration run for channel `n` completes. -/
  | tdcCalDone (n worst binAvg : Nat)
  /-- `SUBSTITUTE` (R79): TDC_SUB GO with DIR = 0 starts the substitution of a spare for a logical channel. Operands: requester; the word written, GO and DIR apart. -/
  | substitute (req w : Nat)
  /-- `RESTORE` (R80): TDC_SUB GO with DIR = 1 starts the restoration of the former channel. Operands: requester; the word written, GO and DIR apart. -/
  | restore (req w : Nat)
  /-- `SPARE_SWAP` (R79): At the first gate end after the shadow period, the spare's results are published under the logical channel. Operands: spare; its mean difference over the shadow, ru. -/
  | spareSwap (sel : Nat) (diff : Int)
  /-- `SPARE_WRITE` (R78): A write to TDC_SPARE is applied or refused according to the state of the channels it names. Operands: requester; the word written. -/
  | spareWrite (req w : Nat)
  /-- `PRESCALER_WRITE` (R55): A write to TDC_XB_PRE resynchronises the prescaler, or is refused while a channel selects the source. Operands: requester; source; the word written. -/
  | prescalerWrite (req src w : Nat)
  /-- `RING_RD_WRITE` (R87): The reader advances TDC_RING_RD; when space returns, the device writes the LOST record. Operands: requester; channel; the word written. -/
  | ringRdWrite (req n w : Nat)
  /-- `SLOT_ENABLE` (R95): A slot's EN is written 1; the slot is checked and enters QUALIFYING, MONITOR or DISQUALIFIED. Operands: requester; slot; the word written, EN apart. -/
  | slotEnable (req n w : Nat)
  /-- `SLOT_DISABLE` (R96): A slot's EN is written 0; its model is discarded and its weight is 0 from the next beat. Operands: requester; slot; the word written, EN apart. -/
  | slotDisable (req n w : Nat)
  /-- `RANK_WRITE` (R104): A write to ENS_SLOT_RANK is staged and takes effect at the next beat edge. Operands: requester; slot; the word written. -/
  | rankWrite (req n w : Nat)
  /-- `QUAL_TIME_DONE` (R98): A slot passes every test for QUAL_TIME and becomes CANDIDATE or MONITOR. Operands: `n` the slot. -/
  | qualTimeDone (n : Nat)
  /-- `HOLDOFF_DONE` (R99): The HOLDOFF of a disqualified slot elapses; the slot requalifies, and a CONFIG slot is checked again. Operands: `n` the slot. -/
  | holdoffDone (n : Nat)
  /-- `RAMP_END` (R111): An entry or exit ramp completes its beats; a leaving member stops being a member. Operands: `n` the slot. -/
  | rampEnd (n : Nat)
  /-- `DISPUTE_END` (R122): The disputed slots have agreed within DISPUTE_TOL / 2 for DISPUTE_WIN, and return to CANDIDATE. Operands: the slots of the dispute. -/
  | disputeEnd (n m : Nat)
  /-- `DOMAIN_LOCKED` (R117): The lock conditions have held for LOCK_TIME, and the domain enters LOCKED. Operands: `dom` 0 A, 1 B. -/
  | domainLocked (dom : Nat)
  /-- `REF_REQUAL` (R126): The command is checked at acceptance and queued for the next beat edge. Operands: parameter word 0. -/
  | refRequal (c : CmdRef) (w0 : Nat)
  /-- `REF_REQUAL_APPLY` (R126): At the beat edge, the slot is checked again and moved to QUALIFYING or MONITOR with a fresh model. -/
  | refRequalApply
  /-- `ENS_SNAP` (R125): The command copies the ENS registers from one GEN into the host buffer. Operands: the command; the buffer. -/
  | ensSnap (c : CmdRef) (buf : Nat)
  /-- `THATCH_ENABLE` (R130): ENS_CTL.EN is written 1; Thatch starts, or sets PENDING_ENABLE while stopping. Operands: requester; the word written, EN apart. -/
  | thatchEnable (req w : Nat)
  /-- `THATCH_DISABLE` (R130): ENS_CTL.EN is written 0; Thatch finishes the beat, and every domain goes to FREE_RUN. Operands: requester; the word written, EN apart. -/
  | thatchDisable (req w : Nat)
  /-- `ENS_ACK` (R498): A write of ENS_ACK.ACK clears ENS_CHANGED. -/
  | ensAck
  /-- `OSC_MODE_MANUAL` (R133): OSC_CTL MODE is written 1; any pending step is discarded and the oscillator enters MANUAL. Operands: requester; oscillator; the word written, MODE apart. -/
  | oscModeManual (req k w : Nat)
  /-- `OSC_MODE_AUTO` (R133): OSC_CTL MODE is written 2; the oscillator enters FROZEN, and the PROBE is sent where it applies. Operands: requester; oscillator; the word written, MODE apart. -/
  | oscModeAuto (req k w : Nat)
  /-- `OSC_MODE_OFF` (R133): OSC_CTL MODE is written 0; the code is held and the UART falls silent. Operands: requester; oscillator; the word written, MODE apart. -/
  | oscModeOff (req k w : Nat)
  /-- `OSC_STEER_STEP` (R135): The steering period elapses in TRACKING; dstep is computed, clamped and scheduled. Operands: oscillator. -/
  | oscSteerStep (k : Nat)
  /-- `OSC_STEER_APPLY` (R137): A steering change takes effect at a beat edge; Thatch and the DPLLs are compensated. Operands: oscillator. -/
  | oscSteerApply (k : Nat)
  /-- `OSC_CODE_WRITE` (R139): A write to OSC_CODE or OSC_ACC takes effect at the next beat edge in MANUAL, and is refused in other states. Operands: requester; oscillator; OSC_ACC rather than OSC_CODE; the word written. -/
  | oscCodeWrite (req k : Nat) (acc : Bool) (w : Nat)
  /-- `UART_SEND` (R145): A queued STEER, POLL or OSC_SEND message is built and sent whole once the UART is free. Operands: oscillator. -/
  | uartSend (k : Nat)
  /-- `OSC_POLL` (R146): POLL_PERIOD elapses and the POLL template is queued. Operands: oscillator. -/
  | oscPoll (k : Nat)
  /-- `POLL_RESPONSE_END` (R147): RESP_TO ends; the collected response passes or fails, and ALARM or PRESENT is updated. Operands: oscillator; the bytes received; whether one had a framing or parity error. -/
  | pollResponseEnd (k : Nat) (bytes : List Nat) (err : Bool)
  /-- `OSC_SEND` (R168): The command queues a raw message or the PROBE for an atomic oscillator and completes after its last stop bit. Operands: parameter word 0; the message words. -/
  | oscSend (c : CmdRef) (w0 : Nat) (msg : List Nat)
  /-- `PROBE_RETRY` (R560): A failed probe is repeated every 1 s for 10 attempts, and then every 60 s. Operands: oscillator. -/
  | probeRetry (k : Nat)
  /-- `EAVES_SNAP` (R151): The command copies the EAVES block from one GEN into the host buffer. Operands: the command; the buffer. -/
  | eavesSnap (c : CmdRef) (buf : Nat)
  /-- `DPLL_ENABLE` (R205): A DPLL's EN is written 1; the loop starts after the enable check, or sets PENDING_ENABLE. Operands: requester; loop; the word written, EN apart. -/
  | dpllEnable (req n w : Nat)
  /-- `DPLL_DISABLE` (R176): A DPLL's EN is written 0, and the loop enters STOPPING. Operands: requester; loop; the word written, EN apart. -/
  | dpllDisable (req n w : Nat)
  /-- `DPLL_STOP_DONE` (R206): A DPLL finishes stopping, becomes DISABLED, and starts again if an enable is pending. Operands: loop. -/
  | dpllStopDone (n : Nat)
  /-- `DPLL_UPDATE` (R170): DPLL2–DPLL7 take a phase-detector sample on an input edge or a 1 µs tick, and apply the loop law. Operands: loop; per entry, the measured phase; the mask of entries whose signal is missing. -/
  | dpllUpdate (n : Nat) (meas : List Int) (lost : Nat)
  /-- `INPUT_VALID` (R181): An entry has stayed within FTOL for VAL_TIME and becomes valid. Operands: loop; entry; per entry, the measured phase. -/
  | inputValid (n e : Nat) (meas : List Int)
  /-- `REVERT_SWITCH` (R182): A higher-priority entry has been valid for WTR, and the loop switches back to it. Operands: loop; entry; per entry, the measured phase. -/
  | revertSwitch (n e : Nat) (meas : List Int)
  /-- `DPLL_SWITCH` (R182): DPLL_CMD SWITCH moves the loop to a named valid entry, with phase build-out. Operands: requester; loop; the word written, GO apart; per entry, the measured phase. -/
  | dpllSwitch (req n w : Nat) (meas : List Int)
  /-- `DPLL_LOCKED` (R185): |φ| stays within LOCK_WIN for 1,024 updates, and the loop enters LOCKED. Operands: loop. -/
  | dpllLocked (n : Nat)
  /-- `APLL_ENABLE` (R186): An APLL's EN is written 1; after the check, its outputs go to bypass and a search is requested. Operands: requester; APLL; the word written, EN apart; reference frequency, Hz. -/
  | apllEnable (req m w fref : Nat)
  /-- `APLL_DISABLE` (R193): An APLL's EN is written 0; its outputs are squelched and it stops. Operands: requester; APLL; the word written, EN apart. -/
  | apllDisable (req m w : Nat)
  /-- `APLL_STOP_DONE` (R206): An APLL finishes stopping and becomes OFF. Operands: APLL. -/
  | apllStopDone (m : Nat)
  /-- `BAND_SEARCH` (R188): The measurement-clock group is free, and a waiting APLL starts its band search. -/
  | bandSearch
  /-- `BAND_SEARCH_DONE` (R189): The band search ends; the loop closes, or the search fails and a retry is scheduled. Operands: the counts taken, in order. -/
  | bandSearchDone (cnt : List (Nat × Nat))
  /-- `SEARCH_RETRY` (R189): 1 ms after a failed search, the APLL requests another search. Operands: APLL. -/
  | searchRetry (m : Nat)
  /-- `APLL_LOCK` (R190): The phase error stays within 100 ps for 4,096 cycles; the APLL is LOCKED and RET_HOLD starts. Operands: APLL. -/
  | apllLock (m : Nat)
  /-- `APLL_LOSS_OF_LOCK` (R191): The APLL loses lock or its reference, and its outputs switch to bypass glitch-free. Operands: APLL; whether its reference is lost. -/
  | apllLossOfLock (m : Nat) (refLost : Bool)
  /-- `APLL_REF_RETURN` (R192): The reference has been present for 1 ms, and a new lock attempt is requested. Operands: APLL. -/
  | apllRefReturn (m : Nat)
  /-- `BYPASS_RETURN` (R192): RET_HOLD elapses with AUTO_RET or after a first lock, and the outputs return on the divider-sync edge. Operands: APLL. -/
  | bypassReturn (m : Nat)
  /-- `APLL_RETURN` (R192): The command returns a LOCKED APLL's outputs from bypass. Operands: parameter word 0. -/
  | apllReturn (c : CmdRef) (w0 : Nat)
  /-- `OUTPUT_ENABLE` (R205): An output's EN is written 1; after its check it starts, on a divider-sync edge for a clock. Operands: requester; output, CLKOUT i as i and PPSOUT j as 16 + j; the word written, EN apart. -/
  | outputEnable (req o w : Nat)
  /-- `OUTPUT_DISABLE` (R207): An output's EN is written 0, and it stops. Operands: requester; output; the word written, EN apart. -/
  | outputDisable (req o w : Nat)
  /-- `FINE_SKEW_WRITE` (R196): A write of FINE moves the edge by one step per output cycle to the new value. Operands: requester; clock output; the word written. -/
  | fineSkewWrite (req i w : Nat)
  /-- `PPS_OFS_WRITE` (R200): A write of OUT_PPS_OFS while the output runs is staged. Operands: requester; pulse output; the word written. -/
  | ppsOfsWrite (req j w : Nat)
  /-- `PULSE_START` (R198): P_j reaches a pulse target, and a pulse starts. Operands: pulse output. -/
  | pulseStart (j : Nat)
  /-- `PULSE_END` (R198): The pulse width elapses, and the pulse ends. Operands: pulse output. -/
  | pulseEnd (j : Nat)
  /-- `OUT_ALIGN` (R202): The command is checked and queued for the next beat edge. Operands: parameter words 0 and 1. -/
  | outAlign (c : CmdRef) (w0 w1 : Nat)
  /-- `OUT_ALIGN_APPLY` (R201): At the beat edge, the named outputs are stepped or start slewing into alignment. -/
  | outAlignApply
  /-- `ALIGN_SLEW_DONE` (R201): The slew of an output reaches 0; the output is aligned, and the command completes with its last output. Operands: output. -/
  | alignSlewDone (o : Nat)
  /-- `GNSS_ENABLE` (R595): GNSS_CTL.EN is written 1; the receiver runs its checks, identifies its front ends and starts. Operands: requester; the word written, EN apart; per antenna, the identification word read; mask of antennas whose sample clock is in the window. -/
  | gnssEnable (req w : Nat) (fe : List Nat) (sclk : Nat)
  /-- `GNSS_DISABLE` (R247): GNSS_CTL.EN is written 0; channels are released and the engine stops. Operands: requester; the word written, EN apart. -/
  | gnssDisable (req w : Nat)
  /-- `GNSS_STOP_DONE` (R247): The receiver completes STOPPING, and starts again if an enable is pending. Operands: as in GNSS_ENABLE, for a pending enable. -/
  | gnssStopDone (fe : List Nat) (sclk : Nat)
  /-- `STREAM_ENABLE` (R595): A stream's EN is written 1 and its own enable check is made. Operands: requester; stream; the word written, EN apart. -/
  | streamEnable (req t w : Nat)
  /-- `SCLK_LOSS` (R211): An antenna's sample clock goes out of range or stops; its streams stop and its channels are lost. Operands: antenna. -/
  | sclkLoss (a : Nat)
  /-- `SCLK_RESTART` (R211): SCLK_OK has been set for 1,024 beats, and the antenna's streams restart. Operands: antenna. -/
  | sclkRestart (a : Nat)
  /-- `JAM_SET` (R217): J/N exceeds JAM_THR for 16 beats; JAM sets and FS 83 is raised. Operands: stream; J/N, LSB 0.25 dB. -/
  | jamSet (t jn : Nat)
  /-- `JAM_CLEAR` (R217): J/N stays below JAM_THR − 2 dB for 1,024 beats, and JAM clears. Operands: stream; J/N, LSB 0.25 dB. -/
  | jamClear (t jn : Nat)
  /-- `NOTCH_SCAN` (R218): Every 16 beats a spectrum is taken, and adaptive notches are assigned or released. Operands: per stream, the peaks above NOTCH_THR, the strongest first: centre (LSB 10 Hz) and width code; per stream, J/N; mask of streams saturating in more than 5 % of samples. -/
  | notchScan (peaks : List (List (Int × Nat))) (jn : List Nat) (sat : Nat)
  /-- `ACQ_SEARCH_DONE` (R220): An acquisition search ends with a detection or with its class exhausted. Operands: whether the search ended with a detection. -/
  | acqSearchDone (found : Bool)
  /-- `CHANNEL_PULL_IN_TIMEOUT` (R220): A channel has not converged 200 ms into PULL_IN, and goes back to SEARCH. Operands: channel. -/
  | channelPullInTimeout (no : Nat)
  /-- `CHANNEL_PHASE_LOCK` (R228): The phase lock indicator stays above 0.8 for 100 ms, and the channel enters PLL. Operands: channel. -/
  | channelPhaseLock (no : Nat)
  /-- `CHANNEL_PHASE_UNLOCK` (R228): The phase lock indicator stays below 0.5 for 20 ms; the channel returns to FLL with SLIP set. Operands: channel. -/
  | channelPhaseUnlock (no : Nat)
  /-- `CHANNEL_LOST` (R222): C/N0 stays below the mask for 1 s; the channel is LOST and a hot search is queued. Operands: channel. -/
  | channelLost (no : Nat)
  /-- `AUTO_ASSIGN` (R224): Each second with AUTO_CH = 1, channels are assigned to the satellites that are visible or detected. Operands: the satellites predicted above ELEV_MASK or detected in a blind search: signal, number, elevation. -/
  | autoAssign (vis : List (Nat × Nat × Nat))
  /-- `GNSS_CH_ASSIGN` (R225): The command assigns and pins a channel, or releases it, from the next epoch. Operands: parameter word 0. -/
  | gnssChAssign (c : CmdRef) (w0 : Nat)
  /-- `EPOCH_LATCH` (R226): At an epoch beat, the streams are latched on the first sample edge at or after E and stamped. Operands: where the latch of GA0 lies in the present tick, 2^-16 tick. -/
  | epochLatch (pos : Nat)
  /-- `SOLUTION_DONE` (R231): The solution, RAIM and the verdict tests for an epoch complete. Operands: what the management cores compute. -/
  | solutionDone (x : GnssFix)
  /-- `SURVEY_TIMEOUT` (R230): The accuracy has not been reached within 4 × SURVEY_TIME, and FS 87 is raised. -/
  | surveyTimeout
  /-- `GNSS_DELIVERY` (R238): A valid solution is delivered to Thatch at the beat edge 8 beats after the epoch, or when it becomes ready. -/
  | gnssDelivery
  /-- `GNSS_SLEEP` (R245): The command saves a hint, stops the channels and the engine, and puts the receiver to sleep. Operands: parameter word 0. -/
  | gnssSleep (c : CmdRef) (w0 : Nat)
  /-- `GNSS_WAKE` (R246): The command sends the write list, queues hot searches and enters WAKING. -/
  | gnssWake (c : CmdRef)
  /-- `GNSS_SURVEY` (R230): The command starts or restarts a survey-in. Operands: parameter word 0. -/
  | gnssSurvey (c : CmdRef) (w0 : Nat)
  /-- `GNSS_HINT_SAVE` (R245): The command writes a hint to the older half of the hint store. -/
  | gnssHintSave (c : CmdRef)
  /-- `HINT_PERIODIC_SAVE` (R245): HINT_PERIOD elapses with a valid solution, and a hint is written. -/
  | hintPeriodicSave
  /-- `GNSS_COLD` (R246): The command discards ephemeris, almanac and hint, and restarts the channels. -/
  | gnssCold (c : CmdRef)
  /-- `GROUP_ENABLE` (R251): SDS_GRP_CTL.EN is written 1; after the enable check, the group starts. Operands: requester, group, word. -/
  | groupEnable (req g w : Nat)
  /-- `GROUP_DISABLE` (R254): SDS_GRP_CTL.EN is written 0, and the group's ports stop. Operands: requester, group, word. -/
  | groupDisable (req g w : Nat)
  /-- `MODULE_IDENT` (R251): The firmware reads the module's identifier and resolves the group's mode. Operands: group, what the module resolves to. -/
  | moduleIdent (g mode fec : Nat)
  /-- `PORT_ENABLE` (R250): MAC_CTL.EN is written 1; the port begins bring-up, or sets PENDING_ENABLE. Operands: requester, port, word. -/
  | portEnable (req p w : Nat)
  /-- `PORT_DISABLE` (R252): MAC_CTL.EN is written 0; the frame in progress completes and queued frames are dropped. Operands: requester, port, word. -/
  | portDisable (req p w : Nat)
  /-- `PORT_STOP_DONE` (R254): A port or group finishes stopping, and starts again if an enable is pending. Operands: whether a group, its number or the port's. -/
  | portStopDone (grp : Bool) (n : Nat)
  /-- `AN_RESOLVED` (R252): Auto-negotiation resolves the rate and FEC, and training starts. Operands: port, resolved mode and FEC. -/
  | anResolved (p mode fec : Nat)
  /-- `AN_TIMEOUT` (R252): There is no resolution within 3 s; AN restarts and FS 98 is raised. Operands: port. -/
  | anTimeout (p : Nat)
  /-- `TRAINING_DONE` (R252): Both ends report receiver ready, and the port moves to ALIGN. Operands: port; per lane of it, the CTLE code, first DFE tap, transmit post- and pre-cursor that training found. -/
  | trainingDone (p : Nat) (eq : List (List Nat))
  /-- `TRAINING_TIMEOUT` (R252): Both ends are not ready within 500 ms; FS 98 is raised and the port goes back to AN. Operands: port. -/
  | trainingTimeout (p : Nat)
  /-- `ALIGN_LOCK` (R252): Block, marker and FEC lock are reached; lane corrections load and the port is UP. Operands: port; per lane, measured skew and CDR term in ru. -/
  | alignLock (p : Nat) (corr : List (Int × Int))
  /-- `ALIGN_TIMEOUT` (R252): There is no lock within 500 ms, and the port goes back to AN or restarts ALIGN. Operands: port. -/
  | alignTimeout (p : Nat)
  /-- `LINK_FAULT_RX` (R253): Fault ordered sets are received; the port enters FAULT and withholds frames. Operands: port. -/
  | linkFaultRx (p : Nat) (remote : Bool)
  /-- `LINK_FAULT_CLEAR` (R253): No fault ordered set has arrived for 1 ms, and the port returns to UP. Operands: port. -/
  | linkFaultClear (p : Nat)
  /-- `LINK_DOWN` (R252): Lock or signal is lost for 1 ms; LINK_DOWN is counted and bring-up restarts. Operands: port. -/
  | linkDown (p : Nat)
  /-- `ADAPT_FREEZE` (R255): More than 4,096 low-activity windows pass in a row, and the equaliser freezes. Operands: lane. -/
  | adaptFreeze (l : Nat)
  /-- `ADAPT_RESUME` (R256): 256 active windows pass in a row, and adaptation resumes. Operands: lane. -/
  | adaptResume (l : Nat)
  /-- `EYE_MEASURE` (R257): An eye-margin measurement completes, and a re-adaptation may be requested. Operands: lane, eye margin. -/
  | eyeMeasure (l eye : Nat)
  /-- `READAPT` (R258): SDS_LN_CTL.READAPT requests a re-adaptation of the lane. Operands: requester, lane, word. -/
  | readapt (req l w : Nat)
  /-- `READAPT_DONE` (R259): A re-adaptation ends; lane corrections are re-read and the eye is checked. Operands: lane, measured skew and CDR term in ru, equaliser settings. -/
  | readaptDone (l : Nat) (sk cdr : Int) (ctle dfe : Nat)
  /-- `FRAME_RX` (R262): A received frame is checked, classified, stamped and delivered, answered or discarded. Operands: port; the frame; the predicted departure of an answer to it, in ns after its last bit. -/
  | frameRx (p : Nat) (f : RxFrame) (pred : Nat)
  /-- `PAUSE_RX` (R266): A PAUSE or PFC frame is taken whole and sets or releases the pause timers, or is ignored. Operands: port, frame. -/
  | pauseRx (p : Nat) (f : RxFrame)
  /-- `PAUSE_EXPIRE` (R267): A pause timer runs out, and the paused frames may be sent. Operands: port, priority. -/
  | pauseExpire (p prio : Nat)
  /-- `PAUSE_REPEAT` (R270): While the buffer stays above XON, the PAUSE is repeated every half quanta time. Operands: port. -/
  | pauseRepeat (p : Nat)
  /-- `ESMC_RX` (R272): An ESMC PDU is received and mapped into QL_RX. Operands: port, frame. -/
  | esmcRx (p : Nat) (f : RxFrame)
  /-- `ESMC_TIMEOUT` (R272): No information PDU arrives for 5 s; QL_RX becomes 1 and RX_TIMEOUT is set. Operands: group. -/
  | esmcTimeout (g : Nat)
  /-- `ESMC_TX` (R273): Once per second an information PDU is sent, and an event PDU is sent on a QL_TX change. Operands: group, whether an event PDU. -/
  | esmcTx (g : Nat) (event : Bool)
  /-- `DOZE_ENTER` (R276): DOZE is written 1; the port powers down its lanes except the wake detector. Operands: requester, port, word. -/
  | dozeEnter (req p w : Nat)
  /-- `PORT_WAKE` (R277): The wake detector sees its pattern, or DOZE is written 0, and the port powers up. Operands: requester, port, cause, word. -/
  | portWake (req p cause w : Nat)
  /-- `CORR_RELOAD` (R284): Every 1,024 beats while UP, the lane skew and latency are measured again. Operands: port; per lane, measured skew and CDR term in ru. -/
  | corrReload (p : Nat) (corr : List (Int × Int))
  /-- `PM_RING_ENABLE` (R290): PM_CTL.EN is written 1 and both ring pointers are set to 0. Operands: requester, group, word. -/
  | pmRingEnable (req g w : Nat)
  /-- `PM_RING_RD_WRITE` (R292): The reader advances PM_RING_RD; space returns and the next record carries LOST. Operands: requester, group, word. -/
  | pmRingRdWrite (req g w : Nat)
  /-- `LAUNCH_ARM` (R298): A CTL write with VALID = 1 arms a launch entry, or rejects it. Operands: requester, group, slot, control word. -/
  | launchArm (req g k w : Nat)
  /-- `LAUNCH_CANCEL` (R299): A CTL write with VALID = 0 cancels an entry that is not committed. Operands: requester, group, slot, control word. -/
  | launchCancel (req g k w : Nat)
  /-- `LAUNCH_COMMIT` (R299): 2 µs before its target, the entry is committed: the frame is read, placed and its one-step value computed. Operands: group, slot, nearest and earliest permissible position from the target in ru. -/
  | launchCommit (g k : Nat) (delta early : Int) (place : TxPlace)
  /-- `LAUNCH_SEND` (R302): At its placement, the launch frame starts, or the entry is dropped as late or for a port that is not UP. Operands: group, slot. -/
  | launchSend (g k : Nat)
  /-- `LAUNCH_END` (R304): The launch frame finishes; DONE_DELTA, RESULT and the Postmark are written and VALID clears. Operands: group, slot. -/
  | launchEnd (g k : Nat)
  /-- `LQ_DISABLE` (R307): LQ_CTL.EN is written 0; uncommitted entries are cancelled and the queue stops. Operands: requester, group, word. -/
  | lqDisable (req g w : Nat)
  /-- `LQ_STOP_DONE` (R307): The last committed entry ends, and the queue becomes DISABLED. Operands: group. -/
  | lqStopDone (g : Nat)
  /-- `PTE_ENABLE` (R341): PTE_CTL.EN is written, which starts or stops the packet timing engine. Operands: requester `req` writes `w` to PTE_CTL. -/
  | pteEnable (req w : Nat)
  /-- `INSTANCE_ENABLE` (R311): An instance's EN is written 1, and the instance is checked and started. Operands: requester `req` writes PTE_I_CTL[i] with EN = 1. -/
  | instanceEnable (req i w : Nat)
  /-- `INSTANCE_DISABLE` (R341): An instance's EN is written 0, and the instance stops. Operands: requester `req` writes PTE_I_CTL[i] with EN = 0. -/
  | instanceDisable (req i w : Nat)
  /-- `PTP_MSG_DUE` (R317): An Announce or Sync instant of a port or session is reached, and the message is built and sent or skipped. Operands: an Announce (`kind` 0) or Sync (`kind` 1) instant of instance `i` on port `p`, of session `sess` when it is below 8,192. -/
  | ptpMsgDue (i p kind sess : Nat) (place : TxPlace) (late : Bool)
  /-- `FOLLOW_UP_SEND` (R318): After a two-step Sync, the Follow_Up is sent within 50 µs. Operands: the oldest Follow_Up due on port `p` is sent. -/
  | followUpSend (p : Nat)
  /-- `DELAY_REQ_RX` (R319): A Delay_Req is matched, verified, admitted and answered with a Delay_Resp, or is refused. Operands: a Delay_Req is received on port `p`; `pred` is the predicted departure of its answer, ns after its last bit. -/
  | delayReqRx (p : Nat) (f : RxFrame) (pred : Nat)
  /-- `PDELAY_REQ_RX` (R320): A Pdelay_Req is answered one-step or two-step. Operands: a Pdelay_Req is received on port `p`. -/
  | pdelayReqRx (p : Nat) (f : RxFrame) (pred : Nat)
  /-- `PDELAY_REQ_DUE` (R320): The PDLY interval elapses, and the device sends its own Pdelay_Req. Operands: the PDLY interval of port `p` has passed. -/
  | pdelayReqDue (p : Nat) (place : TxPlace)
  /-- `PDELAY_RESP_RX` (R320): A Pdelay_Resp or its Follow_Up is received, and the mean neighbour delay is updated. Operands: a Pdelay_Resp or its follow-up is received on port `p`. -/
  | pdelayRespRx (p : Nat) (f : RxFrame)
  /-- `ANNOUNCE_RX` (R313): An Announce is received, for foreign-master detection or for a packet client. Operands: an Announce is received on port `p`. -/
  | announceRx (p : Nat) (f : RxFrame)
  /-- `FOREIGN_TIMEOUT` (R312): The better foreign master has been silent for 3 announce intervals, and the port returns to MASTER. Operands: the better foreign master of instance `i` on port `p` has been silent for 3 intervals. -/
  | foreignTimeout (i p : Nat)
  /-- `UNICAST_REQUEST_RX` (R330): A REQUEST_UNICAST_TRANSMISSION is received by firmware for processing. Operands: a REQUEST_UNICAST_TRANSMISSION is received on port `p`. -/
  | unicastRequestRx (p : Nat) (f : RxFrame)
  /-- `GRANT_TX` (R330): Within 2 beats, firmware sends a GRANT, or a refusal with duration 0. Operands: firmware answers the oldest request. -/
  | grantTx
  /-- `CANCEL_RX` (R331): A CANCEL_UNICAST_TRANSMISSION stops the type at once and is acknowledged. Operands: a CANCEL_UNICAST_TRANSMISSION is received on port `p`. -/
  | cancelRx (p : Nat) (f : RxFrame)
  /-- `GRANT_TICK` (R331): At beat 0 of each second, the pending requests are applied and the LEFT fields decrement. Operands: beat 0 of a Ridge A second. -/
  | grantTick
  /-- `SESS_ADD` (R332): The command adds a static session record at the next beat edge. Operands: the command `c` with parameter word 0 and its host buffer. -/
  | sessAdd (c : CmdRef) (w0 : Nat) (buf : List Nat)
  /-- `SESS_DEL` (R332): The command frees a session record, cancelling its grants. Operands: the command `c` with parameter word 0. -/
  | sessDel (c : CmdRef) (w0 : Nat)
  /-- `SESS_SA` (R332): The command changes a session's security association at the next beat edge. Operands: the command `c` with parameter word 0. -/
  | sessSa (c : CmdRef) (w0 : Nat)
  /-- `SESS_FLUSH` (R332): The command frees every negotiated record of a port and an instance. Operands: the command `c` with parameter word 0. -/
  | sessFlush (c : CmdRef) (w0 : Nat)
  /-- `SESSION_APPLY` (R332): Session changes take effect at a beat edge. Operands: session changes take effect at a beat edge. -/
  | sessionApply
  /-- `CLIENT_ENABLE` (R338): A packet client's EN is written; the client starts LISTEN, or stops and cancels its grants. Operands: requester `req` writes `w` to PTE_CLI_CTL[c]. -/
  | clientEnable (req c w : Nat)
  /-- `CLIENT_DREQ_DUE` (R367): The DREQ interval elapses, and the client sends a Delay_Req or an NTP request. Operands: the DREQ interval of client `c` has passed. -/
  | clientDreqDue (c : Nat) (place : TxPlace)
  /-- `CLIENT_MSG_RX` (R339): A Sync, Follow_Up or Delay_Resp for a client is received and stamped into its exchanges. Operands: a Sync, Follow_Up or Delay_Resp is received on port `p`. -/
  | clientMsgRx (p : Nat) (f : RxFrame)
  /-- `NTP_CLIENT_RESPONSE_RX` (R367): An NTP response to a client is checked and accepted as an exchange. Operands: an NTP response is received on port `p`. -/
  | ntpClientResponseRx (p : Nat) (f : RxFrame)
  /-- `CLIENT_WINDOW_END` (R339): A client window ends; exchanges are filtered and the offset is delivered, or the client changes state. Operands: a window of client `c` ends. -/
  | clientWindowEnd (c : Nat)
  /-- `GRANT_RENEW` (R338): Half the grant duration has passed, and the client renews the grant. Operands: half the duration of grants of client `c` has passed. -/
  | grantRenew (c : Nat)
  /-- `CLIENT_ANNOUNCE_TIMEOUT` (R338): No Announce or response arrives for the set intervals, and the client returns to LISTEN. Operands: client `c` has heard no Announce, or no response, for the set intervals. -/
  | clientAnnounceTimeout (c : Nat)
  /-- `NTP_REQUEST_RX` (R344): A UDP port 123 request is checked, sorted into NTP, NTS or host, and admitted or refused. Operands: a datagram to UDP port 123 is received on port `p`; `pred` as in `delayReqRx`. -/
  | ntpRequestRx (p : Nat) (f : RxFrame) (pred : Nat)
  /-- `ANSWER_SEND` (R361): An admitted answer leaves in its reserved slot, or late behind a launch. Operands: the oldest admitted answer on port `p` leaves. -/
  | answerSend (p : Nat) (place : TxPlace) (late : Bool)
  /-- `NTS_ROTATE` (R357): The command is checked and queued, or deferred behind the key group. Operands: the command `c` with parameter words 0 and 1. -/
  | ntsRotate (c : CmdRef) (w0 w1 : Nat)
  /-- `ROTATE_APPLY` (R357): At the beat edge, the master keys shift and the new next key is installed. Operands: the oldest rotation that waits takes effect. -/
  | rotateApply
  /-- `NTS_COOKIE_SEAL` (R353): The command seals n cookies under the current master key. Operands: the command `c` with parameter words 0 and 1, its host buffer with the keys, and the address of the buffer it fills. -/
  | ntsCookieSeal (c : CmdRef) (w0 w1 : Nat) (keys : List Nat) (buf : Nat)
  /-- `FRANK_ENABLE` (R371): FRANK_CTL.EN is written; the unit starts with known-answer tests, or stops. Operands: requester `req` writes `w` to FRANK_CTL. -/
  | frankEnable (req w : Nat)
  /-- `NTP_SERVE_ENABLE` (R373): FRANK_NTP_CTL.EN is written, which starts or stops NTP serving. Operands: requester `req` writes `w` to FRANK_NTP_CTL. -/
  | ntpServeEnable (req w : Nat)
  /-- `NTS_SERVE_ENABLE` (R371): FRANK_NTS_CTL.EN is written, which starts NTS serving after its check, or stops it. Operands: requester `req` writes `w` to FRANK_NTS_CTL. -/
  | ntsServeEnable (req w : Nat)
  /-- `PIPE_OOS_WRITE` (R365): FRANK_PIPE_OOS takes pipelines out of service, at most four. Operands: requester `req` writes `w` to FRANK_PIPE_OOS. -/
  | pipeOosWrite (req w : Nat)
  /-- `KAT` (R365): KAT = 1 starts the known-answer tests on the out-of-service pipelines. Operands: requester `req` writes FRANK_PIPE_OOS with KAT = 1. -/
  | kat (req w : Nat)
  /-- `KAT_DONE` (R365): The known-answer tests finish; a failing pipeline stays out of service. Operands: the known-answer tests end; `fail` masks the pipelines that failed. -/
  | katDone (fail : Nat)
  /-- `DRBG_FAIL` (R366): The DRBG health tests fail; DRBG_OK clears and NTS answers stop. Operands: the health tests of the DRBG fail. -/
  | drbgFail
  /-- `DRBG_RECOVER` (R366): The health tests pass again; the DRBG reseeds and DRBG_OK sets. Operands: the health tests of the DRBG pass again. -/
  | drbgRecover
  /-- `PIPE_PARITY_ERROR` (R366): A pipeline parity error takes the pipeline out of service and drops the affected answer. Operands: pipeline `k` has a parity error; port `p`'s oldest answer of the unit is lost. -/
  | pipeParityError (k p : Nat)
  /-- `SLATE_LOAD` (R377): The command writes a key into the inactive bank and verifies it for the next beat edge. Operands: parameter word 0; the bytes of the host buffer. -/
  | slateLoad (c : CmdRef) (w0 : Nat) (buf : List Nat)
  /-- `SLATE_DERIVE` (R382): The command derives a child key from a parent or the root into the inactive bank. Operands: parameter words; the bytes of the host buffer. -/
  | slateDerive (c : CmdRef) (w0 w1 : Nat) (buf : List Nat)
  /-- `SLATE_INVALIDATE` (R388): The command schedules a slate's invalidation at the next beat edge. Operands: parameter word 0. -/
  | slateInvalidate (c : CmdRef) (w0 : Nat)
  /-- `SLATE_KCV` (R387): The command reports a 24-bit check value of the key in force. Operands: parameter word 0. -/
  | slateKcv (c : CmdRef) (w0 : Nat)
  /-- `SLATE_APPLY` (R380): At the beat edge, accepted slate changes commit in order, and the orphan rules are applied. Operands: slates whose new bank fails its tag check. -/
  | slateApply (bad : List Nat)
  /-- `SLATE_ZEROISE` (R389): Once the last operation admitted before the edge completes, the old key cells are zeroised. Operands: slate. -/
  | slateZeroise (n : Nat)
  /-- `REMASK_PASS` (R386): At beat 256 of each second, every valid slate is re-masked and its tag checked. Operands: slates whose cells have changed; duration in µs. -/
  | remaskPass (bad : List Nat) (us : Nat)
  /-- `TAMPER` (R393): An enabled tamper input stays low for the debounce time, and the slates are erased. Operands: tamper input. -/
  | tamper (i : Nat)
  /-- `TAMPER_ACK` (R394): SLATE_TAMP_ACK clears the tamper record. -/
  | tamperAck
  /-- `PERS_LOCK_WRITE` (R379): A write of SLATE_LOCK fixes PERS_LOCK, or is refused as a second write. Operands: requester, word. -/
  | persLockWrite (req w : Nat)
  /-- `LOAD_LOCK_WRITE` (R379): A write of SLATE_LOAD_LOCK fixes LOAD_LOCK, or is refused as a second write. Operands: requester, word. -/
  | loadLockWrite (req w : Nat)
  /-- `TAMP_CFG_WRITE` (R395): A write of SLATE_TAMP_CFG is taken once per VBAT life, and is refused after that. Operands: requester, word. -/
  | tampCfgWrite (req w : Nat)
  /-- `HOST_LINK_RESET` (R402): PCIe link-down, hot reset or FLR resets the HOST block and discards the completions in flight. Operands: link-down, hot reset or FLR; the link's speed and width afterwards, 0 when it is down. -/
  | hostLinkReset (speed width : Nat)
  /-- `D3HOT_ENTER` (R401): The function enters D3hot; DMA and MSI-X stop. -/
  | d3hotEnter
  /-- `D0_RETURN` (R401): The function returns to D0; held completions and events are written. -/
  | d0Return
  /-- `BAR2_ACCESS` (R404): A BAR2 TLP is split into register accesses, or is refused when it is oversized. Operands: whether the TLP writes; byte offset; its length in DW; the data. -/
  | bar2Access (write : Bool) (addr dw : Nat) (data : List Nat) (e : Env)
  /-- `CMD_DOORBELL` (R407): HOST_CMD_TAIL is written, making new command records available. Operands: requester `req` writes HOST_CMD_TAIL. -/
  | cmdDoorbell (req w : Nat)
  /-- `CMD_FETCH` (R416): The device fetches the next command record when there is room in flight, and dispatches it after the header checks. Operands: the record at HOST_CMD_HEAD (empty: no record is fetched); the bytes of its input buffer in host memory; whether the DMA read of the record, or of the input, fails; after how many bytes the DMA writes of the output fail. -/
  | cmdFetch (ws buf : List Nat) (recFail rdFail : Bool) (wrFail : Option Nat) (e : Env)
  /-- `CPL_HEAD_WRITE` (R409): HOST_CPL_HEAD frees slots, and held completions are written. Operands: requester `req` writes HOST_CPL_HEAD. -/
  | cplHeadWrite (req w : Nat)
  /-- `EVT_HEAD_WRITE` (R410): HOST_EVT_HEAD frees slots in the event ring. Operands: requester `req` writes HOST_EVT_HEAD. -/
  | evtHeadWrite (req w : Nat)
  /-- `IRQ_TIMER` (R411): CPL_TIME elapses after the first unsignalled completion, and MSI-X vector 0 is sent. Operands: CPL_TIME has passed. -/
  | irqTimer
  /-- `COMMAND_TIMEOUT` (R418): HOST_TMO elapses, or the path is lost; the command completes with DEVICE_TIMEOUT. Operands: HOST_TMO has elapsed for the command, or the path to its device is lost. -/
  | commandTimeout (c : CmdRef) (lost : Bool)
  /-- `REG_RD` (R420): The command reads COUNT words or 64-bit pairs from DN. Operands: the command; its parameter words; the buffer, when BUF_OUT is set. -/
  | regRd (c : CmdRef) (p : List Nat) (out : Option Nat) (e : Env)
  /-- `REG_WR` (R420): The command writes COUNT words or 64-bit pairs to DN, stopping at the first failure. Operands: the command; its parameter words; the bytes of the buffer, when BUF_IN is set. -/
  | regWr (c : CmdRef) (p : List Nat) (input : Option (List Nat)) (e : Env)
  /-- `REG_RMW` (R421): The command performs an atomic read-modify-write of one register. Operands: the command; its parameter words. -/
  | regRmw (c : CmdRef) (p : List Nat) (e : Env)
  /-- `TBL_RD` (R422): The command copies whole records of a table window into the host buffer. Operands: the command; its parameter words; the buffer. -/
  | tblRd (c : CmdRef) (p : List Nat) (buf : Nat)
  /-- `TBL_WR` (R422): The command writes a table window under the window's own rules. Operands: the command; its parameter words; the bytes of the buffer. -/
  | tblWr (c : CmdRef) (p input : List Nat) (e : Env)
  /-- `SYS_NOP` (R413): The command returns TOP_DEVICE_ID and RIDGE_BEAT_SEQ of DN. Operands: the command. -/
  | sysNop (c : CmdRef)
  /-- `SYS_RESET` (R423): The command resets the core of DN after discarding its other commands, and start-up runs from step 3. Operands: the command. -/
  | sysReset (c : CmdRef)
  /-- `SYS_RELEASE` (R558): The command releases the outputs, or is held until READY. Operands: the command. -/
  | sysRelease (c : CmdRef)
  /-- `HOST_TX_DESCRIPTOR` (R426): A host transmit descriptor is served: the frame is sent, dropped or rejected, and DONE is written. Operands: group; the descriptor's words at bytes 8, 12 and 16; the frame in its buffer; where it would leave; its reading failed. -/
  | hostTxDescriptor (g w8 w12 id : Nat) (frame : List Nat) (place : TxPlace) (dmaErr : Bool)
  /-- `HOST_RX_POST` (R427): HOST_RXR_TAIL posts receive buffers, and waiting frames are delivered. Operands: requester `req` writes HOST_RXR_TAIL[g]; the buffers and lengths of the descriptors posted. -/
  | hostRxPost (req g w : Nat) (bufs : List (Nat × Nat))
  /-- `LETTERBOX_ENABLE` (R433): HOST_CTL.EN is written; the Letterbox starts, or stops after its commands in flight complete. Operands: requester `req` writes HOST_CTL. -/
  | letterboxEnable (req w : Nat)
  /-- `LETTERBOX_STOP_DONE` (R433): The last command in flight completes, and the Letterbox reads DISABLED. -/
  | letterboxStopDone
  /-- `FRAME_RING_ENABLE` (R433): TX_EN or RX_EN of a frame ring is written, which starts or stops the ring. Operands: requester `req` writes HOST_FR_CTL[g]. -/
  | frameRingEnable (req g w : Nat)
  /-- `MSPI_READ` (R428): An MSPI READ transaction reads words from ascending addresses. Operands: address; words read. -/
  | mspiRead (addr n : Nat) (e : Env)
  /-- `MSPI_WRITE` (R430): An MSPI WRITE transaction writes whole words to ascending addresses. Operands: address; the bytes shifted in. -/
  | mspiWrite (addr : Nat) (data : List Nat) (e : Env)
  /-- `MSPI_STATUS` (R430): An MSPI STATUS returns the last refusal code and count, then clears them. -/
  | mspiStatus
  /-- `MAILBOX_GO` (R431): HOST_MBX_CTL.GO starts the mailbox command, or is refused while BUSY. Operands: requester; the word written, whose GO bit is set. -/
  | mailboxGo (req w : Nat) (e : Env)
  /-- `NOR_PORT_ENABLE` (R445): A Noryr port's EN is written 1, and the port enters DETECT, or sets PENDING_ENABLE. Operands: requester `req` writes NOR_PORT_CTL[q] with EN = 1. -/
  | norPortEnable (req : Nat) (q : Nat) (w : Nat)
  /-- `NOR_PORT_DISABLE` (R446): A Noryr port's EN is written 0, and the port stops. Operands: requester `req` writes NOR_PORT_CTL[q] with EN = 0. -/
  | norPortDisable (req : Nat) (q : Nat) (w : Nat)
  /-- `NOR_SIGNAL_DETECT` (R445): A signal has been present for 100 µs, and training begins. Operands: a signal has been present on port `q` for 100 µs. -/
  | norSignalDetect (q : Nat)
  /-- `NOR_TRAINED` (R445): 64 TRN sets have been received both ways, and CAP is sent. Operands: 64 TRN sets in a row both ways on port `q`. -/
  | norTrained (q : Nat)
  /-- `NOR_TRAIN_TIMEOUT` (R445): Training has not completed in 10 ms; FS 161 is raised and the port returns to DETECT. Operands: training of port `q` has not completed in 10 ms. -/
  | norTrainTimeout (q : Nat)
  /-- `CAP_RX` (R451): A CAP is received; the rate is resolved, or a port-kind conflict is flagged. Operands: a CAP with its two argument bytes is received on port `q`. -/
  | capRx (q : Nat) (a0 : Nat) (a1 : Nat)
  /-- `SPEED_LOCK` (R445): The link locks at the new rate within 2 ms and becomes ACTIVE. Operands: port `q` locks at the new rate within 2 ms. -/
  | speedLock (q : Nat)
  /-- `SPEED_TIMEOUT` (R445): There is no lock at the new rate within 2 ms, and the link steps down. Operands: port `q` does not lock at the new rate within 2 ms. -/
  | speedTimeout (q : Nat)
  /-- `NOR_LINK_DOWN` (R445): Loss of signal, code errors or the replay limit takes the link to DETECT. Operands: port `q` loses its signal, or sees 16 invalid code groups in a beat. -/
  | norLinkDown (q : Nat)
  /-- `NOR_FRAME_RX` (R440): A Noryr frame is received whole, then checked, acknowledged and routed or consumed. Operands: port; header, payload and CRC; whether it held an invalid code group, or ended early; after how many bytes a DMA write of its data fails. -/
  | norFrameRx (q : Nat) (words : List Nat) (codeErr abort : Bool) (fail : Option Nat) (e : Env)
  /-- `NOR_ACK_RX` (R441): A cumulative ACK frees replay buffer entries. Operands: an ACK is received on port `q`. -/
  | norAckRx (q : Nat) (a0 : Nat) (a1 : Nat)
  /-- `NOR_NAK_RX` (R441): A NAK causes every frame after the acknowledged SEQ to be replayed. Operands: a NAK is received on port `q`. -/
  | norNakRx (q : Nat) (a0 : Nat) (a1 : Nat)
  /-- `NOR_REPLAY_TIMEOUT` (R441): No ACK has arrived 20 µs after a frame, so the frames are replayed. Operands: no ACK has arrived 20 µs after a frame of port `q`. -/
  | norReplayTimeout (q : Nat)
  /-- `CRD_RX` (R443): Returned credits allow waiting frames of their class to be sent. Operands: a CRD is received on port `q`. -/
  | crdRx (q : Nat) (a0 : Nat) (a1 : Nat)
  /-- `NOR_ADDR_RX` (R450): An ADDR frame assigns a DN or is forwarded, and route bits are set. Operands: an ADDR frame with these payload words is received on NU. -/
  | norAddrRx (w0 : Nat) (w1 : Nat)
  /-- `NOR_LINK_RX` (R457): A LINK frame reaches the root, which posts event 0x000A and updates NOR_PRESENT. Operands: a LINK frame with these payload words is received on ND `j`. -/
  | norLinkRx (j : Nat) (w0 : Nat) (w1 : Nat)
  /-- `NOR_BIND_CLR` (R448): A write of CLR frees the bindings of level-3 DNs that are not present. Operands: NOR_BIND_CLR.CLR is written 1. -/
  | norBindClr
  /-- `N1_ENTER` (R452): A transmit direction has been idle for IDLE_N1, sends EI and goes to electrical idle. Operands: the transmit direction of port `q` has been idle for IDLE_N1. -/
  | n1Enter (q : Nat)
  /-- `N1_EXIT` (R452): Traffic is due; the transmitter sends TRN sets and leaves N1. Operands: the receive or the transmit direction of port `q` leaves N1. -/
  | n1Exit (q : Nat) (rx : Bool)
  /-- `N2_REQUEST` (R453): Both directions have been idle for IDLE_N2, and the upstream end sends N2REQ. Operands: both directions of port `q` have been idle for IDLE_N2. -/
  | n2Request (q : Nat)
  /-- `N2REQ_RX` (R453): The partner answers N2ACK or N2NAK to an N2REQ. Operands: an N2REQ is received on port `q`. -/
  | n2reqRx (q : Nat)
  /-- `N2ACK_RX` (R453): On N2ACK both ends turn off their lanes. Operands: the answer to an N2REQ is received on port `q`: N2ACK, or N2NAK. -/
  | n2ackRx (q : Nat) (ack : Bool)
  /-- `N2_EXIT` (R453): An end leaves N2 by sending TRN, and the link is ACTIVE within 60 µs. Operands: an end of port `q` leaves N2. -/
  | n2Exit (q : Nat)
  /-- `TS_EXCHANGE_DUE` (R454): Every TS_PER-th beat, plus 20 µs, the upstream end sends TSQ. Operands: an exchange is due on port `q`: TSQ crosses at count `t1`. -/
  | tsExchangeDue (q : Nat) (t1 : Nat)
  /-- `TSQ_RX` (R454): The downstream end stamps the TSQ and answers with TSR. Operands: a TSQ crosses on port `q` at count `t2`, and TSR at `t3`. -/
  | tsqRx (q : Nat) (xch : Nat) (t2 : Nat) (t3 : Nat)
  /-- `TSR_RX` (R454): The upstream end stamps the TSR and sends a TS frame. Operands: the TSR crosses on port `q` at count `t4`. -/
  | tsrRx (q : Nat) (xch : Nat) (t4 : Nat)
  /-- `TS_RX` (R455): A TS frame completes an exchange, and the link and tree offsets are updated. Operands: a TS frame with these payload words is received on port `q`. -/
  | tsRx (q : Nat) (ws : List Nat)
  /-- `TREE_TIMEOUT` (R456): No exchange has been kept for 4 × TS_AVG × TS_PER beats; TREE_VALID clears. Operands: no exchange has been kept for 4 × TS_AVG × TS_PER beats. -/
  | treeTimeout
  /-- `PAIR_ENABLE` (R465): PAIR_CTL.EN is written 1; after its check, the member enters SEARCH. Operands: requester `req` writes PAIR_CTL with EN = 1. -/
  | pairEnable (req : Nat) (w : Nat)
  /-- `PAIR_DISABLE` (R469): PAIR_CTL.EN is written 0; the token is released and the mirror stopped. Operands: requester `req` writes PAIR_CTL with EN = 0. -/
  | pairDisable (req : Nat) (w : Nat)
  /-- `MIRROR_RX` (R479): A MIRROR frame is authenticated and accepted, and a STATUS drives the member's state table. Operands: a MIRROR frame, as header and payload words, is received on NP. -/
  | mirrorRx (ws : List Nat)
  /-- `LEASE_EXPIRY` (R466): The holder's lease lapses; it releases the token and stops serving. Operands: the beat edge at which the holder's lease ends. -/
  | leaseExpiry
  /-- `GUARD_END` (R468): The guard ends with no renewal and TOKEN_IN low, and the standby takes the token. Operands: the beat edge at which the guard ends. -/
  | guardEnd
  /-- `JOIN_TIMEOUT` (R469): 18 beats in SEARCH with no STATUS and TOKEN_IN low, and the member takes the token. Operands: 18 beats in SEARCH without a STATUS. -/
  | joinTimeout
  /-- `DOUBLE_HOLD_RESOLVE` (R471): At the first beat edge after a double hold is detected, the losing member releases. Operands: the first beat edge after a double hold is detected. -/
  | doubleHoldResolve
  /-- `STANDBY_ENTER` (R473): The readiness conditions have held for 16 beats, and the member enters STANDBY. Operands: the beat edge at which the conditions of R473 hold. -/
  | standbyEnter
  /-- `SYNC_ALIGN` (R473): The conditions have held for 16 beats with SYNC_ALIGN = 1, and the device issues OUT_ALIGN itself. Operands: the conditions of R473 have held for 16 beats, and SYNC_ALIGN = 1. -/
  | syncAlign
  /-- `MIRROR_CMD_APPLY` (R474): The standby applies a mirrored CMD, SLATE or SESS_REC entry at its named edge. Operands: the mirrored entries due at this beat edge are applied. -/
  | mirrorCmdApply
  /-- `HANDOVER_EDGE` (R476): At the agreed edge, the holder releases and the standby takes the token, or the handover is abandoned. Operands: the beat edge that a planned handover names. -/
  | handoverEdge
  /-- `REVERT_START` (R477): WTR_LEFT reaches zero on the preferred member, and it starts a handover. Operands: WTR_LEFT has reached 0 on the preferred member. -/
  | revertStart
  /-- `PAIR_TAKE` (R478): The command requests a handover, or forces a take at the next beat edge. Operands: `PAIR_TAKE` with parameter word 0. -/
  | pairTake (c : CmdRef) (w0 : Nat)
  /-- `PAIR_YIELD` (R476): The holder offers a handover to the partner. Operands: `PAIR_YIELD`. -/
  | pairYield (c : CmdRef)
  /-- `PAIR_TEST` (R469): The command moves the standby into or out of TEST. Operands: `PAIR_TEST` with parameter word 0. -/
  | pairTest (c : CmdRef) (w0 : Nat)
  /-- `DIGEST_RECOMPUTE` (R482): Within 1 s of a write to a covered region, CFG_DIGEST is recomputed. Operands: the configuration digest is computed again. -/
  | digestRecompute
  /-- `TAKE_PAD_END` (R483): TAKE_BEATS beats after a take, TAKE_PAD stops being added to the bounds. Operands: TAKE_BEATS beats have passed since a take. -/
  | takePadEnd
  /-- `REGISTER_WRITE` (R501): A write to a register with no row of its own is judged for alignment, size, locks and range and then applied. Operands: requester (Table REG-7); byte address; 0 to 3 for 8, 16, 32 and 64 bits; the data. -/
  | registerWrite (req addr size data : Nat) (e : Env)
  /-- `ALIAS_WRITE` (R490): A write to a bit-alias word sets or clears one bit by an atomic read-modify-write. Operands: requester; register offset; bit; the data. -/
  | aliasWrite (req o b v : Nat) (e : Env)
  /-- `CROSSING_TIMEOUT` (R507): A cross-domain access has not completed within 4 µs; it is abandoned with DEVICE_TIMEOUT. Operands: requester; byte address; size as REGISTER_WRITE; whether it writes, and whether the write has taken effect; the data. -/
  | crossingTimeout (req addr size : Nat) (write applied : Bool) (data : Nat) (e : Env)
  /-- `TOP_ACC_ACK` (R498): TOP_ACC_ACK clears the access error records, counters and high-water marks. Operands: TOP_ACC_ACK.ACK is written 1. -/
  | topAccAck
  /-- `STALL_DETECT` (R530): 8 consecutive beats end without phase 4 completing, and FS 224 is raised. -/
  | stallDetect
  /-- `FCU_ACK` (R516): A write of a sequence number acknowledges that record and clears its counts. Operands: requester; the number written. -/
  | fcuAck (req w : Nat)
  /-- `ACK_ALL` (R518): FCU_CTL.ACK_ALL acknowledges every record and clears every count. Operands: requester; the word written, ACK_ALL apart. -/
  | ackAll (req w : Nat)
  /-- `FCU_CFG_WRITE` (R520): A source's configuration byte changes, and a live source is judged again at the next edge. Operands: requester; word of FCU_CFG; the word written. -/
  | fcuCfgWrite (req i w : Nat)
  /-- `CFG_LOCK_WRITE` (R521): FCU_LOCK.CFG_LOCK locks the FCU configuration until reset. Operands: requester; the word written. -/
  | cfgLockWrite (req w : Nat)
  /-- `FCU_FORCE` (R526): A write of FCU_FORCE raises the chosen sources as event occurrences. Operands: requester; word of FCU_FORCE; the word written. -/
  | fcuForce (req j w : Nat)
  /-- `POWER_ON` (R536): Every main rail has been in its window for 2 ms with RESET_N high; power-on reset ends and start-up begins. -/
  | powerOn
  /-- `RESET_N_ASSERT` (R538): RESET_N is held low for 10 µs or more, and the device resets. -/
  | resetNAssert
  /-- `RESET_N_RELEASE` (R538): RESET_N rises, and start-up runs from fuse load. -/
  | resetNRelease
  /-- `RAIL_FAULT` (R537): A main rail leaves its window for more than 10 µs, and its fault source is raised. Operands: the rail, as its bit of TOP_SUPPLY. -/
  | railFault (b : Nat)
  /-- `VBAT_LOSS` (R544): VBAT and VDDIO 1.8 V both fall below 1.6 V, and the VBAT domain loses its contents. -/
  | vbatLoss
  /-- `XO_RETRY` (R545): XO_IN is not recognised, and the measurement is retried every 10 ms. -/
  | xoRetry
  /-- `FUSE_LOAD` (R546): Fuse load completes; errors are corrected or stop start-up, and Ridge A is anchored. Operands: XO_IN as measured, in Hz; 1 for a corrected and 2 for an uncorrectable fuse error; seconds the RTC has counted meanwhile, none when its oscillator has stopped; die temperature in 0.25 °C. -/
  | fuseLoad (xoHz err : Nat) (rtc : Option Nat) (temp : Int)
  /-- `IMAGE_VERIFY` (R550): The image slots are read and checked, and one is accepted or the device falls back to defaults. Operands: the bytes of slots A and B; none where a read fails. -/
  | imageVerify (imgA imgB : Option (List Nat))
  /-- `IMAGE_APPLY` (R553): The PCIE, FE, KEYS and REGS sections of the accepted image are applied in order. Operands: what the environment gives. -/
  | imageApply (e : Env)
  /-- `CMDS_ENTRY` (R556): A start-up command entry runs once its wait condition holds or times out. Operands: what the environment gives. -/
  | cmdsEntry (e : Env)
  /-- `READY` (R557): The CMDS list reaches its end or a wait, and the due tests finish; READY rises and event 0x0009 is posted. Operands: milliseconds since release of reset. -/
  | ready (ms : Nat)
  /-- `READY_TIMEOUT` (R557): READY has not risen within 2 s, and FS 220 is raised. -/
  | readyTimeout
  /-- `RTC_WRITE` (R542): A write of TOP_RTC_SEC sets VALID and restarts the sub-second divider. Operands: requester; the 64-bit word written. -/
  | rtcWrite (req w : Nat)
  /-- `ISLAND_POWER_WRITE` (R563): TOP_PWR_CTL turns islands on or off, subject to their conditions. Operands: requester; the word written. -/
  | islandPowerWrite (req w : Nat)
  /-- `ISLAND_POWER_DONE` (R564): An island finishes its power-down or power-up, and a pending power-up starts. Operands: the island. -/
  | islandPowerDone (i : Nat)
  /-- `MAINT_RUN` (R575): The command queues a maintenance activity, with an interim DEFERRED when it must wait. Operands: the command `c` with parameter word 0. -/
  | maintRun (c : CmdRef) (w0 : Nat)
  /-- `ACTIVITY_START` (R567): A quiet group is free, and the activity at the head of its queue starts. Operands: group `q` is free and its next entry starts. -/
  | activityStart (q : Nat)
  /-- `ACTIVITY_END` (R566): An activity ends and frees its quiet group. Operands: the activity of the memory group ends. -/
  | activityEnd (q : Nat) (ok : Bool) (learn : List (Nat × Nat × Nat))
  /-- `WAIT_MAX_EXCEEDED` (R570): A queued entry has waited more than WAIT_MAX, and FS 178 is raised. Operands: entries of group `q` have waited more than WAIT_MAX. -/
  | waitMaxExceeded (q : Nat)
  /-- `SELFTEST_STEP` (R580): A self-test step completes, or is cut short by a take. Operands: a step of the test of `tgt` ends. -/
  | selftestStep (tgt : Nat) (last : Bool) (failed : Option Nat) (fe : List Nat) (sclk : Nat)
  /-- `HIST_COMMIT` (R578): Every HIST_PER seconds, the staged histories are committed to DRAM. Operands: HIST_PER seconds have passed. -/
  | histCommit
  /-- `DRAM_CAL` (R576): Every 64 s, or after a 5 °C change, the DRAM interface is recalibrated. Operands: 64 s, or a change of 5 °C, have passed. -/
  | dramCal
  /-- `ECC_ERROR` (R576): The scrub or an access finds an SRAM or DRAM ECC error, and its fault source is raised. Operands: an ECC error of SRAM (0 corrected, 1 not) or DRAM (2, 3). -/
  | eccError (kind addr lost : Nat)
  /-- `DRAM_ON` (R577): DRAM_EN is written 1, and the interface is trained and brought ONLINE. Operands: requester `req` writes MEM_CTL with DRAM_EN = 1. -/
  | dramOn (req w : Nat)
  /-- `DRAM_OFF` (R578): DRAM_EN is written 0, or the error rate is passed, and the DRAM goes OFFLINE with its learned values discarded. Operands: requester `req` writes MEM_CTL with DRAM_EN = 0. -/
  | dramOff (req w : Nat)
  /-- `CHANNEL_PULL_IN_DONE` (R228): A tracking channel's code and frequency converge within 200 ms of PULL_IN and it enters FLL, where its code measurements become VALID. Operands: channel. -/
  | channelPullInDone (no : Nat)
  /-- `XO_IN_LOSS` (R545): XO_IN goes missing, or drifts more than 1,000 ppm from its chosen frequency, while the device runs, and FS 213 is raised at S3. Operands: false when XO_IN is back. -/
  | xoInLoss (bad : Bool)
  /-- `CORE_PLL_UNLOCK` (R512): The core PLL that makes CCLK loses lock, and FS 214 is raised at S3. Operands: false when lock is back. -/
  | corePllUnlock (unlocked : Bool)
  /-- `RTC_OSC_STOP` (R542): The 32.768 kHz RTC oscillator stops or restarts; OSC_OK changes and FS 217 becomes live or clears. Operands: false when it restarts. -/
  | rtcOscStop (stopped : Bool)
  /-- `RAIL_RETURN` (R537): A main rail that had left its monitor window returns to it, so its fault source stops being live and FAULT_N may be released. Operands: the rail, as its bit of TOP_SUPPLY. -/
  | railReturn (b : Nat)
  /-- `VBAT_WARNING` (R540): VBAT crosses 1.8 V; TOP_SUPPLY bit 9 changes and FS 212 becomes live or clears. Operands: whether VBAT is now below 1.8 V. -/
  | vbatWarning (low : Bool)
  /-- `VBAT_POWER_UP` (R544): The VBAT domain powers up after a loss, with RTC VALID 0, VBAT_LOST 1, SLATE_TAMP_CFG 0 and both hint halves invalid. -/
  | vbatPowerUp
  /-- `HOST_LINK_UP` (R398): The PCIe link trains at a speed and width common to both ends and HOST_STAT.SPEED and WIDTH are set. Operands: link speed and width. -/
  | hostLinkUp (speed width : Nat)
  /-- `PCIE_CONFIG_REQUEST` (R549): A PCIe configuration request arrives and is answered with Configuration Request Retry Status until the PCIE section is applied or start-up has stopped or fallen back. Operands: DW offset in configuration space. -/
  | pcieConfigRequest (dw : Nat)
  /-- `NOR_PORT_STOP_DONE` (R446): A Noryr port finishes STOPPING, becomes DISABLED and starts again when PENDING_ENABLE is set. Operands: port `q` finishes STOPPING. -/
  | norPortStopDone (q : Nat)
  /-- `OUTPUT_STOP_DONE` (R206): A clock or pulse output finishes STOPPING after its current cycle or pulse and starts again when PENDING_ENABLE is set. Operands: output. -/
  | outputStopDone (o : Nat)
  /-- `PTE_STOP_DONE` (R341): The packet timing engine, a PTP instance or a packet client finishes stopping and starts again when PENDING_ENABLE is set. Operands: block `b` (0 the engine, 1 + i an instance, 3 + c a client) finishes stopping. -/
  | pteStopDone (b : Nat)
  /-- `FRANK_STOP_DONE` (R373): The Franking unit, NTP serving or NTS serving finishes stopping and starts again when PENDING_ENABLE is set. Operands: the unit (0), NTP serving (1) or NTS serving (2) finishes stopping. -/
  | frankStopDone (b : Nat)
  /-- `PAIR_STOP_DONE` (R470): The pair unit finishes STOPPING, becomes DISABLED and enters SEARCH when PENDING_ENABLE is set. Operands: the pair unit finishes STOPPING. -/
  | pairStopDone
  /-- `GNSS_SLEEP_DONE` (R246): The receiver's channels and engine have stopped, so SLEEPING becomes ASLEEP, GNSS_SLEEP completes and a pending wake proceeds to WAKING. -/
  | gnssSleepDone
  /-- `DOZE_ENTRY_DONE` (R277): A port's entry into doze completes, and the port wakes at once when DOZE was written 0 during the entry. Operands: port. -/
  | dozeEntryDone (p : Nat)
  /-- `EI_RX` (R452): An EI ordered set from the partner puts the receive direction into N1, and RX_N1 is set with the recovered clock squelched. Operands: an EI is received on port `q`. -/
  | eiRx (q : Nat)
  deriving DecidableEq, Repr

end Sys2Proof
end

