-- ==== Sys2Proof/Decode.lean ====
section
/-! DEFINITION. Words to commands. The command table gives its rows no bits, so no word spells a command. -/
namespace Sys2Proof

/-- The command that the word `w` of `nbits` bits spells by the table's bits: none, the table giving no row any bits. -/
def decodeTableWord (_nbits _w : Nat) : Option Instr := none

end Sys2Proof
end

