-- ==== Sys2Proof/Config.lean ====
section
/-! DEFINITION. What an implementation or a chip fixes, and the free values: constants with no body, of which nothing can be
proved. Each is named in the assumption log. -/
namespace Sys2Proof.Config

/-- The n-th free value drawn (assumption 3). -/
opaque freeValue : Nat → Nat

/-- One beat of the critically damped second-order trace loop of time constant `tau` s (R113): from the error and the loop's
memory, the step of the target time and the new memory, in ru. The spec gives no coefficients (assumption 10). -/
opaque traceLoop : (tau : Nat) → (err memory : Rat) → Rat × Rat

/-- The weight of a contributor whose variance is 0, before normalising: 1/σ² has no value there (assumption 11). -/
opaque weightAtZero : Rat

/-- 2π as the loops use it (R171): the spec states no precision for it (assumption 12). -/
opaque twoPi : Rat

/-- The circular mean, in [-1/2, 1/2) cycle, of angles in cycles (R240): the direction of the sum of their unit vectors, which is
irrational, and to which the spec states no precision (assumption 13). -/
opaque circularMean : List Rat → Rat

/-- The device root key as a number: 256 bits unique to each chip, readable by nothing (assumption 15). -/
opaque rootKey : Nat

/-- K_int as a number: derived from the root under a fixed internal label that the spec does not give (R383; assumption 15). -/
opaque tagKey : Nat

/-- The output length L, in bits, that enters the derivation of a check value, by the slate's KLEN (R387): the spec does not state it
(assumption 16). -/
opaque kcvBits : Bool → Nat

/-- timeSource when the traceable member with the largest weight is slot `n` and R324 names no code for its kind (assumption 17). -/
opaque timeSourceOf : Nat → Nat

/-- The index of the reference ID when the traceable member with the largest weight is slot `n` and R350 names none for its kind; 24
stands for no traceable member (assumption 18). -/
opaque refIdOf : Nat → Nat

/-- The number of a row of Table SORT-4 in RESULT0 of a failed self-test: the table's rows are not numbered (R579; assumption 19). -/
opaque testRowNo : Nat → Nat

/-- The value that fuse load gives (R9, R546), by kind and index: 0 TDC_XB_DLY, 1 PM_LN_TXSKEW, 2 PM_LN_TXLAT, 3 the static part of
PM_LN_RXLAT, 4 PTE_ORG, 5 SLATE_VHASH, 6 ROOT_OK, 7 VHASH_OK, 8 TOP_BOOT_MINSVN, 9 the PCIe Vendor ID (assumption 20). -/
opaque fuse : (kind index : Nat) → Nat

end Sys2Proof.Config
end

