-- ==== Sys2Proof/Machine/Fields.lean ====
section
/-! DEFINITION. The register FIELDS of the address space (chapters 00 to 18 of spec/), one constant per field:
its position and width in its register, its access code (Table REG-5) and its reset value.
A value read from fuses (spec: reset "fuse") stands here as 0, the value before fuse load; FUSE_LOAD writes it (R546).
A field of an A/B register pair, or of an indexed register, is ONE constant; the index (0 for A, 1 for B) is an argument of
every read and write. FCU_CFG, FCU_CNT, FCU_LIVE, FCU_PEND and TOP_PWR_STAT are indexed by source or island. -/
namespace Sys2Proof.Machine

/-- Access codes of Table REG-5. -/
inductive Acc where
  | rw | ro | lv | wo1 | w1p | st
  deriving DecidableEq, Repr

/-- A register field: `no` numbers it, `lo` and `w` place it in its register, `rst` is its reset value
and `alt` lists the indices whose reset value differs. -/
structure Fld where
  no : Nat
  lo : Nat
  w : Nat
  acc : Acc
  rst : Nat
  alt : List (Nat × Nat)
  deriving DecidableEq, Repr

/-- Default severities of the fault sources below 256 that are not S0 (the fault-source tables of every chapter);
FS 256 to 383 are S1 (Table FCU-1). -/
def defaultSeverities : List (Nat × Nat) :=
  [(6, 2), (8, 2), (10, 1), (11, 1), (13, 1), (16, 2), (17, 1), (22, 1), (23, 1), (24, 1)] ++
  [(25, 2), (32, 1), (33, 1), (34, 1), (36, 1), (37, 1), (38, 1), (39, 1), (40, 1), (42, 1)] ++
  [(43, 1), (48, 2), (49, 1), (50, 1), (51, 1), (52, 1), (53, 1), (54, 1), (65, 1), (66, 1)] ++
  [(67, 1), (68, 2), (69, 2), (70, 2), (72, 1), (74, 1), (80, 1), (81, 1), (83, 1), (84, 1)] ++
  [(85, 1), (86, 1), (87, 1), (96, 1), (98, 1), (99, 1), (101, 1), (102, 1), (104, 1), (105, 1)] ++
  [(107, 1), (114, 1), (116, 1), (122, 1), (123, 1), (124, 1), (125, 1), (127, 1), (130, 1), (132, 1)] ++
  [(134, 2), (135, 2), (136, 2), (137, 1), (144, 1), (145, 2), (146, 1), (147, 2), (148, 1), (150, 1)] ++
  [(152, 1), (153, 1), (157, 1), (158, 1), (160, 1), (161, 1), (163, 1), (165, 1), (166, 1), (168, 1)] ++
  [(169, 1), (170, 1), (171, 1), (173, 1), (174, 1), (175, 1), (176, 1), (178, 1), (179, 1), (193, 3)] ++
  [(195, 1), (196, 1), (197, 1), (208, 3), (209, 2), (210, 2), (211, 2), (212, 1), (213, 3), (214, 3)] ++
  [(215, 1), (216, 3), (217, 1), (218, 1), (219, 1), (220, 1), (221, 1), (223, 3), (224, 3), (225, 3)] ++
  [(227, 1), (228, 1), (232, 3), (233, 3), (234, 3)]

/-- The default severity of source `fs`. -/
def defaultSeverity (fs : Nat) : Nat :=
  if 256 ≤ fs ∧ fs < 384 then 1 else
  match defaultSeverities.find? (fun p => p.1 == fs) with
  | some p => p.2
  | none => 0

/-- The reserved sources (R511), as ranges (first, last): every table row 'Reserved' of the fault-source tables. -/
def reservedRanges : List (Nat × Nat) :=
  [(7, 7), (15, 15), (26, 31), (44, 47), (58, 64), (73, 73), (75, 79), (92, 95), (110, 111), (118, 119), (138, 143), (151, 151), (159, 159), (167, 167), (181, 191), (198, 207), (229, 231), (235, 255), (384, 399)]

/-- Whether source `fs` is reserved (R511), or is no source number at all. -/
def isReservedFS (fs : Nat) : Bool :=
  400 ≤ fs || reservedRanges.any (fun p => p.1 ≤ fs && fs ≤ p.2)

namespace F

/-! TOP_DEVICE_ID (00_scope.md) -/
def TOP_DEVICE_ID_FAMILY : Fld := ⟨0, 24, 8, .ro, 8, []⟩
def TOP_DEVICE_ID_MEMBER : Fld := ⟨1, 16, 8, .ro, 100, []⟩
def TOP_DEVICE_ID_STEP : Fld := ⟨2, 8, 8, .ro, 11, []⟩
def TOP_DEVICE_ID_REV : Fld := ⟨3, 0, 8, .ro, 1, []⟩

/-! RIDGE_CTL (01_ridge_time.md) -/
def RIDGE_CTL_BEAT_EVT_DIV : Fld := ⟨4, 16, 16, .rw, 0, []⟩
def RIDGE_CTL_B_EN : Fld := ⟨5, 0, 1, .rw, 0, []⟩

/-! RIDGE_STAT (01_ridge_time.md) -/
def RIDGE_STAT_BEAT_NUM : Fld := ⟨6, 16, 10, .ro, 0, []⟩
def RIDGE_STAT_PHASE : Fld := ⟨7, 8, 3, .ro, 0, []⟩
def RIDGE_STAT_B_SLEWING : Fld := ⟨8, 3, 1, .lv, 0, []⟩
def RIDGE_STAT_A_SLEWING : Fld := ⟨9, 2, 1, .lv, 0, []⟩
def RIDGE_STAT_B_STEP_NEEDED : Fld := ⟨10, 1, 1, .lv, 0, []⟩
def RIDGE_STAT_A_STEP_NEEDED : Fld := ⟨11, 0, 1, .lv, 0, []⟩

/-! RIDGE_BEAT_SEQ (01_ridge_time.md) -/
def RIDGE_BEAT_SEQ_SEQ : Fld := ⟨12, 0, 32, .ro, 0, []⟩

/-! RIDGE_x_COUNT (01_ridge_time.md) -/
def RIDGE_x_COUNT_COUNT : Fld := ⟨13, 0, 64, .ro, 0, []⟩

/-! RIDGE_x_ADD_INT (01_ridge_time.md) -/
def RIDGE_x_ADD_INT_ADD_INT : Fld := ⟨14, 0, 32, .rw, 0xcccc, []⟩

/-! RIDGE_x_ADD_FRAC (01_ridge_time.md) -/
def RIDGE_x_ADD_FRAC_ADD_FRAC : Fld := ⟨15, 0, 40, .rw, 0xcccccccccc, []⟩

/-! RIDGE_ADD_LOAD (01_ridge_time.md) -/
def RIDGE_ADD_LOAD_B_LOAD : Fld := ⟨16, 1, 1, .w1p, 0, []⟩
def RIDGE_ADD_LOAD_A_LOAD : Fld := ⟨17, 0, 1, .w1p, 0, []⟩

/-! RIDGE_LIMIT_A (01_ridge_time.md) -/
def RIDGE_LIMIT_A_JUMP_LIMIT : Fld := ⟨18, 0, 20, .rw, 100, []⟩

/-! RIDGE_LIMIT_B (01_ridge_time.md) -/
def RIDGE_LIMIT_B_JUMP_B_EN : Fld := ⟨19, 31, 1, .rw, 0, []⟩
def RIDGE_LIMIT_B_JUMP_LIMIT_B : Fld := ⟨20, 0, 20, .rw, 100, []⟩

/-! RIDGE_SLEW (01_ridge_time.md) -/
def RIDGE_SLEW_SLEW_MAX_B : Fld := ⟨21, 16, 14, .rw, 50, []⟩
def RIDGE_SLEW_SLEW_MAX : Fld := ⟨22, 0, 14, .rw, 50, []⟩

/-! RIDGE_CLASS_MAP (01_ridge_time.md) -/
def RIDGE_CLASS_MAP_MAP : Fld := ⟨23, 0, 7, .rw, 2, []⟩

/-! RIDGE_CLASS_ACT (01_ridge_time.md) -/
def RIDGE_CLASS_ACT_MAP : Fld := ⟨24, 0, 7, .ro, 2, []⟩

/-! RIDGE_x_SLEW_REM (01_ridge_time.md) -/
def RIDGE_x_SLEW_REM_VALUE : Fld := ⟨25, 0, 64, .ro, 0, []⟩

/-! RIDGE_x_REQ_STEP (01_ridge_time.md) -/
def RIDGE_x_REQ_STEP_VALUE : Fld := ⟨26, 0, 64, .ro, 0, []⟩

/-! RIDGE_x_ANCHOR_COUNT (01_ridge_time.md) -/
def RIDGE_x_ANCHOR_COUNT_COUNT : Fld := ⟨27, 0, 64, .ro, 0, []⟩

/-! RIDGE_x_ANCHOR_SEC (01_ridge_time.md) -/
def RIDGE_x_ANCHOR_SEC_SEC : Fld := ⟨28, 0, 48, .ro, 0, []⟩

/-! RIDGE_x_ANCHOR_NSF (01_ridge_time.md) -/
def RIDGE_x_ANCHOR_NSF_NS : Fld := ⟨29, 16, 30, .ro, 0, []⟩
def RIDGE_x_ANCHOR_NSF_FRAC : Fld := ⟨30, 0, 16, .ro, 0, []⟩

/-! RIDGE_SNAP_CTL (01_ridge_time.md) -/
def RIDGE_SNAP_CTL_CAPTURE : Fld := ⟨31, 0, 1, .w1p, 0, []⟩

/-! RIDGE_SNAP (01_ridge_time.md) -/
def RIDGE_SNAP_COUNT : Fld := ⟨32, 0, 64, .ro, 0, []⟩

/-! RIDGE_BEAT_OVR (01_ridge_time.md) -/
def RIDGE_BEAT_OVR_SLIP_CNT : Fld := ⟨33, 16, 16, .st, 0, []⟩
def RIDGE_BEAT_OVR_OVR_CNT : Fld := ⟨34, 0, 16, .st, 0, []⟩

/-! RIDGE_BEAT_CLR (01_ridge_time.md) -/
def RIDGE_BEAT_CLR_ACK : Fld := ⟨35, 0, 1, .w1p, 0, []⟩

/-! RIDGE_PHASE_HWM (01_ridge_time.md) -/
def RIDGE_PHASE_HWM_HWM : Fld := ⟨36, 0, 16, .st, 0, []⟩

/-! RIDGE_CMP_CTL (01_ridge_time.md) -/
def RIDGE_CMP_CTL_ACK : Fld := ⟨37, 31, 1, .w1p, 0, []⟩
def RIDGE_CMP_CTL_LATE_ACT : Fld := ⟨38, 7, 1, .rw, 0, []⟩
def RIDGE_CMP_CTL_SNAP : Fld := ⟨39, 6, 1, .rw, 0, []⟩
def RIDGE_CMP_CTL_TRIG : Fld := ⟨40, 5, 1, .rw, 0, []⟩
def RIDGE_CMP_CTL_EVT : Fld := ⟨41, 4, 1, .rw, 0, []⟩
def RIDGE_CMP_CTL_MODE : Fld := ⟨42, 2, 1, .rw, 0, []⟩
def RIDGE_CMP_CTL_DOM : Fld := ⟨43, 1, 1, .rw, 0, []⟩
def RIDGE_CMP_CTL_EN : Fld := ⟨44, 0, 1, .rw, 0, []⟩

/-! RIDGE_CMP_STAT (01_ridge_time.md) -/
def RIDGE_CMP_STAT_FIRED_CNT : Fld := ⟨45, 16, 16, .st, 0, []⟩
def RIDGE_CMP_STAT_SKIPPED : Fld := ⟨46, 9, 1, .st, 0, []⟩
def RIDGE_CMP_STAT_LATE : Fld := ⟨47, 8, 1, .st, 0, []⟩
def RIDGE_CMP_STAT_ARMED : Fld := ⟨48, 0, 1, .lv, 0, []⟩

/-! RIDGE_CMP_TGT (01_ridge_time.md) -/
def RIDGE_CMP_TGT_VALUE : Fld := ⟨49, 0, 64, .rw, 0, []⟩

/-! RIDGE_CMP_PER (01_ridge_time.md) -/
def RIDGE_CMP_PER_VALUE : Fld := ⟨50, 0, 64, .rw, 0, []⟩

/-! RIDGE_CMP_CAP (01_ridge_time.md) -/
def RIDGE_CMP_CAP_VALUE : Fld := ⟨51, 0, 64, .ro, 0, []⟩

/-! TDC_CTL (02_edge_measurement.md) -/
def TDC_CTL_EN : Fld := ⟨52, 0, 1, .rw, 0, []⟩

/-! TDC_STAT (02_edge_measurement.md) -/
def TDC_STAT_FINE_LOCKED : Fld := ⟨53, 8, 8, .lv, 0, []⟩
def TDC_STAT_MAINT_ACTIVE : Fld := ⟨54, 1, 1, .lv, 0, []⟩
def TDC_STAT_MEAS_LOCK : Fld := ⟨55, 0, 1, .lv, 0, []⟩

/-! TDC_SPARE (02_edge_measurement.md) -/
def TDC_SPARE_SPARE1 : Fld := ⟨56, 8, 6, .rw, 63, []⟩
def TDC_SPARE_SPARE0 : Fld := ⟨57, 0, 6, .rw, 63, []⟩

/-! TDC_SUB (02_edge_measurement.md) -/
def TDC_SUB_GO : Fld := ⟨58, 31, 1, .w1p, 0, []⟩
def TDC_SUB_DIR : Fld := ⟨59, 9, 1, .rw, 0, []⟩
def TDC_SUB_SEL : Fld := ⟨60, 8, 1, .rw, 0, []⟩
def TDC_SUB_LCH : Fld := ⟨61, 0, 6, .rw, 0, []⟩

/-! TDC_SUB_STAT (02_edge_measurement.md) -/
def TDC_SUB_STAT_SPARE1_FOR : Fld := ⟨62, 16, 6, .ro, 63, []⟩
def TDC_SUB_STAT_SPARE0_FOR : Fld := ⟨63, 8, 6, .ro, 63, []⟩
def TDC_SUB_STAT_FAILED : Fld := ⟨64, 2, 1, .st, 0, []⟩
def TDC_SUB_STAT_DONE : Fld := ⟨65, 1, 1, .st, 0, []⟩
def TDC_SUB_STAT_BUSY : Fld := ⟨66, 0, 1, .lv, 0, []⟩

/-! TDC_CAL_CTL (02_edge_measurement.md) -/
def TDC_CAL_CTL_USE_SPARE : Fld := ⟨67, 31, 1, .rw, 1, []⟩
def TDC_CAL_CTL_TEMP_STEP : Fld := ⟨68, 16, 8, .rw, 8, []⟩
def TDC_CAL_CTL_PERIOD : Fld := ⟨69, 0, 16, .rw, 1024, []⟩

/-! TDC_FINE_CAL (02_edge_measurement.md) -/
def TDC_FINE_CAL_DNL_MAX : Fld := ⟨70, 16, 16, .ro, 0, []⟩
def TDC_FINE_CAL_BIN_AVG : Fld := ⟨71, 0, 16, .ro, 1600, []⟩

/-! TDC_CH_CTL (02_edge_measurement.md) -/
def TDC_CH_CTL_DECIM_LOG2 : Fld := ⟨72, 28, 4, .rw, 0, []⟩
def TDC_CH_CTL_MAX_STOPS : Fld := ⟨73, 24, 4, .rw, 1, []⟩
def TDC_CH_CTL_ARM_SEL : Fld := ⟨74, 16, 6, .rw, 0, []⟩
def TDC_CH_CTL_OOS : Fld := ⟨75, 5, 1, .rw, 0, []⟩
def TDC_CH_CTL_RING_EN : Fld := ⟨76, 4, 1, .rw, 0, []⟩
def TDC_CH_CTL_STOP_FALL : Fld := ⟨77, 3, 1, .rw, 0, []⟩
def TDC_CH_CTL_START_FALL : Fld := ⟨78, 2, 1, .rw, 0, []⟩
def TDC_CH_CTL_MODE : Fld := ⟨79, 1, 1, .rw, 0, []⟩
def TDC_CH_CTL_EN : Fld := ⟨80, 0, 1, .rw, 0, []⟩

/-! TDC_CH_SRC (02_edge_measurement.md) -/
def TDC_CH_SRC_STOP_SRC : Fld := ⟨81, 8, 6, .rw, 63, []⟩
def TDC_CH_SRC_START_SRC : Fld := ⟨82, 0, 6, .rw, 63, []⟩

/-! TDC_CH_GATE (02_edge_measurement.md) -/
def TDC_CH_GATE_GATE : Fld := ⟨83, 0, 20, .rw, 1024, []⟩

/-! TDC_CH_WIN (02_edge_measurement.md) -/
def TDC_CH_WIN_WIN : Fld := ⟨84, 0, 30, .rw, 0x3b9aca00, []⟩

/-! TDC_CH_NOM (02_edge_measurement.md) -/
def TDC_CH_NOM_VALUE : Fld := ⟨85, 0, 64, .rw, 0, []⟩

/-! TDC_CH_OFS (02_edge_measurement.md) -/
def TDC_CH_OFS_VALUE : Fld := ⟨86, 0, 64, .rw, 0, []⟩

/-! TDC_RES_PHASE (02_edge_measurement.md) -/
def TDC_RES_PHASE_VALUE : Fld := ⟨87, 0, 64, .ro, 0, []⟩

/-! TDC_RES_FREQ (02_edge_measurement.md) -/
def TDC_RES_FREQ_VALUE : Fld := ⟨88, 0, 64, .ro, 0, []⟩

/-! TDC_RES_N (02_edge_measurement.md) -/
def TDC_RES_N_N : Fld := ⟨89, 0, 32, .ro, 0, []⟩

/-! TDC_RES_RESID (02_edge_measurement.md) -/
def TDC_RES_RESID_RESID : Fld := ⟨90, 0, 32, .ro, 0, []⟩

/-! TDC_RES_INFO (02_edge_measurement.md) -/
def TDC_RES_INFO_VALID : Fld := ⟨91, 31, 1, .ro, 0, []⟩
def TDC_RES_INFO_FREQ_VALID : Fld := ⟨92, 30, 1, .ro, 0, []⟩
def TDC_RES_INFO_MAINT : Fld := ⟨93, 29, 1, .ro, 0, []⟩
def TDC_RES_INFO_STEP : Fld := ⟨94, 28, 1, .ro, 0, []⟩
def TDC_RES_INFO_SPARE : Fld := ⟨95, 27, 1, .ro, 0, []⟩
def TDC_RES_INFO_NO_EDGE : Fld := ⟨96, 26, 1, .ro, 0, []⟩
def TDC_RES_INFO_OVERRATE : Fld := ⟨97, 25, 1, .ro, 0, []⟩
def TDC_RES_INFO_UNLOCKED : Fld := ⟨98, 24, 1, .ro, 0, []⟩
def TDC_RES_INFO_GATE_SEQ : Fld := ⟨99, 0, 24, .ro, 0, []⟩

/-! TDC_CH_STAT (02_edge_measurement.md) -/
def TDC_CH_STAT_STATE : Fld := ⟨100, 28, 4, .lv, 0, []⟩
def TDC_CH_STAT_PHYS : Fld := ⟨101, 22, 6, .lv, 0, [(1, 1), (2, 2), (3, 3), (4, 4), (5, 5), (6, 6), (7, 7), (8, 8), (9, 9), (10, 10), (11, 11), (12, 12), (13, 13), (14, 14), (15, 15), (16, 16), (17, 17), (18, 18), (19, 19), (20, 20), (21, 21), (22, 22), (23, 23), (24, 24), (25, 25), (26, 26), (27, 27), (28, 28), (29, 29), (30, 30), (31, 31), (32, 32), (33, 33), (34, 34), (35, 35), (36, 36), (37, 37), (38, 38), (39, 39), (40, 40), (41, 41), (42, 42), (43, 43), (44, 44), (45, 45), (46, 46), (47, 47)]⟩
def TDC_CH_STAT_PENDING_ENABLE : Fld := ⟨102, 21, 1, .lv, 0, []⟩
def TDC_CH_STAT_LOCKED : Fld := ⟨103, 20, 1, .lv, 0, []⟩
def TDC_CH_STAT_WINDOW : Fld := ⟨104, 0, 2, .lv, 0, []⟩

/-! TDC_RING_WR (02_edge_measurement.md) -/
def TDC_RING_WR_PTR : Fld := ⟨105, 0, 11, .ro, 0, []⟩

/-! TDC_RING_RD (02_edge_measurement.md) -/
def TDC_RING_RD_PTR : Fld := ⟨106, 0, 11, .rw, 0, []⟩

/-! TDC_RING_LOST (02_edge_measurement.md) -/
def TDC_RING_LOST_LOST : Fld := ⟨107, 0, 32, .st, 0, []⟩

/-! TDC_CH_CNT (02_edge_measurement.md) -/
def TDC_CH_CNT_MISSED : Fld := ⟨108, 16, 16, .st, 0, []⟩
def TDC_CH_CNT_ORPHANS : Fld := ⟨109, 8, 8, .st, 0, []⟩
def TDC_CH_CNT_RESTARTS : Fld := ⟨110, 0, 8, .st, 0, []⟩

/-! TDC_XB_PRE (02_edge_measurement.md) -/
def TDC_XB_PRE_DIV : Fld := ⟨111, 0, 17, .rw, 1, []⟩

/-! TDC_XB_DLY (02_edge_measurement.md) -/
def TDC_XB_DLY_DLY : Fld := ⟨112, 0, 32, .ro, 0, []⟩

/-! ENS_CTL (03_thatch_ensemble.md) -/
def ENS_CTL_W_MAX : Fld := ⟨113, 24, 8, .rw, 128, []⟩
def ENS_CTL_WT_SHIFT : Fld := ⟨114, 16, 5, .rw, 10, []⟩
def ENS_CTL_RANK_SPAN : Fld := ⟨115, 8, 4, .rw, 14, []⟩
def ENS_CTL_MAX_MEMBERS : Fld := ⟨116, 4, 4, .rw, 12, []⟩
def ENS_CTL_EN : Fld := ⟨117, 0, 1, .rw, 0, []⟩

/-! ENS_STAT (03_thatch_ensemble.md) -/
def ENS_STAT_GEN : Fld := ⟨118, 16, 16, .ro, 0, []⟩
def ENS_STAT_PENDING_ENABLE : Fld := ⟨119, 13, 1, .lv, 0, []⟩
def ENS_STAT_TRACE_A : Fld := ⟨120, 8, 4, .lv, 0, []⟩
def ENS_STAT_MEMBERS : Fld := ⟨121, 0, 4, .lv, 0, []⟩

/-! ENS_QUAL (03_thatch_ensemble.md) -/
def ENS_QUAL_HOLDOFF : Fld := ⟨122, 16, 16, .rw, 10, []⟩
def ENS_QUAL_OUTLIER_MAX : Fld := ⟨123, 8, 8, .rw, 8, []⟩
def ENS_QUAL_OUTLIER_K : Fld := ⟨124, 0, 8, .rw, 20, []⟩

/-! ENS_DISPUTE (03_thatch_ensemble.md) -/
def ENS_DISPUTE_WIN : Fld := ⟨125, 16, 16, .rw, 64, []⟩
def ENS_DISPUTE_TOL : Fld := ⟨126, 0, 16, .rw, 50, []⟩

/-! ENS_RAMP (03_thatch_ensemble.md) -/
def ENS_RAMP_EXIT_RAMP : Fld := ⟨127, 16, 16, .rw, 1024, []⟩
def ENS_RAMP_ENTRY_RAMP : Fld := ⟨128, 0, 16, .rw, 1024, []⟩

/-! ENS_LOCK (03_thatch_ensemble.md) -/
def ENS_LOCK_LOCK_TIME : Fld := ⟨129, 16, 16, .rw, 16, []⟩
def ENS_LOCK_LOCK_PHASE : Fld := ⟨130, 0, 16, .rw, 20, []⟩

/-! ENS_LOCKF (03_thatch_ensemble.md) -/
def ENS_LOCKF_LOCK_FREQ : Fld := ⟨131, 0, 16, .rw, 1000, []⟩

/-! ENS_TRACE (03_thatch_ensemble.md) -/
def ENS_TRACE_TRACE_TAU : Fld := ⟨132, 0, 16, .rw, 100, []⟩

/-! ENS_x_PHASE (03_thatch_ensemble.md) -/
def ENS_x_PHASE_VALUE : Fld := ⟨133, 0, 64, .ro, 0, []⟩

/-! ENS_x_FREQ (03_thatch_ensemble.md) -/
def ENS_x_FREQ_VALUE : Fld := ⟨134, 0, 64, .ro, 0, []⟩

/-! ENS_B_CFG (03_thatch_ensemble.md) -/
def ENS_B_CFG_SLOT : Fld := ⟨135, 8, 5, .rw, 11, []⟩
def ENS_B_CFG_MODE : Fld := ⟨136, 0, 1, .rw, 0, []⟩

/-! ENS_B_TRACE (03_thatch_ensemble.md) -/
def ENS_B_TRACE_MASK : Fld := ⟨137, 0, 24, .rw, 2048, []⟩

/-! ENS_DOM_CTL (03_thatch_ensemble.md) -/
def ENS_DOM_CTL_B_FORCE_FREE : Fld := ⟨138, 1, 1, .rw, 0, []⟩
def ENS_DOM_CTL_A_FORCE_FREE : Fld := ⟨139, 0, 1, .rw, 0, []⟩

/-! ENS_DOM_STAT (03_thatch_ensemble.md) -/
def ENS_DOM_STAT_B_LOCKED_EVER : Fld := ⟨140, 9, 1, .ro, 0, []⟩
def ENS_DOM_STAT_A_LOCKED_EVER : Fld := ⟨141, 8, 1, .ro, 0, []⟩
def ENS_DOM_STAT_B_EVER : Fld := ⟨142, 7, 1, .ro, 0, []⟩
def ENS_DOM_STAT_B_STATE : Fld := ⟨143, 4, 3, .lv, 0, []⟩
def ENS_DOM_STAT_A_EVER : Fld := ⟨144, 3, 1, .ro, 0, []⟩
def ENS_DOM_STAT_A_STATE : Fld := ⟨145, 0, 3, .lv, 0, []⟩

/-! ENS_MEMBERS (03_thatch_ensemble.md) -/
def ENS_MEMBERS_MASK : Fld := ⟨146, 0, 24, .lv, 0, []⟩

/-! ENS_DISPUTED (03_thatch_ensemble.md) -/
def ENS_DISPUTED_MASK : Fld := ⟨147, 0, 24, .lv, 0, []⟩

/-! ENS_CHANGED (03_thatch_ensemble.md) -/
def ENS_CHANGED_CHG : Fld := ⟨148, 0, 24, .st, 0, []⟩

/-! ENS_ACK (03_thatch_ensemble.md) -/
def ENS_ACK_ACK : Fld := ⟨149, 0, 1, .w1p, 0, []⟩

/-! ENS_STEER (03_thatch_ensemble.md) -/
def ENS_STEER_VALUE : Fld := ⟨150, 0, 64, .ro, 0, []⟩

/-! ENS_SLOT_CFG (03_thatch_ensemble.md) -/
def ENS_SLOT_CFG_QUAL_TIME : Fld := ⟨151, 20, 12, .rw, 16, []⟩
def ENS_SLOT_CFG_QL_MIN : Fld := ⟨152, 16, 4, .rw, 0, []⟩
def ENS_SLOT_CFG_SRC : Fld := ⟨153, 8, 6, .rw, 63, []⟩
def ENS_SLOT_CFG_KIND : Fld := ⟨154, 1, 1, .rw, 0, [(11, 2), (20, 2), (21, 2), (22, 2), (23, 2)]⟩
def ENS_SLOT_CFG_EN : Fld := ⟨155, 0, 1, .rw, 0, []⟩

/-! ENS_SLOT_RANK (03_thatch_ensemble.md) -/
def ENS_SLOT_RANK_RANK : Fld := ⟨156, 0, 4, .rw, 0, []⟩

/-! ENS_SLOT_FTOL (03_thatch_ensemble.md) -/
def ENS_SLOT_FTOL_FTOL : Fld := ⟨157, 0, 32, .rw, 0x2710, []⟩

/-! ENS_SLOT_SIG0 (03_thatch_ensemble.md) -/
def ENS_SLOT_SIG0_SIG0 : Fld := ⟨158, 0, 32, .rw, 100, []⟩

/-! ENS_SLOT_GAIN (03_thatch_ensemble.md) -/
def ENS_SLOT_GAIN_KD_SHIFT : Fld := ⟨159, 16, 5, .rw, 20, []⟩
def ENS_SLOT_GAIN_KY_SHIFT : Fld := ⟨160, 8, 5, .rw, 10, []⟩
def ENS_SLOT_GAIN_KX : Fld := ⟨161, 0, 8, .rw, 64, []⟩

/-! ENS_SLOT_STAT (03_thatch_ensemble.md) -/
def ENS_SLOT_STAT_TIMER : Fld := ⟨162, 20, 12, .lv, 0, []⟩
def ENS_SLOT_STAT_STREAK : Fld := ⟨163, 12, 8, .lv, 0, []⟩
def ENS_SLOT_STAT_TRACE : Fld := ⟨164, 11, 1, .lv, 0, []⟩
def ENS_SLOT_STAT_MAINT : Fld := ⟨165, 10, 1, .lv, 0, []⟩
def ENS_SLOT_STAT_OUTLIER : Fld := ⟨166, 9, 1, .lv, 0, []⟩
def ENS_SLOT_STAT_FRESH : Fld := ⟨167, 8, 1, .lv, 0, []⟩
def ENS_SLOT_STAT_CAUSE : Fld := ⟨168, 4, 4, .ro, 0, []⟩
def ENS_SLOT_STAT_STATE : Fld := ⟨169, 0, 3, .lv, 0, []⟩

/-! ENS_SLOT_W (03_thatch_ensemble.md) -/
def ENS_SLOT_W_WEIGHT : Fld := ⟨170, 0, 17, .ro, 0, []⟩

/-! ENS_SLOT_CNT (03_thatch_ensemble.md) -/
def ENS_SLOT_CNT_DISPUTES : Fld := ⟨171, 24, 8, .st, 0, []⟩
def ENS_SLOT_CNT_DISQ : Fld := ⟨172, 16, 8, .st, 0, []⟩
def ENS_SLOT_CNT_OUTLIERS : Fld := ⟨173, 0, 16, .st, 0, []⟩

/-! ENS_SLOT_SIG2 (03_thatch_ensemble.md) -/
def ENS_SLOT_SIG2_VALUE : Fld := ⟨174, 0, 64, .ro, 0, []⟩

/-! ENS_SLOT_X (03_thatch_ensemble.md) -/
def ENS_SLOT_X_VALUE : Fld := ⟨175, 0, 64, .ro, 0, []⟩

/-! ENS_SLOT_Y (03_thatch_ensemble.md) -/
def ENS_SLOT_Y_VALUE : Fld := ⟨176, 0, 64, .ro, 0, []⟩

/-! ENS_SLOT_D (03_thatch_ensemble.md) -/
def ENS_SLOT_D_VALUE : Fld := ⟨177, 0, 64, .ro, 0, []⟩

/-! EAVES_CTL (04_holdover_eaves.md) -/
def EAVES_CTL_B_POLICY : Fld := ⟨178, 17, 1, .rw, 0, []⟩
def EAVES_CTL_A_POLICY : Fld := ⟨179, 16, 1, .rw, 0, []⟩
def EAVES_CTL_LEARN : Fld := ⟨180, 8, 1, .rw, 1, []⟩
def EAVES_CTL_K : Fld := ⟨181, 0, 8, .rw, 20, []⟩

/-! EAVES_STAT (04_holdover_eaves.md) -/
def EAVES_STAT_GEN : Fld := ⟨182, 16, 16, .ro, 0, []⟩
def EAVES_STAT_TEMP : Fld := ⟨183, 0, 16, .lv, 0, []⟩

/-! EAVES_PAD (04_holdover_eaves.md) -/
def EAVES_PAD_MISS_PAD : Fld := ⟨184, 16, 16, .rw, 4, []⟩
def EAVES_PAD_FLOOR : Fld := ⟨185, 0, 16, .rw, 4, []⟩

/-! EAVES_S2_PAD (04_holdover_eaves.md) -/
def EAVES_S2_PAD_PAD : Fld := ⟨186, 0, 32, .rw, 400, []⟩

/-! EAVES_x_LIMIT (04_holdover_eaves.md) -/
def EAVES_x_LIMIT_HOLDOVER_LIMIT : Fld := ⟨187, 0, 32, .rw, 4000, []⟩

/-! EAVES_x_BOUND (04_holdover_eaves.md) -/
def EAVES_x_BOUND_BOUND : Fld := ⟨188, 0, 32, .ro, 0xffffffff, []⟩

/-! EAVES_x_FLAGS (04_holdover_eaves.md) -/
def EAVES_x_FLAGS_BREACH : Fld := ⟨189, 15, 1, .st, 0, []⟩
def EAVES_x_FLAGS_WITHHELD : Fld := ⟨190, 14, 1, .lv, 0, []⟩
def EAVES_x_FLAGS_SAT : Fld := ⟨191, 13, 1, .lv, 0, []⟩
def EAVES_x_FLAGS_NEVER : Fld := ⟨192, 12, 1, .lv, 1, []⟩
def EAVES_x_FLAGS_S2 : Fld := ⟨193, 11, 1, .lv, 0, []⟩
def EAVES_x_FLAGS_CONT : Fld := ⟨194, 10, 1, .lv, 0, []⟩
def EAVES_x_FLAGS_HOLD : Fld := ⟨195, 9, 1, .lv, 0, []⟩
def EAVES_x_FLAGS_LEARNED : Fld := ⟨196, 8, 1, .lv, 0, []⟩
def EAVES_x_FLAGS_MISSED : Fld := ⟨197, 0, 8, .lv, 0, []⟩

/-! EAVES_x_C (04_holdover_eaves.md) -/
def EAVES_x_C_VALUE : Fld := ⟨198, 0, 32, .ro, 0, []⟩

/-! EAVES_x_HO_AGE (04_holdover_eaves.md) -/
def EAVES_x_HO_AGE_AGE : Fld := ⟨199, 0, 32, .ro, 0, []⟩

/-! EAVES_x_TRACE_SLOTS (04_holdover_eaves.md) -/
def EAVES_x_TRACE_SLOTS_TRACE_GEN : Fld := ⟨200, 24, 8, .ro, 0, []⟩
def EAVES_x_TRACE_SLOTS_SLOTS : Fld := ⟨201, 0, 24, .ro, 0, []⟩

/-! EAVES_x_TRACE_CAL (04_holdover_eaves.md) -/
def EAVES_x_TRACE_CAL_RECORDS : Fld := ⟨202, 0, 64, .ro, 0, []⟩

/-! EAVES_x_BREACH (04_holdover_eaves.md) -/
def EAVES_x_BREACH_VALUE : Fld := ⟨203, 0, 32, .st, 0, []⟩

/-! EAVES_CAL_CTL (04_holdover_eaves.md) -/
def EAVES_CAL_CTL_VALID : Fld := ⟨204, 31, 1, .rw, 0, []⟩
def EAVES_CAL_CTL_EXPIRED : Fld := ⟨205, 30, 1, .lv, 0, []⟩
def EAVES_CAL_CTL_ID : Fld := ⟨206, 0, 16, .rw, 0, []⟩

/-! EAVES_CAL_UNC (04_holdover_eaves.md) -/
def EAVES_CAL_UNC_UNC : Fld := ⟨207, 0, 32, .rw, 0, []⟩

/-! EAVES_CAL_UNCX (04_holdover_eaves.md) -/
def EAVES_CAL_UNCX_UNC_EXP : Fld := ⟨208, 0, 32, .rw, 0, []⟩

/-! EAVES_CAL_EXP (04_holdover_eaves.md) -/
def EAVES_CAL_EXP_EXP_DAY : Fld := ⟨209, 0, 16, .rw, 0, []⟩

/-! EAVES_SLOT_CAL (04_holdover_eaves.md) -/
def EAVES_SLOT_CAL_MASK : Fld := ⟨210, 0, 64, .rw, 0, []⟩

/-! EAVES_SLOT_UNC (04_holdover_eaves.md) -/
def EAVES_SLOT_UNC_UNC : Fld := ⟨211, 0, 32, .rw, 0, []⟩

/-! EAVES_x_CAL_COMMON (04_holdover_eaves.md) -/
def EAVES_x_CAL_COMMON_MASK : Fld := ⟨212, 0, 64, .rw, 0, []⟩

/-! EAVES_CHAR_CTL (04_holdover_eaves.md) -/
def EAVES_CHAR_CTL_LEARNED : Fld := ⟨213, 1, 1, .lv, 0, []⟩
def EAVES_CHAR_CTL_VALID : Fld := ⟨214, 0, 1, .rw, 0, []⟩

/-! EAVES_CHAR_Y0 (04_holdover_eaves.md) -/
def EAVES_CHAR_Y0_Y0 : Fld := ⟨215, 0, 32, .rw, 0, []⟩

/-! EAVES_CHAR_DRIFT (04_holdover_eaves.md) -/
def EAVES_CHAR_DRIFT_DRIFT : Fld := ⟨216, 0, 32, .rw, 0, []⟩

/-! EAVES_CHAR_WFM (04_holdover_eaves.md) -/
def EAVES_CHAR_WFM_WFM : Fld := ⟨217, 0, 32, .rw, 0, []⟩

/-! EAVES_CHAR_TEMPCO (04_holdover_eaves.md) -/
def EAVES_CHAR_TEMPCO_TEMPCO : Fld := ⟨218, 0, 32, .rw, 0, []⟩

/-! EAVES_CHAR_KV (04_holdover_eaves.md) -/
def EAVES_CHAR_KV_KV : Fld := ⟨219, 0, 32, .rw, 0, []⟩

/-! OSC_CTL (04_holdover_eaves.md) -/
def OSC_CTL_PERIOD : Fld := ⟨220, 16, 16, .rw, 64, []⟩
def OSC_CTL_G_SHIFT : Fld := ⟨221, 12, 4, .rw, 2, []⟩
def OSC_CTL_SHARED : Fld := ⟨222, 8, 1, .rw, 0, []⟩
def OSC_CTL_MEDIUM : Fld := ⟨223, 2, 1, .rw, 0, []⟩
def OSC_CTL_MODE : Fld := ⟨224, 0, 2, .rw, 0, []⟩

/-! OSC_STEP (04_holdover_eaves.md) -/
def OSC_STEP_UART_LAT : Fld := ⟨225, 16, 16, .rw, 100, []⟩
def OSC_STEP_STEP_MAX : Fld := ⟨226, 0, 16, .rw, 1024, []⟩

/-! OSC_CODE (04_holdover_eaves.md) -/
def OSC_CODE_CODE : Fld := ⟨227, 0, 20, .rw, 0x80000, []⟩

/-! OSC_ACC (04_holdover_eaves.md) -/
def OSC_ACC_ACC : Fld := ⟨228, 0, 32, .rw, 0, []⟩

/-! OSC_STAT (04_holdover_eaves.md) -/
def OSC_STAT_STEPS : Fld := ⟨229, 16, 16, .st, 0, []⟩
def OSC_STAT_MISS : Fld := ⟨230, 8, 8, .lv, 0, []⟩
def OSC_STAT_CLAMPED : Fld := ⟨231, 5, 1, .lv, 0, []⟩
def OSC_STAT_ALARM : Fld := ⟨232, 4, 1, .lv, 0, []⟩
def OSC_STAT_PRESENT : Fld := ⟨233, 3, 1, .lv, 0, []⟩
def OSC_STAT_STATE : Fld := ⟨234, 0, 3, .lv, 0, []⟩

/-! OSC_UCFG (04_holdover_eaves.md) -/
def OSC_UCFG_MISS_MAX : Fld := ⟨235, 26, 4, .rw, 3, []⟩
def OSC_UCFG_RESP_TO : Fld := ⟨236, 16, 10, .rw, 100, []⟩
def OSC_UCFG_POLL_PERIOD : Fld := ⟨237, 8, 8, .rw, 0, []⟩
def OSC_UCFG_STOP2 : Fld := ⟨238, 5, 1, .rw, 0, []⟩
def OSC_UCFG_PARITY : Fld := ⟨239, 3, 2, .rw, 0, []⟩
def OSC_UCFG_BAUD : Fld := ⟨240, 0, 3, .rw, 1, []⟩

/-! OSC_TPL (04_holdover_eaves.md) -/
def OSC_TPL_EN : Fld := ⟨241, 30, 1, .rw, 0, []⟩
def OSC_TPL_CKOFS : Fld := ⟨242, 25, 5, .rw, 0, []⟩
def OSC_TPL_CKFROM : Fld := ⟨243, 20, 5, .rw, 0, []⟩
def OSC_TPL_CKFMT : Fld := ⟨244, 18, 2, .rw, 0, []⟩
def OSC_TPL_VWID : Fld := ⟨245, 14, 4, .rw, 0, []⟩
def OSC_TPL_VSEL : Fld := ⟨246, 13, 1, .rw, 0, []⟩
def OSC_TPL_VFMT : Fld := ⟨247, 10, 3, .rw, 0, []⟩
def OSC_TPL_VOFS : Fld := ⟨248, 5, 5, .rw, 0, []⟩
def OSC_TPL_LEN : Fld := ⟨249, 0, 5, .rw, 0, []⟩

/-! OSC_RESP (04_holdover_eaves.md) -/
def OSC_RESP_BYTES : Fld := ⟨250, 0, 32, .ro, 0, []⟩

/-! DPLL_CTL (05_loops_synthesis_outputs.md) -/
def DPLL_CTL_AUTO_SW : Fld := ⟨251, 8, 1, .rw, 1, []⟩
def DPLL_CTL_REVERT : Fld := ⟨252, 7, 1, .rw, 0, []⟩
def DPLL_CTL_PBO_EN : Fld := ⟨253, 6, 1, .rw, 1, []⟩
def DPLL_CTL_DAMP : Fld := ⟨254, 4, 2, .rw, 0, []⟩
def DPLL_CTL_ORDER : Fld := ⟨255, 1, 2, .rw, 2, []⟩
def DPLL_CTL_EN : Fld := ⟨256, 0, 1, .rw, 0, []⟩

/-! DPLL_LOOP (05_loops_synthesis_outputs.md) -/
def DPLL_LOOP_PSL : Fld := ⟨257, 16, 3, .rw, 3, []⟩
def DPLL_LOOP_ACQ_BW : Fld := ⟨258, 8, 5, .rw, 12, []⟩
def DPLL_LOOP_BW : Fld := ⟨259, 0, 5, .rw, 12, []⟩

/-! DPLL_IN (05_loops_synthesis_outputs.md) -/
def DPLL_IN_EN3 : Fld := ⟨260, 31, 1, .rw, 0, []⟩
def DPLL_IN_EN2 : Fld := ⟨261, 23, 1, .rw, 0, []⟩
def DPLL_IN_EN1 : Fld := ⟨262, 15, 1, .rw, 0, []⟩
def DPLL_IN_EN0 : Fld := ⟨263, 7, 1, .rw, 0, []⟩
def DPLL_IN_SRC3 : Fld := ⟨264, 24, 6, .rw, 63, []⟩
def DPLL_IN_SRC2 : Fld := ⟨265, 16, 6, .rw, 63, []⟩
def DPLL_IN_SRC1 : Fld := ⟨266, 8, 6, .rw, 63, []⟩
def DPLL_IN_SRC0 : Fld := ⟨267, 0, 6, .rw, 63, []⟩

/-! DPLL_MON (05_loops_synthesis_outputs.md) -/
def DPLL_MON_WTR : Fld := ⟨268, 24, 8, .rw, 60, []⟩
def DPLL_MON_VAL_TIME : Fld := ⟨269, 16, 8, .rw, 10, []⟩
def DPLL_MON_FTOL : Fld := ⟨270, 0, 16, .rw, 0x2710, []⟩

/-! DPLL_THR (05_loops_synthesis_outputs.md) -/
def DPLL_THR_LOCK_WIN : Fld := ⟨271, 16, 16, .rw, 4, []⟩
def DPLL_THR_CORR_MIN : Fld := ⟨272, 0, 16, .rw, 8, []⟩

/-! DPLL_STAT (05_loops_synthesis_outputs.md) -/
def DPLL_STAT_FCLAMP : Fld := ⟨273, 14, 1, .lv, 0, []⟩
def DPLL_STAT_PSL_ACT : Fld := ⟨274, 13, 1, .lv, 0, []⟩
def DPLL_STAT_PENDING_ENABLE : Fld := ⟨275, 12, 1, .lv, 0, []⟩
def DPLL_STAT_VALID : Fld := ⟨276, 8, 4, .lv, 0, []⟩
def DPLL_STAT_ACTIVE : Fld := ⟨277, 4, 2, .lv, 0, []⟩
def DPLL_STAT_STATE : Fld := ⟨278, 0, 3, .lv, 0, []⟩

/-! DPLL_CNT (05_loops_synthesis_outputs.md) -/
def DPLL_CNT_SWITCHES : Fld := ⟨279, 16, 16, .st, 0, []⟩
def DPLL_CNT_PSL_CNT : Fld := ⟨280, 0, 16, .st, 0, []⟩

/-! DPLL_CMD (05_loops_synthesis_outputs.md) -/
def DPLL_CMD_SWITCH : Fld := ⟨281, 4, 1, .w1p, 0, []⟩
def DPLL_CMD_ENTRY : Fld := ⟨282, 0, 2, .rw, 0, []⟩

/-! DPLL_IN_DIV (05_loops_synthesis_outputs.md) -/
def DPLL_IN_DIV_DIV : Fld := ⟨283, 0, 17, .rw, 1, []⟩

/-! DPLL_PD_PER (05_loops_synthesis_outputs.md) -/
def DPLL_PD_PER_VALUE : Fld := ⟨284, 0, 64, .rw, 0, []⟩

/-! DPLL_FREQ (05_loops_synthesis_outputs.md) -/
def DPLL_FREQ_VALUE : Fld := ⟨285, 0, 64, .ro, 0, []⟩

/-! DPLL_PHERR (05_loops_synthesis_outputs.md) -/
def DPLL_PHERR_VALUE : Fld := ⟨286, 0, 64, .ro, 0, []⟩

/-! DPLL_HOLDF (05_loops_synthesis_outputs.md) -/
def DPLL_HOLDF_VALUE : Fld := ⟨287, 0, 64, .ro, 0, []⟩

/-! DPLL_PBO (05_loops_synthesis_outputs.md) -/
def DPLL_PBO_VALUE : Fld := ⟨288, 0, 64, .ro, 0, []⟩

/-! DPLL_STEPD (05_loops_synthesis_outputs.md) -/
def DPLL_STEPD_VALUE : Fld := ⟨289, 0, 64, .ro, 0, []⟩

/-! APLL_CTL (05_loops_synthesis_outputs.md) -/
def APLL_CTL_AUTO_RET : Fld := ⟨290, 24, 1, .rw, 1, []⟩
def APLL_CTL_LBW : Fld := ⟨291, 20, 2, .rw, 2, []⟩
def APLL_CTL_DPLL_SEL : Fld := ⟨292, 16, 3, .rw, 0, []⟩
def APLL_CTL_RDIV : Fld := ⟨293, 8, 6, .rw, 1, []⟩
def APLL_CTL_RDBL : Fld := ⟨294, 5, 1, .rw, 0, []⟩
def APLL_CTL_REF : Fld := ⟨295, 1, 4, .rw, 0, []⟩
def APLL_CTL_EN : Fld := ⟨296, 0, 1, .rw, 0, []⟩

/-! APLL_N (05_loops_synthesis_outputs.md) -/
def APLL_N_N : Fld := ⟨297, 0, 12, .rw, 0, []⟩

/-! APLL_FRAC (05_loops_synthesis_outputs.md) -/
def APLL_FRAC_FRAC : Fld := ⟨298, 0, 32, .rw, 0, []⟩

/-! APLL_BAND (05_loops_synthesis_outputs.md) -/
def APLL_BAND_RET_HOLD : Fld := ⟨299, 16, 8, .rw, 10, []⟩
def APLL_BAND_MAN : Fld := ⟨300, 8, 1, .rw, 0, []⟩
def APLL_BAND_MAN_BAND : Fld := ⟨301, 0, 8, .rw, 0, []⟩

/-! APLL_STAT (05_loops_synthesis_outputs.md) -/
def APLL_STAT_BAND : Fld := ⟨302, 8, 8, .ro, 0, []⟩
def APLL_STAT_PENDING_ENABLE : Fld := ⟨303, 6, 1, .lv, 0, []⟩
def APLL_STAT_BYPASS : Fld := ⟨304, 5, 1, .lv, 0, []⟩
def APLL_STAT_REF_OK : Fld := ⟨305, 4, 1, .lv, 0, []⟩
def APLL_STAT_LOCK : Fld := ⟨306, 3, 1, .lv, 0, []⟩
def APLL_STAT_STATE : Fld := ⟨307, 0, 3, .lv, 0, []⟩

/-! APLL_CNT (05_loops_synthesis_outputs.md) -/
def APLL_CNT_LOL : Fld := ⟨308, 16, 16, .st, 0, []⟩
def APLL_CNT_SEARCHES : Fld := ⟨309, 0, 16, .st, 0, []⟩

/-! APLL_SRCH (05_loops_synthesis_outputs.md) -/
def APLL_SRCH_FINAL : Fld := ⟨310, 16, 16, .ro, 0, []⟩
def APLL_SRCH_TARGET : Fld := ⟨311, 0, 16, .ro, 0, []⟩

/-! APLL_SRCH_T (05_loops_synthesis_outputs.md) -/
def APLL_SRCH_T_COUNTS : Fld := ⟨312, 8, 8, .ro, 0, []⟩
def APLL_SRCH_T_DURATION : Fld := ⟨313, 0, 8, .ro, 0, []⟩

/-! OUT_STAT (05_loops_synthesis_outputs.md) -/
def OUT_STAT_RELEASED : Fld := ⟨314, 25, 1, .ro, 0, []⟩
def OUT_STAT_ALIGN_BUSY : Fld := ⟨315, 24, 1, .lv, 0, []⟩
def OUT_STAT_PPS_SQ : Fld := ⟨316, 16, 8, .lv, 0, []⟩
def OUT_STAT_CLK_SQ : Fld := ⟨317, 0, 16, .lv, 0, []⟩

/-! OUT_CLK_CTL (05_loops_synthesis_outputs.md) -/
def OUT_CLK_CTL_BYP_DIV : Fld := ⟨318, 16, 8, .rw, 1, []⟩
def OUT_CLK_CTL_S3_ACT : Fld := ⟨319, 14, 1, .rw, 0, []⟩
def OUT_CLK_CTL_SQ_MASK : Fld := ⟨320, 8, 6, .rw, 0, []⟩
def OUT_CLK_CTL_FMT : Fld := ⟨321, 4, 3, .rw, 0, []⟩
def OUT_CLK_CTL_SRC : Fld := ⟨322, 1, 3, .rw, 0, []⟩
def OUT_CLK_CTL_EN : Fld := ⟨323, 0, 1, .rw, 0, []⟩

/-! OUT_CLK_DIV (05_loops_synthesis_outputs.md) -/
def OUT_CLK_DIV_DIV : Fld := ⟨324, 0, 24, .rw, 64, []⟩

/-! OUT_CLK_DLY (05_loops_synthesis_outputs.md) -/
def OUT_CLK_DLY_COARSE : Fld := ⟨325, 16, 12, .rw, 0, []⟩
def OUT_CLK_DLY_FINE : Fld := ⟨326, 0, 7, .rw, 0, []⟩

/-! OUT_CLK_STAT (05_loops_synthesis_outputs.md) -/
def OUT_CLK_STAT_SQ_CNT : Fld := ⟨327, 16, 16, .st, 0, []⟩
def OUT_CLK_STAT_PENDING_ENABLE : Fld := ⟨328, 3, 1, .lv, 0, []⟩
def OUT_CLK_STAT_BYPASS : Fld := ⟨329, 2, 1, .lv, 0, []⟩
def OUT_CLK_STAT_SQUELCHED : Fld := ⟨330, 1, 1, .lv, 0, []⟩
def OUT_CLK_STAT_RUNNING : Fld := ⟨331, 0, 1, .lv, 0, []⟩

/-! OUT_PPS_CTL (05_loops_synthesis_outputs.md) -/
def OUT_PPS_CTL_S3_ACT : Fld := ⟨332, 14, 1, .rw, 0, []⟩
def OUT_PPS_CTL_SQ_MASK : Fld := ⟨333, 8, 6, .rw, 0, []⟩
def OUT_PPS_CTL_POL : Fld := ⟨334, 5, 1, .rw, 0, []⟩
def OUT_PPS_CTL_FMT : Fld := ⟨335, 2, 3, .rw, 0, []⟩
def OUT_PPS_CTL_DOM : Fld := ⟨336, 1, 1, .rw, 0, []⟩
def OUT_PPS_CTL_EN : Fld := ⟨337, 0, 1, .rw, 0, []⟩

/-! OUT_PPS_WIDTH (05_loops_synthesis_outputs.md) -/
def OUT_PPS_WIDTH_WIDTH : Fld := ⟨338, 0, 23, .rw, 0xf4240, []⟩

/-! OUT_PPS_PER (05_loops_synthesis_outputs.md) -/
def OUT_PPS_PER_PER : Fld := ⟨339, 0, 32, .rw, 0x1e848, []⟩

/-! OUT_PPS_OFS (05_loops_synthesis_outputs.md) -/
def OUT_PPS_OFS_OFS : Fld := ⟨340, 0, 32, .rw, 0, []⟩

/-! OUT_PPS_DIFF (05_loops_synthesis_outputs.md) -/
def OUT_PPS_DIFF_DIFF : Fld := ⟨341, 0, 64, .ro, 0, []⟩

/-! OUT_PPS_STAT (05_loops_synthesis_outputs.md) -/
def OUT_PPS_STAT_SQ_CNT : Fld := ⟨342, 16, 16, .st, 0, []⟩
def OUT_PPS_STAT_ALIGNING : Fld := ⟨343, 4, 1, .lv, 0, []⟩
def OUT_PPS_STAT_PENDING_ENABLE : Fld := ⟨344, 3, 1, .lv, 0, []⟩
def OUT_PPS_STAT_OFS_STAGED : Fld := ⟨345, 2, 1, .lv, 0, []⟩
def OUT_PPS_STAT_SQUELCHED : Fld := ⟨346, 1, 1, .lv, 0, []⟩
def OUT_PPS_STAT_RUNNING : Fld := ⟨347, 0, 1, .lv, 0, []⟩

/-! GNSS_CTL (06_gnss_receiver.md) -/
def GNSS_CTL_TIME_SYS : Fld := ⟨348, 16, 4, .rw, 0, []⟩
def GNSS_CTL_UTC_CORR : Fld := ⟨349, 12, 1, .rw, 1, []⟩
def GNSS_CTL_SPOOF_REQ : Fld := ⟨350, 11, 1, .rw, 0, []⟩
def GNSS_CTL_BASE_LEARN : Fld := ⟨351, 10, 1, .rw, 1, []⟩
def GNSS_CTL_MODE : Fld := ⟨352, 8, 2, .rw, 1, []⟩
def GNSS_CTL_EPOCH_RATE : Fld := ⟨353, 4, 3, .rw, 0, []⟩
def GNSS_CTL_AUTO_CH : Fld := ⟨354, 2, 1, .rw, 1, []⟩
def GNSS_CTL_ANT1_EN : Fld := ⟨355, 1, 1, .rw, 1, []⟩
def GNSS_CTL_EN : Fld := ⟨356, 0, 1, .rw, 0, []⟩

/-! GNSS_STAT (06_gnss_receiver.md) -/
def GNSS_STAT_START_KIND : Fld := ⟨357, 26, 3, .ro, 0, []⟩
def GNSS_STAT_CH_TRACK : Fld := ⟨358, 17, 9, .lv, 0, []⟩
def GNSS_STAT_SV_USED : Fld := ⟨359, 9, 8, .lv, 0, []⟩
def GNSS_STAT_SOL_VALID : Fld := ⟨360, 8, 1, .lv, 0, []⟩
def GNSS_STAT_MODE_ACT : Fld := ⟨361, 6, 2, .lv, 0, []⟩
def GNSS_STAT_PENDING_ENABLE : Fld := ⟨362, 4, 1, .lv, 0, []⟩
def GNSS_STAT_STATE : Fld := ⟨363, 0, 3, .lv, 0, []⟩

/-! GNSS_MIN (06_gnss_receiver.md) -/
def GNSS_MIN_CN0_MASK : Fld := ⟨364, 16, 8, .rw, 30, []⟩
def GNSS_MIN_ELEV_MASK : Fld := ⟨365, 8, 8, .rw, 10, []⟩
def GNSS_MIN_MIN_SV : Fld := ⟨366, 0, 8, .rw, 4, []⟩

/-! GNSS_TRK (06_gnss_receiver.md) -/
def GNSS_TRK_TINT : Fld := ⟨367, 28, 4, .rw, 0, []⟩
def GNSS_TRK_CORR_SP : Fld := ⟨368, 24, 4, .rw, 10, []⟩
def GNSS_TRK_DLL_BW : Fld := ⟨369, 16, 8, .rw, 50, []⟩
def GNSS_TRK_FLL_BW : Fld := ⟨370, 8, 8, .rw, 16, []⟩
def GNSS_TRK_PLL_BW : Fld := ⟨371, 0, 8, .rw, 60, []⟩

/-! GNSS_ACQ (06_gnss_receiver.md) -/
def GNSS_ACQ_DOPP_RANGE : Fld := ⟨372, 16, 16, .rw, 5000, []⟩
def GNSS_ACQ_NC : Fld := ⟨373, 8, 7, .rw, 8, []⟩
def GNSS_ACQ_T_COH : Fld := ⟨374, 0, 5, .rw, 4, []⟩

/-! GNSS_EPOCH_SEQ (06_gnss_receiver.md) -/
def GNSS_EPOCH_SEQ_SEQ : Fld := ⟨375, 0, 32, .ro, 0, []⟩

/-! GNSS_EPOCH_E (06_gnss_receiver.md) -/
def GNSS_EPOCH_E_E : Fld := ⟨376, 0, 64, .ro, 0, []⟩

/-! GNSS_SPOOF_CFG (06_gnss_receiver.md) -/
def GNSS_SPOOF_CFG_CLEAR_TIME : Fld := ⟨377, 24, 8, .rw, 60, []⟩
def GNSS_SPOOF_CFG_MIN_GEO : Fld := ⟨378, 16, 8, .rw, 5, []⟩
def GNSS_SPOOF_CFG_SPOOF_N : Fld := ⟨379, 12, 4, .rw, 3, []⟩
def GNSS_SPOOF_CFG_GEO_TOL : Fld := ⟨380, 0, 10, .rw, 100, []⟩

/-! GNSS_SPOOF_TOL (06_gnss_receiver.md) -/
def GNSS_SPOOF_TOL_POS_TOL : Fld := ⟨381, 16, 16, .rw, 500, []⟩
def GNSS_SPOOF_TOL_TIME_PAD : Fld := ⟨382, 0, 16, .rw, 100, []⟩

/-! GNSS_VERDICT (06_gnss_receiver.md) -/
def GNSS_VERDICT_JAM : Fld := ⟨383, 16, 8, .lv, 0, []⟩
def GNSS_VERDICT_EXCL : Fld := ⟨384, 8, 8, .lv, 0, []⟩
def GNSS_VERDICT_CAUSE : Fld := ⟨385, 4, 3, .lv, 0, []⟩
def GNSS_VERDICT_VERDICT : Fld := ⟨386, 0, 3, .lv, 0, []⟩

/-! GNSS_SPOOF_STAT (06_gnss_receiver.md) -/
def GNSS_SPOOF_STAT_D : Fld := ⟨387, 16, 10, .ro, 0, []⟩
def GNSS_SPOOF_STAT_RMS : Fld := ⟨388, 0, 10, .ro, 0, []⟩

/-! GNSS_VCNT (06_gnss_receiver.md) -/
def GNSS_VCNT_SUSPECT_CNT : Fld := ⟨389, 16, 16, .st, 0, []⟩
def GNSS_VCNT_SPOOFED_CNT : Fld := ⟨390, 0, 16, .st, 0, []⟩

/-! GNSS_FE_CFG (06_gnss_receiver.md) -/
def GNSS_FE_CFG_SCK_DIV : Fld := ⟨391, 16, 4, .rw, 4, []⟩
def GNSS_FE_CFG_ID_ADDR : Fld := ⟨392, 0, 8, .rw, 0, []⟩

/-! GNSS_FE_ID (06_gnss_receiver.md) -/
def GNSS_FE_ID_EXP : Fld := ⟨393, 0, 32, .rw, 0, []⟩

/-! GNSS_POS_X (06_gnss_receiver.md) -/
def GNSS_POS_X_POS : Fld := ⟨394, 0, 64, .rw, 0, []⟩

/-! GNSS_POS_Y (06_gnss_receiver.md) -/
def GNSS_POS_Y_POS : Fld := ⟨395, 0, 64, .rw, 0, []⟩

/-! GNSS_POS_Z (06_gnss_receiver.md) -/
def GNSS_POS_Z_POS : Fld := ⟨396, 0, 64, .rw, 0, []⟩

/-! GNSS_POS_SIG (06_gnss_receiver.md) -/
def GNSS_POS_SIG_SIG : Fld := ⟨397, 0, 32, .ro, 0, []⟩

/-! GNSS_SURVEY (06_gnss_receiver.md) -/
def GNSS_SURVEY_SURVEY_ACC : Fld := ⟨398, 16, 16, .rw, 2000, []⟩
def GNSS_SURVEY_SURVEY_TIME : Fld := ⟨399, 0, 16, .rw, 3600, []⟩

/-! GNSS_BASE_E (06_gnss_receiver.md) -/
def GNSS_BASE_E_BASE : Fld := ⟨400, 0, 32, .rw, 0, []⟩

/-! GNSS_BASE_N (06_gnss_receiver.md) -/
def GNSS_BASE_N_BASE : Fld := ⟨401, 0, 32, .rw, 0, []⟩

/-! GNSS_BASE_U (06_gnss_receiver.md) -/
def GNSS_BASE_U_BASE : Fld := ⟨402, 0, 32, .rw, 0, []⟩

/-! GNSS_BASE_STAT (06_gnss_receiver.md) -/
def GNSS_BASE_STAT_LEARNED : Fld := ⟨403, 1, 1, .ro, 0, []⟩
def GNSS_BASE_STAT_KNOWN : Fld := ⟨404, 0, 1, .ro, 0, []⟩

/-! GNSS_CABLE (06_gnss_receiver.md) -/
def GNSS_CABLE_CABLE : Fld := ⟨405, 0, 64, .rw, 0, []⟩

/-! GNSS_BAND_DLY (06_gnss_receiver.md) -/
def GNSS_BAND_DLY_DLY : Fld := ⟨406, 0, 32, .rw, 0, []⟩

/-! GNSS_UNC (06_gnss_receiver.md) -/
def GNSS_UNC_K_U : Fld := ⟨407, 16, 8, .rw, 12, []⟩
def GNSS_UNC_U_FLOOR : Fld := ⟨408, 0, 16, .rw, 2000, []⟩

/-! GNSS_IONO_PAD (06_gnss_receiver.md) -/
def GNSS_IONO_PAD_IONO_PAD : Fld := ⟨409, 0, 32, .rw, 0x2710, []⟩

/-! GNSS_HINT (06_gnss_receiver.md) -/
def GNSS_HINT_USED : Fld := ⟨410, 17, 1, .ro, 0, []⟩
def GNSS_HINT_VALID : Fld := ⟨411, 16, 1, .ro, 0, []⟩
def GNSS_HINT_HINT_PERIOD : Fld := ⟨412, 0, 16, .rw, 3600, []⟩

/-! GNSS_HINT_AGE (06_gnss_receiver.md) -/
def GNSS_HINT_AGE_AGE : Fld := ⟨413, 0, 32, .ro, 0, []⟩

/-! GNSS_TSOL_OFS (06_gnss_receiver.md) -/
def GNSS_TSOL_OFS_OFS : Fld := ⟨414, 0, 64, .ro, 0, []⟩

/-! GNSS_TSOL_FREQ (06_gnss_receiver.md) -/
def GNSS_TSOL_FREQ_FREQ : Fld := ⟨415, 0, 64, .ro, 0, []⟩

/-! GNSS_TSOL_UNC (06_gnss_receiver.md) -/
def GNSS_TSOL_UNC_U : Fld := ⟨416, 0, 32, .ro, 0, []⟩

/-! GNSS_TSOL_INFO (06_gnss_receiver.md) -/
def GNSS_TSOL_INFO_VALID : Fld := ⟨417, 31, 1, .ro, 0, []⟩
def GNSS_TSOL_INFO_DUAL_FREQ : Fld := ⟨418, 30, 1, .ro, 0, []⟩
def GNSS_TSOL_INFO_HOLD : Fld := ⟨419, 29, 1, .ro, 0, []⟩
def GNSS_TSOL_INFO_AGE : Fld := ⟨420, 16, 8, .ro, 0, []⟩
def GNSS_TSOL_INFO_SEQ : Fld := ⟨421, 0, 16, .ro, 0, []⟩

/-! GNSS_ISB (06_gnss_receiver.md) -/
def GNSS_ISB_ISB : Fld := ⟨422, 0, 32, .ro, 0, []⟩

/-! GNSS_UTC (06_gnss_receiver.md) -/
def GNSS_UTC_PEND : Fld := ⟨423, 16, 1, .ro, 0, []⟩
def GNSS_UTC_TAI_UTC_NEXT : Fld := ⟨424, 8, 8, .ro, 0, []⟩
def GNSS_UTC_TAI_UTC : Fld := ⟨425, 0, 8, .ro, 0, []⟩

/-! GNSS_UTC_DAY (06_gnss_receiver.md) -/
def GNSS_UTC_DAY_DAY : Fld := ⟨426, 0, 16, .ro, 0, []⟩

/-! GNSS_FE_IDR (06_gnss_receiver.md) -/
def GNSS_FE_IDR_ID : Fld := ⟨427, 0, 32, .ro, 0, []⟩

/-! GNSS_STREAM_CTL (06_gnss_receiver.md) -/
def GNSS_STREAM_CTL_SIG_MASK : Fld := ⟨428, 16, 13, .rw, 0, []⟩
def GNSS_STREAM_CTL_SPEC_INV : Fld := ⟨429, 6, 1, .rw, 0, []⟩
def GNSS_STREAM_CTL_IQ_SWAP : Fld := ⟨430, 5, 1, .rw, 0, []⟩
def GNSS_STREAM_CTL_FMT : Fld := ⟨431, 3, 2, .rw, 0, []⟩
def GNSS_STREAM_CTL_RATE : Fld := ⟨432, 1, 2, .rw, 0, []⟩
def GNSS_STREAM_CTL_EN : Fld := ⟨433, 0, 1, .rw, 0, []⟩

/-! GNSS_STREAM_LO (06_gnss_receiver.md) -/
def GNSS_STREAM_LO_LO : Fld := ⟨434, 0, 32, .rw, 0, []⟩

/-! GNSS_STREAM_JAM (06_gnss_receiver.md) -/
def GNSS_STREAM_JAM_NOTCH_MODE : Fld := ⟨435, 16, 2, .rw, 1, []⟩
def GNSS_STREAM_JAM_NOTCH_THR : Fld := ⟨436, 8, 8, .rw, 48, []⟩
def GNSS_STREAM_JAM_JAM_THR : Fld := ⟨437, 0, 8, .rw, 40, []⟩

/-! GNSS_STREAM_STAT (06_gnss_receiver.md) -/
def GNSS_STREAM_STAT_NOTCHES : Fld := ⟨438, 28, 4, .lv, 0, []⟩
def GNSS_STREAM_STAT_SAT : Fld := ⟨439, 18, 1, .lv, 0, []⟩
def GNSS_STREAM_STAT_SCLK_OK : Fld := ⟨440, 17, 1, .lv, 0, []⟩
def GNSS_STREAM_STAT_JAM : Fld := ⟨441, 16, 1, .lv, 0, []⟩
def GNSS_STREAM_STAT_JN : Fld := ⟨442, 0, 8, .lv, 0, []⟩

/-! GNSS_NOTCH (06_gnss_receiver.md) -/
def GNSS_NOTCH_ACTIVE : Fld := ⟨443, 31, 1, .lv, 0, []⟩
def GNSS_NOTCH_WIDTH : Fld := ⟨444, 24, 4, .rw, 0, []⟩
def GNSS_NOTCH_FREQ : Fld := ⟨445, 0, 24, .rw, 0, []⟩

/-! SDS_GRP_CTL (07_ethernet_ports.md) -/
def SDS_GRP_CTL_FEC : Fld := ⟨446, 30, 2, .rw, 3, []⟩
def SDS_GRP_CTL_PMD : Fld := ⟨447, 24, 4, .rw, 0, []⟩
def SDS_GRP_CTL_TX_REF : Fld := ⟨448, 20, 4, .rw, 0, []⟩
def SDS_GRP_CTL_OOS : Fld := ⟨449, 18, 1, .rw, 0, []⟩
def SDS_GRP_CTL_RCLK_LANE : Fld := ⟨450, 16, 2, .rw, 0, []⟩
def SDS_GRP_CTL_RCLK_DIV : Fld := ⟨451, 8, 8, .rw, 25, []⟩
def SDS_GRP_CTL_LB_TXON : Fld := ⟨452, 7, 1, .rw, 0, []⟩
def SDS_GRP_CTL_LB : Fld := ⟨453, 4, 3, .rw, 0, []⟩
def SDS_GRP_CTL_MODE : Fld := ⟨454, 1, 3, .rw, 4, []⟩
def SDS_GRP_CTL_EN : Fld := ⟨455, 0, 1, .rw, 0, []⟩

/-! SDS_GRP_AN (07_ethernet_ports.md) -/
def SDS_GRP_AN_ASM_DIR : Fld := ⟨456, 11, 1, .rw, 1, []⟩
def SDS_GRP_AN_PAUSE : Fld := ⟨457, 10, 1, .rw, 1, []⟩
def SDS_GRP_AN_BASER_REQ : Fld := ⟨458, 9, 1, .rw, 1, []⟩
def SDS_GRP_AN_RS_REQ : Fld := ⟨459, 8, 1, .rw, 1, []⟩
def SDS_GRP_AN_A_100CR4 : Fld := ⟨460, 4, 1, .rw, 1, []⟩
def SDS_GRP_AN_A_100KR4 : Fld := ⟨461, 3, 1, .rw, 1, []⟩
def SDS_GRP_AN_A_25G : Fld := ⟨462, 2, 1, .rw, 1, []⟩
def SDS_GRP_AN_A_25GS : Fld := ⟨463, 1, 1, .rw, 1, []⟩
def SDS_GRP_AN_A_10KR : Fld := ⟨464, 0, 1, .rw, 1, []⟩

/-! SDS_GRP_STAT (07_ethernet_ports.md) -/
def SDS_GRP_STAT_MOD_PRESENT : Fld := ⟨465, 19, 1, .lv, 0, []⟩
def SDS_GRP_STAT_PENDING_ENABLE : Fld := ⟨466, 18, 1, .lv, 0, []⟩
def SDS_GRP_STAT_TX_REF_ACT : Fld := ⟨467, 17, 1, .lv, 0, []⟩
def SDS_GRP_STAT_RCLK_OK : Fld := ⟨468, 16, 1, .lv, 0, []⟩
def SDS_GRP_STAT_FEC_RES : Fld := ⟨469, 12, 2, .lv, 0, []⟩
def SDS_GRP_STAT_PMD_RES : Fld := ⟨470, 8, 4, .lv, 0, []⟩
def SDS_GRP_STAT_MODE_RES : Fld := ⟨471, 4, 3, .lv, 0, []⟩
def SDS_GRP_STAT_STATE : Fld := ⟨472, 0, 3, .lv, 0, []⟩

/-! SDS_GRP_QL (07_ethernet_ports.md) -/
def SDS_GRP_QL_RX_TIMEOUT : Fld := ⟨473, 27, 1, .lv, 0, []⟩
def SDS_GRP_QL_OPT_II : Fld := ⟨474, 26, 1, .rw, 0, []⟩
def SDS_GRP_QL_ENH : Fld := ⟨475, 25, 1, .rw, 0, []⟩
def SDS_GRP_QL_QL_HOLD : Fld := ⟨476, 20, 4, .rw, 6, []⟩
def SDS_GRP_QL_QL_LOCKED : Fld := ⟨477, 16, 4, .rw, 8, []⟩
def SDS_GRP_QL_QL_FIXED : Fld := ⟨478, 12, 4, .rw, 1, []⟩
def SDS_GRP_QL_TX_MODE : Fld := ⟨479, 10, 2, .rw, 0, []⟩
def SDS_GRP_QL_QL_TX : Fld := ⟨480, 4, 4, .lv, 0, []⟩
def SDS_GRP_QL_QL_RX : Fld := ⟨481, 0, 4, .lv, 0, []⟩

/-! SDS_GRP_CNT (07_ethernet_ports.md) -/
def SDS_GRP_CNT_QL_CHG : Fld := ⟨482, 16, 16, .st, 0, []⟩
def SDS_GRP_CNT_RCLK_SQ : Fld := ⟨483, 0, 16, .st, 0, []⟩

/-! SDS_LN_CTL (07_ethernet_ports.md) -/
def SDS_LN_CTL_EYE_THR : Fld := ⟨484, 24, 8, .rw, 24, []⟩
def SDS_LN_CTL_PRBS_TX : Fld := ⟨485, 12, 4, .rw, 0, []⟩
def SDS_LN_CTL_PRBS_RX : Fld := ⟨486, 8, 4, .rw, 0, []⟩
def SDS_LN_CTL_TX_INV : Fld := ⟨487, 7, 1, .rw, 0, []⟩
def SDS_LN_CTL_RX_INV : Fld := ⟨488, 6, 1, .rw, 0, []⟩
def SDS_LN_CTL_ADAPT_HOLD : Fld := ⟨489, 5, 1, .rw, 0, []⟩
def SDS_LN_CTL_READAPT : Fld := ⟨490, 4, 1, .w1p, 0, []⟩

/-! SDS_LN_STAT (07_ethernet_ports.md) -/
def SDS_LN_STAT_EYE : Fld := ⟨491, 24, 8, .lv, 0, []⟩
def SDS_LN_STAT_FROZEN : Fld := ⟨492, 7, 1, .lv, 0, []⟩
def SDS_LN_STAT_ADAPTING : Fld := ⟨493, 6, 1, .lv, 0, []⟩
def SDS_LN_STAT_CDR_LOCK : Fld := ⟨494, 5, 1, .lv, 0, []⟩
def SDS_LN_STAT_SIG_DET : Fld := ⟨495, 4, 1, .lv, 0, []⟩
def SDS_LN_STAT_BLOCK_LOCK : Fld := ⟨496, 3, 1, .lv, 0, []⟩
def SDS_LN_STAT_PRBS_LOCK : Fld := ⟨497, 2, 1, .lv, 0, []⟩
def SDS_LN_STAT_EYE_LOW : Fld := ⟨498, 1, 1, .lv, 0, []⟩
def SDS_LN_STAT_TRAINED : Fld := ⟨499, 0, 1, .lv, 0, []⟩

/-! SDS_LN_EQ (07_ethernet_ports.md) -/
def SDS_LN_EQ_CTLE : Fld := ⟨500, 24, 8, .ro, 0, []⟩
def SDS_LN_EQ_DFE1 : Fld := ⟨501, 16, 8, .ro, 0, []⟩
def SDS_LN_EQ_TX_POST : Fld := ⟨502, 8, 8, .ro, 0, []⟩
def SDS_LN_EQ_TX_PRE : Fld := ⟨503, 0, 8, .ro, 0, []⟩

/-! SDS_LN_CNT (07_ethernet_ports.md) -/
def SDS_LN_CNT_READAPTS : Fld := ⟨504, 16, 16, .st, 0, []⟩
def SDS_LN_CNT_FREEZES : Fld := ⟨505, 0, 16, .st, 0, []⟩

/-! SDS_LN_PRBS_ERR (07_ethernet_ports.md) -/
def SDS_LN_PRBS_ERR_ERRORS : Fld := ⟨506, 0, 32, .st, 0, []⟩

/-! MAC_CTL (07_ethernet_ports.md) -/
def MAC_CTL_MAXF : Fld := ⟨507, 16, 14, .rw, 1522, []⟩
def MAC_CTL_WAKE_SEL : Fld := ⟨508, 12, 2, .rw, 0, []⟩
def MAC_CTL_QINQ : Fld := ⟨509, 11, 1, .rw, 0, []⟩
def MAC_CTL_TAG_INS : Fld := ⟨510, 10, 1, .rw, 0, []⟩
def MAC_CTL_TAG_STRIP : Fld := ⟨511, 9, 1, .rw, 0, []⟩
def MAC_CTL_FC_TX_EN : Fld := ⟨512, 8, 1, .rw, 0, []⟩
def MAC_CTL_PFC_EN : Fld := ⟨513, 7, 1, .rw, 0, []⟩
def MAC_CTL_PFC_IGN : Fld := ⟨514, 6, 1, .rw, 0, []⟩
def MAC_CTL_FC_IGN : Fld := ⟨515, 5, 1, .rw, 0, []⟩
def MAC_CTL_DOZE : Fld := ⟨516, 1, 1, .rw, 0, []⟩
def MAC_CTL_EN : Fld := ⟨517, 0, 1, .rw, 0, []⟩

/-! MAC_ADDR_LO (07_ethernet_ports.md) -/
def MAC_ADDR_LO_ADDR : Fld := ⟨518, 0, 32, .rw, 0, []⟩

/-! MAC_ADDR_HI (07_ethernet_ports.md) -/
def MAC_ADDR_HI_ADDR : Fld := ⟨519, 0, 16, .rw, 0, []⟩

/-! MAC_TAG (07_ethernet_ports.md) -/
def MAC_TAG_S_TCI : Fld := ⟨520, 16, 16, .rw, 0, []⟩
def MAC_TAG_C_TCI : Fld := ⟨521, 0, 16, .rw, 0, []⟩

/-! MAC_FC (07_ethernet_ports.md) -/
def MAC_FC_XON : Fld := ⟨522, 24, 8, .rw, 32, []⟩
def MAC_FC_XOFF : Fld := ⟨523, 16, 8, .rw, 48, []⟩
def MAC_FC_QUANTA_TX : Fld := ⟨524, 0, 16, .rw, 0xffff, []⟩

/-! MAC_STAT (07_ethernet_ports.md) -/
def MAC_STAT_RATE : Fld := ⟨525, 20, 2, .lv, 0, []⟩
def MAC_STAT_PENDING_ENABLE : Fld := ⟨526, 19, 1, .lv, 0, []⟩
def MAC_STAT_REMOTE_FAULT : Fld := ⟨527, 18, 1, .lv, 0, []⟩
def MAC_STAT_LOCAL_FAULT : Fld := ⟨528, 17, 1, .lv, 0, []⟩
def MAC_STAT_PAUSED : Fld := ⟨529, 16, 1, .lv, 0, []⟩
def MAC_STAT_PFC_PAUSED : Fld := ⟨530, 8, 8, .lv, 0, []⟩
def MAC_STAT_STATE : Fld := ⟨531, 0, 4, .lv, 0, []⟩

/-! MAC_FEC_THR (07_ethernet_ports.md) -/
def MAC_FEC_THR_FEC_THR : Fld := ⟨532, 0, 16, .rw, 0, []⟩

/-! MAC_CNT_ACK (07_ethernet_ports.md) -/
def MAC_CNT_ACK_ACK : Fld := ⟨533, 0, 1, .w1p, 0, []⟩

/-! MAC_CNT_RX_FRAMES (07_ethernet_ports.md) -/
def MAC_CNT_RX_FRAMES_RX_FRAMES : Fld := ⟨534, 0, 64, .st, 0, []⟩

/-! MAC_CNT_TX_FRAMES (07_ethernet_ports.md) -/
def MAC_CNT_TX_FRAMES_TX_FRAMES : Fld := ⟨535, 0, 64, .st, 0, []⟩

/-! MAC_CNT_RX_ERR (07_ethernet_ports.md) -/
def MAC_CNT_RX_ERR_RX_ERR : Fld := ⟨536, 0, 32, .st, 0, []⟩

/-! MAC_CNT_PAUSE_RX (07_ethernet_ports.md) -/
def MAC_CNT_PAUSE_RX_PAUSE_RX : Fld := ⟨537, 0, 32, .st, 0, []⟩

/-! MAC_CNT_PAUSE_IGN (07_ethernet_ports.md) -/
def MAC_CNT_PAUSE_IGN_PAUSE_IGN : Fld := ⟨538, 0, 32, .st, 0, []⟩

/-! MAC_CNT_DROP (07_ethernet_ports.md) -/
def MAC_CNT_DROP_DROP : Fld := ⟨539, 0, 32, .st, 0, []⟩

/-! MAC_CNT_FEC_CORR (07_ethernet_ports.md) -/
def MAC_CNT_FEC_CORR_FEC_CORR : Fld := ⟨540, 0, 32, .st, 0, []⟩

/-! MAC_CNT_FEC_UNCORR (07_ethernet_ports.md) -/
def MAC_CNT_FEC_UNCORR_FEC_UNCORR : Fld := ⟨541, 0, 32, .st, 0, []⟩

/-! MAC_CNT_LINK_DOWN (07_ethernet_ports.md) -/
def MAC_CNT_LINK_DOWN_LINK_DOWN : Fld := ⟨542, 0, 32, .st, 0, []⟩

/-! MAC_CNT_RSVD (07_ethernet_ports.md) -/

/-! PM_CTL (08_postmarks_timed_launch.md) -/
def PM_CTL_LQ_PM : Fld := ⟨543, 4, 1, .rw, 0, []⟩
def PM_CTL_TX_HOST : Fld := ⟨544, 3, 1, .rw, 0, []⟩
def PM_CTL_RX_SEL : Fld := ⟨545, 1, 2, .rw, 0, []⟩
def PM_CTL_EN : Fld := ⟨546, 0, 1, .rw, 0, []⟩

/-! PM_RING_WR (08_postmarks_timed_launch.md) -/
def PM_RING_WR_PTR : Fld := ⟨547, 0, 13, .ro, 0, []⟩

/-! PM_RING_RD (08_postmarks_timed_launch.md) -/
def PM_RING_RD_PTR : Fld := ⟨548, 0, 13, .rw, 0, []⟩

/-! PM_LOST (08_postmarks_timed_launch.md) -/
def PM_LOST_LOST : Fld := ⟨549, 0, 32, .st, 0, []⟩

/-! PM_STAT (08_postmarks_timed_launch.md) -/
def PM_STAT_CORR_GEN : Fld := ⟨550, 8, 8, .ro, 0, []⟩
def PM_STAT_FULL : Fld := ⟨551, 0, 1, .lv, 0, []⟩

/-! PM_RX_OFS (08_postmarks_timed_launch.md) -/
def PM_RX_OFS_OFS : Fld := ⟨552, 0, 32, .rw, 0, []⟩

/-! PM_TX_OFS (08_postmarks_timed_launch.md) -/
def PM_TX_OFS_OFS : Fld := ⟨553, 0, 32, .rw, 0, []⟩

/-! PM_LN_RXSKEW (08_postmarks_timed_launch.md) -/
def PM_LN_RXSKEW_VALUE : Fld := ⟨554, 0, 32, .ro, 0, []⟩

/-! PM_LN_TXSKEW (08_postmarks_timed_launch.md) -/
def PM_LN_TXSKEW_VALUE : Fld := ⟨555, 0, 32, .ro, 0, []⟩

/-! PM_LN_RXLAT (08_postmarks_timed_launch.md) -/
def PM_LN_RXLAT_VALUE : Fld := ⟨556, 0, 32, .ro, 0, []⟩

/-! PM_LN_TXLAT (08_postmarks_timed_launch.md) -/
def PM_LN_TXLAT_VALUE : Fld := ⟨557, 0, 32, .ro, 0, []⟩

/-! LQ_CTL (08_postmarks_timed_launch.md) -/
def LQ_CTL_LATE_MAX : Fld := ⟨558, 16, 16, .rw, 1000, []⟩
def LQ_CTL_EN : Fld := ⟨559, 0, 1, .rw, 0, []⟩

/-! LQ_STAT (08_postmarks_timed_launch.md) -/
def LQ_STAT_NEXT_VALID : Fld := ⟨560, 27, 1, .lv, 0, []⟩
def LQ_STAT_NEXT : Fld := ⟨561, 16, 11, .lv, 0, []⟩
def LQ_STAT_PENDING_ENABLE : Fld := ⟨562, 15, 1, .lv, 0, []⟩
def LQ_STAT_STATE : Fld := ⟨563, 12, 3, .lv, 0, []⟩
def LQ_STAT_ARMED : Fld := ⟨564, 0, 12, .lv, 0, []⟩

/-! LQ_SENT (08_postmarks_timed_launch.md) -/
def LQ_SENT_COUNT : Fld := ⟨565, 0, 32, .st, 0, []⟩

/-! LQ_LATE (08_postmarks_timed_launch.md) -/
def LQ_LATE_COUNT : Fld := ⟨566, 0, 32, .st, 0, []⟩

/-! LQ_DROP (08_postmarks_timed_launch.md) -/
def LQ_DROP_COUNT : Fld := ⟨567, 0, 32, .st, 0, []⟩

/-! PTE_CTL (09_ptp_engine.md) -/
def PTE_CTL_UNK_ANSWER : Fld := ⟨568, 10, 1, .rw, 0, []⟩
def PTE_CTL_EAVES_ANN : Fld := ⟨569, 9, 1, .rw, 1, []⟩
def PTE_CTL_EAVES_EVT : Fld := ⟨570, 8, 1, .rw, 0, []⟩
def PTE_CTL_EN : Fld := ⟨571, 0, 1, .rw, 0, []⟩

/-! PTE_STAT (09_ptp_engine.md) -/
def PTE_STAT_SESS_USED : Fld := ⟨572, 16, 14, .lv, 0, []⟩
def PTE_STAT_PENDING_ENABLE : Fld := ⟨573, 1, 1, .lv, 0, []⟩
def PTE_STAT_RUNNING : Fld := ⟨574, 0, 1, .lv, 0, []⟩

/-! PTE_CLKID (09_ptp_engine.md) -/
def PTE_CLKID_CLKID : Fld := ⟨575, 0, 64, .rw, 0, []⟩

/-! PTE_ORG (09_ptp_engine.md) -/
def PTE_ORG_ORG_ID : Fld := ⟨576, 0, 24, .ro, 0, []⟩

/-! PTE_NEG (09_ptp_engine.md) -/
def PTE_NEG_MAX_DUR : Fld := ⟨577, 16, 16, .rw, 1000, []⟩
def PTE_NEG_MIN_DUR : Fld := ⟨578, 0, 16, .rw, 10, []⟩

/-! PTE_I_CTL (09_ptp_engine.md) -/
def PTE_I_CTL_MINOR_SDO : Fld := ⟨579, 24, 8, .rw, 0, []⟩
def PTE_I_CTL_MAJOR_SDO : Fld := ⟨580, 20, 4, .rw, 0, []⟩
def PTE_I_CTL_AUTH_REQ : Fld := ⟨581, 9, 1, .rw, 0, []⟩
def PTE_I_CTL_ANN_STOP : Fld := ⟨582, 8, 1, .rw, 0, []⟩
def PTE_I_CTL_ACC_DERIVE : Fld := ⟨583, 7, 1, .rw, 1, []⟩
def PTE_I_CTL_PROFILE : Fld := ⟨584, 4, 3, .rw, 0, []⟩
def PTE_I_CTL_EN : Fld := ⟨585, 0, 1, .rw, 0, []⟩

/-! PTE_I_DS (09_ptp_engine.md) -/
def PTE_I_DS_PRIORITY2 : Fld := ⟨586, 16, 8, .rw, 128, []⟩
def PTE_I_DS_PRIORITY1 : Fld := ⟨587, 8, 8, .rw, 128, []⟩
def PTE_I_DS_DOMAIN_NUM : Fld := ⟨588, 0, 8, .rw, 0, [(1, 1)]⟩

/-! PTE_I_CC (09_ptp_engine.md) -/
def PTE_I_CC_CC_LOST : Fld := ⟨589, 24, 8, .rw, 160, []⟩
def PTE_I_CC_CC_LOST_F : Fld := ⟨590, 16, 8, .rw, 140, []⟩
def PTE_I_CC_CC_HOLD : Fld := ⟨591, 8, 8, .rw, 7, []⟩
def PTE_I_CC_CC_LOCKED : Fld := ⟨592, 0, 8, .rw, 6, []⟩

/-! PTE_I_CC2 (09_ptp_engine.md) -/
def PTE_I_CC2_QL_F : Fld := ⟨593, 16, 4, .rw, 6, []⟩
def PTE_I_CC2_ACC_LOCKED : Fld := ⟨594, 8, 8, .rw, 33, []⟩
def PTE_I_CC2_CC_FREE : Fld := ⟨595, 0, 8, .rw, 248, []⟩

/-! PTE_I_QUAL (09_ptp_engine.md) -/
def PTE_I_QUAL_OSLV_OTHER : Fld := ⟨596, 16, 16, .rw, 0xffff, []⟩
def PTE_I_QUAL_OSLV_LOCKED : Fld := ⟨597, 0, 16, .rw, 0x4e5d, []⟩

/-! PTE_I_UTC (09_ptp_engine.md) -/
def PTE_I_UTC_LEAP_WIN : Fld := ⟨598, 24, 8, .rw, 12, []⟩
def PTE_I_UTC_SRC : Fld := ⟨599, 23, 1, .rw, 0, []⟩
def PTE_I_UTC_HOST_PEND : Fld := ⟨600, 22, 1, .rw, 0, []⟩
def PTE_I_UTC_HOST_NEXT : Fld := ⟨601, 8, 8, .rw, 0, []⟩
def PTE_I_UTC_HOST_OFS : Fld := ⟨602, 0, 8, .rw, 0, []⟩

/-! PTE_I_UTCDAY (09_ptp_engine.md) -/
def PTE_I_UTCDAY_GM_TB : Fld := ⟨603, 16, 16, .ro, 0, []⟩
def PTE_I_UTCDAY_HOST_DAY : Fld := ⟨604, 0, 16, .rw, 0, []⟩

/-! PTE_I_STAT (09_ptp_engine.md) -/
def PTE_I_STAT_CLASS : Fld := ⟨605, 24, 8, .lv, 0, []⟩
def PTE_I_STAT_ACCURACY : Fld := ⟨606, 16, 8, .lv, 254, []⟩
def PTE_I_STAT_TIME_SOURCE : Fld := ⟨607, 8, 8, .lv, 160, []⟩
def PTE_I_STAT_WITHHELD : Fld := ⟨608, 7, 1, .lv, 0, []⟩
def PTE_I_STAT_TIME_TR : Fld := ⟨609, 6, 1, .lv, 0, []⟩
def PTE_I_STAT_FREQ_TR : Fld := ⟨610, 5, 1, .lv, 0, []⟩
def PTE_I_STAT_UTC_VALID : Fld := ⟨611, 4, 1, .lv, 0, []⟩
def PTE_I_STAT_LEAP61 : Fld := ⟨612, 3, 1, .lv, 0, []⟩
def PTE_I_STAT_LEAP59 : Fld := ⟨613, 2, 1, .lv, 0, []⟩
def PTE_I_STAT_PENDING_ENABLE : Fld := ⟨614, 1, 1, .lv, 0, []⟩
def PTE_I_STAT_RUNNING : Fld := ⟨615, 0, 1, .lv, 0, []⟩

/-! PTE_PORT_CTL (09_ptp_engine.md) -/
def PTE_PORT_CTL_MCAST : Fld := ⟨616, 28, 2, .rw, 0, []⟩
def PTE_PORT_CTL_TRANSPORT : Fld := ⟨617, 26, 2, .rw, 0, []⟩
def PTE_PORT_CTL_MSA : Fld := ⟨618, 20, 6, .rw, 63, []⟩
def PTE_PORT_CTL_ROLE1 : Fld := ⟨619, 18, 2, .rw, 0, []⟩
def PTE_PORT_CTL_ROLE0 : Fld := ⟨620, 16, 2, .rw, 0, []⟩
def PTE_PORT_CTL_ONE_STEP1 : Fld := ⟨621, 15, 1, .rw, 0, []⟩
def PTE_PORT_CTL_ONE_STEP0 : Fld := ⟨622, 14, 1, .rw, 0, []⟩
def PTE_PORT_CTL_HYBRID : Fld := ⟨623, 13, 1, .rw, 0, []⟩
def PTE_PORT_CTL_FOREIGN_ACT : Fld := ⟨624, 12, 1, .rw, 0, []⟩

/-! PTE_PORT_RATE (09_ptp_engine.md) -/
def PTE_PORT_RATE_ANN1 : Fld := ⟨625, 28, 4, .rw, 1, []⟩
def PTE_PORT_RATE_SYNC1 : Fld := ⟨626, 24, 4, .rw, 0, []⟩
def PTE_PORT_RATE_DRESP1 : Fld := ⟨627, 20, 4, .rw, 0, []⟩
def PTE_PORT_RATE_ANN0 : Fld := ⟨628, 12, 4, .rw, 1, []⟩
def PTE_PORT_RATE_SYNC0 : Fld := ⟨629, 8, 4, .rw, 0, []⟩
def PTE_PORT_RATE_DRESP0 : Fld := ⟨630, 4, 4, .rw, 0, []⟩
def PTE_PORT_RATE_PDLY : Fld := ⟨631, 0, 4, .rw, 0, []⟩

/-! PTE_PORT_STAT (09_ptp_engine.md) -/
def PTE_PORT_STAT_FOREIGN : Fld := ⟨632, 16, 16, .st, 0, []⟩
def PTE_PORT_STAT_STATE1 : Fld := ⟨633, 6, 2, .lv, 0, []⟩
def PTE_PORT_STAT_STATE0 : Fld := ⟨634, 4, 2, .lv, 0, []⟩
def PTE_PORT_STAT_AS_CAPABLE : Fld := ⟨635, 3, 1, .lv, 0, []⟩

/-! PTE_PORT_PDLY (09_ptp_engine.md) -/
def PTE_PORT_PDLY_PDLY : Fld := ⟨636, 0, 32, .ro, 0, []⟩

/-! PTE_CLI_CTL (09_ptp_engine.md) -/
def PTE_CLI_CTL_SESS : Fld := ⟨637, 16, 13, .rw, 0, []⟩
def PTE_CLI_CTL_DOMAIN_NUM : Fld := ⟨638, 8, 8, .rw, 0, []⟩
def PTE_CLI_CTL_AUTH_REQ : Fld := ⟨639, 3, 1, .rw, 0, []⟩
def PTE_CLI_CTL_NEG : Fld := ⟨640, 2, 1, .rw, 0, []⟩
def PTE_CLI_CTL_PROTO : Fld := ⟨641, 1, 1, .rw, 0, []⟩
def PTE_CLI_CTL_EN : Fld := ⟨642, 0, 1, .rw, 0, []⟩

/-! PTE_CLI_RATE (09_ptp_engine.md) -/
def PTE_CLI_RATE_CLASS_MAX : Fld := ⟨643, 24, 8, .rw, 7, []⟩
def PTE_CLI_RATE_ANN : Fld := ⟨644, 20, 4, .rw, 0, []⟩
def PTE_CLI_RATE_SYNC : Fld := ⟨645, 16, 4, .rw, 0, []⟩
def PTE_CLI_RATE_DREQ : Fld := ⟨646, 12, 4, .rw, 0, []⟩
def PTE_CLI_RATE_DUR : Fld := ⟨647, 0, 12, .rw, 300, []⟩

/-! PTE_CLI_FILT (09_ptp_engine.md) -/
def PTE_CLI_FILT_MIN_EXCH : Fld := ⟨648, 24, 8, .rw, 4, []⟩
def PTE_CLI_FILT_DLY_WIN : Fld := ⟨649, 16, 8, .rw, 50, []⟩
def PTE_CLI_FILT_WIN : Fld := ⟨650, 0, 16, .rw, 1024, []⟩

/-! PTE_CLI_ASYM (09_ptp_engine.md) -/
def PTE_CLI_ASYM_VALUE : Fld := ⟨651, 0, 32, .rw, 0, []⟩

/-! PTE_CLI_UNC (09_ptp_engine.md) -/
def PTE_CLI_UNC_VALUE : Fld := ⟨652, 0, 32, .rw, 0, []⟩

/-! PTE_CLI_STAT (09_ptp_engine.md) -/
def PTE_CLI_STAT_UP_CLASS : Fld := ⟨653, 24, 8, .lv, 0, []⟩
def PTE_CLI_STAT_UP_ACC : Fld := ⟨654, 16, 8, .lv, 254, []⟩
def PTE_CLI_STAT_SELECTED : Fld := ⟨655, 8, 8, .lv, 0, []⟩
def PTE_CLI_STAT_EAVES_UP : Fld := ⟨656, 7, 1, .lv, 0, []⟩
def PTE_CLI_STAT_AUTH_OK : Fld := ⟨657, 6, 1, .lv, 0, []⟩
def PTE_CLI_STAT_STATE : Fld := ⟨658, 0, 3, .lv, 0, []⟩

/-! PTE_CLI_OFS (09_ptp_engine.md) -/
def PTE_CLI_OFS_OFS : Fld := ⟨659, 0, 64, .ro, 0, []⟩

/-! PTE_CNT_TX (09_ptp_engine.md) -/
def PTE_CNT_TX_COUNT : Fld := ⟨660, 0, 32, .st, 0, []⟩

/-! PTE_CNT_RX (09_ptp_engine.md) -/
def PTE_CNT_RX_COUNT : Fld := ⟨661, 0, 32, .st, 0, []⟩

/-! PTE_CNT_REFUSED (09_ptp_engine.md) -/
def PTE_CNT_REFUSED_COUNT : Fld := ⟨662, 0, 32, .st, 0, []⟩

/-! PTE_CNT_AUTH (09_ptp_engine.md) -/
def PTE_CNT_AUTH_COUNT : Fld := ⟨663, 0, 32, .st, 0, []⟩

/-! FRANK_CTL (10_ntp_nts_franking.md) -/
def FRANK_CTL_EN : Fld := ⟨664, 0, 1, .rw, 0, []⟩

/-! FRANK_STAT (10_ntp_nts_franking.md) -/
def FRANK_STAT_PIPE_ACT : Fld := ⟨665, 12, 12, .lv, 0, []⟩
def FRANK_STAT_KAT_FAIL : Fld := ⟨666, 3, 1, .st, 0, []⟩
def FRANK_STAT_DRBG_OK : Fld := ⟨667, 2, 1, .lv, 0, []⟩
def FRANK_STAT_PENDING_ENABLE : Fld := ⟨668, 1, 1, .lv, 0, []⟩
def FRANK_STAT_RUNNING : Fld := ⟨669, 0, 1, .lv, 0, []⟩

/-! FRANK_PIPE_OOS (10_ntp_nts_franking.md) -/
def FRANK_PIPE_OOS_KAT : Fld := ⟨670, 12, 1, .w1p, 0, []⟩
def FRANK_PIPE_OOS_OOS : Fld := ⟨671, 0, 12, .rw, 0, []⟩

/-! FRANK_LOAD (10_ntp_nts_franking.md) -/
def FRANK_LOAD_LOAD : Fld := ⟨672, 8, 8, .lv, 0, []⟩
def FRANK_LOAD_PEAK : Fld := ⟨673, 0, 8, .st, 0, []⟩

/-! FRANK_ADM (10_ntp_nts_franking.md) -/
def FRANK_ADM_MARGIN : Fld := ⟨674, 0, 12, .rw, 200, []⟩

/-! FRANK_NTP_CTL (10_ntp_nts_franking.md) -/
def FRANK_NTP_CTL_PRECISION : Fld := ⟨675, 24, 8, .rw, 227, []⟩
def FRANK_NTP_CTL_WH_ANS : Fld := ⟨676, 11, 1, .rw, 0, []⟩
def FRANK_NTP_CTL_UTC_INST : Fld := ⟨677, 10, 1, .rw, 0, []⟩
def FRANK_NTP_CTL_HOST_OTHER : Fld := ⟨678, 9, 1, .rw, 1, []⟩
def FRANK_NTP_CTL_EN : Fld := ⟨679, 0, 1, .rw, 0, []⟩

/-! FRANK_NTP_STRAT (10_ntp_nts_franking.md) -/
def FRANK_NTP_STRAT_STRAT_LOST : Fld := ⟨680, 16, 8, .rw, 1, []⟩
def FRANK_NTP_STRAT_STRAT_HOLD : Fld := ⟨681, 8, 8, .rw, 1, []⟩
def FRANK_NTP_STRAT_STRAT_LOCKED : Fld := ⟨682, 0, 8, .rw, 1, []⟩

/-! FRANK_NTP_ROOTDLY (10_ntp_nts_franking.md) -/
def FRANK_NTP_ROOTDLY_ROOT_DELAY : Fld := ⟨683, 0, 32, .rw, 0, []⟩

/-! FRANK_NTP_REFID (10_ntp_nts_franking.md) -/
def FRANK_NTP_REFID_REFID : Fld := ⟨684, 0, 32, .rw, 0x474e5353, [(1, 1347441408), (2, 1347702784), (3, 1314148352), (4, 1213156420)]⟩

/-! FRANK_NTP_PORTS (10_ntp_nts_franking.md) -/
def FRANK_NTP_PORTS_PORTS : Fld := ⟨685, 0, 32, .rw, 0, []⟩

/-! FRANK_NTS_PORTS (10_ntp_nts_franking.md) -/
def FRANK_NTS_PORTS_PORTS : Fld := ⟨686, 0, 32, .rw, 0, []⟩

/-! FRANK_NTS_CTL (10_ntp_nts_franking.md) -/
def FRANK_NTS_CTL_MAX_COOKIES : Fld := ⟨687, 8, 4, .rw, 8, []⟩
def FRANK_NTS_CTL_NAK_EN : Fld := ⟨688, 1, 1, .rw, 1, []⟩
def FRANK_NTS_CTL_EN : Fld := ⟨689, 0, 1, .rw, 0, []⟩

/-! FRANK_NTS_MKEY_CTL (10_ntp_nts_franking.md) -/
def FRANK_NTS_MKEY_CTL_VALID : Fld := ⟨690, 31, 1, .rw, 0, []⟩
def FRANK_NTS_MKEY_CTL_ORPHAN : Fld := ⟨691, 30, 1, .lv, 0, []⟩
def FRANK_NTS_MKEY_CTL_SLATE : Fld := ⟨692, 0, 8, .rw, 0, []⟩

/-! FRANK_NTS_MKEY_ID (10_ntp_nts_franking.md) -/
def FRANK_NTS_MKEY_ID_KEYID : Fld := ⟨693, 0, 32, .rw, 0, []⟩

/-! FRANK_CNT_LATE (10_ntp_nts_franking.md) -/
def FRANK_CNT_LATE_COUNT : Fld := ⟨694, 0, 32, .st, 0, []⟩

/-! FRANK_CNT_DISC (10_ntp_nts_franking.md) -/
def FRANK_CNT_DISC_COUNT : Fld := ⟨695, 0, 32, .st, 0, []⟩

/-! FRANK_CNT_NTP (10_ntp_nts_franking.md) -/
def FRANK_CNT_NTP_COUNT : Fld := ⟨696, 0, 32, .st, 0, []⟩

/-! FRANK_CNT_NTS (10_ntp_nts_franking.md) -/
def FRANK_CNT_NTS_COUNT : Fld := ⟨697, 0, 32, .st, 0, []⟩

/-! FRANK_CNT_NAK (10_ntp_nts_franking.md) -/
def FRANK_CNT_NAK_COUNT : Fld := ⟨698, 0, 32, .st, 0, []⟩

/-! FRANK_CNT_REF (10_ntp_nts_franking.md) -/
def FRANK_CNT_REF_COUNT : Fld := ⟨699, 0, 32, .st, 0, []⟩

/-! SLATE_ATTR (11_slates.md) -/
def SLATE_ATTR_VALID : Fld := ⟨700, 31, 1, .ro, 0, []⟩
def SLATE_ATTR_PERSISTENT : Fld := ⟨701, 30, 1, .ro, 0, [(0, 1), (1, 1), (2, 1), (3, 1), (4, 1), (5, 1), (6, 1), (7, 1), (8, 1), (9, 1), (10, 1), (11, 1), (12, 1), (13, 1), (14, 1), (15, 1)]⟩
def SLATE_ATTR_NO_EXPORT : Fld := ⟨702, 29, 1, .ro, 0, []⟩
def SLATE_ATTR_ORPHAN : Fld := ⟨703, 28, 1, .ro, 0, []⟩
def SLATE_ATTR_ORIGIN : Fld := ⟨704, 26, 2, .ro, 0, []⟩
def SLATE_ATTR_USAGE : Fld := ⟨705, 23, 3, .ro, 0, []⟩
def SLATE_ATTR_KLEN : Fld := ⟨706, 22, 1, .ro, 0, []⟩
def SLATE_ATTR_COMMIT : Fld := ⟨707, 21, 1, .ro, 0, []⟩
def SLATE_ATTR_PARENT : Fld := ⟨708, 8, 8, .ro, 0, []⟩
def SLATE_ATTR_GEN : Fld := ⟨709, 0, 8, .ro, 0, []⟩

/-! SLATE_STAT (11_slates.md) -/
def SLATE_STAT_REMASK_SEQ : Fld := ⟨710, 16, 16, .ro, 0, []⟩
def SLATE_STAT_VALID_CNT : Fld := ⟨711, 7, 9, .lv, 0, []⟩
def SLATE_STAT_PENDING : Fld := ⟨712, 2, 1, .lv, 0, []⟩
def SLATE_STAT_VHASH_OK : Fld := ⟨713, 1, 1, .ro, 0, []⟩
def SLATE_STAT_ROOT_OK : Fld := ⟨714, 0, 1, .ro, 0, []⟩

/-! SLATE_LOCK (11_slates.md) -/
def SLATE_LOCK_PERS_LOCK : Fld := ⟨715, 0, 1, .wo1, 0, []⟩

/-! SLATE_LOAD_LOCK (11_slates.md) -/
def SLATE_LOAD_LOCK_LOAD_LOCK : Fld := ⟨716, 0, 1, .wo1, 0, []⟩

/-! SLATE_REMASK (11_slates.md) -/
def SLATE_REMASK_SKIPPED : Fld := ⟨717, 16, 16, .st, 0, []⟩
def SLATE_REMASK_LAST : Fld := ⟨718, 0, 8, .lv, 0, []⟩

/-! SLATE_SEC (11_slates.md) -/
def SLATE_SEC_SEC_CNT : Fld := ⟨719, 16, 16, .st, 0, []⟩
def SLATE_SEC_LAST_OFS : Fld := ⟨720, 0, 12, .st, 0, []⟩

/-! SLATE_PEND (11_slates.md) -/
def SLATE_PEND_PEND : Fld := ⟨721, 0, 32, .lv, 0, []⟩

/-! SLATE_VHASH (11_slates.md) -/
def SLATE_VHASH_HASH : Fld := ⟨722, 0, 32, .ro, 0, []⟩

/-! SLATE_TAMP_CFG (11_slates.md) -/
def SLATE_TAMP_CFG_DEBOUNCE : Fld := ⟨723, 5, 3, .wo1, 0, []⟩
def SLATE_TAMP_CFG_ERASE_HINT : Fld := ⟨724, 4, 1, .wo1, 0, []⟩
def SLATE_TAMP_CFG_EN1 : Fld := ⟨725, 1, 1, .wo1, 0, []⟩
def SLATE_TAMP_CFG_EN0 : Fld := ⟨726, 0, 1, .wo1, 0, []⟩

/-! SLATE_TAMP_STAT (11_slates.md) -/
def SLATE_TAMP_STAT_VBAT_LOST : Fld := ⟨727, 3, 1, .st, 1, []⟩
def SLATE_TAMP_STAT_ERASED : Fld := ⟨728, 2, 1, .st, 0, []⟩
def SLATE_TAMP_STAT_T1 : Fld := ⟨729, 1, 1, .st, 0, []⟩
def SLATE_TAMP_STAT_T0 : Fld := ⟨730, 0, 1, .st, 0, []⟩

/-! SLATE_TAMP_TIME (11_slates.md) -/
def SLATE_TAMP_TIME_SEC : Fld := ⟨731, 0, 32, .st, 0, []⟩

/-! SLATE_TAMP_ACK (11_slates.md) -/
def SLATE_TAMP_ACK_ACK : Fld := ⟨732, 0, 1, .w1p, 0, []⟩

/-! HOST_CTL (12_host_letterbox.md) -/
def HOST_CTL_EVT_EN : Fld := ⟨733, 1, 1, .rw, 0, []⟩
def HOST_CTL_EN : Fld := ⟨734, 0, 1, .rw, 0, []⟩

/-! HOST_STAT (12_host_letterbox.md) -/
def HOST_STAT_INFLIGHT : Fld := ⟨735, 16, 11, .lv, 0, []⟩
def HOST_STAT_CMD_ERR : Fld := ⟨736, 14, 1, .lv, 0, []⟩
def HOST_STAT_CPL_HELD : Fld := ⟨737, 13, 1, .lv, 0, []⟩
def HOST_STAT_PENDING_ENABLE : Fld := ⟨738, 12, 1, .lv, 0, []⟩
def HOST_STAT_D3HOT : Fld := ⟨739, 11, 1, .lv, 0, []⟩
def HOST_STAT_LINK_PM : Fld := ⟨740, 8, 3, .lv, 0, []⟩
def HOST_STAT_WIDTH : Fld := ⟨741, 4, 4, .lv, 0, []⟩
def HOST_STAT_SPEED : Fld := ⟨742, 0, 4, .lv, 0, []⟩

/-! HOST_CMD_BASE (12_host_letterbox.md) -/
def HOST_CMD_BASE_BASE : Fld := ⟨743, 12, 52, .rw, 0, []⟩

/-! HOST_CPL_BASE (12_host_letterbox.md) -/
def HOST_CPL_BASE_BASE : Fld := ⟨744, 12, 52, .rw, 0, []⟩

/-! HOST_EVT_BASE (12_host_letterbox.md) -/
def HOST_EVT_BASE_BASE : Fld := ⟨745, 12, 52, .rw, 0, []⟩

/-! HOST_RING_SIZE (12_host_letterbox.md) -/
def HOST_RING_SIZE_EVT : Fld := ⟨746, 16, 4, .rw, 12, []⟩
def HOST_RING_SIZE_CPL : Fld := ⟨747, 8, 4, .rw, 12, []⟩
def HOST_RING_SIZE_CMD : Fld := ⟨748, 0, 4, .rw, 12, []⟩

/-! HOST_CMD_TAIL (12_host_letterbox.md) -/
def HOST_CMD_TAIL_PTR : Fld := ⟨749, 0, 13, .rw, 0, []⟩

/-! HOST_CMD_HEAD (12_host_letterbox.md) -/
def HOST_CMD_HEAD_PTR : Fld := ⟨750, 0, 13, .ro, 0, []⟩

/-! HOST_CPL_HEAD (12_host_letterbox.md) -/
def HOST_CPL_HEAD_PTR : Fld := ⟨751, 0, 13, .rw, 0, []⟩

/-! HOST_CPL_TAIL (12_host_letterbox.md) -/
def HOST_CPL_TAIL_PTR : Fld := ⟨752, 0, 13, .ro, 0, []⟩

/-! HOST_EVT_HEAD (12_host_letterbox.md) -/
def HOST_EVT_HEAD_PTR : Fld := ⟨753, 0, 13, .rw, 0, []⟩

/-! HOST_EVT_TAIL (12_host_letterbox.md) -/
def HOST_EVT_TAIL_PTR : Fld := ⟨754, 0, 13, .ro, 0, []⟩

/-! HOST_IRQ_MOD (12_host_letterbox.md) -/
def HOST_IRQ_MOD_CPL_CNT : Fld := ⟨755, 16, 16, .rw, 1, []⟩
def HOST_IRQ_MOD_CPL_TIME : Fld := ⟨756, 0, 16, .rw, 0, []⟩

/-! HOST_TMO (12_host_letterbox.md) -/
def HOST_TMO_TMO : Fld := ⟨757, 0, 16, .rw, 0x2710, []⟩

/-! HOST_EVT_LOST (12_host_letterbox.md) -/
def HOST_EVT_LOST_COUNT : Fld := ⟨758, 0, 32, .st, 0, []⟩

/-! HOST_CNT_CMD (12_host_letterbox.md) -/
def HOST_CNT_CMD_COUNT : Fld := ⟨759, 0, 32, .st, 0, []⟩

/-! HOST_CNT_DISC (12_host_letterbox.md) -/
def HOST_CNT_DISC_COUNT : Fld := ⟨760, 0, 32, .st, 0, []⟩

/-! HOST_TXR_BASE (12_host_letterbox.md) -/
def HOST_TXR_BASE_BASE : Fld := ⟨761, 12, 52, .rw, 0, []⟩

/-! HOST_RXR_BASE (12_host_letterbox.md) -/
def HOST_RXR_BASE_BASE : Fld := ⟨762, 12, 52, .rw, 0, []⟩

/-! HOST_FR_CTL (12_host_letterbox.md) -/
def HOST_FR_CTL_RX_SIZE : Fld := ⟨763, 8, 4, .rw, 12, []⟩
def HOST_FR_CTL_TX_SIZE : Fld := ⟨764, 4, 4, .rw, 12, []⟩
def HOST_FR_CTL_RX_EN : Fld := ⟨765, 1, 1, .rw, 0, []⟩
def HOST_FR_CTL_TX_EN : Fld := ⟨766, 0, 1, .rw, 0, []⟩

/-! HOST_TXR_TAIL (12_host_letterbox.md) -/
def HOST_TXR_TAIL_PTR : Fld := ⟨767, 0, 13, .rw, 0, []⟩

/-! HOST_TXR_HEAD (12_host_letterbox.md) -/
def HOST_TXR_HEAD_PTR : Fld := ⟨768, 0, 13, .ro, 0, []⟩

/-! HOST_RXR_TAIL (12_host_letterbox.md) -/
def HOST_RXR_TAIL_PTR : Fld := ⟨769, 0, 13, .rw, 0, []⟩

/-! HOST_RXR_HEAD (12_host_letterbox.md) -/
def HOST_RXR_HEAD_PTR : Fld := ⟨770, 0, 13, .ro, 0, []⟩

/-! HOST_RXR_DROP (12_host_letterbox.md) -/
def HOST_RXR_DROP_COUNT : Fld := ⟨771, 0, 32, .st, 0, []⟩

/-! HOST_MBX_CMD (12_host_letterbox.md) -/
def HOST_MBX_CMD_WORD : Fld := ⟨772, 0, 32, .rw, 0, []⟩

/-! HOST_MBX_CPL (12_host_letterbox.md) -/
def HOST_MBX_CPL_WORD : Fld := ⟨773, 0, 32, .ro, 0, []⟩

/-! HOST_MBX_CTL (12_host_letterbox.md) -/
def HOST_MBX_CTL_DONE : Fld := ⟨774, 3, 1, .st, 0, []⟩
def HOST_MBX_CTL_BUSY : Fld := ⟨775, 2, 1, .lv, 0, []⟩
def HOST_MBX_CTL_INT_EN : Fld := ⟨776, 1, 1, .rw, 0, []⟩
def HOST_MBX_CTL_GO : Fld := ⟨777, 0, 1, .w1p, 0, []⟩

/-! NOR_CTL (13_noryr_cascade.md) -/
def NOR_CTL_TS_AVG : Fld := ⟨778, 16, 6, .rw, 16, []⟩
def NOR_CTL_TS_PER : Fld := ⟨779, 8, 8, .rw, 1, []⟩
def NOR_CTL_N1_EN : Fld := ⟨780, 3, 1, .rw, 1, []⟩
def NOR_CTL_N2_EN : Fld := ⟨781, 2, 1, .rw, 1, []⟩
def NOR_CTL_ROOT : Fld := ⟨782, 1, 1, .rw, 0, []⟩
def NOR_CTL_EN : Fld := ⟨783, 0, 1, .rw, 0, []⟩

/-! NOR_STAT (13_noryr_cascade.md) -/
def NOR_STAT_PENDING_ENABLE : Fld := ⟨784, 10, 1, .lv, 0, []⟩
def NOR_STAT_TREE_VALID : Fld := ⟨785, 9, 1, .lv, 0, []⟩
def NOR_STAT_NUMBERED : Fld := ⟨786, 8, 1, .lv, 0, []⟩
def NOR_STAT_LEVEL : Fld := ⟨787, 6, 2, .lv, 0, []⟩
def NOR_STAT_DN : Fld := ⟨788, 0, 6, .lv, 0, []⟩

/-! NOR_IDLE (13_noryr_cascade.md) -/
def NOR_IDLE_IDLE_N1 : Fld := ⟨789, 16, 8, .rw, 20, []⟩
def NOR_IDLE_IDLE_N2 : Fld := ⟨790, 0, 16, .rw, 100, []⟩

/-! NOR_BIND_CLR (13_noryr_cascade.md) -/
def NOR_BIND_CLR_CLR : Fld := ⟨791, 0, 1, .w1p, 0, []⟩

/-! NOR_TREE_OFS (13_noryr_cascade.md) -/
def NOR_TREE_OFS_VALUE : Fld := ⟨792, 0, 64, .ro, 0, []⟩

/-! NOR_TREE_FREQ (13_noryr_cascade.md) -/
def NOR_TREE_FREQ_VALUE : Fld := ⟨793, 0, 64, .ro, 0, []⟩

/-! NOR_PRESENT (13_noryr_cascade.md) -/
def NOR_PRESENT_MASK : Fld := ⟨794, 0, 64, .lv, 0, []⟩

/-! NOR_ROUTE (13_noryr_cascade.md) -/
def NOR_ROUTE_MASK : Fld := ⟨795, 0, 64, .lv, 0, []⟩

/-! NOR_PORT_CTL (13_noryr_cascade.md) -/
def NOR_PORT_CTL_MAX_RATE : Fld := ⟨796, 1, 2, .rw, 3, []⟩
def NOR_PORT_CTL_EN : Fld := ⟨797, 0, 1, .rw, 0, []⟩

/-! NOR_PORT_STAT (13_noryr_cascade.md) -/
def NOR_PORT_STAT_EXCESS : Fld := ⟨798, 24, 1, .lv, 0, []⟩
def NOR_PORT_STAT_PARTNER_MEMBER : Fld := ⟨799, 16, 8, .lv, 0, []⟩
def NOR_PORT_STAT_PARTNER_DN : Fld := ⟨800, 10, 6, .lv, 0, []⟩
def NOR_PORT_STAT_PENDING_ENABLE : Fld := ⟨801, 9, 1, .lv, 0, []⟩
def NOR_PORT_STAT_RX_N1 : Fld := ⟨802, 8, 1, .lv, 0, []⟩
def NOR_PORT_STAT_TX_N1 : Fld := ⟨803, 7, 1, .lv, 0, []⟩
def NOR_PORT_STAT_N2_AGREED : Fld := ⟨804, 6, 1, .lv, 0, []⟩
def NOR_PORT_STAT_RATE : Fld := ⟨805, 4, 2, .lv, 0, []⟩
def NOR_PORT_STAT_STATE : Fld := ⟨806, 0, 4, .lv, 0, []⟩

/-! NOR_PORT_ASYM (13_noryr_cascade.md) -/
def NOR_PORT_ASYM_VALUE : Fld := ⟨807, 0, 32, .rw, 0, []⟩

/-! NOR_PORT_DLY (13_noryr_cascade.md) -/
def NOR_PORT_DLY_VALUE : Fld := ⟨808, 0, 32, .ro, 0, []⟩

/-! NOR_PORT_OFS (13_noryr_cascade.md) -/
def NOR_PORT_OFS_OFS : Fld := ⟨809, 0, 64, .ro, 0, []⟩

/-! NOR_PORT_CNT (13_noryr_cascade.md) -/
def NOR_PORT_CNT_DOWNS : Fld := ⟨810, 16, 16, .st, 0, []⟩
def NOR_PORT_CNT_REPLAYS : Fld := ⟨811, 0, 16, .st, 0, []⟩

/-! NOR_PORT_CNT2 (13_noryr_cascade.md) -/
def NOR_PORT_CNT2_DROPPED : Fld := ⟨812, 16, 16, .st, 0, []⟩
def NOR_PORT_CNT2_CODE_ERR : Fld := ⟨813, 0, 16, .st, 0, []⟩

/-! PAIR_CTL (14_pair_redundancy.md) -/
def PAIR_CTL_WTR : Fld := ⟨814, 16, 16, .rw, 120, []⟩
def PAIR_CTL_SLATE : Fld := ⟨815, 8, 8, .rw, 0, []⟩
def PAIR_CTL_SYNC_ALIGN : Fld := ⟨816, 4, 1, .rw, 1, []⟩
def PAIR_CTL_REVERT : Fld := ⟨817, 3, 1, .rw, 1, []⟩
def PAIR_CTL_PREF_MEMBER : Fld := ⟨818, 2, 1, .rw, 0, []⟩
def PAIR_CTL_MEMBER : Fld := ⟨819, 1, 1, .rw, 0, []⟩
def PAIR_CTL_EN : Fld := ⟨820, 0, 1, .rw, 0, []⟩

/-! PAIR_STAT (14_pair_redundancy.md) -/
def PAIR_STAT_WTR_LEFT : Fld := ⟨821, 16, 16, .lv, 0, []⟩
def PAIR_STAT_PENDING_ENABLE : Fld := ⟨822, 15, 1, .lv, 0, []⟩
def PAIR_STAT_PARTNER_PRESENT : Fld := ⟨823, 14, 1, .lv, 0, []⟩
def PAIR_STAT_PARTNER_READY : Fld := ⟨824, 13, 1, .lv, 0, []⟩
def PAIR_STAT_PARTNER_HOLDER : Fld := ⟨825, 12, 1, .lv, 0, []⟩
def PAIR_STAT_TOKEN_IN : Fld := ⟨826, 11, 1, .lv, 0, []⟩
def PAIR_STAT_CFG_MATCH : Fld := ⟨827, 10, 1, .lv, 0, []⟩
def PAIR_STAT_READY : Fld := ⟨828, 9, 1, .lv, 0, []⟩
def PAIR_STAT_HOLDER : Fld := ⟨829, 8, 1, .lv, 0, []⟩
def PAIR_STAT_PARTNER_STATE : Fld := ⟨830, 3, 3, .lv, 0, []⟩
def PAIR_STAT_STATE : Fld := ⟨831, 0, 3, .lv, 0, []⟩

/-! PAIR_LEASE (14_pair_redundancy.md) -/
def PAIR_LEASE_PARTNER_LEFT : Fld := ⟨832, 8, 8, .lv, 0, []⟩
def PAIR_LEASE_OWN_LEFT : Fld := ⟨833, 0, 8, .lv, 0, []⟩

/-! PAIR_EPOCH (14_pair_redundancy.md) -/
def PAIR_EPOCH_PARTNER_EPOCH : Fld := ⟨834, 16, 16, .lv, 0, []⟩
def PAIR_EPOCH_EPOCH : Fld := ⟨835, 0, 16, .lv, 0, []⟩

/-! PAIR_DIGEST (14_pair_redundancy.md) -/
def PAIR_DIGEST_DIGEST : Fld := ⟨836, 0, 32, .ro, 0, []⟩

/-! PAIR_PDIGEST (14_pair_redundancy.md) -/
def PAIR_PDIGEST_DIGEST : Fld := ⟨837, 0, 32, .ro, 0, []⟩

/-! PAIR_PAD (14_pair_redundancy.md) -/
def PAIR_PAD_TAKE_BEATS : Fld := ⟨838, 16, 16, .rw, 1024, []⟩
def PAIR_PAD_TAKE_PAD : Fld := ⟨839, 0, 16, .rw, 2, []⟩

/-! PAIR_OFS (14_pair_redundancy.md) -/
def PAIR_OFS_OFS : Fld := ⟨840, 0, 64, .ro, 0, []⟩

/-! PAIR_MIR (14_pair_redundancy.md) -/
def PAIR_MIR_AGE : Fld := ⟨841, 16, 16, .lv, 0, []⟩
def PAIR_MIR_FRAMES : Fld := ⟨842, 0, 16, .lv, 0, []⟩

/-! PAIR_CNT (14_pair_redundancy.md) -/
def PAIR_CNT_TAKEOVERS : Fld := ⟨843, 24, 8, .st, 0, []⟩
def PAIR_CNT_HANDOVERS : Fld := ⟨844, 16, 8, .st, 0, []⟩
def PAIR_CNT_DOUBLES : Fld := ⟨845, 8, 8, .st, 0, []⟩
def PAIR_CNT_SYNC_LOSS : Fld := ⟨846, 0, 8, .st, 0, []⟩

/-! PAIR_CNT2 (14_pair_redundancy.md) -/
def PAIR_CNT2_AUTH_FAIL : Fld := ⟨847, 16, 16, .st, 0, []⟩
def PAIR_CNT2_MISSED : Fld := ⟨848, 0, 16, .st, 0, []⟩

/-! TOP_STAT (15_registers_map.md) -/
def TOP_STAT_RESET_CAUSE : Fld := ⟨849, 8, 3, .ro, 0, []⟩
def TOP_STAT_SAFE : Fld := ⟨850, 2, 1, .lv, 0, []⟩
def TOP_STAT_FUSE_OK : Fld := ⟨851, 1, 1, .ro, 0, []⟩
def TOP_STAT_READY : Fld := ⟨852, 0, 1, .lv, 0, []⟩

/-! TOP_SCRATCH (15_registers_map.md) -/
def TOP_SCRATCH_DATA : Fld := ⟨853, 0, 32, .rw, 0, []⟩

/-! TOP_ACC_ERR (15_registers_map.md) -/
def TOP_ACC_ERR_CODE : Fld := ⟨854, 24, 8, .st, 0, []⟩
def TOP_ACC_ERR_ADDR : Fld := ⟨855, 0, 24, .st, 0, []⟩

/-! TOP_ACC_INFO (15_registers_map.md) -/
def TOP_ACC_INFO_REQ : Fld := ⟨856, 5, 3, .st, 0, []⟩
def TOP_ACC_INFO_SIZE : Fld := ⟨857, 3, 2, .st, 0, []⟩
def TOP_ACC_INFO_WRITE : Fld := ⟨858, 2, 1, .st, 0, []⟩

/-! TOP_ACC_CNT0 (15_registers_map.md) -/
def TOP_ACC_CNT0_LOCKED : Fld := ⟨859, 16, 16, .st, 0, []⟩
def TOP_ACC_CNT0_RANGE : Fld := ⟨860, 0, 16, .st, 0, []⟩

/-! TOP_ACC_CNT1 (15_registers_map.md) -/
def TOP_ACC_CNT1_SIZE : Fld := ⟨861, 24, 8, .st, 0, []⟩
def TOP_ACC_CNT1_ALIGN : Fld := ⟨862, 16, 8, .st, 0, []⟩
def TOP_ACC_CNT1_ONCE : Fld := ⟨863, 8, 8, .st, 0, []⟩
def TOP_ACC_CNT1_RSVD_WR : Fld := ⟨864, 0, 8, .st, 0, []⟩

/-! TOP_ACC_ACK (15_registers_map.md) -/
def TOP_ACC_ACK_ACK : Fld := ⟨865, 0, 1, .w1p, 0, []⟩

/-! TOP_XDOM_HWM (15_registers_map.md) -/
def TOP_XDOM_HWM_GNSS : Fld := ⟨866, 24, 8, .st, 0, []⟩
def TOP_XDOM_HWM_SDS : Fld := ⟨867, 16, 8, .st, 0, []⟩
def TOP_XDOM_HWM_MEAS : Fld := ⟨868, 8, 8, .st, 0, []⟩
def TOP_XDOM_HWM_HOST : Fld := ⟨869, 0, 8, .st, 0, []⟩

/-! TOP_ARB_HWM (15_registers_map.md) -/
def TOP_ARB_HWM_REQ : Fld := ⟨870, 8, 3, .st, 0, []⟩
def TOP_ARB_HWM_LOSSES : Fld := ⟨871, 0, 8, .st, 0, []⟩

/-! FCU_CTL (16_faults.md) -/
def FCU_CTL_ESC_THR : Fld := ⟨872, 16, 16, .rw, 1000, []⟩
def FCU_CTL_FAULT_MIN : Fld := ⟨873, 8, 2, .rw, 2, []⟩
def FCU_CTL_INT_MIN : Fld := ⟨874, 6, 2, .rw, 1, []⟩
def FCU_CTL_INT_EN : Fld := ⟨875, 5, 1, .rw, 1, []⟩
def FCU_CTL_FORCE_S3 : Fld := ⟨876, 4, 1, .rw, 0, []⟩
def FCU_CTL_ACK_ALL : Fld := ⟨877, 3, 1, .w1p, 0, []⟩

/-! FCU_STAT (16_faults.md) -/
def FCU_STAT_LAST_SRC : Fld := ⟨878, 23, 9, .ro, 0, []⟩
def FCU_STAT_REC_USED : Fld := ⟨879, 16, 7, .lv, 0, []⟩
def FCU_STAT_MAX_LIVE : Fld := ⟨880, 14, 2, .lv, 0, []⟩
def FCU_STAT_MAX_PEND : Fld := ⟨881, 12, 2, .lv, 0, []⟩
def FCU_STAT_FAULT : Fld := ⟨882, 11, 1, .lv, 0, []⟩
def FCU_STAT_INT : Fld := ⟨883, 10, 1, .lv, 0, []⟩
def FCU_STAT_SAFE : Fld := ⟨884, 9, 1, .lv, 0, []⟩

/-! FCU_SEQ (16_faults.md) -/
def FCU_SEQ_SEQ : Fld := ⟨885, 0, 32, .ro, 0, []⟩

/-! FCU_ACK (16_faults.md) -/
def FCU_ACK_SEQ : Fld := ⟨886, 0, 32, .rw, 0, []⟩

/-! FCU_LOCK (16_faults.md) -/
def FCU_LOCK_CFG_LOCK : Fld := ⟨887, 0, 1, .wo1, 0, []⟩

/-! FCU_OVF (16_faults.md) -/
def FCU_OVF_NOREC : Fld := ⟨888, 16, 16, .st, 0, []⟩
def FCU_OVF_ESC : Fld := ⟨889, 0, 16, .st, 0, []⟩

/-! FCU_FORCE_SNAP (16_faults.md) -/
def FCU_FORCE_SNAP_SNAP : Fld := ⟨890, 0, 32, .rw, 0, []⟩

/-! FCU_SELF (16_faults.md) -/
def FCU_SELF_VALID : Fld := ⟨891, 31, 1, .st, 0, []⟩
def FCU_SELF_SRC : Fld := ⟨892, 0, 9, .st, 0, []⟩

/-! FCU_SAFE_SEQ (16_faults.md) -/
def FCU_SAFE_SEQ_SEQ : Fld := ⟨893, 0, 32, .st, 0, []⟩

/-! FCU_LIVE (16_faults.md) -/
def FCU_LIVE_BIT : Fld := ⟨894, 0, 1, .lv, 0, []⟩

/-! FCU_PEND (16_faults.md) -/
def FCU_PEND_BIT : Fld := ⟨895, 0, 1, .lv, 0, []⟩

/-! FCU_FORCE (16_faults.md) -/
def FCU_FORCE_BITS : Fld := ⟨896, 0, 32, .w1p, 0, []⟩

/-! FCU_CFG (16_faults.md) -/
def FCU_CFG_ESC : Fld := ⟨897, 7, 1, .rw, 0, []⟩
def FCU_CFG_WH : Fld := ⟨898, 6, 1, .rw, 0, [(48, 1)]⟩
def FCU_CFG_SCOPE : Fld := ⟨899, 4, 2, .rw, 0, [(48, 3)]⟩
def FCU_CFG_EVT : Fld := ⟨900, 3, 1, .rw, 1, (((List.range 400).filter isReservedFS).map (fun i => (i, 0)))⟩
def FCU_CFG_REC : Fld := ⟨901, 2, 1, .rw, 1, (((List.range 400).filter isReservedFS).map (fun i => (i, 0)))⟩
def FCU_CFG_SEV : Fld := ⟨902, 0, 2, .rw, 0, ((List.range 400).map (fun i => (i, defaultSeverity i)))⟩

/-! FCU_CNT (16_faults.md) -/
def FCU_CNT_COUNT : Fld := ⟨903, 0, 8, .st, 0, []⟩

/-! TOP_BOOT_STAT (17_power_startup.md) -/
def TOP_BOOT_STAT_CMD_FAIL_IDX : Fld := ⟨904, 20, 12, .ro, 0, []⟩
def TOP_BOOT_STAT_B_CAUSE : Fld := ⟨905, 16, 4, .ro, 0, []⟩
def TOP_BOOT_STAT_A_CAUSE : Fld := ⟨906, 12, 4, .ro, 0, []⟩
def TOP_BOOT_STAT_XO_FREQ : Fld := ⟨907, 9, 3, .ro, 0, []⟩
def TOP_BOOT_STAT_CMD_FAIL : Fld := ⟨908, 8, 1, .ro, 0, []⟩
def TOP_BOOT_STAT_REG_FAIL : Fld := ⟨909, 7, 1, .ro, 0, []⟩
def TOP_BOOT_STAT_KEY_FAIL : Fld := ⟨910, 6, 1, .ro, 0, []⟩
def TOP_BOOT_STAT_SLOT : Fld := ⟨911, 4, 2, .ro, 0, []⟩
def TOP_BOOT_STAT_AUTO_REL : Fld := ⟨912, 2, 2, .ro, 0, []⟩
def TOP_BOOT_STAT_NO_IMAGE : Fld := ⟨913, 1, 1, .ro, 0, []⟩
def TOP_BOOT_STAT_DONE : Fld := ⟨914, 0, 1, .ro, 0, []⟩

/-! TOP_BOOT_SVN (17_power_startup.md) -/
def TOP_BOOT_SVN_VALUE : Fld := ⟨915, 0, 32, .ro, 0, []⟩

/-! TOP_BOOT_BUILD (17_power_startup.md) -/
def TOP_BOOT_BUILD_VALUE : Fld := ⟨916, 0, 32, .ro, 0, []⟩

/-! TOP_BOOT_MINSVN (17_power_startup.md) -/
def TOP_BOOT_MINSVN_VALUE : Fld := ⟨917, 0, 32, .ro, 0, []⟩

/-! TOP_BOOT_TIME (17_power_startup.md) -/
def TOP_BOOT_TIME_VALUE : Fld := ⟨918, 0, 32, .ro, 0, []⟩

/-! TOP_SUPPLY (17_power_startup.md) -/
def TOP_SUPPLY_IN_RANGE : Fld := ⟨919, 0, 10, .lv, 1023, []⟩

/-! TOP_TEMP (17_power_startup.md) -/
def TOP_TEMP_TEMP_CRIT : Fld := ⟨920, 24, 8, .rw, 115, []⟩
def TOP_TEMP_TEMP_WARN : Fld := ⟨921, 16, 8, .rw, 105, []⟩

/-! TOP_PWR_CTL (17_power_startup.md) -/
def TOP_PWR_CTL_ON : Fld := ⟨922, 0, 16, .rw, 0xffff, []⟩

/-! TOP_PWR_STAT (17_power_startup.md) -/
def TOP_PWR_STAT_STATE : Fld := ⟨923, 0, 2, .lv, 2, []⟩

/-! TOP_PWR_PEND (17_power_startup.md) -/
def TOP_PWR_PEND_PENDING_ENABLE : Fld := ⟨924, 0, 16, .lv, 0, []⟩

/-! TOP_RTC_SEC (17_power_startup.md) -/
def TOP_RTC_SEC_SEC : Fld := ⟨925, 0, 48, .rw, 0, []⟩

/-! TOP_RTC_STAT (17_power_startup.md) -/
def TOP_RTC_STAT_VALID : Fld := ⟨926, 2, 1, .ro, 0, []⟩
def TOP_RTC_STAT_OSC_OK : Fld := ⟨927, 1, 1, .lv, 0, []⟩
def TOP_RTC_STAT_SYNC : Fld := ⟨928, 0, 1, .rw, 1, []⟩

/-! SORT_CTL (18_maintenance_test.md) -/
def SORT_CTL_WAIT_MAX : Fld := ⟨929, 16, 16, .rw, 500, []⟩
def SORT_CTL_HOLD_SCHED : Fld := ⟨930, 0, 11, .rw, 0, []⟩

/-! SORT_STAT (18_maintenance_test.md) -/
def SORT_STAT_BUSY : Fld := ⟨931, 16, 11, .lv, 0, []⟩
def SORT_STAT_WAITING : Fld := ⟨932, 0, 11, .lv, 0, []⟩

/-! SORT_GRP (18_maintenance_test.md) -/
def SORT_GRP_RUN_ACT : Fld := ⟨933, 24, 8, .lv, 0, []⟩
def SORT_GRP_RUN_TGT : Fld := ⟨934, 16, 8, .lv, 0, []⟩
def SORT_GRP_DEPTH : Fld := ⟨935, 0, 7, .lv, 0, []⟩

/-! SORT_CNT (18_maintenance_test.md) -/
def SORT_CNT_RUNS : Fld := ⟨936, 16, 16, .st, 0, []⟩
def SORT_CNT_DEFERRALS : Fld := ⟨937, 0, 16, .st, 0, []⟩

/-! SORT_LAST (18_maintenance_test.md) -/
def SORT_LAST_ACT : Fld := ⟨938, 24, 8, .ro, 0, []⟩
def SORT_LAST_TGT : Fld := ⟨939, 16, 8, .ro, 0, []⟩
def SORT_LAST_CODE : Fld := ⟨940, 8, 8, .ro, 0, []⟩
def SORT_LAST_GROUP : Fld := ⟨941, 0, 8, .ro, 0, []⟩

/-! SORT_LAST_DUR (18_maintenance_test.md) -/
def SORT_LAST_DUR_DUR : Fld := ⟨942, 0, 32, .ro, 0, []⟩

/-! SORT_WAIT_HWM (18_maintenance_test.md) -/
def SORT_WAIT_HWM_GROUP : Fld := ⟨943, 16, 4, .st, 0, []⟩
def SORT_WAIT_HWM_WAIT : Fld := ⟨944, 0, 16, .st, 0, []⟩

/-! MEM_CTL (18_maintenance_test.md) -/
def MEM_CTL_ERR_MAX : Fld := ⟨945, 24, 8, .rw, 4, []⟩
def MEM_CTL_HIST_PER : Fld := ⟨946, 16, 8, .rw, 64, []⟩
def MEM_CTL_SIZE : Fld := ⟨947, 4, 2, .rw, 0, []⟩
def MEM_CTL_STAMP_LOG : Fld := ⟨948, 1, 1, .rw, 0, []⟩
def MEM_CTL_DRAM_EN : Fld := ⟨949, 0, 1, .rw, 0, []⟩

/-! MEM_STAT (18_maintenance_test.md) -/
def MEM_STAT_HIST_DAYS : Fld := ⟨950, 16, 16, .lv, 0, []⟩
def MEM_STAT_HIST_SRAM : Fld := ⟨951, 5, 1, .lv, 0, []⟩
def MEM_STAT_PENDING_ENABLE : Fld := ⟨952, 4, 1, .lv, 0, []⟩
def MEM_STAT_STATE : Fld := ⟨953, 0, 3, .lv, 0, []⟩

/-! MEM_ERR (18_maintenance_test.md) -/
def MEM_ERR_DRAM_CORR : Fld := ⟨954, 16, 16, .st, 0, []⟩
def MEM_ERR_DRAM_UNC : Fld := ⟨955, 8, 8, .st, 0, []⟩
def MEM_ERR_SRAM_CORR : Fld := ⟨956, 0, 8, .st, 0, []⟩

/-! MEM_SCRUB (18_maintenance_test.md) -/
def MEM_SCRUB_SRAM_PASSES : Fld := ⟨957, 16, 16, .ro, 0, []⟩
def MEM_SCRUB_DRAM_PASSES : Fld := ⟨958, 0, 16, .ro, 0, []⟩

/-! MEM_ERR_ADDR (18_maintenance_test.md) -/
def MEM_ERR_ADDR_ADDR : Fld := ⟨959, 0, 29, .st, 0, []⟩

/-! FCU_REC_W0 (16_faults.md) -/
def FCU_REC_W0_VALID : Fld := ⟨960, 31, 1, .ro, 0, []⟩
def FCU_REC_W0_FORCED : Fld := ⟨961, 30, 1, .ro, 0, []⟩
def FCU_REC_W0_ESCALATED : Fld := ⟨962, 29, 1, .ro, 0, []⟩
def FCU_REC_W0_SEV : Fld := ⟨963, 26, 2, .ro, 0, []⟩
def FCU_REC_W0_SRC : Fld := ⟨964, 0, 9, .ro, 0, []⟩

/-! FCU_REC_SEQ (16_faults.md) -/
def FCU_REC_SEQ_SEQ : Fld := ⟨965, 0, 32, .ro, 0, []⟩

/-! FCU_REC_BEAT (16_faults.md) -/
def FCU_REC_BEAT_BEAT : Fld := ⟨966, 0, 32, .ro, 0, []⟩

/-! FCU_REC_SNAP (16_faults.md) -/
def FCU_REC_SNAP_SNAP : Fld := ⟨967, 0, 32, .ro, 0, []⟩

/-! FCU_REC_COUNT (16_faults.md) -/
def FCU_REC_COUNT_COUNT : Fld := ⟨968, 0, 64, .ro, 0, []⟩

/-! FCU_REC_PRIOR (16_faults.md) -/
def FCU_REC_PRIOR_PRIOR : Fld := ⟨969, 0, 32, .ro, 0, []⟩

/-! FCU_REC_RSVD (16_faults.md) -/

/-! OSC_BYTES (04_holdover_eaves.md) -/
def OSC_BYTES_DATA : Fld := ⟨970, 0, 32, .rw, 0, []⟩

end F

end Sys2Proof.Machine
end

