-- ==== Sys2Proof/Machine/RegMap.lean ====
section
/-! DEFINITION. The address map of the registers (Tables REG-1 and REG-2 and the register tables of every chapter of spec/):
for each register its name, base address, index ranges and strides, width, clock domain (Table REG-6) and fields. -/
namespace Sys2Proof.Machine

/-- The registers of the address space; an indexed register, or an A/B pair, is one name. -/
inductive Reg where
  | TOP_DEVICE_ID
  | RIDGE_CTL
  | RIDGE_STAT
  | RIDGE_BEAT_SEQ
  | RIDGE_x_COUNT
  | RIDGE_x_ADD_INT
  | RIDGE_x_ADD_FRAC
  | RIDGE_ADD_LOAD
  | RIDGE_LIMIT_A
  | RIDGE_LIMIT_B
  | RIDGE_SLEW
  | RIDGE_CLASS_MAP
  | RIDGE_CLASS_ACT
  | RIDGE_x_SLEW_REM
  | RIDGE_x_REQ_STEP
  | RIDGE_x_ANCHOR_COUNT
  | RIDGE_x_ANCHOR_SEC
  | RIDGE_x_ANCHOR_NSF
  | RIDGE_SNAP_CTL
  | RIDGE_SNAP
  | RIDGE_BEAT_OVR
  | RIDGE_BEAT_CLR
  | RIDGE_PHASE_HWM
  | RIDGE_CMP_CTL
  | RIDGE_CMP_STAT
  | RIDGE_CMP_TGT
  | RIDGE_CMP_PER
  | RIDGE_CMP_CAP
  | TDC_CTL
  | TDC_STAT
  | TDC_SPARE
  | TDC_SUB
  | TDC_SUB_STAT
  | TDC_CAL_CTL
  | TDC_FINE_CAL
  | TDC_CH_CTL
  | TDC_CH_SRC
  | TDC_CH_GATE
  | TDC_CH_WIN
  | TDC_CH_NOM
  | TDC_CH_OFS
  | TDC_RES_PHASE
  | TDC_RES_FREQ
  | TDC_RES_N
  | TDC_RES_RESID
  | TDC_RES_INFO
  | TDC_CH_STAT
  | TDC_RING_WR
  | TDC_RING_RD
  | TDC_RING_LOST
  | TDC_CH_CNT
  | TDC_XB_PRE
  | TDC_XB_DLY
  | ENS_CTL
  | ENS_STAT
  | ENS_QUAL
  | ENS_DISPUTE
  | ENS_RAMP
  | ENS_LOCK
  | ENS_LOCKF
  | ENS_TRACE
  | ENS_x_PHASE
  | ENS_x_FREQ
  | ENS_B_CFG
  | ENS_B_TRACE
  | ENS_DOM_CTL
  | ENS_DOM_STAT
  | ENS_MEMBERS
  | ENS_DISPUTED
  | ENS_CHANGED
  | ENS_ACK
  | ENS_STEER
  | ENS_SLOT_CFG
  | ENS_SLOT_RANK
  | ENS_SLOT_FTOL
  | ENS_SLOT_SIG0
  | ENS_SLOT_GAIN
  | ENS_SLOT_STAT
  | ENS_SLOT_W
  | ENS_SLOT_CNT
  | ENS_SLOT_SIG2
  | ENS_SLOT_X
  | ENS_SLOT_Y
  | ENS_SLOT_D
  | EAVES_CTL
  | EAVES_STAT
  | EAVES_PAD
  | EAVES_S2_PAD
  | EAVES_x_LIMIT
  | EAVES_x_BOUND
  | EAVES_x_FLAGS
  | EAVES_x_C
  | EAVES_x_HO_AGE
  | EAVES_x_TRACE_SLOTS
  | EAVES_x_TRACE_CAL
  | EAVES_x_BREACH
  | EAVES_CAL_CTL
  | EAVES_CAL_UNC
  | EAVES_CAL_UNCX
  | EAVES_CAL_EXP
  | EAVES_SLOT_CAL
  | EAVES_SLOT_UNC
  | EAVES_x_CAL_COMMON
  | EAVES_CHAR_CTL
  | EAVES_CHAR_Y0
  | EAVES_CHAR_DRIFT
  | EAVES_CHAR_WFM
  | EAVES_CHAR_TEMPCO
  | EAVES_CHAR_KV
  | OSC_CTL
  | OSC_STEP
  | OSC_CODE
  | OSC_ACC
  | OSC_STAT
  | OSC_UCFG
  | OSC_TPL
  | OSC_RESP
  | DPLL_CTL
  | DPLL_LOOP
  | DPLL_IN
  | DPLL_MON
  | DPLL_THR
  | DPLL_STAT
  | DPLL_CNT
  | DPLL_CMD
  | DPLL_IN_DIV
  | DPLL_PD_PER
  | DPLL_FREQ
  | DPLL_PHERR
  | DPLL_HOLDF
  | DPLL_PBO
  | DPLL_STEPD
  | APLL_CTL
  | APLL_N
  | APLL_FRAC
  | APLL_BAND
  | APLL_STAT
  | APLL_CNT
  | APLL_SRCH
  | APLL_SRCH_T
  | OUT_STAT
  | OUT_CLK_CTL
  | OUT_CLK_DIV
  | OUT_CLK_DLY
  | OUT_CLK_STAT
  | OUT_PPS_CTL
  | OUT_PPS_WIDTH
  | OUT_PPS_PER
  | OUT_PPS_OFS
  | OUT_PPS_DIFF
  | OUT_PPS_STAT
  | GNSS_CTL
  | GNSS_STAT
  | GNSS_MIN
  | GNSS_TRK
  | GNSS_ACQ
  | GNSS_EPOCH_SEQ
  | GNSS_EPOCH_E
  | GNSS_SPOOF_CFG
  | GNSS_SPOOF_TOL
  | GNSS_VERDICT
  | GNSS_SPOOF_STAT
  | GNSS_VCNT
  | GNSS_FE_CFG
  | GNSS_FE_ID
  | GNSS_POS_X
  | GNSS_POS_Y
  | GNSS_POS_Z
  | GNSS_POS_SIG
  | GNSS_SURVEY
  | GNSS_BASE_E
  | GNSS_BASE_N
  | GNSS_BASE_U
  | GNSS_BASE_STAT
  | GNSS_CABLE
  | GNSS_BAND_DLY
  | GNSS_UNC
  | GNSS_IONO_PAD
  | GNSS_HINT
  | GNSS_HINT_AGE
  | GNSS_TSOL_OFS
  | GNSS_TSOL_FREQ
  | GNSS_TSOL_UNC
  | GNSS_TSOL_INFO
  | GNSS_ISB
  | GNSS_UTC
  | GNSS_UTC_DAY
  | GNSS_FE_IDR
  | GNSS_STREAM_CTL
  | GNSS_STREAM_LO
  | GNSS_STREAM_JAM
  | GNSS_STREAM_STAT
  | GNSS_NOTCH
  | SDS_GRP_CTL
  | SDS_GRP_AN
  | SDS_GRP_STAT
  | SDS_GRP_QL
  | SDS_GRP_CNT
  | SDS_LN_CTL
  | SDS_LN_STAT
  | SDS_LN_EQ
  | SDS_LN_CNT
  | SDS_LN_PRBS_ERR
  | MAC_CTL
  | MAC_ADDR_LO
  | MAC_ADDR_HI
  | MAC_TAG
  | MAC_FC
  | MAC_STAT
  | MAC_FEC_THR
  | MAC_CNT_ACK
  | MAC_CNT_RX_FRAMES
  | MAC_CNT_TX_FRAMES
  | MAC_CNT_RX_ERR
  | MAC_CNT_PAUSE_RX
  | MAC_CNT_PAUSE_IGN
  | MAC_CNT_DROP
  | MAC_CNT_FEC_CORR
  | MAC_CNT_FEC_UNCORR
  | MAC_CNT_LINK_DOWN
  | MAC_CNT_RSVD
  | PM_CTL
  | PM_RING_WR
  | PM_RING_RD
  | PM_LOST
  | PM_STAT
  | PM_RX_OFS
  | PM_TX_OFS
  | PM_LN_RXSKEW
  | PM_LN_TXSKEW
  | PM_LN_RXLAT
  | PM_LN_TXLAT
  | LQ_CTL
  | LQ_STAT
  | LQ_SENT
  | LQ_LATE
  | LQ_DROP
  | PTE_CTL
  | PTE_STAT
  | PTE_CLKID
  | PTE_ORG
  | PTE_NEG
  | PTE_I_CTL
  | PTE_I_DS
  | PTE_I_CC
  | PTE_I_CC2
  | PTE_I_QUAL
  | PTE_I_UTC
  | PTE_I_UTCDAY
  | PTE_I_STAT
  | PTE_PORT_CTL
  | PTE_PORT_RATE
  | PTE_PORT_STAT
  | PTE_PORT_PDLY
  | PTE_CLI_CTL
  | PTE_CLI_RATE
  | PTE_CLI_FILT
  | PTE_CLI_ASYM
  | PTE_CLI_UNC
  | PTE_CLI_STAT
  | PTE_CLI_OFS
  | PTE_CNT_TX
  | PTE_CNT_RX
  | PTE_CNT_REFUSED
  | PTE_CNT_AUTH
  | FRANK_CTL
  | FRANK_STAT
  | FRANK_PIPE_OOS
  | FRANK_LOAD
  | FRANK_ADM
  | FRANK_NTP_CTL
  | FRANK_NTP_STRAT
  | FRANK_NTP_ROOTDLY
  | FRANK_NTP_REFID
  | FRANK_NTP_PORTS
  | FRANK_NTS_PORTS
  | FRANK_NTS_CTL
  | FRANK_NTS_MKEY_CTL
  | FRANK_NTS_MKEY_ID
  | FRANK_CNT_LATE
  | FRANK_CNT_DISC
  | FRANK_CNT_NTP
  | FRANK_CNT_NTS
  | FRANK_CNT_NAK
  | FRANK_CNT_REF
  | SLATE_ATTR
  | SLATE_STAT
  | SLATE_LOCK
  | SLATE_LOAD_LOCK
  | SLATE_REMASK
  | SLATE_SEC
  | SLATE_PEND
  | SLATE_VHASH
  | SLATE_TAMP_CFG
  | SLATE_TAMP_STAT
  | SLATE_TAMP_TIME
  | SLATE_TAMP_ACK
  | HOST_CTL
  | HOST_STAT
  | HOST_CMD_BASE
  | HOST_CPL_BASE
  | HOST_EVT_BASE
  | HOST_RING_SIZE
  | HOST_CMD_TAIL
  | HOST_CMD_HEAD
  | HOST_CPL_HEAD
  | HOST_CPL_TAIL
  | HOST_EVT_HEAD
  | HOST_EVT_TAIL
  | HOST_IRQ_MOD
  | HOST_TMO
  | HOST_EVT_LOST
  | HOST_CNT_CMD
  | HOST_CNT_DISC
  | HOST_TXR_BASE
  | HOST_RXR_BASE
  | HOST_FR_CTL
  | HOST_TXR_TAIL
  | HOST_TXR_HEAD
  | HOST_RXR_TAIL
  | HOST_RXR_HEAD
  | HOST_RXR_DROP
  | HOST_MBX_CMD
  | HOST_MBX_CPL
  | HOST_MBX_CTL
  | NOR_CTL
  | NOR_STAT
  | NOR_IDLE
  | NOR_BIND_CLR
  | NOR_TREE_OFS
  | NOR_TREE_FREQ
  | NOR_PRESENT
  | NOR_ROUTE
  | NOR_PORT_CTL
  | NOR_PORT_STAT
  | NOR_PORT_ASYM
  | NOR_PORT_DLY
  | NOR_PORT_OFS
  | NOR_PORT_CNT
  | NOR_PORT_CNT2
  | PAIR_CTL
  | PAIR_STAT
  | PAIR_LEASE
  | PAIR_EPOCH
  | PAIR_DIGEST
  | PAIR_PDIGEST
  | PAIR_PAD
  | PAIR_OFS
  | PAIR_MIR
  | PAIR_CNT
  | PAIR_CNT2
  | TOP_STAT
  | TOP_SCRATCH
  | TOP_ACC_ERR
  | TOP_ACC_INFO
  | TOP_ACC_CNT0
  | TOP_ACC_CNT1
  | TOP_ACC_ACK
  | TOP_XDOM_HWM
  | TOP_ARB_HWM
  | FCU_CTL
  | FCU_STAT
  | FCU_SEQ
  | FCU_ACK
  | FCU_LOCK
  | FCU_OVF
  | FCU_FORCE_SNAP
  | FCU_SELF
  | FCU_SAFE_SEQ
  | FCU_LIVE
  | FCU_PEND
  | FCU_FORCE
  | FCU_CFG
  | FCU_CNT
  | TOP_BOOT_STAT
  | TOP_BOOT_SVN
  | TOP_BOOT_BUILD
  | TOP_BOOT_MINSVN
  | TOP_BOOT_TIME
  | TOP_SUPPLY
  | TOP_TEMP
  | TOP_PWR_CTL
  | TOP_PWR_STAT
  | TOP_PWR_PEND
  | TOP_RTC_SEC
  | TOP_RTC_STAT
  | SORT_CTL
  | SORT_STAT
  | SORT_GRP
  | SORT_CNT
  | SORT_LAST
  | SORT_LAST_DUR
  | SORT_WAIT_HWM
  | MEM_CTL
  | MEM_STAT
  | MEM_ERR
  | MEM_SCRUB
  | MEM_ERR_ADDR
  | FCU_REC_W0
  | FCU_REC_SEQ
  | FCU_REC_BEAT
  | FCU_REC_SNAP
  | FCU_REC_COUNT
  | FCU_REC_PRIOR
  | FCU_REC_RSVD
  | OSC_BYTES
  deriving DecidableEq, Repr

/-- Clock domains of Table REG-6. -/
inductive Dom where
  | core | meas | host | vbat | gnss | sds
  deriving DecidableEq, Repr

/-- One register of the map. The word of index pair (i, j) lies at `base + i * s1 + j * s2`, i < n1 and j < n2, and its
values are kept under the flat index `i * n2 + j`. `lanes` > 1 says that one word packs that many consecutive indices,
`lw` bits each (FCU_CFG, FCU_CNT, FCU_LIVE, FCU_PEND, TOP_PWR_STAT); `wide` marks a paired 64-bit register (R486). -/
structure RegDef where
  id : Reg
  base : Nat
  n1 : Nat
  s1 : Nat
  n2 : Nat
  s2 : Nat
  lanes : Nat
  lw : Nat
  wide : Bool
  dom : Dom
  flds : List Fld
  deriving DecidableEq, Repr

/-- Registers of block TOP, part 0. -/
def mapTOP0 : List RegDef :=
  [ ⟨.TOP_DEVICE_ID, 0x00000, 1, 0, 1, 0, 1, 32, false, .core,
      [F.TOP_DEVICE_ID_FAMILY, F.TOP_DEVICE_ID_MEMBER, F.TOP_DEVICE_ID_STEP, F.TOP_DEVICE_ID_REV]⟩
  , ⟨.TOP_STAT, 0x00004, 1, 0, 1, 0, 1, 32, false, .core,
      [F.TOP_STAT_RESET_CAUSE, F.TOP_STAT_SAFE, F.TOP_STAT_FUSE_OK, F.TOP_STAT_READY]⟩
  , ⟨.TOP_SCRATCH, 0x00010, 4, 4, 1, 0, 1, 32, false, .core,
      [F.TOP_SCRATCH_DATA]⟩
  , ⟨.TOP_ACC_ERR, 0x00020, 1, 0, 1, 0, 1, 32, false, .core,
      [F.TOP_ACC_ERR_CODE, F.TOP_ACC_ERR_ADDR]⟩
  , ⟨.TOP_ACC_INFO, 0x00024, 1, 0, 1, 0, 1, 32, false, .core,
      [F.TOP_ACC_INFO_REQ, F.TOP_ACC_INFO_SIZE, F.TOP_ACC_INFO_WRITE]⟩
  , ⟨.TOP_ACC_CNT0, 0x00028, 1, 0, 1, 0, 1, 32, false, .core,
      [F.TOP_ACC_CNT0_LOCKED, F.TOP_ACC_CNT0_RANGE]⟩
  , ⟨.TOP_ACC_CNT1, 0x0002C, 1, 0, 1, 0, 1, 32, false, .core,
      [F.TOP_ACC_CNT1_SIZE, F.TOP_ACC_CNT1_ALIGN, F.TOP_ACC_CNT1_ONCE, F.TOP_ACC_CNT1_RSVD_WR]⟩
  , ⟨.TOP_ACC_ACK, 0x00030, 1, 0, 1, 0, 1, 32, false, .core,
      [F.TOP_ACC_ACK_ACK]⟩
  , ⟨.TOP_XDOM_HWM, 0x00034, 1, 0, 1, 0, 1, 32, false, .core,
      [F.TOP_XDOM_HWM_GNSS, F.TOP_XDOM_HWM_SDS, F.TOP_XDOM_HWM_MEAS, F.TOP_XDOM_HWM_HOST]⟩
  , ⟨.TOP_ARB_HWM, 0x00038, 1, 0, 1, 0, 1, 32, false, .core,
      [F.TOP_ARB_HWM_REQ, F.TOP_ARB_HWM_LOSSES]⟩
  , ⟨.TOP_BOOT_STAT, 0x00100, 1, 0, 1, 0, 1, 32, false, .core,
      [F.TOP_BOOT_STAT_CMD_FAIL_IDX, F.TOP_BOOT_STAT_B_CAUSE, F.TOP_BOOT_STAT_A_CAUSE, F.TOP_BOOT_STAT_XO_FREQ, F.TOP_BOOT_STAT_CMD_FAIL, F.TOP_BOOT_STAT_REG_FAIL, F.TOP_BOOT_STAT_KEY_FAIL, F.TOP_BOOT_STAT_SLOT, F.TOP_BOOT_STAT_AUTO_REL, F.TOP_BOOT_STAT_NO_IMAGE, F.TOP_BOOT_STAT_DONE]⟩
  , ⟨.TOP_BOOT_SVN, 0x00104, 1, 0, 1, 0, 1, 32, false, .core,
      [F.TOP_BOOT_SVN_VALUE]⟩ ]

/-- Registers of block TOP, part 1. -/
def mapTOP1 : List RegDef :=
  [ ⟨.TOP_BOOT_BUILD, 0x00108, 1, 0, 1, 0, 1, 32, false, .core,
      [F.TOP_BOOT_BUILD_VALUE]⟩
  , ⟨.TOP_BOOT_MINSVN, 0x0010C, 1, 0, 1, 0, 1, 32, false, .core,
      [F.TOP_BOOT_MINSVN_VALUE]⟩
  , ⟨.TOP_BOOT_TIME, 0x00110, 1, 0, 1, 0, 1, 32, false, .core,
      [F.TOP_BOOT_TIME_VALUE]⟩
  , ⟨.TOP_SUPPLY, 0x00120, 1, 0, 1, 0, 1, 32, false, .core,
      [F.TOP_SUPPLY_IN_RANGE]⟩
  , ⟨.TOP_TEMP, 0x00124, 1, 0, 1, 0, 1, 32, false, .core,
      [F.TOP_TEMP_TEMP_CRIT, F.TOP_TEMP_TEMP_WARN]⟩
  , ⟨.TOP_PWR_CTL, 0x00140, 1, 0, 1, 0, 1, 32, false, .core,
      [F.TOP_PWR_CTL_ON]⟩
  , ⟨.TOP_PWR_STAT, 0x00144, 1, 4, 1, 0, 16, 2, false, .core,
      [F.TOP_PWR_STAT_STATE]⟩
  , ⟨.TOP_PWR_PEND, 0x00148, 1, 0, 1, 0, 1, 32, false, .core,
      [F.TOP_PWR_PEND_PENDING_ENABLE]⟩
  , ⟨.TOP_RTC_SEC, 0x00180, 1, 0, 1, 0, 1, 32, true, .vbat,
      [F.TOP_RTC_SEC_SEC]⟩
  , ⟨.TOP_RTC_STAT, 0x00188, 1, 0, 1, 0, 1, 32, false, .vbat,
      [F.TOP_RTC_STAT_VALID, F.TOP_RTC_STAT_OSC_OK, F.TOP_RTC_STAT_SYNC]⟩ ]

/-- Registers of block RIDGE, part 0. -/
def mapRIDGE0 : List RegDef :=
  [ ⟨.RIDGE_CTL, 0x04000, 1, 0, 1, 0, 1, 32, false, .core,
      [F.RIDGE_CTL_BEAT_EVT_DIV, F.RIDGE_CTL_B_EN]⟩
  , ⟨.RIDGE_STAT, 0x04004, 1, 0, 1, 0, 1, 32, false, .core,
      [F.RIDGE_STAT_BEAT_NUM, F.RIDGE_STAT_PHASE, F.RIDGE_STAT_B_SLEWING, F.RIDGE_STAT_A_SLEWING, F.RIDGE_STAT_B_STEP_NEEDED, F.RIDGE_STAT_A_STEP_NEEDED]⟩
  , ⟨.RIDGE_BEAT_SEQ, 0x04008, 1, 0, 1, 0, 1, 32, false, .core,
      [F.RIDGE_BEAT_SEQ_SEQ]⟩
  , ⟨.RIDGE_x_COUNT, 0x04010, 2, 8, 1, 0, 1, 32, true, .core,
      [F.RIDGE_x_COUNT_COUNT]⟩
  , ⟨.RIDGE_x_ADD_INT, 0x04020, 2, 4, 1, 0, 1, 32, false, .core,
      [F.RIDGE_x_ADD_INT_ADD_INT]⟩
  , ⟨.RIDGE_x_ADD_FRAC, 0x04028, 2, 8, 1, 0, 1, 32, true, .core,
      [F.RIDGE_x_ADD_FRAC_ADD_FRAC]⟩
  , ⟨.RIDGE_ADD_LOAD, 0x04038, 1, 0, 1, 0, 1, 32, false, .core,
      [F.RIDGE_ADD_LOAD_B_LOAD, F.RIDGE_ADD_LOAD_A_LOAD]⟩
  , ⟨.RIDGE_LIMIT_A, 0x0403C, 1, 0, 1, 0, 1, 32, false, .core,
      [F.RIDGE_LIMIT_A_JUMP_LIMIT]⟩
  , ⟨.RIDGE_LIMIT_B, 0x04040, 1, 0, 1, 0, 1, 32, false, .core,
      [F.RIDGE_LIMIT_B_JUMP_B_EN, F.RIDGE_LIMIT_B_JUMP_LIMIT_B]⟩
  , ⟨.RIDGE_SLEW, 0x04044, 1, 0, 1, 0, 1, 32, false, .core,
      [F.RIDGE_SLEW_SLEW_MAX_B, F.RIDGE_SLEW_SLEW_MAX]⟩
  , ⟨.RIDGE_CLASS_MAP, 0x04048, 1, 0, 1, 0, 1, 32, false, .core,
      [F.RIDGE_CLASS_MAP_MAP]⟩
  , ⟨.RIDGE_CLASS_ACT, 0x0404C, 1, 0, 1, 0, 1, 32, false, .core,
      [F.RIDGE_CLASS_ACT_MAP]⟩ ]

/-- Registers of block RIDGE, part 1. -/
def mapRIDGE1 : List RegDef :=
  [ ⟨.RIDGE_x_SLEW_REM, 0x04050, 2, 8, 1, 0, 1, 32, true, .core,
      [F.RIDGE_x_SLEW_REM_VALUE]⟩
  , ⟨.RIDGE_x_REQ_STEP, 0x04060, 2, 8, 1, 0, 1, 32, true, .core,
      [F.RIDGE_x_REQ_STEP_VALUE]⟩
  , ⟨.RIDGE_x_ANCHOR_COUNT, 0x04070, 2, 24, 1, 0, 1, 32, true, .core,
      [F.RIDGE_x_ANCHOR_COUNT_COUNT]⟩
  , ⟨.RIDGE_x_ANCHOR_SEC, 0x04078, 2, 24, 1, 0, 1, 32, true, .core,
      [F.RIDGE_x_ANCHOR_SEC_SEC]⟩
  , ⟨.RIDGE_x_ANCHOR_NSF, 0x04080, 2, 24, 1, 0, 1, 32, true, .core,
      [F.RIDGE_x_ANCHOR_NSF_NS, F.RIDGE_x_ANCHOR_NSF_FRAC]⟩
  , ⟨.RIDGE_SNAP_CTL, 0x040A0, 1, 0, 1, 0, 1, 32, false, .core,
      [F.RIDGE_SNAP_CTL_CAPTURE]⟩
  , ⟨.RIDGE_SNAP, 0x040A8, 2, 8, 1, 0, 1, 32, true, .core,
      [F.RIDGE_SNAP_COUNT]⟩
  , ⟨.RIDGE_BEAT_OVR, 0x040B8, 1, 0, 1, 0, 1, 32, false, .core,
      [F.RIDGE_BEAT_OVR_SLIP_CNT, F.RIDGE_BEAT_OVR_OVR_CNT]⟩
  , ⟨.RIDGE_BEAT_CLR, 0x040BC, 1, 0, 1, 0, 1, 32, false, .core,
      [F.RIDGE_BEAT_CLR_ACK]⟩
  , ⟨.RIDGE_PHASE_HWM, 0x040C0, 4, 4, 1, 0, 1, 32, false, .core,
      [F.RIDGE_PHASE_HWM_HWM]⟩
  , ⟨.RIDGE_CMP_CTL, 0x04200, 32, 32, 1, 0, 1, 32, false, .core,
      [F.RIDGE_CMP_CTL_ACK, F.RIDGE_CMP_CTL_LATE_ACT, F.RIDGE_CMP_CTL_SNAP, F.RIDGE_CMP_CTL_TRIG, F.RIDGE_CMP_CTL_EVT, F.RIDGE_CMP_CTL_MODE, F.RIDGE_CMP_CTL_DOM, F.RIDGE_CMP_CTL_EN]⟩
  , ⟨.RIDGE_CMP_STAT, 0x04204, 32, 32, 1, 0, 1, 32, false, .core,
      [F.RIDGE_CMP_STAT_FIRED_CNT, F.RIDGE_CMP_STAT_SKIPPED, F.RIDGE_CMP_STAT_LATE, F.RIDGE_CMP_STAT_ARMED]⟩ ]

/-- Registers of block RIDGE, part 2. -/
def mapRIDGE2 : List RegDef :=
  [ ⟨.RIDGE_CMP_TGT, 0x04208, 32, 32, 1, 0, 1, 32, true, .core,
      [F.RIDGE_CMP_TGT_VALUE]⟩
  , ⟨.RIDGE_CMP_PER, 0x04210, 32, 32, 1, 0, 1, 32, true, .core,
      [F.RIDGE_CMP_PER_VALUE]⟩
  , ⟨.RIDGE_CMP_CAP, 0x04218, 32, 32, 1, 0, 1, 32, true, .core,
      [F.RIDGE_CMP_CAP_VALUE]⟩ ]

/-- Registers of block TDC, part 0. -/
def mapTDC0 : List RegDef :=
  [ ⟨.TDC_CTL, 0x06000, 1, 0, 1, 0, 1, 32, false, .core,
      [F.TDC_CTL_EN]⟩
  , ⟨.TDC_STAT, 0x06004, 1, 0, 1, 0, 1, 32, false, .meas,
      [F.TDC_STAT_FINE_LOCKED, F.TDC_STAT_MAINT_ACTIVE, F.TDC_STAT_MEAS_LOCK]⟩
  , ⟨.TDC_SPARE, 0x06008, 1, 0, 1, 0, 1, 32, false, .core,
      [F.TDC_SPARE_SPARE1, F.TDC_SPARE_SPARE0]⟩
  , ⟨.TDC_SUB, 0x0600C, 1, 0, 1, 0, 1, 32, false, .core,
      [F.TDC_SUB_GO, F.TDC_SUB_DIR, F.TDC_SUB_SEL, F.TDC_SUB_LCH]⟩
  , ⟨.TDC_SUB_STAT, 0x06010, 1, 0, 1, 0, 1, 32, false, .core,
      [F.TDC_SUB_STAT_SPARE1_FOR, F.TDC_SUB_STAT_SPARE0_FOR, F.TDC_SUB_STAT_FAILED, F.TDC_SUB_STAT_DONE, F.TDC_SUB_STAT_BUSY]⟩
  , ⟨.TDC_CAL_CTL, 0x06014, 1, 0, 1, 0, 1, 32, false, .core,
      [F.TDC_CAL_CTL_USE_SPARE, F.TDC_CAL_CTL_TEMP_STEP, F.TDC_CAL_CTL_PERIOD]⟩
  , ⟨.TDC_FINE_CAL, 0x06040, 8, 4, 1, 0, 1, 32, false, .meas,
      [F.TDC_FINE_CAL_DNL_MAX, F.TDC_FINE_CAL_BIN_AVG]⟩
  , ⟨.TDC_CH_CTL, 0x06400, 48, 32, 1, 0, 1, 32, false, .meas,
      [F.TDC_CH_CTL_DECIM_LOG2, F.TDC_CH_CTL_MAX_STOPS, F.TDC_CH_CTL_ARM_SEL, F.TDC_CH_CTL_OOS, F.TDC_CH_CTL_RING_EN, F.TDC_CH_CTL_STOP_FALL, F.TDC_CH_CTL_START_FALL, F.TDC_CH_CTL_MODE, F.TDC_CH_CTL_EN]⟩
  , ⟨.TDC_CH_SRC, 0x06404, 48, 32, 1, 0, 1, 32, false, .meas,
      [F.TDC_CH_SRC_STOP_SRC, F.TDC_CH_SRC_START_SRC]⟩
  , ⟨.TDC_CH_GATE, 0x06408, 48, 32, 1, 0, 1, 32, false, .meas,
      [F.TDC_CH_GATE_GATE]⟩
  , ⟨.TDC_CH_WIN, 0x0640C, 48, 32, 1, 0, 1, 32, false, .meas,
      [F.TDC_CH_WIN_WIN]⟩
  , ⟨.TDC_CH_NOM, 0x06410, 48, 32, 1, 0, 1, 32, true, .meas,
      [F.TDC_CH_NOM_VALUE]⟩ ]

/-- Registers of block TDC, part 1. -/
def mapTDC1 : List RegDef :=
  [ ⟨.TDC_CH_OFS, 0x06418, 48, 32, 1, 0, 1, 32, true, .meas,
      [F.TDC_CH_OFS_VALUE]⟩
  , ⟨.TDC_RES_PHASE, 0x06C00, 48, 32, 1, 0, 1, 32, true, .meas,
      [F.TDC_RES_PHASE_VALUE]⟩
  , ⟨.TDC_RES_FREQ, 0x06C08, 48, 32, 1, 0, 1, 32, true, .meas,
      [F.TDC_RES_FREQ_VALUE]⟩
  , ⟨.TDC_RES_N, 0x06C10, 48, 32, 1, 0, 1, 32, false, .meas,
      [F.TDC_RES_N_N]⟩
  , ⟨.TDC_RES_RESID, 0x06C14, 48, 32, 1, 0, 1, 32, false, .meas,
      [F.TDC_RES_RESID_RESID]⟩
  , ⟨.TDC_RES_INFO, 0x06C18, 48, 32, 1, 0, 1, 32, false, .meas,
      [F.TDC_RES_INFO_VALID, F.TDC_RES_INFO_FREQ_VALID, F.TDC_RES_INFO_MAINT, F.TDC_RES_INFO_STEP, F.TDC_RES_INFO_SPARE, F.TDC_RES_INFO_NO_EDGE, F.TDC_RES_INFO_OVERRATE, F.TDC_RES_INFO_UNLOCKED, F.TDC_RES_INFO_GATE_SEQ]⟩
  , ⟨.TDC_CH_STAT, 0x06C1C, 48, 32, 1, 0, 1, 32, false, .meas,
      [F.TDC_CH_STAT_STATE, F.TDC_CH_STAT_PHYS, F.TDC_CH_STAT_PENDING_ENABLE, F.TDC_CH_STAT_LOCKED, F.TDC_CH_STAT_WINDOW]⟩
  , ⟨.TDC_RING_WR, 0x07400, 48, 16, 1, 0, 1, 32, false, .meas,
      [F.TDC_RING_WR_PTR]⟩
  , ⟨.TDC_RING_RD, 0x07404, 48, 16, 1, 0, 1, 32, false, .meas,
      [F.TDC_RING_RD_PTR]⟩
  , ⟨.TDC_RING_LOST, 0x07408, 48, 16, 1, 0, 1, 32, false, .meas,
      [F.TDC_RING_LOST_LOST]⟩
  , ⟨.TDC_CH_CNT, 0x0740C, 48, 16, 1, 0, 1, 32, false, .meas,
      [F.TDC_CH_CNT_MISSED, F.TDC_CH_CNT_ORPHANS, F.TDC_CH_CNT_RESTARTS]⟩
  , ⟨.TDC_XB_PRE, 0x07800, 64, 4, 1, 0, 1, 32, false, .meas,
      [F.TDC_XB_PRE_DIV]⟩ ]

/-- Registers of block TDC, part 2. -/
def mapTDC2 : List RegDef :=
  [ ⟨.TDC_XB_DLY, 0x07900, 64, 4, 1, 0, 1, 32, false, .meas,
      [F.TDC_XB_DLY_DLY]⟩ ]

/-- Registers of block ENS, part 0. -/
def mapENS0 : List RegDef :=
  [ ⟨.ENS_CTL, 0x08000, 1, 0, 1, 0, 1, 32, false, .core,
      [F.ENS_CTL_W_MAX, F.ENS_CTL_WT_SHIFT, F.ENS_CTL_RANK_SPAN, F.ENS_CTL_MAX_MEMBERS, F.ENS_CTL_EN]⟩
  , ⟨.ENS_STAT, 0x08004, 1, 0, 1, 0, 1, 32, false, .core,
      [F.ENS_STAT_GEN, F.ENS_STAT_PENDING_ENABLE, F.ENS_STAT_TRACE_A, F.ENS_STAT_MEMBERS]⟩
  , ⟨.ENS_QUAL, 0x08008, 1, 0, 1, 0, 1, 32, false, .core,
      [F.ENS_QUAL_HOLDOFF, F.ENS_QUAL_OUTLIER_MAX, F.ENS_QUAL_OUTLIER_K]⟩
  , ⟨.ENS_DISPUTE, 0x0800C, 1, 0, 1, 0, 1, 32, false, .core,
      [F.ENS_DISPUTE_WIN, F.ENS_DISPUTE_TOL]⟩
  , ⟨.ENS_RAMP, 0x08010, 1, 0, 1, 0, 1, 32, false, .core,
      [F.ENS_RAMP_EXIT_RAMP, F.ENS_RAMP_ENTRY_RAMP]⟩
  , ⟨.ENS_LOCK, 0x08014, 1, 0, 1, 0, 1, 32, false, .core,
      [F.ENS_LOCK_LOCK_TIME, F.ENS_LOCK_LOCK_PHASE]⟩
  , ⟨.ENS_LOCKF, 0x08018, 1, 0, 1, 0, 1, 32, false, .core,
      [F.ENS_LOCKF_LOCK_FREQ]⟩
  , ⟨.ENS_TRACE, 0x0801C, 1, 0, 1, 0, 1, 32, false, .core,
      [F.ENS_TRACE_TRACE_TAU]⟩
  , ⟨.ENS_x_PHASE, 0x08020, 2, 16, 1, 0, 1, 32, true, .core,
      [F.ENS_x_PHASE_VALUE]⟩
  , ⟨.ENS_x_FREQ, 0x08028, 2, 16, 1, 0, 1, 32, true, .core,
      [F.ENS_x_FREQ_VALUE]⟩
  , ⟨.ENS_B_CFG, 0x08040, 1, 0, 1, 0, 1, 32, false, .core,
      [F.ENS_B_CFG_SLOT, F.ENS_B_CFG_MODE]⟩
  , ⟨.ENS_B_TRACE, 0x08044, 1, 0, 1, 0, 1, 32, false, .core,
      [F.ENS_B_TRACE_MASK]⟩ ]

/-- Registers of block ENS, part 1. -/
def mapENS1 : List RegDef :=
  [ ⟨.ENS_DOM_CTL, 0x08048, 1, 0, 1, 0, 1, 32, false, .core,
      [F.ENS_DOM_CTL_B_FORCE_FREE, F.ENS_DOM_CTL_A_FORCE_FREE]⟩
  , ⟨.ENS_DOM_STAT, 0x0804C, 1, 0, 1, 0, 1, 32, false, .core,
      [F.ENS_DOM_STAT_B_LOCKED_EVER, F.ENS_DOM_STAT_A_LOCKED_EVER, F.ENS_DOM_STAT_B_EVER, F.ENS_DOM_STAT_B_STATE, F.ENS_DOM_STAT_A_EVER, F.ENS_DOM_STAT_A_STATE]⟩
  , ⟨.ENS_MEMBERS, 0x08050, 1, 0, 1, 0, 1, 32, false, .core,
      [F.ENS_MEMBERS_MASK]⟩
  , ⟨.ENS_DISPUTED, 0x08054, 1, 0, 1, 0, 1, 32, false, .core,
      [F.ENS_DISPUTED_MASK]⟩
  , ⟨.ENS_CHANGED, 0x08058, 1, 0, 1, 0, 1, 32, false, .core,
      [F.ENS_CHANGED_CHG]⟩
  , ⟨.ENS_ACK, 0x0805C, 1, 0, 1, 0, 1, 32, false, .core,
      [F.ENS_ACK_ACK]⟩
  , ⟨.ENS_STEER, 0x08060, 2, 8, 1, 0, 1, 32, true, .core,
      [F.ENS_STEER_VALUE]⟩
  , ⟨.ENS_SLOT_CFG, 0x08100, 24, 64, 1, 0, 1, 32, false, .core,
      [F.ENS_SLOT_CFG_QUAL_TIME, F.ENS_SLOT_CFG_QL_MIN, F.ENS_SLOT_CFG_SRC, F.ENS_SLOT_CFG_KIND, F.ENS_SLOT_CFG_EN]⟩
  , ⟨.ENS_SLOT_RANK, 0x08104, 24, 64, 1, 0, 1, 32, false, .core,
      [F.ENS_SLOT_RANK_RANK]⟩
  , ⟨.ENS_SLOT_FTOL, 0x08108, 24, 64, 1, 0, 1, 32, false, .core,
      [F.ENS_SLOT_FTOL_FTOL]⟩
  , ⟨.ENS_SLOT_SIG0, 0x0810C, 24, 64, 1, 0, 1, 32, false, .core,
      [F.ENS_SLOT_SIG0_SIG0]⟩
  , ⟨.ENS_SLOT_GAIN, 0x08110, 24, 64, 1, 0, 1, 32, false, .core,
      [F.ENS_SLOT_GAIN_KD_SHIFT, F.ENS_SLOT_GAIN_KY_SHIFT, F.ENS_SLOT_GAIN_KX]⟩ ]

/-- Registers of block ENS, part 2. -/
def mapENS2 : List RegDef :=
  [ ⟨.ENS_SLOT_STAT, 0x08114, 24, 64, 1, 0, 1, 32, false, .core,
      [F.ENS_SLOT_STAT_TIMER, F.ENS_SLOT_STAT_STREAK, F.ENS_SLOT_STAT_TRACE, F.ENS_SLOT_STAT_MAINT, F.ENS_SLOT_STAT_OUTLIER, F.ENS_SLOT_STAT_FRESH, F.ENS_SLOT_STAT_CAUSE, F.ENS_SLOT_STAT_STATE]⟩
  , ⟨.ENS_SLOT_W, 0x08118, 24, 64, 1, 0, 1, 32, false, .core,
      [F.ENS_SLOT_W_WEIGHT]⟩
  , ⟨.ENS_SLOT_CNT, 0x0811C, 24, 64, 1, 0, 1, 32, false, .core,
      [F.ENS_SLOT_CNT_DISPUTES, F.ENS_SLOT_CNT_DISQ, F.ENS_SLOT_CNT_OUTLIERS]⟩
  , ⟨.ENS_SLOT_SIG2, 0x08120, 24, 64, 1, 0, 1, 32, true, .core,
      [F.ENS_SLOT_SIG2_VALUE]⟩
  , ⟨.ENS_SLOT_X, 0x08128, 24, 64, 1, 0, 1, 32, true, .core,
      [F.ENS_SLOT_X_VALUE]⟩
  , ⟨.ENS_SLOT_Y, 0x08130, 24, 64, 1, 0, 1, 32, true, .core,
      [F.ENS_SLOT_Y_VALUE]⟩
  , ⟨.ENS_SLOT_D, 0x08138, 24, 64, 1, 0, 1, 32, true, .core,
      [F.ENS_SLOT_D_VALUE]⟩ ]

/-- Registers of block EAVES, part 0. -/
def mapEAVES0 : List RegDef :=
  [ ⟨.EAVES_CTL, 0x09000, 1, 0, 1, 0, 1, 32, false, .core,
      [F.EAVES_CTL_B_POLICY, F.EAVES_CTL_A_POLICY, F.EAVES_CTL_LEARN, F.EAVES_CTL_K]⟩
  , ⟨.EAVES_STAT, 0x09004, 1, 0, 1, 0, 1, 32, false, .core,
      [F.EAVES_STAT_GEN, F.EAVES_STAT_TEMP]⟩
  , ⟨.EAVES_PAD, 0x09008, 1, 0, 1, 0, 1, 32, false, .core,
      [F.EAVES_PAD_MISS_PAD, F.EAVES_PAD_FLOOR]⟩
  , ⟨.EAVES_S2_PAD, 0x0900C, 1, 0, 1, 0, 1, 32, false, .core,
      [F.EAVES_S2_PAD_PAD]⟩
  , ⟨.EAVES_x_LIMIT, 0x09010, 2, 4, 1, 0, 1, 32, false, .core,
      [F.EAVES_x_LIMIT_HOLDOVER_LIMIT]⟩
  , ⟨.EAVES_x_BOUND, 0x09040, 2, 64, 1, 0, 1, 32, false, .core,
      [F.EAVES_x_BOUND_BOUND]⟩
  , ⟨.EAVES_x_FLAGS, 0x09044, 2, 64, 1, 0, 1, 32, false, .core,
      [F.EAVES_x_FLAGS_BREACH, F.EAVES_x_FLAGS_WITHHELD, F.EAVES_x_FLAGS_SAT, F.EAVES_x_FLAGS_NEVER, F.EAVES_x_FLAGS_S2, F.EAVES_x_FLAGS_CONT, F.EAVES_x_FLAGS_HOLD, F.EAVES_x_FLAGS_LEARNED, F.EAVES_x_FLAGS_MISSED]⟩
  , ⟨.EAVES_x_C, 0x09048, 2, 64, 6, 4, 1, 32, false, .core,
      [F.EAVES_x_C_VALUE]⟩
  , ⟨.EAVES_x_HO_AGE, 0x09060, 2, 64, 1, 0, 1, 32, false, .core,
      [F.EAVES_x_HO_AGE_AGE]⟩
  , ⟨.EAVES_x_TRACE_SLOTS, 0x09064, 2, 64, 1, 0, 1, 32, false, .core,
      [F.EAVES_x_TRACE_SLOTS_TRACE_GEN, F.EAVES_x_TRACE_SLOTS_SLOTS]⟩
  , ⟨.EAVES_x_TRACE_CAL, 0x09068, 2, 64, 1, 0, 1, 32, true, .core,
      [F.EAVES_x_TRACE_CAL_RECORDS]⟩
  , ⟨.EAVES_x_BREACH, 0x09070, 2, 64, 1, 0, 1, 32, false, .core,
      [F.EAVES_x_BREACH_VALUE]⟩ ]

/-- Registers of block EAVES, part 1. -/
def mapEAVES1 : List RegDef :=
  [ ⟨.EAVES_CAL_CTL, 0x09400, 64, 16, 1, 0, 1, 32, false, .core,
      [F.EAVES_CAL_CTL_VALID, F.EAVES_CAL_CTL_EXPIRED, F.EAVES_CAL_CTL_ID]⟩
  , ⟨.EAVES_CAL_UNC, 0x09404, 64, 16, 1, 0, 1, 32, false, .core,
      [F.EAVES_CAL_UNC_UNC]⟩
  , ⟨.EAVES_CAL_UNCX, 0x09408, 64, 16, 1, 0, 1, 32, false, .core,
      [F.EAVES_CAL_UNCX_UNC_EXP]⟩
  , ⟨.EAVES_CAL_EXP, 0x0940C, 64, 16, 1, 0, 1, 32, false, .core,
      [F.EAVES_CAL_EXP_EXP_DAY]⟩
  , ⟨.EAVES_SLOT_CAL, 0x09800, 24, 8, 1, 0, 1, 32, true, .core,
      [F.EAVES_SLOT_CAL_MASK]⟩
  , ⟨.EAVES_SLOT_UNC, 0x098C0, 24, 4, 1, 0, 1, 32, false, .core,
      [F.EAVES_SLOT_UNC_UNC]⟩
  , ⟨.EAVES_x_CAL_COMMON, 0x09920, 2, 8, 1, 0, 1, 32, true, .core,
      [F.EAVES_x_CAL_COMMON_MASK]⟩
  , ⟨.EAVES_CHAR_CTL, 0x09A00, 24, 32, 1, 0, 1, 32, false, .core,
      [F.EAVES_CHAR_CTL_LEARNED, F.EAVES_CHAR_CTL_VALID]⟩
  , ⟨.EAVES_CHAR_Y0, 0x09A04, 24, 32, 1, 0, 1, 32, false, .core,
      [F.EAVES_CHAR_Y0_Y0]⟩
  , ⟨.EAVES_CHAR_DRIFT, 0x09A08, 24, 32, 1, 0, 1, 32, false, .core,
      [F.EAVES_CHAR_DRIFT_DRIFT]⟩
  , ⟨.EAVES_CHAR_WFM, 0x09A0C, 24, 32, 1, 0, 1, 32, false, .core,
      [F.EAVES_CHAR_WFM_WFM]⟩
  , ⟨.EAVES_CHAR_TEMPCO, 0x09A10, 24, 32, 1, 0, 1, 32, false, .core,
      [F.EAVES_CHAR_TEMPCO_TEMPCO]⟩ ]

/-- Registers of block EAVES, part 2. -/
def mapEAVES2 : List RegDef :=
  [ ⟨.EAVES_CHAR_KV, 0x09A14, 24, 32, 1, 0, 1, 32, false, .core,
      [F.EAVES_CHAR_KV_KV]⟩
  , ⟨.OSC_CTL, 0x09E00, 3, 64, 1, 0, 1, 32, false, .core,
      [F.OSC_CTL_PERIOD, F.OSC_CTL_G_SHIFT, F.OSC_CTL_SHARED, F.OSC_CTL_MEDIUM, F.OSC_CTL_MODE]⟩
  , ⟨.OSC_STEP, 0x09E04, 3, 64, 1, 0, 1, 32, false, .core,
      [F.OSC_STEP_UART_LAT, F.OSC_STEP_STEP_MAX]⟩
  , ⟨.OSC_CODE, 0x09E08, 3, 64, 1, 0, 1, 32, false, .core,
      [F.OSC_CODE_CODE]⟩
  , ⟨.OSC_ACC, 0x09E0C, 3, 64, 1, 0, 1, 32, false, .core,
      [F.OSC_ACC_ACC]⟩
  , ⟨.OSC_STAT, 0x09E10, 3, 64, 1, 0, 1, 32, false, .core,
      [F.OSC_STAT_STEPS, F.OSC_STAT_MISS, F.OSC_STAT_CLAMPED, F.OSC_STAT_ALARM, F.OSC_STAT_PRESENT, F.OSC_STAT_STATE]⟩
  , ⟨.OSC_UCFG, 0x09E14, 3, 64, 1, 0, 1, 32, false, .core,
      [F.OSC_UCFG_MISS_MAX, F.OSC_UCFG_RESP_TO, F.OSC_UCFG_POLL_PERIOD, F.OSC_UCFG_STOP2, F.OSC_UCFG_PARITY, F.OSC_UCFG_BAUD]⟩
  , ⟨.OSC_TPL, 0x09E18, 3, 64, 3, 4, 1, 32, false, .core,
      [F.OSC_TPL_EN, F.OSC_TPL_CKOFS, F.OSC_TPL_CKFROM, F.OSC_TPL_CKFMT, F.OSC_TPL_VWID, F.OSC_TPL_VSEL, F.OSC_TPL_VFMT, F.OSC_TPL_VOFS, F.OSC_TPL_LEN]⟩
  , ⟨.OSC_RESP, 0x09E24, 3, 64, 4, 4, 1, 32, false, .core,
      [F.OSC_RESP_BYTES]⟩
  , ⟨.OSC_BYTES, 0x09F00, 64, 4, 1, 0, 1, 32, false, .core,
      [F.OSC_BYTES_DATA]⟩ ]

/-- Registers of block DPLL, part 0. -/
def mapDPLL0 : List RegDef :=
  [ ⟨.DPLL_CTL, 0x0A000, 8, 128, 1, 0, 1, 32, false, .core,
      [F.DPLL_CTL_AUTO_SW, F.DPLL_CTL_REVERT, F.DPLL_CTL_PBO_EN, F.DPLL_CTL_DAMP, F.DPLL_CTL_ORDER, F.DPLL_CTL_EN]⟩
  , ⟨.DPLL_LOOP, 0x0A004, 8, 128, 1, 0, 1, 32, false, .core,
      [F.DPLL_LOOP_PSL, F.DPLL_LOOP_ACQ_BW, F.DPLL_LOOP_BW]⟩
  , ⟨.DPLL_IN, 0x0A008, 8, 128, 1, 0, 1, 32, false, .core,
      [F.DPLL_IN_EN3, F.DPLL_IN_EN2, F.DPLL_IN_EN1, F.DPLL_IN_EN0, F.DPLL_IN_SRC3, F.DPLL_IN_SRC2, F.DPLL_IN_SRC1, F.DPLL_IN_SRC0]⟩
  , ⟨.DPLL_MON, 0x0A00C, 8, 128, 1, 0, 1, 32, false, .core,
      [F.DPLL_MON_WTR, F.DPLL_MON_VAL_TIME, F.DPLL_MON_FTOL]⟩
  , ⟨.DPLL_THR, 0x0A010, 8, 128, 1, 0, 1, 32, false, .core,
      [F.DPLL_THR_LOCK_WIN, F.DPLL_THR_CORR_MIN]⟩
  , ⟨.DPLL_STAT, 0x0A014, 8, 128, 1, 0, 1, 32, false, .core,
      [F.DPLL_STAT_FCLAMP, F.DPLL_STAT_PSL_ACT, F.DPLL_STAT_PENDING_ENABLE, F.DPLL_STAT_VALID, F.DPLL_STAT_ACTIVE, F.DPLL_STAT_STATE]⟩
  , ⟨.DPLL_CNT, 0x0A018, 8, 128, 1, 0, 1, 32, false, .core,
      [F.DPLL_CNT_SWITCHES, F.DPLL_CNT_PSL_CNT]⟩
  , ⟨.DPLL_CMD, 0x0A01C, 8, 128, 1, 0, 1, 32, false, .core,
      [F.DPLL_CMD_SWITCH, F.DPLL_CMD_ENTRY]⟩
  , ⟨.DPLL_IN_DIV, 0x0A020, 8, 128, 4, 4, 1, 32, false, .core,
      [F.DPLL_IN_DIV_DIV]⟩
  , ⟨.DPLL_PD_PER, 0x0A030, 8, 128, 1, 0, 1, 32, true, .core,
      [F.DPLL_PD_PER_VALUE]⟩
  , ⟨.DPLL_FREQ, 0x0A038, 8, 128, 1, 0, 1, 32, true, .core,
      [F.DPLL_FREQ_VALUE]⟩
  , ⟨.DPLL_PHERR, 0x0A040, 8, 128, 1, 0, 1, 32, true, .core,
      [F.DPLL_PHERR_VALUE]⟩ ]

/-- Registers of block DPLL, part 1. -/
def mapDPLL1 : List RegDef :=
  [ ⟨.DPLL_HOLDF, 0x0A048, 8, 128, 1, 0, 1, 32, true, .core,
      [F.DPLL_HOLDF_VALUE]⟩
  , ⟨.DPLL_PBO, 0x0A050, 8, 128, 1, 0, 1, 32, true, .core,
      [F.DPLL_PBO_VALUE]⟩
  , ⟨.DPLL_STEPD, 0x0A058, 8, 128, 1, 0, 1, 32, true, .core,
      [F.DPLL_STEPD_VALUE]⟩ ]

/-- Registers of block APLL, part 0. -/
def mapAPLL0 : List RegDef :=
  [ ⟨.APLL_CTL, 0x0C000, 6, 64, 1, 0, 1, 32, false, .core,
      [F.APLL_CTL_AUTO_RET, F.APLL_CTL_LBW, F.APLL_CTL_DPLL_SEL, F.APLL_CTL_RDIV, F.APLL_CTL_RDBL, F.APLL_CTL_REF, F.APLL_CTL_EN]⟩
  , ⟨.APLL_N, 0x0C004, 6, 64, 1, 0, 1, 32, false, .core,
      [F.APLL_N_N]⟩
  , ⟨.APLL_FRAC, 0x0C008, 6, 64, 1, 0, 1, 32, false, .core,
      [F.APLL_FRAC_FRAC]⟩
  , ⟨.APLL_BAND, 0x0C00C, 6, 64, 1, 0, 1, 32, false, .core,
      [F.APLL_BAND_RET_HOLD, F.APLL_BAND_MAN, F.APLL_BAND_MAN_BAND]⟩
  , ⟨.APLL_STAT, 0x0C010, 6, 64, 1, 0, 1, 32, false, .core,
      [F.APLL_STAT_BAND, F.APLL_STAT_PENDING_ENABLE, F.APLL_STAT_BYPASS, F.APLL_STAT_REF_OK, F.APLL_STAT_LOCK, F.APLL_STAT_STATE]⟩
  , ⟨.APLL_CNT, 0x0C014, 6, 64, 1, 0, 1, 32, false, .core,
      [F.APLL_CNT_LOL, F.APLL_CNT_SEARCHES]⟩
  , ⟨.APLL_SRCH, 0x0C018, 6, 64, 1, 0, 1, 32, false, .core,
      [F.APLL_SRCH_FINAL, F.APLL_SRCH_TARGET]⟩
  , ⟨.APLL_SRCH_T, 0x0C01C, 6, 64, 1, 0, 1, 32, false, .core,
      [F.APLL_SRCH_T_COUNTS, F.APLL_SRCH_T_DURATION]⟩ ]

/-- Registers of block OUT, part 0. -/
def mapOUT0 : List RegDef :=
  [ ⟨.OUT_STAT, 0x0D000, 1, 0, 1, 0, 1, 32, false, .core,
      [F.OUT_STAT_RELEASED, F.OUT_STAT_ALIGN_BUSY, F.OUT_STAT_PPS_SQ, F.OUT_STAT_CLK_SQ]⟩
  , ⟨.OUT_CLK_CTL, 0x0D100, 16, 16, 1, 0, 1, 32, false, .core,
      [F.OUT_CLK_CTL_BYP_DIV, F.OUT_CLK_CTL_S3_ACT, F.OUT_CLK_CTL_SQ_MASK, F.OUT_CLK_CTL_FMT, F.OUT_CLK_CTL_SRC, F.OUT_CLK_CTL_EN]⟩
  , ⟨.OUT_CLK_DIV, 0x0D104, 16, 16, 1, 0, 1, 32, false, .core,
      [F.OUT_CLK_DIV_DIV]⟩
  , ⟨.OUT_CLK_DLY, 0x0D108, 16, 16, 1, 0, 1, 32, false, .core,
      [F.OUT_CLK_DLY_COARSE, F.OUT_CLK_DLY_FINE]⟩
  , ⟨.OUT_CLK_STAT, 0x0D10C, 16, 16, 1, 0, 1, 32, false, .core,
      [F.OUT_CLK_STAT_SQ_CNT, F.OUT_CLK_STAT_PENDING_ENABLE, F.OUT_CLK_STAT_BYPASS, F.OUT_CLK_STAT_SQUELCHED, F.OUT_CLK_STAT_RUNNING]⟩
  , ⟨.OUT_PPS_CTL, 0x0D200, 8, 32, 1, 0, 1, 32, false, .core,
      [F.OUT_PPS_CTL_S3_ACT, F.OUT_PPS_CTL_SQ_MASK, F.OUT_PPS_CTL_POL, F.OUT_PPS_CTL_FMT, F.OUT_PPS_CTL_DOM, F.OUT_PPS_CTL_EN]⟩
  , ⟨.OUT_PPS_WIDTH, 0x0D204, 8, 32, 1, 0, 1, 32, false, .core,
      [F.OUT_PPS_WIDTH_WIDTH]⟩
  , ⟨.OUT_PPS_PER, 0x0D208, 8, 32, 1, 0, 1, 32, false, .core,
      [F.OUT_PPS_PER_PER]⟩
  , ⟨.OUT_PPS_OFS, 0x0D20C, 8, 32, 1, 0, 1, 32, false, .core,
      [F.OUT_PPS_OFS_OFS]⟩
  , ⟨.OUT_PPS_DIFF, 0x0D210, 8, 32, 1, 0, 1, 32, true, .core,
      [F.OUT_PPS_DIFF_DIFF]⟩
  , ⟨.OUT_PPS_STAT, 0x0D218, 8, 32, 1, 0, 1, 32, false, .core,
      [F.OUT_PPS_STAT_SQ_CNT, F.OUT_PPS_STAT_ALIGNING, F.OUT_PPS_STAT_PENDING_ENABLE, F.OUT_PPS_STAT_OFS_STAGED, F.OUT_PPS_STAT_SQUELCHED, F.OUT_PPS_STAT_RUNNING]⟩ ]

/-- Registers of block GNSS, part 0. -/
def mapGNSS0 : List RegDef :=
  [ ⟨.GNSS_CTL, 0x0E000, 1, 0, 1, 0, 1, 32, false, .gnss,
      [F.GNSS_CTL_TIME_SYS, F.GNSS_CTL_UTC_CORR, F.GNSS_CTL_SPOOF_REQ, F.GNSS_CTL_BASE_LEARN, F.GNSS_CTL_MODE, F.GNSS_CTL_EPOCH_RATE, F.GNSS_CTL_AUTO_CH, F.GNSS_CTL_ANT1_EN, F.GNSS_CTL_EN]⟩
  , ⟨.GNSS_STAT, 0x0E004, 1, 0, 1, 0, 1, 32, false, .gnss,
      [F.GNSS_STAT_START_KIND, F.GNSS_STAT_CH_TRACK, F.GNSS_STAT_SV_USED, F.GNSS_STAT_SOL_VALID, F.GNSS_STAT_MODE_ACT, F.GNSS_STAT_PENDING_ENABLE, F.GNSS_STAT_STATE]⟩
  , ⟨.GNSS_MIN, 0x0E008, 1, 0, 1, 0, 1, 32, false, .gnss,
      [F.GNSS_MIN_CN0_MASK, F.GNSS_MIN_ELEV_MASK, F.GNSS_MIN_MIN_SV]⟩
  , ⟨.GNSS_TRK, 0x0E00C, 1, 0, 1, 0, 1, 32, false, .gnss,
      [F.GNSS_TRK_TINT, F.GNSS_TRK_CORR_SP, F.GNSS_TRK_DLL_BW, F.GNSS_TRK_FLL_BW, F.GNSS_TRK_PLL_BW]⟩
  , ⟨.GNSS_ACQ, 0x0E010, 1, 0, 1, 0, 1, 32, false, .gnss,
      [F.GNSS_ACQ_DOPP_RANGE, F.GNSS_ACQ_NC, F.GNSS_ACQ_T_COH]⟩
  , ⟨.GNSS_EPOCH_SEQ, 0x0E014, 1, 0, 1, 0, 1, 32, false, .gnss,
      [F.GNSS_EPOCH_SEQ_SEQ]⟩
  , ⟨.GNSS_EPOCH_E, 0x0E018, 1, 0, 1, 0, 1, 32, true, .gnss,
      [F.GNSS_EPOCH_E_E]⟩
  , ⟨.GNSS_SPOOF_CFG, 0x0E020, 1, 0, 1, 0, 1, 32, false, .gnss,
      [F.GNSS_SPOOF_CFG_CLEAR_TIME, F.GNSS_SPOOF_CFG_MIN_GEO, F.GNSS_SPOOF_CFG_SPOOF_N, F.GNSS_SPOOF_CFG_GEO_TOL]⟩
  , ⟨.GNSS_SPOOF_TOL, 0x0E024, 1, 0, 1, 0, 1, 32, false, .gnss,
      [F.GNSS_SPOOF_TOL_POS_TOL, F.GNSS_SPOOF_TOL_TIME_PAD]⟩
  , ⟨.GNSS_VERDICT, 0x0E028, 1, 0, 1, 0, 1, 32, false, .gnss,
      [F.GNSS_VERDICT_JAM, F.GNSS_VERDICT_EXCL, F.GNSS_VERDICT_CAUSE, F.GNSS_VERDICT_VERDICT]⟩
  , ⟨.GNSS_SPOOF_STAT, 0x0E02C, 1, 0, 1, 0, 1, 32, false, .gnss,
      [F.GNSS_SPOOF_STAT_D, F.GNSS_SPOOF_STAT_RMS]⟩
  , ⟨.GNSS_VCNT, 0x0E030, 1, 0, 1, 0, 1, 32, false, .gnss,
      [F.GNSS_VCNT_SUSPECT_CNT, F.GNSS_VCNT_SPOOFED_CNT]⟩ ]

/-- Registers of block GNSS, part 1. -/
def mapGNSS1 : List RegDef :=
  [ ⟨.GNSS_FE_CFG, 0x0E034, 1, 0, 1, 0, 1, 32, false, .gnss,
      [F.GNSS_FE_CFG_SCK_DIV, F.GNSS_FE_CFG_ID_ADDR]⟩
  , ⟨.GNSS_FE_ID, 0x0E038, 2, 4, 1, 0, 1, 32, false, .gnss,
      [F.GNSS_FE_ID_EXP]⟩
  , ⟨.GNSS_POS_X, 0x0E040, 1, 0, 1, 0, 1, 32, true, .gnss,
      [F.GNSS_POS_X_POS]⟩
  , ⟨.GNSS_POS_Y, 0x0E048, 1, 0, 1, 0, 1, 32, true, .gnss,
      [F.GNSS_POS_Y_POS]⟩
  , ⟨.GNSS_POS_Z, 0x0E050, 1, 0, 1, 0, 1, 32, true, .gnss,
      [F.GNSS_POS_Z_POS]⟩
  , ⟨.GNSS_POS_SIG, 0x0E058, 1, 0, 1, 0, 1, 32, false, .gnss,
      [F.GNSS_POS_SIG_SIG]⟩
  , ⟨.GNSS_SURVEY, 0x0E05C, 1, 0, 1, 0, 1, 32, false, .gnss,
      [F.GNSS_SURVEY_SURVEY_ACC, F.GNSS_SURVEY_SURVEY_TIME]⟩
  , ⟨.GNSS_BASE_E, 0x0E060, 1, 0, 1, 0, 1, 32, false, .gnss,
      [F.GNSS_BASE_E_BASE]⟩
  , ⟨.GNSS_BASE_N, 0x0E064, 1, 0, 1, 0, 1, 32, false, .gnss,
      [F.GNSS_BASE_N_BASE]⟩
  , ⟨.GNSS_BASE_U, 0x0E068, 1, 0, 1, 0, 1, 32, false, .gnss,
      [F.GNSS_BASE_U_BASE]⟩
  , ⟨.GNSS_BASE_STAT, 0x0E06C, 1, 0, 1, 0, 1, 32, false, .gnss,
      [F.GNSS_BASE_STAT_LEARNED, F.GNSS_BASE_STAT_KNOWN]⟩
  , ⟨.GNSS_CABLE, 0x0E070, 2, 8, 1, 0, 1, 32, true, .gnss,
      [F.GNSS_CABLE_CABLE]⟩ ]

/-- Registers of block GNSS, part 2. -/
def mapGNSS2 : List RegDef :=
  [ ⟨.GNSS_BAND_DLY, 0x0E080, 8, 4, 1, 0, 1, 32, false, .gnss,
      [F.GNSS_BAND_DLY_DLY]⟩
  , ⟨.GNSS_UNC, 0x0E0A0, 1, 0, 1, 0, 1, 32, false, .gnss,
      [F.GNSS_UNC_K_U, F.GNSS_UNC_U_FLOOR]⟩
  , ⟨.GNSS_IONO_PAD, 0x0E0A4, 1, 0, 1, 0, 1, 32, false, .gnss,
      [F.GNSS_IONO_PAD_IONO_PAD]⟩
  , ⟨.GNSS_HINT, 0x0E0A8, 1, 0, 1, 0, 1, 32, false, .gnss,
      [F.GNSS_HINT_USED, F.GNSS_HINT_VALID, F.GNSS_HINT_HINT_PERIOD]⟩
  , ⟨.GNSS_HINT_AGE, 0x0E0AC, 1, 0, 1, 0, 1, 32, false, .gnss,
      [F.GNSS_HINT_AGE_AGE]⟩
  , ⟨.GNSS_TSOL_OFS, 0x0E0C0, 1, 0, 1, 0, 1, 32, true, .core,
      [F.GNSS_TSOL_OFS_OFS]⟩
  , ⟨.GNSS_TSOL_FREQ, 0x0E0C8, 1, 0, 1, 0, 1, 32, true, .core,
      [F.GNSS_TSOL_FREQ_FREQ]⟩
  , ⟨.GNSS_TSOL_UNC, 0x0E0D0, 1, 0, 1, 0, 1, 32, false, .core,
      [F.GNSS_TSOL_UNC_U]⟩
  , ⟨.GNSS_TSOL_INFO, 0x0E0D4, 1, 0, 1, 0, 1, 32, false, .core,
      [F.GNSS_TSOL_INFO_VALID, F.GNSS_TSOL_INFO_DUAL_FREQ, F.GNSS_TSOL_INFO_HOLD, F.GNSS_TSOL_INFO_AGE, F.GNSS_TSOL_INFO_SEQ]⟩
  , ⟨.GNSS_ISB, 0x0E0E0, 5, 4, 1, 0, 1, 32, false, .core,
      [F.GNSS_ISB_ISB]⟩
  , ⟨.GNSS_UTC, 0x0E100, 1, 0, 1, 0, 1, 32, false, .core,
      [F.GNSS_UTC_PEND, F.GNSS_UTC_TAI_UTC_NEXT, F.GNSS_UTC_TAI_UTC]⟩
  , ⟨.GNSS_UTC_DAY, 0x0E104, 1, 0, 1, 0, 1, 32, false, .core,
      [F.GNSS_UTC_DAY_DAY]⟩ ]

/-- Registers of block GNSS, part 3. -/
def mapGNSS3 : List RegDef :=
  [ ⟨.GNSS_FE_IDR, 0x0E108, 2, 4, 1, 0, 1, 32, false, .gnss,
      [F.GNSS_FE_IDR_ID]⟩
  , ⟨.GNSS_STREAM_CTL, 0x0E200, 8, 16, 1, 0, 1, 32, false, .gnss,
      [F.GNSS_STREAM_CTL_SIG_MASK, F.GNSS_STREAM_CTL_SPEC_INV, F.GNSS_STREAM_CTL_IQ_SWAP, F.GNSS_STREAM_CTL_FMT, F.GNSS_STREAM_CTL_RATE, F.GNSS_STREAM_CTL_EN]⟩
  , ⟨.GNSS_STREAM_LO, 0x0E204, 8, 16, 1, 0, 1, 32, false, .gnss,
      [F.GNSS_STREAM_LO_LO]⟩
  , ⟨.GNSS_STREAM_JAM, 0x0E208, 8, 16, 1, 0, 1, 32, false, .gnss,
      [F.GNSS_STREAM_JAM_NOTCH_MODE, F.GNSS_STREAM_JAM_NOTCH_THR, F.GNSS_STREAM_JAM_JAM_THR]⟩
  , ⟨.GNSS_STREAM_STAT, 0x0E20C, 8, 16, 1, 0, 1, 32, false, .gnss,
      [F.GNSS_STREAM_STAT_NOTCHES, F.GNSS_STREAM_STAT_SAT, F.GNSS_STREAM_STAT_SCLK_OK, F.GNSS_STREAM_STAT_JAM, F.GNSS_STREAM_STAT_JN]⟩
  , ⟨.GNSS_NOTCH, 0x0E400, 8, 32, 8, 4, 1, 32, false, .gnss,
      [F.GNSS_NOTCH_ACTIVE, F.GNSS_NOTCH_WIDTH, F.GNSS_NOTCH_FREQ]⟩ ]

/-- Registers of block SDS, part 0. -/
def mapSDS0 : List RegDef :=
  [ ⟨.SDS_GRP_CTL, 0x17000, 8, 64, 1, 0, 1, 32, false, .sds,
      [F.SDS_GRP_CTL_FEC, F.SDS_GRP_CTL_PMD, F.SDS_GRP_CTL_TX_REF, F.SDS_GRP_CTL_OOS, F.SDS_GRP_CTL_RCLK_LANE, F.SDS_GRP_CTL_RCLK_DIV, F.SDS_GRP_CTL_LB_TXON, F.SDS_GRP_CTL_LB, F.SDS_GRP_CTL_MODE, F.SDS_GRP_CTL_EN]⟩
  , ⟨.SDS_GRP_AN, 0x17004, 8, 64, 1, 0, 1, 32, false, .sds,
      [F.SDS_GRP_AN_ASM_DIR, F.SDS_GRP_AN_PAUSE, F.SDS_GRP_AN_BASER_REQ, F.SDS_GRP_AN_RS_REQ, F.SDS_GRP_AN_A_100CR4, F.SDS_GRP_AN_A_100KR4, F.SDS_GRP_AN_A_25G, F.SDS_GRP_AN_A_25GS, F.SDS_GRP_AN_A_10KR]⟩
  , ⟨.SDS_GRP_STAT, 0x17008, 8, 64, 1, 0, 1, 32, false, .sds,
      [F.SDS_GRP_STAT_MOD_PRESENT, F.SDS_GRP_STAT_PENDING_ENABLE, F.SDS_GRP_STAT_TX_REF_ACT, F.SDS_GRP_STAT_RCLK_OK, F.SDS_GRP_STAT_FEC_RES, F.SDS_GRP_STAT_PMD_RES, F.SDS_GRP_STAT_MODE_RES, F.SDS_GRP_STAT_STATE]⟩
  , ⟨.SDS_GRP_QL, 0x1700C, 8, 64, 1, 0, 1, 32, false, .core,
      [F.SDS_GRP_QL_RX_TIMEOUT, F.SDS_GRP_QL_OPT_II, F.SDS_GRP_QL_ENH, F.SDS_GRP_QL_QL_HOLD, F.SDS_GRP_QL_QL_LOCKED, F.SDS_GRP_QL_QL_FIXED, F.SDS_GRP_QL_TX_MODE, F.SDS_GRP_QL_QL_TX, F.SDS_GRP_QL_QL_RX]⟩
  , ⟨.SDS_GRP_CNT, 0x17010, 8, 64, 1, 0, 1, 32, false, .sds,
      [F.SDS_GRP_CNT_QL_CHG, F.SDS_GRP_CNT_RCLK_SQ]⟩
  , ⟨.SDS_LN_CTL, 0x16000, 32, 128, 1, 0, 1, 32, false, .sds,
      [F.SDS_LN_CTL_EYE_THR, F.SDS_LN_CTL_PRBS_TX, F.SDS_LN_CTL_PRBS_RX, F.SDS_LN_CTL_TX_INV, F.SDS_LN_CTL_RX_INV, F.SDS_LN_CTL_ADAPT_HOLD, F.SDS_LN_CTL_READAPT]⟩
  , ⟨.SDS_LN_STAT, 0x16004, 32, 128, 1, 0, 1, 32, false, .sds,
      [F.SDS_LN_STAT_EYE, F.SDS_LN_STAT_FROZEN, F.SDS_LN_STAT_ADAPTING, F.SDS_LN_STAT_CDR_LOCK, F.SDS_LN_STAT_SIG_DET, F.SDS_LN_STAT_BLOCK_LOCK, F.SDS_LN_STAT_PRBS_LOCK, F.SDS_LN_STAT_EYE_LOW, F.SDS_LN_STAT_TRAINED]⟩
  , ⟨.SDS_LN_EQ, 0x16008, 32, 128, 1, 0, 1, 32, false, .sds,
      [F.SDS_LN_EQ_CTLE, F.SDS_LN_EQ_DFE1, F.SDS_LN_EQ_TX_POST, F.SDS_LN_EQ_TX_PRE]⟩
  , ⟨.SDS_LN_CNT, 0x1600C, 32, 128, 1, 0, 1, 32, false, .sds,
      [F.SDS_LN_CNT_READAPTS, F.SDS_LN_CNT_FREEZES]⟩
  , ⟨.SDS_LN_PRBS_ERR, 0x16010, 32, 128, 1, 0, 1, 32, false, .sds,
      [F.SDS_LN_PRBS_ERR_ERRORS]⟩ ]

/-- Registers of block MAC, part 0. -/
def mapMAC0 : List RegDef :=
  [ ⟨.MAC_CTL, 0x10000, 32, 512, 1, 0, 1, 32, false, .core,
      [F.MAC_CTL_MAXF, F.MAC_CTL_WAKE_SEL, F.MAC_CTL_QINQ, F.MAC_CTL_TAG_INS, F.MAC_CTL_TAG_STRIP, F.MAC_CTL_FC_TX_EN, F.MAC_CTL_PFC_EN, F.MAC_CTL_PFC_IGN, F.MAC_CTL_FC_IGN, F.MAC_CTL_DOZE, F.MAC_CTL_EN]⟩
  , ⟨.MAC_ADDR_LO, 0x10004, 32, 512, 1, 0, 1, 32, false, .core,
      [F.MAC_ADDR_LO_ADDR]⟩
  , ⟨.MAC_ADDR_HI, 0x10008, 32, 512, 1, 0, 1, 32, false, .core,
      [F.MAC_ADDR_HI_ADDR]⟩
  , ⟨.MAC_TAG, 0x1000C, 32, 512, 1, 0, 1, 32, false, .core,
      [F.MAC_TAG_S_TCI, F.MAC_TAG_C_TCI]⟩
  , ⟨.MAC_FC, 0x10010, 32, 512, 1, 0, 1, 32, false, .core,
      [F.MAC_FC_XON, F.MAC_FC_XOFF, F.MAC_FC_QUANTA_TX]⟩
  , ⟨.MAC_STAT, 0x10014, 32, 512, 1, 0, 1, 32, false, .core,
      [F.MAC_STAT_RATE, F.MAC_STAT_PENDING_ENABLE, F.MAC_STAT_REMOTE_FAULT, F.MAC_STAT_LOCAL_FAULT, F.MAC_STAT_PAUSED, F.MAC_STAT_PFC_PAUSED, F.MAC_STAT_STATE]⟩
  , ⟨.MAC_FEC_THR, 0x10018, 32, 512, 1, 0, 1, 32, false, .core,
      [F.MAC_FEC_THR_FEC_THR]⟩
  , ⟨.MAC_CNT_ACK, 0x1001C, 32, 512, 1, 0, 1, 32, false, .core,
      [F.MAC_CNT_ACK_ACK]⟩
  , ⟨.MAC_CNT_RX_FRAMES, 0x10020, 32, 512, 1, 0, 1, 32, true, .core,
      [F.MAC_CNT_RX_FRAMES_RX_FRAMES]⟩
  , ⟨.MAC_CNT_TX_FRAMES, 0x10028, 32, 512, 1, 0, 1, 32, true, .core,
      [F.MAC_CNT_TX_FRAMES_TX_FRAMES]⟩
  , ⟨.MAC_CNT_RX_ERR, 0x10030, 32, 512, 1, 0, 1, 32, false, .core,
      [F.MAC_CNT_RX_ERR_RX_ERR]⟩
  , ⟨.MAC_CNT_PAUSE_RX, 0x10034, 32, 512, 1, 0, 1, 32, false, .core,
      [F.MAC_CNT_PAUSE_RX_PAUSE_RX]⟩ ]

/-- Registers of block MAC, part 1. -/
def mapMAC1 : List RegDef :=
  [ ⟨.MAC_CNT_PAUSE_IGN, 0x10038, 32, 512, 1, 0, 1, 32, false, .core,
      [F.MAC_CNT_PAUSE_IGN_PAUSE_IGN]⟩
  , ⟨.MAC_CNT_DROP, 0x1003C, 32, 512, 1, 0, 1, 32, false, .core,
      [F.MAC_CNT_DROP_DROP]⟩
  , ⟨.MAC_CNT_FEC_CORR, 0x10040, 32, 512, 1, 0, 1, 32, false, .core,
      [F.MAC_CNT_FEC_CORR_FEC_CORR]⟩
  , ⟨.MAC_CNT_FEC_UNCORR, 0x10044, 32, 512, 1, 0, 1, 32, false, .core,
      [F.MAC_CNT_FEC_UNCORR_FEC_UNCORR]⟩
  , ⟨.MAC_CNT_LINK_DOWN, 0x10048, 32, 512, 1, 0, 1, 32, false, .core,
      [F.MAC_CNT_LINK_DOWN_LINK_DOWN]⟩
  , ⟨.MAC_CNT_RSVD, 0x1004C, 32, 512, 1, 0, 1, 32, false, .core,
      []⟩ ]

/-- Registers of block PM, part 0. -/
def mapPM0 : List RegDef :=
  [ ⟨.PM_CTL, 0x14800, 8, 32, 1, 0, 1, 32, false, .core,
      [F.PM_CTL_LQ_PM, F.PM_CTL_TX_HOST, F.PM_CTL_RX_SEL, F.PM_CTL_EN]⟩
  , ⟨.PM_RING_WR, 0x14804, 8, 32, 1, 0, 1, 32, false, .core,
      [F.PM_RING_WR_PTR]⟩
  , ⟨.PM_RING_RD, 0x14808, 8, 32, 1, 0, 1, 32, false, .core,
      [F.PM_RING_RD_PTR]⟩
  , ⟨.PM_LOST, 0x1480C, 8, 32, 1, 0, 1, 32, false, .core,
      [F.PM_LOST_LOST]⟩
  , ⟨.PM_STAT, 0x14810, 8, 32, 1, 0, 1, 32, false, .core,
      [F.PM_STAT_CORR_GEN, F.PM_STAT_FULL]⟩
  , ⟨.PM_RX_OFS, 0x14900, 32, 8, 1, 0, 1, 32, false, .core,
      [F.PM_RX_OFS_OFS]⟩
  , ⟨.PM_TX_OFS, 0x14904, 32, 8, 1, 0, 1, 32, false, .core,
      [F.PM_TX_OFS_OFS]⟩
  , ⟨.PM_LN_RXSKEW, 0x14A00, 32, 16, 1, 0, 1, 32, false, .core,
      [F.PM_LN_RXSKEW_VALUE]⟩
  , ⟨.PM_LN_TXSKEW, 0x14A04, 32, 16, 1, 0, 1, 32, false, .core,
      [F.PM_LN_TXSKEW_VALUE]⟩
  , ⟨.PM_LN_RXLAT, 0x14A08, 32, 16, 1, 0, 1, 32, false, .core,
      [F.PM_LN_RXLAT_VALUE]⟩
  , ⟨.PM_LN_TXLAT, 0x14A0C, 32, 16, 1, 0, 1, 32, false, .core,
      [F.PM_LN_TXLAT_VALUE]⟩
  , ⟨.LQ_CTL, 0x14C00, 8, 32, 1, 0, 1, 32, false, .core,
      [F.LQ_CTL_LATE_MAX, F.LQ_CTL_EN]⟩ ]

/-- Registers of block PM, part 1. -/
def mapPM1 : List RegDef :=
  [ ⟨.LQ_STAT, 0x14C04, 8, 32, 1, 0, 1, 32, false, .core,
      [F.LQ_STAT_NEXT_VALID, F.LQ_STAT_NEXT, F.LQ_STAT_PENDING_ENABLE, F.LQ_STAT_STATE, F.LQ_STAT_ARMED]⟩
  , ⟨.LQ_SENT, 0x14C08, 8, 32, 1, 0, 1, 32, false, .core,
      [F.LQ_SENT_COUNT]⟩
  , ⟨.LQ_LATE, 0x14C0C, 8, 32, 1, 0, 1, 32, false, .core,
      [F.LQ_LATE_COUNT]⟩
  , ⟨.LQ_DROP, 0x14C10, 8, 32, 1, 0, 1, 32, false, .core,
      [F.LQ_DROP_COUNT]⟩ ]

/-- Registers of block PTE, part 0. -/
def mapPTE0 : List RegDef :=
  [ ⟨.PTE_CTL, 0x14000, 1, 0, 1, 0, 1, 32, false, .core,
      [F.PTE_CTL_UNK_ANSWER, F.PTE_CTL_EAVES_ANN, F.PTE_CTL_EAVES_EVT, F.PTE_CTL_EN]⟩
  , ⟨.PTE_STAT, 0x14004, 1, 0, 1, 0, 1, 32, false, .core,
      [F.PTE_STAT_SESS_USED, F.PTE_STAT_PENDING_ENABLE, F.PTE_STAT_RUNNING]⟩
  , ⟨.PTE_CLKID, 0x14008, 1, 0, 1, 0, 1, 32, true, .core,
      [F.PTE_CLKID_CLKID]⟩
  , ⟨.PTE_ORG, 0x14010, 1, 0, 1, 0, 1, 32, false, .core,
      [F.PTE_ORG_ORG_ID]⟩
  , ⟨.PTE_NEG, 0x14014, 1, 0, 1, 0, 1, 32, false, .core,
      [F.PTE_NEG_MAX_DUR, F.PTE_NEG_MIN_DUR]⟩
  , ⟨.PTE_I_CTL, 0x14040, 2, 32, 1, 0, 1, 32, false, .core,
      [F.PTE_I_CTL_MINOR_SDO, F.PTE_I_CTL_MAJOR_SDO, F.PTE_I_CTL_AUTH_REQ, F.PTE_I_CTL_ANN_STOP, F.PTE_I_CTL_ACC_DERIVE, F.PTE_I_CTL_PROFILE, F.PTE_I_CTL_EN]⟩
  , ⟨.PTE_I_DS, 0x14044, 2, 32, 1, 0, 1, 32, false, .core,
      [F.PTE_I_DS_PRIORITY2, F.PTE_I_DS_PRIORITY1, F.PTE_I_DS_DOMAIN_NUM]⟩
  , ⟨.PTE_I_CC, 0x14048, 2, 32, 1, 0, 1, 32, false, .core,
      [F.PTE_I_CC_CC_LOST, F.PTE_I_CC_CC_LOST_F, F.PTE_I_CC_CC_HOLD, F.PTE_I_CC_CC_LOCKED]⟩
  , ⟨.PTE_I_CC2, 0x1404C, 2, 32, 1, 0, 1, 32, false, .core,
      [F.PTE_I_CC2_QL_F, F.PTE_I_CC2_ACC_LOCKED, F.PTE_I_CC2_CC_FREE]⟩
  , ⟨.PTE_I_QUAL, 0x14050, 2, 32, 1, 0, 1, 32, false, .core,
      [F.PTE_I_QUAL_OSLV_OTHER, F.PTE_I_QUAL_OSLV_LOCKED]⟩
  , ⟨.PTE_I_UTC, 0x14054, 2, 32, 1, 0, 1, 32, false, .core,
      [F.PTE_I_UTC_LEAP_WIN, F.PTE_I_UTC_SRC, F.PTE_I_UTC_HOST_PEND, F.PTE_I_UTC_HOST_NEXT, F.PTE_I_UTC_HOST_OFS]⟩
  , ⟨.PTE_I_UTCDAY, 0x14058, 2, 32, 1, 0, 1, 32, false, .core,
      [F.PTE_I_UTCDAY_GM_TB, F.PTE_I_UTCDAY_HOST_DAY]⟩ ]

/-- Registers of block PTE, part 1. -/
def mapPTE1 : List RegDef :=
  [ ⟨.PTE_I_STAT, 0x1405C, 2, 32, 1, 0, 1, 32, false, .core,
      [F.PTE_I_STAT_CLASS, F.PTE_I_STAT_ACCURACY, F.PTE_I_STAT_TIME_SOURCE, F.PTE_I_STAT_WITHHELD, F.PTE_I_STAT_TIME_TR, F.PTE_I_STAT_FREQ_TR, F.PTE_I_STAT_UTC_VALID, F.PTE_I_STAT_LEAP61, F.PTE_I_STAT_LEAP59, F.PTE_I_STAT_PENDING_ENABLE, F.PTE_I_STAT_RUNNING]⟩
  , ⟨.PTE_PORT_CTL, 0x14100, 32, 16, 1, 0, 1, 32, false, .core,
      [F.PTE_PORT_CTL_MCAST, F.PTE_PORT_CTL_TRANSPORT, F.PTE_PORT_CTL_MSA, F.PTE_PORT_CTL_ROLE1, F.PTE_PORT_CTL_ROLE0, F.PTE_PORT_CTL_ONE_STEP1, F.PTE_PORT_CTL_ONE_STEP0, F.PTE_PORT_CTL_HYBRID, F.PTE_PORT_CTL_FOREIGN_ACT]⟩
  , ⟨.PTE_PORT_RATE, 0x14104, 32, 16, 1, 0, 1, 32, false, .core,
      [F.PTE_PORT_RATE_ANN1, F.PTE_PORT_RATE_SYNC1, F.PTE_PORT_RATE_DRESP1, F.PTE_PORT_RATE_ANN0, F.PTE_PORT_RATE_SYNC0, F.PTE_PORT_RATE_DRESP0, F.PTE_PORT_RATE_PDLY]⟩
  , ⟨.PTE_PORT_STAT, 0x14108, 32, 16, 1, 0, 1, 32, false, .core,
      [F.PTE_PORT_STAT_FOREIGN, F.PTE_PORT_STAT_STATE1, F.PTE_PORT_STAT_STATE0, F.PTE_PORT_STAT_AS_CAPABLE]⟩
  , ⟨.PTE_PORT_PDLY, 0x1410C, 32, 16, 1, 0, 1, 32, false, .core,
      [F.PTE_PORT_PDLY_PDLY]⟩
  , ⟨.PTE_CLI_CTL, 0x14300, 4, 32, 1, 0, 1, 32, false, .core,
      [F.PTE_CLI_CTL_SESS, F.PTE_CLI_CTL_DOMAIN_NUM, F.PTE_CLI_CTL_AUTH_REQ, F.PTE_CLI_CTL_NEG, F.PTE_CLI_CTL_PROTO, F.PTE_CLI_CTL_EN]⟩
  , ⟨.PTE_CLI_RATE, 0x14304, 4, 32, 1, 0, 1, 32, false, .core,
      [F.PTE_CLI_RATE_CLASS_MAX, F.PTE_CLI_RATE_ANN, F.PTE_CLI_RATE_SYNC, F.PTE_CLI_RATE_DREQ, F.PTE_CLI_RATE_DUR]⟩
  , ⟨.PTE_CLI_FILT, 0x14308, 4, 32, 1, 0, 1, 32, false, .core,
      [F.PTE_CLI_FILT_MIN_EXCH, F.PTE_CLI_FILT_DLY_WIN, F.PTE_CLI_FILT_WIN]⟩
  , ⟨.PTE_CLI_ASYM, 0x1430C, 4, 32, 1, 0, 1, 32, false, .core,
      [F.PTE_CLI_ASYM_VALUE]⟩
  , ⟨.PTE_CLI_UNC, 0x14310, 4, 32, 1, 0, 1, 32, false, .core,
      [F.PTE_CLI_UNC_VALUE]⟩
  , ⟨.PTE_CLI_STAT, 0x14314, 4, 32, 1, 0, 1, 32, false, .core,
      [F.PTE_CLI_STAT_UP_CLASS, F.PTE_CLI_STAT_UP_ACC, F.PTE_CLI_STAT_SELECTED, F.PTE_CLI_STAT_EAVES_UP, F.PTE_CLI_STAT_AUTH_OK, F.PTE_CLI_STAT_STATE]⟩
  , ⟨.PTE_CLI_OFS, 0x14318, 4, 32, 1, 0, 1, 32, true, .core,
      [F.PTE_CLI_OFS_OFS]⟩ ]

/-- Registers of block PTE, part 2. -/
def mapPTE2 : List RegDef :=
  [ ⟨.PTE_CNT_TX, 0x14400, 32, 16, 1, 0, 1, 32, false, .core,
      [F.PTE_CNT_TX_COUNT]⟩
  , ⟨.PTE_CNT_RX, 0x14404, 32, 16, 1, 0, 1, 32, false, .core,
      [F.PTE_CNT_RX_COUNT]⟩
  , ⟨.PTE_CNT_REFUSED, 0x14408, 32, 16, 1, 0, 1, 32, false, .core,
      [F.PTE_CNT_REFUSED_COUNT]⟩
  , ⟨.PTE_CNT_AUTH, 0x1440C, 32, 16, 1, 0, 1, 32, false, .core,
      [F.PTE_CNT_AUTH_COUNT]⟩ ]

/-- Registers of block FRANK, part 0. -/
def mapFRANK0 : List RegDef :=
  [ ⟨.FRANK_CTL, 0x15000, 1, 0, 1, 0, 1, 32, false, .core,
      [F.FRANK_CTL_EN]⟩
  , ⟨.FRANK_STAT, 0x15004, 1, 0, 1, 0, 1, 32, false, .core,
      [F.FRANK_STAT_PIPE_ACT, F.FRANK_STAT_KAT_FAIL, F.FRANK_STAT_DRBG_OK, F.FRANK_STAT_PENDING_ENABLE, F.FRANK_STAT_RUNNING]⟩
  , ⟨.FRANK_PIPE_OOS, 0x15008, 1, 0, 1, 0, 1, 32, false, .core,
      [F.FRANK_PIPE_OOS_KAT, F.FRANK_PIPE_OOS_OOS]⟩
  , ⟨.FRANK_LOAD, 0x1500C, 1, 0, 1, 0, 1, 32, false, .core,
      [F.FRANK_LOAD_LOAD, F.FRANK_LOAD_PEAK]⟩
  , ⟨.FRANK_ADM, 0x15010, 1, 0, 1, 0, 1, 32, false, .core,
      [F.FRANK_ADM_MARGIN]⟩
  , ⟨.FRANK_NTP_CTL, 0x15014, 1, 0, 1, 0, 1, 32, false, .core,
      [F.FRANK_NTP_CTL_PRECISION, F.FRANK_NTP_CTL_WH_ANS, F.FRANK_NTP_CTL_UTC_INST, F.FRANK_NTP_CTL_HOST_OTHER, F.FRANK_NTP_CTL_EN]⟩
  , ⟨.FRANK_NTP_STRAT, 0x15018, 1, 0, 1, 0, 1, 32, false, .core,
      [F.FRANK_NTP_STRAT_STRAT_LOST, F.FRANK_NTP_STRAT_STRAT_HOLD, F.FRANK_NTP_STRAT_STRAT_LOCKED]⟩
  , ⟨.FRANK_NTP_ROOTDLY, 0x1501C, 1, 0, 1, 0, 1, 32, false, .core,
      [F.FRANK_NTP_ROOTDLY_ROOT_DELAY]⟩
  , ⟨.FRANK_NTP_REFID, 0x15020, 5, 4, 1, 0, 1, 32, false, .core,
      [F.FRANK_NTP_REFID_REFID]⟩
  , ⟨.FRANK_NTP_PORTS, 0x15034, 1, 0, 1, 0, 1, 32, false, .core,
      [F.FRANK_NTP_PORTS_PORTS]⟩
  , ⟨.FRANK_NTS_PORTS, 0x15038, 1, 0, 1, 0, 1, 32, false, .core,
      [F.FRANK_NTS_PORTS_PORTS]⟩
  , ⟨.FRANK_NTS_CTL, 0x1503C, 1, 0, 1, 0, 1, 32, false, .core,
      [F.FRANK_NTS_CTL_MAX_COOKIES, F.FRANK_NTS_CTL_NAK_EN, F.FRANK_NTS_CTL_EN]⟩ ]

/-- Registers of block FRANK, part 1. -/
def mapFRANK1 : List RegDef :=
  [ ⟨.FRANK_NTS_MKEY_CTL, 0x15040, 3, 8, 1, 0, 1, 32, false, .core,
      [F.FRANK_NTS_MKEY_CTL_VALID, F.FRANK_NTS_MKEY_CTL_ORPHAN, F.FRANK_NTS_MKEY_CTL_SLATE]⟩
  , ⟨.FRANK_NTS_MKEY_ID, 0x15044, 3, 8, 1, 0, 1, 32, false, .core,
      [F.FRANK_NTS_MKEY_ID_KEYID]⟩
  , ⟨.FRANK_CNT_LATE, 0x15060, 1, 0, 1, 0, 1, 32, false, .core,
      [F.FRANK_CNT_LATE_COUNT]⟩
  , ⟨.FRANK_CNT_DISC, 0x15064, 1, 0, 1, 0, 1, 32, false, .core,
      [F.FRANK_CNT_DISC_COUNT]⟩
  , ⟨.FRANK_CNT_NTP, 0x15100, 32, 16, 1, 0, 1, 32, false, .core,
      [F.FRANK_CNT_NTP_COUNT]⟩
  , ⟨.FRANK_CNT_NTS, 0x15104, 32, 16, 1, 0, 1, 32, false, .core,
      [F.FRANK_CNT_NTS_COUNT]⟩
  , ⟨.FRANK_CNT_NAK, 0x15108, 32, 16, 1, 0, 1, 32, false, .core,
      [F.FRANK_CNT_NAK_COUNT]⟩
  , ⟨.FRANK_CNT_REF, 0x1510C, 32, 16, 1, 0, 1, 32, false, .core,
      [F.FRANK_CNT_REF_COUNT]⟩ ]

/-- Registers of block SLATE, part 0. -/
def mapSLATE0 : List RegDef :=
  [ ⟨.SLATE_ATTR, 0x02400, 256, 4, 1, 0, 1, 32, false, .vbat,
      [F.SLATE_ATTR_VALID, F.SLATE_ATTR_PERSISTENT, F.SLATE_ATTR_NO_EXPORT, F.SLATE_ATTR_ORPHAN, F.SLATE_ATTR_ORIGIN, F.SLATE_ATTR_USAGE, F.SLATE_ATTR_KLEN, F.SLATE_ATTR_COMMIT, F.SLATE_ATTR_PARENT, F.SLATE_ATTR_GEN]⟩
  , ⟨.SLATE_STAT, 0x02000, 1, 0, 1, 0, 1, 32, false, .core,
      [F.SLATE_STAT_REMASK_SEQ, F.SLATE_STAT_VALID_CNT, F.SLATE_STAT_PENDING, F.SLATE_STAT_VHASH_OK, F.SLATE_STAT_ROOT_OK]⟩
  , ⟨.SLATE_LOCK, 0x02004, 1, 0, 1, 0, 1, 32, false, .core,
      [F.SLATE_LOCK_PERS_LOCK]⟩
  , ⟨.SLATE_LOAD_LOCK, 0x02010, 1, 0, 1, 0, 1, 32, false, .core,
      [F.SLATE_LOAD_LOCK_LOAD_LOCK]⟩
  , ⟨.SLATE_REMASK, 0x02008, 1, 0, 1, 0, 1, 32, false, .core,
      [F.SLATE_REMASK_SKIPPED, F.SLATE_REMASK_LAST]⟩
  , ⟨.SLATE_SEC, 0x0200C, 1, 0, 1, 0, 1, 32, false, .core,
      [F.SLATE_SEC_SEC_CNT, F.SLATE_SEC_LAST_OFS]⟩
  , ⟨.SLATE_PEND, 0x02020, 8, 4, 1, 0, 1, 32, false, .core,
      [F.SLATE_PEND_PEND]⟩
  , ⟨.SLATE_VHASH, 0x02080, 12, 4, 1, 0, 1, 32, false, .core,
      [F.SLATE_VHASH_HASH]⟩
  , ⟨.SLATE_TAMP_CFG, 0x02100, 1, 0, 1, 0, 1, 32, false, .vbat,
      [F.SLATE_TAMP_CFG_DEBOUNCE, F.SLATE_TAMP_CFG_ERASE_HINT, F.SLATE_TAMP_CFG_EN1, F.SLATE_TAMP_CFG_EN0]⟩
  , ⟨.SLATE_TAMP_STAT, 0x02104, 1, 0, 1, 0, 1, 32, false, .vbat,
      [F.SLATE_TAMP_STAT_VBAT_LOST, F.SLATE_TAMP_STAT_ERASED, F.SLATE_TAMP_STAT_T1, F.SLATE_TAMP_STAT_T0]⟩
  , ⟨.SLATE_TAMP_TIME, 0x02108, 1, 0, 1, 0, 1, 32, false, .vbat,
      [F.SLATE_TAMP_TIME_SEC]⟩
  , ⟨.SLATE_TAMP_ACK, 0x0210C, 1, 0, 1, 0, 1, 32, false, .vbat,
      [F.SLATE_TAMP_ACK_ACK]⟩ ]

/-- Registers of block HOST, part 0. -/
def mapHOST0 : List RegDef :=
  [ ⟨.HOST_CTL, 0x18000, 1, 0, 1, 0, 1, 32, false, .host,
      [F.HOST_CTL_EVT_EN, F.HOST_CTL_EN]⟩
  , ⟨.HOST_STAT, 0x18004, 1, 0, 1, 0, 1, 32, false, .host,
      [F.HOST_STAT_INFLIGHT, F.HOST_STAT_CMD_ERR, F.HOST_STAT_CPL_HELD, F.HOST_STAT_PENDING_ENABLE, F.HOST_STAT_D3HOT, F.HOST_STAT_LINK_PM, F.HOST_STAT_WIDTH, F.HOST_STAT_SPEED]⟩
  , ⟨.HOST_CMD_BASE, 0x18008, 1, 0, 1, 0, 1, 32, true, .host,
      [F.HOST_CMD_BASE_BASE]⟩
  , ⟨.HOST_CPL_BASE, 0x18010, 1, 0, 1, 0, 1, 32, true, .host,
      [F.HOST_CPL_BASE_BASE]⟩
  , ⟨.HOST_EVT_BASE, 0x18018, 1, 0, 1, 0, 1, 32, true, .host,
      [F.HOST_EVT_BASE_BASE]⟩
  , ⟨.HOST_RING_SIZE, 0x18020, 1, 0, 1, 0, 1, 32, false, .host,
      [F.HOST_RING_SIZE_EVT, F.HOST_RING_SIZE_CPL, F.HOST_RING_SIZE_CMD]⟩
  , ⟨.HOST_CMD_TAIL, 0x18024, 1, 0, 1, 0, 1, 32, false, .host,
      [F.HOST_CMD_TAIL_PTR]⟩
  , ⟨.HOST_CMD_HEAD, 0x18028, 1, 0, 1, 0, 1, 32, false, .host,
      [F.HOST_CMD_HEAD_PTR]⟩
  , ⟨.HOST_CPL_HEAD, 0x1802C, 1, 0, 1, 0, 1, 32, false, .host,
      [F.HOST_CPL_HEAD_PTR]⟩
  , ⟨.HOST_CPL_TAIL, 0x18030, 1, 0, 1, 0, 1, 32, false, .host,
      [F.HOST_CPL_TAIL_PTR]⟩
  , ⟨.HOST_EVT_HEAD, 0x18034, 1, 0, 1, 0, 1, 32, false, .host,
      [F.HOST_EVT_HEAD_PTR]⟩
  , ⟨.HOST_EVT_TAIL, 0x18038, 1, 0, 1, 0, 1, 32, false, .host,
      [F.HOST_EVT_TAIL_PTR]⟩ ]

/-- Registers of block HOST, part 1. -/
def mapHOST1 : List RegDef :=
  [ ⟨.HOST_IRQ_MOD, 0x1803C, 1, 0, 1, 0, 1, 32, false, .host,
      [F.HOST_IRQ_MOD_CPL_CNT, F.HOST_IRQ_MOD_CPL_TIME]⟩
  , ⟨.HOST_TMO, 0x18040, 1, 0, 1, 0, 1, 32, false, .host,
      [F.HOST_TMO_TMO]⟩
  , ⟨.HOST_EVT_LOST, 0x18044, 1, 0, 1, 0, 1, 32, false, .host,
      [F.HOST_EVT_LOST_COUNT]⟩
  , ⟨.HOST_CNT_CMD, 0x18048, 1, 0, 1, 0, 1, 32, false, .host,
      [F.HOST_CNT_CMD_COUNT]⟩
  , ⟨.HOST_CNT_DISC, 0x1804C, 1, 0, 1, 0, 1, 32, false, .host,
      [F.HOST_CNT_DISC_COUNT]⟩
  , ⟨.HOST_TXR_BASE, 0x18100, 8, 64, 1, 0, 1, 32, true, .host,
      [F.HOST_TXR_BASE_BASE]⟩
  , ⟨.HOST_RXR_BASE, 0x18108, 8, 64, 1, 0, 1, 32, true, .host,
      [F.HOST_RXR_BASE_BASE]⟩
  , ⟨.HOST_FR_CTL, 0x18110, 8, 64, 1, 0, 1, 32, false, .host,
      [F.HOST_FR_CTL_RX_SIZE, F.HOST_FR_CTL_TX_SIZE, F.HOST_FR_CTL_RX_EN, F.HOST_FR_CTL_TX_EN]⟩
  , ⟨.HOST_TXR_TAIL, 0x18114, 8, 64, 1, 0, 1, 32, false, .host,
      [F.HOST_TXR_TAIL_PTR]⟩
  , ⟨.HOST_TXR_HEAD, 0x18118, 8, 64, 1, 0, 1, 32, false, .host,
      [F.HOST_TXR_HEAD_PTR]⟩
  , ⟨.HOST_RXR_TAIL, 0x1811C, 8, 64, 1, 0, 1, 32, false, .host,
      [F.HOST_RXR_TAIL_PTR]⟩
  , ⟨.HOST_RXR_HEAD, 0x18120, 8, 64, 1, 0, 1, 32, false, .host,
      [F.HOST_RXR_HEAD_PTR]⟩ ]

/-- Registers of block HOST, part 2. -/
def mapHOST2 : List RegDef :=
  [ ⟨.HOST_RXR_DROP, 0x18124, 8, 64, 1, 0, 1, 32, false, .host,
      [F.HOST_RXR_DROP_COUNT]⟩
  , ⟨.HOST_MBX_CMD, 0x18800, 16, 4, 1, 0, 1, 32, false, .host,
      [F.HOST_MBX_CMD_WORD]⟩
  , ⟨.HOST_MBX_CPL, 0x18850, 4, 4, 1, 0, 1, 32, false, .host,
      [F.HOST_MBX_CPL_WORD]⟩
  , ⟨.HOST_MBX_CTL, 0x18840, 1, 0, 1, 0, 1, 32, false, .host,
      [F.HOST_MBX_CTL_DONE, F.HOST_MBX_CTL_BUSY, F.HOST_MBX_CTL_INT_EN, F.HOST_MBX_CTL_GO]⟩ ]

/-- Registers of block NOR, part 0. -/
def mapNOR0 : List RegDef :=
  [ ⟨.NOR_CTL, 0x00800, 1, 0, 1, 0, 1, 32, false, .core,
      [F.NOR_CTL_TS_AVG, F.NOR_CTL_TS_PER, F.NOR_CTL_N1_EN, F.NOR_CTL_N2_EN, F.NOR_CTL_ROOT, F.NOR_CTL_EN]⟩
  , ⟨.NOR_STAT, 0x00804, 1, 0, 1, 0, 1, 32, false, .core,
      [F.NOR_STAT_PENDING_ENABLE, F.NOR_STAT_TREE_VALID, F.NOR_STAT_NUMBERED, F.NOR_STAT_LEVEL, F.NOR_STAT_DN]⟩
  , ⟨.NOR_IDLE, 0x00808, 1, 0, 1, 0, 1, 32, false, .core,
      [F.NOR_IDLE_IDLE_N1, F.NOR_IDLE_IDLE_N2]⟩
  , ⟨.NOR_BIND_CLR, 0x0080C, 1, 0, 1, 0, 1, 32, false, .core,
      [F.NOR_BIND_CLR_CLR]⟩
  , ⟨.NOR_TREE_OFS, 0x00810, 1, 0, 1, 0, 1, 32, true, .core,
      [F.NOR_TREE_OFS_VALUE]⟩
  , ⟨.NOR_TREE_FREQ, 0x00818, 1, 0, 1, 0, 1, 32, true, .core,
      [F.NOR_TREE_FREQ_VALUE]⟩
  , ⟨.NOR_PRESENT, 0x00828, 1, 0, 1, 0, 1, 32, true, .core,
      [F.NOR_PRESENT_MASK]⟩
  , ⟨.NOR_ROUTE, 0x00830, 4, 8, 1, 0, 1, 32, true, .core,
      [F.NOR_ROUTE_MASK]⟩
  , ⟨.NOR_PORT_CTL, 0x00900, 6, 32, 1, 0, 1, 32, false, .core,
      [F.NOR_PORT_CTL_MAX_RATE, F.NOR_PORT_CTL_EN]⟩
  , ⟨.NOR_PORT_STAT, 0x00904, 6, 32, 1, 0, 1, 32, false, .core,
      [F.NOR_PORT_STAT_EXCESS, F.NOR_PORT_STAT_PARTNER_MEMBER, F.NOR_PORT_STAT_PARTNER_DN, F.NOR_PORT_STAT_PENDING_ENABLE, F.NOR_PORT_STAT_RX_N1, F.NOR_PORT_STAT_TX_N1, F.NOR_PORT_STAT_N2_AGREED, F.NOR_PORT_STAT_RATE, F.NOR_PORT_STAT_STATE]⟩
  , ⟨.NOR_PORT_ASYM, 0x00908, 6, 32, 1, 0, 1, 32, false, .core,
      [F.NOR_PORT_ASYM_VALUE]⟩
  , ⟨.NOR_PORT_DLY, 0x0090C, 6, 32, 1, 0, 1, 32, false, .core,
      [F.NOR_PORT_DLY_VALUE]⟩ ]

/-- Registers of block NOR, part 1. -/
def mapNOR1 : List RegDef :=
  [ ⟨.NOR_PORT_OFS, 0x00910, 6, 32, 1, 0, 1, 32, true, .core,
      [F.NOR_PORT_OFS_OFS]⟩
  , ⟨.NOR_PORT_CNT, 0x00918, 6, 32, 1, 0, 1, 32, false, .core,
      [F.NOR_PORT_CNT_DOWNS, F.NOR_PORT_CNT_REPLAYS]⟩
  , ⟨.NOR_PORT_CNT2, 0x0091C, 6, 32, 1, 0, 1, 32, false, .core,
      [F.NOR_PORT_CNT2_DROPPED, F.NOR_PORT_CNT2_CODE_ERR]⟩ ]

/-- Registers of block PAIR, part 0. -/
def mapPAIR0 : List RegDef :=
  [ ⟨.PAIR_CTL, 0x19000, 1, 0, 1, 0, 1, 32, false, .core,
      [F.PAIR_CTL_WTR, F.PAIR_CTL_SLATE, F.PAIR_CTL_SYNC_ALIGN, F.PAIR_CTL_REVERT, F.PAIR_CTL_PREF_MEMBER, F.PAIR_CTL_MEMBER, F.PAIR_CTL_EN]⟩
  , ⟨.PAIR_STAT, 0x19004, 1, 0, 1, 0, 1, 32, false, .core,
      [F.PAIR_STAT_WTR_LEFT, F.PAIR_STAT_PENDING_ENABLE, F.PAIR_STAT_PARTNER_PRESENT, F.PAIR_STAT_PARTNER_READY, F.PAIR_STAT_PARTNER_HOLDER, F.PAIR_STAT_TOKEN_IN, F.PAIR_STAT_CFG_MATCH, F.PAIR_STAT_READY, F.PAIR_STAT_HOLDER, F.PAIR_STAT_PARTNER_STATE, F.PAIR_STAT_STATE]⟩
  , ⟨.PAIR_LEASE, 0x19008, 1, 0, 1, 0, 1, 32, false, .core,
      [F.PAIR_LEASE_PARTNER_LEFT, F.PAIR_LEASE_OWN_LEFT]⟩
  , ⟨.PAIR_EPOCH, 0x1900C, 1, 0, 1, 0, 1, 32, false, .core,
      [F.PAIR_EPOCH_PARTNER_EPOCH, F.PAIR_EPOCH_EPOCH]⟩
  , ⟨.PAIR_DIGEST, 0x19010, 1, 0, 1, 0, 1, 32, false, .core,
      [F.PAIR_DIGEST_DIGEST]⟩
  , ⟨.PAIR_PDIGEST, 0x19014, 1, 0, 1, 0, 1, 32, false, .core,
      [F.PAIR_PDIGEST_DIGEST]⟩
  , ⟨.PAIR_PAD, 0x19018, 1, 0, 1, 0, 1, 32, false, .core,
      [F.PAIR_PAD_TAKE_BEATS, F.PAIR_PAD_TAKE_PAD]⟩
  , ⟨.PAIR_OFS, 0x19020, 1, 0, 1, 0, 1, 32, true, .core,
      [F.PAIR_OFS_OFS]⟩
  , ⟨.PAIR_MIR, 0x19028, 1, 0, 1, 0, 1, 32, false, .core,
      [F.PAIR_MIR_AGE, F.PAIR_MIR_FRAMES]⟩
  , ⟨.PAIR_CNT, 0x1902C, 1, 0, 1, 0, 1, 32, false, .core,
      [F.PAIR_CNT_TAKEOVERS, F.PAIR_CNT_HANDOVERS, F.PAIR_CNT_DOUBLES, F.PAIR_CNT_SYNC_LOSS]⟩
  , ⟨.PAIR_CNT2, 0x19030, 1, 0, 1, 0, 1, 32, false, .core,
      [F.PAIR_CNT2_AUTH_FAIL, F.PAIR_CNT2_MISSED]⟩ ]

/-- Registers of block FCU, part 0. -/
def mapFCU0 : List RegDef :=
  [ ⟨.FCU_CTL, 0x01000, 1, 0, 1, 0, 1, 32, false, .core,
      [F.FCU_CTL_ESC_THR, F.FCU_CTL_FAULT_MIN, F.FCU_CTL_INT_MIN, F.FCU_CTL_INT_EN, F.FCU_CTL_FORCE_S3, F.FCU_CTL_ACK_ALL]⟩
  , ⟨.FCU_STAT, 0x01004, 1, 0, 1, 0, 1, 32, false, .core,
      [F.FCU_STAT_LAST_SRC, F.FCU_STAT_REC_USED, F.FCU_STAT_MAX_LIVE, F.FCU_STAT_MAX_PEND, F.FCU_STAT_FAULT, F.FCU_STAT_INT, F.FCU_STAT_SAFE]⟩
  , ⟨.FCU_SEQ, 0x01008, 1, 0, 1, 0, 1, 32, false, .core,
      [F.FCU_SEQ_SEQ]⟩
  , ⟨.FCU_ACK, 0x0100C, 1, 0, 1, 0, 1, 32, false, .core,
      [F.FCU_ACK_SEQ]⟩
  , ⟨.FCU_LOCK, 0x01010, 1, 0, 1, 0, 1, 32, false, .core,
      [F.FCU_LOCK_CFG_LOCK]⟩
  , ⟨.FCU_OVF, 0x01014, 1, 0, 1, 0, 1, 32, false, .core,
      [F.FCU_OVF_NOREC, F.FCU_OVF_ESC]⟩
  , ⟨.FCU_FORCE_SNAP, 0x01018, 1, 0, 1, 0, 1, 32, false, .core,
      [F.FCU_FORCE_SNAP_SNAP]⟩
  , ⟨.FCU_SELF, 0x0101C, 1, 0, 1, 0, 1, 32, false, .core,
      [F.FCU_SELF_VALID, F.FCU_SELF_SRC]⟩
  , ⟨.FCU_SAFE_SEQ, 0x01020, 1, 0, 1, 0, 1, 32, false, .core,
      [F.FCU_SAFE_SEQ_SEQ]⟩
  , ⟨.FCU_LIVE, 0x01040, 13, 4, 1, 0, 32, 1, false, .core,
      [F.FCU_LIVE_BIT]⟩
  , ⟨.FCU_PEND, 0x01080, 13, 4, 1, 0, 32, 1, false, .core,
      [F.FCU_PEND_BIT]⟩
  , ⟨.FCU_FORCE, 0x010C0, 13, 4, 1, 0, 1, 32, false, .core,
      [F.FCU_FORCE_BITS]⟩ ]

/-- Registers of block FCU, part 1. -/
def mapFCU1 : List RegDef :=
  [ ⟨.FCU_CFG, 0x01100, 100, 4, 1, 0, 4, 8, false, .core,
      [F.FCU_CFG_ESC, F.FCU_CFG_WH, F.FCU_CFG_SCOPE, F.FCU_CFG_EVT, F.FCU_CFG_REC, F.FCU_CFG_SEV]⟩
  , ⟨.FCU_CNT, 0x01300, 100, 4, 1, 0, 4, 8, false, .core,
      [F.FCU_CNT_COUNT]⟩
  , ⟨.FCU_REC_W0, 0x01800, 64, 32, 1, 0, 1, 32, false, .core,
      [F.FCU_REC_W0_VALID, F.FCU_REC_W0_FORCED, F.FCU_REC_W0_ESCALATED, F.FCU_REC_W0_SEV, F.FCU_REC_W0_SRC]⟩
  , ⟨.FCU_REC_SEQ, 0x01804, 64, 32, 1, 0, 1, 32, false, .core,
      [F.FCU_REC_SEQ_SEQ]⟩
  , ⟨.FCU_REC_BEAT, 0x01808, 64, 32, 1, 0, 1, 32, false, .core,
      [F.FCU_REC_BEAT_BEAT]⟩
  , ⟨.FCU_REC_SNAP, 0x0180C, 64, 32, 1, 0, 1, 32, false, .core,
      [F.FCU_REC_SNAP_SNAP]⟩
  , ⟨.FCU_REC_COUNT, 0x01810, 64, 32, 1, 0, 1, 32, true, .core,
      [F.FCU_REC_COUNT_COUNT]⟩
  , ⟨.FCU_REC_PRIOR, 0x01818, 64, 32, 1, 0, 1, 32, false, .core,
      [F.FCU_REC_PRIOR_PRIOR]⟩
  , ⟨.FCU_REC_RSVD, 0x0181C, 64, 32, 1, 0, 1, 32, false, .core,
      []⟩ ]

/-- Registers of block SORT, part 0. -/
def mapSORT0 : List RegDef :=
  [ ⟨.SORT_CTL, 0x03000, 1, 0, 1, 0, 1, 32, false, .core,
      [F.SORT_CTL_WAIT_MAX, F.SORT_CTL_HOLD_SCHED]⟩
  , ⟨.SORT_STAT, 0x03004, 1, 0, 1, 0, 1, 32, false, .core,
      [F.SORT_STAT_BUSY, F.SORT_STAT_WAITING]⟩
  , ⟨.SORT_GRP, 0x03040, 11, 4, 1, 0, 1, 32, false, .core,
      [F.SORT_GRP_RUN_ACT, F.SORT_GRP_RUN_TGT, F.SORT_GRP_DEPTH]⟩
  , ⟨.SORT_CNT, 0x03080, 11, 4, 1, 0, 1, 32, false, .core,
      [F.SORT_CNT_RUNS, F.SORT_CNT_DEFERRALS]⟩
  , ⟨.SORT_LAST, 0x030C0, 1, 0, 1, 0, 1, 32, false, .core,
      [F.SORT_LAST_ACT, F.SORT_LAST_TGT, F.SORT_LAST_CODE, F.SORT_LAST_GROUP]⟩
  , ⟨.SORT_LAST_DUR, 0x030C4, 1, 0, 1, 0, 1, 32, false, .core,
      [F.SORT_LAST_DUR_DUR]⟩
  , ⟨.SORT_WAIT_HWM, 0x030C8, 1, 0, 1, 0, 1, 32, false, .core,
      [F.SORT_WAIT_HWM_GROUP, F.SORT_WAIT_HWM_WAIT]⟩ ]

/-- Registers of block MEM, part 0. -/
def mapMEM0 : List RegDef :=
  [ ⟨.MEM_CTL, 0x1A000, 1, 0, 1, 0, 1, 32, false, .core,
      [F.MEM_CTL_ERR_MAX, F.MEM_CTL_HIST_PER, F.MEM_CTL_SIZE, F.MEM_CTL_STAMP_LOG, F.MEM_CTL_DRAM_EN]⟩
  , ⟨.MEM_STAT, 0x1A004, 1, 0, 1, 0, 1, 32, false, .core,
      [F.MEM_STAT_HIST_DAYS, F.MEM_STAT_HIST_SRAM, F.MEM_STAT_PENDING_ENABLE, F.MEM_STAT_STATE]⟩
  , ⟨.MEM_ERR, 0x1A008, 1, 0, 1, 0, 1, 32, false, .core,
      [F.MEM_ERR_DRAM_CORR, F.MEM_ERR_DRAM_UNC, F.MEM_ERR_SRAM_CORR]⟩
  , ⟨.MEM_SCRUB, 0x1A00C, 1, 0, 1, 0, 1, 32, false, .core,
      [F.MEM_SCRUB_SRAM_PASSES, F.MEM_SCRUB_DRAM_PASSES]⟩
  , ⟨.MEM_ERR_ADDR, 0x1A010, 1, 0, 1, 0, 1, 32, false, .core,
      [F.MEM_ERR_ADDR_ADDR]⟩ ]

/-- Every register of the address space. -/
def regMap : List RegDef :=
  mapTOP0 ++ mapTOP1 ++
  mapRIDGE0 ++ mapRIDGE1 ++ mapRIDGE2 ++
  mapTDC0 ++ mapTDC1 ++ mapTDC2 ++
  mapENS0 ++ mapENS1 ++ mapENS2 ++
  mapEAVES0 ++ mapEAVES1 ++ mapEAVES2 ++
  mapDPLL0 ++ mapDPLL1 ++
  mapAPLL0 ++
  mapOUT0 ++
  mapGNSS0 ++ mapGNSS1 ++ mapGNSS2 ++ mapGNSS3 ++
  mapSDS0 ++
  mapMAC0 ++ mapMAC1 ++
  mapPM0 ++ mapPM1 ++
  mapPTE0 ++ mapPTE1 ++ mapPTE2 ++
  mapFRANK0 ++ mapFRANK1 ++
  mapSLATE0 ++
  mapHOST0 ++ mapHOST1 ++ mapHOST2 ++
  mapNOR0 ++ mapNOR1 ++
  mapPAIR0 ++
  mapFCU0 ++ mapFCU1 ++
  mapSORT0 ++
  mapMEM0

end Sys2Proof.Machine
end

