-- ==== Sys2Proof/Machine/State.lean ====
section
/-! DEFINITION. The state of the TE-864 block as plain data, and the state after reset.
Every register field of the spec's register tables lives in `State.regs` (a sparse list in canonical form: keys strictly
rising, no entry equal to the field's reset value); every byte of the table windows of Table REG-3 in `State.mem`; what the
spec describes without a register in the structures below, chapter by chapter. -/
namespace Sys2Proof.Machine

/-- Why the machine stops with a fault. No command of this hardware does: the spec gives every command an effect. -/
inductive Fault where
  /-- Raised by no command; it stands for a stop the spec would name. Safe. -/
  | none
  deriving DecidableEq, Repr

/-- Why a command has no meaning. -/
inductive Refusal where
  /-- Raised by `exec` for a command whose meaning is not written. Safe: nothing is claimed of it. -/
  | notModelled (mnemonic : String)
  deriving DecidableEq, Repr

/-- A completion record (Table HOST-3) of a command. -/
structure Cpl where
  ref : CmdRef
  code : Nat
  interim : Bool
  dmaErr : Bool
  dup : Bool
  r0 : Nat
  r1 : Nat
  outLen : Nat
  deriving DecidableEq, Repr

/-- A message, frame, pulse or record that the device sends out of the block. -/
inductive Out where
  /-- a posted write to host memory: address and 32-bit words (R406 to R411) -/
  | dma (addr : Nat) (words : List Nat)
  /-- an MSI-X message (R411) -/
  | msix (vector : Nat)
  /-- a one-tick pulse on time-trigger line TTn (R40) -/
  | trigger (line : Nat)
  /-- a Noryr frame sent on port `q`: header, payload and CRC-32, as words (R440) -/
  | norFrame (q : Nat) (words : List Nat)
  /-- a Noryr ordered set sent on port `q` (Table NOR-1) -/
  | norSet (q type arg0 arg1 : Nat)
  /-- a message on the UART of atomic oscillator `k` (1 or 2) (R143) -/
  | uart (k : Nat) (bytes : List Nat)
  /-- a pulse of PPSOUT `j` starts (`high`) or ends (R198) -/
  | pulse (j : Nat) (high : Bool)
  /-- a transaction on GFE_SPI to the front end of antenna `a` (R212) -/
  | gfeSpi (a : Nat) (bytes : List Nat)
  /-- a frame sent on Ethernet port `p`, without its FCS -/
  | frame (p : Nat) (bytes : List Nat)
  /-- the answer to a PCIe configuration read: Configuration Request Retry Status, or the word read (R549) -/
  | pcieCfg (retry : Bool) (word : Nat)
  /-- the completion of a BAR2 read: Completer Abort, or the words read (R404) -/
  | tlp (abort : Bool) (words : List Nat)
  /-- bytes shifted out on MSPI_MISO (Table HOST-12) -/
  | mspi (bytes : List Nat)
  deriving DecidableEq, Repr

/-- A Noryr frame (Tables NOR-2 and NOR-3) without its LEN, SEQ and CRC: type, destination and source device, tag, payload words. -/
structure NorFrame where
  ftype : Nat
  dst : Nat
  src : Nat
  tag : Nat
  payload : List Nat
  deriving DecidableEq, Repr

/-- A timestamp exchange that was kept (R455): d, o and UP_TREE in ru, and t2. -/
structure NorKept where
  d : Rat
  o : Rat
  tree : Rat
  t2 : Nat
  deriving DecidableEq, Repr

/-- One Noryr port without a register (spec/13_noryr_cascade.md). Credits are in 64-byte units, by class: 0 request, 1 response, 2 pair,
3 control. -/
structure NorPort where
  /-- SEQ of the next frame sent, and the next SEQ expected -/
  seq : Nat := 0
  expect : Nat := 0
  /-- frames sent and not yet acknowledged, oldest first; frames that wait to be sent, with the port they came in on (6: this device) -/
  replay : List (Nat × NorFrame) := []
  waiting : List (Nat × NorFrame) := []
  /-- replays since the last acknowledgement that freed a frame (R441) -/
  noProg : Nat := 0
  /-- credits the partner has granted, credits used, and credits granted to the partner: cumulative, modulo 16,384 (R443) -/
  grant : List Nat := [0, 0, 0, 0]
  used : List Nat := [0, 0, 0, 0]
  back : List Nat := [0, 0, 0, 0]
  /-- source of the response class served last (R439) -/
  last : Nat := 6
  /-- N1 agreed (R445); N2REQ sent and not answered -/
  n1 : Bool := false
  n2req : Bool := false
  /-- next exchange number; TSQ sent, as number and t1; TSQ answered, as number, t2 and t3 (R454) -/
  xch : Nat := 0
  ask : Option (Nat × Nat) := none
  ans : Option (Nat × Nat × Nat) := none
  /-- exchanges kept, newest first, and how many in a row with UP_VALID = 1 (R456) -/
  kept : List NorKept := []
  valid : Nat := 0
  deriving DecidableEq, Repr

/-- Noryr without a register (spec/13_noryr_cascade.md). -/
structure NorSt where
  port : List NorPort := List.replicate 6 {}
  /-- the path to this device as ADDR gives it, PATH0 lowest -/
  path : Nat := 0
  /-- numbers bound to the paths of level-3 devices, on the root (R448) -/
  binds : List (Nat × Nat) := []
  /-- input of commands not yet arrived: tag, byte offset and words (R444) -/
  bufIn : List (Nat × Nat × List Nat) := []
  /-- root count minus own count and its slope as found from the last exchange, at the count t2 (R455) -/
  tree : Option (Rat × Rat × Nat) := none
  /-- beats for which the root still sends UP_VALID = 0 (R459) -/
  hold : Nat := 0
  deriving DecidableEq, Repr

/-- A fault occurrence of one tick, before its record is written (R514): source, snapshot word, and whether FCU_FORCE raised it. -/
structure Occ where
  fs : Nat
  snap : Nat
  forced : Bool
  deriving DecidableEq, Repr

/-- A live cause of a source: the source and its snapshot. For an event source, `seen` says that a beat phase 3 that began
after the raise has sampled it (R512). -/
structure Cause where
  fs : Nat
  snap : Nat
  seen : Bool
  deriving DecidableEq, Repr

/-- FCU state without a register (spec/16_faults.md). -/
structure FcuSt where
  /-- occurrences of the tick in progress (R514); empty between commands -/
  occs : List Occ := []
  /-- lasting conditions that hold (R512) -/
  conds : List Cause := []
  /-- event occurrences still live (R512) -/
  evts : List Cause := []
  /-- occurrences of each ESC source since the beat 0 edge of the second (R523): (source, count) -/
  secCnt : List (Nat × Nat) := []
  /-- sources under an escalated severity, and whether the next whole second has passed since (R523) -/
  escal : List (Nat × Bool) := []
  /-- sources escalated in the running second (R523) -/
  passed : List Nat := []
  /-- sources that were live when their configuration byte was written, to be judged again at the next beat edge, and the severity
  they are judged under until then (R520) -/
  rejudge : List (Nat × Nat) := []
  /-- consecutive beats that ended without the phase 4 mark (R530) -/
  noMark : Nat := 0
  /-- the phase 4 mark of the running beat (R530) -/
  marked : Bool := false
  /-- domains withheld by a live S2 source with WH = 1, latched at the beat edge (R522): A, B -/
  whA : Bool := false
  whB : Bool := false
  /-- word of FCU_LIVE that the next phase 4 tests (R533) -/
  selfWord : Nat := 0
  deriving DecidableEq, Repr

/-- An event before it is written (Table HOST-8): device, code, info, Ridge A count, sequence number, payload words. -/
structure EvtRec where
  dn : Nat
  code : Nat
  info : Nat
  count : Nat
  seq : Nat
  payload : List Nat
  deriving DecidableEq, Repr

/-- A command in flight (R415 to R418): its reference, its record (Table HOST-2) as 16 words, whether it has started, and the bytes of
routed output written when a DMA write of it failed (R419). -/
structure InFlight where
  ref : CmdRef
  words : List Nat
  started : Bool
  cut : Option Nat
  deriving DecidableEq, Repr

/-- Letterbox state without a register (spec/12_host_letterbox.md). -/
structure HostSt where
  inflight : List InFlight := []
  /-- completions held for want of ring space or in D3hot (R401, R409), oldest first -/
  held : List Cpl := []
  /-- events held in D3hot (R401), oldest first -/
  heldEvents : List EvtRec := []
  /-- tags completed with DEVICE_TIMEOUT or by a link reset, whose late completion is dropped (R402, R418) -/
  dropped : List CmdRef := []
  /-- events dropped since the last one written (R410) -/
  lost : Nat := 0
  /-- next event sequence number of this device (Table HOST-8) -/
  evtSeq : Nat := 0
  /-- completions written and not yet signalled (R411) -/
  unsig : Nat := 0
  /-- the Letterbox is stopping (R433) -/
  stopping : Bool := false
  /-- the Letterbox runs (not DISABLED) -/
  running : Bool := false
  /-- per group: transmit ring runs, receive ring runs -/
  txRun : List Bool := List.replicate 8 false
  rxRun : List Bool := List.replicate 8 false
  /-- receive descriptors of each ring that wait for a frame: buffer address and length (Table HOST-11) -/
  posted : List (List (Nat × Nat)) := List.replicate 8 []
  /-- serial number of the next command record taken -/
  ser : Nat := 0
  /-- MSPI STATUS: code of the last refused access, refusals since the last STATUS (Table HOST-12) -/
  mspiCode : Nat := 0
  mspiCnt : Nat := 0
  /-- requester number that wrote the mailbox GO (R431) -/
  mbxReq : Nat := 3
  /-- a mailbox GO has been accepted and its command is not yet dispatched (R431) -/
  mbxGo : Bool := false
  /-- the DMA writes of the running command's output fail after so many bytes (R419) -/
  outFail : Option Nat := none
  deriving DecidableEq, Repr

/-- The levels of the output and input pins that the rules name. -/
structure Pins where
  /-- ALIVE (R529) -/
  alive : Bool := false
  /-- READY (R557) -/
  ready : Bool := false
  /-- FAULT_N driven low (R531) -/
  faultLow : Bool := true
  /-- INT_N driven low (R532) -/
  intLow : Bool := false
  /-- TOKEN (R466) and the partner's TOKEN_IN -/
  token : Bool := false
  tokenIn : Bool := false
  /-- MSPI_RDY (R429) -/
  mspiRdy : Bool := false
  deriving DecidableEq, Repr

/-- A `TIME_STEP` accepted and not yet applied (R30, R38). -/
structure StepReq where
  ref : CmdRef
  dom : Nat
  applySec : Bool
  useReq : Bool
  step : Int
  deriving DecidableEq, Repr

/-- One Ridge domain without a register: the hidden fraction, the addend in force, and its correction. -/
structure RidgeDom where
  /-- hidden 40-bit fraction of the count (R10) -/
  frac : Nat := 0
  /-- addend in force, in 2^-40 ru per tick (R11) -/
  addend : Nat := 0xCCCC_CC_CCCC_CCCC
  /-- pending correction in 2^-40 ru (R596) -/
  pend : Int := 0
  /-- the pending correction is being applied (R29) -/
  slewing : Bool := false
  /-- slowest rate named by a request accepted since the pending value was last 0, ns/s (R24) -/
  named : Option Nat := none
  /-- jump limit, slew limit and JUMP_B_EN in force since the last beat edge (R23) -/
  limit : Nat := 100
  slewMax : Nat := 50
  /-- a refused request sets STEP_NEEDED: always for domain A, JUMP_B_EN for domain B (R26, R27) -/
  jumpEn : Bool := false
  /-- SLEW_REM and REQ_STEP as they stood at the last beat edge (R175), ru -/
  remEdge : Int := 0
  reqEdge : Int := 0
  /-- sum of all corrections applied since reset by slews and steps, 2^-40 ru (R157) -/
  total : Int := 0
  /-- the loop's last request of this beat was accepted (R175) -/
  accepted : Bool := false
  deriving DecidableEq, Repr

/-- Ridge state without a register (spec/01_ridge_time.md). -/
structure RidgeSt where
  /-- Ridge A runs: from the end of fuse load until reset -/
  running : Bool := false
  /-- MODEL'S OWN: CCLK ticks since Ridge A began to run, the time base of dead times -/
  ticks : Nat := 0
  a : RidgeDom := { jumpEn := true }
  b : RidgeDom := {}
  /-- Ridge A count of the next beat edge (R45) -/
  nextEdge : Nat := 64000000000
  /-- accepted `TIME_STEP` commands, in order of acceptance (R38) -/
  steps : List StepReq := []
  /-- automatic step of Ridge A due at the next beat edge, on a standby that steers to its partner (R472) -/
  autoA : Option Int := none
  /-- automatic step of Ridge B due at the next beat edge (R27) -/
  autoB : Option Int := none
  /-- `TIME_MAP` commands waiting for their map to take effect (R20) -/
  maps : List CmdRef := []
  /-- a class map write is staged (R20) -/
  mapStaged : Bool := false
  /-- per comparator: passed by a step and due on the next tick (R43) -/
  skipped : List Bool := List.replicate 32 false
  /-- the running phases 1 to 4 completed in this beat, and the overrun of the beat (R47) -/
  done : List Nat := []
  overrun : Bool := false
  deriving DecidableEq, Repr

/-- The sums of one regression gate (R68): stamps relative to the gate-open count `t0`, indices relative to the first one. -/
structure Gate where
  t0 : Nat
  /-- S_A (2^-40 ru) and the CCLK ticks at the gate's opening, from which r_A over the gate follows (R91) -/
  s0 : Int := 0
  tick0 : Nat := 0
  n : Nat := 0
  kFirst : Nat := 0
  sk : Nat := 0
  skk : Nat := 0
  st : Int := 0
  skt : Int := 0
  stt : Int := 0
  /-- the gate is shorter than GATE beats -/
  short : Bool := true
  maint : Bool := false
  overrate : Bool := false
  unlocked : Bool := false
  /-- the result cannot be VALID: the measurement PLL was unlocked, or the channel was calibrated without a spare (R76, R85) -/
  invalid : Bool := false
  deriving DecidableEq, Repr

/-- A gate that has ended and is closed in phase 1 (R67): its sums, its end count, and whether a step ended it (R71). -/
structure ClosingGate where
  gate : Gate
  te : Nat
  step : Bool
  sE : Int := 0
  tickE : Nat := 0
  deriving DecidableEq, Repr

/-- One logical channel of the edge measurement array without a register. -/
structure TdcCh where
  /-- edge index since enable (R58) -/
  idx : Nat := 0
  gate : Option Gate := none
  closing : Option ClosingGate := none
  /-- START_STOP window: number, start stamp, stops so far (Table TDC-3) -/
  winNo : Nat := 0
  winStart : Nat := 0
  winStops : Nat := 0
  winSrc : Nat := 0
  /-- raw time of the last edge each capture accepted, in 2^-16 of a CCLK tick (R53) -/
  lastStart : Option Nat := none
  lastStop : Option Nat := none
  /-- raw time at which the input FIFO runs empty (R54) -/
  fifoEnd : Nat := 0
  /-- records dropped in the present ring overflow, not yet reported (R87) -/
  ringLost : Nat := 0
  /-- the converter holds a calibration table (FS 17) -/
  table : Bool := false
  /-- mean fractional rate of Ridge A against the free Ridge over the last published gate (R91) -/
  rA : Rat := 0
  deriving DecidableEq, Repr

/-- A substitution or restoration in its shadow period (R79, R80). -/
structure SubReq where
  sel : Nat
  lch : Nat
  restore : Bool
  deriving DecidableEq, Repr

/-- Edge measurement state without a register (spec/02_edge_measurement.md). -/
structure TdcSt where
  ch : List TdcCh := List.replicate 48 {}
  /-- per source: edges to skip before the prescaler passes one, for rising and for falling edges (R55) -/
  preRise : List Nat := List.replicate 64 0
  preFall : List Nat := List.replicate 64 0
  subs : List SubReq := []
  /-- fixed correction of each spare's stamps, ru (R79) -/
  corr : List Int := [0, 0]
  /-- physical channels out of service after a substitution (R79) -/
  oos : List Nat := []
  /-- channels for which a calibration has requested a spare, to be restored after it (R76) -/
  cal : List Nat := []
  /-- beat and die temperature (LSB 0.25 °C) of the last calibration trigger (R75) -/
  trigBeat : Nat := 0
  trigTemp : Int := 0
  /-- channels whose result was published for the last beat edge (R94) -/
  fresh : List Nat := []
  deriving DecidableEq, Repr

/-- One reference slot of Thatch without a register (spec/03_thatch_ensemble.md): the clock model in exact rationals. -/
structure EnsSlot where
  /-- a first fresh result has set the model (R105) -/
  started : Bool := false
  /-- phase against Thatch time (ru), frequency, drift (1/s), variance of the innovations (ps²), averaged frequency (R119) -/
  x : Rat := 0
  y : Rat := 0
  d : Rat := 0
  s2 : Rat := 0
  ybar : Rat := 0
  /-- beats since the last fresh result, or since the slot was enabled or requalified -/
  since : Nat := 0
  /-- beats since the model was set (R119) -/
  age : Nat := 0
  /-- beats left of QUAL_TIME or HOLDOFF -/
  timer : Nat := 0
  /-- beats as a member (R111), and beats of the exit ramp done -/
  entry : Nat := 0
  exit : Option Nat := none
  deriving DecidableEq, Repr

/-- A delivery of the GNSS receiver or of a packet client for this beat edge (R94): offset in ru, frequency, age in beats. -/
structure Delivery where
  slot : Nat
  ofs : Int
  freq : Rat
  age : Nat
  deriving DecidableEq, Repr

/-- A dispute without majority: its two slots, and the beats they have agreed within half the tolerance (R122). -/
structure Dispute where
  i : Nat
  j : Nat
  agree : Nat
  deriving DecidableEq, Repr

/-- Thatch without a register (spec/03_thatch_ensemble.md). -/
structure EnsSt where
  /-- Thatch runs; it stops at the next beat edge (R130) -/
  run : Bool := false
  stopping : Bool := false
  slots : List EnsSlot := List.replicate 24 {}
  /-- target time of each domain minus the free Ridge, in ru; rate of Thatch time; memory of each trace loop (R113, R114) -/
  zA : Rat := 0
  zB : Rat := 0
  fz : Rat := 0
  loopA : Rat := 0
  loopB : Rat := 0
  /-- S_A and S_B at the last beat edge, in 2^-40 ru (R89), the step of Ridge A at that edge, and the ticks at that edge -/
  sA : Int := 0
  sB : Int := 0
  stepA : Int := 0
  tickE : Nat := 0
  /-- mean rates of the two Ridges against the free Ridge over the last beat -/
  rA : Rat := 0
  rB : Rat := 0
  /-- beats for which the lock conditions of each domain have held (R117) -/
  lockA : Nat := 0
  lockB : Nat := 0
  deliv : List Delivery := []
  disputes : List Dispute := []
  /-- replacements in progress: (member that ramps out, candidate that enters) (R102) -/
  repl : List (Nat × Nat) := []
  /-- `REF_REQUAL` commands waiting for their beat edge (R126) -/
  requal : List (CmdRef × Nat) := []
  /-- |e - target| of each domain after the trace step, in ru (Table EAVES-3) -/
  errA : Rat := 0
  errB : Rat := 0
  /-- a domain was aligned in this phase 2 (R118) -/
  alignA : Bool := false
  alignB : Bool := false
  /-- last innovation of slot 11 in ru, if it has had one (R241) -/
  nu11 : Option Rat := none
  deriving DecidableEq, Repr

/-- One domain of the Eaves bound without a register (spec/04_holdover_eaves.md). -/
structure EavesDom where
  /-- C[0] + C[1] + C[2] + FLOOR at the last beat with a traceable source (Table EAVES-3) -/
  base : Nat := 0
  /-- B_hold of the last holdover beat (R157) -/
  lastHold : Nat := 0
  /-- die temperature at holdover entry (LSB 0.25 °C), and the temperature integral so far in 1/4,096 K s (R153) -/
  temp0 : Int := 0
  tint : Nat := 0
  /-- corrections applied to the Ridge up to the alignment, 2^-40 ru (R157) -/
  corr0 : Int := 0
  /-- members for which FS 54 was raised in this holdover (R155) -/
  fs54 : List Nat := []
  deriving DecidableEq, Repr

/-- Values learned from the histories for one slot (R156): y0 and drift in the LSBs of EAVES_CHAR. -/
structure Learned where
  slot : Nat
  y0 : Nat
  drift : Nat
  deriving DecidableEq, Repr

/-- A message waiting for a UART (R143 to R146): STEER with its step, POLL, PROBE, or the raw bytes of an `OSC_SEND`. -/
inductive UartMsg where
  | steer (step : Int)
  | poll
  | probe (c : Option CmdRef)
  | raw (c : CmdRef) (bytes : List Nat)
  deriving DecidableEq, Repr

/-- One steered oscillator without a register. -/
structure OscSt where
  /-- code that the tuning DAC drives (R132) -/
  dac : Nat := 0x80000
  /-- a steering step computed and not yet in effect (R135, R138), and whether its STEER message has been sent -/
  step : Option Int := none
  sent : Bool := false
  /-- messages waiting -/
  queue : List UartMsg := []
  /-- what the response being collected answers: 0 nothing, 1 a POLL, 2 a PROBE -/
  await : Nat := 0
  /-- a probe has failed and is to be repeated; attempts made (R560) -/
  retry : Bool := false
  tries : Nat := 0
  /-- consecutive passed polls (R147) -/
  passes : Nat := 0
  deriving DecidableEq, Repr

/-- Eaves and oscillator steering without a register. -/
structure EavesSt where
  a : EavesDom := {}
  b : EavesDom := {}
  learned : List Learned := []
  /-- beats of LOCKED operation in the histories in DRAM (R156) -/
  hist : Nat := 0
  /-- source uncertainty in ps last published by each packet client, by slot (R151) -/
  unc : List Nat := List.replicate 24 0
  osc : List OscSt := List.replicate 3 {}
  deriving DecidableEq, Repr

/-- One digital loop without a register (spec/05_loops_synthesis_outputs.md): the loop law's state in exact rationals. -/
structure DpllSt where
  i1 : Rat := 0
  i2 : Rat := 0
  /-- last phase error in seconds; the frequency command y -/
  phi : Rat := 0
  y : Rat := 0
  /-- the oscillator's phase in 2^-40 ru (R169), and the CCLK ticks it was advanced to -/
  nco : Int := 0
  tick : Nat := 0
  /-- updates in a row with the phase error inside LOCK_WIN (Table LOOP-2) -/
  inWin : Nat := 0
  /-- a clamp acted since the last phase 3 (R173) -/
  clamped : Bool := false
  /-- i1 at each phase 3, newest first, at most 1,088 (R184) -/
  hist : List Rat := []
  /-- the addend staged in phase 3 loads at the next beat edge (R170) -/
  staged : Bool := false
  /-- slew of DPLL_STEPD by an `OUT_ALIGN`: its rate in ns/s, and the tick it was brought up to (R201) -/
  slew : Option Nat := none
  slewTick : Nat := 0
  deriving DecidableEq, Repr

/-- One analogue loop without a register. -/
structure ApllSt where
  /-- reference frequency in Hz, as given when the loop was enabled (R186) -/
  fref : Nat := 0
  /-- the present lock attempt follows an enable or a `MAINT_RUN` (R192, R575) -/
  first : Bool := false
  /-- the reference is present again and a search may be requested; a failed search waits its 1 ms (R189, R192) -/
  waiting : Bool := false
  /-- the `MAINT_RUN` commands that complete at LOCKED (R575) -/
  cmds : List CmdRef := []
  /-- the integer and 32 fraction bits that drive the modulator while a digital loop steers it, and the 24 bits below them that
  accumulate (R187) -/
  modWord : Nat := 0
  modAcc : Nat := 0
  deriving DecidableEq, Repr

/-- One pulse output without a register. -/
structure PpsSt where
  /-- OUT_PPS_OFS in force (R200), LSB 1/16 ns -/
  ofs : Int := 0
  /-- the next pulse's target in P_j, ru since the epoch, when it is fixed by an alignment (R201) -/
  floor : Option Int := none
  /-- target of the last pulse emitted -/
  last : Option Int := none
  /-- a pulse is in progress, and the tick it started on -/
  high : Bool := false
  start : Nat := 0
  /-- slew of OUT_PPS_DIFF to 0: its rate in ns/s, and the tick it was brought up to (R201) -/
  slew : Option Nat := none
  slewTick : Nat := 0
  /-- the tick of an alignment that is still to be checked against a loopback measurement (R202, FS 72) -/
  check : Option Nat := none
  deriving DecidableEq, Repr

/-- An accepted `OUT_ALIGN`: its outputs (CLKOUT i as i, PPSOUT j as 16 + j), those not yet aligned, and its mode and rate. -/
structure AlignReq where
  ref : CmdRef
  outs : List Nat
  left : List Nat
  slew : Bool
  rate : Nat
  applied : Bool := false
  deriving DecidableEq, Repr

/-- Loops, synthesis and outputs without a register. -/
structure LoopSt where
  dpll : List DpllSt := List.replicate 8 {}
  apll : List ApllSt := List.replicate 6 {}
  pps : List PpsSt := List.replicate 8 {}
  /-- fine steps in effect, per clock output (R196) -/
  fine : List Nat := List.replicate 16 0
  /-- per clock output, the tick of an alignment that is still to be checked (R202, FS 72) -/
  clkCheck : List (Option Nat) := List.replicate 16 none
  aligns : List AlignReq := []
  /-- outputs that are stopping (R206) -/
  stopping : List Nat := []
  deriving DecidableEq, Repr

/-- A tracking channel that is not IDLE (Table GNSS-2): number, antenna, stream of the antenna, signal, satellite, PINNED, state,
search class (0 hot, 1 warm, 2 blind), epochs since phase lock, and SLIP due in its next record. -/
structure GnssCh where
  no : Nat
  ant : Nat
  b : Nat
  sig : Nat
  sv : Nat
  pinned : Bool
  st : Nat
  cls : Nat := 0
  lockCnt : Nat := 0
  slip : Bool := false
  deriving DecidableEq, Repr

/-- An assignment or release waiting for the next epoch latch (R225). -/
structure ChAssign where
  cmd : Option CmdRef
  no : Nat
  ant : Nat
  b : Nat
  sig : Nat
  sv : Nat
  deriving DecidableEq, Repr

/-- A half of the hint store (R245). -/
structure Hint where
  pos : List Int
  sig : Nat
  rtc : Nat
  base : List Int
  seq : Nat
  deriving DecidableEq, Repr

/-- An adaptive notch of a stream (R218): frequency (LSB 10 Hz), width code, scans since its peak was last seen. -/
structure Notch where
  freq : Int
  width : Nat
  gone : Nat
  deriving DecidableEq, Repr

/-- An epoch that has been latched (R226): edge count, beat sequence number, and the corrections applied to Ridge A so far. -/
structure EpochSt where
  e : Nat
  beat : Nat
  total : Int
  deriving DecidableEq, Repr

/-- A VALID solution not yet delivered (R238): offset at the epoch (ru), frequency (LSB 2^-60), U, flags, and its epoch. -/
structure GnssSol where
  ofs : Int
  freq : Int
  u : Nat
  dual : Bool
  hold : Bool
  ep : EpochSt
  deriving DecidableEq, Repr

/-- Receiver state without a register (spec/06_gnss_receiver.md). -/
structure GnssSt where
  /-- a solution has completed since the receiver entered STARTING or WAKING (R239) -/
  hadSolution : Bool := false
  /-- per stream: it runs; per antenna: its sample clock is in the window, and its front end failed identification -/
  run : List Bool := List.replicate 8 false
  sclk : List Bool := [false, false]
  feBad : List Bool := [false, false]
  /-- front-end write lists and sleep lists of the configuration image, per antenna (R212, Table PWR-3) -/
  feWrite : List (List (List Nat)) := [[], []]
  feSleep : List (List (List Nat)) := [[], []]
  /-- channels that are not IDLE, by rising number, and the searches waiting, in order of request (R222) -/
  ch : List GnssCh := []
  queue : List Nat := []
  assigns : List ChAssign := []
  /-- values still in force of fields written since the last epoch latch (R247) -/
  was : List (Nat × Nat) := []
  /-- EPOCH_RATE in force since the last beat 0; a write of MODE that the next epoch takes -/
  rate : Nat := 0
  modeNew : Bool := false
  /-- adaptive notches per stream; streams whose notches moved at the last latch -/
  notch : List (List Notch) := List.replicate 8 []
  moved : List Bool := List.replicate 8 false
  /-- the epoch latched and not yet recorded; the epoch recorded and not yet solved; the solution not yet delivered -/
  latched : Option EpochSt := none
  epoch : Option EpochSt := none
  sol : Option GnssSol := none
  /-- consecutive failed epochs, the tests that failed in them, and epochs counted towards CLEAR_TIME (Table GNSS-4) -/
  fails : Nat := 0
  causes : Nat := 0
  clear : Nat := 0
  /-- consecutive epochs without a VALID solution while RUNNING (FS 88) -/
  invalid : Nat := 0
  /-- the survey-in: it runs, learns the baseline, tick it started on, VALID epochs, sums of position and baseline -/
  survey : Bool := false
  learn : Bool := false
  surveyTick : Nat := 0
  surveyN : Nat := 0
  surveySum : List Int := [0, 0, 0]
  surveyBase : List Int := [0, 0, 0]
  /-- satellites with current ephemeris, and the tick that was seen on; whether an almanac is held (R246) -/
  eph : Nat := 0
  ephTick : Nat := 0
  almanac : Bool := false
  /-- last position and its σ -/
  pos : List Int := [0, 0, 0]
  posSig : Nat := 0
  /-- the two halves of the hint store in the VBAT domain (R245) -/
  hints : List (Option Hint) := [none, none]
  /-- start class chosen at the last start (Table GNSS-6): 1 cold, 2 warm, 3 hot -/
  kind : Nat := 0
  /-- `GNSS_SLEEP` and `GNSS_WAKE` commands waiting -/
  sleeps : List CmdRef := []
  wakes : List CmdRef := []
  deriving DecidableEq, Repr

/-- A frame in a port's host receive buffer (R270, R427): bytes after stripping, stripped TCIs, flags of Table HOST-11, FRAME_ID. -/
structure HostFrame where
  port : Nat
  bytes : List Nat
  outer : Option Nat
  inner : Option Nat
  ptpEv : Bool
  pm : Bool
  id : Nat
  deriving DecidableEq, Repr

/-- One Ethernet port without a register (spec/07_ethernet_ports.md). -/
structure PortSt where
  /-- end of the link-level pause and of each priority's pause, in 10 ps since Ridge A began to run (R266, R267) -/
  pause : Option Nat := none
  pfc : List (Option Nat) := List.replicate 8 none
  /-- a PAUSE of this port is in force at the partner (R270) -/
  xoff : Bool := false
  /-- the host receive buffer, oldest first, and the receive sequence number (R427) -/
  rxq : List HostFrame := []
  seq : Nat := 0
  /-- entry into doze is in progress (R277) -/
  dozing : Bool := false
  /-- Ridge count, in the launch's domain, at which the last launch frame and its gap end (R302) -/
  lastEnd : Option Nat := none
  deriving DecidableEq, Repr

/-- One Ethernet lane without a register. -/
structure LaneSt where
  /-- static receive latency from fuse, signed ru (R284) -/
  lat0 : Int := 0
  /-- consecutive eye results below EYE_THR (R257), first result after a re-adaptation due, beat until which no request is made (R260) -/
  low : Nat := 0
  first : Bool := false
  quiet : Option Nat := none
  /-- a correction reload is in progress (R285) -/
  reload : Bool := false
  /-- `MAINT_RUN` commands that wait for the first eye result after a re-adaptation (R575) -/
  cmds : List CmdRef := []
  deriving DecidableEq, Repr

/-- A launch entry that is committed (R299): group, slot, frame bytes and one-step value fixed, and its planned STAMP. -/
structure Launch where
  group : Nat
  slot : Nat
  bytes : List Nat
  stamp : Int
  place : TxPlace
  step : Bool
  started : Bool
  late : Bool
  deriving DecidableEq, Repr

/-- One Postmark ring and launch queue without a register (spec/08_postmarks_timed_launch.md). -/
structure PmSt where
  seq : Nat := 0
  lost : Nat := 0
  deriving DecidableEq, Repr

/-- Ethernet, Postmarks and launches without a register. -/
structure EthSt where
  port : List PortSt := List.replicate 32 {}
  lane : List LaneSt := List.replicate 32 {}
  pm : List PmSt := List.replicate 8 {}
  /-- slots of armed launch entries, as (group, slot), and the committed ones -/
  armed : List (Nat × Nat) := []
  commits : List Launch := []
  deriving DecidableEq, Repr

/-- A bank of a slate (R383, R385): two shares whose exclusive or is the key, and the integrity tag. -/
structure SlateBank where
  s0 : Nat := 0
  s1 : Nat := 0
  tag : Nat := 0
  deriving DecidableEq, Repr

/-- An accepted key command that waits for its beat edge (R380): its slate, whether it invalidates, what the attribute word becomes,
and whether it came less than 20 µs before an edge and waits for the following one. -/
structure SlateChange where
  ref : CmdRef
  slate : Nat
  inval : Bool
  usage : Nat
  klen : Bool
  noExport : Bool
  origin : Nat
  parent : Nat
  late : Bool
  deriving DecidableEq, Repr

/-- Cells to be overwritten with zeros once the last operation that uses them has completed (R389): slate, bank (2 for both), and the
command that then completes. -/
structure Zeroise where
  slate : Nat
  bank : Nat
  ref : Option CmdRef
  deriving DecidableEq, Repr

/-- Slates without a register (spec/11_slates.md): the two banks of each slate. -/
structure SlateSt where
  cells : List (SlateBank × SlateBank) := List.replicate 256 ({}, {})
  changes : List SlateChange := []
  zero : List Zeroise := []
  /-- slates that failed their tag in a re-mask pass, whose children are orphaned at the next edge (R386) -/
  failed : List Nat := []
  deriving DecidableEq, Repr

/-- An admitted request whose answer has not started (R360): its port, what answers it (0 NTP, 1 NTS, 2 NTSN, 3 Delay_Resp,
4 Pdelay_Resp), the domain and the stamp of the request, the request, its instance and session, the log interval of a Delay_Resp, the
keys fixed at admission, the security association of the answer, and the slate banks that those keys came from. -/
structure Answer where
  port : Nat
  kind : Nat
  dom : Nat
  stamp : Nat
  req : RxFrame
  inst : Nat
  sess : Option Nat
  log : Int
  keys : List (List Nat)
  sa : Option Nat
  uses : List (Nat × Nat)
  deriving DecidableEq, Repr

/-- A rotation accepted and not yet applied (R357). -/
structure Rotation where
  ref : CmdRef
  slate : Nat
  keyid : Nat
  deriving DecidableEq, Repr

/-- The Franking unit and NTP and NTS serving without a register (spec/10_ntp_nts_franking.md). -/
structure FrankSt where
  answers : List Answer := []
  rots : List Rotation := []
  /-- pipelines kept out of service by a failed test or a parity error (R365, R366) -/
  badPipes : List Nat := []
  /-- known-answer tests run: at enable, or on the pipelines out of service -/
  katEn : Bool := false
  katReq : Bool := false
  /-- epoch time of the last beat edge at which each domain had a traceable source (Table NTS-2), ru -/
  refTime : List Int := [0, 0]
  /-- unit, NTP serving and NTS serving are stopping (R373); an enable waits behind each -/
  stopping : List Bool := [false, false, false]
  pend : List Bool := [false, false, false]
  /-- (source, port) pairs of FS 122, 123, 128 and 129 already raised in this beat -/
  raised : List (Nat × Nat) := []
  deriving DecidableEq, Repr

/-- A Follow_Up that is due (R318): instance, port, session of a unicast Sync, sequenceId, the stamp of the Sync in each domain (R314),
log interval. -/
structure FollowUp where
  inst : Nat
  port : Nat
  sess : Option Nat
  seq : Nat
  stampA : Nat
  stampB : Nat
  log : Nat
  deriving DecidableEq, Repr

/-- Peer delay on one port (R320): next sequenceId; the request outstanding, with its instance, domain and stamp; a two-step response
waiting for its follow-up, as correction, requestReceiptTimestamp in ru and receive stamp; the last delays in ru, newest first; which
of the last requests were answered. -/
structure PdelaySt where
  seq : Nat := 0
  out : Option (Nat × Nat × Nat × Nat) := none
  rsp : Option (Int × Int × Nat) := none
  delays : List Rat := []
  got : List Bool := []
  deriving DecidableEq, Repr

/-- A session command waiting for its beat edge (R332). -/
inductive SessChange where
  | add (c : CmdRef) (n : Nat) (rec : List Nat)
  | del (c : CmdRef) (n : Nat)
  | setSa (c : CmdRef) (n sa : Nat)
  | flush (c : CmdRef) (p i : Nat)
  deriving DecidableEq, Repr

/-- A unicast negotiation message that firmware has not answered, or has granted and not yet applied (R330, R331): the frame it came
in, port, instance, transport, and its items (message type nibble, log interval, seconds). -/
structure Negotiation where
  frame : RxFrame
  port : Nat
  inst : Nat
  tr : Nat
  items : List (Nat × Int × Nat)
  deriving DecidableEq, Repr

/-- One exchange of a packet client, in ru (R339): t2, ms and sm. -/
structure Exchange where
  t2 : Rat
  ms : Rat
  sm : Rat
  deriving DecidableEq, Repr

/-- One packet client without a register: next sequenceId of its requests and of its Signaling; a two-step Sync waiting for its
Follow_Up, as sequenceId, t2 and correction; ms of the last complete Sync with its t2; requests outstanding, as sequenceId or NTP
transmit timestamp and t3; the window's exchanges; the selected (t2, o) pairs of the last windows, newest first; whether a message
failed verification in the window; the upstream bound in ps. -/
structure ClientSt where
  seq : Nat := 0
  sigSeq : Nat := 0
  sync : Option (Nat × Int × Int) := none
  last : Option (Int × Int) := none
  out : List (Nat × Int) := []
  exch : List Exchange := []
  hist : List (List (Rat × Rat)) := []
  authFail : Bool := false
  up : Option Nat := none
  /-- seconds last granted for Announce, Sync and Delay_Resp (R338) -/
  granted : List Nat := [0, 0, 0]
  deriving DecidableEq, Repr

/-- The packet timing engine without a register (spec/09_ptp_engine.md). Lists of 64 are indexed by instance times 32 plus port. -/
structure PtpSt where
  seqAnn : List Nat := List.replicate 64 0
  seqSync : List Nat := List.replicate 64 0
  /-- the better foreign master while PASSIVE -/
  foreign : List (Option Nat) := List.replicate 64 none
  fups : List FollowUp := []
  pdelay : List PdelaySt := List.replicate 32 {}
  /-- engine, instances 0 and 1, clients 0 to 3: it is stopping; an enable waits behind the stop (R341) -/
  stopping : List Bool := List.replicate 7 false
  pend : List Bool := List.replicate 7 false
  /-- GNSS and the host settings of instances 0 and 1 have given a non-zero TAI - UTC since reset (R326) -/
  utcSeen : List Bool := [false, false, false]
  /-- lastGmPhaseChange of each instance, in 2^-16 ns (R329) -/
  phase : List Int := [0, 0]
  changes : List SessChange := []
  reqs : List Negotiation := []
  grants : List Negotiation := []
  /-- Delay_Req admitted per session in this Ridge second (R321) -/
  dreqs : List (Nat × Nat) := []
  client : List ClientSt := List.replicate 4 {}
  deriving DecidableEq, Repr

/-- The STATUS of a MIRROR frame (Table PAIR-5): its sender's beat number, and words 3 to 12. -/
structure PairStatus where
  bseq : Nat
  words : List Nat
  deriving DecidableEq, Repr

/-- A planned handover (R476): the holder beat named, whether this member asked for it, whether the ACK has arrived or been sent, its
cause (Table PAIR-2), and the command behind it. -/
structure Handover where
  seq : Nat
  mine : Bool
  ack : Bool
  cause : Nat
  ref : Option CmdRef
  deriving DecidableEq, Repr

/-- An entry of the mirror that waits to be applied (Table PAIR-6): a session record, or its deletion; a slate, with the beat of its
application, its attribute word, V and the wrapped key, or its invalidation; a command with its beat and parameters. -/
inductive MirEntry where
  | sess (n : Nat) (delete : Bool) (rec : List Nat)
  | slate (n : Nat) (inval : Bool) (edge attr : Nat) (sealed : List Nat)
  | cmd (opcode edge : Nat) (params : List Nat)
  deriving DecidableEq, Repr

/-- Pair state without a register (spec/14_pair_redundancy.md). -/
structure PairSt where
  /-- beats for which TAKE_PAD is still added to the bounds (R483) -/
  padLeft : Nat := 0
  /-- own IV epoch and the CTR of the next frame; the partner's IV epoch announced by an accepted STATUS, and the last CTR accepted
  under it (R479) -/
  iv : Nat := 0
  ctr : Nat := 0
  rxIv : Option Nat := none
  rxCtr : Nat := 0
  /-- the sender beat expected of the partner -/
  expB : Option Nat := none
  /-- the members clash (R462) -/
  clash : Bool := false
  /-- the latest STATUS accepted, and whether one came in this beat (R467), and in the beat before -/
  last : Option PairStatus := none
  fresh : Bool := false
  was : Bool := false
  /-- beats in SEARCH without a STATUS (Table PAIR-1); beats for which the conditions of R473 have held -/
  join : Nat := 0
  good : Nat := 0
  /-- alignment of R473: 0 not asked for, 1 under way, 2 completed -/
  align : Nat := 0
  /-- a double hold is detected: from TOKEN_IN alone (false) or from a STATUS (true) (R471) -/
  double : Option Bool := none
  ho : Option Handover := none
  /-- forced `PAIR_TAKE` commands that wait for the next beat edge (R478) -/
  force : List CmdRef := []
  /-- the guard ended in TEST, and the take waits for the self-tests to end (Table PAIR-1) -/
  testTake : Bool := false
  /-- MIRROR frames sent and accepted in this beat; parts of the Thatch image received in this beat; SESS_DYN entries received -/
  sent : Nat := 0
  frames : Nat := 0
  parts : List (Nat × List Nat) := []
  dyn : List (Nat × Nat × Nat × Nat) := []
  /-- this beat's mirror is complete (R481) -/
  complete : Bool := false
  entries : List MirEntry := []
  /-- session records created, changed or freed in this beat (R480) -/
  sess : List Nat := []
  /-- PAIR_OFS at the last beat edges, newest first, at most 16, in ru (R472) -/
  ofs : List Int := []
  /-- beats counted towards the next second of WTR_LEFT -/
  wtr : Nat := 0
  /-- Ridge B minus Ridge A at the last beat edge, 0 while Ridge B is disabled (Table PAIR-5) -/
  bma : Int := 0
  /-- the holder's beat number, as the last STATUS of a holder gave it, carried forward (R476) -/
  holdB : Nat := 0
  /-- FS 171 and FS 173 have been raised in this beat -/
  said : List Nat := []
  deriving DecidableEq, Repr

/-- Power and start-up without a register (spec/17_power_startup.md). -/
structure PwrSt where
  /-- the main domain has powered up -/
  main : Bool := false
  /-- where start-up stands (Table PWR-2): 0 held in power-on reset, 1 RESET_N low, 2 steps 1 and 2, 3 awaits fuse load, 4 fuses loaded,
  5 an image accepted, 6 its KEYS accepted and REGS to follow, 7 the CMDS list -/
  stage : Nat := 0
  /-- XO_IN was not recognised in this start-up (R545) -/
  xoMissed : Bool := false
  /-- the endpoint answers configuration requests (R549), and the Subsystem IDs, as the PCIE section's word -/
  cfgOpen : Bool := false
  subsys : Nat := 0
  /-- bytes of the accepted image -/
  image : List Nat := []
  /-- entries of the CMDS section not yet started, with their index: 17 words each (Table PWR-4); the one that runs, with its CONT; the
  tick from which the next one waits -/
  cmds : List (Nat × List Nat) := []
  cur : Option (Nat × Bool) := none
  waitFrom : Option Nat := none
  /-- `SYS_RELEASE` commands held until READY (R558) -/
  release : List CmdRef := []
  /-- CCLK ticks since the RTC last counted a second, as a share of its second divider (R542) -/
  rtcSub : Nat := 0
  deriving DecidableEq, Repr

/-- An entry of a quiet group's queue (R567): activity code, target, whether a periodic or temperature trigger queued it (R571), the
`MAINT_RUN` commands that complete with it (R568), the CCLK tick of its arrival, and whether FS 178 was raised for it. -/
structure SortEntry where
  act : Nat
  tgt : Nat
  sched : Bool
  cmds : List CmdRef
  tick : Nat
  warned : Bool := false
  deriving DecidableEq, Repr

/-- A self-test in progress (R579): target, command, CCLK tick of its start, and whether a take has cut it short (R580). -/
structure SelfTest where
  tgt : Nat
  ref : CmdRef
  tick : Nat
  cut : Bool
  deriving DecidableEq, Repr

/-- The Sorting office and the memories without a register (spec/18_maintenance_test.md). -/
structure SortSt where
  queues : List (List SortEntry) := List.replicate 11 []
  running : List (Option SortEntry) := List.replicate 11 none
  tests : List SelfTest := []
  /-- uncorrectable DRAM errors in this Ridge A second (R576) -/
  dramErrs : Nat := 0
  /-- beats of the present scrub pass of SRAM and of DRAM (R576) -/
  sramScrub : Nat := 0
  dramScrub : Nat := 0
  deriving DecidableEq, Repr

/-- The state of the block: everything the spec gives it, and the queue of waiting commands. -/
structure State where
  /-- commands waiting, first in, first out -/
  pending : List Instr
  /-- register fields that differ from their reset value: (key, value), keys strictly rising -/
  regs : List (Nat × Nat)
  /-- bytes of the table windows (Table REG-3) that differ from 0: (address, byte), addresses strictly rising -/
  mem : List Host.Cell
  /-- MODEL'S OWN: free values drawn so far (assumption 3) -/
  free : Nat
  /-- MODEL'S OWN: what the device has sent out of the block, oldest first (assumption 4) -/
  out : List Out
  /-- Noryr links -/
  nor : NorSt
  /-- fault collection unit -/
  fcu : FcuSt
  /-- completions of start-up commands not yet looked at (R556) -/
  bootCpl : List Cpl
  /-- host port and Letterbox -/
  host : HostSt
  /-- pin levels -/
  pins : Pins
  /-- addresses of the write-once registers written since their reset (R395, R498, R521) -/
  once : List Nat
  /-- Ridge time and the beat -/
  ridge : RidgeSt
  /-- edge measurement array -/
  tdc : TdcSt
  /-- the Thatch ensemble -/
  ens : EnsSt
  /-- values still in force of fields written since the last beat edge, for fields whose writes take effect at it: (key, value) -/
  was : List (Nat × Nat)
  /-- holdover, the Eaves bound and oscillator steering -/
  eaves : EavesSt
  /-- digital loops, analogue synthesis and outputs -/
  loop : LoopSt
  /-- GNSS receiver -/
  gnss : GnssSt
  /-- Ethernet port groups, Postmarks and timed launch -/
  eth : EthSt
  /-- slates -/
  slate : SlateSt
  /-- the Franking unit and NTP serving -/
  frank : FrankSt
  /-- the packet timing engine -/
  ptp : PtpSt
  /-- pair redundancy -/
  pair : PairSt
  /-- power domains and start-up -/
  pwr : PwrSt
  /-- the Sorting office and the DRAM -/
  sort : SortSt
  deriving DecidableEq, Repr

/-- The machine right after power-on reset, still held there (R536): every register at its reset value, nothing running. -/
def State.reset : State :=
  { pending := []
    regs := []
    mem := []
    free := 0
    out := []
    nor := {}
    fcu := {}
    bootCpl := []
    host := {}
    pins := {}
    once := []
    ridge := {}
    tdc := {}
    ens := {}
    was := []
    eaves := {}
    loop := {}
    gnss := {}
    eth := {}
    slate := {}
    frank := {}
    ptp := {}
    pair := {}
    pwr := {}
    sort := {} }

end Sys2Proof.Machine
end

