-- ==== Sys2Proof/Machine/Ops.lean ====
section
/-! DEFINITION. The named operations on registers, table windows, counters and outputs that every meaning is written with. -/
namespace Sys2Proof.Machine

/-! ### Sparse stores: lists of (key, value), keys strictly rising -/

/-- The value listed under `key`, if one is. -/
def kvGet : List (Nat × Nat) → Nat → Option Nat
  | [], _ => none
  | p :: t, key => if p.1 = key then some p.2 else kvGet t key

/-- `l` with `key` listed as `val`. -/
def kvPut : List (Nat × Nat) → Nat → Nat → List (Nat × Nat)
  | [], key, val => [(key, val)]
  | p :: t, key, val =>
    if key < p.1 then (key, val) :: p :: t
    else if p.1 = key then (key, val) :: t
    else p :: kvPut t key val

/-- `l` without `key`. -/
def kvDel : List (Nat × Nat) → Nat → List (Nat × Nat)
  | [], _ => []
  | p :: t, key => if p.1 = key then kvDel t key else p :: kvDel t key

/-! ### Register fields -/

/-- The reset value of field `f` at index `i`. -/
def Fld.rstAt (f : Fld) (i : Nat) : Nat :=
  match f.alt.find? (fun p => p.1 == i) with
  | some p => p.2
  | none => f.rst

/-- The key of field `f` at index `i` in the register store. -/
def Fld.key (f : Fld) (i : Nat) : Nat := i * 1024 + f.no

/-- The value of field `f` at index `i`. -/
def State.rd (s : State) (f : Fld) (i : Nat := 0) : Nat :=
  (kvGet s.regs (f.key i)).getD (f.rstAt i)

/-- The register store after field `f` at index `i` takes the value `v`, reduced to the field's width. -/
def regsPut (l : List (Nat × Nat)) (f : Fld) (i v : Nat) : List (Nat × Nat) :=
  let v' := v % 2 ^ f.w
  if v' = f.rstAt i then kvDel l (f.key i) else kvPut l (f.key i) v'

/-- The state after field `f` at index `i` takes the value `v`, reduced to the field's width. -/
def State.wr (s : State) (f : Fld) (v : Nat) (i : Nat := 0) : State :=
  { s with regs := regsPut s.regs f i v }

/-- Whether the one-bit field `f` at index `i` reads 1 (or any field is non-zero). -/
def State.on (s : State) (f : Fld) (i : Nat := 0) : Bool := s.rd f i != 0

/-- The signed value of field `f` at index `i`. -/
def State.rdS (s : State) (f : Fld) (i : Nat := 0) : Int := toS f.w (s.rd f i)

/-- Field `f` at index `i` takes the two's complement word of `v`. -/
def State.wrS (s : State) (f : Fld) (v : Int) (i : Nat := 0) : State := s.wr f (ofS f.w v) i

/-- Field `f` at index `i` takes the flag `b`. -/
def State.wrB (s : State) (f : Fld) (b : Bool) (i : Nat := 0) : State := s.wr f b.toNat i

/-- Field `f` at index `i` takes `v` saturated to the field's width. -/
def State.wrSat (s : State) (f : Fld) (v : Nat) (i : Nat := 0) : State := s.wr f (satU f.w v) i

/-- A saturating ST counter advances by `n` (R498). -/
def State.inc (s : State) (f : Fld) (i : Nat := 0) (n : Nat := 1) : State := s.wrSat f (s.rd f i + n) i

/-- A wrapping counter advances by 1. -/
def State.bump (s : State) (f : Fld) (i : Nat := 0) : State := s.wr f (s.rd f i + 1) i

/-- Field `f` returns to its reset value at index `i`. -/
def State.rst (s : State) (f : Fld) (i : Nat := 0) : State := { s with regs := kvDel s.regs (f.key i) }

/-- Field `f` returns to its reset value at each of the indices 0 to `n - 1`. -/
def State.rstAll (s : State) (f : Fld) (n : Nat) : State := (List.range n).foldl (fun s i => s.rst f i) s

/-- The fields `fs` return to their reset values at index `i`. -/
def State.rstFlds (s : State) (fs : List Fld) (i : Nat := 0) : State := fs.foldl (fun s f => s.rst f i) s

/-- `s` with the bit `b` of the mask field `f` set or cleared. -/
def State.wrBit (s : State) (f : Fld) (b : Nat) (v : Bool) (i : Nat := 0) : State :=
  s.wr f (setBit (s.rd f i) b v) i

/-! ### Table windows (Table REG-3) -/

/-- The byte at address `a` of a table window; a byte that nothing has written reads 0. -/
def memGet : List Host.Cell → Nat → Byte
  | [], _ => 0
  | c :: t, a => if c.1 = a then c.2 else memGet t a

/-- `m` with byte `v` at address `a`, in canonical form: addresses rising, no byte 0 listed. -/
def memPut : List Host.Cell → Nat → Byte → List Host.Cell
  | [], a, v => if v = 0 then [] else [(a, v)]
  | c :: t, a, v =>
    if a < c.1 then (if v = 0 then c :: t else (a, v) :: c :: t)
    else if c.1 = a then (if v = 0 then t else (a, v) :: t)
    else c :: memPut t a v

/-- Every listed address is above `lo` and the addresses rise strictly, and no listed byte is 0. -/
def memWfFrom : Option Nat → List Host.Cell → Bool
  | _, [] => true
  | lo, c :: t => (match lo with | none => true | some l => l < c.1) && c.2 != 0 && memWfFrom (some c.1) t

/-- The canonical form of the table windows' memory. -/
def Memory.wf (m : List Host.Cell) : Bool := memWfFrom none m

/-- `n` bytes from address `a`, little-endian. -/
def memRead (m : List Host.Cell) : Nat → Nat → Nat
  | _, 0 => 0
  | a, n + 1 => (memGet m a).toNat + 256 * memRead m (a + 1) n

/-- `m` with the `n` low bytes of `v` at address `a`, little-endian. -/
def memWrite (m : List Host.Cell) : Nat → Nat → Nat → List Host.Cell
  | _, 0, _ => m
  | a, n + 1, v => memPut (memWrite m (a + 1) n (v / 256)) a (BitVec.ofNat 8 v)

/-- `n` bytes of a table window from address `a`, little-endian. -/
def State.mrd (s : State) (a n : Nat) : Nat := memRead s.mem a n

/-- The state after the `n` low bytes of `v` are stored at address `a` of a table window, little-endian. -/
def State.mwr (s : State) (a n v : Nat) : State := { s with mem := memWrite s.mem a n v }

/-! ### Outputs, free values and lists -/

/-- The state after the device sends `o`. -/
def State.emit (s : State) (o : Out) : State := { s with out := s.out ++ [o] }

/-- The state after every member of `os` is sent, in order. -/
def State.emits (s : State) (os : List Out) : State := { s with out := s.out ++ os }

/-- The free value the next draw yields, and the state after the draw (assumption 3). -/
def State.draw (s : State) : Nat × State := (Config.freeValue s.free, { s with free := s.free + 1 })

/-- A signed field takes `q` rounded to its LSB; where `q` lies outside the field, the spec states no value and a free one is
taken. -/
def State.wrFit (s : State) (f : Fld) (q : Rat) (i : Nat := 0) : State :=
  let v := roundRat q
  if satS f.w v = v then s.wrS f v i else s.draw.2.wr f s.draw.1 i

/-- Field `f` takes a free value: the spec states none. -/
def State.wrFree (s : State) (f : Fld) (i : Nat := 0) : State := s.draw.2.wr f s.draw.1 i

/-- Every index below `n` for which `p` holds, in ascending order. -/
def idxs (n : Nat) (p : Nat → Bool) : List Nat := (List.range n).filter p

/-- `l` with every repeat of an earlier member dropped. -/
def dedup (l : List Nat) : List Nat := l.foldl (fun acc x => if acc.contains x then acc else acc ++ [x]) []

/-- `f` applied for each index below `n`, in ascending order. -/
def forN (n : Nat) (s : State) (f : State → Nat → State) : State := (List.range n).foldl f s

/-- The signed distance from count `now` to `target`, in ru (R13). -/
def ridgeDist (target now : Nat) : Int := toS 64 (target + two64 - now % two64)

/-! ### Fault occurrences (R512, R513) -/

/-- An event source is raised: one occurrence, and the source is live until the end of the next phase 3 that begins. -/
def State.raise (s : State) (fs : Nat) (snap : Nat := 0) : State :=
  { s with fcu := { s.fcu with
      occs := s.fcu.occs ++ [⟨fs, snap, false⟩]
      evts := s.fcu.evts ++ [⟨fs, snap, false⟩] } }

/-- A lasting condition of source `fs`, told apart by `snap`, begins: an occurrence when the source was not live. -/
def State.condOn (s : State) (fs : Nat) (snap : Nat := 0) : State :=
  if s.fcu.conds.any (fun c => c.fs == fs && c.snap == snap) then s else
  let live := s.fcu.conds.any (fun c => c.fs == fs)
  { s with fcu := { s.fcu with
      conds := s.fcu.conds ++ [⟨fs, snap, false⟩]
      occs := if live then s.fcu.occs else s.fcu.occs ++ [⟨fs, snap, false⟩] } }

/-- A lasting condition ends. -/
def State.condOff (s : State) (fs : Nat) (snap : Nat := 0) : State :=
  { s with fcu := { s.fcu with conds := s.fcu.conds.filter (fun c => !(c.fs == fs && c.snap == snap)) } }

/-- Every lasting condition of source `fs` ends. -/
def State.condEnd (s : State) (fs : Nat) : State :=
  { s with fcu := { s.fcu with conds := s.fcu.conds.filter (fun c => !(c.fs == fs)) } }

/-- A lasting condition begins or ends. -/
def State.cond (s : State) (fs : Nat) (b : Bool) (snap : Nat := 0) : State :=
  if b then s.condOn fs snap else s.condOff fs snap

/-- Source `fs` is live (R512). -/
def State.isLive (s : State) (fs : Nat) : Bool :=
  s.fcu.conds.any (fun c => c.fs == fs) || s.fcu.evts.any (fun c => c.fs == fs)

/-! ### Completion codes (Table HOST-4) -/

namespace Code
def ok : Nat := 0x00
def badOpcode : Nat := 0x10
def badParam : Nat := 0x11
def badAlign : Nat := 0x12
def badSize : Nat := 0x13
def cfgLocked : Nat := 0x20
def writeOnce : Nat := 0x21
def keyUnavailable : Nat := 0x30
def keyAttr : Nat := 0x31
def busyRetry : Nat := 0x40
def deferred : Nat := 0x41
def discardedFault : Nat := 0x50
def discardedReset : Nat := 0x51
def deviceTimeout : Nat := 0x60
def notTokenHolder : Nat := 0x70
end Code

end Sys2Proof.Machine
end

