-- ==== Sys2Proof/Machine/Crypto.lean ====
section
/-! DEFINITION. The algorithms of the Franking unit (Table NTS-7), on lists of bytes: AES, AES-CMAC, AES-SIV-CMAC-256, AES-GMAC,
SHA-256, HMAC-SHA-256 and the counter-mode KDF of R382. The spec names them by their standards; their arithmetic is taken from those
standards (assumption 14). -/
namespace Sys2Proof.Machine

/-- The number that the bytes `l` spell, most significant first. -/
def natOf (l : List Nat) : Nat := l.foldl (fun a b => a * 256 + b % 256) 0

/-- The low `n` bytes of `v`, most significant first. -/
def bytesOf : Nat → Nat → List Nat
  | 0, _ => []
  | n + 1, v => bytesOf n (v / 256) ++ [v % 256]

/-- Bytewise exclusive or, as long as the shorter list. -/
def xorBytes (a b : List Nat) : List Nat := (a.zip b).map (fun p => Nat.xor p.1 p.2)

/-! ### AES (FIPS 197) -/

/-- Doubling in GF(2^8). -/
def gfDouble (a : Nat) : Nat := if a < 128 then 2 * a else Nat.xor (2 * a) 0x11B

/-- The product of `a` and `b` in GF(2^8), over the low `n` bits of `b`. -/
def gfMulN : Nat → Nat → Nat → Nat
  | 0, _, _ => 0
  | n + 1, a, b => Nat.xor (if b % 2 = 1 then a else 0) (gfMulN n (gfDouble a) (b / 2))

def gfMul (a b : Nat) : Nat := gfMulN 8 a b

/-- The inverse in GF(2^8), 0 for 0: the power 254. -/
def gfInv (a : Nat) : Nat :=
  let a2 := gfMul a a
  let a4 := gfMul a2 a2
  let a8 := gfMul a4 a4
  let a16 := gfMul a8 a8
  let a32 := gfMul a16 a16
  let a64 := gfMul a32 a32
  let a128 := gfMul a64 a64
  gfMul a2 (gfMul a4 (gfMul a8 (gfMul a16 (gfMul a32 (gfMul a64 a128)))))

/-- `b` rotated left by `n` in 8 bits. -/
def rotl8 (b n : Nat) : Nat := b * 2 ^ n % 256 + b / 2 ^ (8 - n)

/-- The AES substitution box. -/
def aesSub (a : Nat) : Nat :=
  let b := gfInv a
  Nat.xor 0x63 (Nat.xor b (Nat.xor (rotl8 b 1) (Nat.xor (rotl8 b 2) (Nat.xor (rotl8 b 3) (rotl8 b 4)))))

/-- The round constant of round `n`, from 1. -/
def aesRcon : Nat → Nat
  | 0 => 0x8D
  | n + 1 => gfDouble (aesRcon n)

/-- The next word of the key schedule of a key of `nk` words, `w` holding the words so far, newest first. -/
def aesNextWord (nk : Nat) (w : List (List Nat)) : List Nat :=
  let i := w.length
  let t := w.headD []
  let t :=
    if i % nk = 0 then
      let r := (t.drop 1 ++ t.take 1).map aesSub
      xorBytes r [aesRcon (i / nk), 0, 0, 0]
    else if 6 < nk ∧ i % nk = 4 then t.map aesSub
    else t
  xorBytes (w.getD (nk - 1) []) t

/-- The key schedule extended by `n` words, newest first. -/
def aesExpand (nk : Nat) : Nat → List (List Nat) → List (List Nat)
  | 0, w => w
  | n + 1, w => aesExpand nk n (aesNextWord nk w :: w)

/-- `l` in pieces of `n`, at most `fuel` of them. -/
def chunks (n : Nat) : Nat → List Nat → List (List Nat)
  | 0, _ => []
  | fuel + 1, l => if l.isEmpty then [] else l.take n :: chunks n fuel (l.drop n)

/-- The round keys of a 16-byte or 32-byte key, 16 bytes each. -/
def aesRoundKeys (key : List Nat) : List (List Nat) :=
  let nk := key.length / 4
  let rounds := nk + 6
  let w := aesExpand nk (4 * (rounds + 1) - nk) (chunks 4 nk key).reverse
  chunks 16 (rounds + 1) w.reverse.flatten

/-- ShiftRows on a block of 16 bytes, column by column. -/
def aesShiftRows (b : List Nat) : List Nat := (List.range 16).map (fun i => b.getD ((i + 4 * (i % 4)) % 16) 0)

/-- MixColumns of one column. -/
def aesMixColumn (c : List Nat) : List Nat :=
  (List.range 4).map (fun r =>
    let x := fun i => c.getD ((r + i) % 4) 0
    Nat.xor (gfDouble (x 0)) (Nat.xor (Nat.xor (gfDouble (x 1)) (x 1)) (Nat.xor (x 2) (x 3))))

/-- The rounds after the first key addition; the last one has no MixColumns. -/
def aesRounds : List (List Nat) → List Nat → List Nat
  | [], b => b
  | k :: t, b =>
    let b := aesShiftRows (b.map aesSub)
    let b := if t.isEmpty then b else ((chunks 4 4 b).map aesMixColumn).flatten
    aesRounds t (xorBytes b k)

/-- One AES block under `key`. -/
def aesBlock (key block : List Nat) : List Nat :=
  match aesRoundKeys key with
  | [] => block
  | k :: t => aesRounds t (xorBytes block k)

/-- One AES block as a 128-bit number. -/
def aesNat (key : List Nat) (v : Nat) : Nat := natOf (aesBlock key (bytesOf 16 v))

/-! ### AES-CMAC (NIST SP 800-38B) -/

/-- Doubling in GF(2^128) as CMAC and SIV use it. -/
def dbl128 (v : Nat) : Nat := if v < 2 ^ 127 then 2 * v else Nat.xor (2 * v % 2 ^ 128) 0x87

/-- A last block short of 16 bytes, padded with a 1 bit and zeros. -/
def pad128 (l : List Nat) : Nat := natOf ((l ++ [0x80] ++ List.replicate 15 0).take 16)

/-- AES-CMAC of `msg` under `key`, as a 128-bit number. -/
def aesCmac (key msg : List Nat) : Nat :=
  let k1 := dbl128 (aesNat key 0)
  let blocks := chunks 16 (msg.length / 16 + 1) msg
  let last := blocks.getLastD []
  let x := blocks.dropLast.foldl (fun x b => aesNat key (Nat.xor x (natOf b))) 0
  let m := if last.length = 16 then Nat.xor (natOf last) k1 else Nat.xor (pad128 last) (dbl128 k1)
  aesNat key (Nat.xor x m)

/-! ### AES-SIV-CMAC-256 (RFC 5297): the key is 32 bytes -/

/-- S2V of the associated strings `ad` and the plaintext `p` under the 16-byte key `k`. -/
def s2v (k : List Nat) (ad : List (List Nat)) (p : List Nat) : Nat :=
  let d := ad.foldl (fun d a => Nat.xor (dbl128 d) (aesCmac k a)) (aesCmac k (bytesOf 16 0))
  if 16 ≤ p.length then
    let n := p.length - 16
    aesCmac k (p.take n ++ bytesOf 16 (Nat.xor (natOf (p.drop n)) d))
  else aesCmac k (bytesOf 16 (Nat.xor (dbl128 d) (pad128 p)))

/-- `data` under the counter stream of `key` from the counter block `v`. -/
def aesCtr (key : List Nat) (v : Nat) (data : List Nat) : List Nat :=
  ((chunks 16 (data.length / 16 + 1) data).zipIdx.map
    (fun q => xorBytes q.1 (bytesOf 16 (aesNat key ((v + q.2) % 2 ^ 128))))).flatten

/-- The counter block that the tag `v` starts: bits 63 and 31 cleared. -/
def sivCtr (v : Nat) : Nat := setBit (setBit v 63 false) 31 false

/-- SIV encryption: the tag, then the ciphertext. -/
def sivSeal (key : List Nat) (ad : List (List Nat)) (p : List Nat) : List Nat :=
  let v := s2v (key.take 16) ad p
  bytesOf 16 v ++ aesCtr (key.drop 16) (sivCtr v) p

/-- SIV decryption of a tag followed by a ciphertext; none when the tag does not match. -/
def sivOpen (key : List Nat) (ad : List (List Nat)) (c : List Nat) : Option (List Nat) :=
  let v := natOf (c.take 16)
  let p := aesCtr (key.drop 16) (sivCtr v) (c.drop 16)
  if s2v (key.take 16) ad p = v then some p else none

/-! ### AES-GMAC (NIST SP 800-38D) -/

/-- The product in GF(2^128) of GCM, over the bits of `y` from bit `n - 1` down. -/
def gcmMulN : Nat → Nat → Nat → Nat
  | 0, _, _ => 0
  | n + 1, v, y =>
    let v' := if v % 2 = 1 then Nat.xor (v / 2) (0xE1 * 2 ^ 120) else v / 2
    Nat.xor (if bit y n then v else 0) (gcmMulN n v' y)

/-- AES-GMAC of `msg` under `key` with a 12-byte IV. -/
def aesGmac (key iv msg : List Nat) : Nat :=
  let h := aesNat key 0
  let blocks := (chunks 16 (msg.length / 16 + 1) msg).map (fun b => natOf ((b ++ List.replicate 15 0).take 16))
  let g := (blocks ++ [msg.length * 8 * 2 ^ 64]).foldl (fun g b => gcmMulN 128 h (Nat.xor g b)) 0
  Nat.xor g (aesNat key (natOf iv * 2 ^ 32 + 1))

/-! ### SHA-256 (FIPS 180-4) and HMAC (FIPS 198-1) -/

/-- The round constants of SHA-256. -/
def shaK : List Nat :=
  [0x428a2f98, 0x71374491, 0xb5c0fbcf, 0xe9b5dba5, 0x3956c25b, 0x59f111f1, 0x923f82a4, 0xab1c5ed5, 0xd807aa98, 0x12835b01,
   0x243185be, 0x550c7dc3, 0x72be5d74, 0x80deb1fe, 0x9bdc06a7, 0xc19bf174] ++
  [0xe49b69c1, 0xefbe4786, 0x0fc19dc6, 0x240ca1cc, 0x2de92c6f, 0x4a7484aa, 0x5cb0a9dc, 0x76f988da, 0x983e5152, 0xa831c66d,
   0xb00327c8, 0xbf597fc7, 0xc6e00bf3, 0xd5a79147, 0x06ca6351, 0x14292967] ++
  [0x27b70a85, 0x2e1b2138, 0x4d2c6dfc, 0x53380d13, 0x650a7354, 0x766a0abb, 0x81c2c92e, 0x92722c85, 0xa2bfe8a1, 0xa81a664b,
   0xc24b8b70, 0xc76c51a3, 0xd192e819, 0xd6990624, 0xf40e3585, 0x106aa070] ++
  [0x19a4c116, 0x1e376c08, 0x2748774c, 0x34b0bcb5, 0x391c0cb3, 0x4ed8aa4a, 0x5b9cca4f, 0x682e6ff3, 0x748f82ee, 0x78a5636f,
   0x84c87814, 0x8cc70208, 0x90befffa, 0xa4506ceb, 0xbef9a3f7, 0xc67178f2]

/-- The initial hash value of SHA-256. -/
def shaInit : List Nat :=
  [0x6a09e667, 0xbb67ae85, 0x3c6ef372, 0xa54ff53a, 0x510e527f, 0x9b05688c, 0x1f83d9ab, 0x5be0cd19]

/-- `x` rotated right by `n` in 32 bits. -/
def rotr32 (x n : Nat) : Nat := x / 2 ^ n + x % 2 ^ n * 2 ^ (32 - n)

/-- The sum of `l` in 32 bits. -/
def add32 (l : List Nat) : Nat := l.sum % 2 ^ 32

/-- `n` more words of the message schedule, `w` holding the words so far, newest first. -/
def shaSchedule : Nat → List Nat → List Nat
  | 0, w => w
  | n + 1, w =>
    let a := w.getD 14 0
    let b := w.getD 1 0
    let s0 := Nat.xor (rotr32 a 7) (Nat.xor (rotr32 a 18) (a / 8))
    let s1 := Nat.xor (rotr32 b 17) (Nat.xor (rotr32 b 19) (b / 1024))
    shaSchedule n (add32 [w.getD 15 0, s0, w.getD 6 0, s1] :: w)

/-- One round of SHA-256 on the eight working words, with the round's constant and schedule word. -/
def shaRound (v : List Nat) (k w : Nat) : List Nat :=
  let x := fun i => v.getD i 0
  let s1 := Nat.xor (rotr32 (x 4) 6) (Nat.xor (rotr32 (x 4) 11) (rotr32 (x 4) 25))
  let ch := Nat.xor (Nat.land (x 4) (x 5)) (Nat.land (2 ^ 32 - 1 - x 4) (x 6))
  let t1 := add32 [x 7, s1, ch, k, w]
  let s0 := Nat.xor (rotr32 (x 0) 2) (Nat.xor (rotr32 (x 0) 13) (rotr32 (x 0) 22))
  let maj := Nat.xor (Nat.land (x 0) (x 1)) (Nat.xor (Nat.land (x 0) (x 2)) (Nat.land (x 1) (x 2)))
  [add32 [t1, s0, maj], x 0, x 1, x 2, add32 [x 3, t1], x 4, x 5, x 6]

/-- The hash value after one 64-byte block. -/
def shaBlock (h : List Nat) (block : List Nat) : List Nat :=
  let w := (shaSchedule 48 ((chunks 4 16 block).map natOf).reverse).reverse
  let v := (shaK.zip w).foldl (fun v q => shaRound v q.1 q.2) h
  (h.zip v).map (fun q => add32 [q.1, q.2])

/-- SHA-256 of `msg`: 32 bytes. -/
def sha256 (msg : List Nat) : List Nat :=
  let n := msg.length
  let m := msg ++ [0x80] ++ List.replicate ((119 - n % 64) % 64) 0 ++ bytesOf 8 (8 * n)
  (((chunks 64 (n / 64 + 2) m).foldl shaBlock shaInit).map (bytesOf 4)).flatten

/-- HMAC-SHA-256 of `msg` under `key`: 32 bytes. -/
def hmacSha256 (key msg : List Nat) : List Nat :=
  let k := if 64 < key.length then sha256 key else key
  let k := k ++ List.replicate (64 - k.length) 0
  sha256 (k.map (Nat.xor 0x5C) ++ sha256 (k.map (Nat.xor 0x36) ++ msg))

/-! ### Derivation (R382, Table SLATE-3) -/

/-- The key of `n` bytes that `parent` gives under PRF `prf` (0 AES-CMAC-256, 1 HMAC-SHA-256) with this label, context and attribute
byte. -/
def kdf (prf : Nat) (parent label context : List Nat) (attr n : Nat) : List Nat :=
  let input := fun i => bytesOf 4 i ++ label ++ [0] ++ context ++ [attr] ++ bytesOf 4 (8 * n)
  let out := fun i => if prf = 0 then bytesOf 16 (aesCmac parent (input i)) else hmacSha256 parent (input i)
  ((List.range ((n + 15) / 16)).map (fun i => out (i + 1))).flatten.take n

end Sys2Proof.Machine
end

