-- ==== Sys2Proof/Machine/PairKey.lean ====
section
/-! DEFINITION. The cells of the slates as keys (spec/11_slates.md), and the two keys of the pair link (spec/14_pair_redundancy.md). -/
namespace Sys2Proof.Machine

namespace Usage
def none : Nat := 0
def cookie : Nat := 1
def ptp : Nat := 2
def pair : Nat := 3
def image : Nat := 4
def derive : Nat := 5
end Usage

/-! ### Cells and attribute words -/

/-- The banks of slate `n`. -/
def State.cells (s : State) (n : Nat) : SlateBank × SlateBank := s.slate.cells.getD n ({}, {})

/-- Bank `b` of slate `n`. -/
def State.bank (s : State) (n b : Nat) : SlateBank := if b = 0 then (s.cells n).1 else (s.cells n).2

/-- Bank `b` of slate `n` becomes `x`. -/
def State.setBank (s : State) (n b : Nat) (x : SlateBank) : State :=
  let c := s.cells n
  { s with slate := { s.slate with cells := s.slate.cells.set n (if b = 0 then (x, c.2) else (c.1, x)) } }

/-- The active bank of slate `n` (COMMIT). -/
def State.activeBank (s : State) (n : Nat) : Nat := s.rd F.SLATE_ATTR_COMMIT n

/-- The bytes of a key of length code `klen` (1 for 256 bits). -/
def keyLen (klen : Bool) : Nat := if klen then 32 else 16

/-- The key that bank `b` of slate `n` holds, as bytes (R385). -/
def State.bankKey (s : State) (n b : Nat) : List Nat :=
  bytesOf (keyLen (s.on F.SLATE_ATTR_KLEN n)) (Nat.xor (s.bank n b).s0 (s.bank n b).s1)

/-- The key in force of slate `n`. -/
def State.slateKey (s : State) (n : Nat) : List Nat := s.bankKey n (s.activeBank n)

/-- Slate `n` holds a key and is no orphan. -/
def State.slateAvail (s : State) (n : Nat) : Bool := s.on F.SLATE_ATTR_VALID n && !s.on F.SLATE_ATTR_ORPHAN n

/-- The code with which a use of slate `n` for `usage` with key length `klen` is met (R376). -/
def State.slateUse (s : State) (n usage : Nat) (klen : Bool) : Nat :=
  if !s.slateAvail n then Code.keyUnavailable
  else if s.rd F.SLATE_ATTR_USAGE n ≠ usage ∨ s.on F.SLATE_ATTR_KLEN n ≠ klen then Code.keyAttr
  else Code.ok

/-! ### The pair link (R464, R479) -/

/-- The pair slate can be used (R465, R376). -/
def State.pairKeyed (s : State) : Bool := s.slateUse (s.rd F.PAIR_CTL_SLATE) Usage.pair true == Code.ok

/-- A key derived from the pair slate under the label `label` (R464). -/
def State.pairKey (s : State) (label : List Nat) : List Nat := kdf 0 (s.slateKey (s.rd F.PAIR_CTL_SLATE)) label [] (Usage.pair * 2 + 1) 32

/-- K_mac: the label "PAIR-MAC"; and K_wrap: the label "PAIR-WRAP". -/
def State.pairMac (s : State) : List Nat := s.pairKey [0x50, 0x41, 0x49, 0x52, 0x2D, 0x4D, 0x41, 0x43]
def State.pairWrap (s : State) : List Nat := s.pairKey [0x50, 0x41, 0x49, 0x52, 0x2D, 0x57, 0x52, 0x41, 0x50]

/-- The bytes of 32-bit words, each least significant byte first (R7). -/
def wordBytes (ws : List Nat) : List Nat :=
  ws.flatMap (fun w => [bits w 0 8, bits w 8 8, bits w 16 8, bits w 24 8])

/-- The `n` 32-bit words of bytes, least significant byte first; missing bytes are 0. -/
def bytesWords (n : Nat) (l : List Nat) : List Nat :=
  (List.range n).map (fun k => l.getD (4 * k) 0 % 256 + 256 * (l.getD (4 * k + 1) 0 % 256) + 65536 * (l.getD (4 * k + 2) 0 % 256) +
    16777216 * (l.getD (4 * k + 3) 0 % 256))

/-- The tag of a MIRROR frame, of its header and payload words up to the tag, under the IV epoch `iv` (R479). -/
def State.mirrorTag (s : State) (iv : Nat) (header payload : List Nat) : List Nat :=
  let ctr := payload.getD 1 0 + payload.getD 2 0 * 2 ^ 32
  bytesOf 16 (aesGmac s.pairMac (bytesOf 4 iv ++ bytesOf 8 ctr) (wordBytes (header ++ payload)))

end Sys2Proof.Machine
end

