-- ==== Sys2Proof/Machine/NorSend.lean ====
section
/-! DEFINITION. The transmit side of the Noryr links (spec/13_noryr_cascade.md): sequence numbers, credits, the replay buffer, and the order in which
frames leave. -/
namespace Sys2Proof.Machine

/-! ### The CRC-32 of IEEE 802.3 Clause 3.2.9 -/

/-- `n` bits of the CRC register `c`, least significant first. -/
def crcBits : Nat → Nat → Nat
  | 0, c => c
  | n + 1, c => crcBits n (if c % 2 = 1 then Nat.xor (c / 2) 0xEDB88320 else c / 2)

/-- The CRC-32 of the bytes `l`. -/
def crc32 (l : List Nat) : Nat := Nat.xor (l.foldl (fun c b => crcBits 8 (Nat.xor c (b % 256))) 0xFFFFFFFF) 0xFFFFFFFF

/-! ### Frames (Tables NOR-2 and NOR-3) -/

namespace NorT
def cmd : Nat := 0
def cpl : Nat := 1
def evt : Nat := 2
def bufIn : Nat := 3
def bufOut : Nat := 4
def ts : Nat := 5
def addr : Nat := 6
def link : Nat := 7
def mirror : Nat := 8
end NorT

/-- The class of a frame type (Table NOR-3): 0 request, 1 response, 2 pair, 3 control. -/
def norClass (t : Nat) : Nat :=
  if t = NorT.cmd ∨ t = NorT.bufIn then 0
  else if t = NorT.cpl ∨ t = NorT.evt ∨ t = NorT.bufOut then 1
  else if t = NorT.mirror then 2
  else 3

/-- The port numbers of NOR_PORT_CTL. -/
def portNU : Nat := 4
def portNP : Nat := 5

/-- The header of a frame sent with sequence number `seq`. -/
def NorFrame.header (f : NorFrame) (seq : Nat) : List Nat :=
  [f.ftype % 16 * 2 ^ 28 + f.dst % 64 * 2 ^ 22 + f.src % 64 * 2 ^ 16 + f.payload.length % 128,
   seq % 4096 * 2 ^ 20 + f.tag % 1024 * 2 ^ 10]

/-- The words of a frame on the link: header, payload and CRC. -/
def NorFrame.words (f : NorFrame) (seq : Nat) : List Nat :=
  let ws := f.header seq ++ f.payload.map (fun w => w % 2 ^ 32)
  ws ++ [crc32 (wordBytes ws)]

/-- The credits that a frame takes (R443). -/
def NorFrame.cost (f : NorFrame) : Nat := ceilDiv (12 + 4 * f.payload.length) 64

/-! ### Ports -/

namespace NorS
def disabled : Nat := 0
def detect : Nat := 1
def train : Nat := 2
def cap : Nat := 3
def speed : Nat := 4
def active : Nat := 5
def n2 : Nat := 6
def stopping : Nat := 7
end NorS

/-- The state of port `q` (Table NOR-6). -/
def State.norState (s : State) (q : Nat) : Nat := s.rd F.NOR_PORT_STAT_STATE q

/-- Port `q` joins two devices: it is ACTIVE or in N2. -/
def State.norUp (s : State) (q : Nat) : Bool := s.norState q == NorS.active || s.norState q == NorS.n2

/-- Port `q` without a register. -/
def State.norPort (s : State) (q : Nat) : NorPort := s.nor.port.getD q {}

def State.setNorPort (s : State) (q : Nat) (x : NorPort) : State := { s with nor := { s.nor with port := s.nor.port.set q x } }

/-- Unused credits of class `c` at port `q`. -/
def NorPort.credit (x : NorPort) (c : Nat) : Nat := (x.grant.getD c 0 + 16384 - x.used.getD c 0) % 16384

/-- Credits of class `c` are returned to the partner of port `q` (R443): the cumulative count goes out as CRD. -/
def State.norReturn (s : State) (q c n : Nat) : State :=
  if 6 ≤ q then s else
  let x := s.norPort q
  let b := (x.back.getD c 0 + n) % 16384
  let s := s.setNorPort q { x with back := x.back.set c b }
  if s.norUp q then s.emit (.norSet q 0x38 (c * 64 + b / 256) (b % 256)) else s

/-- The place of source `src` in the round-robin order that starts after the source served last. -/
def rrPlace (last src : Nat) : Nat := (src + 6 - last) % 7

/-- The first of `l` whose class is `c`: for the response class the one whose source is due (R439). -/
def norPick (last c : Nat) (l : List (Nat × NorFrame)) : Option (Nat × NorFrame) :=
  let l := l.filter (fun w => norClass w.2.ftype == c)
  if c != 1 then l.head?
  else (List.range 7).findSome? (fun k => l.find? (fun w => rrPlace last w.1 == k))

/-- The next frame that port `x` may send (R439, R441, R443): classes in the order control, pair, response, request. -/
def NorPort.next (x : NorPort) : Option (Nat × NorFrame) :=
  [3, 2, 1, 0].findSome? (fun c =>
    match norPick x.last c x.waiting with
    | some w => if w.2.cost ≤ x.credit c then some w else none
    | none => none)

/-- A MIRROR frame receives its tag when its header is known: the last four words of its payload (R479). -/
def State.sealFrame (s : State) (seq : Nat) (f : NorFrame) : NorFrame :=
  if f.ftype ≠ NorT.mirror then f else
  let p := f.payload.take (f.payload.length - 4)
  { f with payload := p ++ bytesWords 4 (s.mirrorTag s.pair.iv (f.header seq) p) }

/-- One frame leaves port `q`. -/
def State.norOut (s : State) (q : Nat) (w0 : Nat × NorFrame) : State :=
  let x := s.norPort q
  let w := (w0.1, s.sealFrame x.seq w0.2)
  let c := norClass w.2.ftype
  let s := s.setNorPort q { x with
    seq := (x.seq + 1) % 4096
    replay := x.replay ++ [(x.seq, w.2)]
    waiting := x.waiting.erase w0
    used := x.used.set c ((x.used.getD c 0 + w.2.cost) % 16384)
    last := if c = 1 then w.1 else x.last }
  (s.emit (.norFrame q (w.2.words x.seq))).norReturn w.1 c w.2.cost

/-- Port `q` sends what it may: ACTIVE, its transmit direction awake, room in the replay buffer, and credits. -/
def State.norPump : Nat → State → Nat → State
  | 0, s, _ => s
  | fuel + 1, s, q =>
    let x := s.norPort q
    if s.norState q ≠ NorS.active ∨ s.on F.NOR_PORT_STAT_TX_N1 q ∨ 64 ≤ x.replay.length then s else
    match x.next with
    | some w => State.norPump fuel (s.norOut q w) q
    | none => s

/-- A frame that came in on port `src` (6: this device's own) is given to port `q`. -/
def State.norQueue (s : State) (q src : Nat) (f : NorFrame) : State :=
  let x := s.norPort q
  State.norPump 64 (s.setNorPort q { x with waiting := x.waiting ++ [(src, f)] }) q

/-- A frame is dropped at port `q`: counted, and FS 164 raised (R440, R458). -/
def State.norDrop (s : State) (q : Nat) : State := (s.inc F.NOR_PORT_CNT2_DROPPED q).raise 164

/-- A frame goes up towards DN 0 from port `src` (6: this device), or is dropped when the device is cut off (R458). -/
def State.norUpward (s : State) (src : Nat) (f : NorFrame) : State :=
  if s.norUp portNU then s.norQueue portNU src f else (s.norDrop portNU).norReturn src (norClass f.ftype) f.cost

/-- A frame of this device towards the root. -/
def State.norOwn (s : State) (t tag : Nat) (payload : List Nat) : State :=
  s.norUpward 6 ⟨t, 0, s.rd F.NOR_STAT_DN, tag, payload⟩

/-- `ws` in BUF frames of at most 64 words, each behind its byte offset, which starts at `o`. -/
def bufPayloads : Nat → Nat → List Nat → List (List Nat)
  | 0, _, _ => []
  | fuel + 1, o, ws => if ws.isEmpty then [] else (o :: ws.take 64) :: bufPayloads fuel (o + 256) (ws.drop 64)

/-- The output of a command goes to the root in BUF_OUT frames (R444). -/
def State.norOutput (s : State) (tag : Nat) (ws : List Nat) : State :=
  (bufPayloads (ws.length + 1) 0 ws).foldl (fun s p => s.norOwn NorT.bufOut tag p) s

end Sys2Proof.Machine
end

