-- ==== Sys2Proof/Machine/Mirror.lean ====
section
/-! DEFINITION. What the holder of a pair's token sends over NP (spec/14_pair_redundancy.md): MIRROR frames and the entries of key
changes, commands and sessions. -/
namespace Sys2Proof.Machine

/-- The member holds the token. -/
def State.holds (s : State) : Bool := s.on F.PAIR_STAT_HOLDER

/-- MIRROR frames can be sent: the pair runs, its key can be used, and NP joins the members (R465). -/
def State.mirrors (s : State) : Bool := s.rd F.PAIR_STAT_STATE != 0 && s.rd F.PAIR_STAT_STATE != 6 && s.pairKeyed && s.norUp portNP

/-- A MIRROR frame of kind `kind` with the words `body` (Table PAIR-4). -/
def State.mirrorFrame (s : State) (kind : Nat) (body : List Nat) : State :=
  if !s.mirrors then s else
  let c := s.pair.ctr
  let w0 := kind % 16 * 2 ^ 28 + s.rd F.RIDGE_BEAT_SEQ_SEQ % 2 ^ 20
  let f : NorFrame := ⟨NorT.mirror, 0, 0, 0, [w0, c % 2 ^ 32, c / 2 ^ 32 % 2 ^ 32] ++ body ++ [0, 0, 0, 0]⟩
  ({ s with pair := { s.pair with ctr := c + 1, sent := s.pair.sent + 1 } }).norQueue portNP 6 f

/-- BSEQ of the next beat edge, or with `sec` of the next one at which the beat number is 0. -/
def State.edgeBeat (s : State) (sec : Bool) : Nat :=
  let n := s.rd F.RIDGE_BEAT_SEQ_SEQ
  (if sec then n + 1024 - s.rd F.RIDGE_STAT_BEAT_NUM else n + 1) % 2 ^ 20

/-- The holder sends a CMD entry for a command that it has accepted (R480). -/
def State.mirrorCmd (s : State) (opcode edge : Nat) (p : List Nat) : State :=
  if !s.holds then s else s.mirrorFrame 5 ([opcode, edge] ++ (List.range 4).map (fun k => p.getD k 0 % 2 ^ 32))

/-- The holder sends a SLATE entry: the attribute word `attr`, and for a commit the wrapped key (R464, R480). -/
def State.mirrorSlate (s : State) (n : Nat) (inval : Bool) (edge attr : Nat) (key : List Nat) : State :=
  if !s.holds then s else
  let head := [n + inval.toNat * 256, edge, attr]
  let sealed := if inval then [] else sivSeal s.pairWrap [wordBytes head] key
  s.mirrorFrame 4 (head ++ bytesWords 12 sealed)

/-- Session record `n` is created, changed or freed: the holder sends it in this beat (R480). -/
def State.noteSess (s : State) (n : Nat) : State :=
  if !s.holds ∨ s.pair.sess.contains n then s else { s with pair := { s.pair with sess := s.pair.sess ++ [n] } }

end Sys2Proof.Machine
end

