-- ==== Sys2Proof/Machine/Letter.lean ====
section
/-! DEFINITION. The Letterbox's shared operations (spec/12_host_letterbox.md): ring pointers, completions, events and MSI-X. -/
namespace Sys2Proof.Machine

/-! ### Ring pointers (R86, R406): the index in the low bits, the wrap bit in bit `wb` -/

/-- The entry index of pointer `p` in a ring of 2^n entries. -/
def ptrIdx (n p : Nat) : Nat := p % 2 ^ n

/-- Entries between head `h` and tail `t` of a ring of 2^n entries whose wrap bit is bit `wb`. -/
def ptrUsed (n wb h t : Nat) : Nat :=
  if bit h wb = bit t wb then ptrIdx n t - ptrIdx n h else 2 ^ n + ptrIdx n t - ptrIdx n h

/-- Whether moving the tail to `t` keeps the ring within 2^n entries, with the bits between index and wrap bit at 0 (R406). -/
def ptrOk (n wb h t : Nat) : Bool :=
  t % 2 ^ wb < 2 ^ n && t < 2 ^ (wb + 1) &&
  (if bit h wb = bit t wb then ptrIdx n h ≤ ptrIdx n t else ptrIdx n t ≤ ptrIdx n h)

/-- The pointer after `p`: the wrap bit toggles at the end of the ring. -/
def ptrNext (n wb p : Nat) : Nat :=
  if ptrIdx n p + 1 = 2 ^ n then (if bit p wb then 0 else 2 ^ wb)
  else p + 1

/-- The PHASE bit of the record written at tail `p` (R408): 1 on the first pass, toggling at each wrap. -/
def ptrPhase (p : Nat) : Nat := if bit p 12 then 0 else 1

/-! ### Events (R410) -/

/-- An event is dropped: counted, and FS 155 raised (R410). -/
def State.dropEvent (s : State) : State :=
  let s := { s with host := { s.host with lost := s.host.lost + 1 } }
  (s.inc F.HOST_EVT_LOST_COUNT).raise 155

/-- The 32-byte event record of Table HOST-8, as eight words. -/
def eventWords (phase info dn code lost seq count : Nat) (payload : List Nat) : List Nat :=
  [phase * 2 ^ 31 + info % 256 * 2 ^ 22 + dn % 64 * 2 ^ 16 + code % 2 ^ 16,
   satU 16 lost * 2 ^ 16 + seq % 2 ^ 16, count % 2 ^ 32, count / 2 ^ 32 % 2 ^ 32] ++
  (List.range 4).map (fun k => payload.getD k 0 % 2 ^ 32)

/-- An event record is written to the event ring, or dropped when the ring is full or disabled (R410). -/
def State.writeEvent (s : State) (dn code info count seq : Nat) (payload : List Nat) : State :=
  let n := s.rd F.HOST_RING_SIZE_EVT
  let h := s.rd F.HOST_EVT_HEAD_PTR
  let t := s.rd F.HOST_EVT_TAIL_PTR
  if !s.host.running || ptrUsed n 12 h t ≥ 2 ^ n then s.dropEvent
  else
    let ws := eventWords (ptrPhase t) info dn code s.host.lost seq count payload
    let a := s.rd F.HOST_EVT_BASE_BASE * 4096 + ptrIdx n t * 32
    let s := { s with host := { s.host with lost := 0 } }
    ((s.emit (.dma a ws)).wr F.HOST_EVT_TAIL_PTR (ptrNext n 12 t)).emit (.msix 1)

/-- The device raises an event (Table HOST-9): on the root it goes to the event ring, held in D3hot (R401); on another device
it goes to the root over Noryr. `count` is Ridge A's count of the event. -/
def State.event (s : State) (code info count : Nat) (payload : List Nat) : State :=
  let seq := s.host.evtSeq
  let s := { s with host := { s.host with evtSeq := (seq + 1) % 2 ^ 16 } }
  let dn := s.rd F.NOR_STAT_DN
  if dn != 0 then s.norOwn NorT.evt 0 (eventWords 0 info dn code 0 seq count payload)
  else if !s.on F.HOST_CTL_EVT_EN then s
  else if s.on F.HOST_STAT_D3HOT then
    { s with host := { s.host with heldEvents := s.host.heldEvents ++ [⟨dn, code, info, count, seq, payload⟩] } }
  else s.writeEvent dn code info count seq payload

/-- An event that carries Ridge A's present count. -/
def State.eventNow (s : State) (code info : Nat) (payload : List Nat) : State :=
  s.event code info (s.rd F.RIDGE_x_COUNT_COUNT 0) payload

/-! ### Completions (R408, R409, R411) -/

/-- The four words of a completion record (Table HOST-3). -/
def cplWords (phase : Nat) (c : Cpl) : List Nat :=
  [phase * 2 ^ 31 + c.interim.toNat * 2 ^ 27 + c.dmaErr.toNat * 2 ^ 26 + c.dup.toNat * 2 ^ 25 + c.code % 256 * 2 ^ 16 +
     c.ref.dn % 64 * 2 ^ 10 + c.ref.tag % 1024,
   c.r0 % 2 ^ 32, c.r1 % 2 ^ 32, c.outLen % 2 ^ 24]

/-- MSI-X vector 0 is sent once CPL_CNT completions are unsignalled, and at once when CPL_TIME is 0 (R411). -/
def State.signalCpl (s : State) : State :=
  let n := s.host.unsig + 1
  if s.rd F.HOST_IRQ_MOD_CPL_TIME = 0 || s.rd F.HOST_IRQ_MOD_CPL_CNT ≤ n then
    { s with host := { s.host with unsig := 0 } }.emit (.msix 0)
  else { s with host := { s.host with unsig := n } }

/-- The completion ring has no free slot (R409). -/
def State.cplFull (s : State) : Bool :=
  let n := s.rd F.HOST_RING_SIZE_CPL
  ptrUsed n 12 (s.rd F.HOST_CPL_HEAD_PTR) (s.rd F.HOST_CPL_TAIL_PTR) ≥ 2 ^ n

/-- A completion is written at HOST_CPL_TAIL (R408). -/
def State.writeCpl (s : State) (c : Cpl) : State :=
  let n := s.rd F.HOST_RING_SIZE_CPL
  let t := s.rd F.HOST_CPL_TAIL_PTR
  let a := s.rd F.HOST_CPL_BASE_BASE * 4096 + ptrIdx n t * 16
  ((s.emit (.dma a (cplWords (ptrPhase t) c))).wr F.HOST_CPL_TAIL_PTR (ptrNext n 12 t)).signalCpl

/-- A completion for the rings is written, or held while the ring is full, earlier ones are held, or in D3hot (R401, R409). -/
def State.ringCpl (s : State) (c : Cpl) : State :=
  if s.on F.HOST_STAT_D3HOT || !s.host.held.isEmpty || s.cplFull then
    let full := s.cplFull
    let s := ({ s with host := { s.host with held := s.host.held ++ [c] } }).wr F.HOST_STAT_CPL_HELD 1
    if full then s.raise 154 else s
  else s.writeCpl c

/-- A completion for the mailbox: the record is written, BUSY clears, DONE sets and vector 2 is sent (R411, R431). -/
def State.mbxCpl (s : State) (c : Cpl) : State :=
  let ws := cplWords 0 c
  let s := forN 4 s (fun s j => s.wr F.HOST_MBX_CPL_WORD (ws.getD j 0) j)
  let s := (s.wr F.HOST_MBX_CTL_BUSY 0).wr F.HOST_MBX_CTL_DONE 1
  if s.on F.HOST_STAT_D3HOT then s else s.emit (.msix 2)

/-- HOST_STAT.INFLIGHT follows the commands in flight from this port. -/
def State.showInflight (s : State) : State :=
  s.wrSat F.HOST_STAT_INFLIGHT
    (s.host.inflight.countP (fun e => e.ref.src == CmdSrc.ring || e.ref.src == CmdSrc.mailbox))

/-- A command completes. Its tag leaves flight unless the completion is interim (R414); a completion whose tag was dropped
is not written (R402, R418); the record goes where the command came from. -/
def State.complete (s : State) (c : Cpl) : State :=
  if s.host.dropped.contains c.ref then
    if c.interim then s
    else { s with host := { s.host with dropped := s.host.dropped.erase c.ref } }
  else
    let s := if c.interim || c.dup then s else
      { s with host := { s.host with inflight := s.host.inflight.filter (fun e => e.ref != c.ref) } }.showInflight
    match c.ref.src with
    | .ring => s.ringCpl c
    | .mailbox => if c.interim then s else s.mbxCpl c
    | .noryr => s.norOwn NorT.cpl c.ref.tag (cplWords 0 c)
    | .boot => if c.interim then s else { s with bootCpl := s.bootCpl ++ [c] }
    | .mirror => s

/-- The final completion of `r` with code `code` and results `r0`, `r1`, after `outLen` bytes written to its buffer. -/
def State.finish (s : State) (r : CmdRef) (code : Nat) (r0 : Nat := 0) (r1 : Nat := 0) (outLen : Nat := 0) : State :=
  match s.host.outFail with
  | some k => s.complete ⟨r, code, false, decide (k < outLen), false, r0, r1, min k outLen⟩
  | none => s.complete ⟨r, code, false, false, false, r0, r1, outLen⟩

/-- The interim DEFERRED completion of `r` (R414). -/
def State.defer (s : State) (r : CmdRef) : State :=
  s.complete ⟨r, Code.deferred, true, false, false, 0, 0, 0⟩

/-- The commands `rs` all complete with `code`, in order. -/
def State.finishAll (s : State) (rs : List CmdRef) (code : Nat) : State :=
  rs.foldl (fun s r => s.finish r code) s

/-- Where a command's output buffer goes: host memory, or the mailbox window for a mailbox command (R431). -/
def State.outBuf (s : State) (r : CmdRef) (bufAddr : Nat) (ws : List Nat) : State :=
  match r.src with
  | .mailbox => (ws.zipIdx).foldl (fun s p => s.mwr (bufAddr + 4 * p.2) 4 p.1) s
  | .noryr => s.norOutput r.tag ws
  | _ => s.emit (.dma bufAddr (match s.host.outFail with | some k => ws.take (k / 4) | none => ws))

/-- The member is the standby of a pair, where the commands of R35 and its kin answer NOT_TOKEN_HOLDER: the pair is enabled
and it does not hold the token. -/
def State.notHolder (s : State) : Bool := s.rd F.PAIR_STAT_STATE != 0 && !s.on F.PAIR_STAT_HOLDER

end Sys2Proof.Machine
end

