-- ==== Sys2Proof/Machine/LaunchQ.lean ====
section
/-! DEFINITION. The launch queues' slots (Table PM-5): their words, the queue's LV fields, and how an entry ends (R304, R306). -/
namespace Sys2Proof.Machine

namespace Lq
def sent : Nat := 1
def sentLate : Nat := 2
def dropped : Nat := 3
def rejected : Nat := 4
def cancelled : Nat := 5
end Lq

/-- The address of slot `k` of queue `g`. -/
def lqAddr (g k : Nat) : Nat := 0xD00000 + 0x10000 * g + 32 * k

/-- The 32-bit word at byte `o` of slot `k` of queue `g`. -/
def State.lqw (s : State) (g k o : Nat) : Nat := s.mrd (lqAddr g k + o) 4

/-- TARGET, LEN, port and CTL word of an entry. -/
def State.lqTarget (s : State) (g k : Nat) : Nat := s.mrd (lqAddr g k) 8
def State.lqLen (s : State) (g k : Nat) : Nat := bits (s.lqw g k 12) 0 14
def State.lqPort (s : State) (g k : Nat) : Nat := 4 * g + bits (s.lqw g k 12) 14 2
def State.lqCtl (s : State) (g k : Nat) : Nat := s.lqw g k 28
def State.lqDom (s : State) (g k : Nat) : Nat := bits (s.lqCtl g k) 28 1

/-- The CTL word of slot `k` of queue `g` becomes `w`. -/
def State.setLqCtl (s : State) (g k w : Nat) : State := s.mwr (lqAddr g k + 28) 4 w

/-- Slot `k` of queue `g` is armed; it is committed. -/
def State.isArmed (s : State) (g k : Nat) : Bool := s.eth.armed.contains (g, k)
def State.isCommitted (s : State) (g k : Nat) : Bool := s.eth.commits.any (fun c => c.group == g && c.slot == k)

/-- Of the armed entries `l`, the one with the earliest target, the lower slot on equal targets. -/
def State.earliest (s : State) : List (Nat × Nat) → Option (Nat × Nat)
  | [] => none
  | e :: t => some (t.foldl (fun m x =>
      let d := ridgeDist (s.lqTarget x.1 x.2) (s.lqTarget m.1 m.2)
      if d < 0 ∨ (d = 0 ∧ x.2 < m.2) then x else m) e)

/-- ARMED, NEXT and NEXT_VALID of queue `g`. -/
def State.showLq (s : State) (g : Nat) : State :=
  let l := s.eth.armed.filter (fun e => e.1 == g)
  let s := s.wr F.LQ_STAT_ARMED l.length g
  match s.earliest l with
  | some e => (s.wr F.LQ_STAT_NEXT e.2 g).wr F.LQ_STAT_NEXT_VALID 1 g
  | none => (s.wr F.LQ_STAT_NEXT 0 g).wr F.LQ_STAT_NEXT_VALID 0 g

/-- An entry ends with `result`: RESULT and DONE_DELTA are written, then VALID clears (R304). -/
def State.lqEnd (s : State) (g k result : Nat) (delta : Int) : State :=
  let s := s.mwr (lqAddr g k + 24) 4 (ofS 32 (satS 32 delta))
  let w := setBit (setBit (setBits (s.lqCtl g k) 24 3 result) 31 false) 27 false
  let s := s.setLqCtl g k w
  let s := { s with eth := { s.eth with
    armed := s.eth.armed.filter (fun e => e != (g, k))
    commits := s.eth.commits.filter (fun c => !(c.group == g && c.slot == k)) } }
  s.showLq g

/-- The commit of slot `k` of queue `g`. -/
def State.lqCommit (s : State) (g k : Nat) : Option Launch := s.eth.commits.find? (fun c => c.group == g && c.slot == k)

/-- On S3 or reset, every armed entry whose frame has not started is dropped without a Postmark (R306). -/
def State.launchAbort (s : State) : State :=
  let l := s.eth.armed.filter (fun e => !(match s.lqCommit e.1 e.2 with | some c => c.started | none => false))
  l.foldl (fun s e => (s.inc F.LQ_DROP_COUNT e.1).lqEnd e.1 e.2 Lq.dropped 0) s

end Sys2Proof.Machine
end

