-- ==== Sys2Proof/Machine/Token.lean ====
section
/-! DEFINITION. The token of a pair (spec/14_pair_redundancy.md): member states, the event of a take or a release, and the release. -/
namespace Sys2Proof.Machine

namespace PairS
def disabled : Nat := 0
def search : Nat := 1
def sync : Nat := 2
def standby : Nat := 3
def active : Nat := 4
def test : Nat := 5
def stopping : Nat := 6
end PairS

/-- The state of this member (Table PAIR-1). -/
def State.pairState (s : State) : Nat := s.rd F.PAIR_STAT_STATE

/-- This member's state becomes `st`; READY is set in STANDBY alone. -/
def State.pairMove (s : State) (st : Nat) : State := (s.wr F.PAIR_STAT_STATE st).wrB F.PAIR_STAT_READY (st == PairS.standby)

/-- Event 0x000B (Table PAIR-2), after a take or a release that led here from state `old`. -/
def State.pairEvent (s : State) (old cause : Nat) : State :=
  s.eventNow 0x000B (s.rd F.PAIR_STAT_HOLDER) [old + s.pairState * 16 + cause * 256, s.rd F.PAIR_EPOCH_EPOCH]

/-- The holder releases the token (R470): TOKEN is driven low, and it stops serving; its state becomes `st`. -/
def State.pairRelease (s : State) (cause st : Nat) : State :=
  if !s.holds then s else
  let old := s.pairState
  let s := (s.wr F.PAIR_STAT_HOLDER 0).wr F.PAIR_LEASE_OWN_LEFT 0
  let s := { s with pins := { s.pins with token := false } }
  (s.pairMove st).pairEvent old cause

/-- In SYNC, STANDBY and TEST the member steers its Ridges to the holder's (R472, R474). -/
def State.pairSteered (s : State) : Bool :=
  s.pairState == PairS.sync || s.pairState == PairS.standby || s.pairState == PairS.test

end Sys2Proof.Machine
end

