-- ==== Sys2Proof/Machine/Squelch.lean ====
section
/-! DEFINITION. The state codes of domains, loops and APLLs, and the squelch of the outputs (R203, R204), which many commands bring
up to date. An output is numbered CLKOUT i as i and PPSOUT j as 16 + j. -/
namespace Sys2Proof.Machine

namespace DomSt
def freeRun : Nat := 0
def acquiring : Nat := 1
def locked : Nat := 2
def holdover : Nat := 3
def lost : Nat := 4
end DomSt

namespace DpllSt
def disabled : Nat := 0
def freerun : Nat := 1
def acquire : Nat := 2
def locked : Nat := 3
def hold : Nat := 4
def stopping : Nat := 5
end DpllSt

namespace ApllSt
def off : Nat := 0
def wait : Nat := 1
def search : Nat := 2
def locking : Nat := 3
def locked : Nat := 4
def bypass : Nat := 5
def stopping : Nat := 6
end ApllSt

/-- The state code of domain `d`. -/
def State.domState (s : State) (d : Nat) : Nat :=
  if d = 0 then s.rd F.ENS_DOM_STAT_A_STATE else s.rd F.ENS_DOM_STAT_B_STATE

/-- The state code of loop `n`. -/
def State.dpllState (s : State) (n : Nat) : Nat := s.rd F.DPLL_STAT_STATE n

/-- The state code of APLL `m`. -/
def State.apllState (s : State) (m : Nat) : Nat := s.rd F.APLL_STAT_STATE m

/-- The source code of entry `e` of loop `n`. -/
def State.entrySrc (s : State) (n e : Nat) : Nat :=
  [s.rd F.DPLL_IN_SRC0 n, s.rd F.DPLL_IN_SRC1 n, s.rd F.DPLL_IN_SRC2 n, s.rd F.DPLL_IN_SRC3 n].getD e 0

/-- The entry names a domain. -/
def isDomainCode (c : Nat) : Bool := c == 62 || c == 63

/-- The domain that loop `n`'s active entry names, if it does. -/
def State.dpllDomain (s : State) (n : Nat) : Option Nat :=
  let c := s.entrySrc n (s.rd F.DPLL_STAT_ACTIVE n)
  if isDomainCode c then some (c - 62) else none

/-- The Ridge of domain `d` runs. -/
def State.outRidgeRuns (s : State) (d : Nat) : Bool := s.ridge.running && (d == 0 || s.on F.RIDGE_CTL_B_EN)

/-- Output `o` is enabled. -/
def State.outOn (s : State) (o : Nat) : Bool := if o < 16 then s.on F.OUT_CLK_CTL_EN o else s.on F.OUT_PPS_CTL_EN (o - 16)

/-- Output `o` runs. -/
def State.outRuns (s : State) (o : Nat) : Bool :=
  if o < 16 then s.on F.OUT_CLK_STAT_RUNNING o else s.on F.OUT_PPS_STAT_RUNNING (o - 16)

/-- Output `o` is squelched. -/
def State.outSq (s : State) (o : Nat) : Bool :=
  if o < 16 then s.on F.OUT_CLK_STAT_SQUELCHED o else s.on F.OUT_PPS_STAT_SQUELCHED (o - 16)

/-- The loop that steers clock output `i` through its APLL, if one does (R195). -/
def State.clkDpll (s : State) (i : Nat) : Option Nat :=
  let m := s.rd F.OUT_CLK_CTL_SRC i
  if 6 ≤ m then none else
  let n := s.rd F.APLL_CTL_DPLL_SEL m
  if 2 ≤ n then some n else none

/-- The domain that output `o` follows, if it follows one (Table LOOP-8). -/
def State.outDomain (s : State) (o : Nat) : Option Nat :=
  if o < 16 then
    match s.clkDpll o with
    | some n => s.dpllDomain n
    | none => none
  else some (s.rd F.OUT_PPS_CTL_DOM (o - 16))

/-! ### Squelch (R203, R204) -/

/-- A condition of output `o`'s SQ_MASK holds (Table LOOP-8). -/
def State.maskSquelch (s : State) (o : Nat) : Bool :=
  let mask := if o < 16 then s.rd F.OUT_CLK_CTL_SQ_MASK o else s.rd F.OUT_PPS_CTL_SQ_MASK (o - 16)
  let dom := match s.outDomain o with
    | some d =>
      let st := s.domState d
      (bit mask 0 && (st == DomSt.freeRun || st == DomSt.acquiring)) || (bit mask 1 && st == DomSt.holdover) ||
        (bit mask 2 && st == DomSt.lost) || (bit mask 3 && s.on F.EAVES_x_FLAGS_WITHHELD d)
    | none => false
  let clk := o < 16 &&
    ((bit mask 4 && s.rd F.OUT_CLK_CTL_SRC o < 6 && s.on F.APLL_STAT_BYPASS (s.rd F.OUT_CLK_CTL_SRC o)) ||
     (bit mask 5 && (match s.clkDpll o with
       | some n => s.dpllState n == DpllSt.hold || s.dpllState n == DpllSt.freerun
       | none => false)))
  dom || clk

/-- Another cause of R203 holds for output `o`: not released, S3 with S3_ACT = 0, or its APLL or Ridge stopped. -/
def State.otherSquelch (s : State) (o : Nat) : Bool :=
  let act := if o < 16 then s.on F.OUT_CLK_CTL_S3_ACT o else s.on F.OUT_PPS_CTL_S3_ACT (o - 16)
  let stopped :=
    if o < 16 then
      let m := s.rd F.OUT_CLK_CTL_SRC o
      m < 6 && (s.apllState m == ApllSt.off || s.apllState m == ApllSt.stopping)
    else !s.outRidgeRuns (s.rd F.OUT_PPS_CTL_DOM (o - 16))
  !s.on F.OUT_STAT_RELEASED || (s.on F.TOP_STAT_SAFE && !act) || stopped

/-- Output `o`'s squelch becomes `b`: counted when it starts, with FS 71 when a condition of its mask starts it (R204). -/
def State.setSquelch (s : State) (o : Nat) (b : Bool) : State :=
  if s.outSq o = b then s else
  let s := if o < 16 then s.wrB F.OUT_CLK_STAT_SQUELCHED b o else s.wrB F.OUT_PPS_STAT_SQUELCHED b (o - 16)
  let s := if o < 16 then s.wrBit F.OUT_STAT_CLK_SQ o b else s.wrBit F.OUT_STAT_PPS_SQ (o - 16) b
  if !b then s else
  let s := if o < 16 then s.inc F.OUT_CLK_STAT_SQ_CNT o else s.inc F.OUT_PPS_STAT_SQ_CNT (o - 16)
  if s.maskSquelch o && !s.otherSquelch o then s.raise 71 o else s

/-- Every output's squelch follows its conditions; only an enabled output is squelched (R203). -/
def State.evalSquelch (s : State) : State :=
  forN 24 s (fun s o => s.setSquelch o (s.outOn o && (s.maskSquelch o || s.otherSquelch o)))

end Sys2Proof.Machine
end

