-- ==== Sys2Proof/Machine/SafeState.lean ====
section
/-! DEFINITION. Work in flight at a fault or a reset (R306, R362, R424), and the entry into safe state (R524): the actions of requester 0
on an S3 occurrence. -/
namespace Sys2Proof.Machine

/-- The admitted answers that `p` holds of and that have not started are dropped: counted, with FS 133 each (R362). -/
def State.dropAnswers (s : State) (f : Answer → Bool) : State :=
  let l := s.frank.answers.filter f
  let s := { s with frank := { s.frank with answers := s.frank.answers.filter (fun a => !f a) } }
  l.foldl (fun s _ => (s.inc F.FRANK_CNT_DISC_COUNT).raise 133) s

/-! ### Commands accepted and not yet applied (R424) -/

/-- The command behind a message that waits for a UART. -/
def UartMsg.ref : UartMsg → Option CmdRef
  | .probe c => c
  | .raw c _ => some c
  | _ => none

/-- The command behind a session change. -/
def SessChange.ref : SessChange → CmdRef
  | .add c _ _ => c
  | .del c _ => c
  | .setSa c _ _ => c
  | .flush c _ _ => c

/-- The commands behind the entries of the quiet groups, waiting and running. A self-test that runs has visible effects, and its command
completes with its own code. -/
def SortSt.refs (x : SortSt) : List CmdRef :=
  (x.queues.flatten.map SortEntry.cmds).flatten ++ ((x.running.filterMap id).map SortEntry.cmds).flatten

/-- The commands that this device has accepted and whose effect is still to come. -/
def State.waitingRefs (s : State) : List CmdRef :=
  s.ridge.steps.map StepReq.ref ++ s.ridge.maps ++ s.ens.requal.map Prod.fst ++
  (s.loop.aligns.filter (fun a => !a.applied)).map AlignReq.ref ++ (s.eaves.osc.map (fun o => o.queue.filterMap UartMsg.ref)).flatten ++
  (s.loop.apll.map ApllSt.cmds).flatten ++ s.gnss.assigns.filterMap ChAssign.cmd ++ s.gnss.sleeps ++ s.gnss.wakes ++
  (s.eth.lane.map LaneSt.cmds).flatten ++ s.slate.changes.map SlateChange.ref ++ s.ptp.changes.map SessChange.ref ++
  s.frank.rots.map Rotation.ref ++ s.pair.force ++ (match s.pair.ho with | some h => h.ref.toList | none => []) ++ s.sort.refs ++ s.pwr.release

/-- An analogue loop, an oscillator, a lane and a quiet group's entry without their commands. -/
def ApllSt.bare (a : ApllSt) : ApllSt := { a with cmds := [] }
def OscSt.bare (o : OscSt) : OscSt := { o with queue := o.queue.filter (fun m => m.ref.isNone) }
def LaneSt.bare (l : LaneSt) : LaneSt := { l with cmds := [] }
def SortEntry.bare (e : SortEntry) : SortEntry := { e with cmds := [] }

/-- A queue without the entries that only commands have put there. -/
def queueBare (q : List SortEntry) : List SortEntry := (q.filter (fun e => e.sched || e.cmds.isEmpty)).map SortEntry.bare

/-- What was accepted and not applied is forgotten: it has no effect (R424). An activity that already runs goes on without its
commands, and one that only commands had queued leaves its queue. -/
def State.dropWaiting (s : State) : State :=
  let s := { s with ridge := { s.ridge with
    steps := []
    maps := []
    mapStaged := s.ridge.mapStaged && s.ridge.maps.isEmpty } }
  let s := { s with ens := { s.ens with requal := [] } }
  let s := { s with loop := { s.loop with
    aligns := s.loop.aligns.filter (fun a => a.applied)
    apll := s.loop.apll.map ApllSt.bare } }
  let s := { s with eaves := { s.eaves with
    osc := s.eaves.osc.map OscSt.bare } }
  let s := { s with gnss := { s.gnss with
    assigns := s.gnss.assigns.filter (fun a => a.cmd.isNone)
    sleeps := []
    wakes := [] } }
  let s := { s with eth := { s.eth with lane := s.eth.lane.map LaneSt.bare } }
  let s := { s with slate := { s.slate with changes := [] } }
  let s := { s with ptp := { s.ptp with changes := [] } }
  let s := { s with frank := { s.frank with rots := [] } }
  let s := { s with pair := { s.pair with force := [], ho := none } }
  let s := { s with sort := { s.sort with
    queues := s.sort.queues.map queueBare
    running := s.sort.running.map (Option.map SortEntry.bare) } }
  { s with pwr := { s.pwr with release := [] } }

/-- The LV fields that show waiting work: SLATE_PEND, OUT_STAT.ALIGN_BUSY and the depths of the quiet groups. -/
def State.showDropped (s : State) : State :=
  let s := (s.rstAll F.SLATE_PEND_PEND 8).wr F.SLATE_STAT_PENDING 0
  let s := s.wrB F.OUT_STAT_ALIGN_BUSY (!s.loop.aligns.isEmpty)
  forN 11 s (fun s q =>
    let l := s.sort.queues.getD q []
    (s.wr F.SORT_GRP_DEPTH l.length q).wrBit F.SORT_STAT_WAITING q (!l.isEmpty))

/-- A `TIME_MAP` that is discarded leaves RIDGE_CLASS_MAP at the map in force. -/
def State.undoMap (s : State) : State :=
  if s.ridge.maps.isEmpty then s else s.wr F.RIDGE_CLASS_MAP_MAP (s.rd F.RIDGE_CLASS_ACT_MAP)

/-- Each reference once. -/
def dedupRefs (l : List CmdRef) : List CmdRef := l.foldl (fun acc x => if acc.contains x then acc else acc ++ [x]) []

/-- The commands whose effect has become visible and which have not completed: an alignment that slews, an invalidation whose cells are
being zeroised (R392), a self-test that runs. -/
def State.appliedRefs (s : State) : List CmdRef :=
  (s.loop.aligns.filter (fun a => a.applied)).map AlignReq.ref ++ s.slate.zero.filterMap Zeroise.ref ++ s.sort.tests.map SelfTest.ref

/-- The commands for this device in flight and not yet applied complete with `code` and have no effect (R424); each discard is
counted in HOST_CNT_DISC. `keep` is not among them. -/
def State.discardCommands (s : State) (code : Nat) (keep : Option CmdRef) : State :=
  let own := (s.host.inflight.filter (fun e => e.ref.dn == s.rd F.NOR_STAT_DN)).map InFlight.ref
  let applied := s.appliedRefs
  let l := (dedupRefs (own ++ s.waitingRefs)).filter (fun r => !(keep == some r) && !applied.contains r)
  let s := s.undoMap.dropWaiting.showDropped
  l.foldl (fun s r => (s.finish r code).inc F.HOST_CNT_DISC_COUNT) s

/-! ### Safe state (R524) -/

/-- Safe state is entered; `seq` is the sequence number of the S3 occurrence's record, 0 when it has none (R524).
While it lasts a further S3 occurrence changes nothing (R525). -/
def State.enterSafe (s : State) (seq : Nat) : State :=
  if s.on F.TOP_STAT_SAFE then s else
  let s := (s.wr F.TOP_STAT_SAFE 1).wr F.FCU_STAT_SAFE 1
  let s := if s.rd F.FCU_SAFE_SEQ_SEQ = 0 then s.wr F.FCU_SAFE_SEQ_SEQ seq else s
  let s := s.pairRelease 6 PairS.search
  let s := s.evalSquelch
  let s := (s.dropAnswers (fun _ => true)).launchAbort
  s.discardCommands Code.discardedFault none

end Sys2Proof.Machine
end

