-- ==== Sys2Proof/Machine/Fcu.lean ====
section
/-! DEFINITION. The fault collection unit (spec/16_faults.md): severities, counts, first-cause records, pins, and the settling
of a tick's occurrences that ends every command. -/
namespace Sys2Proof.Machine

/-- The severity applied to source `fs`: FS 232 to 234 are fixed at S3 (R521), an escalated source is raised by one and never
past S2 (R523). -/
def State.sevOf (s : State) (fs : Nat) : Nat :=
  if 232 ≤ fs ∧ fs ≤ 234 then 3 else
  let c := s.rd F.FCU_CFG_SEV fs
  if c < 2 ∧ s.fcu.escal.any (fun p => p.1 == fs) then c + 1 else c

/-- The severity under which the live source `fs` is judged: until the beat edge after a write of its configuration byte, the one
before the write (R520). -/
def State.liveSev (s : State) (fs : Nat) : Nat :=
  match s.fcu.rejudge.find? (fun p => p.1 == fs) with
  | some p => p.2
  | none => s.sevOf fs

/-- The greatest of `l`, 0 when it is empty. -/
def maxOf (l : List Nat) : Nat := l.foldl max 0

/-- The slots that hold a valid record. -/
def State.validRecs (s : State) : List Nat := idxs 64 (fun k => s.on F.FCU_REC_W0_VALID k)

/-- The lowest free slot a record of severity `sev` may use: slots 56 to 63 take only S2 and S3 (R513). -/
def State.freeSlot (s : State) (sev : Nat) : Option Nat :=
  (List.range (if 2 ≤ sev then 64 else 56)).find? (fun k => !s.on F.FCU_REC_W0_VALID k)

/-- The sequence number after `q`, skipping 0 (R514). -/
def nextSeq (q : Nat) : Nat := if (q + 1) % 2 ^ 32 = 0 then 1 else (q + 1) % 2 ^ 32

/-- SEQ of the newest valid record, 0 when there is none (Table FCU-3): the one written last, which is the one whose number
lies least far behind FCU_SEQ. -/
def State.newestSeq (s : State) : Nat :=
  let q := s.rd F.FCU_SEQ_SEQ
  let back := fun k => (q + 2 ^ 32 - s.rd F.FCU_REC_SEQ_SEQ k) % 2 ^ 32
  match s.validRecs with
  | [] => 0
  | k :: t => s.rd F.FCU_REC_SEQ_SEQ (t.foldl (fun m j => if back j < back m then j else m) k)

/-- The sources whose chapter states a snapshot word; for another source the spec states no value of SNAP. -/
def statedSnaps : List Nat :=
  [0, 1, 2, 3, 4, 5, 6, 12, 16, 17, 18, 19, 20, 21, 22, 23, 24, 32, 43, 48, 49, 50, 53, 54, 55, 57, 65, 67, 68, 71, 80, 81, 82, 83,
   84, 85, 96, 97, 100, 102, 103, 107, 112, 113, 117] ++
  [120, 121, 122, 123, 124, 125, 126, 127, 128, 129, 131, 134, 136, 144, 145, 146, 147, 149, 157, 158, 160, 161, 163, 169,
   176, 177, 179, 211, 218, 219, 221, 225, 226, 228, 234]

/-- The snapshot word of an occurrence's record: the stated one, or a free value. -/
def State.snapWord (s : State) (fs snap : Nat) (forced : Bool) : Nat × State :=
  if forced || statedSnaps.contains fs then (snap, s) else s.draw

/-- A record is written in slot `k` (R513 to R515): its words, the pending bit, FCU_SEQ, and event 0x0001 when EVT = 1. -/
def State.writeRec (s : State) (k fs sev snap : Nat) (forced escal : Bool) : State :=
  let prior := s.newestSeq
  let sw := s.snapWord fs snap forced
  let snap := sw.1
  let s := sw.2
  let q := nextSeq (s.rd F.FCU_SEQ_SEQ)
  let cnt := s.rd F.RIDGE_x_COUNT_COUNT 0
  let s := s.wr F.FCU_REC_W0_VALID 1 k
  let s := s.wrB F.FCU_REC_W0_FORCED forced k
  let s := s.wrB F.FCU_REC_W0_ESCALATED escal k
  let s := s.wr F.FCU_REC_W0_SEV sev k
  let s := s.wr F.FCU_REC_W0_SRC fs k
  let s := s.wr F.FCU_REC_SEQ_SEQ q k
  let s := s.wr F.FCU_REC_BEAT_BEAT (s.rd F.RIDGE_BEAT_SEQ_SEQ) k
  let s := s.wr F.FCU_REC_SNAP_SNAP snap k
  let s := s.wr F.FCU_REC_COUNT_COUNT cnt k
  let s := s.wr F.FCU_REC_PRIOR_PRIOR prior k
  let s := s.wr F.FCU_PEND_BIT 1 fs
  let s := (s.wr F.FCU_SEQ_SEQ q).wr F.FCU_STAT_LAST_SRC fs
  if s.on F.FCU_CFG_EVT fs then s.event 0x0001 sev cnt [fs, q, snap, 0] else s

/-- A record is written when a slot is free for it; otherwise the occurrence is counted in FCU_OVF.NOREC (R513). -/
def State.tryRec (s : State) (fs sev snap : Nat) (forced escal : Bool) : State :=
  match s.freeSlot sev with
  | some k => s.writeRec k fs sev snap forced escal
  | none => s.inc F.FCU_OVF_NOREC

/-- One occurrence is counted (R513, R523); it is judged under the configuration byte as it stands (R520). A reserved source is never counted (R511). -/
def State.countOcc (s : State) (o : Occ) : State :=
  let s := s.inc F.FCU_CNT_COUNT o.fs
  { s with fcu := { s.fcu with
      secCnt := kvPut s.fcu.secCnt o.fs ((kvGet s.fcu.secCnt o.fs).getD 0 + 1)
      rejudge := s.fcu.rejudge.filter (fun p => p.1 != o.fs) } }

/-- A self-fault of the FCU: no record slot; FCU_SELF keeps the first one (R533). -/
def State.selfFault (s : State) (fs : Nat) : State :=
  if s.on F.FCU_SELF_VALID then s else (s.wr F.FCU_SELF_VALID 1).wr F.FCU_SELF_SRC fs

/-- The record and the safe state of one occurrence; `pend` says whether the source's pending bit stood before the tick (R514). -/
def State.recordOcc (pend : Nat → Bool) (s : State) (o : Occ) : State :=
  let sev := s.sevOf o.fs
  if 232 ≤ o.fs ∧ o.fs ≤ 234 then
    let s := s.selfFault o.fs
    s.enterSafe 0
  else
    let want := s.on F.FCU_CFG_REC o.fs && !pend o.fs
    let q0 := s.rd F.FCU_SEQ_SEQ
    let s := if want then s.tryRec o.fs sev o.snap o.forced false else s
    let q1 := s.rd F.FCU_SEQ_SEQ
    if sev = 3 then s.enterSafe (if q1 = q0 then 0 else q1) else s

/-- `o` placed after every occurrence of a source not above its own. -/
def insertOcc (o : Occ) : List Occ → List Occ
  | [] => [o]
  | p :: t => if o.fs < p.fs then o :: p :: t else p :: insertOcc o t

/-- Occurrences in ascending source number, those of one source in their order (R514). -/
def sortOccs (l : List Occ) : List Occ := l.foldl (fun acc o => insertOcc o acc) []

/-- The occurrences of the tick are collected, counted, and recorded in ascending source number (R514). An event dropped on
the way is itself an occurrence (R410), so the collection is repeated, at most `fuel` times. The FCU runs from the end of fuse load. -/
def State.settle : Nat → State → State
  | 0, s => s
  | fuel + 1, s =>
    let occs := s.fcu.occs.filter (fun o => !isReservedFS o.fs)
    let s := { s with fcu := { s.fcu with occs := [] } }
    if occs.isEmpty || !s.ridge.running then s else
    let pend := fun fs => s.on F.FCU_PEND_BIT fs
    let s := occs.foldl State.countOcc s
    let s := (sortOccs occs).foldl (State.recordOcc pend) s
    State.settle fuel s

/-- The live sources, each once. -/
def State.liveSources (s : State) : List Nat :=
  dedup ((s.fcu.conds ++ s.fcu.evts).map (fun c => c.fs))

/-- The LV fields and pins that the FCU derives (R512, R531, R532): FCU_LIVE, FCU_STAT, FAULT_N and INT_N. -/
def State.showFcu (s : State) : State :=
  let live := s.liveSources.filter (fun fs => !isReservedFS fs)
  let s := { s with regs := s.regs.filter (fun p => p.1 % 1024 != F.FCU_LIVE_BIT.no) }
  let s := live.foldl (fun s fs => s.wr F.FCU_LIVE_BIT 1 fs) s
  let recs := s.validRecs
  let maxLive := maxOf (live.map s.liveSev)
  let maxPend := maxOf (recs.map (s.rd F.FCU_REC_W0_SEV))
  let safe := s.on F.TOP_STAT_SAFE
  let fault := safe || live.any (fun fs => s.rd F.FCU_CTL_FAULT_MIN ≤ s.liveSev fs)
  let int := s.on F.FCU_CTL_INT_EN &&
    (recs.any (fun k => s.rd F.FCU_CTL_INT_MIN ≤ s.rd F.FCU_REC_W0_SEV k) ||
     (s.on F.HOST_MBX_CTL_DONE && s.on F.HOST_MBX_CTL_INT_EN))
  let s := s.wr F.FCU_STAT_REC_USED recs.length
  let s := s.wr F.FCU_STAT_MAX_LIVE maxLive
  let s := s.wr F.FCU_STAT_MAX_PEND maxPend
  let s := s.wrB F.FCU_STAT_FAULT fault
  let s := s.wrB F.FCU_STAT_INT int
  { s with pins := { s.pins with faultLow := fault, intLow := int } }

/-- A live cause is an S2 one that names domain `d` (R522). -/
def State.s2Names (s : State) (c : Cause) (d : Nat) : Bool :=
  let sc := s.rd F.FCU_CFG_SCOPE c.fs
  s.liveSev c.fs == 2 && (sc == 0 || sc == d + 1 || (sc == 3 && c.snap % 2 == d))

/-- An S2 source that names domain `d` is live (R522). -/
def State.s2Live (s : State) (d : Nat) : Bool := (s.fcu.conds ++ s.fcu.evts).any (fun c => s.s2Names c d)

/-- An S2 source with WH = 1 that names domain `d` is live (R522). -/
def State.s2Withholds (s : State) (d : Nat) : Bool :=
  (s.fcu.conds ++ s.fcu.evts).any (fun c => s.s2Names c d && s.on F.FCU_CFG_WH c.fs)

/-- The end of every command: the squelch of the outputs follows its conditions (R203), the tick's occurrences are settled, and
the derived fields and pins shown. Before fuse load the FCU does not run, and FAULT_N and INT_N keep the levels of reset (R584). -/
def State.close (s : State) : State :=
  let s := (s.evalSquelch.settle 4).evalSquelch
  if s.ridge.running then s.showFcu else s

/-- A command's outcome: the next state, once its tick is settled. -/
def done (s : State) : Host.Outcome State Fault Refusal := .next s.close

end Sys2Proof.Machine
end

