-- ==== Sys2Proof/Machine/Ranges.lean ====
section
/-! DEFINITION. The stated ranges of RW fields, from the register tables of spec/ (R502): a field not listed takes any value of
its width. -/
namespace Sys2Proof.Machine

/-- Stated ranges, part 0: field, lowest and highest value. -/
def ranges0 : List (Fld × Nat × Nat) :=
  [ (F.RIDGE_LIMIT_A_JUMP_LIMIT, 1, 1000000)
  , (F.RIDGE_LIMIT_B_JUMP_LIMIT_B, 1, 1000000)
  , (F.RIDGE_SLEW_SLEW_MAX_B, 1, 10000)
  , (F.RIDGE_SLEW_SLEW_MAX, 1, 10000)
  , (F.RIDGE_CMP_PER_VALUE, 65536000, 9223372036854775807)
  , (F.TDC_CH_CTL_MAX_STOPS, 1, 15)
  , (F.TDC_CH_CTL_ARM_SEL, 0, 32)
  , (F.TDC_CH_GATE_GATE, 0, 1024000)
  , (F.TDC_XB_PRE_DIV, 1, 65536)
  , (F.ENS_CTL_W_MAX, 1, 255)
  , (F.ENS_CTL_WT_SHIFT, 0, 20)
  , (F.ENS_CTL_RANK_SPAN, 0, 14)
  , (F.ENS_CTL_MAX_MEMBERS, 1, 12)
  , (F.ENS_QUAL_HOLDOFF, 0, 4095)
  , (F.ENS_QUAL_OUTLIER_MAX, 1, 255)
  , (F.ENS_QUAL_OUTLIER_K, 4, 255)
  , (F.ENS_DISPUTE_WIN, 1, 65535)
  , (F.ENS_DISPUTE_TOL, 1, 65535)
  , (F.ENS_RAMP_EXIT_RAMP, 1, 65535)
  , (F.ENS_RAMP_ENTRY_RAMP, 1, 65535) ]

/-- Stated ranges, part 1: field, lowest and highest value. -/
def ranges1 : List (Fld × Nat × Nat) :=
  [ (F.ENS_LOCK_LOCK_TIME, 1, 65535)
  , (F.ENS_LOCK_LOCK_PHASE, 1, 65535)
  , (F.ENS_LOCKF_LOCK_FREQ, 1, 65535)
  , (F.ENS_TRACE_TRACE_TAU, 1, 65535)
  , (F.ENS_B_CFG_SLOT, 0, 23)
  , (F.ENS_SLOT_CFG_QUAL_TIME, 1, 4095)
  , (F.ENS_SLOT_FTOL_FTOL, 1, 4294967295)
  , (F.ENS_SLOT_SIG0_SIG0, 1, 4294967295)
  , (F.ENS_SLOT_GAIN_KX, 1, 255)
  , (F.EAVES_CTL_K, 4, 255)
  , (F.EAVES_x_LIMIT_HOLDOVER_LIMIT, 1, 4294967295)
  , (F.OSC_CTL_PERIOD, 1, 65535)
  , (F.OSC_CTL_MODE, 0, 2)
  , (F.OSC_STEP_UART_LAT, 0, 1000)
  , (F.OSC_STEP_STEP_MAX, 1, 65535)
  , (F.OSC_UCFG_MISS_MAX, 1, 15)
  , (F.OSC_UCFG_RESP_TO, 1, 1000)
  , (F.OSC_UCFG_PARITY, 0, 2)
  , (F.OSC_UCFG_BAUD, 0, 5)
  , (F.DPLL_CTL_ORDER, 1, 3) ]

/-- Stated ranges, part 2: field, lowest and highest value. -/
def ranges2 : List (Fld × Nat × Nat) :=
  [ (F.DPLL_LOOP_PSL, 0, 5)
  , (F.DPLL_LOOP_ACQ_BW, 0, 23)
  , (F.DPLL_LOOP_BW, 0, 23)
  , (F.DPLL_MON_WTR, 1, 255)
  , (F.DPLL_MON_VAL_TIME, 1, 255)
  , (F.DPLL_MON_FTOL, 1, 65535)
  , (F.DPLL_THR_LOCK_WIN, 1, 65535)
  , (F.DPLL_THR_CORR_MIN, 1, 65535)
  , (F.DPLL_IN_DIV_DIV, 1, 65536)
  , (F.APLL_CTL_RDIV, 1, 63)
  , (F.APLL_BAND_RET_HOLD, 1, 255)
  , (F.OUT_CLK_CTL_BYP_DIV, 1, 255)
  , (F.OUT_PPS_WIDTH_WIDTH, 1, 8388607)
  , (F.GNSS_CTL_TIME_SYS, 0, 6)
  , (F.GNSS_CTL_MODE, 0, 2)
  , (F.GNSS_CTL_EPOCH_RATE, 0, 6)
  , (F.GNSS_MIN_CN0_MASK, 0, 50)
  , (F.GNSS_MIN_ELEV_MASK, 0, 60)
  , (F.GNSS_MIN_MIN_SV, 1, 32)
  , (F.GNSS_TRK_TINT, 0, 3) ]

/-- Stated ranges, part 3: field, lowest and highest value. -/
def ranges3 : List (Fld × Nat × Nat) :=
  [ (F.GNSS_TRK_CORR_SP, 1, 15)
  , (F.GNSS_TRK_DLL_BW, 5, 255)
  , (F.GNSS_TRK_FLL_BW, 4, 40)
  , (F.GNSS_TRK_PLL_BW, 20, 120)
  , (F.GNSS_ACQ_DOPP_RANGE, 500, 50000)
  , (F.GNSS_ACQ_NC, 1, 64)
  , (F.GNSS_ACQ_T_COH, 1, 20)
  , (F.GNSS_SPOOF_CFG_CLEAR_TIME, 1, 255)
  , (F.GNSS_SPOOF_CFG_MIN_GEO, 3, 32)
  , (F.GNSS_SPOOF_CFG_SPOOF_N, 1, 15)
  , (F.GNSS_SPOOF_CFG_GEO_TOL, 10, 500)
  , (F.GNSS_SPOOF_TOL_POS_TOL, 1, 65535)
  , (F.GNSS_SURVEY_SURVEY_ACC, 1, 65535)
  , (F.GNSS_SURVEY_SURVEY_TIME, 60, 65535)
  , (F.GNSS_CABLE_CABLE, 0, 0x30D400000)
  , (F.GNSS_UNC_K_U, 4, 255)
  , (F.GNSS_STREAM_CTL_FMT, 0, 2)
  , (F.GNSS_STREAM_CTL_RATE, 0, 2)
  , (F.GNSS_STREAM_JAM_NOTCH_MODE, 0, 2)
  , (F.GNSS_NOTCH_WIDTH, 0, 10) ]

/-- Stated ranges, part 4: field, lowest and highest value. -/
def ranges4 : List (Fld × Nat × Nat) :=
  [ (F.SDS_GRP_CTL_RCLK_DIV, 1, 255)
  , (F.SDS_GRP_QL_TX_MODE, 0, 2)
  , (F.SDS_LN_CTL_PRBS_TX, 0, 4)
  , (F.SDS_LN_CTL_PRBS_RX, 0, 4)
  , (F.MAC_CTL_MAXF, 64, 9600)
  , (F.MAC_CTL_WAKE_SEL, 0, 2)
  , (F.MAC_FC_XOFF, 1, 63)
  , (F.PM_CTL_RX_SEL, 0, 2)
  , (F.PTE_NEG_MIN_DUR, 1, 65534)
  , (F.PTE_NEG_MAX_DUR, 1, 65534)
  , (F.PTE_I_UTC_LEAP_WIN, 1, 24)
  , (F.PTE_PORT_CTL_MCAST, 0, 1)
  , (F.PTE_PORT_CTL_TRANSPORT, 0, 2)
  , (F.PTE_PORT_CTL_ROLE1, 0, 2)
  , (F.PTE_PORT_CTL_ROLE0, 0, 2)
  , (F.PTE_CLI_RATE_DUR, 10, 4095)
  , (F.PTE_CLI_FILT_MIN_EXCH, 1, 255)
  , (F.PTE_CLI_FILT_DLY_WIN, 1, 255)
  , (F.PTE_CLI_FILT_WIN, 16, 65535)
  , (F.FRANK_ADM_MARGIN, 0, 2000) ]

/-- Stated ranges, part 5: field, lowest and highest value. -/
def ranges5 : List (Fld × Nat × Nat) :=
  [ (F.FRANK_NTP_STRAT_STRAT_LOST, 1, 15)
  , (F.FRANK_NTP_STRAT_STRAT_HOLD, 1, 15)
  , (F.FRANK_NTP_STRAT_STRAT_LOCKED, 1, 15)
  , (F.FRANK_NTS_CTL_MAX_COOKIES, 1, 8)
  , (F.HOST_RING_SIZE_EVT, 6, 12)
  , (F.HOST_RING_SIZE_CPL, 6, 12)
  , (F.HOST_RING_SIZE_CMD, 6, 12)
  , (F.HOST_IRQ_MOD_CPL_CNT, 1, 4096)
  , (F.HOST_FR_CTL_RX_SIZE, 6, 12)
  , (F.HOST_FR_CTL_TX_SIZE, 6, 12)
  , (F.NOR_CTL_TS_AVG, 1, 64)
  , (F.NOR_CTL_TS_PER, 1, 64)
  , (F.NOR_IDLE_IDLE_N1, 1, 255)
  , (F.NOR_IDLE_IDLE_N2, 10, 65535)
  , (F.PAIR_CTL_WTR, 1, 65535)
  , (F.PAIR_PAD_TAKE_BEATS, 1, 65535)
  , (F.FCU_CTL_ESC_THR, 1, 65535)
  , (F.TOP_TEMP_TEMP_CRIT, 90, 125)
  , (F.TOP_TEMP_TEMP_WARN, 60, 120)
  , (F.SORT_CTL_WAIT_MAX, 1, 65535) ]

/-- Stated ranges, part 6: field, lowest and highest value. -/
def ranges6 : List (Fld × Nat × Nat) :=
  [ (F.MEM_CTL_ERR_MAX, 1, 255)
  , (F.MEM_CTL_HIST_PER, 1, 255) ]

/-- Every stated range. -/
def fieldRanges : List (Fld × Nat × Nat) :=
  ranges0 ++ ranges1 ++ ranges2 ++ ranges3 ++ ranges4 ++ ranges5 ++ ranges6

/-- Whether `v` lies within the stated range of field `f`. -/
def inRange (f : Fld) (v : Nat) : Bool :=
  match fieldRanges.find? (fun p => p.1.no == f.no) with
  | some p => p.2.1 ≤ v && v ≤ p.2.2
  | none => true

end Sys2Proof.Machine
end

