-- ==== Sys2Proof/Machine/Writes.lean ====
section
/-! DEFINITION. How a register write is judged and applied, field by field (R496 to R502), and how a refused access is counted
and recorded (R500, Table REG-8). The locks and ranges of each block are arguments. -/
namespace Sys2Proof.Machine

/-- An access: requester number (Table REG-7), byte address, size code of TOP_ACC_INFO (0 8-bit, 1 16-bit, 2 32-bit, 3 64-bit),
and whether it writes. -/
structure Acs where
  req : Nat
  addr : Nat
  size : Nat
  write : Bool
  deriving DecidableEq, Repr

/-- The snapshot word of FS 0 to FS 6 (Table REG-8). -/
def Acs.snap (a : Acs) : Nat := a.req % 8 * 2 ^ 24 + a.addr % 2 ^ 24

/-- A broken rule is counted in TOP_ACC_CNT0 or TOP_ACC_CNT1 and its fault source raised (R500). -/
def State.breakRule (s : State) (a : Acs) (code : Nat) : State :=
  if code = Code.cfgLocked then (s.inc F.TOP_ACC_CNT0_LOCKED).raise 0 a.snap
  else if code = Code.badParam then (s.inc F.TOP_ACC_CNT0_RANGE).raise 1 a.snap
  else if code = Code.badSize then (s.inc F.TOP_ACC_CNT1_SIZE).raise 2 a.snap
  else if code = Code.badAlign then (s.inc F.TOP_ACC_CNT1_ALIGN).raise 3 a.snap
  else if code = Code.writeOnce then (s.inc F.TOP_ACC_CNT1_ONCE).raise 4 a.snap
  else s

/-- The first refused access since the last ACK is recorded in TOP_ACC_ERR and TOP_ACC_INFO. -/
def State.noteErr (s : State) (a : Acs) (code : Nat) : State :=
  if s.on F.TOP_ACC_ERR_CODE then s else
  let s := (s.wr F.TOP_ACC_ERR_CODE code).wr F.TOP_ACC_ERR_ADDR a.addr
  ((s.wr F.TOP_ACC_INFO_REQ a.req).wr F.TOP_ACC_INFO_SIZE a.size).wrB F.TOP_ACC_INFO_WRITE a.write

/-- The completion code of an access that broke the rules `codes`: the first in the order of R500, OK when it broke none. -/
def firstCode (codes : List Nat) : Nat :=
  (([Code.badAlign, Code.badSize, Code.writeOnce, Code.cfgLocked, Code.badParam].find? codes.contains).getD Code.ok)

/-- The end of an access: every rule broken is counted and raised once, and the access concluded with its code (R500). -/
def State.conclude (s : State) (a : Acs) (codes : List Nat) : State × Nat :=
  let order := [Code.badAlign, Code.badSize, Code.writeOnce, Code.cfgLocked, Code.badParam]
  let s := (order.filter codes.contains).foldl (fun s c => s.breakRule a c) s
  let code := firstCode codes
  (if code = Code.ok then s else s.noteErr a code, code)

/-- One field of a write (R497, R501, R502): an RW field takes its bits of `data`, unless it is locked and they differ from its
value, or they lie outside its range; every other field ignores the write. -/
def State.fieldStep (lock : Fld → Bool) (ok : Fld → Nat → Bool) (i data : Nat) (r : State × List Nat) (f : Fld) :
    State × List Nat :=
  match f.acc with
  | .rw =>
    let v := bits data f.lo f.w
    let locked := lock f && v != r.1.rd f i
    let bad := !(ok f v)
    let codes := (if locked then [Code.cfgLocked] else []) ++ (if bad then [Code.badParam] else [])
    (if locked || bad then r.1 else r.1.wr f v i, r.2 ++ codes)
  | _ => r

/-- The fields `fs` of a register take their bits of `data` (R501, R502); the answer lists the rules broken. -/
def State.fieldWrite (s : State) (lock : Fld → Bool) (ok : Fld → Nat → Bool) (fs : List Fld) (i data : Nat) :
    State × List Nat :=
  fs.foldl (State.fieldStep lock ok i data) (s, [])

/-- The value in force of field `f` at index `i`: for a field written since the last beat edge, the value it had before. -/
def State.inF (s : State) (f : Fld) (i : Nat := 0) : Nat := (kvGet s.was (f.key i)).getD (s.rd f i)

/-- The values in force of the fields `fs` at index `i` are kept until the next beat edge. -/
def State.keepOld (s : State) (fs : List Fld) (i : Nat) : State :=
  fs.foldl (fun s f => { s with was := kvPut s.was (f.key i) (s.inF f i) }) s

/-- A write whose fields take effect at the next beat edge. -/
def State.stagedWrite (s : State) (lock : Fld → Bool) (ok : Fld → Nat → Bool) (fs : List Fld) (i data : Nat) :
    State × List Nat :=
  (s.keepOld fs i).fieldWrite lock ok fs i data

/-- The word that the fields `fs` at index `i` make up: a W1P field reads 0 (Table REG-5). -/
def State.fieldWord (s : State) (fs : List Fld) (i : Nat) : Nat :=
  (fs.map (fun f => if f.acc = Acc.w1p then 0 else s.rd f i * 2 ^ f.lo)).sum

/-- No field of a register is locked. -/
def noLock : Fld → Bool := fun _ => false

/-- Every value of a field is in range. -/
def anyValue : Fld → Nat → Bool := fun _ _ => true

/-- The register offset that the byte address `x` stands for, through the bit-alias region (R489). -/
def regOffset (x : Nat) : Nat := if 0x200000 ≤ x ∧ x < 0x600000 then (x - 0x200000) / 128 * 4 else x

/-- A write that finds start-up not complete (R548): from requesters 3 and 4, outside the HOST block. -/
def State.barred (s : State) (a : Acs) : Bool :=
  a.write && (a.req == 3 || a.req == 4) && !s.on F.TOP_STAT_READY && !(0x18000 ≤ regOffset a.addr && regOffset a.addr < 0x19000)

/-- A write as `f` judges and applies it; until READY a barred one changes nothing and answers BUSY_RETRY (R548). -/
def State.put (s : State) (a : Acs) (f : State → Acs → State × Nat) : State × Nat :=
  if s.barred a then (s, Code.busyRetry) else f s a

/-- A write of the write-once register at `ra`, whose fields are `fs`: the first write fixes them (R496). -/
def State.onceWrite (s : State) (a : Acs) (ra : Nat) (fs : List Fld) (w : Nat) : State × Nat :=
  if s.once.contains ra then s.conclude a [Code.writeOnce]
  else
    let s := fs.foldl (fun s f => s.wr f (bits w f.lo f.w)) s
    ({ s with once := s.once ++ [ra] }).conclude a []

/-- Field `f` is one of `l`. -/
def Fld.among (f : Fld) (l : List Fld) : Bool := l.any (fun g => g.no == f.no)

end Sys2Proof.Machine
end

