-- ==== Sys2Proof/Machine/Ack.lean ====
section
/-! DEFINITION. The FCU's registers: acknowledgement (R516 to R518), configuration (R520, R521), escalation (R523), forcing
(R526, R527) and the collector's own checks (R530, R533). -/
namespace Sys2Proof.Machine

/-! ### Acknowledgement -/

/-- Field `f` at one index. -/
def one (f : Fld) (i : Nat) : List (Fld × Nat) := [(f, i)]

/-- Field `f` at every index below `n`. -/
def each (f : Fld) (n : Nat) : List (Fld × Nat) := (List.range n).map (fun i => (f, i))

/-- TOP_ACC_ERR and TOP_ACC_INFO. -/
def accErrFlds : List (Fld × Nat) :=
  one F.TOP_ACC_ERR_CODE 0 ++ one F.TOP_ACC_ERR_ADDR 0 ++ one F.TOP_ACC_INFO_REQ 0 ++ one F.TOP_ACC_INFO_SIZE 0 ++ one F.TOP_ACC_INFO_WRITE 0

/-- TOP_XDOM_HWM. -/
def xdomFlds : List (Fld × Nat) :=
  one F.TOP_XDOM_HWM_GNSS 0 ++ one F.TOP_XDOM_HWM_SDS 0 ++ one F.TOP_XDOM_HWM_MEAS 0 ++ one F.TOP_XDOM_HWM_HOST 0

/-- The ST fields that count the sources of register access, Ridge, the edge array and Thatch (FS 0 to 35). -/
def ackLow (fs snap : Nat) : List (Fld × Nat) :=
  let ch := bits snap 8 6
  match fs with
  | 0 => accErrFlds ++ one F.TOP_ACC_CNT0_LOCKED 0
  | 1 => accErrFlds ++ one F.TOP_ACC_CNT0_RANGE 0
  | 2 => accErrFlds ++ one F.TOP_ACC_CNT1_SIZE 0
  | 3 => accErrFlds ++ one F.TOP_ACC_CNT1_ALIGN 0
  | 4 => accErrFlds ++ one F.TOP_ACC_CNT1_ONCE 0
  | 5 => accErrFlds ++ one F.TOP_ACC_CNT1_RSVD_WR 0
  | 6 => accErrFlds ++ xdomFlds
  | 8 => one F.RIDGE_BEAT_OVR_OVR_CNT 0
  | 9 => one F.RIDGE_BEAT_OVR_SLIP_CNT 0
  | 12 => one F.RIDGE_CMP_STAT_LATE (snap % 32) ++ one F.RIDGE_CMP_STAT_SKIPPED (snap % 32)
  | 18 => one F.TDC_CH_CNT_MISSED ch
  | 19 => one F.TDC_RING_LOST_LOST ch
  | 20 => one F.TDC_CH_CNT_ORPHANS ch
  | 21 => one F.TDC_CH_CNT_RESTARTS ch
  | 23 => one F.TDC_SUB_STAT_FAILED 0
  | 32 => one F.ENS_SLOT_CNT_DISQ (snap % 32)
  | 33 => each F.ENS_SLOT_CNT_DISPUTES 24
  | 34 => each F.ENS_SLOT_CNT_DISPUTES 24
  | 35 => each F.ENS_SLOT_CNT_OUTLIERS 24
  | _ => []

/-- The ST fields that count the sources of the bound, the loops, the receiver, the ports and the launches (FS 48 to 115). -/
def ackMid (fs snap : Nat) : List (Fld × Nat) :=
  match fs with
  | 48 => one F.EAVES_x_FLAGS_BREACH (snap % 2) ++ one F.EAVES_x_BREACH_VALUE (snap % 2)
  | 65 => one F.DPLL_CNT_SWITCHES (snap % 8)
  | 68 => one F.APLL_CNT_LOL (snap % 8)
  | 70 => each F.APLL_CNT_LOL 6
  | 71 => if snap % 32 < 16 then one F.OUT_CLK_STAT_SQ_CNT (snap % 16) else one F.OUT_PPS_STAT_SQ_CNT (snap % 16)
  | 84 => one F.GNSS_VCNT_SUSPECT_CNT 0
  | 85 => one F.GNSS_VCNT_SPOOFED_CNT 0
  | 96 => one F.MAC_CNT_LINK_DOWN_LINK_DOWN (snap % 32)
  | 99 => each F.MAC_CNT_FEC_UNCORR_FEC_UNCORR 32
  | 100 => one F.SDS_LN_CNT_READAPTS (snap % 32)
  | 103 => one F.SDS_GRP_CNT_QL_CHG (snap % 8)
  | 104 => each F.SDS_GRP_CNT_RCLK_SQ 8
  | 108 => each F.SDS_LN_PRBS_ERR_ERRORS 32
  | 109 => each F.MAC_CNT_DROP_DROP 32
  | 112 => one F.PM_LOST_LOST (snap % 8)
  | 113 => one F.LQ_LATE_COUNT (snap % 8)
  | 114 => each F.LQ_DROP_COUNT 8
  | 115 => each F.LQ_DROP_COUNT 8
  | _ => []

/-- The ST fields that count the sources of PTP, NTP, slates, host, Noryr, pair and maintenance (FS 122 to 195). -/
def ackHigh (fs snap : Nat) : List (Fld × Nat) :=
  match fs with
  | 122 => one F.PTE_CNT_AUTH_COUNT (snap % 32)
  | 123 => each F.PTE_CNT_AUTH_COUNT 32
  | 124 => one F.PTE_PORT_STAT_FOREIGN (snap % 32)
  | 126 => one F.PTE_CNT_REFUSED_COUNT (snap % 32)
  | 131 => one F.FRANK_CNT_REF_COUNT (snap % 32)
  | 132 => one F.FRANK_CNT_LATE_COUNT 0
  | 133 => one F.FRANK_CNT_DISC_COUNT 0
  | 134 => one F.FRANK_STAT_KAT_FAIL 0
  | 144 => one F.SLATE_SEC_SEC_CNT 0 ++ one F.SLATE_SEC_LAST_OFS 0
  | 148 => one F.SLATE_REMASK_SKIPPED 0
  | 155 => one F.HOST_EVT_LOST_COUNT 0
  | 160 => one F.NOR_PORT_CNT_DOWNS (snap % 8)
  | 164 => each F.NOR_PORT_CNT2_DROPPED 6
  | 168 => one F.PAIR_CNT_TAKEOVERS 0
  | 170 => one F.PAIR_CNT_DOUBLES 0
  | 171 => one F.PAIR_CNT2_AUTH_FAIL 0
  | 172 => one F.PAIR_CNT2_MISSED 0
  | 174 => one F.PAIR_CNT_SYNC_LOSS 0
  | 178 => one F.SORT_WAIT_HWM_GROUP 0 ++ one F.SORT_WAIT_HWM_WAIT 0
  | 192 => one F.MEM_ERR_SRAM_CORR 0
  | 194 => one F.MEM_ERR_DRAM_CORR 0
  | 195 => one F.MEM_ERR_DRAM_UNC 0 ++ one F.MEM_ERR_ADDR_ADDR 0
  | _ => []

/-- The ST fields that an acknowledgement of a record of `fs` with snapshot `snap` clears (R516): those of the channel, port, slot,
lane, group, session or instance that the snapshot names, otherwise those of every instance. -/
def ackFields (fs snap : Nat) : List (Fld × Nat) :=
  if fs < 48 then ackLow fs snap else if fs < 120 then ackMid fs snap else ackHigh fs snap

/-- The record in slot `k` is acknowledged: VALID, the pending bit, the sticky count and the ST fields that count its source (R516). -/
def State.ackRec (s : State) (k : Nat) : State :=
  let fs := s.rd F.FCU_REC_W0_SRC k
  let snap := s.rd F.FCU_REC_SNAP_SNAP k
  let s := ((s.wr F.FCU_REC_W0_VALID 0 k).wr F.FCU_PEND_BIT 0 fs).wr F.FCU_CNT_COUNT 0 fs
  (ackFields fs snap).foldl (fun s p => s.rst p.1 p.2) s

/-- The slot whose valid record carries the number `q`. -/
def State.recOf (s : State) (q : Nat) : Option Nat := s.validRecs.find? (fun k => s.rd F.FCU_REC_SEQ_SEQ k == q)

/-- A write of FCU_ACK (R516). -/
def State.fcuAckWrite (s : State) (a : Acs) (w : Nat) : State × Nat :=
  let q := w % 2 ^ 32
  match (if q = 0 then none else s.recOf q) with
  | some k => ((s.ackRec k).wr F.FCU_ACK_SEQ q).conclude a []
  | none => s.conclude a [Code.badParam]

/-- `FCU_ACK`: requester `req` writes the sequence number `w` to FCU_ACK. -/
def execFcuAck (req w : Nat) (s : State) : Host.Outcome State Fault Refusal := done (s.put ⟨req, 0x100C, 2, true⟩ (fun s a => s.fcuAckWrite a w)).1

/-- Every valid record is acknowledged, and every sticky count, FCU_OVF, FCU_SELF (R518) and FCU_SAFE_SEQ (R524) cleared. -/
def State.ackAll (s : State) : State :=
  let s := s.validRecs.foldl State.ackRec s
  let s := s.rstAll F.FCU_CNT_COUNT 400
  s.rstFlds [F.FCU_OVF_NOREC, F.FCU_OVF_ESC, F.FCU_SELF_VALID, F.FCU_SELF_SRC, F.FCU_SAFE_SEQ_SEQ]

/-- A write of FCU_CTL: FAULT_MIN, INT_MIN and ESC_THR are locked by CFG_LOCK (R521); ACK_ALL acts once. -/
def State.fcuCtlWrite (s : State) (a : Acs) (w : Nat) : State × Nat :=
  let locked := s.on F.FCU_LOCK_CFG_LOCK
  let r := s.fieldWrite (fun f => locked && f.among [F.FCU_CTL_ESC_THR, F.FCU_CTL_FAULT_MIN, F.FCU_CTL_INT_MIN]) inRange
    [F.FCU_CTL_ESC_THR, F.FCU_CTL_FAULT_MIN, F.FCU_CTL_INT_MIN, F.FCU_CTL_INT_EN, F.FCU_CTL_FORCE_S3] 0 w
  let s := if bit w 3 then r.1.ackAll else r.1
  s.conclude a r.2

/-- `ACK_ALL`: requester `req` writes FCU_CTL with ACK_ALL = 1; `w` gives the other bits. -/
def execAckAll (req w : Nat) (s : State) : Host.Outcome State Fault Refusal :=
  done (s.put ⟨req, 0x1000, 2, true⟩ (fun s a => s.fcuCtlWrite a (setBit w 3 true))).1

/-! ### Configuration -/

/-- The configuration byte of `fs` takes no write: it is fixed, or the source is reserved (R511, R521). -/
def cfgFixed (fs : Nat) : Bool := (232 ≤ fs && fs ≤ 234) || isReservedFS fs

/-- The fields of a configuration byte. -/
def cfgFlds : List Fld := [F.FCU_CFG_ESC, F.FCU_CFG_WH, F.FCU_CFG_SCOPE, F.FCU_CFG_EVT, F.FCU_CFG_REC, F.FCU_CFG_SEV]

/-- One byte of a write of FCU_CFG[i]: a live source is judged again at the next beat edge (R520). -/
def State.cfgByte (locked : Bool) (i w : Nat) (r : State × List Nat) (b : Nat) : State × List Nat :=
  let fs := 4 * i + b
  if cfgFixed fs then r else
  let old := r.1.liveSev fs
  let q := r.1.fieldWrite (fun _ => locked) inRange cfgFlds fs (bits w (8 * b) 8)
  let s := q.1
  let s := if !locked && s.isLive fs then
      { s with fcu := { s.fcu with rejudge := s.fcu.rejudge.filter (fun p => p.1 != fs) ++ [(fs, old)] } }
    else s
  (s, r.2 ++ q.2)

/-- A write of FCU_CFG[i] (R520, R521). -/
def State.fcuCfgWrite (s : State) (a : Acs) (i w : Nat) : State × Nat :=
  let r := (List.range 4).foldl (State.cfgByte (s.on F.FCU_LOCK_CFG_LOCK) i w) (s, [])
  r.1.conclude a r.2

/-- `FCU_CFG_WRITE`: requester `req` writes `w` to FCU_CFG[i]. -/
def execFcuCfgWrite (req i w : Nat) (s : State) : Host.Outcome State Fault Refusal :=
  if 100 ≤ i then done s else done (s.put ⟨req, 0x1100 + 4 * i, 2, true⟩ (fun s a => s.fcuCfgWrite a i w)).1

/-- A write of FCU_LOCK (R521). -/
def State.cfgLockWrite (s : State) (a : Acs) (w : Nat) : State × Nat := s.onceWrite a 0x1010 [F.FCU_LOCK_CFG_LOCK] w

/-- `CFG_LOCK_WRITE`: requester `req` writes `w` to FCU_LOCK. -/
def execCfgLockWrite (req w : Nat) (s : State) : Host.Outcome State Fault Refusal :=
  done (s.put ⟨req, 0x1010, 2, true⟩ (fun s a => s.cfgLockWrite a w)).1

/-- At a beat edge a live source whose configuration byte was written is judged under its new severity, without a record or a count:
at S3 the device enters safe state (R520). -/
def State.rejudgeLive (s : State) : State :=
  let l := s.fcu.rejudge.filter (fun p => s.isLive p.1)
  let s := { s with fcu := { s.fcu with rejudge := [] } }
  if l.any (fun p => s.sevOf p.1 == 3) then s.enterSafe 0 else s

/-! ### Forcing -/

/-- Source `fs` is raised through FCU_FORCE (R526). -/
def State.force (s : State) (fs : Nat) : State :=
  let snap := s.rd F.FCU_FORCE_SNAP_SNAP
  { s with fcu := { s.fcu with
      occs := s.fcu.occs ++ [Occ.mk fs snap true]
      evts := s.fcu.evts ++ [Cause.mk fs snap false] } }

/-- A write of FCU_FORCE[j]: bits of reserved sources and of FS 232 to 239 are ignored; a bit of a source configured at S3 is
locked unless FORCE_S3 = 1 (R511, R526, R527). -/
def State.fcuForceWrite (s : State) (a : Acs) (j w : Nat) : State × Nat :=
  let asked := ((List.range 32).filter (bit w)).map (fun b => 32 * j + b)
  let asked := asked.filter (fun fs => fs < 400 && !cfgFixed fs)
  let locked := fun fs => s.rd F.FCU_CFG_SEV fs == 3 && !s.on F.FCU_CTL_FORCE_S3
  let codes := if asked.any locked then [Code.cfgLocked] else []
  ((asked.filter (fun fs => !locked fs)).foldl State.force s).conclude a codes

/-- `FCU_FORCE`: requester `req` writes `w` to FCU_FORCE[j]. -/
def execFcuForce (req j w : Nat) (s : State) : Host.Outcome State Fault Refusal :=
  if 13 ≤ j then done s else done (s.put ⟨req, 0x10C0 + 4 * j, 2, true⟩ (fun s a => s.fcuForceWrite a j w)).1

/-- A write of FCU_FORCE_SNAP. -/
def State.forceSnapWrite (s : State) (a : Acs) (w : Nat) : State × Nat :=
  (s.wr F.FCU_FORCE_SNAP_SNAP w).conclude a []

/-! ### Phase 4: escalation, the collector's checks and the mark of the beat -/

/-- Escalation of one source whose occurrences of the second have passed ESC_THR (R523). -/
def State.escalate (s : State) (p : Nat × Nat) : State :=
  let fs := p.1
  let sev := s.rd F.FCU_CFG_SEV fs
  if !s.on F.FCU_CFG_ESC fs || 2 ≤ sev || s.fcu.passed.contains fs || p.2 ≤ s.rd F.FCU_CTL_ESC_THR then s else
  let snap := s.draw
  let s := snap.2.tryRec fs (sev + 1) snap.1 false true
  let s := s.inc F.FCU_OVF_ESC
  { s with fcu := { s.fcu with
      escal := s.fcu.escal.filter (fun p => p.1 != fs) ++ [(fs, false)]
      passed := s.fcu.passed ++ [fs] } }

/-- Phase 4 counts the occurrences of the second, and tests one word of the live path (R523, R533). -/
def State.fcuPhase4 (s : State) : State :=
  let s := s.fcu.secCnt.foldl State.escalate s
  { s with fcu := { s.fcu with selfWord := (s.fcu.selfWord + 1) % 13 } }

/-- The beat 0 edge: the counts of the second start anew, and an escalation ends at the edge that follows the next whole second
(R523). -/
def State.fcuSecond (s : State) : State :=
  { s with fcu := { s.fcu with
      secCnt := []
      passed := []
      escal := (s.fcu.escal.filter (fun p => !p.2)).map (fun p => (p.1, true)) } }

/-- The beat that ends at this edge either carries the mark of phase 4 or adds to the beats without one (R530). -/
def State.countMark (s : State) : State :=
  let n := if s.fcu.marked || s.on F.TOP_STAT_SAFE then 0 else s.fcu.noMark + 1
  { s with fcu := { s.fcu with noMark := n, marked := false } }

/-- `STALL_DETECT`: 8 consecutive beats have ended without the mark (R530). -/
def execStallDetect (s : State) : Host.Outcome State Fault Refusal :=
  if s.fcu.noMark < 8 then done s
  else done ({ s with fcu := { s.fcu with noMark := 0 } }.raise 224)

end Sys2Proof.Machine
end

