-- ==== Sys2Proof/Machine/Quiet.lean ====
section
/-! DEFINITION. The quiet groups of the Sorting office (spec/18_maintenance_test.md): activities, queues and what waits in them, and
self-tests in progress. -/
namespace Sys2Proof.Machine

namespace Act
def tdcCal : Nat := 0x01
def apllSearch : Nat := 0x02
def remask : Nat := 0x03
def keyRotate : Nat := 0x04
def readapt : Nat := 0x05
def histCommit : Nat := 0x06
def dramCal : Nat := 0x07
def dramPower : Nat := 0x08
def selftest : Nat := 0x09
end Act

/-- The quiet group of an activity (Table SORT-2). -/
def quietGroup (act tgt : Nat) : Nat :=
  if act = Act.tdcCal ∨ act = Act.apllSearch then 0
  else if act = Act.remask ∨ act = Act.keyRotate then 1
  else if act = Act.readapt then 2 + tgt / 4 % 8
  else 10

/-- The queue of group `q`. -/
def State.quietQueue (s : State) (q : Nat) : List SortEntry := s.sort.queues.getD q []

/-- The running activity of group `q`. -/
def State.quietRun (s : State) (q : Nat) : Option SortEntry := s.sort.running.getD q none

/-- The SORT registers of group `q` follow its queue and its running activity. -/
def State.showQuiet (s : State) (q : Nat) : State :=
  let l := s.quietQueue q
  let r := s.quietRun q
  let s := (s.wrBit F.SORT_STAT_BUSY q r.isSome).wrBit F.SORT_STAT_WAITING q (!l.isEmpty)
  let s := s.wr F.SORT_GRP_DEPTH l.length q
  match r with
  | some e => (s.wr F.SORT_GRP_RUN_ACT e.act q).wr F.SORT_GRP_RUN_TGT e.tgt q
  | none => (s.wr F.SORT_GRP_RUN_ACT 0 q).wr F.SORT_GRP_RUN_TGT 0 q

/-- Group `q`'s queue becomes `l`. -/
def State.setQueue (s : State) (q : Nat) (l : List SortEntry) : State :=
  { s with sort := { s.sort with queues := s.sort.queues.set q l } }.showQuiet q

/-- Group `q`'s running activity becomes `r`. -/
def State.setRun (s : State) (q : Nat) (r : Option SortEntry) : State :=
  { s with sort := { s.sort with running := s.sort.running.set q r } }.showQuiet q

/-- A request enters the queue of its group (R567): merged with an entry for the same activity and target that waits (R568); the
answer says whether there was room. -/
def State.enqueue (s : State) (act tgt : Nat) (sched : Bool) (cmds : List CmdRef) : State × Bool :=
  let q := quietGroup act tgt
  let l := s.quietQueue q
  if l.any (fun e => e.act == act && e.tgt == tgt) then
    (s.setQueue q (l.map (fun e => if e.act == act && e.tgt == tgt then
      { e with cmds := e.cmds ++ cmds, sched := e.sched && sched } else e)), true)
  else if 64 ≤ l.length then (s, false)
  else
    let s := if (s.quietRun q).isSome || !l.isEmpty then s.inc F.SORT_CNT_DEFERRALS q else s
    (s.setQueue q (l ++ [⟨act, tgt, sched, cmds, s.ridge.ticks, false⟩]), true)

/-- The queued entries for activity `act` and target `tgt` are removed: the commands behind them complete with BAD_PARAM (R569). -/
def State.dequeue (s : State) (act tgt : Nat) : State :=
  let q := quietGroup act tgt
  let l := s.quietQueue q
  let out := l.filter (fun e => e.act == act && e.tgt == tgt)
  let s := s.setQueue q (l.filter (fun e => !(e.act == act && e.tgt == tgt)))
  out.foldl (fun s e => s.finishAll e.cmds Code.badParam) s

/-- The activity `act` on `tgt` is running. -/
def State.isRunning (s : State) (act tgt : Nat) : Bool :=
  match s.quietRun (quietGroup act tgt) with
  | some e => e.act == act && e.tgt == tgt
  | none => false

/-- Island `i` is ON (Table PWR-7). -/
def State.islandOn (s : State) (i : Nat) : Bool := s.rd F.TOP_PWR_STAT_STATE i == 2

/-- The block of self-test target `tgt` is under test, alone or in a test of the whole device (Table SORT-4). -/
def State.testing (s : State) (tgt : Nat) : Bool := s.sort.tests.any (fun x => x.tgt == tgt || x.tgt == 0xF0)

end Sys2Proof.Machine
end

