-- ==== Sys2Proof/Machine/Ridge.lean ====
section
/-! DEFINITION. Ridge time (spec/01_ridge_time.md): the counts, the slew engine, corrections and steps, anchors and epoch time,
and the commands on them. The comparators are in Compare.lean; what a beat edge does is in Beat.lean. -/
namespace Sys2Proof.Machine

/-! ### The counts (R10 to R15) -/

/-- The count of domain `d` (0 A, 1 B). -/
def State.count (s : State) (d : Nat) : Nat := s.rd F.RIDGE_x_COUNT_COUNT d

/-- The nominal addend, at which the free Ridge runs (R11, R89). -/
def nominalAddend : Nat := 0xCCCC_CC_CCCC_CCCC

/-- The steering record of domain `d` now: its Ridge count minus the free Ridge, in 2^-40 ru, signed (R89). -/
def State.steerOf (s : State) (d frac : Nat) : Int :=
  toS 104 (s.count d * two40 + frac + two64 * two40 - s.ridge.ticks * nominalAddend % (two64 * two40))

/-- The mean fractional rate of a Ridge against the free Ridge when its steering record moves by `ds` over `ticks` ticks. -/
def rateOver (ds : Int) (ticks : Nat) : Rat := if ticks = 0 then 0 else (ds : Rat) / (ticks * nominalAddend : Nat)

/-- What domain `d` keeps without a register. -/
def State.dom (s : State) (d : Nat) : RidgeDom := if d = 0 then s.ridge.a else s.ridge.b

/-- The steering record of domain `d` now (R89). -/
def State.steer (s : State) (d : Nat) : Int := s.steerOf d (s.dom d).frac

/-- Domain `d`'s hidden state becomes `r`. -/
def State.setDom (s : State) (d : Nat) (r : RidgeDom) : State :=
  if d = 0 then { s with ridge := { s.ridge with a := r } } else { s with ridge := { s.ridge with b := r } }

/-- Domain `d`'s count runs: Ridge A from fuse load on, Ridge B while B_EN = 1 (R18, R19). -/
def State.domRuns (s : State) (d : Nat) : Bool :=
  s.ridge.running && (d == 0 || s.on F.RIDGE_CTL_B_EN)

/-- The slew offset per tick at `rate` ns/s, in 2^-40 ru, rounded to the nearest (R596). -/
def slewOffset (rate : Nat) : Nat := (rate * 8 * 65536 * two40 + 5000000000) / 10000000000

/-- The slew rate in force: the lowest of SLEW_MAX and every named rate (R24). -/
def RidgeDom.rate (r : RidgeDom) : Nat := min r.slewMax (r.named.getD r.slewMax)

/-- What the slew adds over `n` ticks, in 2^-40 ru: the offset on each tick, and only the remainder on the last (R596). -/
def RidgeDom.slewOver (r : RidgeDom) (n : Nat) : Int :=
  if !r.slewing then 0 else
  let m := min (n * slewOffset r.rate) r.pend.natAbs
  if r.pend < 0 then -(m : Int) else (m : Int)

/-- A correction of `x` (2^-40 ru) has been applied: the pending value falls by it, and at 0 the slew ends and the named rates
are forgotten (R24). -/
def RidgeDom.applied (r : RidgeDom) (x : Int) : RidgeDom :=
  let p := r.pend - x
  let r := { r with total := r.total + x }
  if p = 0 then { r with pend := 0, slewing := false, named := none } else { r with pend := p }

/-- The LV views of domain `d`: SLEW_REM rounded towards zero to whole ru (R596), and SLEWING. -/
def State.showSlew (s : State) (d : Nat) : State :=
  let p := (s.dom d).pend
  let s := s.wrS F.RIDGE_x_SLEW_REM_VALUE (p.tdiv two40) d
  if d = 0 then s.wrB F.RIDGE_STAT_A_SLEWING (p != 0) else s.wrB F.RIDGE_STAT_B_SLEWING (p != 0)

/-- Domain `d` runs for `n` CCLK ticks: on each, the addend and any slew offset are added to the count modulo 2^64 ru, the 40-bit
fraction carried (R10, R12). -/
def State.runDom (s : State) (d n : Nat) : State :=
  if !s.domRuns d then s else
  let r := s.dom d
  let x := r.slewOver n
  let full : Int := (s.count d : Int) * two40 + r.frac + (n * r.addend : Nat) + x
  let full' := (full % ((two64 * two40 : Nat) : Int)).toNat
  let s := s.setDom d { r.applied x with frac := full' % two40 }
  (s.wr F.RIDGE_x_COUNT_COUNT (full' / two40) d).showSlew d

/-- The RTC counts while its oscillator runs: one second for each 1,250,000,000 CCLK ticks since its divider restarted (R542; the two
clocks are taken to agree, assumption 21). -/
def State.runRtc (s : State) (n : Nat) : State :=
  if !s.on F.TOP_RTC_STAT_OSC_OK then s else
  let t := s.pwr.rtcSub + n
  let s := { s with pwr := { s.pwr with rtcSub := t % 1250000000 } }
  if t < 1250000000 then s else s.wr F.TOP_RTC_SEC_SEC (s.rd F.TOP_RTC_SEC_SEC + t / 1250000000)

/-- `n` CCLK ticks pass: both counts run (R10), and the RTC. -/
def State.runTicks (s : State) (n : Nat) : State :=
  let s := ((s.runDom 0 n).runDom 1 n).runRtc n
  { s with ridge := { s.ridge with ticks := s.ridge.ticks + n } }

/-- The least number of ticks after which domain `d`'s count has reached `target` (R13), 0 when it is not ahead. -/
def State.ticksTo (s : State) (d target : Nat) : Nat :=
  let r := s.dom d
  let dist : Int := ridgeDist target (s.count d) * two40 - r.frac
  if dist ≤ 0 ∨ !s.domRuns d then 0 else
  let o : Int := if r.slewing then (if r.pend < 0 then -(slewOffset r.rate : Int) else slewOffset r.rate) else 0
  let n1 := ceilDiv dist.toNat (((r.addend : Int) + o).toNat)
  if !r.slewing ∨ n1 * slewOffset r.rate ≤ r.pend.natAbs then n1
  else ceilDiv ((dist - r.pend).toNat) r.addend

/-! ### Epoch time and anchors (R16, R17) -/

/-- The anchor of domain `d` as ru since the epoch. -/
def State.anchorEpoch (s : State) (d : Nat) : Nat :=
  (s.rd F.RIDGE_x_ANCHOR_SEC_SEC d * 1000000000 + s.rd F.RIDGE_x_ANCHOR_NSF_NS d) * 65536 + s.rd F.RIDGE_x_ANCHOR_NSF_FRAC d

/-- The epoch time of count `c` in domain `d`, in ru since the epoch (R17). -/
def State.epochOf (s : State) (d c : Nat) : Int :=
  (s.anchorEpoch d : Int) + ridgeDist c (s.rd F.RIDGE_x_ANCHOR_COUNT_COUNT d)

/-- The anchor of domain `d` is latched at its present count, with the epoch time `e` (R16). -/
def State.setAnchor (s : State) (d : Nat) (e : Int) : State :=
  let n := (e % ((2 ^ 48 * 1000000000 * 65536 : Nat) : Int)).toNat
  let s := s.wr F.RIDGE_x_ANCHOR_COUNT_COUNT (s.count d) d
  let s := s.wr F.RIDGE_x_ANCHOR_SEC_SEC (n / 65536 / 1000000000) d
  let s := s.wr F.RIDGE_x_ANCHOR_NSF_NS (n / 65536 % 1000000000) d
  s.wr F.RIDGE_x_ANCHOR_NSF_FRAC (n % 65536) d

/-- The anchor of domain `d` is latched from the present one (R16). -/
def State.latchAnchor (s : State) (d : Nat) : State := s.setAnchor d (s.epochOf d (s.count d))

/-- ru in one second, and in one beat (R45). -/
def ruSecond : Nat := 65536000000000
def ruBeat : Nat := 64000000000

/-! ### Corrections (R24 to R29) -/

/-- STEP_NEEDED of domain `d`. -/
def State.stepNeeded (s : State) (d : Nat) : Bool :=
  if d = 0 then s.on F.RIDGE_STAT_A_STEP_NEEDED else s.on F.RIDGE_STAT_B_STEP_NEEDED

/-- STEP_NEEDED and REQ_STEP of domain `d` are set to the whole correction `v`, and FS 10 or FS 11 becomes live (R26). -/
def State.setStepNeeded (s : State) (d : Nat) (v : Int) : State :=
  let s := s.wrS F.RIDGE_x_REQ_STEP_VALUE v d
  if d = 0 then (s.wr F.RIDGE_STAT_A_STEP_NEEDED 1).condOn 10 else (s.wr F.RIDGE_STAT_B_STEP_NEEDED 1).condOn 11

/-- STEP_NEEDED and REQ_STEP of domain `d` are cleared, and its source stops being live (R26, R30). -/
def State.clearStepNeeded (s : State) (d : Nat) : State :=
  let s := s.wr F.RIDGE_x_REQ_STEP_VALUE 0 d
  if d = 0 then (s.wr F.RIDGE_STAT_A_STEP_NEEDED 0).condOff 10 else (s.wr F.RIDGE_STAT_B_STEP_NEEDED 0).condOff 11

/-- A jump limit in 2^-40 ru. -/
def limitRu40 (ns : Nat) : Nat := ns * 65536 * two40

/-- A correction request is within domain `d`'s jump limit (R24): |pending + request| at or below it. -/
def State.withinLimit (s : State) (d : Nat) (req : Int) : Bool :=
  ((s.dom d).pend + req * two40).natAbs ≤ limitRu40 (s.dom d).limit

/-- A correction of `req` ru is accepted as a slew, at the rate `named` when one is named (R24). -/
def State.acceptSlew (s : State) (d : Nat) (req : Int) (named : Option Nat) : State :=
  let r := s.dom d
  let nm := match named, r.named with
    | some x, some y => some (min x y)
    | some x, none => some x
    | none, y => y
  let p := r.pend + req * two40
  let r := if p = 0 then { r with pend := 0, slewing := false, named := none } else { r with pend := p, named := nm }
  (s.setDom d r).showSlew d

/-- A request from DPLL0 or DPLL1 (R24 to R27): accepted as a slew, or refused; a refused one needs a step, which domain B
takes by itself at the next beat edge while JUMP_B_EN = 0. -/
def State.loopRequest (s : State) (d : Nat) (req : Int) : State :=
  if s.withinLimit d req then
    let s := (s.acceptSlew d req none).clearStepNeeded d
    s.setDom d { s.dom d with accepted := true }
  else
    let whole := (s.dom d).pend.tdiv two40 + req
    let s := s.setDom d { s.dom d with accepted := false }
    if s.pairSteered ∧ d = 0 then { s with ridge := { s.ridge with autoA := some whole } }
    else if (s.dom d).jumpEn ∧ !s.pairSteered then s.setStepNeeded d whole
    else
      let v := ofS 64 whole
      { s with ridge := { s.ridge with autoB := some whole } }.mirrorCmd 0x0301 (s.edgeBeat false) [1, v % 2 ^ 32, v / 2 ^ 32]

/-- The accepted slew of domain `d` begins (R29). -/
def State.startSlew (s : State) (d : Nat) : State :=
  let r := s.dom d
  if r.pend = 0 ∨ !s.domRuns d then s else s.setDom d { r with slewing := true }

/-- `SLEW_START`: an accepted slew of domain `dom` begins at a beat edge. -/
def execSlewStart (dom : Nat) (s : State) : Host.Outcome State Fault Refusal := done (s.startSlew (dom % 2))

/-- The ticks a slew of domain `d` still takes. -/
def State.slewTicks (s : State) (d : Nat) : Nat :=
  ceilDiv (s.dom d).pend.natAbs (slewOffset (s.dom d).rate)

/-- `SLEW_END`: time passes to the tick on which the pending value of domain `dom` reaches 0, which applies what remains (R596). -/
def execSlewEnd (dom : Nat) (s : State) : Host.Outcome State Fault Refusal :=
  let d := dom % 2
  if (s.dom d).slewing then done (s.runTicks (s.slewTicks d)) else done s

/-! ### Steps (R30 to R38) -/

/-- The magnitude of `x` ru is below 2^47 ns (R31). -/
def belowStepLimit (x : Int) : Bool := x.natAbs < 2 ^ 63

/-- `TIME_STEP`: checked in the order of R35, R39, R36 and R31, then queued for its beat edge (R30). -/
def execTimeStep (c : CmdRef) (w0 step : Nat) (s : State) : Host.Outcome State Fault Refusal :=
  let d := bits w0 0 1
  let useReq := bit w0 2
  let x := toS 64 step
  if s.notHolder then done (s.finish c Code.notTokenHolder)
  else if d = 1 ∧ !s.on F.RIDGE_CTL_B_EN then done (s.finish c Code.badParam)
  else if useReq ∧ !s.stepNeeded d then done (s.finish c Code.badParam)
  else if !useReq ∧ !belowStepLimit x then done (s.finish c Code.badParam)
  else
    let q : StepReq := { ref := c, dom := d, applySec := bit w0 1, useReq := useReq, step := x }
    let s := { s with ridge := { s.ridge with steps := s.ridge.steps ++ [q] } }
    let v := ofS 64 (if useReq then s.rdS F.RIDGE_x_REQ_STEP_VALUE d else x)
    done (s.mirrorCmd 0x0301 (s.edgeBeat (bit w0 1)) [bits w0 0 2, v % 2 ^ 32, v / 2 ^ 32])

/-- The steps due at a beat edge are summed in the order of acceptance (R38). `acc` holds the sum, the first USE_REQ command seen,
and each command's completion code. -/
def sumSteps (needed : Bool) (reqStep : Int) : List StepReq → Int → Bool → List (CmdRef × Nat) → Int × List (CmdRef × Nat)
  | [], sum, _, out => (sum, out)
  | q :: t, sum, used, out =>
    let v := if q.useReq then reqStep else q.step
    if q.useReq ∧ (used ∨ !needed) then sumSteps needed reqStep t sum used (out ++ [(q.ref, Code.badParam)])
    else if !belowStepLimit (sum + v) then
      sumSteps needed reqStep t sum (used || q.useReq) (out ++ [(q.ref, Code.badParam)])
    else sumSteps needed reqStep t (sum + v) (used || q.useReq) (out ++ [(q.ref, Code.ok)])

/-- The steps of domain `d` due at this beat edge: those without APPLY_SEC, and at beat 0 the others too (R30). -/
def State.dueSteps (s : State) (d : Nat) : List StepReq :=
  s.ridge.steps.filter (fun q => q.dom == d && (!q.applySec || s.rd F.RIDGE_STAT_BEAT_NUM == 0))

/-- The count of domain `d` after a step of `x` ru. -/
def stepCount (c : Nat) (x : Int) : Nat := (((c : Int) + x) % (two64 : Int)).toNat

/-- A step of `x` ru is applied to domain `d` (R30): the count moves, the pending slew is discarded and reported, STEP_NEEDED and
REQ_STEP clear, a new anchor is latched, and event 0x0004 posted; `auto` says that the sum has an automatic part (R27).
A step of Ridge A moves the next beat edge to the first beat boundary of the new time at least one beat after it (R32).
`domRan` is the epoch time at the new count: a step moves time of day by the step. -/
def State.stepDomain (s : State) (d : Nat) (x : Int) (auto : Bool) : State :=
  let discarded := (s.dom d).pend.tdiv two40
  let e := s.epochOf d (s.count d)
  let s := s.wr F.RIDGE_x_COUNT_COUNT (stepCount (s.count d) x) d
  let r := s.dom d
  let s := (s.setDom d { r with pend := 0, slewing := false, named := none, total := r.total + x * two40 }).showSlew d
  let s := s.clearStepNeeded d
  let s := s.setAnchor d (e + x)
  let s := if d = 0 then
      let pos := ((e + x) % (ruBeat : Int)).toNat
      let toEdge := if pos = 0 then ruBeat else 2 * ruBeat - pos
      { s with ridge := { s.ridge with nextEdge := (s.count 0 + toEdge) % two64 } }
    else s
  s.eventNow 0x0004 (d + 2 * auto.toNat)
    [ofS 32 x, ofS 64 x / 2 ^ 32, ofS 32 discarded, ofS 64 discarded / 2 ^ 32]

/-! ### Slew commands and the class map -/

/-- `TIME_SLEW` (R24, R28, R35, R37, R39). -/
def execTimeSlew (c : CmdRef) (w0 corr w3 : Nat) (s : State) : Host.Outcome State Fault Refusal :=
  let d := bits w0 0 1
  let rate := bits w3 0 14
  let x := toS 64 corr
  if s.notHolder then done (s.finish c Code.notTokenHolder)
  else if d = 1 ∧ !s.on F.RIDGE_CTL_B_EN then done (s.finish c Code.badParam)
  else if s.withinLimit d x then
    let named := if rate = 0 then none else some (min rate (s.dom d).slewMax)
    done ((s.acceptSlew d x named).finish c Code.ok)
  else done (s.finish c Code.badParam)

/-- `TIME_MAP` stages a class map, and completes when it is in effect (R20). -/
def execTimeMap (c : CmdRef) (w0 : Nat) (s : State) : Host.Outcome State Fault Refusal :=
  let s := s.wr F.RIDGE_CLASS_MAP_MAP (bits w0 0 7)
  done ({ s with ridge := { s.ridge with mapStaged := true, maps := s.ridge.maps ++ [c] } }.mirrorCmd 0x0303 (s.edgeBeat false) [bits w0 0 7])

/-- A write to RIDGE_CLASS_MAP is staged for the next beat edge (R20). -/
def State.classMapWrite (s : State) (a : Acs) (w : Nat) : State × Nat :=
  let r := s.fieldWrite noLock inRange [F.RIDGE_CLASS_MAP_MAP] 0 w
  ({ r.1 with ridge := { r.1.ridge with mapStaged := true } }).conclude a r.2

/-- `CLASS_MAP_WRITE`: requester `req` writes `w` to RIDGE_CLASS_MAP. -/
def execClassMapWrite (req w : Nat) (s : State) : Host.Outcome State Fault Refusal :=
  done (s.put ⟨req, 0x4048, 2, true⟩ (fun s a => s.classMapWrite a w)).1

/-- `TIME_SNAP`: both counts of one tick go to the host buffer at `buf`, Ridge B's held count while B_EN = 0 (R39). -/
def execTimeSnap (c : CmdRef) (buf : Nat) (s : State) : Host.Outcome State Fault Refusal :=
  let a := s.count 0
  let b := s.count 1
  done ((s.outBuf c buf [a % 2 ^ 32, a / 2 ^ 32, b % 2 ^ 32, b / 2 ^ 32]).finish c Code.ok 0 0 16)

/-- A write of RIDGE_SNAP_CTL.CAPTURE = 1 captures both counts on one tick. -/
def State.snapCapture (s : State) : State :=
  (s.wr F.RIDGE_SNAP_COUNT (s.count 0) 0).wr F.RIDGE_SNAP_COUNT (s.count 1) 1

/-! ### Ridge B enable and disable (R19, R39) -/

/-- DPLL1 has no input: it is DISABLED or in HOLD, or domain B is not tracking a source (FS 13). -/
def State.dpll1NoInput (s : State) : Bool := s.rd F.DPLL_STAT_STATE 1 != 3

/-- Ridge B starts: Ridge A's count, hidden fraction and anchor are copied on one tick (R19). -/
def State.bStart (s : State) : State :=
  let s := s.wr F.RIDGE_x_COUNT_COUNT (s.count 0) 1
  let s := s.wr F.RIDGE_x_ANCHOR_COUNT_COUNT (s.rd F.RIDGE_x_ANCHOR_COUNT_COUNT 0) 1
  let s := s.wr F.RIDGE_x_ANCHOR_SEC_SEC (s.rd F.RIDGE_x_ANCHOR_SEC_SEC 0) 1
  let s := s.wr F.RIDGE_x_ANCHOR_NSF_NS (s.rd F.RIDGE_x_ANCHOR_NSF_NS 0) 1
  let s := s.wr F.RIDGE_x_ANCHOR_NSF_FRAC (s.rd F.RIDGE_x_ANCHOR_NSF_FRAC 0) 1
  let s := { s with ridge := { s.ridge with b := { s.ridge.b with frac := s.ridge.a.frac } } }
  if s.dpll1NoInput then s.raise 13 else s

/-- Ridge B stops: its correction clears, FS 11 stops being live, and what was accepted for it is discarded, a `TIME_STEP` among
it completing with BAD_PARAM (R39). -/
def State.bStop (s : State) : State :=
  let dead := s.ridge.steps.filter (fun q => q.dom == 1)
  let s := s.clearStepNeeded 1
  let s := (s.setDom 1 { s.dom 1 with pend := 0, slewing := false, named := none }).showSlew 1
  let s := { s with ridge := { s.ridge with
    autoB := none
    steps := s.ridge.steps.filter (fun q => q.dom != 1) } }
  s.finishAll (dead.map (fun q => q.ref)) Code.badParam

/-- A write of RIDGE_CTL: BEAT_EVT_DIV is taken, and a change of B_EN starts or stops Ridge B (R19). -/
def State.ridgeCtlWrite (s : State) (a : Acs) (w : Nat) : State × Nat :=
  let was := s.on F.RIDGE_CTL_B_EN
  let r := s.fieldWrite noLock inRange [F.RIDGE_CTL_BEAT_EVT_DIV, F.RIDGE_CTL_B_EN] 0 w
  let now := r.1.on F.RIDGE_CTL_B_EN
  let s := if now && !was then r.1.bStart else if was && !now then r.1.bStop else r.1
  s.conclude a r.2

/-- `RIDGE_B_ENABLE`: requester `req` writes RIDGE_CTL with B_EN = 1; `w` gives the other bits. -/
def execRidgeBEnable (req w : Nat) (s : State) : Host.Outcome State Fault Refusal :=
  done (s.put ⟨req, 0x4000, 2, true⟩ (fun s a => s.ridgeCtlWrite a (setBit w 0 true))).1

/-- `RIDGE_B_DISABLE`: requester `req` writes RIDGE_CTL with B_EN = 0; `w` gives the other bits. -/
def execRidgeBDisable (req w : Nat) (s : State) : Host.Outcome State Fault Refusal :=
  done (s.put ⟨req, 0x4000, 2, true⟩ (fun s a => s.ridgeCtlWrite a (setBit w 0 false))).1

/-! ### The staged addend (R178) -/

/-- DPLL `d` is DISABLED, so the host may write and load domain `d`'s addend. -/
def State.addendOpen (s : State) (d : Nat) : Bool := s.rd F.DPLL_STAT_STATE d == 0

/-- The staged addend of domain `d` takes effect (R10, R170): integer and fraction together. -/
def State.loadAddend (s : State) (d : Nat) : State :=
  s.setDom d { s.dom d with
    addend := s.rd F.RIDGE_x_ADD_INT_ADD_INT d * two40 + s.rd F.RIDGE_x_ADD_FRAC_ADD_FRAC d }

/-- The staged addend field `f` of domain `d` is written: locked while the loop is not DISABLED, when a write that would change
it answers CFG_LOCKED and raises FS 14 with FS 0 (R178). -/
def State.addWrite (s : State) (a : Acs) (d : Nat) (f : Fld) (v : Nat) : State × Nat :=
  let locked := !s.addendOpen d
  let r := s.fieldWrite (fun _ => locked) inRange [f] d v
  let s := if r.2.contains Code.cfgLocked then r.1.raise 14 else r.1
  s.conclude a r.2

/-- `ADD_WRITE`: requester `req` writes the staged integer (`frac` false) or fraction of domain `dom`'s addend. -/
def execAddWrite (req dom : Nat) (frac : Bool) (v : Nat) (s : State) : Host.Outcome State Fault Refusal :=
  let d := dom % 2
  if frac then done (s.put ⟨req, 0x4028 + 8 * d, 3, true⟩ (fun s a => s.addWrite a d F.RIDGE_x_ADD_FRAC_ADD_FRAC v)).1
  else done (s.put ⟨req, 0x4020 + 4 * d, 2, true⟩ (fun s a => s.addWrite a d F.RIDGE_x_ADD_INT_ADD_INT v)).1

/-- One LOAD bit of RIDGE_ADD_LOAD: the staged addend is applied on the next tick, or refused while the loop is not DISABLED
(R178). -/
def State.addLoadOne (r : State × List Nat) (d : Nat) (go : Bool) : State × List Nat :=
  if !go then r
  else if r.1.addendOpen d then ((r.1.loadAddend d).runTicks 0, r.2)
  else (r.1.raise 14, r.2 ++ [Code.cfgLocked])

/-- A write of RIDGE_ADD_LOAD. -/
def State.addLoad (s : State) (a : Acs) (w : Nat) : State × Nat :=
  let r := State.addLoadOne (State.addLoadOne (s, []) 0 (bit w 0)) 1 (bit w 1)
  r.1.conclude a r.2

/-- `ADD_LOAD`: requester `req` writes `w` to RIDGE_ADD_LOAD. -/
def execAddLoad (req w : Nat) (s : State) : Host.Outcome State Fault Refusal :=
  done (s.put ⟨req, 0x4038, 2, true⟩ (fun s a => s.addLoad a w)).1

/-! ### Beat faults and their acknowledgement -/

/-- `PHASE_SLIP`: phase `p` is still running at its deadline: counted, and FS 9 raised (R46). -/
def execPhaseSlip (p : Nat) (s : State) : Host.Outcome State Fault Refusal :=
  let s := (s.inc F.RIDGE_BEAT_OVR_SLIP_CNT).raise 9
  done (s.wr F.RIDGE_STAT_PHASE (if 1 ≤ p ∧ p ≤ 4 then p else s.rd F.RIDGE_STAT_PHASE))

/-- RIDGE_BEAT_CLR.ACK clears RIDGE_BEAT_OVR and RIDGE_PHASE_HWM[0–3] (R498). -/
def State.beatClr (s : State) : State :=
  ((s.rst F.RIDGE_BEAT_OVR_SLIP_CNT).rst F.RIDGE_BEAT_OVR_OVR_CNT).rstAll F.RIDGE_PHASE_HWM_HWM 4

/-- `BEAT_CLR_ACK`: RIDGE_BEAT_CLR.ACK is written 1. -/
def execBeatClrAck (s : State) : Host.Outcome State Fault Refusal := done s.beatClr

end Sys2Proof.Machine
end

