-- ==== Sys2Proof/Machine/Tdc.lean ====
section
/-! DEFINITION. The edge measurement array (spec/02_edge_measurement.md): stamps, START_STOP windows, regression gates, the rings,
delay-line lock, substitution of spares, and the writes of its registers. -/
namespace Sys2Proof.Machine

namespace Tdc
def disabled : Nat := 0
def locking : Nat := 1
def running : Nat := 2
def shadow : Nat := 3
def spareIdle : Nat := 4
def cal : Nat := 5
def oos : Nat := 6
def stopping : Nat := 7
end Tdc

/-- Logical channel `n` without a register. -/
def State.tch (s : State) (n : Nat) : TdcCh := s.tdc.ch.getD n {}

/-- Channel `n`'s hidden state becomes `c`. -/
def State.setTch (s : State) (n : Nat) (c : TdcCh) : State := { s with tdc := { s.tdc with ch := s.tdc.ch.set n c } }

/-- The state code of channel `n`. -/
def State.tdcState (s : State) (n : Nat) : Nat := s.rd F.TDC_CH_STAT_STATE n

/-- The physical channel that serves logical channel `n`. -/
def State.tdcPhys (s : State) (n : Nat) : Nat := s.rd F.TDC_CH_STAT_PHYS n

/-- The snapshot word of a TDC source: physical channel in [5:0], logical in [13:8] (Table TDC-7). -/
def State.tdcSnap (s : State) (n : Nat) : Nat := s.tdcPhys n + n * 256

/-- The delay line of channel `n` is a fine one: its physical channel is TDC0 to TDC7 (Table TDC-1). -/
def State.tdcFine (s : State) (n : Nat) : Bool := s.tdcPhys n < 8

/-- One bin of channel `n` in units of 2^-1 ru / 10, that is 0.1 ps: 16 for a fine channel, 125 for a phase channel. -/
def State.tdcBinTenthPs (s : State) (n : Nat) : Nat := if s.tdcFine n then 16 else 125

/-- The measurement clock runs and is locked, so stamps are taken (R85). -/
def State.measOk (s : State) : Bool := s.on F.TDC_CTL_EN && s.on F.TDC_STAT_MEAS_LOCK

/-! ### Stamp rings (R86 to R88) -/

/-- The fourth word of a ring record (Table TDC-5). -/
def ringWord (type idx : Nat) (near restart timeout maint spare unlocked : Bool) (phys src : Nat) : Nat :=
  type * 2 ^ 28 + idx % 16 * 2 ^ 24 + near.toNat * 2 ^ 23 + restart.toNat * 2 ^ 22 + timeout.toNat * 2 ^ 21 +
    maint.toNat * 2 ^ 20 + spare.toNat * 2 ^ 19 + unlocked.toNat * 2 ^ 18 + phys % 64 * 2 ^ 8 + src % 64

/-- The ring of channel `n` has space for a record. -/
def State.ringSpace (s : State) (n : Nat) : Bool :=
  ptrUsed 10 10 (s.rd F.TDC_RING_RD_PTR n) (s.rd F.TDC_RING_WR_PTR n) < 1024

/-- A record of 16 bytes is stored at TDC_RING_WR[n], which advances (R86). -/
def State.ringStore (s : State) (n value seq word : Nat) : State :=
  let w := s.rd F.TDC_RING_WR_PTR n
  let a := 0x900000 + 0x4000 * n + 16 * ptrIdx 10 w
  (s.mwr a 16 (value % two64 + two64 * (seq % 2 ^ 32) + 2 ^ 96 * word)).wr F.TDC_RING_WR_PTR (ptrNext 10 10 w) n

/-- When space has returned, the LOST record is written before any other (R87). -/
def State.ringReport (s : State) (n : Nat) : State :=
  let c := s.tch n
  if c.ringLost ≠ 0 ∧ s.ringSpace n then
    (s.ringStore n c.ringLost 0 (5 * 2 ^ 28)).setTch n { c with ringLost := 0 }
  else s

/-- A record goes to the ring of channel `n`, or is dropped and counted when the ring is full, FS 19 once for each overflow
(R87). -/
def State.ringPut (s : State) (n value seq word : Nat) : State :=
  let s := s.ringReport n
  let c := s.tch n
  if s.ringSpace n then s.ringStore n value seq word
  else
    let s := if c.ringLost = 0 then s.raise 19 (s.tdcSnap n) else s
    (s.setTch n { c with ringLost := c.ringLost + 1 }).inc F.TDC_RING_LOST_LOST n

/-- A record of type `type` for channel `n`, with the flags of its present state; only while RING_EN = 1 (R88). -/
def State.ringRec (s : State) (n type value seq idx : Nat) (near restart timeout : Bool) (src : Nat) : State :=
  if !s.on F.TDC_CH_CTL_RING_EN n then s else
  let p := s.tdcPhys n
  s.ringPut n value seq (ringWord type idx near restart timeout (s.on F.TDC_STAT_MAINT_ACTIVE) (p != n)
    (s.tdcFine n && !s.on F.TDC_CH_STAT_LOCKED n) p src)

/-! ### Regression gates (R65 to R72) -/

/-- A gate opened now: t0 is the present Ridge A count. -/
def State.newGate (s : State) (n : Nat) (short : Bool) : Gate :=
  { t0 := s.count 0
    s0 := s.steer 0
    tick0 := s.ridge.ticks
    short := short
    maint := s.on F.TDC_STAT_MAINT_ACTIVE
    unlocked := s.tdcFine n && !s.on F.TDC_CH_STAT_LOCKED n
    invalid := !s.measOk || s.tdcState n == Tdc.cal }

/-- A stamp `t` with edge index `k` enters the sums of gate `g`. -/
def Gate.add (g : Gate) (t k : Nat) : Gate :=
  let kf := if g.n = 0 then k else g.kFirst
  let dk := (k + 2 ^ 32 - kf) % 2 ^ 32
  let dt := ridgeDist t g.t0
  { g with n := g.n + 1, kFirst := kf, sk := g.sk + dk, skk := g.skk + dk * dk, st := g.st + dt, skt := g.skt + dk * dt,
           stt := g.stt + dt * dt }

/-- Channel `n` regresses: STAMP mode, RUNNING or CAL, and a gate that is not 0. -/
def State.regresses (s : State) (n : Nat) : Bool :=
  !s.on F.TDC_CH_CTL_MODE n && (s.tdcState n == Tdc.running || s.tdcState n == Tdc.cal) && s.on F.TDC_CH_GATE_GATE n

/-- The nearest integer to the square root of `q`, for `q` not negative. -/
def sqrtNearest (q : Rat) : Nat := (isqrt (4 * q).floor.toNat + 1) / 2

/-- The result of a closed gate is published: every result register on one tick, GATE_SEQ advancing (R68, R69). -/
def State.publish (s : State) (n : Nat) (c : ClosingGate) : State :=
  let g := c.gate
  let te : Rat := ridgeDist c.te g.t0
  let nom : Rat := s.rd F.TDC_CH_NOM_VALUE n
  let noEdge := g.n == 0
  let valid := !noEdge && !g.unlocked && !g.invalid
  let den : Rat := (g.n : Rat) * g.skk - (g.sk : Rat) * g.sk
  let b : Rat := ((g.n : Rat) * g.skt - (g.sk : Rat) * g.st) / den
  let a : Rat := ((g.st : Rat) - b * g.sk) / g.n
  let s := if noEdge then (s.wrFree F.TDC_RES_PHASE_VALUE n).wrFree F.TDC_RES_FREQ_VALUE n
    else if g.n = 1 then (s.wrFit F.TDC_RES_PHASE_VALUE ((g.st : Rat) - te) n).wrFree F.TDC_RES_FREQ_VALUE n
    else if b = 0 then (s.wrFree F.TDC_RES_PHASE_VALUE n).wrFree F.TDC_RES_FREQ_VALUE n
    else
      let ke := roundRat ((te - a) / b)
      (s.wrFit F.TDC_RES_PHASE_VALUE (a + b * ke - te) n).wrFit F.TDC_RES_FREQ_VALUE ((nom / b - 1) * 2 ^ 60) n
  let s := s.wrSat F.TDC_RES_N_N g.n n
  let s := if noEdge then s.wrFree F.TDC_RES_RESID_RESID n
    else s.wrSat F.TDC_RES_RESID_RESID
      (if g.n ≤ 2 then 0 else sqrtNearest (max 0 (((g.stt : Rat) - a * g.st - b * g.skt) / (g.n - 2)))) n
  let s := s.wrB F.TDC_RES_INFO_VALID valid n
  let s := s.wrB F.TDC_RES_INFO_FREQ_VALID (2 ≤ g.n && nom != 0 && b != 0) n
  let s := s.wrB F.TDC_RES_INFO_MAINT g.maint n
  let s := s.wrB F.TDC_RES_INFO_STEP c.step n
  let s := s.wrB F.TDC_RES_INFO_SPARE (s.tdcPhys n != n) n
  let s := s.wrB F.TDC_RES_INFO_NO_EDGE noEdge n
  let s := s.wrB F.TDC_RES_INFO_OVERRATE g.overrate n
  let s := s.wrB F.TDC_RES_INFO_UNLOCKED g.unlocked n
  let s := s.bump F.TDC_RES_INFO_GATE_SEQ n
  let s := s.setTch n { s.tch n with rA := rateOver (c.sE - g.s0) (c.tickE - g.tick0) }
  let s := { s with tdc := { s.tdc with fresh := s.tdc.fresh ++ [n] } }
  if noEdge && !g.short then s.raise 22 (s.tdcSnap n) else s

/-- The open gate of channel `n` ends now, at the present Ridge A count, and the next one opens (R67, R71). -/
def State.endGate (s : State) (n : Nat) (step : Bool) : State :=
  let c := s.tch n
  match c.gate with
  | none => s.setTch n { c with gate := some (s.newGate n step) }
  | some g => s.setTch n { c with
      gate := some (s.newGate n step)
      closing := some ⟨{ g with short := g.short || step }, s.count 0, step, s.steer 0, s.ridge.ticks⟩ }

/-- At a beat edge whose beat count since the epoch is `k`, every gate whose length divides `k` ends (R65). -/
def State.endDueGates (s : State) (k : Nat) : State :=
  forN 48 s (fun s n =>
    if s.regresses n && k % s.rd F.TDC_CH_GATE_GATE n == 0 then s.endGate n false else s)

/-- A step of Ridge A closes every open gate as a short gate with STEP set, before the count moves (R71); a gate that this very
edge ended is closed already. -/
def State.stepGates (s : State) : State :=
  forN 48 s (fun s n => if s.regresses n && (s.tch n).closing.isNone then s.endGate n true else s)

/-- The gates that ended are closed and published (R67). -/
def State.publishAll (s : State) : State :=
  forN 48 s (fun s n =>
    match (s.tch n).closing with
    | none => s
    | some c => (s.setTch n { s.tch n with closing := none }).publish n c)

/-- After a step of Ridge A, the gates that open at the edge start from the new count (R71). -/
def State.rebaseGates (s : State) : State :=
  forN 48 s (fun s n => s.setTch n { s.tch n with
    gate := (s.tch n).gate.map (fun g => { g with t0 := s.count 0, s0 := s.steer 0, tick0 := s.ridge.ticks }) })

/-- Every open gate is changed by `f`. -/
def State.mapGates (s : State) (f : Gate → Gate) (p : Nat → Bool) : State :=
  forN 48 s (fun s n => if p n then s.setTch n { s.tch n with gate := (s.tch n).gate.map f } else s)

/-! ### Edges (R50 to R64) -/

/-- The effective increment of the present tick in 2^-40 ru (R10). -/
def State.increment (s : State) (d : Nat) : Nat :=
  (((s.dom d).addend : Int) + (s.dom d).slewOver 1).toNat

/-- The converted time of an edge `pos` / 2^16 of a tick into the present tick: the count plus that part of the effective
increment (R50). -/
def State.convert (s : State) (pos : Nat) : Nat :=
  ((s.count 0 * two40 + s.ridge.a.frac + s.increment 0 * (pos % 65536) / 65536) / two40) % two64

/-- The stamp channel `n` reports for an edge from source `src` converted to `t` (R51), with the fixed correction of a spare
(R79). -/
def State.stampOf (s : State) (n src t : Nat) : Nat :=
  let corr : Int := if s.tdcPhys n = n then 0 else
    (if s.rd F.TDC_SUB_STAT_SPARE0_FOR = n then s.tdc.corr.getD 0 0 else s.tdc.corr.getD 1 0)
  stepCount t (-(s.rdS F.TDC_XB_DLY_DLY src) + s.rdS F.TDC_CH_OFS_VALUE n + corr)

/-- The raw time now, in 2^-16 of a tick. -/
def State.rawTime (s : State) (pos : Nat) : Nat := s.ridge.ticks * 65536 + pos % 65536

/-- An edge at `raw` falls within the dead time of 3.2 ns after the capture's last accepted edge (R53). -/
def inDeadTime (last : Option Nat) (raw : Nat) : Bool :=
  match last with
  | some l => raw < l + 4 * 65536
  | none => false

/-- The stamps waiting in the input FIFO at `raw`: one leaves every 20 ns, which is 25 ticks (R54). -/
def fifoUsed (fifoEnd raw : Nat) : Nat := ceilDiv (fifoEnd - raw) (25 * 65536)

/-- An edge that is not stamped: counted in MISSED, FS 18 raised (R53). -/
def State.missEdge (s : State) (n : Nat) : State :=
  (s.inc F.TDC_CH_CNT_MISSED n).raise 18 (s.tdcSnap n)

/-- A stamp enters the gate it belongs to: the closing one while its distance to the gate end is negative (R66). -/
def TdcCh.addStamp (c : TdcCh) (t k : Nat) : TdcCh :=
  match c.closing with
  | some cl =>
    if ridgeDist t cl.te < 0 then { c with closing := some { cl with gate := cl.gate.add t k } }
    else { c with gate := c.gate.map (fun g => g.add t k) }
  | none => { c with gate := c.gate.map (fun g => g.add t k) }

/-- An edge in STAMP mode (R50 to R54, R58, R88). -/
def State.stampEdge (s : State) (n src pos : Nat) : State :=
  let c := s.tch n
  let raw := s.rawTime pos
  let k := c.idx
  let c := { c with idx := (k + 1) % 2 ^ 32 }
  if !s.measOk then s.setTch n c
  else if inDeadTime c.lastStart raw then (s.setTch n c).missEdge n
  else if fifoUsed c.fifoEnd raw ≥ 64 then
    (s.setTch n { c with gate := c.gate.map (fun g => { g with overrate := true }) }).missEdge n
  else
    let t := s.stampOf n src (s.convert pos)
    let c := { c with lastStart := some raw, fifoEnd := max raw c.fifoEnd + 25 * 65536 }
    let s := s.setTch n (c.addStamp t k)
    if k % 2 ^ s.rd F.TDC_CH_CTL_DECIM_LOG2 n = 0 then s.ringRec n 0 t k 0 false false false src else s

/-- The CLOSE record of the open window of channel `n`. -/
def State.closeRec (s : State) (n : Nat) (restart timeout : Bool) : State :=
  let c := s.tch n
  s.ringRec n 3 (s.count 0) c.winNo c.winStops false restart timeout c.winSrc

/-- The window state after a window closes: IDLE when a trigger line arms it, else ARMED (Table TDC-3). -/
def State.rearm (s : State) (n : Nat) : State :=
  s.wr F.TDC_CH_STAT_WINDOW (if s.on F.TDC_CH_CTL_ARM_SEL n then 0 else 1) n

/-- A start edge in START_STOP mode (Table TDC-3). -/
def State.startEdge (s : State) (n src pos : Nat) : State :=
  let raw := s.rawTime pos
  let w := s.rd F.TDC_CH_STAT_WINDOW n
  if !s.measOk then s
  else if inDeadTime (s.tch n).lastStart raw then s.missEdge n
  else
    let s := s.setTch n { s.tch n with lastStart := some raw }
    if w = 0 then s else
    let t := s.stampOf n src (s.convert pos)
    let s := if w = 2 then ((s.closeRec n true false).inc F.TDC_CH_CNT_RESTARTS n).raise 21 (s.tdcSnap n) else s
    let c := s.tch n
    let s := s.setTch n { c with winNo := (c.winNo + 1) % 2 ^ 32, winStart := t, winStops := 0, winSrc := src }
    (s.ringRec n 1 t (s.tch n).winNo 0 false false false src).wr F.TDC_CH_STAT_WINDOW 2 n

/-- A stop edge in START_STOP mode (Table TDC-3, R60, R61). -/
def State.stopEdge (s : State) (n src pos : Nat) : State :=
  let raw := s.rawTime pos
  let c := s.tch n
  if !s.measOk then s
  else if inDeadTime c.lastStop raw then s.missEdge n
  else
    let c := { c with lastStop := some raw }
    let t := s.stampOf n src (s.convert pos)
    if s.rd F.TDC_CH_STAT_WINDOW n ≠ 2 then
      let s := (s.setTch n c).ringRec n 4 t 0 0 false false false src
      (s.inc F.TDC_CH_CNT_ORPHANS n).raise 20 (s.tdcSnap n)
    else
      let d := ridgeDist t c.winStart
      let near := d.natAbs * 10000 < s.tdcBinTenthPs n * 65536
      let k := c.winStops + 1
      let s := s.setTch n { c with winStops := k }
      let s := s.ringRec n 2 (ofS 64 d) c.winNo k near false false src
      if k ≥ s.rd F.TDC_CH_CTL_MAX_STOPS n then (s.closeRec n false false).rearm n else s

/-- What an edge that left the prescaler of source `src` does at channel `n` (R55): stamped, started, stopped or nothing. A channel
that is calibrated without a spare measures source 60 (R76); one in OOS only source 60 or 61, to its ring. -/
def State.channelEdge (s : State) (src : Nat) (fall : Bool) (pos n : Nat) : State :=
  let st := s.tdcState n
  let mode := s.on F.TDC_CH_CTL_MODE n
  let isStart := s.rd F.TDC_CH_SRC_START_SRC n == src && s.on F.TDC_CH_CTL_START_FALL n == fall
  let isStop := s.rd F.TDC_CH_SRC_STOP_SRC n == src && s.on F.TDC_CH_CTL_STOP_FALL n == fall
  if st = Tdc.cal then (if src = 60 ∧ !fall then s.stampEdge n src pos else s)
  else if st = Tdc.oos then (if (src = 60 ∨ src = 61) ∧ isStart then s.stampEdge n src pos else s)
  else if st ≠ Tdc.running then s
  else if !mode then (if isStart then s.stampEdge n src pos else s)
  else
    let s := if isStart then s.startEdge n src pos else s
    if isStop then s.stopEdge n src pos else s

/-- An edge of source `src` of the polarity `fall`, `pos` / 2^16 of a tick into the present tick, reaches the crossbar. Its
prescaler passes every DIV-th one to the channels that select it (R55). -/
def State.crossEdge (s : State) (src : Nat) (fall : Bool) (pos : Nat) : State :=
  if 64 ≤ src then s else
  let cnt := if fall then s.tdc.preFall.getD src 0 else s.tdc.preRise.getD src 0
  let cnt' := if cnt = 0 then s.rd F.TDC_XB_PRE_DIV src - 1 else cnt - 1
  let s := if fall then { s with tdc := { s.tdc with preFall := s.tdc.preFall.set src cnt' } }
    else { s with tdc := { s.tdc with preRise := s.tdc.preRise.set src cnt' } }
  if cnt ≠ 0 ∨ !s.on F.TDC_CTL_EN then s
  else forN 48 s (fun s n => s.channelEdge src fall pos n)

/-- `TDC_EDGE`: an edge of a source reaches the crossbar. -/
def execTdcEdge (src : Nat) (fall : Bool) (pos : Nat) (s : State) : Host.Outcome State Fault Refusal :=
  done (s.crossEdge src fall pos)

/-- `WINDOW_TIMEOUT`: the window of channel `n` ends: a CLOSE record with TIMEOUT (Table TDC-3). -/
def execWindowTimeout (n : Nat) (s : State) : Host.Outcome State Fault Refusal :=
  if s.rd F.TDC_CH_STAT_WINDOW n = 2 then done ((s.closeRec n false true).rearm n) else done s

/-- A pulse on time-trigger line `line` arms the START_STOP channels that select it (Table TDC-3). -/
def State.armChannels (s : State) (line : Nat) : State :=
  forN 48 s (fun s n =>
    if s.tdcState n == Tdc.running && s.on F.TDC_CH_CTL_MODE n && s.rd F.TDC_CH_CTL_ARM_SEL n == line + 1 &&
      s.rd F.TDC_CH_STAT_WINDOW n == 0 then s.wr F.TDC_CH_STAT_WINDOW 1 n else s)

/-! ### Delay-line lock (R73, R74, R85) -/

/-- LOCKED of channel `n`, and its bit of TDC_STAT.FINE_LOCKED. -/
def State.setLocked (s : State) (n : Nat) (b : Bool) : State :=
  (s.wrB F.TDC_CH_STAT_LOCKED b n).wrBit F.TDC_STAT_FINE_LOCKED (s.tdcPhys n) b

/-- Channel `n` starts to measure: accumulators cleared, index 0, and a first gate that is short (Table TDC-4, R65). -/
def State.chanRun (s : State) (n : Nat) : State :=
  let s := s.wr F.TDC_CH_STAT_STATE Tdc.running n
  let c := s.tch n
  let s := s.setTch n { c with idx := 0, closing := none, lastStart := none, lastStop := none, fifoEnd := 0, winNo := 0 }
  let s := s.setTch n { s.tch n with gate := if s.regresses n then some (s.newGate n true) else none }
  if s.on F.TDC_CH_CTL_MODE n then s.rearm n else s.wr F.TDC_CH_STAT_WINDOW 0 n

/-- `LOCK_LOST`: the delay line of fine channel `n` unlocks: LOCKED clears, FS 16 is raised, the open gate is UNLOCKED (R72, R73). -/
def execLockLost (n : Nat) (s : State) : Host.Outcome State Fault Refusal :=
  if s.tdcFine n && s.on F.TDC_CH_STAT_LOCKED n then
    let s := (s.setLocked n false).condOn 16 (s.tdcSnap n)
    done (s.mapGates (fun g => { g with unlocked := true }) (· == n))
  else done s

/-- `LOCK_ACQUIRED`: the delay line of fine channel `n` locks: LOCKED sets, and a LOCKING channel runs (R73, R74). -/
def execLockAcquired (n : Nat) (s : State) : Host.Outcome State Fault Refusal :=
  let st := s.tdcState n
  if s.tdcFine n && s.measOk && (st == Tdc.locking || st == Tdc.running) then
    let s := (s.setLocked n true).condOff 16 (s.tdcSnap n)
    done (if st = Tdc.locking then s.chanRun n else s)
  else done s

/-- `LOCK_TIMEOUT`: fine channel `n` has not locked 16 beats after its enable, or after the return of MEAS lock: FS 16 (R85). -/
def execLockTimeout (n : Nat) (s : State) : Host.Outcome State Fault Refusal :=
  let st := s.tdcState n
  if s.tdcFine n && !s.on F.TDC_CH_STAT_LOCKED n && (st == Tdc.locking || st == Tdc.running) then
    done (s.condOn 16 (s.tdcSnap n))
  else done s

/-! ### Channel enable and disable (Table TDC-4, R83, R84) -/

/-- Channel `n` starts: a fine channel locks first; a phase channel runs, FS 17 when it has no skew table (Table TDC-7).
Its ST counters clear. -/
def State.chanStart (s : State) (n : Nat) : State :=
  let s := s.rstFlds [F.TDC_RING_LOST_LOST, F.TDC_CH_CNT_MISSED, F.TDC_CH_CNT_ORPHANS, F.TDC_CH_CNT_RESTARTS,
    F.TDC_RES_INFO_GATE_SEQ] n
  if s.tdcFine n then s.wr F.TDC_CH_STAT_STATE Tdc.locking n
  else
    let s := if (s.tch (s.tdcPhys n)).table then s else s.raise 17 (s.tdcSnap n)
    s.chanRun n

/-- Channel `n` stops: an open window closes with TIMEOUT, the open gate is discarded (Table TDC-3, Table TDC-4). -/
def State.chanStop (s : State) (n : Nat) : State :=
  let s := s.dequeue Act.tdcCal n
  let s := if s.rd F.TDC_CH_STAT_WINDOW n = 2 then s.closeRec n false true else s
  let s := (s.wr F.TDC_CH_STAT_WINDOW 0 n).setLocked n false
  let s := s.condOff 16 (s.tdcSnap n)
  (s.setTch n { s.tch n with gate := none, closing := none }).wr F.TDC_CH_STAT_STATE Tdc.stopping n

/-- Fine channel `n` is named in TDC_SPARE (R78). -/
def State.isSpare (s : State) (n : Nat) : Bool := n < 8 && (s.rd F.TDC_SPARE_SPARE0 == n || s.rd F.TDC_SPARE_SPARE1 == n)

/-- The fields of TDC_CH_CTL. -/
def tdcCtlFlds : List Fld :=
  [F.TDC_CH_CTL_DECIM_LOG2, F.TDC_CH_CTL_MAX_STOPS, F.TDC_CH_CTL_ARM_SEL, F.TDC_CH_CTL_OOS, F.TDC_CH_CTL_RING_EN,
   F.TDC_CH_CTL_STOP_FALL, F.TDC_CH_CTL_START_FALL, F.TDC_CH_CTL_MODE, F.TDC_CH_CTL_EN]

/-- A write of TDC_CH_CTL[n] (R84, R503): while the channel is not DISABLED only EN and OOS change; an enable of a channel
named as a spare answers CFG_LOCKED (R78). -/
def State.tdcCtlWrite (s : State) (a : Acs) (n w : Nat) : State × Nat :=
  let st := s.tdcState n
  let was := s.on F.TDC_CH_CTL_EN n
  let wasOos := s.on F.TDC_CH_CTL_OOS n
  let lock := fun f : Fld =>
    if f.among [F.TDC_CH_CTL_EN] then s.isSpare n
    else if s.testing n then true
    else if f.among [F.TDC_CH_CTL_OOS] then false
    else st != Tdc.disabled && st != Tdc.oos
  let r := s.fieldWrite lock inRange tdcCtlFlds n w
  let s := r.1
  let now := s.on F.TDC_CH_CTL_EN n
  let s :=
    if now && !was then
      (if st = Tdc.disabled then s.chanStart n
       else if st = Tdc.stopping ∨ s.testing n then s.wr F.TDC_CH_STAT_PENDING_ENABLE 1 n else s)
    else if was && !now then
      (if st = Tdc.stopping ∨ s.testing n then s.wr F.TDC_CH_STAT_PENDING_ENABLE 0 n
       else if st = Tdc.locking ∨ st = Tdc.running ∨ st = Tdc.cal then s.chanStop n else s)
    else s
  let nowOos := s.on F.TDC_CH_CTL_OOS n
  let s :=
    if nowOos && !wasOos && s.tdcState n == Tdc.disabled then s.wr F.TDC_CH_STAT_STATE Tdc.oos n
    else if wasOos && !nowOos && s.tdcState n == Tdc.oos then s.wr F.TDC_CH_STAT_STATE Tdc.disabled n
    else s
  s.conclude a r.2

/-- The access of requester `req` that writes TDC_CH_CTL[n]. -/
def tdcCtlAcs (req n : Nat) : Acs := ⟨req, 0x6400 + 0x20 * n, 2, true⟩

/-- `TDC_CH_ENABLE`: requester `req` writes TDC_CH_CTL[n] with EN = 1; `w` gives the other bits. -/
def execTdcChEnable (req n w : Nat) (s : State) : Host.Outcome State Fault Refusal :=
  if n < 48 then done (s.put (tdcCtlAcs req n) (fun s a => s.tdcCtlWrite a n (setBit w 0 true))).1 else done s

/-- `TDC_CH_DISABLE`: requester `req` writes TDC_CH_CTL[n] with EN = 0; `w` gives the other bits. -/
def execTdcChDisable (req n w : Nat) (s : State) : Host.Outcome State Fault Refusal :=
  if n < 48 then done (s.put (tdcCtlAcs req n) (fun s a => s.tdcCtlWrite a n (setBit w 0 false))).1 else done s

/-- `TDC_STOP_DONE`: channel `n` finishes STOPPING, becomes DISABLED, and starts again if an enable is pending (R83). Its stop waits for a
calibration that runs (R569). -/
def execTdcStopDone (n : Nat) (s : State) : Host.Outcome State Fault Refusal :=
  if s.tdcState n = Tdc.stopping ∧ !s.isRunning Act.tdcCal n then
    let s := s.wr F.TDC_CH_STAT_STATE Tdc.disabled n
    if s.on F.TDC_CH_STAT_PENDING_ENABLE n then done ((s.wr F.TDC_CH_STAT_PENDING_ENABLE 0 n).chanStart n) else done s
  else done s

/-! ### The measurement PLL (R85) -/

/-- The measurement clock stops: MEAS_LOCK clears, every open gate can no longer be VALID, and LOCKED of every fine channel clears with
its open gate UNLOCKED, without FS 16. -/
def State.measStop (s : State) : State :=
  let s := s.wr F.TDC_STAT_MEAS_LOCK 0
  let fine := idxs 48 (fun n => s.tdcFine n)
  let s := s.mapGates (fun g => { g with invalid := true }) (fun _ => true)
  let s := s.mapGates (fun g => { g with unlocked := true }) (fun n => fine.contains n)
  fine.foldl (fun s n => (s.setLocked n false).condOff 16 (s.tdcSnap n)) s

/-- `MEAS_UNLOCK`: the measurement PLL loses lock while TDC_CTL.EN = 1: FS 25 (R85). A PLL that is off has no lock to lose. -/
def execMeasUnlock (s : State) : Host.Outcome State Fault Refusal :=
  if s.measOk then done (s.measStop.condOn 25) else done s

/-- `MEAS_RELOCK`: the measurement PLL locks: every channel starts a short gate; fine channels relock under R73 (R85). -/
def execMeasRelock (s : State) : Host.Outcome State Fault Refusal :=
  if s.on F.TDC_CTL_EN && !s.on F.TDC_STAT_MEAS_LOCK then
    let s := (s.wr F.TDC_STAT_MEAS_LOCK 1).condOff 25
    done (forN 48 s (fun s n => if s.regresses n then s.setTch n { s.tch n with gate := some (s.newGate n true) } else s))
  else done s

/-- A write of TDC_CTL: the array and its PLL are turned on, the lock following by itself, or off, when no lock is lost (R85). -/
def State.tdcArrayWrite (s : State) (a : Acs) (w : Nat) : State × Nat :=
  let was := s.on F.TDC_CTL_EN
  let s := s.wr F.TDC_CTL_EN (bits w 0 1)
  let s := if was && !bit w 0 then s.measStop.condOff 25 else s
  s.conclude a []

/-- `TDC_ARRAY_ENABLE`: requester `req` writes `w` to TDC_CTL. -/
def execTdcArrayEnable (req w : Nat) (s : State) : Host.Outcome State Fault Refusal :=
  done (s.put ⟨req, 0x6000, 2, true⟩ (fun s a => s.tdcArrayWrite a w)).1

/-! ### Calibration (R76, R77) -/

/-- A calibration of channel `n` is within limits: DNL at most 0.8 bin for a fine channel (LSB 0.001 bin), skew at most 6 ps for a
phase channel (LSB 0.01 ps) (R77). -/
def calWithin (fine : Bool) (worst : Nat) : Bool := if fine then worst ≤ 800 else worst ≤ 600

/-- The end of the calibration run of physical channel `p` serving `n`: its table is applied, or the previous one kept with FS 24. -/
def State.calDone (s : State) (n p worst binAvg : Nat) : State :=
  let good := calWithin (p < 8) worst
  let s := if !good then s.raise 24 (p + n * 256) else
    let s := s.setTch p { s.tch p with table := true }
    if p < 8 then (s.wrSat F.TDC_FINE_CAL_DNL_MAX worst p).wrSat F.TDC_FINE_CAL_BIN_AVG binAvg p else s
  if s.tdcState n = Tdc.cal then s.wr F.TDC_CH_STAT_STATE Tdc.running n else s

/-! ### Spares (R78 to R82) -/

/-- The fine channel that spare `sel` names, 0x3F when none. -/
def State.spareCh (s : State) (sel : Nat) : Nat := if sel = 0 then s.rd F.TDC_SPARE_SPARE0 else s.rd F.TDC_SPARE_SPARE1

/-- The logical channel that spare `sel` serves, 0x3F when none. -/
def State.spareFor (s : State) (sel : Nat) : Nat :=
  if sel = 0 then s.rd F.TDC_SUB_STAT_SPARE0_FOR else s.rd F.TDC_SUB_STAT_SPARE1_FOR

/-- A request is refused: FAILED and FS 23 (R81). -/
def State.subRefused (s : State) (n : Nat) : State := (s.wr F.TDC_SUB_STAT_FAILED 1).raise 23 (s.tdcSnap n)

/-- A substitution of spare `sel` for channel `n` begins its shadow (R79), or is refused (R81). -/
def State.subStart (s : State) (sel n : Nat) : State :=
  let p := s.spareCh sel
  if p ≥ 8 ∨ n ≥ 48 ∨ s.tdcState p ≠ Tdc.spareIdle ∨ s.tdcState n ≠ Tdc.running ∨ s.on F.TDC_CH_CTL_MODE n ∨ s.tdcPhys n ≠ n
  then s.subRefused n
  else
    let s := (s.wr F.TDC_CH_STAT_STATE Tdc.shadow p).wr F.TDC_SUB_STAT_BUSY 1
    { s with tdc := { s.tdc with subs := s.tdc.subs ++ [⟨sel, n, false⟩] } }

/-- A restoration of channel `n` from spare `sel` begins its shadow (R80), or is refused (R81). -/
def State.restoreStart (s : State) (sel n : Nat) : State :=
  if s.spareFor sel ≠ n ∨ n ≥ 48 ∨ s.tdcState n ≠ Tdc.running ∨ s.on F.TDC_CH_CTL_MODE n ∨
    s.tdc.subs.any (fun q => q.sel == sel) then s.subRefused n
  else
    { s.wr F.TDC_SUB_STAT_BUSY 1 with tdc := { s.tdc with subs := s.tdc.subs ++ [⟨sel, n, true⟩] } }

/-- A write of TDC_SUB: its RW fields are taken, and GO = 1 starts a substitution or a restoration, DONE and FAILED clearing. A channel index
that the TE-864 does not implement leaves the whole register as it was (R2; assumption 111). -/
def State.tdcSubWrite (s : State) (a : Acs) (w : Nat) : State × Nat :=
  if 48 ≤ bits w 0 6 then s.conclude a [Code.badParam] else
  let r := s.fieldWrite noLock inRange [F.TDC_SUB_DIR, F.TDC_SUB_SEL, F.TDC_SUB_LCH] 0 w
  let s := r.1
  let s := if !bit w 31 then s else
    let s := (s.wr F.TDC_SUB_STAT_DONE 0).wr F.TDC_SUB_STAT_FAILED 0
    let sel := s.rd F.TDC_SUB_SEL
    let n := s.rd F.TDC_SUB_LCH
    if s.on F.TDC_SUB_DIR then s.restoreStart sel n else s.subStart sel n
  s.conclude a r.2

/-- The word of TDC_SUB with GO, and DIR set to `dir`. -/
def subWord (w : Nat) (dir : Bool) : Nat := setBit (setBit w 31 true) 9 dir

/-- `SUBSTITUTE`: requester `req` writes TDC_SUB with GO = 1 and DIR = 0; `w` gives SEL and LCH. -/
def execSubstitute (req w : Nat) (s : State) : Host.Outcome State Fault Refusal :=
  done (s.put ⟨req, 0x600C, 2, true⟩ (fun s a => s.tdcSubWrite a (subWord w false))).1

/-- `RESTORE`: requester `req` writes TDC_SUB with GO = 1 and DIR = 1; `w` gives SEL and LCH. -/
def execRestore (req w : Nat) (s : State) : Host.Outcome State Fault Refusal :=
  done (s.put ⟨req, 0x600C, 2, true⟩ (fun s a => s.tdcSubWrite a (subWord w true))).1

/-- SPARE0_FOR or SPARE1_FOR takes `v`. -/
def State.setSpareFor (s : State) (sel v : Nat) : State :=
  if sel = 0 then s.wr F.TDC_SUB_STAT_SPARE0_FOR v else s.wr F.TDC_SUB_STAT_SPARE1_FOR v

/-- The swap of request `q` (R79, R80): from this edge the spare, or the former channel again, publishes under the logical
channel; `diff` is the mean difference recorded over the shadow, ru. -/
def State.swap (s : State) (q : SubReq) (diff : Int) : State :=
  let p := s.spareCh q.sel
  let subs := s.tdc.subs.filter (fun x => x.sel != q.sel)
  let s := (s.wr F.TDC_SUB_STAT_DONE 1).wrB F.TDC_SUB_STAT_BUSY (!subs.isEmpty)
  if q.restore then
    let s := { s with tdc := { s.tdc with subs := subs, oos := s.tdc.oos.filter (· != q.lch), corr := s.tdc.corr.set q.sel 0 } }
    ((s.wr F.TDC_CH_STAT_PHYS q.lch q.lch).setSpareFor q.sel 0x3F).wr F.TDC_CH_STAT_STATE Tdc.spareIdle p
  else
    let s := { s with tdc := { s.tdc with
      subs := subs, oos := s.tdc.oos ++ [q.lch], corr := s.tdc.corr.set q.sel (-diff) } }
    ((s.wr F.TDC_CH_STAT_PHYS p q.lch).setSpareFor q.sel q.lch).wr F.TDC_CH_STAT_STATE Tdc.running p

/-- `SPARE_SWAP`: the first gate end after the shadow period of spare `sel`; `diff` is the spare's mean difference, ru (R79). -/
def execSpareSwap (sel : Nat) (diff : Int) (s : State) : Host.Outcome State Fault Refusal :=
  match s.tdc.subs.find? (fun q => q.sel == sel) with
  | some q => done (s.swap q diff)
  | none => done s

/-- A value of a TDC_SPARE field: a fine channel, or 0x3F. -/
def spareValue (v : Nat) : Bool := v < 8 || v == 0x3F

/-- Channel `n` is disabled for R78: its EN is 0 and it is DISABLED or SPARE_IDLE. A value that names no channel is. -/
def State.spareFree (s : State) (n : Nat) : Bool :=
  n ≥ 8 || (!s.on F.TDC_CH_CTL_EN n && (s.tdcState n == Tdc.disabled || s.tdcState n == Tdc.spareIdle))

/-- A write of TDC_SPARE takes effect only while every channel it names or releases is disabled, and otherwise answers CFG_LOCKED
(R78). -/
def State.tdcSpareWrite (s : State) (a : Acs) (w : Nat) : State × Nat :=
  let old := [s.spareCh 0, s.spareCh 1]
  let new := [bits w 0 6, bits w 8 6]
  let touched := (old ++ new).filter (fun n => !(old.contains n && new.contains n))
  let open_ := touched.all s.spareFree
  let r := s.fieldWrite (fun _ => !open_) (fun _ v => spareValue v) [F.TDC_SPARE_SPARE1, F.TDC_SPARE_SPARE0] 0 w
  let s := r.1
  let named := [s.spareCh 0, s.spareCh 1]
  let s := old.foldl (fun s n =>
    if n < 8 ∧ !named.contains n ∧ s.tdcState n = Tdc.spareIdle then s.wr F.TDC_CH_STAT_STATE Tdc.disabled n else s) s
  let s := named.foldl (fun s n =>
    if n < 8 ∧ s.tdcState n = Tdc.disabled then s.wr F.TDC_CH_STAT_STATE Tdc.spareIdle n else s) s
  s.conclude a r.2

/-- `SPARE_WRITE`: requester `req` writes `w` to TDC_SPARE. -/
def execSpareWrite (req w : Nat) (s : State) : Host.Outcome State Fault Refusal :=
  done (s.put ⟨req, 0x6008, 2, true⟩ (fun s a => s.tdcSpareWrite a w)).1

/-- An enabled channel selects source `src` (R56): as its start source, or in START_STOP mode as its stop source. -/
def State.srcInUse (s : State) (src : Nat) : Bool :=
  (List.range 48).any (fun n => s.tdcState n != Tdc.disabled && s.on F.TDC_CH_CTL_EN n &&
    (s.rd F.TDC_CH_SRC_START_SRC n == src || (s.on F.TDC_CH_CTL_MODE n && s.rd F.TDC_CH_SRC_STOP_SRC n == src)))

/-- A write of TDC_XB_PRE[src]: locked while an enabled channel selects the source (R56); taken, the prescaler resynchronises to the
next edge (R55). -/
def State.prescalerWrite (s : State) (a : Acs) (src w : Nat) : State × Nat :=
  let locked := s.srcInUse src
  let r := s.fieldWrite (fun _ => locked) inRange [F.TDC_XB_PRE_DIV] src w
  let s := if locked then r.1 else
    { r.1 with tdc := { r.1.tdc with preRise := r.1.tdc.preRise.set src 0, preFall := r.1.tdc.preFall.set src 0 } }
  s.conclude a r.2

/-- `PRESCALER_WRITE`: requester `req` writes `w` to TDC_XB_PRE[src]. -/
def execPrescalerWrite (req src w : Nat) (s : State) : Host.Outcome State Fault Refusal :=
  if src < 64 then done (s.put ⟨req, 0x7800 + 4 * src, 2, true⟩ (fun s a => s.prescalerWrite a src w)).1 else done s

/-- The reader advances TDC_RING_RD[n]; when space has returned the LOST record is written (R87). -/
def State.ringRdWrite (s : State) (a : Acs) (n w : Nat) : State × Nat :=
  let r := s.fieldWrite noLock inRange [F.TDC_RING_RD_PTR] n w
  (r.1.ringReport n).conclude a r.2

/-- `RING_RD_WRITE`: requester `req` writes `w` to TDC_RING_RD[n]. -/
def execRingRdWrite (req n w : Nat) (s : State) : Host.Outcome State Fault Refusal :=
  if n < 48 then done (s.put ⟨req, 0x7404 + 0x10 * n, 2, true⟩ (fun s a => s.ringRdWrite a n w)).1 else done s

/-- The fields of the channel registers that R84 locks while the channel is not DISABLED. -/
def State.tdcChLocked (s : State) (n : Nat) : Bool := s.tdcState n != Tdc.disabled && s.tdcState n != Tdc.oos

end Sys2Proof.Machine
end

