-- ==== Sys2Proof/Machine/Compare.lean ====
section
/-! DEFINITION. The 32 Ridge comparators (R40 to R44 of spec/01_ridge_time.md). -/
namespace Sys2Proof.Machine

/-- The domain comparator `n` watches. -/
def State.cmpDom (s : State) (n : Nat) : Nat := s.rd F.RIDGE_CMP_CTL_DOM n

/-- The signed distance of comparator `n`'s target from its domain's count (R13). -/
def State.cmpDist (s : State) (n : Nat) : Int := ridgeDist (s.rd F.RIDGE_CMP_TGT_VALUE n) (s.count (s.cmpDom n))

/-- Comparator `n` is disarmed: EN and ARMED clear. -/
def State.cmpDisarm (s : State) (n : Nat) : State := (s.wr F.RIDGE_CMP_CTL_EN 0 n).wr F.RIDGE_CMP_STAT_ARMED 0 n

/-- FS 12 for comparator `n`: snapshot [4:0] comparator, [8] LATE, [9] SKIPPED (Table RIDGE-6). -/
def State.cmpFault (s : State) (n : Nat) (late skipped : Bool) : State :=
  s.raise 12 (n + late.toNat * 256 + skipped.toNat * 512)

/-- The target after a firing in periodic mode (R41 to R43): advanced by the period, or by as many whole periods as bring it into the
future when `catchUp`. -/
def nextTarget (tgt per now : Nat) (catchUp : Bool) : Nat :=
  if !catchUp then (tgt + per) % two64
  else
    let behind := -(ridgeDist tgt now)
    if behind < 0 ∨ per = 0 then (tgt + per) % two64
    else (tgt + (behind.toNat / per + 1) * per) % two64

/-- Comparator `n` fires (R40): its EVT, TRIG and SNAP actions; then a single one disarms, and a periodic one moves its target. -/
def State.cmpFire (s : State) (n : Nat) (late skipped : Bool) : State :=
  let d := s.cmpDom n
  let tgt := s.rd F.RIDGE_CMP_TGT_VALUE n
  let late32 := satS 32 (-(s.cmpDist n))
  let s := s.inc F.RIDGE_CMP_STAT_FIRED_CNT n
  let s := if s.on F.RIDGE_CMP_CTL_EVT n then
      s.eventNow 0x0002 (skipped.toNat + 2 * late.toNat) [n + d * 256, ofS 32 late32, tgt % 2 ^ 32, tgt / 2 ^ 32]
    else s
  let s := if s.on F.RIDGE_CMP_CTL_TRIG n then (s.emit (.trigger n)).armChannels n else s
  let s := if s.on F.RIDGE_CMP_CTL_SNAP n then s.wr F.RIDGE_CMP_CAP_VALUE (s.count (1 - d)) n else s
  if s.on F.RIDGE_CMP_CTL_MODE n then
    s.wr F.RIDGE_CMP_TGT_VALUE (nextTarget tgt (s.rd F.RIDGE_CMP_PER_VALUE n) (s.count d) (late || skipped)) n
  else s.cmpDisarm n

/-- EN of comparator `n` is set (R41, R42): a period out of range keeps EN 0 with BAD_PARAM; a late target is discarded or fires, and
one that is due fires, on this tick. The answer's second part says that the write breaks R502. -/
def State.cmpArm (s : State) (n : Nat) : State × Bool :=
  if s.on F.RIDGE_CMP_CTL_MODE n && !inRange F.RIDGE_CMP_PER_VALUE (s.rd F.RIDGE_CMP_PER_VALUE n) then
    (s.wr F.RIDGE_CMP_CTL_EN 0 n, true)
  else
    let s := s.wr F.RIDGE_CMP_STAT_ARMED 1 n
    let d := s.cmpDist n
    if d < 0 then
      let s := (s.wr F.RIDGE_CMP_STAT_LATE 1 n).cmpFault n true false
      if s.on F.RIDGE_CMP_CTL_LATE_ACT n then (s.cmpFire n true false, false) else (s.cmpDisarm n, false)
    else if d = 0 then (s.cmpFire n false false, false)
    else (s, false)

/-- The fields of RIDGE_CMP_CTL. -/
def cmpCtlFlds : List Fld :=
  [F.RIDGE_CMP_CTL_LATE_ACT, F.RIDGE_CMP_CTL_SNAP, F.RIDGE_CMP_CTL_TRIG, F.RIDGE_CMP_CTL_EVT, F.RIDGE_CMP_CTL_MODE,
   F.RIDGE_CMP_CTL_DOM, F.RIDGE_CMP_CTL_EN]

/-- A write of RIDGE_CMP_CTL[n] (R44): while EN = 1 it changes EN alone. ACK clears the ST fields of RIDGE_CMP_STAT[n]. -/
def State.cmpCtlWrite (s : State) (a : Acs) (n w : Nat) : State × Nat :=
  let was := s.on F.RIDGE_CMP_CTL_EN n
  let r := s.fieldWrite (fun f => was && !f.among [F.RIDGE_CMP_CTL_EN]) inRange cmpCtlFlds n w
  let s := if bit w 31 then
      r.1.rstFlds [F.RIDGE_CMP_STAT_FIRED_CNT, F.RIDGE_CMP_STAT_SKIPPED, F.RIDGE_CMP_STAT_LATE] n else r.1
  let now := s.on F.RIDGE_CMP_CTL_EN n
  if now && !was then
    let q := s.cmpArm n
    q.1.conclude a (r.2 ++ if q.2 then [Code.badParam] else [])
  else if was && !now then
    ({ s.cmpDisarm n with ridge := { s.ridge with skipped := s.ridge.skipped.set n false } }).conclude a r.2
  else s.conclude a r.2

/-- The access of requester `req` that writes RIDGE_CMP_CTL[n]. -/
def cmpAcs (req n : Nat) : Acs := ⟨req, 0x4200 + 0x20 * n, 2, true⟩

/-- `CMP_ENABLE`: requester `req` writes RIDGE_CMP_CTL[n] with EN = 1; `w` gives the other bits. -/
def execCmpEnable (req n w : Nat) (s : State) : Host.Outcome State Fault Refusal :=
  if n < 32 then done (s.put (cmpAcs req n) (fun s a => s.cmpCtlWrite a n (setBit w 0 true))).1 else done s

/-- `CMP_DISABLE`: requester `req` writes RIDGE_CMP_CTL[n] with EN = 0; `w` gives the other bits. -/
def execCmpDisable (req n w : Nat) (s : State) : Host.Outcome State Fault Refusal :=
  if n < 32 then done (s.put (cmpAcs req n) (fun s a => s.cmpCtlWrite a n (setBit w 0 false))).1 else done s

/-- A forward step of domain `d` has carried its count past targets: the comparators concerned are due on the next tick (R43). -/
def State.markSkipped (s : State) (d : Nat) : State :=
  forN 32 s (fun s n =>
    if s.on F.RIDGE_CMP_STAT_ARMED n && s.cmpDom n == d && s.cmpDist n ≤ 0 then
      { s with ridge := { s.ridge with skipped := s.ridge.skipped.set n true } } else s)

/-- `CMP_FIRE`: time passes to the first tick on which armed comparator `n` has d ≤ 0 (R40); one that a step has passed fires on the
next tick with SKIPPED set (R43). -/
def execCmpFire (n : Nat) (s : State) : Host.Outcome State Fault Refusal :=
  if n ≥ 32 ∨ !s.on F.RIDGE_CMP_STAT_ARMED n ∨ !s.domRuns (s.cmpDom n) then done s
  else if s.ridge.skipped.getD n false then
    let s := s.runTicks 1
    let s := { s with ridge := { s.ridge with skipped := s.ridge.skipped.set n false } }
    let s := (s.wr F.RIDGE_CMP_STAT_SKIPPED 1 n).cmpFault n false true
    done (s.cmpFire n false true)
  else
    let s := s.runTicks (s.ticksTo (s.cmpDom n) (s.rd F.RIDGE_CMP_TGT_VALUE n))
    done (s.cmpFire n false false)

end Sys2Proof.Machine
end

