-- ==== Sys2Proof/Machine/Ens.lean ====
section
/-! DEFINITION. The Thatch ensemble (spec/03_thatch_ensemble.md): slot states, the update of each beat, membership, disputes,
domain states, and the commands and writes of the ENS block. -/
namespace Sys2Proof.Machine

namespace Slot
def disabled : Nat := 0
def monitor : Nat := 1
def qualifying : Nat := 2
def candidate : Nat := 3
def member : Nat := 4
def disputed : Nat := 5
def disqualified : Nat := 6
end Slot

/-- Slot `n` of Thatch without a register. -/
def State.slot (s : State) (n : Nat) : EnsSlot := s.ens.slots.getD n {}

/-- Slot `n`'s hidden state becomes `e`. -/
def State.setSlot (s : State) (n : Nat) (e : EnsSlot) : State :=
  { s with ens := { s.ens with slots := s.ens.slots.set n e } }

/-- The state code of slot `n`. -/
def State.slotState (s : State) (n : Nat) : Nat := s.rd F.ENS_SLOT_STAT_STATE n

/-- The rank of slot `n` in force (R104). -/
def State.rank (s : State) (n : Nat) : Nat := s.inF F.ENS_SLOT_RANK_RANK n

/-- A slot is measured by a TDC channel (Table ENS-1). -/
def isTdcSlot (n : Nat) : Bool := n < 10 || (12 ≤ n && n < 20)

/-- A slot is a packet client's (Table ENS-1). -/
def isPktSlot (n : Nat) : Bool := 20 ≤ n && n < 24

/-- Slot `n` goes to state `st`: shown, marked in ENS_CHANGED, and event 0x0006 (Table HOST-9). -/
def State.moveSlot (s : State) (n st : Nat) : State :=
  let old := s.slotState n
  if old = st then s else
  let s := (s.wr F.ENS_SLOT_STAT_STATE st n).wrBit F.ENS_CHANGED_CHG n true
  s.eventNow 0x0006 0 [n + old * 256 + st * 4096 + s.rd F.ENS_SLOT_STAT_CAUSE n * 65536]

/-- HOLDOFF in beats; 0 means the next beat (R99). -/
def State.holdoffBeats (s : State) : Nat := max 1 (s.inF F.ENS_QUAL_HOLDOFF * 1024)

/-- A candidate's place goes to MONITOR when its RANK is 0 (R96). -/
def State.toCandidate (s : State) (n : Nat) : State :=
  s.moveSlot n (if s.rank n = 0 then Slot.monitor else Slot.candidate)

/-- Slot `n` leaves the ensemble and any replacement at once. -/
def State.dropMember (s : State) (n : Nat) : State :=
  let s := s.setSlot n { s.slot n with entry := 0, exit := none }
  { s with ens := { s.ens with repl := s.ens.repl.filter (fun p => p.1 != n && p.2 != n) } }

/-- A slot starts to qualify with a fresh model (R96, R99, R105, R126): its timer restarts, and its variance starts from SIG0. -/
def State.qualify (s : State) (n : Nat) : State :=
  let sig : Rat := s.rd F.ENS_SLOT_SIG0_SIG0 n
  let s := (s.dropMember n).setSlot n { s2 := sig * sig, timer := s.rd F.ENS_SLOT_CFG_QUAL_TIME n * 1024 }
  let s := s.wr F.ENS_SLOT_STAT_STREAK 0 n
  s.moveSlot n (if s.rank n = 0 then Slot.monitor else Slot.qualifying)

/-- The check of R95 at enable. -/
def State.slotCheck (s : State) (n : Nat) : Bool :=
  let src := s.rd F.ENS_SLOT_CFG_SRC n
  if isTdcSlot n then
    src < 48 && s.on F.TDC_CH_CTL_EN src && !s.on F.TDC_CH_CTL_MODE src && s.on F.TDC_CH_GATE_GATE src &&
      s.on F.TDC_CH_NOM_VALUE src && (!s.on F.ENS_SLOT_CFG_KIND n || ruSecond ≤ s.rd F.TDC_CH_NOM_VALUE src)
  else if isPktSlot n then s.on F.PTE_CLI_CTL_EN (n - 20)
  else true

/-- The check of R95 has failed: cause CONFIG, a HOLDOFF, and FS 42. -/
def State.slotConfigFail (s : State) (n : Nat) : State :=
  let s := (s.dropMember n).setSlot n { timer := s.holdoffBeats }
  ((s.wr F.ENS_SLOT_STAT_CAUSE 7 n).moveSlot n Slot.disqualified).raise 42

/-- A slot is enabled (R95, R96): its ST counters clear, its model is new, and it is checked. -/
def State.slotEnable (s : State) (n : Nat) : State :=
  let s := s.rstFlds [F.ENS_SLOT_CNT_DISPUTES, F.ENS_SLOT_CNT_DISQ, F.ENS_SLOT_CNT_OUTLIERS] n
  let s := s.wr F.ENS_SLOT_STAT_CAUSE 0 n
  if s.slotCheck n then s.qualify n else s.slotConfigFail n

/-- A slot is disabled: its model is discarded (R96). -/
def State.slotDisable (s : State) (n : Nat) : State :=
  ((s.dropMember n).setSlot n {}).moveSlot n Slot.disabled

/-- A slot is disqualified (Table ENS-2): CAUSE latched, DISQ counted, FS 32, weight 0 at once (R103). -/
def State.disqualify (s : State) (n cause : Nat) : State :=
  let s := (s.wr F.ENS_SLOT_STAT_CAUSE cause n).inc F.ENS_SLOT_CNT_DISQ n
  let s := s.dropMember n
  let s := s.setSlot n { s.slot n with timer := s.holdoffBeats + 1 }
  (s.moveSlot n Slot.disqualified).raise 32 (n + cause * 256)

/-- A slot's HOLDOFF ends, or `REF_REQUAL` is applied to it (R99, R126): a CONFIG slot is checked again first. -/
def State.requalify (s : State) (n : Nat) : State :=
  if s.slotState n = Slot.disqualified ∧ s.rd F.ENS_SLOT_STAT_CAUSE n = 7 ∧ !s.slotCheck n then s.slotConfigFail n
  else s.qualify n

/-! ### Step 2: fresh results and the early tests (R91 to R94, Table ENS-3) -/

/-- A fresh result of slot `n`: phase against the free Ridge (ru), frequency, and whether it carries MAINT. -/
structure Obs where
  n : Nat
  p : Rat
  g : Rat
  maint : Bool
  deriving DecidableEq, Repr

/-- A value in 2^-40 ru as ru. -/
def ru40 (x : Int) : Rat := (x : Rat) / two40

/-- `x` moved by whole multiples of `m` to lie nearest to `goal`. -/
def nearestMod (x goal m : Rat) : Rat := if m = 0 then x else x + roundRat ((goal - x) / m) * m

/-- One beat as ru, and in seconds. -/
def tauRu : Rat := ruBeat
def tauS : Rat := 1 / 1024

/-- A slot's phase predicted for this beat against Thatch time. -/
def EnsSlot.xp (e : EnsSlot) : Rat := e.x + e.y * tauRu + e.d * tauS * tauRu / 2

/-- The prediction of Thatch time for this beat. -/
def EnsSt.zp (e : EnsSt) : Rat := e.zA + e.fz * tauRu

/-- The phase of a TDC slot at its gate end (R91, R92): S_A less PHASE, taken modulo NOM below 1 s nearest to the slot's prediction;
for a pulse of 1 s or 2 s, with the whole seconds of the epoch. -/
def State.tdcPhase (s : State) (n src : Nat) : Rat :=
  let nom : Rat := s.rd F.TDC_CH_NOM_VALUE src
  let ph : Rat := s.rdS F.TDC_RES_PHASE_VALUE src
  let sA := ru40 (s.ens.sA - s.ens.stepA * two40)
  if nom < ruSecond then nearestMod (sA - ph) (s.ens.zp + (s.slot n).xp) nom
  else
    let te : Rat := (s.epochOf 0 (s.rd F.RIDGE_x_ANCHOR_COUNT_COUNT 0) - s.ens.stepA : Int)
    sA + nearestMod (-(te + ph)) 0 nom

/-- The delivery for slot `n` at this beat edge, if there is one. -/
def State.delivery (s : State) (n : Nat) : Option Delivery := s.ens.deliv.find? (fun d => d.slot == n)

/-- The fresh result of slot `n` at this beat, if there is one (R91, R93, R94). -/
def State.observe (s : State) (n : Nat) : Option Obs :=
  let src := s.rd F.ENS_SLOT_CFG_SRC n
  if isTdcSlot n then
    if s.tdc.fresh.contains src && s.on F.TDC_RES_INFO_VALID src then
      some ⟨n, s.tdcPhase n src, (s.rdS F.TDC_RES_FREQ_VALUE src : Rat) / 2 ^ 60 + (s.tch src).rA,
        s.on F.TDC_RES_INFO_MAINT src⟩
    else none
  else if n = 10 then some ⟨n, 0, 0, false⟩
  else match s.delivery n with
    | some d => if 64 < d.age then none else some ⟨n, (d.ofs : Rat) + ru40 s.ens.sA, d.freq + s.ens.rA, false⟩
    | none => none

/-- The lane that group `g` recovers its clock from belongs to this port (R248, R271). -/
def State.rclkPort (s : State) (g : Nat) : Nat :=
  if s.rd F.SDS_GRP_STAT_MODE_RES g = 0 then 4 * g else 4 * g + s.rd F.SDS_GRP_CTL_RCLK_LANE g

/-- Slot `n` has had no fresh result for too long (Table ENS-3, NO_SIGNAL). -/
def State.noSignal (s : State) (n : Nat) : Bool :=
  let src := s.rd F.ENS_SLOT_CFG_SRC n
  let e := s.slot n
  if isTdcSlot n then
    (s.tdc.fresh.contains src && (s.on F.TDC_RES_INFO_NO_EDGE src || s.on F.TDC_RES_INFO_UNLOCKED src)) ||
      2 * s.rd F.TDC_CH_GATE_GATE src + 16 ≤ e.since
  else if n = 10 then false
  else if n = 11 then 2048 ≤ e.since
  else max 2048 (2 * s.rd F.PTE_CLI_FILT_WIN (n - 20) + 16) ≤ e.since

/-- The receiver's solution or its verdict fails slot 11 (R239). -/
def State.gnssFails (s : State) : Bool :=
  let v := s.rd F.GNSS_VERDICT_VERDICT
  (s.gnss.hadSolution && !s.on F.GNSS_STAT_SOL_VALID) || v == 4 || (s.on F.GNSS_CTL_SPOOF_REQ && v ≤ 1)

/-- The source of slot `n` fails the SOURCE test (Table ENS-3). -/
def State.sourceFails (s : State) (n : Nat) : Bool :=
  if n = 8 then s.on F.OSC_STAT_ALARM 1
  else if n = 9 then s.on F.OSC_STAT_ALARM 2
  else if n = 11 then s.gnssFails
  else if isPktSlot n then s.rd F.PTE_CLI_STAT_STATE (n - 20) != 3
  else false

/-- The quality level of slot `n` fails (Table ENS-3, R271): QL_MIN not 0 and the port not UP or QL_RX below it. -/
def State.qlFails (s : State) (n : Nat) : Bool :=
  let min := s.rd F.ENS_SLOT_CFG_QL_MIN n
  12 ≤ n && n < 20 && min != 0 &&
    (s.rd F.MAC_STAT_STATE (s.rclkPort (n - 12)) != 4 || s.rd F.SDS_GRP_QL_QL_RX (n - 12) < min)

/-- The cause for which slot `n` fails step 2, 0 when it passes. -/
def State.earlyCause (s : State) (n : Nat) : Nat :=
  if s.noSignal n then 1 else if s.sourceFails n then 2 else if s.qlFails n then 3 else 0

/-- Slot `n` in step 2: its fresh result is read, and the NO_SIGNAL, SOURCE and QL tests are applied; a slot that fails
contributes nothing (R124). A delivery older than 64 beats raises FS 41 (R94). -/
def State.readSlot (r : State × List Obs) (n : Nat) : State × List Obs :=
  let s := r.1
  if s.slotState n = Slot.disabled then r else
  let s := match s.delivery n with
    | some d => if 64 < d.age then s.raise 41 else s
    | none => s
  let o := s.observe n
  let s := s.setSlot n { s.slot n with since := if o.isSome then 0 else (s.slot n).since + 1 }
  let cause := s.earlyCause n
  let s := s.wrB F.ENS_SLOT_STAT_FRESH (o.isSome && cause == 0) n
  if cause ≠ 0 then
    (if s.slotState n = Slot.disqualified then s else s.disqualify n cause, r.2)
  else match o with
    | none => (s, r.2)
    | some o => (s.wrB F.ENS_SLOT_STAT_MAINT o.maint n, r.2 ++ [o])

/-! ### Step 3: the update (R105 to R114) -/

/-- ru as ps. -/
def ruToPs (x : Rat) : Rat := x * 1000 / 65536

/-- The inverse of a variance. -/
def invVar (s2 : Rat) : Rat := if s2 = 0 then Config.weightAtZero else 1 / s2

/-- `l` divided by its sum. -/
def normalise (l : List (Nat × Rat)) : List (Nat × Rat) :=
  let t := (l.map (fun p => p.2)).sum
  l.map (fun p => (p.1, p.2 / t))

/-- Steps 2 and 3 of R107 once: weights above the cap are set to it and the excess shared among the others in proportion. -/
def capOnce (cap : Rat) (l : List (Nat × Rat)) : List (Nat × Rat) :=
  let free := ((l.filter (fun p => p.2 < cap)).map (fun p => p.2)).sum
  let left := 1 - cap * (l.filter (fun p => cap ≤ p.2)).length
  l.map (fun p => (p.1, if cap ≤ p.2 then cap else if free = 0 then p.2 else p.2 * left / free))

/-- Steps 2 and 3 of R107, repeated until no weight exceeds the cap. -/
def capWeights (cap : Rat) : Nat → List (Nat × Rat) → List (Nat × Rat)
  | 0, l => l
  | fuel + 1, l => if l.any (fun p => cap < p.2) then capWeights cap fuel (capOnce cap l) else l

/-- The ramp factor of member `n` (R111). -/
def State.rampFactor (s : State) (n : Nat) : Rat :=
  let e := s.slot n
  let enter := s.inF F.ENS_RAMP_ENTRY_RAMP
  let leave := s.inF F.ENS_RAMP_EXIT_RAMP
  let up : Rat := if enter ≤ e.entry then 1 else (e.entry : Rat) / enter
  match e.exit with
  | none => up
  | some j => if leave ≤ j then 0 else up * (1 - (j : Rat) / leave)

/-- The weights of the contributors `c` (R107). -/
def State.weights (s : State) (c : List Nat) : List (Nat × Rat) :=
  let l := normalise (c.map (fun n => (n, invVar (s.slot n).s2)))
  let cap : Rat := max ((s.rd F.ENS_CTL_W_MAX : Rat) / 256) (1 / c.length)
  normalise ((capWeights cap 24 l).map (fun p => (p.1, p.2 * s.rampFactor p.1)))

/-- The weight of slot `n` in `w`, 0 when it has none. -/
def weightOf (w : List (Nat × Rat)) (n : Nat) : Rat := ((w.find? (fun p => p.1 == n)).map (fun p => p.2)).getD 0

/-- The weighted sum of `f` over the observations that carry a weight. -/
def wsum (w : List (Nat × Rat)) (l : List Obs) (f : Obs → Rat) : Rat := (l.map (fun o => weightOf w o.n * f o)).sum

/-- The slots below 24 that `p` holds of. -/
def slotsWhere (p : Nat → Bool) : List Nat := idxs 24 p

/-- The members. -/
def State.members (s : State) : List Nat := slotsWhere (fun n => s.slotState n == Slot.member)

/-- The slots that can tie domain `d` to TAI, members or not by its rule (R114). -/
def State.traceSet (s : State) (d : Nat) : List Nat :=
  if d = 0 then s.members.filter (fun n => s.on F.ENS_SLOT_CFG_KIND n)
  else if s.on F.ENS_B_CFG_MODE then s.members.filter (fun n => bit (s.rd F.ENS_B_TRACE_MASK) n)
  else [s.rd F.ENS_B_CFG_SLOT]

/-- Domain `d` has a traceable source (R116). -/
def State.hasTrace (s : State) (d : Nat) : Bool :=
  if d = 1 ∧ !s.on F.ENS_B_CFG_MODE then
    let st := s.slotState (s.rd F.ENS_B_CFG_SLOT)
    st == Slot.candidate || st == Slot.member
  else !(s.traceSet d).isEmpty

/-- The slots of domain `d`'s traceable set that are modelled. -/
def State.traceModels (s : State) (d : Nat) : List Nat := (s.traceSet d).filter (fun n => (s.slot n).started)

/-- e of domain `d` (R113): the mean of z + x over its traceable set, weighted by 1/σ²; none when the set has no model. -/
def State.traceTime (s : State) (d : Nat) : Option Rat :=
  let l := s.traceModels d
  if l.isEmpty then none else
  let w := normalise (l.map (fun n => (n, invVar (s.slot n).s2)))
  some (s.ens.zA + (w.map (fun p => p.2 * (s.slot p.1).x)).sum)

/-- Domain `d`'s target time. -/
def EnsSt.target (e : EnsSt) (d : Nat) : Rat := if d = 0 then e.zA else e.zB

/-- The target time of domain A moves by `v`; every slot's phase is taken against it (R113). -/
def State.stepTarget (s : State) (d : Nat) (v : Rat) : State :=
  if d = 0 then
    { s with ens := { s.ens with
      zA := s.ens.zA + v
      slots := s.ens.slots.map (fun e => if e.started then { e with x := e.x - v } else e) } }
  else { s with ens := { s.ens with zB := s.ens.zB + v } }

/-- The trace loop of domain `d` for one beat (R113): in ACQUIRING and LOCKED a new error is taken when a slot of the set is
fresh, and an error of 0 otherwise; no step is taken in another state. -/
def State.traceStep (s : State) (d : Nat) : State :=
  let st := s.domState d
  if st ≠ DomSt.acquiring ∧ st ≠ DomSt.locked then s else
  let fresh := (s.traceModels d).any (fun n => s.on F.ENS_SLOT_STAT_FRESH n)
  let err := match s.traceTime d with
    | some e => if fresh then e - s.ens.target d else 0
    | none => 0
  let r := Config.traceLoop (s.inF F.ENS_TRACE_TRACE_TAU) err (if d = 0 then s.ens.loopA else s.ens.loopB)
  let s := s.stepTarget d r.1
  if d = 0 then { s with ens := { s.ens with loopA := r.2 } } else { s with ens := { s.ens with loopB := r.2 } }

/-- The model of a slot after a fresh result with innovation `nu` (R106, R108, R109). -/
def EnsSlot.update (e : EnsSlot) (kx ky kd : Rat) (wt : Nat) (nu dt : Rat) (quiet : Bool) : EnsSlot :=
  let ps := ruToPs nu
  { e with
    x := e.xp + kx * nu
    y := e.y + ky * nu / (dt * tauRu)
    d := e.d + kd * nu / (dt * tauRu * (dt * tauS))
    s2 := if quiet then e.s2 else e.s2 + (ps * ps - e.s2) / 2 ^ wt }

/-- The beats between slot `n`'s last two fresh results: `since` before step 2 cleared it is kept in `dts`. -/
def dtOf (dts : List Nat) (n : Nat) : Rat := dts.getD n 0 + 1

/-- Members advance one beat of their ramps (R111). -/
def State.advanceRamps (s : State) : State :=
  s.members.foldl (fun s n =>
    let e := s.slot n
    s.setSlot n { e with entry := min (e.entry + 1) (s.inF F.ENS_RAMP_ENTRY_RAMP), exit := e.exit.map (· + 1) }) s

/-- An outlier is counted (R108, R109), and a result that is none clears the streak. -/
def State.noteOutlier (s : State) (o : Obs) (out : Bool) : State :=
  let s := s.wrB F.ENS_SLOT_STAT_OUTLIER out o.n
  if !out then s.wr F.ENS_SLOT_STAT_STREAK 0 o.n else
  let s := if o.maint then s else s.wrSat F.ENS_SLOT_STAT_STREAK (s.rd F.ENS_SLOT_STAT_STREAK o.n + 1) o.n
  (s.inc F.ENS_SLOT_CNT_OUTLIERS o.n).raise 35

/-- Step 3 of R124: pass 1, outliers, pass 2, the model updates and the trace steps. `dts` are the beats since each slot's last
fresh result. -/
def State.updateModels (s : State) (dts : List Nat) (obs : List Obs) : State :=
  let s := s.advanceRamps
  let old := obs.filter (fun o => (s.slot o.n).started)
  let new := obs.filter (fun o => !(s.slot o.n).started)
  let zp := s.ens.zp
  let isMember := fun (o : Obs) => s.slotState o.n == Slot.member
  let rest := fun (o : Obs) => o.p - (s.slot o.n).xp
  let c1 := old.filter isMember
  let z1 := if c1.isEmpty then zp else wsum (s.weights (c1.map (fun o => o.n))) c1 rest
  let k : Rat := (s.inF F.ENS_QUAL_OUTLIER_K : Rat) / 4
  let isOut := fun (o : Obs) =>
    let v := ruToPs (rest o - z1)
    decide (k * k * (s.slot o.n).s2 < v * v)
  let c2 := c1.filter (fun o => !isOut o)
  let w2 := if c2.isEmpty then [] else s.weights (c2.map (fun o => o.n))
  let z := if c2.isEmpty then zp else wsum w2 c2 rest
  let dz := z - s.ens.zA
  let wt := s.rd F.ENS_CTL_WT_SHIFT
  let outs := (old.filter isOut).map (fun o => o.n)
  let slots' := s.ens.slots.zipIdx.map (fun p =>
    if !p.1.started then p.1 else
    match old.find? (fun o => o.n == p.2) with
    | none => { p.1 with x := p.1.xp }
    | some o => p.1.update ((s.rd F.ENS_SLOT_GAIN_KX o.n : Rat) / 256) (1 / 2 ^ s.rd F.ENS_SLOT_GAIN_KY_SHIFT o.n)
        (1 / 2 ^ s.rd F.ENS_SLOT_GAIN_KD_SHIFT o.n) wt (o.p - z - p.1.xp) (dtOf dts o.n) (outs.contains o.n || o.maint))
  let nu11 := match old.find? (fun o => o.n == 11) with
    | some o => some (o.p - z - (s.slot 11).xp)
    | none => s.ens.nu11
  let s := { s with ens := { s.ens with slots := slots', zA := z, zB := s.ens.zB + dz, nu11 := nu11 } }
  let fz := if c2.isEmpty then s.ens.fz else wsum w2 c2 (fun o => o.g - (s.slot o.n).y)
  let s := { s with ens := { s.ens with fz := fz } }
  let s := s.traceStep 0
  let s := s.traceStep 1
  let s := { s with ens := { s.ens with
    errA := match s.traceTime 0 with | some e => |e - s.ens.zA| | none => 0
    errB := match s.traceTime 1 with | some e => |e - s.ens.zB| | none => 0 } }
  let s := new.foldl (fun s o =>
    let e := s.slot o.n
    let y := o.g - s.ens.fz
    s.setSlot o.n { e with started := true, x := o.p - s.ens.zA, y := y, d := 0, ybar := y, age := 0 }) s
  let s := old.foldl (fun s o => s.noteOutlier o (outs.contains o.n)) s
  let s := new.foldl (fun s o => s.noteOutlier o false) s
  let s := forN 24 s (fun s n => s.wr F.ENS_SLOT_W_WEIGHT (roundRat (weightOf w2 n * 65536)).toNat n)
  let a : Rat := 1 / (s.inF F.ENS_DISPUTE_WIN * 1024 : Nat)
  { s with ens := { s.ens with slots := s.ens.slots.map (fun e =>
      if e.started then { e with ybar := e.ybar + (e.y - e.ybar) * a, age := e.age + 1 } else e) } }

/-! ### Steps 4 to 7: tests, disputes, timers, members -/

/-- Step 4: the FREQ and OUTLIERS tests of the slots with a fresh result (Table ENS-3). -/
def State.lateTests (s : State) (obs : List Obs) : State :=
  obs.foldl (fun s o =>
    let st := s.slotState o.n
    if st = Slot.disqualified ∨ st = Slot.disabled then s
    else if o.n ≠ 10 ∧ (s.rd F.ENS_SLOT_FTOL_FTOL o.n : Rat) / 10 ^ 12 < |(s.slot o.n).y| then s.disqualify o.n 4
    else if s.inF F.ENS_QUAL_OUTLIER_MAX ≤ s.rd F.ENS_SLOT_STAT_STREAK o.n then s.disqualify o.n 5
    else s) s

/-- Slot `n` is CANDIDATE or IN_ENSEMBLE. -/
def State.selectable (s : State) (n : Nat) : Bool :=
  s.slotState n == Slot.candidate || s.slotState n == Slot.member

/-- DISPUTE_TOL as a fraction. -/
def State.disputeTol (s : State) : Rat := (s.inF F.ENS_DISPUTE_TOL : Rat) / 10 ^ 12

/-- The voters that agree with slot `n` in the dispute of `i` and `j` (R120). -/
def State.votesFor (s : State) (n i j : Nat) : Nat :=
  (slotsWhere (fun v => v != i && v != j && s.selectable v && (s.slot v).started &&
    decide (|(s.slot v).ybar - (s.slot n).ybar| ≤ s.disputeTol))).length

/-- Two slots are in dispute (R119). -/
def State.inDispute (s : State) (i j : Nat) : Bool :=
  let win := s.inF F.ENS_DISPUTE_WIN * 1024
  s.selectable i && s.selectable j && s.rank i == s.rank j && (s.slot i).started && (s.slot j).started &&
    win ≤ (s.slot i).age && win ≤ (s.slot j).age && decide (s.disputeTol < |(s.slot i).ybar - (s.slot j).ybar|)

/-- The loser of a vote is disqualified (R121). -/
def State.loseVote (s : State) (n : Nat) : State := (s.disqualify n 6).raise 34

/-- Both sides of a dispute without majority go to DISPUTED, with weight 0 (R121). -/
def State.bothDisputed (s : State) (i j : Nat) : State :=
  let go := fun (s : State) (n : Nat) => ((s.dropMember n).inc F.ENS_SLOT_CNT_DISPUTES n).moveSlot n Slot.disputed
  let s := (go (go s i) j).raise 33
  { s with ens := { s.ens with disputes := s.ens.disputes ++ [⟨i, j, 0⟩] } }

/-- The dispute of `i` and `j` is over. -/
def State.dropDispute (s : State) (i j : Nat) : State :=
  { s with ens := { s.ens with disputes := s.ens.disputes.filter (fun d => !(d.i == i && d.j == j)) } }

/-- A slot of an ended dispute returns to CANDIDATE (R122). -/
def State.leaveDispute (s : State) (n : Nat) : State :=
  if s.slotState n = Slot.disputed then s.toCandidate n else s

/-- A standing dispute in this beat (R122): ended by a side that left, by a vote, or by agreement for DISPUTE_WIN. -/
def State.settleOld (s : State) (d : Dispute) : State :=
  if s.slotState d.i ≠ Slot.disputed ∨ s.slotState d.j ≠ Slot.disputed then
    ((s.dropDispute d.i d.j).leaveDispute d.i).leaveDispute d.j
  else
    let vi := s.votesFor d.i d.i d.j
    let vj := s.votesFor d.j d.i d.j
    if vi ≠ vj then
      let s := s.dropDispute d.i d.j
      if vj < vi then (s.loseVote d.j).leaveDispute d.i else (s.loseVote d.i).leaveDispute d.j
    else
      let n := if |(s.slot d.i).ybar - (s.slot d.j).ybar| ≤ s.disputeTol / 2 then d.agree + 1 else 0
      if s.inF F.ENS_DISPUTE_WIN * 1024 ≤ n then ((s.dropDispute d.i d.j).leaveDispute d.i).leaveDispute d.j
      else
        let l := s.ens.disputes.map (fun e => if e.i == d.i && e.j == d.j then { e with agree := n } else e)
        { s with ens := { s.ens with disputes := l } }

/-- A pair of slots in this beat: a standing dispute, or perhaps a new one, put to the vote (R121). -/
def State.settlePair (s : State) (i j : Nat) : State :=
  match s.ens.disputes.find? (fun d => d.i == i && d.j == j) with
  | some d => s.settleOld d
  | none =>
    if !s.inDispute i j then s else
    let vi := s.votesFor i i j
    let vj := s.votesFor j i j
    if vj < vi then s.loseVote j else if vi < vj then s.loseVote i else s.bothDisputed i j

/-- Step 5: disputes in ascending order of the lower slot, then of the higher (R123). -/
def State.settleDisputes (s : State) : State :=
  forN 24 s (fun s i => forN 24 s (fun s j => if i < j then s.settlePair i j else s))

/-- A slot has passed every test for QUAL_TIME (R98). -/
def State.qualified (s : State) (n : Nat) : State :=
  let s := s.setSlot n { s.slot n with timer := 0 }
  if s.slotState n = Slot.qualifying then s.toCandidate n else s

/-- Step 6: the qualification and HOLDOFF timers advance by one beat (R98, R99). -/
def State.advanceTimers (s : State) : State :=
  forN 24 s (fun s n =>
    let st := s.slotState n
    let e := s.slot n
    if st = Slot.monitor ∨ st = Slot.qualifying then
      let t := e.timer - 1
      let s := s.setSlot n { e with timer := t }
      if t = 0 then s.qualified n else s
    else if st = Slot.disqualified then
      let t := e.timer - 1
      let s := s.setSlot n { e with timer := t }
      if t = 0 then s.requalify n else s
    else s)

/-- The best rank among CANDIDATE and IN_ENSEMBLE slots of rank 1 or more (R100). -/
def State.bestRank (s : State) : Nat :=
  ((slotsWhere (fun n => s.selectable n && 1 ≤ s.rank n)).map s.rank).foldl min 16

/-- Slot `n` is eligible (R100). -/
def State.eligible (s : State) (n : Nat) : Bool :=
  s.selectable n && 1 ≤ s.rank n && s.rank n ≤ s.bestRank + s.rd F.ENS_CTL_RANK_SPAN

/-- Slot `a` comes before slot `b` (R101): rank, then variance, then number. -/
def State.before (s : State) (a b : Nat) : Bool :=
  s.rank a < s.rank b || (s.rank a == s.rank b &&
    (decide ((s.slot a).s2 < (s.slot b).s2) || (decide ((s.slot a).s2 = (s.slot b).s2) && a < b)))

/-- The first of `l` in the order of R101. -/
def State.firstOf (s : State) : List Nat → Option Nat
  | [] => none
  | n :: t => some (t.foldl (fun m k => if s.before k m then k else m) n)

/-- The last of `l` in the order of R101. -/
def State.lastOf (s : State) : List Nat → Option Nat
  | [] => none
  | n :: t => some (t.foldl (fun m k => if s.before m k then k else m) n)

/-- The eligible candidates that no replacement has named. -/
def State.waiting (s : State) : List Nat :=
  slotsWhere (fun n => s.slotState n == Slot.candidate && s.eligible n && !s.ens.repl.any (fun p => p.2 == n))

/-- Free places are filled in the order of R101 (R102). -/
def State.fillPlaces : Nat → State → State
  | 0, s => s
  | fuel + 1, s =>
    if s.rd F.ENS_CTL_MAX_MEMBERS ≤ s.members.length then s else
    match s.firstOf (slotsWhere (fun n => s.slotState n == Slot.candidate && s.eligible n)) with
    | none => s
    | some n =>
      let s := { s with ens := { s.ens with repl := s.ens.repl.filter (fun p => p.2 != n) } }
      State.fillPlaces fuel ((s.setSlot n { s.slot n with entry := 0, exit := none }).moveSlot n Slot.member)

/-- A member starts its exit ramp. -/
def State.startExit (s : State) (n : Nat) : State :=
  if (s.slot n).exit.isSome then s else s.setSlot n { s.slot n with exit := some 0 }

/-- At most one replacement starts (R102). -/
def State.startReplacement (s : State) : State :=
  if s.members.length < s.rd F.ENS_CTL_MAX_MEMBERS then s else
  match s.firstOf s.waiting, s.lastOf (s.members.filter (fun n => (s.slot n).exit.isNone)) with
  | some c, some m =>
    if s.rank c < s.rank m ∨ (s.rank c = s.rank m ∧ 2 * (s.slot c).s2 < (s.slot m).s2) then
      let s := s.startExit m
      { s with ens := { s.ens with repl := s.ens.repl ++ [(m, c)] } }
    else s
  | _, _ => s

/-- An exit ramp is over: the slot stops being a member (R111). -/
def State.endExit (s : State) (n : Nat) : State :=
  let s := s.setSlot n { s.slot n with entry := 0, exit := none, timer := 0 }
  let s := { s with ens := { s.ens with repl := s.ens.repl.filter (fun p => p.1 != n) } }
  s.toCandidate n

/-- Step 7: members that became ineligible start to leave (R103), places are filled, one replacement starts, and exit ramps that
are over end (R102, R111). -/
def State.selectMembers (s : State) : State :=
  let s := s.members.foldl (fun s n => if s.eligible n then s else s.startExit n) s
  let s := State.fillPlaces 24 s
  let s := s.startReplacement
  s.members.foldl (fun s n =>
    match (s.slot n).exit with
    | some j => if s.inF F.ENS_RAMP_EXIT_RAMP ≤ j then s.endExit n else s
    | none => s) s

/-! ### Step 8: the domains (Table ENS-4) -/

/-- Domain `d` goes to state `st`: shown, EVER and LOCKED_EVER kept, event 0x0005. -/
def State.moveDom (s : State) (d st : Nat) : State :=
  let old := s.domState d
  if old = st then s else
  let s := s.wr (if d = 0 then F.ENS_DOM_STAT_A_STATE else F.ENS_DOM_STAT_B_STATE) st
  let s := if st = DomSt.acquiring then s.wr (if d = 0 then F.ENS_DOM_STAT_A_EVER else F.ENS_DOM_STAT_B_EVER) 1 else s
  let s := if st = DomSt.locked then
      s.wr (if d = 0 then F.ENS_DOM_STAT_A_LOCKED_EVER else F.ENS_DOM_STAT_B_LOCKED_EVER) 1 else s
  s.eventNow 0x0005 d [old + st * 16]

/-- The beats the lock conditions of domain `d` have held become `n`. -/
def State.setLockBeats (s : State) (d n : Nat) : State :=
  if d = 0 then { s with ens := { s.ens with lockA := n } } else { s with ens := { s.ens with lockB := n } }

/-- The domain's target time is set to e in one step, and it enters ACQUIRING (R118). -/
def State.align (s : State) (d : Nat) : State :=
  let s := match s.traceTime d with
    | some e => s.stepTarget d (e - s.ens.target d)
    | none => s
  let s := if d = 0 then { s with ens := { s.ens with alignA := true, errA := 0 } }
    else { s with ens := { s.ens with alignB := true, errB := 0 } }
  (s.setLockBeats d 0).moveDom d DomSt.acquiring

/-- ENS_x_PHASE of domain `d` as a rational, in ru: its Ridge count minus its target time (R115). -/
def State.domPhase (s : State) (d : Nat) : Rat :=
  if d = 0 then ru40 s.ens.sA - s.ens.zA else ru40 s.ens.sB - s.ens.zB

/-- ENS_x_FREQ of domain `d`: its Ridge's rate minus the target's rate (R115). -/
def State.domFreq (s : State) (d : Nat) : Rat := (if d = 0 then s.ens.rA else s.ens.rB) - s.ens.fz

/-- The limits of domain `d`'s phase and frequency times `k` are not exceeded, and no step is needed (Table ENS-4). -/
def State.lockWithin (s : State) (d : Nat) (k : Rat) : Bool :=
  decide (|s.domPhase d| ≤ k * (s.inF F.ENS_LOCK_LOCK_PHASE * 65536 : Nat)) &&
  decide (|s.domFreq d| ≤ k * ((s.inF F.ENS_LOCKF_LOCK_FREQ : Rat) / 10 ^ 12)) && !s.stepNeeded d

/-- The domain's Eaves bound of the previous beat is above its HOLDOVER_LIMIT (R117, R161); a limit of 0xFFFF_FFFF never is passed. -/
def State.overLimit (s : State) (d : Nat) : Bool :=
  let lim := s.inF F.EAVES_x_LIMIT_HOLDOVER_LIMIT d
  lim != 0xFFFFFFFF && lim < s.rd F.EAVES_x_BOUND_BOUND d

/-- Domain `d` may leave FREE_RUN (Table ENS-4). -/
def State.domEnabled (s : State) (d : Nat) : Bool :=
  s.on F.ENS_CTL_EN && s.ens.run && !s.ens.stopping &&
  (if d = 0 then s.inF F.ENS_DOM_CTL_A_FORCE_FREE == 0
   else s.inF F.ENS_DOM_CTL_B_FORCE_FREE == 0 && s.on F.RIDGE_CTL_B_EN)

/-- A domain without a traceable source goes to HOLDOVER or LOST (Table ENS-4). -/
def State.loseTrace (s : State) (d : Nat) : State :=
  if s.overLimit d then (s.moveDom d DomSt.lost).raise (37 + 2 * d) else (s.moveDom d DomSt.holdover).raise (36 + 2 * d)

/-- Step 8 for domain `d` (Table ENS-4). -/
def State.stepDom (s : State) (d : Nat) : State :=
  let st := s.domState d
  let src := s.hasTrace d
  if !s.domEnabled d then s.moveDom d DomSt.freeRun
  else if st = DomSt.freeRun then (if src then s.align d else s.moveDom d DomSt.lost)
  else if st = DomSt.lost then (if src then s.align d else s)
  else if st = DomSt.holdover then
    if src then s.align d else if s.overLimit d then (s.moveDom d DomSt.lost).raise (37 + 2 * d) else s
  else if !src then s.loseTrace d
  else if st = DomSt.acquiring then
    let n := if s.lockWithin d 1 then (if d = 0 then s.ens.lockA else s.ens.lockB) + 1 else 0
    let s := s.setLockBeats d n
    if s.inF F.ENS_LOCK_LOCK_TIME * 1024 ≤ n then s.moveDom d DomSt.locked else s
  else if s.lockWithin d 2 then s
  else ((s.setLockBeats d 0).moveDom d DomSt.acquiring).raise 43 d

/-! ### Step 9: publication (R115, R125) -/

/-- A bit mask of the slots in `l`. -/
def maskOf (l : List Nat) : Nat := (l.map (fun n => 2 ^ n)).sum

/-- The registers of slot `n`. -/
def State.showSlot (s : State) (n : Nat) : State :=
  let e := s.slot n
  let s := s.wrSat F.ENS_SLOT_SIG2_VALUE (roundRat (e.s2 * 65536)).toNat n
  let s := s.wrFit F.ENS_SLOT_X_VALUE e.x n
  let s := s.wrFit F.ENS_SLOT_Y_VALUE (e.y * 2 ^ 60) n
  let s := s.wrFit F.ENS_SLOT_D_VALUE (e.d * 2 ^ 80) n
  let st := s.slotState n
  let s := s.wrSat F.ENS_SLOT_STAT_TIMER
    (if st = Slot.monitor ∨ st = Slot.qualifying ∨ st = Slot.disqualified then ceilDiv e.timer 1024 else 0) n
  s.wrB F.ENS_SLOT_STAT_TRACE ((s.traceSet 0).contains n) n

/-- The ENS registers show the results of a beat, and GEN advances (R125). FS 40 is live while the ensemble has no members
(R112). -/
def State.publishEns (s : State) : State :=
  let s := s.wrFit F.ENS_x_PHASE_VALUE (s.domPhase 0) 0
  let s := s.wrFit F.ENS_x_PHASE_VALUE (s.domPhase 1) 1
  let s := s.wrFit F.ENS_x_FREQ_VALUE (s.domFreq 0 * 2 ^ 60) 0
  let s := s.wrFit F.ENS_x_FREQ_VALUE (s.domFreq 1 * 2 ^ 60) 1
  let s := forN 24 s State.showSlot
  let s := s.wr F.ENS_MEMBERS_MASK (maskOf s.members)
  let s := s.wr F.ENS_DISPUTED_MASK (maskOf (slotsWhere (fun n => s.slotState n == Slot.disputed)))
  let s := s.wr F.ENS_STAT_MEMBERS s.members.length
  let s := s.wr F.ENS_STAT_TRACE_A (s.traceSet 0).length
  (s.bump F.ENS_STAT_GEN).cond 40 s.members.isEmpty

/-! ### Phase 2 and the beat edge -/

/-- Step 1 of R124: the ranks in force move slots between MONITOR, QUALIFYING and CANDIDATE (Table ENS-2). -/
def State.applyRanks (s : State) : State :=
  forN 24 s (fun s n =>
    let st := s.slotState n
    if st = Slot.monitor ∧ 1 ≤ s.rank n then
      s.moveSlot n (if (s.slot n).timer = 0 then Slot.candidate else Slot.qualifying)
    else if st = Slot.candidate ∧ s.rank n = 0 then (s.setSlot n { s.slot n with timer := 0 }).moveSlot n Slot.monitor
    else s)

/-- Thatch's work in phase 2, in the order of R124. -/
def State.thatchPhase2 (s : State) : State :=
  if !s.ens.run then s else
  let dts := s.ens.slots.map (fun e => e.since)
  let s := { s with ens := { s.ens with alignA := false, alignB := false } }
  let s := s.applyRanks
  let r := (List.range 24).foldl State.readSlot (s, [])
  let obs := r.2
  let s := r.1.updateModels dts obs
  let s := s.lateTests obs
  let s := s.settleDisputes
  let s := s.advanceTimers
  let s := s.selectMembers
  let s := (s.stepDom 0).stepDom 1
  let s := s.publishEns
  { s with ens := { s.ens with deliv := [] } }

/-- Thatch starts (R130): each enabled slot enters as if it had just been enabled. -/
def State.thatchStart (s : State) : State :=
  let s := { s with ens := { s.ens with run := true, stopping := false } }
  forN 24 s (fun s n => if s.on F.ENS_SLOT_CFG_EN n then s.slotEnable n else s)

/-- Thatch has stopped (R130): every model is discarded; it starts again when an enable is pending. -/
def State.thatchStop (s : State) : State :=
  let s := forN 24 s State.slotDisable
  let s := { s with ens := { s.ens with run := false, stopping := false, disputes := [], repl := [], deliv := [] } }
  let s := (s.moveDom 0 DomSt.freeRun).moveDom 1 DomSt.freeRun
  let s := s.condOff 40
  if s.on F.ENS_STAT_PENDING_ENABLE then (s.wr F.ENS_STAT_PENDING_ENABLE 0).thatchStart else s

/-- The part of a beat edge that is Thatch's: the steering records advance (R89), and a stop completes (R130). The fresh marks of
the beat before are dropped. -/
def State.thatchEdge (s : State) : State :=
  let ticks := s.ridge.ticks - s.ens.tickE
  let a := s.steer 0
  let b := if s.on F.RIDGE_CTL_B_EN then s.steer 1 else s.ens.sB
  let s := { s with
    tdc := { s.tdc with fresh := [] }
    ens := { s.ens with
      rA := rateOver (a - s.ens.sA) ticks, rB := rateOver (b - s.ens.sB) ticks
      sA := a, sB := b, stepA := 0, tickE := s.ridge.ticks } }
  let s := (s.wrFit F.ENS_STEER_VALUE (ru40 a) 0).wrFit F.ENS_STEER_VALUE (ru40 b) 1
  if s.ens.stopping then s.thatchStop else s

/-- A step of `x` ru of domain `d` at the edge enters its steering record (R89). -/
def State.thatchStepped (s : State) (d : Nat) (x : Int) : State :=
  let s := if d = 0 then { s with ens := { s.ens with sA := s.ens.sA + x * two40, stepA := s.ens.stepA + x } }
    else { s with ens := { s.ens with sB := s.ens.sB + x * two40 } }
  s.wrFit F.ENS_STEER_VALUE (ru40 (if d = 0 then s.ens.sA else s.ens.sB)) d

/-! ### Writes and commands -/

/-- The requester's access to ENS_CTL: every field but EN is locked while EN = 1 (R128); a change of EN starts or stops Thatch
(R130). -/
def State.ensCtlWrite (s : State) (a : Acs) (w : Nat) : State × Nat :=
  let was := s.on F.ENS_CTL_EN
  let live := was || s.ens.stopping
  let r := s.fieldWrite (fun f => live && f.no != F.ENS_CTL_EN.no) inRange
    [F.ENS_CTL_W_MAX, F.ENS_CTL_WT_SHIFT, F.ENS_CTL_RANK_SPAN, F.ENS_CTL_MAX_MEMBERS, F.ENS_CTL_EN] 0 w
  let s := r.1
  let now := s.on F.ENS_CTL_EN
  let s :=
    if now && !was then (if s.ens.stopping then s.wr F.ENS_STAT_PENDING_ENABLE 1 else s.thatchStart)
    else if was && !now then
      if s.ens.stopping then s.wr F.ENS_STAT_PENDING_ENABLE 0
      else ({ s with ens := { s.ens with stopping := true } }.moveDom 0 DomSt.freeRun).moveDom 1 DomSt.freeRun
    else s
  s.conclude a r.2

/-- `THATCH_ENABLE`: requester `req` writes ENS_CTL with EN = 1; `w` gives the other bits. -/
def execThatchEnable (req w : Nat) (s : State) : Host.Outcome State Fault Refusal :=
  done (s.put ⟨req, 0x8000, 2, true⟩ (fun s a => s.ensCtlWrite a (setBit w 0 true))).1

/-- `THATCH_DISABLE`: requester `req` writes ENS_CTL with EN = 0; `w` gives the other bits. -/
def execThatchDisable (req w : Nat) (s : State) : Host.Outcome State Fault Refusal :=
  done (s.put ⟨req, 0x8000, 2, true⟩ (fun s a => s.ensCtlWrite a (setBit w 0 false))).1

/-- A write of ENS_SLOT_CFG[n]: every field but EN is locked while EN = 1 (R128); a change of EN enables or disables the slot while
Thatch runs (R95, R96). -/
def State.slotCfgWrite (s : State) (a : Acs) (n w : Nat) : State × Nat :=
  let was := s.on F.ENS_SLOT_CFG_EN n
  let r := s.fieldWrite (fun f => was && f.no != F.ENS_SLOT_CFG_EN.no) inRange
    [F.ENS_SLOT_CFG_QUAL_TIME, F.ENS_SLOT_CFG_QL_MIN, F.ENS_SLOT_CFG_SRC, F.ENS_SLOT_CFG_KIND, F.ENS_SLOT_CFG_EN] n w
  let s := r.1
  let now := s.on F.ENS_SLOT_CFG_EN n
  let s := if !s.ens.run || now == was then s else if now then s.slotEnable n else s.slotDisable n
  s.conclude a r.2

/-- `SLOT_ENABLE`: requester `req` writes ENS_SLOT_CFG[n] with EN = 1; `w` gives the other bits. -/
def execSlotEnable (req n w : Nat) (s : State) : Host.Outcome State Fault Refusal :=
  if 24 ≤ n then done s else done (s.put ⟨req, 0x8100 + 0x40 * n, 2, true⟩ (fun s a => s.slotCfgWrite a n (setBit w 0 true))).1

/-- `SLOT_DISABLE`: requester `req` writes ENS_SLOT_CFG[n] with EN = 0; `w` gives the other bits. -/
def execSlotDisable (req n w : Nat) (s : State) : Host.Outcome State Fault Refusal :=
  if 24 ≤ n then done s else done (s.put ⟨req, 0x8100 + 0x40 * n, 2, true⟩ (fun s a => s.slotCfgWrite a n (setBit w 0 false))).1

/-- A write of ENS_SLOT_RANK[n] takes effect at the next beat edge (R104). -/
def State.rankWrite (s : State) (a : Acs) (n w : Nat) : State × Nat :=
  let r := s.stagedWrite noLock inRange [F.ENS_SLOT_RANK_RANK] n w
  r.1.conclude a r.2

/-- `RANK_WRITE`: requester `req` writes `w` to ENS_SLOT_RANK[n]. -/
def execRankWrite (req n w : Nat) (s : State) : Host.Outcome State Fault Refusal :=
  if 24 ≤ n then done s else done (s.put ⟨req, 0x8104 + 0x40 * n, 2, true⟩ (fun s a => s.rankWrite a n w)).1

/-- `QUAL_TIME_DONE`: slot `n` has passed every test for QUAL_TIME (R98). -/
def execQualTimeDone (n : Nat) (s : State) : Host.Outcome State Fault Refusal :=
  let st := s.slotState n
  if n < 24 ∧ (st = Slot.qualifying ∨ st = Slot.monitor) then done ((s.qualified n).showSlot n) else done s

/-- `HOLDOFF_DONE`: HOLDOFF seconds have passed since slot `n` was disqualified (R99). -/
def execHoldoffDone (n : Nat) (s : State) : Host.Outcome State Fault Refusal :=
  if n < 24 ∧ s.slotState n = Slot.disqualified then done ((s.requalify n).showSlot n) else done s

/-- `RAMP_END`: the ramp of slot `n` completes its beats (R111): an entry ramp reaches 1, and a leaving member stops being one. -/
def execRampEnd (n : Nat) (s : State) : Host.Outcome State Fault Refusal :=
  if n < 24 ∧ s.slotState n = Slot.member then
    if (s.slot n).exit.isSome then done ((s.endExit n).wrBit F.ENS_MEMBERS_MASK n false)
    else done (s.setSlot n { s.slot n with entry := s.inF F.ENS_RAMP_ENTRY_RAMP })
  else done s

/-- `DISPUTE_END`: the disputed slots `i` and `j` have agreed within half the tolerance for DISPUTE_WIN (R122). -/
def execDisputeEnd (i j : Nat) (s : State) : Host.Outcome State Fault Refusal :=
  if s.ens.disputes.any (fun d => d.i == i && d.j == j) then
    let s := ((s.dropDispute i j).leaveDispute i).leaveDispute j
    done (s.wr F.ENS_DISPUTED_MASK (maskOf (slotsWhere (fun n => s.slotState n == Slot.disputed))))
  else done s

/-- `DOMAIN_LOCKED`: the lock conditions of domain `dom` have held for LOCK_TIME (R117). -/
def execDomainLocked (dom : Nat) (s : State) : Host.Outcome State Fault Refusal :=
  let d := dom % 2
  if s.domState d = DomSt.acquiring ∧ s.domEnabled d ∧ s.hasTrace d ∧ s.lockWithin d 1 then done (s.moveDom d DomSt.locked)
  else done s

/-- Slot `n` is DISQUALIFIED or DISPUTED (R126). -/
def State.requalifiable (s : State) (n : Nat) : Bool :=
  n < 24 && (s.slotState n == Slot.disqualified || s.slotState n == Slot.disputed)

/-- `REF_REQUAL` at acceptance (R126, R127): the slot is checked, and the command waits for the beat edge. -/
def execRefRequal (c : CmdRef) (w0 : Nat) (s : State) : Host.Outcome State Fault Refusal :=
  let n := bits w0 0 5
  if s.notHolder then done (s.finish c Code.notTokenHolder)
  else if s.requalifiable n then done { s with ens := { s.ens with requal := s.ens.requal ++ [(c, n)] } }
  else done (s.finish c Code.badParam)

/-- The slots of the waiting `REF_REQUAL` commands are checked again and moved, each command completing (R126). -/
def State.applyRequals (s : State) : State :=
  let l := s.ens.requal
  l.foldl (fun s p =>
    if s.requalifiable p.2 then
      (s.requalify p.2).finish p.1 Code.ok
    else s.finish p.1 Code.badParam) { s with ens := { s.ens with requal := [] } }

/-- `REF_REQUAL_APPLY`: the waiting commands are applied at the beat edge. -/
def execRefRequalApply (s : State) : Host.Outcome State Fault Refusal := done s.applyRequals

/-- A write of ENS_ACK.ACK clears ENS_CHANGED (R498). -/
def State.ensAck (s : State) : State := s.rst F.ENS_CHANGED_CHG

/-- `ENS_ACK`: ENS_ACK.ACK is written 1. -/
def execEnsAck (s : State) : Host.Outcome State Fault Refusal := done s.ensAck

/-- A write of one of the registers that are written in service and take effect at the next beat edge (R129). -/
def State.ensServiceWrite (s : State) (a : Acs) (fs : List Fld) (w : Nat) : State × Nat :=
  let r := s.stagedWrite noLock inRange fs 0 w
  r.1.conclude a r.2

/-- A write of a slot register that is locked while the slot is enabled (R128). -/
def State.slotLockedWrite (s : State) (a : Acs) (fs : List Fld) (n w : Nat) : State × Nat :=
  let locked := s.on F.ENS_SLOT_CFG_EN n
  let r := s.fieldWrite (fun _ => locked) inRange fs n w
  r.1.conclude a r.2

/-- A write of ENS_B_CFG or ENS_B_TRACE, locked while Thatch or Ridge B is enabled (R128). -/
def State.ensBWrite (s : State) (a : Acs) (fs : List Fld) (w : Nat) : State × Nat :=
  let locked := s.on F.ENS_CTL_EN || s.ens.stopping || s.on F.RIDGE_CTL_B_EN
  let r := s.fieldWrite (fun _ => locked) inRange fs 0 w
  r.1.conclude a r.2

end Sys2Proof.Machine
end

