-- ==== Sys2Proof/Machine/Eaves.lean ====
section
/-! DEFINITION. The holdover model and the Eaves bound (spec/04_holdover_eaves.md): contributions, holdover growth, the domain
bound and its flags, breaches, calibration records and the trace path. -/
namespace Sys2Proof.Machine

/-- What the Eaves bound of domain `d` keeps without a register. -/
def State.eav (s : State) (d : Nat) : EavesDom := if d = 0 then s.eaves.a else s.eaves.b

/-- Domain `d`'s hidden Eaves state becomes `e`. -/
def State.setEav (s : State) (d : Nat) (e : EavesDom) : State :=
  if d = 0 then { s with eaves := { s.eaves with a := e } } else { s with eaves := { s.eaves with b := e } }

/-- 0xFFFF_FFFF, at which a bound saturates. -/
def maxBound : Nat := 0xFFFFFFFF

/-- A value in ps in the 0.25 ns LSB, rounded up (R152). -/
def quarterNs (ps : Rat) : Nat := ceilNat (ps / 250)

/-- A phase in ru as ps, its magnitude. -/
def absPs (ru : Rat) : Rat := |ruToPs ru|

/-! ### Contributions (R151, R152) -/

/-- The traceable set T of domain `d` (R151): empty outside ACQUIRING and LOCKED. -/
def State.boundSet (s : State) (d : Nat) : List Nat :=
  let st := s.domState d
  if st = DomSt.acquiring ∨ st = DomSt.locked then s.traceSet d else []

/-- The source uncertainty U of slot `n`, in ps. -/
def State.sourceUnc (s : State) (n : Nat) : Nat :=
  if n = 11 then s.rd F.GNSS_TSOL_UNC_U
  else if isPktSlot n then s.eaves.unc.getD n 0
  else s.inF F.EAVES_SLOT_UNC_UNC n

/-- The uncertainty of calibration record `i` in ps (R163). -/
def State.recordUnc (s : State) (i : Nat) : Nat :=
  if s.inF F.EAVES_CAL_CTL_VALID i = 0 then maxBound
  else if s.on F.EAVES_CAL_CTL_EXPIRED i then s.inF F.EAVES_CAL_UNCX_UNC_EXP i
  else s.inF F.EAVES_CAL_UNC_UNC i

/-- The sum of the uncertainties of the records named in `mask`. -/
def State.recordSum (s : State) (mask : Nat) : Nat :=
  ((idxs 64 (fun i => bit mask i)).map s.recordUnc).sum

/-- CAL of slot `n`. -/
def State.slotCal (s : State) (n : Nat) : Nat := s.recordSum (s.inF F.EAVES_SLOT_CAL_MASK n)

/-- The slot of T with the largest U + CAL, if T has one (C[0]). -/
def State.worstSource (s : State) (t : List Nat) : Option Nat :=
  let v := fun n => s.sourceUnc n + s.slotCal n
  match t with
  | [] => none
  | n :: l => some (l.foldl (fun m k => if v m < v k then k else m) n)

/-- C[2]: K × √(Σ w² σ²) over T, w being the 1/σ² weights (R152). -/
def State.noiseTerm (s : State) (t : List Nat) : Nat :=
  let w := normalise (t.map (fun n => (n, invVar (s.slot n).s2)))
  let v := (w.map (fun p => p.2 * p.2 * (s.slot p.1).s2)).sum
  let k : Rat := s.inF F.EAVES_CTL_K
  sqrtUp (ceilNat (k * k * v / 1000000))

/-- C[3]: |ENS_x_PHASE| plus |e - target| after the trace step (R152). -/
def State.trackTerm (s : State) (d : Nat) : Nat :=
  let ph : Rat := s.rdS F.ENS_x_PHASE_VALUE d
  let err := if (s.boundSet d).isEmpty then 0 else if d = 0 then s.ens.errA else s.ens.errB
  quarterNs (absPs ph + absPs err)

/-- The trace base of domain `d` from the contributions shown: C[0] + C[1] + C[2] + FLOOR. -/
def State.traceBase (s : State) (d : Nat) : Nat :=
  s.rd F.EAVES_x_C_VALUE (6 * d) + s.rd F.EAVES_x_C_VALUE (6 * d + 1) + s.rd F.EAVES_x_C_VALUE (6 * d + 2) +
    s.inF F.EAVES_PAD_FLOOR

/-- C[0] to C[2] of domain `d` are computed over T. -/
def State.sourceTerms (s : State) (d : Nat) : State :=
  let t := s.boundSet d
  let j := s.worstSource t
  let u := match j with | some n => s.sourceUnc n | none => 0
  let c := (match j with | some n => s.slotCal n | none => 0) + s.recordSum (s.inF F.EAVES_x_CAL_COMMON_MASK d)
  let s := s.wrSat F.EAVES_x_C_VALUE (quarterNs u) (6 * d)
  let s := s.wrSat F.EAVES_x_C_VALUE (quarterNs c) (6 * d + 1)
  s.wrSat F.EAVES_x_C_VALUE (s.noiseTerm t) (6 * d + 2)

/-! ### The holdover term (R153 to R156) -/

/-- y0 and drift of slot `n` in use: learned values where the device has them, else the configured ones (R156). -/
def State.charOf (s : State) (n : Nat) : Nat × Nat :=
  match s.eaves.learned.find? (fun l => l.slot == n) with
  | some l => (l.y0, l.drift)
  | none => (s.inF F.EAVES_CHAR_Y0_Y0 n, s.inF F.EAVES_CHAR_DRIFT_DRIFT n)

/-- The rational part of h of slot `n` at `t` seconds, in ps, `tint` being the temperature integral in K s (R153, R155). -/
def State.growRat (s : State) (n : Nat) (t tint : Rat) : Rat :=
  if s.inF F.EAVES_CHAR_CTL_VALID n = 0 then (s.rd F.ENS_SLOT_FTOL_FTOL n : Rat) * t
  else
    let c := s.charOf n
    (c.1 : Rat) * t / 1000 + (c.2 : Rat) * t * t / 2 / 10 ^ 8 + (s.inF F.EAVES_CHAR_TEMPCO_TEMPCO n : Rat) * tint / 1000

/-- The factor of √t in h of slot `n`, in ps. -/
def State.growRoot (s : State) (n : Nat) : Rat :=
  if s.inF F.EAVES_CHAR_CTL_VALID n = 0 then 0
  else (s.inF F.EAVES_CTL_K : Rat) / 4 * s.inF F.EAVES_CHAR_WFM_WFM n / 1000

/-- The least of the `fuel` numbers from `n` up that is at least `u` + √`v`, for `u` and `v` not negative. -/
def leastAbove (u v : Rat) : Nat → Nat → Nat
  | 0, n => n
  | fuel + 1, n => if u ≤ n ∧ v ≤ ((n : Rat) - u) * ((n : Rat) - u) then n else leastAbove u v fuel (n + 1)

/-- Σ w h over the members at `t` seconds, in 0.25 ns rounded up (R154). -/
def State.growth (s : State) (t tint : Rat) : Nat :=
  let l := s.members
  let w := fun n => (s.rd F.ENS_SLOT_W_WEIGHT n : Rat) / 65536
  let u := ((l.map (fun n => w n * s.growRat n t tint)).sum) / 250
  let r := ((l.map (fun n => w n * s.growRoot n)).sum) / 250
  let v := r * r * t
  leastAbove u v 4 (u.floor.toNat + isqrt v.floor.toNat)

/-- FS 54 once in a holdover for each member without a characterisation record (R155). -/
def State.uncharacterised (s : State) (d : Nat) : State :=
  s.members.foldl (fun s n =>
    if s.inF F.EAVES_CHAR_CTL_VALID n = 0 ∧ !(s.eav d).fs54.contains n then
      (s.setEav d { s.eav d with fs54 := (s.eav d).fs54 ++ [n] }).raise 54 n
    else s) s

/-! ### Holdover begins, runs and ends (R157 to R159, R597) -/

/-- Domain `d` is in holdover (EAVES_x_FLAGS.HOLD). -/
def State.inHoldover (s : State) (d : Nat) : Bool := s.on F.EAVES_x_FLAGS_HOLD d

/-- Domain `d` has entered ACQUIRING since reset. -/
def State.everTraced (s : State) (d : Nat) : Bool :=
  if d = 0 then s.on F.ENS_DOM_STAT_A_EVER else s.on F.ENS_DOM_STAT_B_EVER

/-- A holdover of domain `d` begins: its age is 0, C[4] is 0 and C[5] holds the base (Table EAVES-3, R597). -/
def State.beginHoldover (s : State) (d : Nat) : State :=
  let e := s.eav d
  let s := s.setEav d { e with temp0 := s.rdS F.EAVES_STAT_TEMP, tint := 0, fs54 := [], lastHold := e.base }
  let s := s.wr F.EAVES_x_FLAGS_HOLD 1 d
  let s := s.wr F.EAVES_x_HO_AGE_AGE 0 d
  let s := s.wr F.EAVES_x_C_VALUE 0 (6 * d + 4)
  let s := s.wrSat F.EAVES_x_C_VALUE e.base (6 * d + 5)
  s.bump F.EAVES_x_TRACE_SLOTS_TRACE_GEN d

/-- A holdover of domain `d` ends: C[4], C[5] and the age read 0 (R158). -/
def State.endHoldover (s : State) (d : Nat) : State :=
  if !s.inHoldover d then s else
  let s := s.wr F.EAVES_x_FLAGS_HOLD 0 d
  let s := s.wr F.EAVES_x_HO_AGE_AGE 0 d
  let s := s.wr F.EAVES_x_C_VALUE 0 (6 * d + 4)
  let s := s.wr F.EAVES_x_C_VALUE 0 (6 * d + 5)
  s.bump F.EAVES_x_TRACE_SLOTS_TRACE_GEN d

/-- One more beat of a holdover (R597, R153). -/
def State.ageHoldover (s : State) (d : Nat) : State :=
  let e := s.eav d
  let dt := (s.rdS F.EAVES_STAT_TEMP - e.temp0).natAbs
  let s := s.setEav d { e with tint := e.tint + dt }
  s.inc F.EAVES_x_HO_AGE_AGE d

/-- C[4] of domain `d` in a holdover beat: never less than before (R154). -/
def State.holdTerm (s : State) (d : Nat) : State :=
  let t : Rat := (s.rd F.EAVES_x_HO_AGE_AGE d : Rat) / 1024
  let g := s.growth t (((s.eav d).tint : Rat) / 4096)
  let s := s.uncharacterised d
  s.wrSat F.EAVES_x_C_VALUE (max g (s.rd F.EAVES_x_C_VALUE (6 * d + 4))) (6 * d + 4)

/-- B_hold of domain `d`: C[5] + C[4] + C[3] (R157). -/
def State.boundHold (s : State) (d : Nat) : Nat :=
  s.rd F.EAVES_x_C_VALUE (6 * d + 5) + s.rd F.EAVES_x_C_VALUE (6 * d + 4) + s.rd F.EAVES_x_C_VALUE (6 * d + 3)

/-- B_cont of domain `d`: B_hold of the last holdover beat plus the correction applied since alignment (R157). -/
def State.boundCont (s : State) (d : Nat) : Nat :=
  (s.eav d).lastHold + quarterNs (absPs (ru40 ((s.dom d).total - (s.eav d).corr0)))

/-- The learned values are given up (R156). -/
def State.dropLearned (s : State) : State :=
  let s := { s with eaves := { s.eaves with learned := [] } }
  (s.rstAll F.EAVES_CHAR_CTL_LEARNED 24).rstAll F.EAVES_x_FLAGS_LEARNED 2

/-- At an alignment of domain `d` (R118): the applied corrections are counted from here, and from holdover the breach test is made
(R159). -/
def State.eavesAligned (s : State) (d : Nat) : State :=
  let s := s.setEav d { s.eav d with corr0 := (s.dom d).total }
  if !s.inHoldover d then s else
  let s' := s.sourceTerms d
  let ph := (s.rdS F.ENS_x_PHASE_VALUE d : Rat)
  if (s'.traceBase d + (s.eav d).lastHold : Nat) * (250 : Rat) < absPs ph then
    let s := s.wrSat F.EAVES_x_BREACH_VALUE (quarterNs (absPs ph)) d
    let s := (s.wr F.EAVES_x_FLAGS_BREACH 1 d).condOn 48 d
    (s.endHoldover d).dropLearned
  else s

/-! ### The bound (R157, R160, R162) -/

/-- The bound of domain `d` before pads, and whether it is B_cont (Table EAVES-4). The holdover has been begun or aged, and C[3]
computed. -/
def State.rawBound (s : State) (d : Nat) : Nat × Bool :=
  let st := s.domState d
  let tr := s.traceBase d + s.rd F.EAVES_x_C_VALUE (6 * d + 3)
  if st = DomSt.acquiring ∨ st = DomSt.locked then
    if s.inHoldover d && s.boundCont d < tr then (s.boundCont d, true) else (tr, false)
  else if s.everTraced d then (s.boundHold d, false)
  else (maxBound, false)

/-- The bound, its saturation and its pads are published (R160). -/
def State.padBound (s : State) (d raw : Nat) : State :=
  let s2 := s.s2Live d
  let never := !s.everTraced d && (s.domState d == DomSt.freeRun || s.domState d == DomSt.lost)
  let sum := raw + (if s2 then s.inF F.EAVES_S2_PAD_PAD else 0)
  let sat := !never && raw < maxBound && maxBound ≤ sum
  let s := s.wrSat F.EAVES_x_BOUND_BOUND (if never then maxBound else sum) d
  let s := (s.wrB F.EAVES_x_FLAGS_S2 s2 d).wrB F.EAVES_x_FLAGS_SAT sat d
  (s.wrB F.EAVES_x_FLAGS_NEVER (!s.everTraced d) d).cond 49 sat d

/-- WITHHELD of domain `d` (R162, R522): by the LOST policy, or by a live S2 source with WH = 1 since the last beat edge. -/
def State.showWithheld (s : State) (d : Nat) : State :=
  let st := s.domState d
  let pol := if d = 0 then s.inF F.EAVES_CTL_A_POLICY else s.inF F.EAVES_CTL_B_POLICY
  let wh := if d = 0 then s.fcu.whA else s.fcu.whB
  s.wrB F.EAVES_x_FLAGS_WITHHELD ((pol != 0 && (st == DomSt.freeRun || st == DomSt.lost)) || wh) d

/-- The trace path of domain `d` (R164): held during holdover; TRACE_GEN advances on a change. -/
def State.tracePath (s : State) (d : Nat) : State :=
  let t := s.boundSet d
  if t.isEmpty then s else
  let slots := maskOf t
  let named := fun i => bit (s.inF F.EAVES_x_CAL_COMMON_MASK d) i || t.any (fun n => bit (s.inF F.EAVES_SLOT_CAL_MASK n) i)
  let cal := maskOf (idxs 64 named)
  let same := slots == s.rd F.EAVES_x_TRACE_SLOTS_SLOTS d && cal == s.rd F.EAVES_x_TRACE_CAL_RECORDS d
  let s := (s.wr F.EAVES_x_TRACE_SLOTS_SLOTS slots d).wr F.EAVES_x_TRACE_CAL_RECORDS cal d
  if same then s else s.bump F.EAVES_x_TRACE_SLOTS_TRACE_GEN d

/-- The bound of domain `d` in a phase 3 (R151 to R160). -/
def State.domBound (s : State) (d : Nat) : State :=
  let st := s.domState d
  let out := st == DomSt.freeRun || st == DomSt.holdover || st == DomSt.lost
  let s := s.sourceTerms d
  let s := s.wrSat F.EAVES_x_C_VALUE (s.trackTerm d) (6 * d + 3)
  let s :=
    if out && s.everTraced d then
      let s := if s.inHoldover d then s.ageHoldover d else s.beginHoldover d
      let s := s.holdTerm d
      s.setEav d { s.eav d with lastHold := s.boundHold d }
    else if st = DomSt.locked then s.endHoldover d
    else if s.inHoldover d && s.traceBase d + s.rd F.EAVES_x_C_VALUE (6 * d + 3) ≤ s.boundCont d then s.endHoldover d
    else s
  let s := if st = DomSt.locked then s.condOff 48 d else s
  let s := if (s.boundSet d).isEmpty then s else s.setEav d { s.eav d with base := s.traceBase d }
  let r := s.rawBound d
  let s := s.wrB F.EAVES_x_FLAGS_CONT r.2 d
  let s := s.wrB F.EAVES_x_FLAGS_LEARNED (s.inHoldover d && !s.eaves.learned.isEmpty) d
  let s := s.wr F.EAVES_x_FLAGS_MISSED 0 d
  ((s.padBound d r.1).showWithheld d).tracePath d

/-- The Eaves work of phase 3: the temperature is read, both bounds are computed and published, and GEN advances (R151). -/
def State.eavesPhase3 (s : State) (temp : Int) : State :=
  let s := s.wrS F.EAVES_STAT_TEMP (satS 16 temp)
  let s := if s.domState 0 = DomSt.locked ∧ s.rd F.MEM_STAT_STATE = 2 then
      { s with eaves := { s.eaves with hist := s.eaves.hist + 1 } } else s
  ((s.domBound 0).domBound 1).bump F.EAVES_STAT_GEN

/-- Phase 3 has not completed in this beat: the bound of domain `d` is widened by MISS_PAD, and FS 55 is raised (R160, R48). -/
def State.eavesMiss (s : State) (d : Nat) : State :=
  let s := (s.inc F.EAVES_x_FLAGS_MISSED d).raise 55 d
  if s.rd F.EAVES_x_BOUND_BOUND d = maxBound then s else
  let sum := s.rd F.EAVES_x_BOUND_BOUND d + s.inF F.EAVES_PAD_MISS_PAD
  let s := s.wrSat F.EAVES_x_BOUND_BOUND sum d
  if maxBound ≤ sum then (s.wr F.EAVES_x_FLAGS_SAT 1 d).condOn 49 d else s

/-- At beat 0, the records whose EXP_DAY has passed are marked EXPIRED (R163). -/
def State.expireRecords (s : State) : State :=
  let day := s.rd F.RIDGE_x_ANCHOR_SEC_SEC 0 / 86400
  forN 64 s (fun s i =>
    let e := s.inF F.EAVES_CAL_EXP_EXP_DAY i
    let due := s.inF F.EAVES_CAL_CTL_VALID i != 0 && e != 0 && e ≤ day
    let was := s.on F.EAVES_CAL_CTL_EXPIRED i
    let s := s.wrB F.EAVES_CAL_CTL_EXPIRED due i
    if due && !was then s.raise 50 i else s)

/-- The bound of domain `d` that a frame served now carries, before its port term (R166, R483): the published bound, with TAKE_PAD
for TAKE_BEATS beats after a take. -/
def State.servedBound (s : State) (d : Nat) : Nat :=
  min maxBound (s.rd F.EAVES_x_BOUND_BOUND d + (if 0 < s.pair.padLeft then s.inF F.PAIR_PAD_TAKE_PAD else 0))

/-- The port term of Table EAVES-5 for rate code `rate`, raised by 2 while the measurement clock is not locked (R166). -/
def State.portTerm (s : State) (rate : Nat) : Nat :=
  (if rate ≤ 1 then 2 else if rate = 2 then 6 else 16) + (if s.on F.TDC_STAT_MEAS_LOCK then 0 else 2)

/-- The bound a frame carries that is served on a port of rate code `rate` in domain `d` (R166), LSB 0.25 ns. -/
def State.frameBound (s : State) (d rate : Nat) : Nat := min maxBound (s.servedBound d + s.portTerm rate)

/-- A write of an Eaves register that is written in service and takes effect at the next beat edge (R165). -/
def State.eavesWrite (s : State) (a : Acs) (fs : List Fld) (i w : Nat) : State × Nat :=
  let r := s.stagedWrite noLock inRange fs i w
  r.1.conclude a r.2

end Sys2Proof.Machine
end

