-- ==== Sys2Proof/Machine/Sort.lean ====
section
/-! DEFINITION. The quiet groups of the Sorting office (spec/18_maintenance_test.md): starts and ends of activities. What an activity does is in
the families; the commands of the Sorting office are in Maint.lean. -/
namespace Sys2Proof.Machine

/-- The entry of group `q` that may start now (R567, R571, R572): the group is free, no safe state is in force, and the entry is the
first that HOLD_SCHED does not hold back. -/
def State.startable (s : State) (q : Nat) : Option SortEntry :=
  if (s.quietRun q).isSome || s.on F.TOP_STAT_SAFE then none
  else (s.quietQueue q).find? (fun e => !(e.sched && q != 1 && bit (s.rd F.SORT_CTL_HOLD_SCHED) q))

/-- Ticks as whole milliseconds. -/
def ticksToMs (t : Nat) : Nat := t / 1250000

/-- Group `q` starts `e` (R566): its wait enters the high-water mark; the measurement-clock group marks the open gates MAINT (R70). -/
def State.startEntry (s : State) (q : Nat) (e : SortEntry) : State :=
  let ms := ticksToMs (s.ridge.ticks - e.tick)
  let s := s.setQueue q ((s.quietQueue q).erase e)
  let s := s.setRun q (some { e with tick := s.ridge.ticks })
  let s := if s.rd F.SORT_WAIT_HWM_WAIT < ms then (s.wrSat F.SORT_WAIT_HWM_WAIT ms).wr F.SORT_WAIT_HWM_GROUP q else s
  if q = 0 then (s.wr F.TDC_STAT_MAINT_ACTIVE 1).mapGates (fun g => { g with maint := true }) (fun _ => true) else s

/-- The activity of group `q` ends with completion code `code` (R566): counted, shown in SORT_LAST; the commands behind it
complete when `finishNow` says so. -/
def State.endEntry (s : State) (q code r0 r1 : Nat) (finishNow : Bool) : State :=
  match s.quietRun q with
  | none => s
  | some e =>
    let s := s.setRun q none
    let s := s.inc F.SORT_CNT_RUNS q
    let s := (s.wr F.SORT_LAST_ACT e.act).wr F.SORT_LAST_TGT e.tgt
    let s := (s.wr F.SORT_LAST_CODE code).wr F.SORT_LAST_GROUP q
    let s := s.wrSat F.SORT_LAST_DUR_DUR ((s.ridge.ticks - e.tick) / 1250)
    let s := if q = 0 then s.wr F.TDC_STAT_MAINT_ACTIVE 0 else s
    if finishNow then e.cmds.foldl (fun s c => s.finish c code r0 r1) s else s

end Sys2Proof.Machine
end

