-- ==== Sys2Proof/Machine/Dpll.lean ====
section
/-! DEFINITION. The eight digital loops (spec/05_loops_synthesis_outputs.md): the loop law, DPLL0 and DPLL1 in phase 3, the inputs and
switching of DPLL2 to DPLL7, and their enables and writes. -/
namespace Sys2Proof.Machine

/-- Loop `n` without a register. -/
def State.dpl (s : State) (n : Nat) : DpllSt := s.loop.dpll.getD n {}

/-- Loop `n`'s hidden state becomes `l`. -/
def State.setDpl (s : State) (n : Nat) (l : DpllSt) : State := { s with loop := { s.loop with dpll := s.loop.dpll.set n l } }

/-- Loop `n` goes to state `st`: shown, and event 0x0007 (Table HOST-9). FS 66 is live in HOLD. -/
def State.moveDpll (s : State) (n st : Nat) : State :=
  let old := s.dpllState n
  if old = st then s else
  let s := s.wr F.DPLL_STAT_STATE st n
  let s := if 2 ≤ n then s.cond 66 (st == DpllSt.hold) n else s
  s.eventNow 0x0007 0 [n + old * 16 + st * 256]

/-! ### The loop law (R171 to R174) -/

/-- The bandwidth of code `c` in Hz (R172). -/
def bwHz (c : Nat) : Rat :=
  if c = 23 then 4000 else
  ([1, 2, 5].getD (c % 3) 1 : Rat) * (10 : Rat) ^ (c / 3) / 10000

/-- ζ and the bandwidth factor g of Table LOOP-1. -/
def dampOf (order damp : Nat) : Rat × Rat :=
  if order = 1 then (0, 1)
  else if order = 3 then (0, 3899 / 1000)
  else [(707 / 1000, 2058 / 1000), (1, 2482 / 1000), (2, 4249 / 1000), (4, 8125 / 1000)].getD damp (1, 1)

/-- The phase-slope limit of code `c`, none for 0 (R173). -/
def pslOf (c : Nat) : Option Rat :=
  [none, some (1 / 10 ^ 9), some (75 / 10 ^ 10), some (50 / 10 ^ 9), some (885 / 10 ^ 9), some (1 / 10 ^ 5)].getD c none

/-- `x` limited to ±`m`. -/
def clampRat (x m : Rat) : Rat := max (-m) (min x m)

/-- What the loop law yields: the new loop, whether a slope clamp acted, and whether the last clamp acted. -/
structure LawOut where
  l : DpllSt
  psl : Bool
  fclamp : Bool

/-- The loop law for one update (R171 to R174) of phase error `phi` (s) over `t` s, at bandwidth `bw` Hz. -/
def loopLaw (l : DpllSt) (order damp : Nat) (bw : Rat) (psl : Option Rat) (phi t : Rat) : LawOut :=
  let zg := dampOf order damp
  let wn := Config.twoPi * bw / zg.2
  let ferr := (phi - l.phi) / t
  let i2 := if order = 3 then l.i2 - wn * wn * wn * t * phi else l.i2
  let i1 := if order = 1 then l.i1 - wn * t * ferr
    else if order = 2 then l.i1 - wn * wn * t * phi
    else l.i1 + i2 * t - 3 * wn * wn * t * phi
  let y := if order = 1 then i1 else if order = 2 then i1 - 2 * zg.1 * wn * phi else i1 - 3 * wn * phi
  let p := y - i1
  let p' := match psl with | some m => clampRat p m | none => p
  let i1' := match psl with | some m => max (l.i1 - m * t) (min i1 (l.i1 + m * t)) | none => i1
  let y' := clampRat (i1' + p') (2 / 10 ^ 4)
  { l := { l with i1 := i1', i2 := i2, phi := phi, y := y' }
    psl := decide (p' ≠ p) || decide (i1' ≠ i1)
    fclamp := decide (y' ≠ i1' + p') }

/-- Loop `n` takes the outcome of its law: y and φ are shown, with the clamps (R173, R174). -/
def State.takeLaw (s : State) (n : Nat) (o : LawOut) : State :=
  let l := { o.l with clamped := o.l.clamped || o.psl }
  let s := (s.setDpl n l).wrFit F.DPLL_FREQ_VALUE (l.y * 2 ^ 60) n
  let s := s.wrFit F.DPLL_PHERR_VALUE (l.phi * ruSecond) n
  let s := s.wrB F.DPLL_STAT_PSL_ACT o.psl n
  (s.wrB F.DPLL_STAT_FCLAMP o.fclamp n).cond 74 o.fclamp n

/-- The bandwidth code loop `n` uses (R176): DPLL0 and DPLL1 use ACQ_BW in ACQUIRING. -/
def State.bwCode (s : State) (n : Nat) : Nat :=
  if n < 2 ∧ s.domState n = DomSt.acquiring then s.rd F.DPLL_LOOP_ACQ_BW n else s.rd F.DPLL_LOOP_BW n

/-- The loop law of loop `n` with its registers. -/
def State.lawOf (s : State) (n : Nat) (phi t : Rat) : LawOut :=
  loopLaw (s.dpl n) (s.rd F.DPLL_CTL_ORDER n) (s.rd F.DPLL_CTL_DAMP n) (bwHz (s.bwCode n))
    (pslOf (s.rd F.DPLL_LOOP_PSL n)) phi t

/-! ### DPLL0 and DPLL1 (R175, R176) -/

/-- The nominal addend exactly: 52,428.8 ru per tick, in 2^-40 ru. -/
def nominalExact : Rat := 524288 / 10 * two40

/-- The addend for the rate `y` in 2^-40 ru (R175). -/
def addendFor (y : Rat) : Nat := (roundRat (nominalExact * (1 + y))).toNat

/-- The addend `v` (2^-40 ru) is staged for domain `d` (R170). -/
def State.stageAddend (s : State) (d v : Nat) : State :=
  let s := (s.wr F.RIDGE_x_ADD_INT_ADD_INT (v / two40) d).wr F.RIDGE_x_ADD_FRAC_ADD_FRAC (v % two40) d
  s.setDpl d { s.dpl d with staged := true }

/-- The phase error of loop `d` in seconds, after it has made its correction request (R175). -/
def State.steerPhase (s : State) (d : Nat) : State × Rat :=
  let ph := s.rdS F.ENS_x_PHASE_VALUE d
  let u := ph + (s.dom d).remEdge
  let ask := decide ((s.rd F.DPLL_THR_CORR_MIN d * 16384 : Nat) < u.natAbs)
  let s := if ask then s.loopRequest d (-u) else s
  let phi : Int := if ask && (s.dom d).accepted then 0
    else if s.stepNeeded d then ph + (s.dom d).reqEdge
    else u
  (s, (phi : Rat) / ruSecond)

/-- DPLL `d` (0 or 1) in phase 3 (R175, R176). -/
def State.steerLoop (s : State) (d : Nat) : State :=
  let st := s.dpllState d
  if st = DpllSt.disabled ∨ st = DpllSt.stopping then s
  else if s.domState d = DomSt.freeRun then s.moveDpll d DpllSt.freerun
  else
    let s := s.moveDpll d DpllSt.locked
    let r := s.steerPhase d
    let s := r.1.takeLaw d (r.1.lawOf d r.2 tauS)
    s.stageAddend d (addendFor (s.dpl d).y)

/-- At a beat edge, the addend that DPLL0 or DPLL1 staged loads (R170). -/
def State.loopEdge (s : State) (d : Nat) : State :=
  if (s.dpl d).staged then (s.loadAddend d).setDpl d { s.dpl d with staged := false } else s

/-! ### DPLL2 to DPLL7: entries (R179 to R184) -/

/-- Entry `e` of loop `n` is in use. -/
def State.entryOn (s : State) (n e : Nat) : Bool :=
  [s.on F.DPLL_IN_EN0 n, s.on F.DPLL_IN_EN1 n, s.on F.DPLL_IN_EN2 n, s.on F.DPLL_IN_EN3 n].getD e false
/-- A source code an entry may name (R179). -/
def entryCodeOk (c : Nat) : Bool := c ≤ 12 || (40 ≤ c && c ≤ 47) || (54 ≤ c && c ≤ 59) || c == 62 || c == 63

/-- Entry `e` of loop `n` is valid: a domain entry while its Ridge runs, another as its monitor shows (R181). -/
def State.entryValid (s : State) (n e : Nat) : Bool :=
  let c := s.entrySrc n e
  s.entryOn n e && (if isDomainCode c then s.domRuns (c - 62) else bit (s.rd F.DPLL_STAT_VALID n) e)

/-- The VALID bits of loop `n` are brought up to date. -/
def State.showValid (s : State) (n : Nat) : State :=
  forN 4 s (fun s e => s.wrBit F.DPLL_STAT_VALID e (s.entryValid n e) n)

/-- The highest-priority valid entry. -/
def State.bestEntry (s : State) (n : Nat) : Option Nat := (List.range 4).find? (fun e => s.entryValid n e)

/-- The oscillator of loop `n` runs to the present tick at nominal rate times 1 + y (R169). -/
def State.runNco (s : State) (n : Nat) : State :=
  let l := s.dpl n
  let adv := roundRat ((s.ridge.ticks - l.tick : Nat) * nominalExact * (1 + l.y))
  s.setDpl n { l with nco := (l.nco + adv) % ((two64 * two40 : Nat) : Int), tick := s.ridge.ticks }

/-- The raw phase of entry `e` against the oscillator, in ru (R180): computed for a domain, `meas` for a measured clock. -/
def State.rawPhase (s : State) (n e : Nat) (meas : List Int) : Int :=
  let c := s.entrySrc n e
  if isDomainCode c then
    ridgeDist ((s.dpl n).nco / (two40 : Int)).toNat (stepCount (s.count (c - 62)) (-(s.rdS F.DPLL_STEPD_VALUE n)))
  else meas.getD e 0

/-- The update interval of loop `n` in seconds: 1 µs on a domain entry, else its nominal period (R170). -/
def State.updateTime (s : State) (n : Nat) : Rat :=
  match s.dpllDomain n with
  | some _ => 1 / 1000000
  | none => (s.rd F.DPLL_PD_PER_VALUE n : Rat) / ruSecond

/-- The loop moves to entry `e` (R182, R183): with PBO the difference from the last phase goes to DPLL_PBO. The answer's state is
ACQUIRE; the switch is counted and raises FS 65 when `counted`. -/
def State.switchTo (s : State) (n e : Nat) (meas : List Int) (pbo counted : Bool) : State :=
  let raw := s.rawPhase n e meas
  let last : Int := roundRat ((s.dpl n).phi * ruSecond)
  let s := if pbo then s.wrFit F.DPLL_PBO_VALUE ((raw - last : Int) : Rat) n else s
  let s := s.wr F.DPLL_STAT_ACTIVE e n
  let s := s.setDpl n { s.dpl n with inWin := 0 }
  let s := if counted then (s.inc F.DPLL_CNT_SWITCHES n).raise 65 (n + 16 * e) else s
  s.moveDpll n DpllSt.acquire

/-- The mean of i1 that HOLD uses (R184). -/
def holdMean (l : DpllSt) : Rat :=
  let h := if 1088 ≤ l.hist.length then l.hist.drop 64 else l.hist
  if h.isEmpty then l.i1 else h.sum / h.length

/-- The loop enters HOLD (R184): y is the mean of i1, and FS 66 is live. -/
def State.enterHold (s : State) (n : Nat) : State :=
  let m := holdMean (s.dpl n)
  let s := s.setDpl n { s.dpl n with y := m }
  let s := s.wrFit F.DPLL_HOLDF_VALUE (m * 2 ^ 60) n
  (s.wrFit F.DPLL_FREQ_VALUE (m * 2 ^ 60) n).moveDpll n DpllSt.hold

/-- Loop `n` takes its state from its entries (Table LOOP-2). -/
def State.followEntries (s : State) (n : Nat) (meas : List Int) : State :=
  let s := s.showValid n
  let st := s.dpllState n
  let act := s.rd F.DPLL_STAT_ACTIVE n
  let pbo := s.on F.DPLL_CTL_PBO_EN n
  let auto := s.on F.DPLL_CTL_AUTO_SW n
  if st = DpllSt.freerun then
    match s.bestEntry n with
    | some e => s.switchTo n e meas pbo false
    | none => s
  else if st = DpllSt.acquire ∨ st = DpllSt.locked then
    if s.entryValid n act then s else
    match s.bestEntry n with
    | some e => if auto then s.switchTo n e meas pbo true else s.enterHold n
    | none => s.enterHold n
  else if st = DpllSt.hold then
    if auto then
      match s.bestEntry n with
      | some e => s.switchTo n e meas true (e != act)
      | none => s
    else if s.entryValid n act then s.switchTo n act meas true false else s
  else s

/-- LOCK_WIN of loop `n` in seconds. -/
def State.lockWin (s : State) (n : Nat) : Rat := (s.rd F.DPLL_THR_LOCK_WIN n : Rat) / 4 / 10 ^ 9

/-- One sample of the active entry (R180, R183): the loop law, and the lock count of Table LOOP-2. -/
def State.sampleLoop (s : State) (n : Nat) (meas : List Int) : State :=
  let st := s.dpllState n
  if st ≠ DpllSt.acquire ∧ st ≠ DpllSt.locked then s else
  let phi : Rat := ((s.rawPhase n (s.rd F.DPLL_STAT_ACTIVE n) meas - s.rdS F.DPLL_PBO_VALUE n : Int) : Rat) / ruSecond
  let t := s.updateTime n
  let s := if t = 0 then s else s.takeLaw n (s.lawOf n phi t)
  let k := if |phi| ≤ s.lockWin n then (s.dpl n).inWin + 1 else 0
  let s := s.setDpl n { s.dpl n with inWin := min k 1024 }
  if st = DpllSt.acquire then (if 1024 ≤ k then s.moveDpll n DpllSt.locked else s)
  else if 4 * s.lockWin n < |phi| then s.moveDpll n DpllSt.acquire else s

/-- The modulator of APLL `a`, whose divider is `div` in 2^-32, after an update of the loop that steers it by `y`: the product is
formed with 56 fraction bits, and the lower 24 accumulate and carry into the fraction (R187). -/
def ApllSt.drive (a : ApllSt) (div : Nat) (y : Rat) : ApllSt :=
  let v := (roundRat ((div * 2 ^ 24 : Nat) * (1 + y))).toNat
  let acc := a.modAcc + v % 2 ^ 24
  { a with modWord := v / 2 ^ 24 + acc / 2 ^ 24, modAcc := acc % 2 ^ 24 }

/-- Every APLL that runs and whose DPLL_SEL names loop `n` takes its steering (R187). -/
def State.driveApll (s : State) (n : Nat) : State :=
  forN 6 s (fun s m =>
    if s.rd F.APLL_CTL_DPLL_SEL m = n ∧ s.apllState m ≠ ApllSt.off then
      let div := s.rd F.APLL_N_N m * 2 ^ 32 + s.rd F.APLL_FRAC_FRAC m
      { s with loop := { s.loop with apll := s.loop.apll.set m ((s.loop.apll.getD m {}).drive div (s.dpl n).y) } }
    else s)

/-- `DPLL_UPDATE`: loop `n` takes a phase-detector sample: `meas` the four entries' measured phases against the oscillator (ru), for
those that are clocks; `lost` the entries that lost validity at this update (R181). -/
def execDpllUpdate (n : Nat) (meas : List Int) (lost : Nat) (s : State) : Host.Outcome State Fault Refusal :=
  let st := s.dpllState n
  if n < 2 ∨ 8 ≤ n ∨ st = DpllSt.disabled ∨ st = DpllSt.stopping then done s else
  let s := s.runNco n
  let s := forN 4 s (fun s e => if bit lost e then s.wrBit F.DPLL_STAT_VALID e false n else s)
  done (((s.followEntries n meas).sampleLoop n meas).driveApll n)

/-- `INPUT_VALID`: entry `e` of loop `n` has stayed within FTOL for VAL_TIME (R181). -/
def execInputValid (n e : Nat) (meas : List Int) (s : State) : Host.Outcome State Fault Refusal :=
  let st := s.dpllState n
  if n < 2 ∨ 8 ≤ n ∨ 4 ≤ e ∨ st = DpllSt.disabled ∨ st = DpllSt.stopping ∨ !s.entryOn n e then done s else
  done (((s.runNco n).wrBit F.DPLL_STAT_VALID e true n).followEntries n meas)

/-- `REVERT_SWITCH`: entry `e` of higher priority has been valid for WTR (R182). -/
def execRevertSwitch (n e : Nat) (meas : List Int) (s : State) : Host.Outcome State Fault Refusal :=
  let st := s.dpllState n
  if 2 ≤ n ∧ n < 8 ∧ s.on F.DPLL_CTL_REVERT n ∧ s.entryValid n e ∧ e < s.rd F.DPLL_STAT_ACTIVE n ∧
      (st = DpllSt.acquire ∨ st = DpllSt.locked) then
    done ((s.runNco n).switchTo n e meas (s.on F.DPLL_CTL_PBO_EN n) true)
  else done s

/-- A write of DPLL_CMD[n] (R182): a switch to a valid entry, or ignored and recorded. -/
def State.dpllCmdWrite (s : State) (a : Acs) (n w : Nat) (meas : List Int) : State × Nat :=
  let e := bits w 0 2
  let s := s.wr F.DPLL_CMD_ENTRY e n
  let st := s.dpllState n
  let on := st == DpllSt.freerun || st == DpllSt.acquire || st == DpllSt.locked || st == DpllSt.hold
  if !bit w 4 then s.conclude a []
  else if on && s.entryValid n e then
    ((s.runNco n).switchTo n e meas (s.on F.DPLL_CTL_PBO_EN n) true).conclude a []
  else s.conclude a [Code.badParam]

/-- `DPLL_SWITCH`: requester `req` writes DPLL_CMD[n] with SWITCH = 1; `meas` as in `DPLL_UPDATE`. -/
def execDpllSwitch (req n w : Nat) (meas : List Int) (s : State) : Host.Outcome State Fault Refusal :=
  if n < 2 ∨ 8 ≤ n then done s
  else done (s.put ⟨req, 0xA01C + 0x80 * n, 2, true⟩ (fun s a => s.dpllCmdWrite a n (setBit w 4 true) meas)).1

/-- `DPLL_LOCKED`: the phase error of loop `n` has stayed within LOCK_WIN for 1,024 updates (Table LOOP-2). -/
def execDpllLocked (n : Nat) (s : State) : Host.Outcome State Fault Refusal :=
  if 2 ≤ n ∧ n < 8 ∧ s.dpllState n = DpllSt.acquire then done (s.moveDpll n DpllSt.locked) else done s

/-- The monitors of the loops in phase 3 (R170, R173, R184): the clamp counts and the history of i1. -/
def State.loopMonitors (s : State) : State :=
  forN 8 s (fun s n =>
    let l := s.dpl n
    let st := s.dpllState n
    if st = DpllSt.disabled ∨ st = DpllSt.stopping then s else
    let s := if l.clamped then s.inc F.DPLL_CNT_PSL_CNT n else s
    let s := s.setDpl n { l with clamped := false, hist := (l.i1 :: l.hist).take 1088 }
    if n < 2 then s else s.showValid n)

/-- A step of `x` ru of domain `d`: the loops that follow it as a domain entry keep their phase (R180). -/
def State.dpllStepped (s : State) (d : Nat) (x : Int) : State :=
  forN 8 s (fun s n =>
    if 2 ≤ n ∧ s.dpllDomain n = some d ∧ s.dpllState n ≠ DpllSt.disabled then
      s.wrFit F.DPLL_STEPD_VALUE ((s.rdS F.DPLL_STEPD_VALUE n + x : Int) : Rat) n
    else s)

/-! ### Enabling, disabling and writes (R172, R176, R185, R205, R206) -/

/-- The limits of R172 for a bandwidth code of loop `n`. -/
def State.bwOk (s : State) (n c : Nat) : Bool :=
  if n < 2 then c ≤ 15
  else c ≤ 23 && (List.range 4).all (fun e => !s.entryOn n e ||
    (if isDomainCode (s.entrySrc n e) then decide (bwHz c * 50 ≤ 1000000)
     else s.rd F.DPLL_PD_PER_VALUE n != 0 && decide (bwHz c * 50 * s.rd F.DPLL_PD_PER_VALUE n ≤ ruSecond)))

/-- The enable check of loop `n` (R205). -/
def State.dpllCheck (s : State) (n : Nat) : Bool :=
  let order := s.rd F.DPLL_CTL_ORDER n
  s.bwOk n (s.rd F.DPLL_LOOP_BW n) &&
  (if n < 2 then (order == 2 || order == 3) && s.bwOk n (s.rd F.DPLL_LOOP_ACQ_BW n)
   else (List.range 4).all (fun e => !s.entryOn n e || entryCodeOk (s.entrySrc n e)))

/-- An enable check has failed: EN reads 0, FS 67 with the block in the snapshot (R205). -/
def State.loopRefused (s : State) (en : Fld) (i block : Nat) : State := (s.wr en 0 i).raise 67 block

/-- Loop `n` starts (R176, Table LOOP-2). -/
def State.dpllStart (s : State) (n : Nat) : State :=
  if !s.dpllCheck n then s.loopRefused F.DPLL_CTL_EN n n
  else if n < 2 then
    let s := s.setDpl n { i1 := (s.dom n).addend / nominalExact - 1, tick := s.ridge.ticks }
    s.moveDpll n (if s.domState n = DomSt.freeRun then DpllSt.freerun else DpllSt.locked)
  else
    let s := s.setDpl n { tick := s.ridge.ticks }
    let s := (s.wr F.DPLL_STAT_ACTIVE 0 n).wr F.DPLL_STAT_VALID 0 n
    (s.wr F.DPLL_PBO_VALUE 0 n).moveDpll n DpllSt.freerun

/-- A write of DPLL_CTL[n] (R185, R206). -/
def State.dpllCtlWrite (s : State) (a : Acs) (n w : Nat) : State × Nat :=
  let was := s.on F.DPLL_CTL_EN n
  let live := was || s.dpllState n != DpllSt.disabled
  let r := s.fieldWrite (fun f => live && f.no != F.DPLL_CTL_EN.no) inRange
    [F.DPLL_CTL_AUTO_SW, F.DPLL_CTL_REVERT, F.DPLL_CTL_PBO_EN, F.DPLL_CTL_DAMP, F.DPLL_CTL_ORDER, F.DPLL_CTL_EN] n w
  let s := r.1
  let now := s.on F.DPLL_CTL_EN n
  let st := s.dpllState n
  let s :=
    if now && !was then (if st = DpllSt.stopping then s.wr F.DPLL_STAT_PENDING_ENABLE 1 n else s.dpllStart n)
    else if was && !now then
      if st = DpllSt.stopping then s.wr F.DPLL_STAT_PENDING_ENABLE 0 n else s.moveDpll n DpllSt.stopping
    else s
  s.conclude a r.2

/-- `DPLL_ENABLE`: requester `req` writes DPLL_CTL[n] with EN = 1; `w` gives the other bits. -/
def execDpllEnable (req n w : Nat) (s : State) : Host.Outcome State Fault Refusal :=
  if 8 ≤ n then done s else done (s.put ⟨req, 0xA000 + 0x80 * n, 2, true⟩ (fun s a => s.dpllCtlWrite a n (setBit w 0 true))).1

/-- `DPLL_DISABLE`: requester `req` writes DPLL_CTL[n] with EN = 0; `w` gives the other bits. -/
def execDpllDisable (req n w : Nat) (s : State) : Host.Outcome State Fault Refusal :=
  if 8 ≤ n then done s else done (s.put ⟨req, 0xA000 + 0x80 * n, 2, true⟩ (fun s a => s.dpllCtlWrite a n (setBit w 0 false))).1

/-- Loop `n` has stopped, and starts again when an enable is pending (R206). -/
def State.dpllStopped (s : State) (n : Nat) : State :=
  let s := (s.moveDpll n DpllSt.disabled).condOff 74 n
  let s := s.setDpl n { s.dpl n with staged := false, slew := none }
  if s.on F.DPLL_STAT_PENDING_ENABLE n then (s.wr F.DPLL_STAT_PENDING_ENABLE 0 n).dpllStart n else s

/-- `DPLL_STOP_DONE`: loop `n` finishes stopping. -/
def execDpllStopDone (n : Nat) (s : State) : Host.Outcome State Fault Refusal :=
  if n < 8 ∧ s.dpllState n = DpllSt.stopping then done (s.dpllStopped n) else done s

/-- A write of DPLL_LOOP[n] (R172, R173, R185): a code out of range, or beyond the loop's limits while it is not DISABLED, keeps its
field. -/
def State.dpllLoopWrite (s : State) (a : Acs) (n w : Nat) : State × Nat :=
  let live := s.dpllState n != DpllSt.disabled
  let ok := fun (f : Fld) (v : Nat) => inRange f v && (f.no == F.DPLL_LOOP_PSL.no || !live || s.bwOk n v)
  let r := s.fieldWrite noLock ok [F.DPLL_LOOP_PSL, F.DPLL_LOOP_ACQ_BW, F.DPLL_LOOP_BW] n w
  r.1.conclude a r.2

/-- A write of a register that is locked while loop `n` is enabled (R185). -/
def State.dpllLockedWrite (s : State) (a : Acs) (fs : List Fld) (n i w : Nat) : State × Nat :=
  let locked := s.on F.DPLL_CTL_EN n || s.dpllState n != DpllSt.disabled
  let r := s.fieldWrite (fun _ => locked) inRange fs i w
  r.1.conclude a r.2

/-- An XO steering change by the fraction `q` scales every running loop, so that no Ridge and no clock moves in frequency (R137,
R177). -/
def State.scaleLoops (s : State) (q : Rat) : State :=
  forN 8 s (fun s n =>
    let st := s.dpllState n
    let l := s.dpl n
    if st = DpllSt.disabled ∨ st = DpllSt.stopping then s
    else
      let s := s.setDpl n { l with i1 := (1 + l.i1) / (1 + q) - 1 }
      if n < 2 then
        s.setDom n { s.dom n with addend := (roundRat (((s.dom n).addend : Rat) / (1 + q))).toNat }
      else s)

end Sys2Proof.Machine
end

