-- ==== Sys2Proof/Machine/Apll.lean ====
section
/-! DEFINITION. Analogue synthesis (spec/05_loops_synthesis_outputs.md): the enable check, band search, lock, bypass and return of
APLL0 to APLL5. -/
namespace Sys2Proof.Machine

/-- APLL `m` without a register. -/
def State.apl (s : State) (m : Nat) : ApllSt := s.loop.apll.getD m {}

/-- APLL `m`'s hidden state becomes `a`. -/
def State.setApl (s : State) (m : Nat) (a : ApllSt) : State := { s with loop := { s.loop with apll := s.loop.apll.set m a } }

/-- APLL `m` goes to state `st`: shown, and event 0x0007 (Table HOST-9). -/
def State.moveApll (s : State) (m st : Nat) : State :=
  let old := s.apllState m
  if old = st then s else (s.wr F.APLL_STAT_STATE st m).eventNow 0x0007 1 [m + old * 16 + st * 256]

/-- The phase-detector frequency of APLL `m` in Hz at its reference frequency (R186); RDIV 0 is no divider. -/
def State.apllPfd (s : State) (m : Nat) : Rat :=
  ((s.apl m).fref : Rat) * (1 + s.rd F.APLL_CTL_RDBL m) / s.rd F.APLL_CTL_RDIV m

/-- The VCO target of APLL `m` in Hz (R186). -/
def State.apllVco (s : State) (m : Nat) : Rat :=
  s.apllPfd m * ((s.rd F.APLL_N_N m : Rat) + (s.rd F.APLL_FRAC_FRAC m : Rat) / 2 ^ 32)

/-- The configuration of APLL `m` keeps the ranges of R186 and its fields name something. -/
def State.apllCheck (s : State) (m : Nat) : Bool :=
  let p := s.apllPfd m
  let v := s.apllVco m
  s.rd F.APLL_CTL_RDIV m != 0 && s.rd F.APLL_CTL_DPLL_SEL m != 1 && s.rd F.APLL_CTL_REF m ≤ 8 &&
  decide (5000000 ≤ p) && decide (p ≤ 200000000) && decide (9600000000 ≤ v) && decide (v ≤ 12800000000)

/-- The clock outputs that APLL `m` feeds. -/
def State.clkOf (s : State) (m : Nat) : List Nat := idxs 16 (fun i => s.rd F.OUT_CLK_CTL_SRC i == m)

/-- The outputs of APLL `m` go to bypass or leave it (R191, R192); a group that transmits on its VCO moves to REFCLK, raising FS 105,
or back (R275). -/
def State.setBypass (s : State) (m : Nat) (b : Bool) : State :=
  let s := s.wrB F.APLL_STAT_BYPASS b m
  let s := (s.clkOf m).foldl (fun s i => s.wrB F.OUT_CLK_STAT_BYPASS (b && s.on F.OUT_CLK_CTL_EN i) i) s
  forN 8 s (fun s g =>
    if s.rd F.SDS_GRP_CTL_TX_REF g = m + 1 ∧ s.on F.SDS_GRP_CTL_EN g ∧ s.on F.SDS_GRP_STAT_TX_REF_ACT g ≠ b then
      let s := s.wrB F.SDS_GRP_STAT_TX_REF_ACT b g
      s.cond 105 b g
    else s)

/-- APLL `m` asks for a lock attempt (R188): with MAN = 1 at once in MAN_BAND, otherwise by a band search that waits for the
measurement-clock group. -/
def State.requestLock (s : State) (m : Nat) : State :=
  let s := s.setApl m { s.apl m with waiting := false }
  if s.on F.APLL_BAND_MAN m then
    (s.wr F.APLL_STAT_BAND (s.rd F.APLL_BAND_MAN_BAND m) m).moveApll m ApllSt.locking
  else ((s.moveApll m ApllSt.wait).enqueue Act.apllSearch m false []).1

/-- APLL `m` starts (Table LOOP-3): its island on and its check passed, its outputs go to bypass and a search is requested. -/
def State.apllStart (s : State) (m : Nat) : State :=
  if !s.islandOn (10 + m) then (s.wr F.APLL_CTL_EN 0 m).raise 221 (10 + m)
  else if !s.apllCheck m then s.loopRefused F.APLL_CTL_EN m (0x10 + m)
  else
    let s := s.setApl m { s.apl m with first := true }
    let s := s.wr F.APLL_STAT_REF_OK 1 m
    (s.setBypass m true).requestLock m

/-- Everything that waits for APLL `m` ends: its queued search is removed, and commands behind it answer BAD_PARAM (R569). -/
def State.apllQuit (s : State) (m : Nat) : State :=
  let s := s.dequeue Act.apllSearch m
  let cs := (s.apl m).cmds
  (s.setApl m { fref := (s.apl m).fref }).finishAll cs Code.badParam

/-- A write of APLL_CTL[m] (R193, R206): every field but EN is locked while EN = 1. -/
def State.apllCtlWrite (s : State) (a : Acs) (m w fref : Nat) : State × Nat :=
  let was := s.on F.APLL_CTL_EN m
  let tested := s.testing (0x60 + m)
  let r := s.fieldWrite (fun f => (was || tested || s.apllState m != ApllSt.off) && f.no != F.APLL_CTL_EN.no) inRange
    [F.APLL_CTL_AUTO_RET, F.APLL_CTL_LBW, F.APLL_CTL_DPLL_SEL, F.APLL_CTL_RDIV, F.APLL_CTL_RDBL, F.APLL_CTL_REF,
     F.APLL_CTL_EN] m w
  let s := r.1
  let now := s.on F.APLL_CTL_EN m
  let st := s.apllState m
  let s :=
    if now && !was then
      let s := s.setApl m { s.apl m with fref := fref }
      if st = ApllSt.stopping ∨ tested then s.wr F.APLL_STAT_PENDING_ENABLE 1 m else s.apllStart m
    else if was && !now then
      if st = ApllSt.stopping ∨ tested then s.wr F.APLL_STAT_PENDING_ENABLE 0 m
      else if st = ApllSt.off then s
      else (s.apllQuit m).moveApll m ApllSt.stopping
    else s
  s.conclude a r.2

/-- `APLL_ENABLE`: requester `req` writes APLL_CTL[m] with EN = 1; `fref` is the frequency of the selected reference. -/
def execApllEnable (req m w fref : Nat) (s : State) : Host.Outcome State Fault Refusal :=
  if 6 ≤ m then done s else done (s.put ⟨req, 0xC000 + 0x40 * m, 2, true⟩ (fun s a => s.apllCtlWrite a m (setBit w 0 true) fref)).1

/-- `APLL_DISABLE`: requester `req` writes APLL_CTL[m] with EN = 0. -/
def execApllDisable (req m w : Nat) (s : State) : Host.Outcome State Fault Refusal :=
  if 6 ≤ m then done s else done (s.put ⟨req, 0xC000 + 0x40 * m, 2, true⟩ (fun s a => s.apllCtlWrite a m (setBit w 0 false) 0)).1

/-- `APLL_STOP_DONE`: APLL `m` is OFF, and starts again when an enable is pending. Its stop waits for a search that runs
(R569). -/
def execApllStopDone (m : Nat) (s : State) : Host.Outcome State Fault Refusal :=
  if m < 6 ∧ s.apllState m = ApllSt.stopping ∧ !s.isRunning Act.apllSearch m then
    let s := s.wr F.APLL_STAT_LOCK 0 m
    let s := ((s.setBypass m false).condOff 68 m).condOff 70 m
    let s := s.moveApll m ApllSt.off
    if s.on F.APLL_STAT_PENDING_ENABLE m then done ((s.wr F.APLL_STAT_PENDING_ENABLE 0 m).apllStart m) else done s
  else done s

/-- The search of `e` starts: loop opened, outputs on bypass (R188, R189). A `MAINT_RUN` behind it begins a new lock attempt, which
returns as after an enable (R575). -/
def State.beginSearch (s : State) (e : SortEntry) : State :=
  let m := e.tgt
  let a := s.apl m
  let s := s.setApl m { a with first := a.first || !e.cmds.isEmpty, cmds := a.cmds ++ e.cmds }
  let s := s.wr F.APLL_STAT_LOCK 0 m
  (s.setBypass m true).moveApll m ApllSt.search

/-- `BAND_SEARCH`: the measurement-clock group is free and its next entry is a band search, which starts (R188). -/
def execBandSearch (s : State) : Host.Outcome State Fault Refusal :=
  match s.startable 0 with
  | some e => if e.act = Act.apllSearch then done ((s.startEntry 0 e).beginSearch e) else done s
  | none => done s

/-- The count measured for band `b` in `cnt`. -/
def countOf (cnt : List (Nat × Nat)) (b : Nat) : Nat := ((cnt.find? (fun p => p.1 == b)).map (fun p => p.2)).getD 0

/-- The band the eight trials leave (R189): a bit is kept when its trial band counts no more than T. -/
def trialBand (cnt : List (Nat × Nat)) (t : Rat) : Nat → Nat → Nat
  | 0, b => b
  | k + 1, b => trialBand cnt t k (if (countOf cnt (b + 2 ^ k) : Rat) ≤ t then b + 2 ^ k else b)

/-- The bands that the trials counted. -/
def trialBands (cnt : List (Nat × Nat)) (t : Rat) : Nat → Nat → List Nat
  | 0, _ => []
  | k + 1, b =>
    (b + 2 ^ k) :: trialBands cnt t k (if (countOf cnt (b + 2 ^ k) : Rat) ≤ t then b + 2 ^ k else b)

/-- The band chosen: b, or b + 1 when its count lies nearer T (R189). -/
def chosenBand (cnt : List (Nat × Nat)) (t : Rat) : Nat :=
  let b := trialBand cnt t 8 0
  if b = 255 then b
  else if |(countOf cnt (b + 1) : Rat) - t| < |(countOf cnt b : Rat) - t| then b + 1 else b

/-- The target count T: the VCO target over 0.8 µs (R189). -/
def State.searchTarget (s : State) (m : Nat) : Rat := s.apllVco m * 8 / 10000000

/-- The band search of APLL `m` ends with the counts `cnt` (R189): the loop closes, or the search has failed. -/
def State.endSearch (s : State) (m : Nat) (cnt : List (Nat × Nat)) : State :=
  let t := s.searchTarget m
  let b := chosenBand cnt t
  let used := trialBands cnt t 8 0
  let top := trialBand cnt t 8 0
  let n := if top = 255 || used.contains (top + 1) then 8 else 9
  let s := s.inc F.APLL_CNT_SEARCHES m
  let s := (s.wrSat F.APLL_SRCH_TARGET (roundRat t).toNat m).wrSat F.APLL_SRCH_FINAL (countOf cnt b) m
  let s := s.wr F.APLL_SRCH_T_COUNTS n m
  let s := if n = 8 then s.wr F.APLL_SRCH_T_DURATION 61 m else s.wrFree F.APLL_SRCH_T_DURATION m
  let s := s.wr F.APLL_STAT_BAND b m
  let failed := 1000 < |(countOf cnt b : Rat) - t|
  let s := s.endEntry 0 (if failed then Code.badParam else Code.ok) b (countOf cnt b) false
  if s.apllState m ≠ ApllSt.search then s
  else if failed then
    (((s.setApl m { s.apl m with waiting := true }).moveApll m ApllSt.wait).raise 69 m).raise 176 (Act.apllSearch + m * 256)
  else s.moveApll m ApllSt.locking

/-- `BAND_SEARCH_DONE`: the running search ends; `cnt` lists what each band counts. -/
def execBandSearchDone (cnt : List (Nat × Nat)) (s : State) : Host.Outcome State Fault Refusal :=
  match s.quietRun 0 with
  | some e => if e.act = Act.apllSearch then done (s.endSearch e.tgt cnt) else done s
  | none => done s

/-- `SEARCH_RETRY`: 1 ms after a failed search, APLL `m` requests another (R189). -/
def execSearchRetry (m : Nat) (s : State) : Host.Outcome State Fault Refusal :=
  if m < 6 ∧ s.apllState m = ApllSt.wait ∧ (s.apl m).waiting then done (s.requestLock m) else done s

/-- `APLL_LOCK`: APLL `m` is locked (R190): its RET_HOLD starts, and a `MAINT_RUN` behind the attempt completes (R575). -/
def execApllLock (m : Nat) (s : State) : Host.Outcome State Fault Refusal :=
  if m < 6 ∧ s.apllState m = ApllSt.locking then
    let cs := (s.apl m).cmds
    let s := s.setApl m { s.apl m with cmds := [] }
    let s := ((s.wr F.APLL_STAT_LOCK 1 m).condOff 68 m).moveApll m ApllSt.locked
    done (cs.foldl (fun s c => s.finish c Code.ok (s.rd F.APLL_STAT_BAND m) (s.rd F.APLL_SRCH_FINAL m)) s)
  else done s

/-- `APLL_LOSS_OF_LOCK`: APLL `m` loses lock, or its reference (`refLost`) (R190, R191): outputs to bypass, LOL counted, FS 68 or
FS 70. -/
def execApllLossOfLock (m : Nat) (refLost : Bool) (s : State) : Host.Outcome State Fault Refusal :=
  let st := s.apllState m
  if m < 6 ∧ (st = ApllSt.locked ∨ st = ApllSt.locking) then
    let s := s.wr F.APLL_STAT_LOCK 0 m
    let s := if refLost then s.wr F.APLL_STAT_REF_OK 0 m else s
    let s := (s.inc F.APLL_CNT_LOL m).setBypass m true
    let s := s.setApl m { s.apl m with first := false }
    let s := s.moveApll m ApllSt.bypass
    done (s.condOn (if refLost then 70 else 68) m)
  else done s

/-- `APLL_REF_RETURN`: the reference of APLL `m` has been present for 1 ms, and a lock attempt is requested (R192). -/
def execApllRefReturn (m : Nat) (s : State) : Host.Outcome State Fault Refusal :=
  if m < 6 ∧ s.apllState m = ApllSt.bypass then
    done (((s.wr F.APLL_STAT_REF_OK 1 m).condOff 70 m).requestLock m)
  else done s

/-- The outputs of APLL `m` return from bypass on the divider-sync edge (R192, R195). -/
def State.apllReturn (s : State) (m : Nat) : State :=
  (s.setApl m { s.apl m with first := false }).setBypass m false

/-- `BYPASS_RETURN`: APLL `m` has stayed locked for RET_HOLD: its outputs return with AUTO_RET = 1 or after a first lock (R192). -/
def execBypassReturn (m : Nat) (s : State) : Host.Outcome State Fault Refusal :=
  if m < 6 ∧ s.apllState m = ApllSt.locked ∧ s.on F.APLL_STAT_BYPASS m ∧ (s.on F.APLL_CTL_AUTO_RET m ∨ (s.apl m).first) then
    done (s.apllReturn m)
  else done s

/-- `APLL_RETURN`: the outputs of a LOCKED APLL return from bypass; otherwise BAD_PARAM (Table LOOP-7). -/
def execApllReturn (c : CmdRef) (w0 : Nat) (s : State) : Host.Outcome State Fault Refusal :=
  let m := bits w0 0 3
  if m < 6 ∧ s.apllState m = ApllSt.locked ∧ s.on F.APLL_STAT_BYPASS m then
    done ((s.apllReturn m).finish c Code.ok)
  else done (s.finish c Code.badParam)

/-- A write of APLL_N, APLL_FRAC or APLL_BAND, locked while APLL `m` is enabled (R193). -/
def State.apllLockedWrite (s : State) (a : Acs) (fs : List Fld) (m w : Nat) : State × Nat :=
  let locked := s.on F.APLL_CTL_EN m || s.testing (0x60 + m) || s.apllState m != ApllSt.off
  let r := s.fieldWrite (fun _ => locked) inRange fs m w
  r.1.conclude a r.2

end Sys2Proof.Machine
end

