-- ==== Sys2Proof/Machine/Osc.lean ====
section
/-! DEFINITION. Oscillator steering and the UARTs of the atomic oscillators (spec/04_holdover_eaves.md, Table EAVES-1, R131 to R148,
R168, R560). Oscillator k is XO, ATOM0, ATOM1 for k = 0, 1, 2. -/
namespace Sys2Proof.Machine

namespace OscMode
def off : Nat := 0
def manual : Nat := 1
def frozen : Nat := 2
def tracking : Nat := 3
end OscMode

/-- Oscillator `k` without a register. -/
def State.osc (s : State) (k : Nat) : OscSt := s.eaves.osc.getD k {}

/-- Oscillator `k`'s hidden state becomes `o`. -/
def State.setOsc (s : State) (k : Nat) (o : OscSt) : State := { s with eaves := { s.eaves with osc := s.eaves.osc.set k o } }

/-- The reference slot of oscillator `k`. -/
def oscSlot (k : Nat) : Nat := if k = 0 then 10 else if k = 1 then 8 else 9

/-- The steering state of oscillator `k` (Table EAVES-1). -/
def State.oscState (s : State) (k : Nat) : Nat := s.rd F.OSC_STAT_STATE k

/-- Oscillator `k` is steered by messages: an atomic one with MEDIUM = 1 (R131). -/
def State.oscUart (s : State) (k : Nat) : Bool := k != 0 && s.on F.OSC_CTL_MEDIUM k

/-- This member may not steer oscillator `k` or send on its UART: SHARED = 1 and it does not hold the token (R141). -/
def State.oscBarred (s : State) (k : Nat) : Bool := s.on F.OSC_CTL_SHARED k && s.notHolder

/-- The size of one steering unit of oscillator `k` in fractional frequency. -/
def State.oscKv (s : State) (k : Nat) : Rat := (toS 32 (s.inF F.EAVES_CHAR_KV_KV (oscSlot k)) : Rat) / 10 ^ 18

/-! ### The states (Table EAVES-1) -/

/-- A message for oscillator `k`'s UART waits. -/
def State.oscQueue (s : State) (k : Nat) (m : UartMsg) : State :=
  s.setOsc k { s.osc k with queue := (s.osc k).queue ++ [m] }

/-- Template `t` of oscillator `k` is usable. -/
def State.tplOn (s : State) (k t : Nat) : Bool := k != 0 && s.on F.OSC_TPL_EN (3 * k + t)

/-- The message is one that MANUAL discards. -/
def UartMsg.isSteer : UartMsg → Bool
  | .steer _ => true
  | _ => false

/-- The message answers an `OSC_SEND`. -/
def UartMsg.isSend : UartMsg → Bool
  | .raw _ _ => true
  | .probe (some _) => true
  | _ => false

/-- A steering step not yet in effect is discarded, and its STEER message with it (R133). -/
def State.oscDiscard (s : State) (k : Nat) : State :=
  s.setOsc k { s.osc k with step := none, sent := false, queue := (s.osc k).queue.filter (fun m => !m.isSteer) }

/-- MODE of oscillator `k` has been written (R133). -/
def State.oscMode (s : State) (k : Nat) : State :=
  let m := s.rd F.OSC_CTL_MODE k
  let st := s.oscState k
  if m = 0 then
    if st = OscMode.off then s else
    let s := s.oscDiscard k
    let s := s.setOsc k { s.osc k with queue := (s.osc k).queue.filter UartMsg.isSend, retry := false, tries := 0 }
    s.wr F.OSC_STAT_STATE OscMode.off k
  else if m = 1 then
    if st = OscMode.manual then s else (s.oscDiscard k).wr F.OSC_STAT_STATE OscMode.manual k
  else if st = OscMode.off ∨ st = OscMode.manual then
    let s := s.wr F.OSC_STAT_STATE OscMode.frozen k
    if s.oscUart k && s.tplOn k 2 && !s.oscBarred k then s.oscQueue k (.probe none) else s
  else s

/-- A write of OSC_CTL[k] (R133, R140). -/
def State.oscCtlWrite (s : State) (a : Acs) (k w : Nat) : State × Nat :=
  let was := s.on F.OSC_CTL_MODE k
  let r := s.fieldWrite (fun f => was && f.no != F.OSC_CTL_MODE.no) inRange
    [F.OSC_CTL_PERIOD, F.OSC_CTL_G_SHIFT, F.OSC_CTL_SHARED, F.OSC_CTL_MEDIUM, F.OSC_CTL_MODE] k w
  (r.1.oscMode k).conclude a r.2

/-- A write of another register of oscillator `k` that is locked while MODE ≠ 0 (R140). -/
def State.oscLockedWrite (s : State) (a : Acs) (fs : List Fld) (k i w : Nat) : State × Nat :=
  let on := s.on F.OSC_CTL_MODE k
  let r := s.fieldWrite (fun _ => on) inRange fs i w
  r.1.conclude a r.2

/-- The atomic oscillator whose template, pattern or mask bytes word `j` of OSC_BYTES holds. -/
def oscOfBytes (j : Nat) : Nat := if j < 24 then 1 else if j < 48 then 2 else if j < 56 then 1 else 2

/-- A write of OSC_CODE[k] or OSC_ACC[k]: taken in MANUAL only (R139). A change of OSC_ACC of an oscillator steered by messages is
sent with the STEER template (R131, R138). -/
def State.oscCodeWrite (s : State) (a : Acs) (k : Nat) (acc : Bool) (w : Nat) : State × Nat :=
  let manual := s.oscState k == OscMode.manual
  let old := s.rdS F.OSC_ACC_ACC k
  let r := s.fieldWrite (fun _ => !manual) anyValue [if acc then F.OSC_ACC_ACC else F.OSC_CODE_CODE] k w
  let s := r.1
  let d := s.rdS F.OSC_ACC_ACC k - old
  let s := if d != 0 && s.oscUart k && s.tplOn k 0 && !s.oscBarred k then
      (s.setOsc k { s.osc k with step := some (((s.osc k).step.getD 0) + d), sent := false }).oscQueue k (.steer d)
    else s
  s.conclude a r.2

/-- The register access of requester `req` to word `off` of oscillator `k`. -/
def oscAcs (req k off : Nat) : Acs := ⟨req, 0x9E00 + 64 * k + off, 2, true⟩

/-- `OSC_MODE_MANUAL`: requester `req` writes OSC_CTL[k] with MODE = 1; `w` gives the other bits. -/
def execOscModeManual (req k w : Nat) (s : State) : Host.Outcome State Fault Refusal :=
  if 3 ≤ k then done s else done (s.put (oscAcs req k 0) (fun s a => s.oscCtlWrite a k (setBits w 0 2 1))).1

/-- `OSC_MODE_AUTO`: requester `req` writes OSC_CTL[k] with MODE = 2; `w` gives the other bits. -/
def execOscModeAuto (req k w : Nat) (s : State) : Host.Outcome State Fault Refusal :=
  if 3 ≤ k then done s else done (s.put (oscAcs req k 0) (fun s a => s.oscCtlWrite a k (setBits w 0 2 2))).1

/-- `OSC_MODE_OFF`: requester `req` writes OSC_CTL[k] with MODE = 0; `w` gives the other bits. -/
def execOscModeOff (req k w : Nat) (s : State) : Host.Outcome State Fault Refusal :=
  if 3 ≤ k then done s else done (s.put (oscAcs req k 0) (fun s a => s.oscCtlWrite a k (setBits w 0 2 0))).1

/-- `OSC_CODE_WRITE`: requester `req` writes OSC_CODE[k], or OSC_ACC[k] when `acc`. -/
def execOscCodeWrite (req k : Nat) (acc : Bool) (w : Nat) (s : State) : Host.Outcome State Fault Refusal :=
  if 3 ≤ k then done s else done (s.put (oscAcs req k (if acc then 0xC else 8)) (fun s a => s.oscCodeWrite a k acc w)).1

/-! ### Steering (R134 to R138) -/

/-- The gating conditions of oscillator `k` hold (R134). -/
def State.oscGated (s : State) (k : Nat) : Bool :=
  let n := oscSlot k
  s.domState 0 == DomSt.locked && s.on F.ENS_SLOT_CFG_EN n &&
  s.rd F.ENS_SLOT_STAT_STATE n != Slot.disqualified && s.rd F.ENS_SLOT_STAT_STATE n != Slot.disputed &&
  s.inF F.EAVES_CHAR_CTL_VALID n != 0 && s.inF F.EAVES_CHAR_KV_KV n != 0 && !s.on F.OSC_STAT_ALARM k && !s.oscBarred k

/-- FROZEN and TRACKING follow the gating conditions in phase 3 (Table EAVES-1). -/
def State.oscPhase3 (s : State) : State :=
  forN 3 s (fun s k =>
    let st := s.oscState k
    if st = OscMode.frozen ∧ s.oscGated k then s.wr F.OSC_STAT_STATE OscMode.tracking k
    else if st = OscMode.tracking ∧ !s.oscGated k then s.wr F.OSC_STAT_STATE OscMode.frozen k
    else s)

/-- `v` held within `lo` and `hi`. -/
def clampI (lo hi v : Int) : Int := max lo (min hi v)

/-- The steering step of oscillator `k` before the range of its value is looked at (R135). -/
def State.oscStep (s : State) (k : Nat) : Int :=
  let y : Rat := (s.rdS F.ENS_SLOT_Y_VALUE (oscSlot k) : Rat) / 2 ^ 60
  let dy := -(y / 2 ^ s.rd F.OSC_CTL_G_SHIFT k)
  let m : Int := s.rd F.OSC_STEP_STEP_MAX k
  clampI (-m) m (roundRat (dy / s.oscKv k))

/-- A step is computed (R135, R136): the part within the range is scheduled; CLAMPED and FS 53 when the range cuts it. -/
def State.oscSteer (s : State) (k : Nat) : State :=
  let d := s.oscStep k
  let uart := s.oscUart k
  let cur : Int := if uart then s.rdS F.OSC_ACC_ACC k else s.rd F.OSC_CODE_CODE k
  let next := if uart then clampI (-2147483648) 2147483647 (cur + d) else clampI 0 0xFFFFF (cur + d)
  let part := next - cur
  let s := if part != d then (s.wr F.OSC_STAT_CLAMPED 1 k).raise 53 k
    else if part != 0 then s.wr F.OSC_STAT_CLAMPED 0 k else s
  if uart then
    let s := s.wrS F.OSC_ACC_ACC next k
    if s.tplOn k 0 then
      (s.setOsc k { s.osc k with step := some (((s.osc k).step.getD 0) + part), sent := false }).oscQueue k (.steer part)
    else s
  else s.setOsc k { s.osc k with step := some part }

/-- `OSC_STEER_STEP`: the steering period of oscillator `k` elapses. -/
def execOscSteerStep (k : Nat) (s : State) : Host.Outcome State Fault Refusal :=
  if k < 3 ∧ s.oscState k = OscMode.tracking then done (s.oscSteer k) else done s

/-- A steering change of `d` units of oscillator `k` takes effect: Thatch and the loops are compensated (R137, R177). -/
def State.oscCompensate (s : State) (k : Nat) (d : Int) : State :=
  if d = 0 then s else
  let q := (d : Rat) * s.oscKv k
  let n := oscSlot k
  let s := s.setSlot n { s.slot n with y := (s.slot n).y + q }
  if k = 0 then { s with ens := { s.ens with fz := s.ens.fz - q } }.scaleLoops q else s

/-- A steering change of oscillator `k` takes effect at a beat edge: its DAC follows OSC_CODE, and with MEDIUM = 1 the message
sent has had its latency (R132, R137, R138). -/
def State.oscApply (s : State) (k : Nat) : State :=
  let o := s.osc k
  if s.oscUart k then
    let s := s.setOsc k { s.osc k with dac := s.rd F.OSC_CODE_CODE k }
    match o.step with
    | some d =>
      if o.sent then ((s.setOsc k { s.osc k with step := none, sent := false }).inc F.OSC_STAT_STEPS k).oscCompensate k d else s
    | none => s
  else
    let s := match o.step with
      | some d => (s.wr F.OSC_CODE_CODE ((s.rd F.OSC_CODE_CODE k : Int) + d).toNat k).inc F.OSC_STAT_STEPS k
      | none => s
    let c := s.rd F.OSC_CODE_CODE k
    (s.setOsc k { s.osc k with step := none, dac := c }).oscCompensate k ((c : Int) - o.dac)

/-- `OSC_STEER_APPLY`: a beat edge at which a steering change of oscillator `k` takes effect. -/
def execOscSteerApply (k : Nat) (s : State) : Host.Outcome State Fault Refusal :=
  if k < 3 then done (s.oscApply k) else done s

/-! ### UART messages (R142 to R148) -/

/-- Byte `a` of the template, pattern and mask bytes. -/
def State.oscByte (s : State) (a : Nat) : Nat := bits (s.rd F.OSC_BYTES_DATA (a / 4)) (a % 4 * 8) 8

/-- `l` with `bs` written from position `p` on; what falls past its end is not written. -/
def overlay (l : List Nat) (p : Nat) (bs : List Nat) : List Nat :=
  (bs.zipIdx).foldl (fun l b => l.set (p + b.2) b.1) l

/-- The `w` digits of `n` in base `b`, the highest first. -/
def digitsOf (b : Nat) : Nat → Nat → List Nat
  | 0, _ => []
  | w + 1, n => digitsOf b w (n / b) ++ [n % b]

/-- The ASCII character of a hexadecimal digit, upper case. -/
def hexChar (d : Nat) : Nat := if d < 10 then 48 + d else 55 + d

/-- The bytes of value `v` in format `fmt` over `w` characters or bytes, and whether it fitted (Table EAVES-2, R144). -/
def uartValue (fmt w : Nat) (v : Int) : List Nat × Bool :=
  if fmt = 1 then
    let top : Int := (10 ^ (w - 1) : Nat) - 1
    let u := clampI (-top) top v
    ((if u < 0 then 45 else 43) :: (digitsOf 10 (w - 1) u.natAbs).map (48 + ·), u == v)
  else if fmt = 2 then
    let u := satS (4 * w) v
    ((digitsOf 16 w (ofS (4 * w) u)).map hexChar, u == v)
  else if fmt = 3 then
    let u := satS (8 * w) v
    (digitsOf 256 w (ofS (8 * w) u), u == v)
  else if fmt = 4 then
    let u := satS (8 * w) v
    ((digitsOf 256 w (ofS (8 * w) u)).reverse, u == v)
  else ([], true)

/-- The checksum bytes of `bs` in format `fmt` (Table EAVES-2). -/
def uartCheck (fmt : Nat) (bs : List Nat) : List Nat :=
  if fmt = 1 then (digitsOf 16 2 (bs.foldl (fun a b => Nat.xor a b) 0)).map hexChar
  else if fmt = 2 then [bs.sum % 256]
  else []

/-- The message of template `t` of oscillator `k` with the step `step`, and whether its value fitted (R143). -/
def State.uartBuild (s : State) (k t : Nat) (step : Int) : List Nat × Bool :=
  let i := 3 * k + t
  let raw := (List.range (s.rd F.OSC_TPL_LEN i + 1)).map (fun b => s.oscByte (96 * (k - 1) + 32 * t + b))
  let v := if s.on F.OSC_TPL_VSEL i then step else s.rdS F.OSC_ACC_ACC k
  let w := s.rd F.OSC_TPL_VWID i
  let vb := if w = 0 then ([], true) else uartValue (s.rd F.OSC_TPL_VFMT i) w v
  let m := overlay raw (s.rd F.OSC_TPL_VOFS i) vb.1
  let from' := s.rd F.OSC_TPL_CKFROM i
  let ofs := s.rd F.OSC_TPL_CKOFS i
  let ck := uartCheck (s.rd F.OSC_TPL_CKFMT i) ((m.drop from').take (ofs - from'))
  (overlay m ofs ck, vb.2)

/-- The order in which waiting messages are sent (R145). -/
def UartMsg.rank : UartMsg → Nat
  | .steer _ => 0
  | .poll => 1
  | .probe none => 2
  | .probe (some _) => 3
  | .raw _ _ => 3

/-- The message of `l` to be sent next: the first of the lowest rank. -/
def nextMsg (l : List UartMsg) : Option UartMsg :=
  (List.range 4).findSome? (fun r => l.find? (fun m => m.rank == r))

/-- Template `t` of oscillator `k` is sent; a value that does not fit raises FS 57. -/
def State.sendTpl (s : State) (k t : Nat) (step : Int) : State :=
  let b := s.uartBuild k t step
  let s := if b.2 then s else s.raise 57 k
  s.emit (.uart k b.1)

/-- The message `m` of oscillator `k` is sent whole; its `OSC_SEND` completes after the last stop bit (Table EAVES-7, R148). -/
def State.sendMsg (s : State) (k : Nat) (m : UartMsg) : State :=
  match m with
  | .steer d => let s := s.sendTpl k 0 d
                s.setOsc k { s.osc k with sent := true }
  | .poll => let s := s.sendTpl k 1 0
             s.setOsc k { s.osc k with await := 1 }
  | .probe none => let s := s.sendTpl k 2 0
                   s.setOsc k { s.osc k with await := 2 }
  | .probe (some c) => let s := s.sendTpl k 2 0
                       (s.setOsc k { s.osc k with await := 2 }).finish c Code.ok
  | .raw c bs => (s.emit (.uart k bs)).finish c Code.ok

/-- A message this member may not send is dropped; an `OSC_SEND` completes with NOT_TOKEN_HOLDER (R141, R168). -/
def State.dropMsg (s : State) (m : UartMsg) : State :=
  match m with
  | .probe (some c) => s.finish c Code.notTokenHolder
  | .raw c _ => s.finish c Code.notTokenHolder
  | _ => s

/-- `UART_SEND`: the UART of oscillator `k` is free, and the next message is built and sent. -/
def execUartSend (k : Nat) (s : State) : Host.Outcome State Fault Refusal :=
  if k = 0 ∨ 3 ≤ k then done s else
  match nextMsg (s.osc k).queue with
  | none => done s
  | some m =>
    let s := s.setOsc k { s.osc k with queue := (s.osc k).queue.erase m }
    done (if s.oscBarred k then s.dropMsg m else s.sendMsg k m)

/-- `OSC_POLL`: POLL_PERIOD of oscillator `k` elapses (R146). In OFF the UART is silent. -/
def execOscPoll (k : Nat) (s : State) : Host.Outcome State Fault Refusal :=
  if k = 0 ∨ 3 ≤ k then done s
  else if s.on F.OSC_UCFG_POLL_PERIOD k && s.oscState k != OscMode.off && s.tplOn k 1 && !s.oscBarred k then
    done (s.oscQueue k .poll)
  else done s

/-- The first 16 of `bytes`, padded with 0x00, pass the pattern of oscillator `k` under its mask (R146). -/
def State.respPasses (s : State) (k : Nat) (bytes : List Nat) : Bool :=
  (List.range 16).all (fun i =>
    Nat.land (bytes.getD i 0 % 256) (s.oscByte (0xC0 + 32 * (k - 1) + 16 + i)) == s.oscByte (0xC0 + 32 * (k - 1) + i))

/-- A poll of oscillator `k` has passed or failed (R147). -/
def State.pollResult (s : State) (k : Nat) (pass : Bool) : State :=
  let s := if pass then s.wr F.OSC_STAT_MISS 0 k else s.inc F.OSC_STAT_MISS k
  let s := s.setOsc k { s.osc k with passes := if pass then (s.osc k).passes + 1 else 0 }
  let m := s.rd F.OSC_UCFG_MISS_MAX k
  if m ≤ s.rd F.OSC_STAT_MISS k then (s.wr F.OSC_STAT_ALARM 1 k).condOn (50 + k)
  else if m ≤ (s.osc k).passes then (s.wr F.OSC_STAT_ALARM 0 k).condOff (50 + k)
  else s

/-- A probe of oscillator `k` has passed or failed (R148, R560). -/
def State.probeResult (s : State) (k : Nat) (pass : Bool) : State :=
  if pass then (s.wr F.OSC_STAT_PRESENT 1 k).setOsc k { s.osc k with retry := false, tries := 0 }
  else if s.on F.OSC_CTL_MODE k && s.tplOn k 2 then s.setOsc k { s.osc k with retry := true }
  else s

/-- `POLL_RESPONSE_END`: RESP_TO of oscillator `k` ends with `bytes` received; `err` says that a byte had a framing or parity
error. -/
def execPollResponseEnd (k : Nat) (bytes : List Nat) (err : Bool) (s : State) : Host.Outcome State Fault Refusal :=
  if k = 0 ∨ 3 ≤ k then done s else
  let w := (s.osc k).await
  if w = 0 then done s else
  let pass := !err && s.respPasses k bytes
  let s := if err then s.raise 57 k else s
  let s := s.setOsc k { s.osc k with await := 0 }
  if w = 1 then
    let s := forN 4 s (fun s j =>
      s.wr F.OSC_RESP_BYTES (((List.range 4).map (fun b => bytes.getD (4 * j + b) 0 % 256 * 256 ^ b)).sum) (4 * k + j))
    done (s.pollResult k pass)
  else done (s.probeResult k pass)

/-- `PROBE_RETRY`: the failed probe of oscillator `k` is sent again. -/
def execProbeRetry (k : Nat) (s : State) : Host.Outcome State Fault Refusal :=
  if k = 0 ∨ 3 ≤ k then done s
  else if (s.osc k).retry && s.on F.OSC_CTL_MODE k && !s.oscBarred k then
    done ((s.setOsc k { s.osc k with retry := false, tries := (s.osc k).tries + 1 }).oscQueue k (.probe none))
  else done s

/-- `OSC_SEND`: parameter word 0 and the message words. -/
def execOscSend (c : CmdRef) (w0 : Nat) (msg : List Nat) (s : State) : Host.Outcome State Fault Refusal :=
  let k := bits w0 0 2
  let probe := bit w0 2
  let len := bits w0 8 5
  if k = 0 ∨ k = 3 then done (s.finish c Code.badParam)
  else if s.oscBarred k then done (s.finish c Code.notTokenHolder)
  else if probe then
    if s.tplOn k 2 then done (s.oscQueue k (.probe (some c))) else done (s.finish c Code.badParam)
  else if len = 0 then done (s.finish c Code.badParam)
  else done (s.oscQueue k (.raw c ((List.range len).map (fun i => bits (msg.getD (i / 4) 0) (i % 4 * 8) 8))))

end Sys2Proof.Machine
end

