-- ==== Sys2Proof/Machine/Gnss.lean ====
section
/-! DEFINITION. The GNSS timing receiver (spec/06_gnss_receiver.md): its states, streams, notches, channels, epochs, solution, verdict,
deliveries and hint store. What the correlators and the management cores measure are operands of the commands. -/
namespace Sys2Proof.Machine

namespace Rx
def off : Nat := 0
def starting : Nat := 1
def running : Nat := 2
def sleeping : Nat := 3
def asleep : Nat := 4
def waking : Nat := 5
def stopping : Nat := 6
end Rx

namespace Ch
def search : Nat := 1
def pullIn : Nat := 2
def fll : Nat := 3
def pll : Nat := 4
def lost : Nat := 5
end Ch

namespace Verdict
def none : Nat := 0
def inconclusive : Nat := 1
def authentic : Nat := 2
def suspect : Nat := 3
def spoofed : Nat := 4
end Verdict

/-- The receiver's state (Table GNSS-5). -/
def State.rx (s : State) : Nat := s.rd F.GNSS_STAT_STATE

/-- The receiver processes signals. -/
def State.rxActive (s : State) : Bool := s.rx == Rx.starting || s.rx == Rx.running || s.rx == Rx.waking

/-- The receiver's hidden state becomes `g`. -/
def State.setGnss (s : State) (g : GnssSt) : State := { s with gnss := g }

/-- The value in force of a field whose writes take effect at the next epoch latch (R247). -/
def State.inG (s : State) (f : Fld) (i : Nat := 0) : Nat := (kvGet s.gnss.was (f.key i)).getD (s.rd f i)

/-! ### Channels (Table GNSS-2) -/

/-- Channel `no`, if it is not IDLE. -/
def State.gch (s : State) (no : Nat) : Option GnssCh := s.gnss.ch.find? (fun c => c.no == no)

/-- `c` put in a list of channels by rising number. -/
def putCh (c : GnssCh) : List GnssCh → List GnssCh
  | [] => [c]
  | d :: t => if c.no < d.no then c :: d :: t else if c.no = d.no then c :: t else d :: putCh c t

/-- CH_TRACK follows the channels in FLL or PLL. -/
def State.showCh (s : State) : State :=
  s.wrSat F.GNSS_STAT_CH_TRACK (s.gnss.ch.countP (fun c => c.st == Ch.fll || c.st == Ch.pll))

/-- Channel `c` takes its new state. -/
def State.setCh (s : State) (c : GnssCh) : State := (s.setGnss { s.gnss with ch := putCh c s.gnss.ch }).showCh

/-- Channel `no` queues a search of class `cls` and is in SEARCH (R222). -/
def State.queueSearch (s : State) (c : GnssCh) (cls : Nat) : State :=
  let s := s.setCh { c with st := Ch.search, cls := cls, lockCnt := 0 }
  s.setGnss { s.gnss with queue := (s.gnss.queue.filter (· != c.no)) ++ [c.no] }

/-- The address of the record of channel `no` (Table GNSS-10). -/
def chRec (no : Nat) : Nat := 0xA00000 + 0x40 * no

/-- Channel `no` becomes IDLE: released, and its record's VALID is 0. -/
def State.releaseCh (s : State) (no : Nat) : State :=
  let s := (s.setGnss { s.gnss with ch := s.gnss.ch.filter (fun c => c.no != no), queue := s.gnss.queue.filter (· != no) }).showCh
  let s := s.mwr (chRec no + 24) 4 0
  s.mwr (chRec no + 28) 4 (setBit (s.mrd (chRec no + 28) 4) 31 false)

/-- Stream `t` runs. -/
def State.streamRuns (s : State) (t : Nat) : Bool := s.gnss.run.getD t false

/-- The stream number of a channel. -/
def GnssCh.stream (c : GnssCh) : Nat := 4 * c.ant + c.b

/-- The next search: the first waiting one of the lowest class (R222). -/
def State.nextSearch (s : State) : Option GnssCh :=
  (List.range 3).findSome? (fun k => s.gnss.queue.findSome? (fun no =>
    match s.gch no with
    | some c => if c.cls = k ∧ s.streamRuns c.stream then some c else none
    | none => none))

/-- `ACQ_SEARCH_DONE`: the search in progress ends, with a detection when `found`. -/
def execAcqSearchDone (found : Bool) (s : State) : Host.Outcome State Fault Refusal :=
  match s.nextSearch with
  | none => done s
  | some c =>
    let s := s.setGnss { s.gnss with queue := s.gnss.queue.filter (· != c.no) }
    if found then done (s.setCh { c with st := Ch.pullIn }) else done (s.queueSearch c (min 2 (c.cls + 1)))

/-- `f` of channel `no` when it is in state `st`. -/
def State.ifCh (s : State) (no st : Nat) (f : GnssCh → State) : State :=
  match s.gch no with
  | some c => if c.st = st then f c else s
  | none => s

/-- `CHANNEL_PULL_IN_DONE`: channel `no` has converged. -/
def execChannelPullInDone (no : Nat) (s : State) : Host.Outcome State Fault Refusal :=
  done (s.ifCh no Ch.pullIn (fun c => s.setCh { c with st := Ch.fll }))

/-- `CHANNEL_PULL_IN_TIMEOUT`: channel `no` has not converged, and searches again. -/
def execChannelPullInTimeout (no : Nat) (s : State) : Host.Outcome State Fault Refusal :=
  done (s.ifCh no Ch.pullIn (fun c => s.queueSearch c c.cls))

/-- `CHANNEL_PHASE_LOCK`: channel `no` enters PLL. -/
def execChannelPhaseLock (no : Nat) (s : State) : Host.Outcome State Fault Refusal :=
  done (s.ifCh no Ch.fll (fun c => s.setCh { c with st := Ch.pll, lockCnt := 0 }))

/-- `CHANNEL_PHASE_UNLOCK`: channel `no` returns to FLL, with SLIP in its next record. -/
def execChannelPhaseUnlock (no : Nat) (s : State) : Host.Outcome State Fault Refusal :=
  done (s.ifCh no Ch.pll (fun c => s.setCh { c with st := Ch.fll, slip := true }))

/-- `CHANNEL_LOST`: channel `no` is lost, and a hot search is queued. -/
def execChannelLost (no : Nat) (s : State) : Host.Outcome State Fault Refusal :=
  match s.gch no with
  | some c => if c.st = Ch.fll ∨ c.st = Ch.pll then done (s.queueSearch { c with slip := c.slip || c.st == Ch.pll } 0) else done s
  | none => done s

/-- The class of a first search: hot with current ephemeris, warm with an almanac, else blind (R222). -/
def State.firstClass (s : State) : Nat := if 0 < s.gnss.eph then 0 else if s.gnss.almanac then 1 else 2

/-- Stream `b` of antenna `a` has signal `sig` in its SIG_MASK. -/
def State.sigOn (s : State) (a b sig : Nat) : Bool := sig < 13 && bit (s.rd F.GNSS_STREAM_CTL_SIG_MASK (4 * a + b)) sig

/-- `GNSS_CH_ASSIGN`: parameter word 0. -/
def execGnssChAssign (c : CmdRef) (w0 : Nat) (s : State) : Host.Outcome State Fault Refusal :=
  let no := bits w0 0 9
  let a := bits w0 9 1
  let b := bits w0 10 2
  let sig := bits w0 12 4
  if 384 ≤ no ∨ (sig ≠ 15 ∧ !s.sigOn a b sig) then done (s.finish c Code.badParam)
  else done (s.setGnss { s.gnss with assigns := s.gnss.assigns ++ [⟨some c, no, a, b, sig, bits w0 16 8⟩] })

/-- An assignment or a release takes effect (R225). -/
def State.applyAssign (s : State) (q : ChAssign) : State :=
  let s := s.releaseCh q.no
  let s := if q.sig = 15 then s
    else s.queueSearch { no := q.no, ant := q.ant, b := q.b, sig := q.sig, sv := q.sv, pinned := q.cmd.isSome, st := Ch.search }
      s.firstClass
  match q.cmd with
  | some c => s.finish c Code.ok
  | none => s

/-- The channel tracks signal `sig` of satellite `sv` on antenna `a`. -/
def GnssCh.tracks (c : GnssCh) (a sig sv : Nat) : Bool := c.ant == a && c.sig == sig && c.sv == sv

/-- The channels wanted by AUTO_CH, in falling elevation: antenna, stream, signal, satellite (R224). `vis` lists signal, satellite
and elevation. -/
def State.wanted (s : State) (vis : List (Nat × Nat × Nat)) : List (Nat × Nat × Nat × Nat) :=
  let byElev := (List.range 91).reverse.flatMap (fun e => vis.filter (fun v => min 90 v.2.2 == e))
  byElev.flatMap (fun v => (List.range (if s.on F.GNSS_CTL_ANT1_EN then 2 else 1)).filterMap (fun a =>
    match (List.range 4).find? (fun b => s.streamRuns (4 * a + b) && s.sigOn a b v.1) with
    | some b => some (a, b, v.1, v.2.1)
    | none => none))

/-- One wanted channel is served: from an IDLE channel, or from one that is neither PINNED nor wanted (R224). -/
def State.serveWant (keep : GnssCh → Bool) (r : State × Bool) (w : Nat × Nat × Nat × Nat) : State × Bool :=
  let s := r.1
  let held := s.gnss.ch.any (fun c => c.tracks w.1 w.2.2.1 w.2.2.2) ||
    s.gnss.assigns.any (fun q => q.ant == w.1 && q.sig == w.2.2.1 && q.sv == w.2.2.2)
  if held then r else
  let busy := fun no => s.gnss.assigns.any (fun q => q.no == no)
  let idle := (List.range 384).find? (fun no => (s.gch no).isNone && !busy no)
  let other := (s.gnss.ch.find? (fun c => !c.pinned && !keep c && !busy c.no)).map (fun c => c.no)
  match (idle.orElse (fun _ => other)) with
  | some no => (s.setGnss { s.gnss with assigns := s.gnss.assigns ++ [⟨none, no, w.1, w.2.1, w.2.2.1, w.2.2.2⟩] }, r.2)
  | none => (s, true)

/-- `AUTO_ASSIGN`: `vis` lists the satellites predicted above ELEV_MASK or detected in a blind search: signal, number, elevation. -/
def execAutoAssign (vis : List (Nat × Nat × Nat)) (s : State) : Host.Outcome State Fault Refusal :=
  if !(s.rxActive && s.on F.GNSS_CTL_AUTO_CH) then done s else
  let room := 384 - s.gnss.ch.countP (fun c => c.pinned)
  let all := s.wanted vis
  let pinned := fun w : Nat × Nat × Nat × Nat => s.gnss.ch.any (fun c => c.pinned && c.tracks w.1 w.2.2.1 w.2.2.2)
  let open' := all.filter (fun w => !pinned w)
  let served := open'.take room
  let keep := fun c : GnssCh => served.any (fun w => c.tracks w.1 w.2.2.1 w.2.2.2)
  let r := served.foldl (State.serveWant keep) (s, room < open'.length)
  done (if r.2 then r.1.raise 91 else r.1)

/-! ### Streams and enable checks (R209 to R213, R595) -/

/-- Sample rate of a stream in kHz. -/
def rateKHz (code : Nat) : Nat := 20460 * 2 ^ code

/-- The carriers of signal `sig` in kHz times 2 (Table GNSS-1); GLONASS has those of its 14 frequency numbers. -/
def carriers2 (sig : Nat) : List Int :=
  if sig = 8 then (List.range 14).map (fun k => 3204000 + ((k : Int) - 7) * 1125)
  else if [2, 4, 7, 10, 11].contains sig then [2352900]
  else if sig = 5 then [3122196]
  else [3150840]

/-- Every signal named in stream `t`'s SIG_MASK lies within ±0.45 of the sample rate of baseband (R213). -/
def State.bandOk (s : State) (t : Nat) : Bool :=
  let lo2 : Int := 2 * s.rd F.GNSS_STREAM_LO_LO t
  let r : Int := rateKHz (s.rd F.GNSS_STREAM_CTL_RATE t)
  (List.range 13).all (fun sig => !bit (s.rd F.GNSS_STREAM_CTL_SIG_MASK t) sig ||
    (carriers2 sig).all (fun f => 10 * (f - lo2).natAbs ≤ 9 * r.toNat))

/-- Stream `t` is enabled. -/
def State.streamOn (s : State) (t : Nat) : Bool := s.on F.GNSS_STREAM_CTL_EN t

/-- The enabled streams of antenna `a` have one RATE (R209). -/
def State.ratesOk (s : State) (a : Nat) : Bool :=
  let l := idxs 4 (fun b => s.streamOn (4 * a + b))
  l.all (fun b => l.all (fun c => s.rd F.GNSS_STREAM_CTL_RATE (4 * a + b) == s.rd F.GNSS_STREAM_CTL_RATE (4 * a + c)))

/-- The receiver's enable check (R595). -/
def State.gnssCheck (s : State) : Bool :=
  s.ratesOk 0 && s.ratesOk 1 && (List.range 8).all (fun t => !s.streamOn t || s.bandOk t)

/-- Antenna `a` is in use. -/
def State.antUsed (s : State) (a : Nat) : Bool := a == 0 || s.on F.GNSS_CTL_ANT1_EN

/-- Stream `t` may run: enabled, its antenna in use with its clock in the window and its front end identified. -/
def State.streamMay (s : State) (t : Nat) : Bool :=
  let a := t / 4
  s.streamOn t && s.antUsed a && s.gnss.sclk.getD a false && !s.gnss.feBad.getD a false && s.rxActive

/-- Stream `t` runs or stops. -/
def State.setStream (s : State) (t : Nat) (b : Bool) : State := s.setGnss { s.gnss with run := s.gnss.run.set t b }

/-- The streams follow what may run; SCLK_OK shows the measured clocks (R211). -/
def State.startStreams (s : State) : State :=
  forN 8 s (fun s t =>
    let s := s.wrB F.GNSS_STREAM_STAT_SCLK_OK (s.streamOn t && s.gnss.sclk.getD (t / 4) false) t
    s.setStream t (s.streamMay t))

/-- Antenna `a`'s sample clock is lost: its streams stop, their channels are LOST, and FS 81 is raised (R211). -/
def State.sclkLost (s : State) (a : Nat) : State :=
  let s := s.setGnss { s.gnss with sclk := s.gnss.sclk.set a false }
  let s := s.startStreams
  let l := s.gnss.ch.filter (fun c => c.ant == a)
  let s := l.foldl (fun s c => s.setCh { c with st := Ch.lost, slip := c.slip || c.st == Ch.pll }) s
  let s := s.setGnss { s.gnss with queue := s.gnss.queue.filter (fun no => !l.any (fun c => c.no == no)) }
  s.condOn 81 a

/-- `SCLK_LOSS`: the sample clock of antenna `a` leaves the window or stops. -/
def execSclkLoss (a : Nat) (s : State) : Host.Outcome State Fault Refusal :=
  if a < 2 ∧ s.gnss.sclk.getD a false then done (s.sclkLost a) else done s

/-- `SCLK_RESTART`: the sample clock of antenna `a` has been in its window for 1,024 beats: its streams restart, and its lost
channels search again. -/
def execSclkRestart (a : Nat) (s : State) : Host.Outcome State Fault Refusal :=
  if 2 ≤ a then done s else
  let s := ((s.setGnss { s.gnss with sclk := s.gnss.sclk.set a true }).startStreams).condOff 81 a
  done ((s.gnss.ch.filter (fun c => c.ant == a && c.st == Ch.lost)).foldl (fun s c => s.queueSearch c 0) s)

/-! ### Start and stop (Table GNSS-5, R212, R246) -/

/-- The front end of antenna `a` is sent a list of transactions. -/
def State.sendFe (s : State) (a : Nat) (l : List (List Nat)) : State := s.emits (l.map (fun b => Out.gfeSpi a b))

/-- The front end of antenna `a` is identified by the four bytes `id` and sent its write list (R212). -/
def State.identify (s : State) (a id : Nat) : State :=
  let s := s.wr F.GNSS_FE_IDR_ID id a
  let exp := s.rd F.GNSS_FE_ID_EXP a
  let bad := exp != 0 && exp != s.rd F.GNSS_FE_IDR_ID a
  let s := s.setGnss { s.gnss with feBad := s.gnss.feBad.set a bad }
  let s := s.sendFe a (s.gnss.feWrite.getD a [])
  if bad then s.raise 80 a else s

/-- The valid half of the hint store with the higher sequence number (R245). -/
def GnssSt.newestHint (g : GnssSt) : Option Hint :=
  match g.hints.getD 0 none, g.hints.getD 1 none with
  | some a, some b => if a.seq < b.seq then some b else some a
  | some a, none => some a
  | none, b => b

/-- The position is known from GNSS_POS. -/
def State.posKnown (s : State) : Bool := s.on F.GNSS_POS_X_POS || s.on F.GNSS_POS_Y_POS || s.on F.GNSS_POS_Z_POS

/-- The start class by the conditions of Table GNSS-6: 3 hot, 2 warm, 1 cold. -/
def State.startClass (s : State) : Nat :=
  let fresh := s.rd F.GNSS_MIN_MIN_SV ≤ s.gnss.eph && s.ridge.ticks - s.gnss.ephTick < 18000000000000
  let hint := s.gnss.newestHint.isSome
  let st := s.domState 0
  let time := (st == DomSt.acquiring || st == DomSt.locked || st == DomSt.holdover) && s.rd F.EAVES_x_BOUND_BOUND 0 ≤ 40000
  if fresh && (s.posKnown || hint) && time then 3
  else if hint && s.on F.TOP_RTC_STAT_VALID then 2 else 1

/-- A survey-in starts from the beginning (R230). -/
def State.beginSurvey (s : State) (learn : Bool) : State :=
  s.setGnss { s.gnss with
    survey := true, learn := learn, surveyTick := s.ridge.ticks, surveyN := 0, surveySum := [0, 0, 0],
    surveyBase := [0, 0, 0] }

/-- The active mode becomes MODE; HOLD needs a position (R229, R247). -/
def State.takeMode (s : State) : State :=
  let m := s.rd F.GNSS_CTL_MODE
  if m = 2 ∧ !s.posKnown then s else
  let s := (s.wr F.GNSS_STAT_MODE_ACT m).setGnss { s.gnss with modeNew := false }
  if m = 1 then (if s.gnss.survey then s else s.beginSurvey (s.on F.GNSS_CTL_BASE_LEARN))
  else s.setGnss { s.gnss with survey := false }

/-- The hint store is read at enable (R245). -/
def State.readHint (s : State) : State :=
  match s.gnss.newestHint with
  | some h =>
    let s := s.setGnss { s.gnss with pos := h.pos, posSig := h.sig, almanac := true }
    let s := (s.wr F.GNSS_HINT_VALID 1).wr F.GNSS_HINT_USED 1
    s.wr F.GNSS_HINT_AGE_AGE (s.rd F.TOP_RTC_SEC_SEC - h.rtc)
  | none => ((s.wr F.GNSS_HINT_VALID 0).wr F.GNSS_HINT_USED 0).raise 89

/-- The receiver starts (Table GNSS-5): island and check first, then front ends, hint and start class. `fe` holds the
identification words read, `sclk` the antennas whose sample clock is in the window. -/
def State.gnssStart (s : State) (fe : List Nat) (sclk : Nat) : State :=
  if !s.islandOn 0 then (s.wr F.GNSS_CTL_EN 0).raise 221 0
  else if !s.gnssCheck then (s.wr F.GNSS_CTL_EN 0).raise 86
  else
    let s := s.wr F.GNSS_STAT_STATE Rx.starting
    let s := [0, 1].foldl (fun s a => if s.antUsed a then s.identify a (fe.getD a 0) else s) s
    let s := s.readHint
    let s := s.setGnss { s.gnss with
      kind := s.startClass, hadSolution := false, invalid := 0, survey := false,
      sclk := [bit sclk 0, bit sclk 1] }
    let s := s.takeMode
    let s := [0, 1].foldl (fun s a => if s.antUsed a && !bit sclk a then s.condOn 81 a else s) s
    s.startStreams

/-- The verdict becomes `v`: event 0x0008 at a change (Table HOST-9). FS 84 and FS 85 last as long as SUSPECT and SPOOFED. -/
def State.moveVerdict (s : State) (v : Nat) : State :=
  let old := s.rd F.GNSS_VERDICT_VERDICT
  if old = v then s else
  let s := if v = Verdict.suspect then s else s.condEnd 84
  let s := if v = Verdict.spoofed then s else s.condEnd 85
  (s.wr F.GNSS_VERDICT_VERDICT v).eventNow 0x0008 0 [old + 16 * v]

/-- The receiver stops (Table GNSS-5): channels released, verdict NONE. -/
def State.gnssStop (s : State) : State :=
  let s := (s.gnss.ch.map (fun c => c.no)).foldl State.releaseCh s
  let s := s.moveVerdict Verdict.none
  let s := s.setGnss { s.gnss with
    run := List.replicate 8 false, assigns := [], latched := none, epoch := none, sol := none,
    fails := 0, causes := 0, clear := 0, survey := false, sleeps := [], wakes := [] }
  let s := (s.wr F.GNSS_STAT_SV_USED 0).wr F.GNSS_STAT_SOL_VALID 0
  let s := (((s.condOff 88).condEnd 81).condEnd 82).condEnd 83
  (s.wr F.GNSS_STAT_PENDING_ENABLE 0).wr F.GNSS_STAT_STATE Rx.stopping

/-- A write of GNSS_CTL (R247, Table GNSS-5). -/
def State.gnssCtlWrite (s : State) (a : Acs) (w : Nat) (fe : List Nat) (sclk : Nat) : State × Nat :=
  let was := s.on F.GNSS_CTL_EN
  let r := s.fieldWrite
    (fun f => (was && !f.among [F.GNSS_CTL_EN, F.GNSS_CTL_MODE, F.GNSS_CTL_SPOOF_REQ]) ||
      (s.testing 0x70 && f.no != F.GNSS_CTL_EN.no)) inRange
    [F.GNSS_CTL_TIME_SYS, F.GNSS_CTL_UTC_CORR, F.GNSS_CTL_SPOOF_REQ, F.GNSS_CTL_BASE_LEARN, F.GNSS_CTL_MODE,
     F.GNSS_CTL_EPOCH_RATE, F.GNSS_CTL_AUTO_CH, F.GNSS_CTL_ANT1_EN, F.GNSS_CTL_EN] 0 w
  let mode := s.rd F.GNSS_CTL_MODE
  let s := r.1
  let s := if s.rd F.GNSS_CTL_MODE != mode then s.setGnss { s.gnss with modeNew := true } else s
  let now := s.on F.GNSS_CTL_EN
  let s :=
    if now && !was then (if s.rx = Rx.stopping ∨ s.testing 0x70 then s.wr F.GNSS_STAT_PENDING_ENABLE 1 else s.gnssStart fe sclk)
    else if was && !now then (if s.rx = Rx.stopping ∨ s.testing 0x70 then s.wr F.GNSS_STAT_PENDING_ENABLE 0 else s.gnssStop)
    else s
  s.conclude a r.2

/-- `GNSS_ENABLE`: requester `req` writes GNSS_CTL with EN = 1; `w` gives the other bits. -/
def execGnssEnable (req w : Nat) (fe : List Nat) (sclk : Nat) (s : State) : Host.Outcome State Fault Refusal :=
  done (s.put ⟨req, 0xE000, 2, true⟩ (fun s a => s.gnssCtlWrite a (setBit w 0 true) fe sclk)).1

/-- `GNSS_DISABLE`: requester `req` writes GNSS_CTL with EN = 0; `w` gives the other bits. -/
def execGnssDisable (req w : Nat) (s : State) : Host.Outcome State Fault Refusal :=
  done (s.put ⟨req, 0xE000, 2, true⟩ (fun s a => s.gnssCtlWrite a (setBit w 0 false) [] 0)).1

/-- `GNSS_STOP_DONE`: the engine has stopped; a pending enable starts the receiver again. -/
def execGnssStopDone (fe : List Nat) (sclk : Nat) (s : State) : Host.Outcome State Fault Refusal :=
  if s.rx ≠ Rx.stopping then done s else
  let s := s.wr F.GNSS_STAT_STATE Rx.off
  if s.on F.GNSS_STAT_PENDING_ENABLE then done ((s.wr F.GNSS_STAT_PENDING_ENABLE 0).gnssStart fe sclk) else done s

/-- A write of GNSS_STREAM_CTL[t] (R247, R595). -/
def State.streamCtlWrite (s : State) (a : Acs) (t w : Nat) : State × Nat :=
  let was := s.streamOn t
  let r := s.fieldWrite (fun f => was && f.no != F.GNSS_STREAM_CTL_EN.no) inRange
    [F.GNSS_STREAM_CTL_SIG_MASK, F.GNSS_STREAM_CTL_SPEC_INV, F.GNSS_STREAM_CTL_IQ_SWAP, F.GNSS_STREAM_CTL_FMT,
     F.GNSS_STREAM_CTL_RATE, F.GNSS_STREAM_CTL_EN] t w
  let s := r.1
  let now := s.streamOn t
  let s :=
    if now && !was && s.on F.GNSS_CTL_EN && !(s.ratesOk (t / 4) && s.bandOk t) then (s.wr F.GNSS_STREAM_CTL_EN 0 t).raise 86
    else if now != was then
      let s := s.startStreams
      if now then s else
        ((s.gnss.ch.filter (fun c => c.stream == t)).map (fun c => c.no)).foldl State.releaseCh s
    else s
  s.conclude a r.2

/-- `STREAM_ENABLE`: requester `req` writes GNSS_STREAM_CTL[t] with EN = 1; `w` gives the other bits. -/
def execStreamEnable (req t w : Nat) (s : State) : Host.Outcome State Fault Refusal :=
  if 8 ≤ t then done s else done (s.put ⟨req, 0xE200 + 0x10 * t, 2, true⟩ (fun s a => s.streamCtlWrite a t (setBit w 0 true))).1

/-! ### Interference (R217 to R219) -/

/-- `JAM_SET`: J/N of stream `t` has exceeded JAM_THR for 16 beats; `jn` is its value, LSB 0.25 dB. -/
def execJamSet (t jn : Nat) (s : State) : Host.Outcome State Fault Refusal :=
  if 8 ≤ t ∨ !s.streamRuns t then done s else
  let s := s.wrSat F.GNSS_STREAM_STAT_JN jn t
  done (((s.wr F.GNSS_STREAM_STAT_JAM 1 t).wrBit F.GNSS_VERDICT_JAM t true).condOn 83 t)

/-- `JAM_CLEAR`: J/N of stream `t` has stayed below JAM_THR - 2 dB for 1,024 beats. -/
def execJamClear (t jn : Nat) (s : State) : Host.Outcome State Fault Refusal :=
  if 8 ≤ t then done s else
  done ((((s.wrSat F.GNSS_STREAM_STAT_JN jn t).wr F.GNSS_STREAM_STAT_JAM 0 t).wrBit F.GNSS_VERDICT_JAM t false).condOff 83 t)

/-- A notch covers the spectral peak at `f` (LSB 10 Hz): it lies within half its width of the centre. -/
def Notch.covers (n : Notch) (f : Int) : Bool := (f - n.freq).natAbs ≤ 50 * 2 ^ n.width

/-- The adaptive notches after a spectrum whose peaks above NOTCH_THR are `peaks`, the strongest first (R218). -/
def scanNotches (l : List Notch) (peaks : List (Int × Nat)) : List Notch :=
  let top := peaks.take 8
  let seen := l.map (fun n => if top.any (fun p => n.covers p.1) then { n with gone := 0 } else { n with gone := n.gone + 1 })
  let kept := seen.filter (fun n => n.gone < 64)
  let new := (top.filter (fun p => !kept.any (fun n => n.covers p.1))).map (fun p => (⟨p.1, min 10 p.2, 0⟩ : Notch))
  let over' := kept.length + new.length - 8
  let spare := (kept.filter (fun n => n.gone != 0)).take over'
  ((kept.filter (fun n => !spare.contains n)) ++ new).take 8

/-- `NOTCH_SCAN`: per stream, the peaks of a spectrum that stand more than NOTCH_THR above the floor, the strongest first (LSB 10 Hz
and width code); J/N; and whether more than 5 % of samples saturated. -/
def execNotchScan (peaks : List (List (Int × Nat))) (jn : List Nat) (sat : Nat) (s : State) : Host.Outcome State Fault Refusal :=
  done (forN 8 s (fun s t =>
    if !s.streamRuns t then s else
    let s := s.wrSat F.GNSS_STREAM_STAT_JN (jn.getD t 0) t
    let s := s.wrB F.GNSS_STREAM_STAT_SAT (bit sat t) t
    let s := s.cond 82 (bit sat t) t
    if s.inG F.GNSS_STREAM_JAM_NOTCH_MODE t = 1 then
      s.setGnss { s.gnss with notch := s.gnss.notch.set t (scanNotches (s.gnss.notch.getD t []) (peaks.getD t [])) }
    else s))

/-- The notches of stream `t` are placed at an epoch latch (R218, R219): adaptive, fixed or none. -/
def State.placeNotches (s : State) (t : Nat) : State :=
  let mode := s.rd F.GNSS_STREAM_JAM_NOTCH_MODE t
  let s := if mode = 1 then s else s.setGnss { s.gnss with notch := s.gnss.notch.set t [] }
  let l := s.gnss.notch.getD t []
  let want := fun i => match l[i]? with
    | some n => (true, ofS 24 n.freq, n.width)
    | none => (mode == 2, s.rd F.GNSS_NOTCH_FREQ (8 * t + i), s.rd F.GNSS_NOTCH_WIDTH (8 * t + i))
  let have' := fun i => (s.on F.GNSS_NOTCH_ACTIVE (8 * t + i), s.inG F.GNSS_NOTCH_FREQ (8 * t + i), s.inG F.GNSS_NOTCH_WIDTH (8 * t + i))
  let moved := (List.range 8).any (fun i => (want i).1 && want i != have' i)
  let s := forN 8 s (fun s i =>
    let w := want i
    ((s.wrB F.GNSS_NOTCH_ACTIVE w.1 (8 * t + i)).wr F.GNSS_NOTCH_FREQ w.2.1 (8 * t + i)).wr F.GNSS_NOTCH_WIDTH w.2.2 (8 * t + i))
  let s := s.wr F.GNSS_STREAM_STAT_NOTCHES ((List.range 8).countP (fun i => (want i).1)) t
  s.setGnss { s.gnss with moved := s.gnss.moved.set t moved }

/-! ### Epochs (R226 to R228) -/

/-- This beat is an epoch beat: the receiver is active and the beat number is a multiple of 1,024 / 2^n. -/
def State.epochBeat (s : State) : Bool := s.rxActive && s.rd F.RIDGE_STAT_BEAT_NUM % (1024 / 2 ^ s.gnss.rate) == 0

/-- `EPOCH_LATCH`: the streams are latched at or after the beat edge; `pos` is where the latch of GA0 lies in the present tick
(2^-16 tick), which drives crossbar source 13. What waits for the epoch latch takes effect after it. -/
def execEpochLatch (pos : Nat) (s : State) : Host.Outcome State Fault Refusal :=
  if !s.epochBeat || !(List.range 8).any s.streamRuns then done s else
  let s := if (List.range 4).any s.streamRuns then s.crossEdge 13 false pos else s
  let s := s.setGnss { s.gnss with
    latched := some ⟨s.rd F.RIDGE_x_ANCHOR_COUNT_COUNT 0, s.rd F.RIDGE_BEAT_SEQ_SEQ, s.ridge.a.total⟩ }
  let s := forN 8 s State.placeNotches
  let s := s.setGnss { s.gnss with was := [] }
  let s := if s.gnss.modeNew then s.takeMode else s
  let l := s.gnss.assigns
  let s := s.setGnss { s.gnss with assigns := [] }
  done (l.foldl State.applyAssign s)

/-- A channel's measurements at an epoch: number, PR_TIME, CARRIER, DOPPLER, CN0, elevation, GLO_K, then flags: [0] half-cycle
ambiguity resolved, [1] bit synchronised, [2] current ephemeris held. -/
def State.writeRecord (s : State) (ep : EpochSt) (seq : Nat) (m : List Nat) : State :=
  match s.gch (m.getD 0 384) with
  | none => s
  | some c =>
    if !s.streamRuns c.stream then s else
    let a := chRec c.no
    let fl := m.getD 7 0
    let valid := c.st == Ch.fll || c.st == Ch.pll
    let carrier := c.st == Ch.pll && bit fl 0
    let w24 := c.sv % 256 * 2 ^ 24 + c.sig % 16 * 2 ^ 20 + c.b % 4 * 2 ^ 18 + c.ant % 2 * 2 ^ 17 + c.pinned.toNat * 2 ^ 16 +
      c.st % 8 * 2 ^ 13 + m.getD 6 0 % 32 * 2 ^ 8 + m.getD 5 0 % 256
    let w28 := valid.toNat * 2 ^ 31 + carrier.toNat * 2 ^ 30 + c.slip.toNat * 2 ^ 29 +
      (s.gnss.moved.getD c.stream false).toNat * 2 ^ 28 + bits fl 1 1 * 2 ^ 24 + bits fl 2 1 * 2 ^ 23
    let s := ((s.mwr a 8 (m.getD 1 0)).mwr (a + 8) 8 (m.getD 2 0)).mwr (a + 16) 4 (m.getD 3 0)
    let s := ((s.mwr (a + 20) 2 (m.getD 4 0)).mwr (a + 22) 2 (satU 16 c.lockCnt)).mwr (a + 24) 4 w24
    let s := ((s.mwr (a + 28) 4 w28).mwr (a + 32) 8 ep.e).mwr (a + 40) 8 0
    let s := s.mwr (a + 48) 4 seq
    s.setCh { c with slip := false, lockCnt := if c.st = Ch.pll then c.lockCnt + 1 else 0 }

/-- The records of the latched epoch are written in phase 1 (R227); `ms` holds the channels' measurements. -/
def State.gnssRecords (s : State) (ms : List (List Nat)) : State :=
  match s.gnss.latched with
  | none => s
  | some ep =>
    let s := (s.bump F.GNSS_EPOCH_SEQ_SEQ).wr F.GNSS_EPOCH_E_E ep.e
    let s := ms.foldl (fun s m => s.writeRecord ep (s.rd F.GNSS_EPOCH_SEQ_SEQ) m) s
    let eph := dedup ((ms.filter (fun m => bit (m.getD 7 0) 2)).filterMap (fun m => (s.gch (m.getD 0 384)).map (fun c => c.sv)))
    let g := s.gnss
    s.setGnss { g with
      latched := none, epoch := some ep, moved := List.replicate 8 false, eph := eph.length,
      ephTick := if eph.isEmpty then g.ephTick else s.ridge.ticks, almanac := g.almanac || !eph.isEmpty }

/-! ### The geometry test (R240) -/

/-- `x` in cycles wrapped to [-1/2, 1/2). -/
def wrapCycle (x : Rat) : Rat := x - ((x + 1 / 2).floor : Int)

/-- The state of the channel in its record, and flag bit `b` of its bytes 28 to 31. -/
def State.recState (s : State) (no : Nat) : Nat := bits (s.mrd (chRec no + 24) 4) 13 3
def State.recFlag (s : State) (no b : Nat) : Bool := bit (s.mrd (chRec no + 28) 4) b

/-- The carrier frequency in Hz of the record of channel `no`, which carries signal `sig`. -/
def State.recCarrier (s : State) (no sig : Nat) : Rat :=
  if sig = 8 then 1602000000 + ((bits (s.mrd (chRec no + 24) 4) 8 5 : Rat) - 7) * 562500
  else if [2, 4, 7, 10, 11].contains sig then 1176450000
  else if sig = 5 then 1561098000
  else 1575420000

/-- A satellite in the geometry test: its channels on GA0 and GA1, the measured and the expected phase difference in cycles. -/
structure GeoObs where
  sig : Nat
  sv : Nat
  c0 : Nat
  c1 : Nat
  m : Rat
  x : Rat
  deriving DecidableEq, Repr

/-- The channel of signal `sig` of satellite `sv` on antenna `a` that is in PLL with CARRIER_VALID. -/
def State.geoChannel (s : State) (a sig sv : Nat) : Option Nat :=
  (s.gnss.ch.find? (fun c => c.tracks a sig sv && s.recState c.no == Ch.pll && s.recFlag c.no 30)).map (fun c => c.no)

/-- b·e in mm. -/
def State.lead (s : State) (v : SatIn) : Rat :=
  ((s.rdS F.GNSS_BASE_E_BASE * v.east + s.rdS F.GNSS_BASE_N_BASE * v.north + s.rdS F.GNSS_BASE_U_BASE * v.up : Int) : Rat) / 2 ^ 30

/-- The satellites that qualify for the test (R240). -/
def State.geoObs (s : State) (l : List SatIn) : List GeoObs :=
  l.filterMap (fun v =>
    match s.geoChannel 0 v.sig v.sv, s.geoChannel 1 v.sig v.sv with
    | some c0, some c1 =>
      let ph := fun c => (s.mrd (chRec c + 8) 8 : Rat) / 2 ^ 32
      let x := s.lead v / 1000 * s.recCarrier c0 v.sig / 299792458
      some ⟨v.sig, v.sv, c0, c1, wrapCycle (ph c1 - ph c0), wrapCycle x⟩
    | _, _ => none)

/-- The residuals r of the set. -/
def geoResid (l : List GeoObs) : List (GeoObs × Rat) :=
  let v := fun o : GeoObs => wrapCycle (o.m - o.x)
  let c := Config.circularMean (l.map v)
  l.map (fun o => (o, wrapCycle (v o - c)))

/-- The sum of squares of the angles about their circular mean. -/
def sumSq (l : List Rat) : Rat := (l.map (fun r => r * r)).sum

/-- The discrimination d squared times the count. -/
def geoDisc (l : List GeoObs) : Rat :=
  let c := Config.circularMean (l.map (fun o => o.x))
  sumSq (l.map (fun o => wrapCycle (o.x - c)))

/-- The member of the set with the greatest |r|. -/
def worstResid : List (GeoObs × Rat) → Option (GeoObs × Rat)
  | [] => none
  | p :: t => some (t.foldl (fun m q => if |m.2| < |q.2| then q else m) p)

/-- The loop of exclusions of R240, at most `fuel` times. -/
def geoLoop (tol : Rat) (minGeo : Nat) : Nat → List GeoObs → List GeoObs
  | 0, l => l
  | fuel + 1, l =>
    let r := geoResid l
    if sumSq (r.map (fun p => p.2)) ≤ tol * tol * l.length ∨ l.length ≤ minGeo then l
    else match worstResid r with
      | none => l
      | some p => if |p.2| ≤ 3 * tol then l else geoLoop tol minGeo fuel (l.filter (fun o => o != p.1))

/-- What the geometry test finds: evaluable, decisive (d ≥ 2 GEO_TOL), passed, passed but for d, and the set left. -/
structure GeoResult where
  eval : Bool
  decisive : Bool
  pass : Bool
  close : Bool
  init : List GeoObs
  left : List GeoObs

/-- The geometry test (R240). -/
def State.geoTest (s : State) (sats : List SatIn) : GeoResult :=
  let tol : Rat := (s.inG F.GNSS_SPOOF_CFG_GEO_TOL : Rat) / 1000
  let minGeo := s.inG F.GNSS_SPOOF_CFG_MIN_GEO
  let l := s.geoObs sats
  let ev := s.on F.GNSS_CTL_ANT1_EN && (s.on F.GNSS_BASE_STAT_KNOWN || s.on F.GNSS_BASE_STAT_LEARNED) && minGeo ≤ l.length
  if !ev then ⟨false, false, false, false, l, l⟩ else
  let r := geoLoop tol minGeo l.length l
  let rmsOk := decide (sumSq ((geoResid r).map (fun p => p.2)) ≤ tol * tol * r.length)
  let dec := decide (4 * tol * tol * r.length ≤ geoDisc r)
  let ok := rmsOk && minGeo ≤ r.length && 2 * (l.length - r.length) ≤ l.length
  ⟨true, dec, ok && dec, ok, l, r⟩

/-- GNSS_SPOOF_STAT and the residuals of the channels' records follow a test that was evaluated. -/
def State.showGeo (s : State) (g : GeoResult) : State :=
  if !g.eval then s else
  let n : Rat := g.left.length
  let r := geoResid g.left
  let s := s.wrSat F.GNSS_SPOOF_STAT_RMS (sqrtNearest (sumSq (r.map (fun p => p.2)) / n * 1000000))
  let s := s.wrSat F.GNSS_SPOOF_STAT_D (sqrtNearest (geoDisc g.left / n * 1000000))
  let s := r.foldl (fun s p => (s.mwr (chRec p.1.c0 + 44) 4 (ofS 32 (roundRat (p.2 * 1000)))).mwr (chRec p.1.c1 + 44) 4
    (ofS 32 (roundRat (p.2 * 1000)))) s
  (g.init.filter (fun o => !g.left.contains o)).foldl (fun s o =>
    [o.c0, o.c1].foldl (fun s c => s.mwr (chRec c + 28) 4 (setBit (s.mrd (chRec c + 28) 4) 25 true)) s) s

/-! ### The verdict (R241 to R244, Table GNSS-4) -/

/-- The time test fails (R241). -/
def State.timeFails (s : State) : Bool :=
  match s.ens.nu11 with
  | none => false
  | some nu => (s.rd F.EAVES_x_BOUND_BOUND 0 * 16384 + s.inG F.GNSS_SPOOF_TOL_TIME_PAD * 65536 : Nat) < |nu|

/-- GNSS_POS as three coordinates in mm. -/
def State.holdPos (s : State) : List Int := [s.rdS F.GNSS_POS_X_POS, s.rdS F.GNSS_POS_Y_POS, s.rdS F.GNSS_POS_Z_POS]

/-- The position test fails in HOLD (R242). -/
def State.posFails (s : State) (nav : List Int) : Bool :=
  let tol : Int := s.inG F.GNSS_SPOOF_TOL_POS_TOL * 10
  let d := (List.range 3).map (fun i => nav.getD i 0 - s.holdPos.getD i 0)
  s.rd F.GNSS_STAT_MODE_ACT == 2 && decide (tol * tol < (d.map (fun x => x * x)).sum)

/-- Epochs that make up CLEAR_TIME at the epoch rate. -/
def State.clearEpochs (s : State) : Nat := s.inG F.GNSS_SPOOF_CFG_CLEAR_TIME * 2 ^ s.gnss.rate

/-- The verdict moves once per epoch (Table GNSS-4). `bad` has bit 0 GEO, 1 TIME, 2 POS; `excl` counts the satellites excluded. -/
def State.verdict (s : State) (g : GeoResult) (bad excl : Nat) : State :=
  let v := s.rd F.GNSS_VERDICT_VERDICT
  let s := (s.wr F.GNSS_VERDICT_CAUSE bad).wrSat F.GNSS_VERDICT_EXCL excl
  let weak := g.eval && !g.decisive
  let pass := bad == 0 && !weak
  let s := s.setGnss { s.gnss with
    fails := if bad = 0 then 0 else s.gnss.fails + 1
    causes := if bad = 0 then 0 else Nat.lor s.gnss.causes bad }
  let geoOk := g.eval || !s.on F.GNSS_CTL_ANT1_EN
  let counts := if v = Verdict.spoofed then pass && geoOk else pass && g.eval && excl == 0
  let s := s.setGnss { s.gnss with clear := if counts then s.gnss.clear + 1 else 0 }
  if v = Verdict.spoofed then
    if s.clearEpochs ≤ s.gnss.clear then (s.setGnss { s.gnss with clear := 0 }).moveVerdict Verdict.authentic else s
  else if s.inG F.GNSS_SPOOF_CFG_SPOOF_N ≤ s.gnss.fails then
    let s := (s.inc F.GNSS_VCNT_SPOOFED_CNT).condOn 85 s.gnss.causes
    (s.setGnss { s.gnss with clear := 0 }).moveVerdict Verdict.spoofed
  else if !g.eval then s.moveVerdict Verdict.none
  else if bad ≠ 0 then s
  else if weak then (if v = Verdict.none then s.moveVerdict Verdict.inconclusive else s)
  else if excl = 0 then
    if v = Verdict.suspect ∧ s.gnss.clear < s.clearEpochs then s
    else (s.setGnss { s.gnss with clear := 0 }).moveVerdict Verdict.authentic
  else if v = Verdict.authentic ∨ v = Verdict.inconclusive then
    ((s.inc F.GNSS_VCNT_SUSPECT_CNT).condOn 84 (satU 8 excl)).moveVerdict Verdict.suspect
  else s

/-! ### The solution (R229 to R236) -/

/-- The system of a signal: GPS, Galileo, BeiDou, GLONASS, QZSS, NavIC, SBAS as 0 to 6. -/
def sysOf (sig : Nat) : Nat :=
  if sig ≤ 2 then 0 else if sig ≤ 4 then 1 else if sig ≤ 7 then 2 else if sig = 8 then 3 else if sig ≤ 10 then 4
  else if sig = 11 then 5 else 6

/-- The signal lies at 1,176.45 MHz. -/
def isL5 (sig : Nat) : Bool := [2, 4, 7, 10, 11].contains sig

/-- The channel that a satellite's signal enters a solution with: in FLL or PLL on GA0, or on GA1 when GA0 does not track it (R231). -/
def State.useChannel (s : State) (sig sv : Nat) : Option Nat :=
  let on := fun a => (s.gnss.ch.find? (fun c => c.tracks a sig sv && (c.st == Ch.fll || c.st == Ch.pll))).map (fun c => c.no)
  (on 0).orElse (fun _ => on 1)

/-- A satellite's signal may be used (R231): tracked, above the masks, healthy, and not excluded. -/
def State.usable (s : State) (g : GeoResult) (v : SatIn) : Bool :=
  match s.useChannel v.sig v.sv with
  | none => false
  | some c =>
    sysOf v.sig != 6 && s.inG F.GNSS_MIN_ELEV_MASK ≤ bits (s.mrd (chRec c + 24) 4) 0 8 &&
    s.inG F.GNSS_MIN_CN0_MASK * 100 ≤ s.mrd (chRec c + 20) 2 && !v.unhealthy &&
    !(v.raim && s.rd F.GNSS_STAT_MODE_ACT == 2) &&
    !(g.eval && g.init.any (fun o => o.sig == v.sig && o.sv == v.sv) && !g.left.any (fun o => o.sig == v.sig && o.sv == v.sv))

/-- The solution flags of the channels' records follow the solution. -/
def State.markUsed (s : State) (g : GeoResult) (v : SatIn) : State :=
  match s.useChannel v.sig v.sv with
  | none => s
  | some c =>
    let w := s.mrd (chRec c + 28) 4
    let w := setBit (setBit w 27 (s.usable g v)) 26 (v.raim && s.rd F.GNSS_STAT_MODE_ACT == 2)
    (s.mwr (chRec c + 28) 4 w).mwr (chRec c + 40) 4 (ofS 32 v.resid)

/-- U of slot 11 in ps (R236). -/
def State.gnssUnc (s : State) (sigmaT : Nat) (dual : Bool) : Nat :=
  satU 32 (ceilDiv (s.inG F.GNSS_UNC_K_U * sigmaT) 4 + s.inG F.GNSS_UNC_U_FLOOR + (if dual then 0 else s.inG F.GNSS_IONO_PAD_IONO_PAD))

/-- A hint is written to the half that does not hold the newer valid copy (R245). -/
def State.saveHint (s : State) : State :=
  let g := s.gnss
  let n := match g.newestHint with | some h => h.seq + 1 | none => 0
  let first := match g.hints.getD 0 none, g.hints.getD 1 none with
    | some a, some b => decide (a.seq < b.seq)
    | some _, none => false
    | none, _ => true
  let h : Hint := ⟨g.pos, g.posSig, s.rd F.TOP_RTC_SEC_SEC,
    [s.rdS F.GNSS_BASE_E_BASE, s.rdS F.GNSS_BASE_N_BASE, s.rdS F.GNSS_BASE_U_BASE], n⟩
  s.setGnss { g with hints := g.hints.set (if first then 0 else 1) (some h) }

/-- A survey-in completes: mean, σ and baseline are written, the mode becomes HOLD, and a hint is saved (R230). -/
def State.surveyDone (s : State) (sig : Nat) : State :=
  let n : Int := s.gnss.surveyN
  let mean := fun (l : List Int) i => roundRat ((l.getD i 0 : Rat) / n)
  let p := s.gnss.surveySum
  let s := ((s.wrS F.GNSS_POS_X_POS (mean p 0)).wrS F.GNSS_POS_Y_POS (mean p 1)).wrS F.GNSS_POS_Z_POS (mean p 2)
  let s := s.wrSat F.GNSS_POS_SIG_SIG sig
  let s := if s.gnss.learn then
      let b := s.gnss.surveyBase
      (((s.wrS F.GNSS_BASE_E_BASE (mean b 0)).wrS F.GNSS_BASE_N_BASE (mean b 1)).wrS F.GNSS_BASE_U_BASE (mean b 2)).wr
        F.GNSS_BASE_STAT_LEARNED 1
    else s
  let s := s.setGnss { s.gnss with survey := false, pos := s.holdPos, posSig := sig }
  (s.wr F.GNSS_STAT_MODE_ACT 2).saveHint

/-- One VALID epoch of a survey-in (R230). -/
def State.surveyEpoch (s : State) (x : GnssFix) : State :=
  if !s.gnss.survey then s else
  let add := fun (l m : List Int) => (List.range 3).map (fun i => l.getD i 0 + m.getD i 0)
  let s := s.setGnss { s.gnss with
    surveyN := s.gnss.surveyN + 1, surveySum := add s.gnss.surveySum x.pos,
    surveyBase := add s.gnss.surveyBase x.base }
  if s.rd F.GNSS_SURVEY_SURVEY_TIME * 1250000000 ≤ s.ridge.ticks - s.gnss.surveyTick ∧ x.sig ≤ s.rd F.GNSS_SURVEY_SURVEY_ACC
  then s.surveyDone x.sig else s

/-- The UTC parameters and inter-system offsets of a solution (R232, R235). -/
def State.gnssUtc (s : State) (x : GnssFix) : State :=
  let s := forN 5 s (fun s i => s.wrS F.GNSS_ISB_ISB (x.isb.getD i 0) i)
  let was := s.on F.GNSS_UTC_PEND
  let s := ((s.wr F.GNSS_UTC_TAI_UTC x.taiUtc).wr F.GNSS_UTC_TAI_UTC_NEXT x.taiUtcNext).wrB F.GNSS_UTC_PEND x.leapPend
  let s := s.wr F.GNSS_UTC_DAY_DAY (if x.leapPend then x.leapDay else 0)
  if x.leapPend && !was then s.raise 90 else s

/-- `SOLUTION_DONE`: the management cores finish the recorded epoch. -/
def execSolutionDone (x : GnssFix) (s : State) : Host.Outcome State Fault Refusal :=
  match s.gnss.epoch with
  | none => done s
  | some ep =>
    let s := s.setGnss { s.gnss with epoch := none }
    if !s.rxActive then done s else
    let g := s.geoTest x.sats
    let s := s.showGeo g
    let bad := (g.eval && !g.pass && !(g.close && !g.decisive)).toNat + 2 * s.timeFails.toNat + 4 * (s.posFails x.nav).toNat
    let s := s.verdict g bad (g.init.length - g.left.length)
    let used := x.sats.filter (s.usable g)
    let svs := dedup (used.map (fun v => 256 * sysOf v.sig + v.sv))
    let spoofed := s.rd F.GNSS_VERDICT_VERDICT == Verdict.spoofed
    let valid := decide (s.inG F.GNSS_MIN_MIN_SV ≤ svs.length) && !spoofed
    let dual := used.any (fun v => !isL5 v.sig && used.any (fun u => isL5 u.sig && sysOf u.sig == sysOf v.sig && u.sv == v.sv))
    let s := x.sats.foldl (fun s v => s.markUsed g v) s
    let s := (s.wrSat F.GNSS_STAT_SV_USED svs.length).wrB F.GNSS_STAT_SOL_VALID valid
    let s := s.setGnss { s.gnss with hadSolution := true }
    if !valid then
      let n := s.gnss.invalid + 1
      let s := s.setGnss { s.gnss with invalid := n, sol := none }
      done (s.cond 88 (s.rx == Rx.running && 60 * 2 ^ s.gnss.rate ≤ n))
    else
      let s := s.condOff 88
      let hold := s.rd F.GNSS_STAT_MODE_ACT == 2
      let s := s.setGnss { s.gnss with
        invalid := 0, pos := if hold then s.holdPos else x.pos,
        posSig := if hold then s.gnss.posSig else x.sig,
        sol := some ⟨x.ofs, x.freq, s.gnssUnc x.sigmaT dual, dual, hold, ep⟩ }
      let s := if s.rx = Rx.starting ∨ s.rx = Rx.waking then
          (s.wr F.GNSS_STAT_START_KIND s.gnss.kind).wr F.GNSS_STAT_STATE Rx.running else s
      done ((s.gnssUtc x).surveyEpoch x)

/-- `SURVEY_TIMEOUT`: the accuracy has not been reached within 4 × SURVEY_TIME; the survey goes on. -/
def execSurveyTimeout (s : State) : Host.Outcome State Fault Refusal :=
  if s.gnss.survey then done (s.raise 87) else done s

/-! ### Delivery (R237, R238) -/

/-- The beats since the epoch of a solution. -/
def State.solAge (s : State) (q : GnssSol) : Nat := (s.rd F.RIDGE_BEAT_SEQ_SEQ + 2 ^ 32 - q.ep.beat) % 2 ^ 32

/-- `GNSS_DELIVERY`: at a beat edge at least 8 beats after the epoch, the solution is delivered: its offset is carried forward at its
frequency, and referred to Ridge A as corrected since. -/
def execGnssDelivery (s : State) : Host.Outcome State Fault Refusal :=
  match s.gnss.sol with
  | none => done s
  | some q =>
    let age := s.solAge q
    if age < 8 ∨ !s.rxActive ∨ s.rd F.GNSS_VERDICT_VERDICT = Verdict.spoofed then done s else
    let f : Rat := (q.freq : Rat) / 2 ^ 60
    let ofs := roundRat ((q.ofs : Rat) + f * age * ruBeat - ru40 (s.ridge.a.total - q.ep.total))
    let s := s.setGnss { s.gnss with sol := none }
    let s := (s.wrS F.GNSS_TSOL_OFS_OFS ofs).wrS F.GNSS_TSOL_FREQ_FREQ q.freq
    let s := (s.wr F.GNSS_TSOL_UNC_U q.u).wr F.GNSS_TSOL_INFO_VALID 1
    let s := (s.wrB F.GNSS_TSOL_INFO_DUAL_FREQ q.dual).wrB F.GNSS_TSOL_INFO_HOLD q.hold
    let s := (s.wrSat F.GNSS_TSOL_INFO_AGE age).bump F.GNSS_TSOL_INFO_SEQ
    done { s with ens := { s.ens with deliv := s.ens.deliv ++ [⟨11, ofs, f, age⟩] } }

/-! ### Sleep, wake, survey, hints, cold start (Table GNSS-7) -/

/-- The front ends in use are sent their sleep lists, or their write lists. -/
def State.sendFes (s : State) (l : List (List (List Nat))) : State :=
  [0, 1].foldl (fun s a => if s.antUsed a then s.sendFe a (l.getD a []) else s) s

/-- `GNSS_SLEEP`: parameter word 0. -/
def execGnssSleep (c : CmdRef) (w0 : Nat) (s : State) : Host.Outcome State Fault Refusal :=
  if s.rx = Rx.off ∨ s.rx = Rx.stopping then done (s.finish c Code.badParam)
  else if s.rx = Rx.asleep then done (s.finish c Code.ok)
  else if s.rx = Rx.sleeping then done (s.setGnss { s.gnss with sleeps := s.gnss.sleeps ++ [c] })
  else
    let s := s.saveHint
    let s := s.wr F.GNSS_STAT_STATE Rx.sleeping
    let s := s.gnss.ch.foldl (fun s ch => s.setCh { ch with st := Ch.lost, slip := true }) s
    let s := if bit w0 0 then s.sendFes s.gnss.feSleep else s
    done (s.setGnss { s.gnss with
      run := List.replicate 8 false, queue := [], latched := none, epoch := none, sol := none,
      survey := false, sleeps := s.gnss.sleeps ++ [c] })

/-- The receiver wakes (Table GNSS-5): write lists, hot searches, and a survey from the beginning. -/
def State.gnssWakeUp (s : State) : State :=
  let s := (s.wr F.GNSS_STAT_STATE Rx.waking).wr F.GNSS_STAT_PENDING_ENABLE 0
  let s := s.sendFes s.gnss.feWrite
  let s := s.setGnss { s.gnss with hadSolution := false, kind := s.startClass }
  let s := s.startStreams
  let s := s.gnss.ch.foldl (fun s ch => s.queueSearch ch 0) s
  let s := if s.rd F.GNSS_STAT_MODE_ACT = 1 then s.beginSurvey s.gnss.learn else s
  let l := s.gnss.wakes
  (s.setGnss { s.gnss with wakes := [] }).finishAll l Code.ok

/-- `GNSS_WAKE`. -/
def execGnssWake (c : CmdRef) (s : State) : Host.Outcome State Fault Refusal :=
  if s.rx = Rx.sleeping then
    done ((s.wr F.GNSS_STAT_PENDING_ENABLE 1).setGnss { s.gnss with wakes := s.gnss.wakes ++ [c] })
  else if s.rx = Rx.asleep then done (s.gnssWakeUp.finish c Code.ok)
  else done (s.finish c Code.badParam)

/-- `GNSS_SLEEP_DONE`: channels and engine have stopped. -/
def execGnssSleepDone (s : State) : Host.Outcome State Fault Refusal :=
  if s.rx ≠ Rx.sleeping then done s else
  let s := s.wr F.GNSS_STAT_STATE Rx.asleep
  let l := s.gnss.sleeps
  let s := (s.setGnss { s.gnss with sleeps := [] }).finishAll l Code.ok
  if s.on F.GNSS_STAT_PENDING_ENABLE then done s.gnssWakeUp else done s

/-- `GNSS_SURVEY`: parameter word 0. -/
def execGnssSurvey (c : CmdRef) (w0 : Nat) (s : State) : Host.Outcome State Fault Refusal :=
  if !s.rxActive then done (s.finish c Code.badParam) else
  let learn := s.on F.GNSS_CTL_BASE_LEARN || bit w0 1
  let s := if s.gnss.survey && !bit w0 0 then s.setGnss { s.gnss with learn := learn } else s.beginSurvey learn
  done ((s.wr F.GNSS_STAT_MODE_ACT 1).finish c Code.ok)

/-- `GNSS_HINT_SAVE`. -/
def execGnssHintSave (c : CmdRef) (s : State) : Host.Outcome State Fault Refusal :=
  if s.on F.GNSS_STAT_SOL_VALID then done (s.saveHint.finish c Code.ok) else done (s.finish c Code.badParam)

/-- `HINT_PERIODIC_SAVE`: HINT_PERIOD elapses. -/
def execHintPeriodicSave (s : State) : Host.Outcome State Fault Refusal :=
  if s.on F.GNSS_STAT_SOL_VALID && s.inG F.GNSS_HINT_HINT_PERIOD != 0 then done s.saveHint else done s

/-- `GNSS_COLD`: ephemeris, almanac and hint are discarded, and the channels restart. -/
def execGnssCold (c : CmdRef) (s : State) : Host.Outcome State Fault Refusal :=
  let s := s.setGnss { s.gnss with eph := 0, almanac := false, hints := [none, none] }
  let s := if s.rxActive then s.gnss.ch.foldl (fun s ch => s.queueSearch { ch with slip := ch.st == Ch.pll || ch.slip } 2) s else s
  done (s.finish c Code.ok)

/-! ### Other register writes (R214, R247) -/

/-- A write of a register that is locked while the receiver is enabled. A baseline written is KNOWN when it is not 0. -/
def State.gnssLockedWrite (s : State) (a : Acs) (fs : List Fld) (i w : Nat) : State × Nat :=
  let on := s.on F.GNSS_CTL_EN || s.rx == Rx.stopping || s.testing 0x70
  let r := s.fieldWrite (fun _ => on) inRange fs i w
  let base := fs.any (fun f => f.among [F.GNSS_BASE_E_BASE, F.GNSS_BASE_N_BASE, F.GNSS_BASE_U_BASE])
  let s := if base && !on then r.1.wrB F.GNSS_BASE_STAT_KNOWN
      (r.1.on F.GNSS_BASE_E_BASE || r.1.on F.GNSS_BASE_N_BASE || r.1.on F.GNSS_BASE_U_BASE) else r.1
  s.conclude a r.2

/-- A write of GNSS_STREAM_LO[t], locked while the stream is enabled. -/
def State.streamLoWrite (s : State) (a : Acs) (t w : Nat) : State × Nat :=
  let on := s.streamOn t
  let r := s.fieldWrite (fun _ => on) inRange [F.GNSS_STREAM_LO_LO] t w
  r.1.conclude a r.2

/-- A write of a register that is written in service and takes effect at the next epoch latch (R247). -/
def State.gnssServiceWrite (s : State) (a : Acs) (fs : List Fld) (i w : Nat) : State × Nat :=
  let s' := fs.foldl (fun s f => s.setGnss { s.gnss with was := kvPut s.gnss.was (f.key i) (s.inG f i) }) s
  let r := s'.fieldWrite noLock inRange fs i w
  r.1.conclude a r.2

/-- A write of GNSS_NOTCH[t][i]: FREQ and WIDTH are read-only unless NOTCH_MODE is 2. -/
def State.notchWrite (s : State) (a : Acs) (j w : Nat) : State × Nat :=
  if s.rd F.GNSS_STREAM_JAM_NOTCH_MODE (j / 8) = 2 then s.gnssServiceWrite a [F.GNSS_NOTCH_FREQ, F.GNSS_NOTCH_WIDTH] j w
  else s.conclude a []

/-- At beat 0 a new EPOCH_RATE takes effect. -/
def State.gnssBeat0 (s : State) : State := s.setGnss { s.gnss with rate := s.rd F.GNSS_CTL_EPOCH_RATE }

end Sys2Proof.Machine
end

