-- ==== Sys2Proof/Machine/Frame.lean ====
section
/-! DEFINITION. Frames as lists of bytes: fields in network order, tags (R263 to R265), the places of UDP and PTP inside a frame,
checksums. -/
namespace Sys2Proof.Machine

/-- The `n` bytes of `l` from offset `o`, most significant first; a byte past the end reads 0. -/
def be (l : List Nat) (o : Nat) : Nat → Nat
  | 0 => 0
  | n + 1 => be l o n * 256 + l.getD (o + n) 0 % 256

/-- The `n` bytes of `v`, most significant first. -/
def beBytes (n v : Nat) : List Nat := digitsOf 256 n v

/-- The `n` bytes of `v`, least significant first. -/
def leBytes (n v : Nat) : List Nat := (digitsOf 256 n v).reverse

/-- `l` with the `n` bytes of `v` at offset `o`, most significant first; a byte past the end is not written. -/
def putBe (l : List Nat) (o n v : Nat) : List Nat := overlay l o (beBytes n v)

/-- `l` padded with zeros to at least `n` bytes. -/
def padTo (n : Nat) (l : List Nat) : List Nat := l ++ List.replicate (n - l.length) 0

/-- A C-tag or an S-tag (R263). -/
def isTpid (t : Nat) : Bool := t == 0x8100 || t == 0x88A8

/-- Tags from offset `o`, at most `fuel`: their TPIDs and TCIs, the outer first. -/
def tagsFrom (l : List Nat) : Nat → Nat → List (Nat × Nat)
  | 0, _ => []
  | fuel + 1, o => if isTpid (be l o 2) && o + 4 ≤ l.length then (be l o 2, be l (o + 2) 2) :: tagsFrom l fuel (o + 4) else []

/-- The tag stack of a frame; three members stand for more than two tags. -/
def tagsOf (l : List Nat) : List (Nat × Nat) := tagsFrom l 3 12

/-- The offset of the EtherType after any tags. -/
def etOfs (l : List Nat) : Nat := 12 + 4 * (tagsOf l).length

/-- The EtherType after any tags. -/
def etherType (l : List Nat) : Nat := be l (etOfs l) 2

/-- How a PTP or NTP message travels. -/
inductive Carrier where
  | l2 | udp4 | udp6
  deriving DecidableEq, Repr

/-- A UDP datagram in a frame: IPv6 or not, offsets of the IP header and the UDP payload, the two ports. -/
structure Udp where
  v6 : Bool
  ip : Nat
  data : Nat
  src : Nat
  dst : Nat
  deriving DecidableEq, Repr

/-- The UDP datagram that a frame carries, if it carries one. -/
def udpOf (l : List Nat) : Option Udp :=
  let o := etOfs l + 2
  if etherType l = 0x0800 ∧ bits (be l o 1) 4 4 = 4 ∧ be l (o + 9) 1 = 17 then
    let h := 4 * bits (be l o 1) 0 4
    some ⟨false, o, o + h + 8, be l (o + h) 2, be l (o + h + 2) 2⟩
  else if etherType l = 0x86DD ∧ be l (o + 6) 1 = 17 then some ⟨true, o, o + 48, be l (o + 40) 2, be l (o + 42) 2⟩
  else none

/-- The PTP message of a frame: its carrier and the offset of its common header. -/
def ptpOf (l : List Nat) : Option (Carrier × Nat) :=
  if etherType l = 0x88F7 then some (.l2, etOfs l + 2)
  else match udpOf l with
    | some u => if u.dst = 319 ∨ u.dst = 320 then some (if u.v6 then .udp6 else .udp4, u.data) else none
    | none => none

/-- The ones' complement sum of the 16-bit words of `l`, folded to 16 bits. -/
def onesSum : List Nat → Nat
  | a :: b :: t =>
    let v := a % 256 * 256 + b % 256 + onesSum t
    if v < 65536 then v else v - 65535
  | [a] => a % 256 * 256
  | [] => 0

/-- The checksum `c` after the bytes it covers changed from `old` to `new` (RFC 1624), which start on an even byte. -/
def fixSum (c : Nat) (old new : List Nat) : Nat :=
  let m := (65535 - c % 65536) + (65535 - onesSum old) + onesSum new
  let m := m % 65536 + m / 65536
  let m := m % 65536 + m / 65536
  65535 - m

/-- The source MAC address of a frame. -/
def macSrc (l : List Nat) : Nat := be l 6 6

/-- The UDP checksum of a frame's datagram is set to the value its bytes give; 0 becomes 0xFFFF. -/
def udpSum (l : List Nat) : List Nat :=
  match udpOf l with
  | none => l
  | some u =>
    let l := putBe l (u.data - 2) 2 0
    let len := be l (u.data - 4) 2
    let addr := if u.v6 then (l.drop (u.ip + 8)).take 32 else (l.drop (u.ip + 12)).take 8
    let pseudo := addr ++ beBytes 4 len ++ beBytes 4 17
    let data := ((l.drop (u.data - 8)).take len)
    let c := 65535 - onesSum (pseudo ++ data ++ (if len % 2 = 1 then [0] else []))
    putBe l (u.data - 2) 2 (if c = 0 then 0xFFFF else c)

/-- The IPv4 header checksum of a frame is set to the value its bytes give. -/
def ipSum (l : List Nat) : List Nat :=
  match udpOf l with
  | none => l
  | some u =>
    if u.v6 then l else
    let l := putBe l (u.ip + 10) 2 0
    putBe l (u.ip + 10) 2 (65535 - onesSum ((l.drop u.ip).take (u.data - 8 - u.ip)))

end Sys2Proof.Machine
end

