-- ==== Sys2Proof/Machine/Roles.lean ====
section
/-! DEFINITION. What decides whether a port serves time: safe state, the pair token, the roles of the PTP instances and their port
states (Table PTP-1), and the admitted answers that fall when a port leaves UP (R362). -/
namespace Sys2Proof.Machine

/-- The device serves time: no safe state is in force and it is not the standby member (R333, R370, R524). -/
def State.serves (s : State) : Bool := !s.on F.TOP_STAT_SAFE && !s.notHolder

/-- The role of port `p` for instance `i` in force: 0 OFF, 1 MASTER, 2 UNICAST (R312). -/
def State.ptpRole (s : State) (i p : Nat) : Nat :=
  if i = 0 then s.inF F.PTE_PORT_CTL_ROLE0 p else s.inF F.PTE_PORT_CTL_ROLE1 p

/-- The state of port `p` for instance `i` (Table PTP-1): 0 DISABLED, 1 MASTER, 2 PASSIVE. -/
def State.ptpState (s : State) (i p : Nat) : Nat :=
  if i = 0 then s.rd F.PTE_PORT_STAT_STATE0 p else s.rd F.PTE_PORT_STAT_STATE1 p

/-- The state of port `p` for instance `i` becomes `st`. -/
def State.setPtpState (s : State) (i p st : Nat) : State :=
  s.wr (if i = 0 then F.PTE_PORT_STAT_STATE0 else F.PTE_PORT_STAT_STATE1) st p

/-- Instance `i` runs, and the engine with it. -/
def State.ptpRuns (s : State) (i : Nat) : Bool := s.on F.PTE_STAT_RUNNING && s.on F.PTE_I_STAT_RUNNING i

/-- The states of port `p` follow its roles, the instances and the port (Table PTP-1); a port that is not UP is not asCapable. -/
def State.showPtpPort (s : State) (p : Nat) : State :=
  let up := s.rd F.MAC_STAT_STATE p == 4
  let s := [0, 1].foldl (fun s i =>
    if s.ptpRuns i && s.ptpRole i p != 0 && up then (if s.ptpState i p = 0 then s.setPtpState i p 1 else s)
    else s.setPtpState i p 0) s
  if up then s else s.wr F.PTE_PORT_STAT_AS_CAPABLE 0 p

/-- A source that is raised once per beat per port (R336, R337, R359). -/
def State.raiseOnce (s : State) (fs p snap : Nat) : State :=
  if s.frank.raised.contains (fs, p) then s
  else ({ s with frank := { s.frank with raised := s.frank.raised ++ [(fs, p)] } }).raise fs snap

/-- The bytes of a table window from address `a`. -/
def State.mbytes (s : State) (a n : Nat) : List Nat := (List.range n).map (fun k => (memGet s.mem (a + k)).toNat)

/-- The bytes `l` are stored at address `a` of a table window. -/
def State.mput (s : State) (a : Nat) (l : List Nat) : State :=
  (l.zipIdx).foldl (fun s b => { s with mem := memPut s.mem (a + b.2) (BitVec.ofNat 8 b.1) }) s

end Sys2Proof.Machine
end

