-- ==== Sys2Proof/Machine/Eth.lean ====
section
/-! DEFINITION. Ethernet port groups, lanes and ports (spec/07_ethernet_ports.md): modes, link bring-up, adaptation, flow control,
SyncE and doze. -/
namespace Sys2Proof.Machine

namespace Port
def disabled : Nat := 0
def an : Nat := 1
def training : Nat := 2
def align : Nat := 3
def up : Nat := 4
def fault : Nat := 5
def doze : Nat := 6
def stopping : Nat := 7
end Port

namespace Grp
def disabled : Nat := 0
def ident : Nat := 1
def running : Nat := 2
def oos : Nat := 3
def stopping : Nat := 4
end Grp

/-- Port `p` without a register. -/
def State.prt (s : State) (p : Nat) : PortSt := s.eth.port.getD p {}
def State.setPrt (s : State) (p : Nat) (x : PortSt) : State := { s with eth := { s.eth with port := s.eth.port.set p x } }

/-- Lane `l` without a register. -/
def State.lane (s : State) (l : Nat) : LaneSt := s.eth.lane.getD l {}
def State.setLane (s : State) (l : Nat) (x : LaneSt) : State := { s with eth := { s.eth with lane := s.eth.lane.set l x } }

/-- The state codes of port `p` and of group `g`. -/
def State.portState (s : State) (p : Nat) : Nat := s.rd F.MAC_STAT_STATE p
def State.grpState (s : State) (g : Nat) : Nat := s.rd F.SDS_GRP_STAT_STATE g

/-- Port `p` is absent (R248): a port other than the first of a group in 100G mode. -/
def State.portAbsent (s : State) (p : Nat) : Bool :=
  let g := p / 4
  p % 4 != 0 && (if s.grpState g = Grp.running ∨ s.grpState g = Grp.ident then s.rd F.SDS_GRP_STAT_MODE_RES g == 0
    else s.rd F.SDS_GRP_CTL_MODE g == 0)

/-- The lanes of port `p` (R248). -/
def State.portLanes (s : State) (p : Nat) : List Nat :=
  if s.rd F.SDS_GRP_STAT_MODE_RES (p / 4) = 0 then [4 * (p / 4), 4 * (p / 4) + 1, 4 * (p / 4) + 2, 4 * (p / 4) + 3] else [p]

/-- Frames may be sent on port `p`: it is UP and its group is not in LB 3 (R253, R278). -/
def State.portSends (s : State) (p : Nat) : Bool :=
  s.portState p == Port.up && s.rd F.SDS_GRP_CTL_LB (p / 4) != 3

/-- A frame of the device goes out on port `p`, or is dropped and counted there. -/
def State.sendFrame (s : State) (p : Nat) (bytes : List Nat) : State :=
  if s.portSends p then (s.emit (.frame p bytes)).inc F.MAC_CNT_TX_FRAMES_TX_FRAMES p
  else s.inc F.MAC_CNT_DROP_DROP p

/-- The MAC address of port `p`. -/
def State.macAddr (s : State) (p : Nat) : Nat := s.rd F.MAC_ADDR_HI_ADDR p * 2 ^ 32 + s.rd F.MAC_ADDR_LO_ADDR p

/-! ### Recovered clock (R271) -/

/-- The recovered clock of group `g` runs: its port UP, its lane's CDR locked, no near-end loopback. -/
def State.rclkRuns (s : State) (g : Nat) : Bool :=
  let lb := s.rd F.SDS_GRP_CTL_LB g
  s.portState (s.rclkPort g) == Port.up && s.on F.SDS_LN_STAT_CDR_LOCK (4 * g + s.rd F.SDS_GRP_CTL_RCLK_LANE g) &&
    lb != 1 && lb != 2

/-- RCLK_OK follows; each squelch is counted, and FS 104 is live while it lasts once the clock has run. -/
def State.showRclk (s : State) (g : Nat) : State :=
  let was := s.on F.SDS_GRP_STAT_RCLK_OK g
  let now := s.rclkRuns g
  let s := s.wrB F.SDS_GRP_STAT_RCLK_OK now g
  if was && !now then (s.inc F.SDS_GRP_CNT_RCLK_SQ g).condOn 104 g
  else if now then s.condOff 104 g else s

/-- Port `p` goes to state `st`: event 0x000A at a change (Table HOST-9). As it leaves UP, its admitted answers fall (R362). -/
def State.movePort (s : State) (p st : Nat) : State :=
  if s.portState p = st then s else
  let s := if s.portState p = Port.up then s.dropAnswers (fun a => a.port == p) else s
  let s := (s.wr F.MAC_STAT_STATE st p).eventNow 0x000A 0 [p + st * 256]
  let s := if st = Port.up ∨ st = Port.disabled then s.condOff 96 p else s
  (s.showPtpPort p).showRclk (p / 4)

/-! ### Bring-up (R250, R252, R253, Table ETH-3) -/

/-- The lane status of the lanes `ls` clears as the link is lost. -/
def State.dropLanes (s : State) (ls : List Nat) : State :=
  ls.foldl (fun s l => ((s.wr F.SDS_LN_STAT_CDR_LOCK 0 l).wr F.SDS_LN_STAT_BLOCK_LOCK 0 l).wr F.SDS_LN_STAT_TRAINED 0 l) s

/-- Bring-up of port `p` begins: auto-negotiation for PMD 0 and 1, else lock (Table ETH-3). -/
def State.bringUp (s : State) (p : Nat) : State :=
  s.movePort p (if s.rd F.SDS_GRP_STAT_PMD_RES (p / 4) ≤ 1 then Port.an else Port.align)

/-- Port `p` runs when both its EN and its group's are 1 (R250) and it is present. -/
def State.portStart (s : State) (p : Nat) : State :=
  if s.portState p = Port.disabled ∧ s.on F.MAC_CTL_EN p ∧ s.grpState (p / 4) = Grp.running ∧ !s.portAbsent p then
    ((s.wr F.MAC_STAT_RATE (s.rd F.SDS_GRP_STAT_MODE_RES (p / 4)) p).bringUp p)
  else s

/-- The pauses of port `p` end. -/
def State.clearPause (s : State) (p : Nat) : State :=
  let s := s.setPrt p { s.prt p with pause := none, pfc := List.replicate 8 none }
  (s.wr F.MAC_STAT_PAUSED 0 p).wr F.MAC_STAT_PFC_PAUSED 0 p

/-- Port `p` stops (Table ETH-3). -/
def State.portStop (s : State) (p : Nat) : State :=
  let st := s.portState p
  if st = Port.disabled ∨ st = Port.stopping then s
  else ((s.clearPause p).dropLanes (s.portLanes p)).movePort p Port.stopping

/-- Port `p` has stopped; a pending enable starts it again (R254). -/
def State.portStopped (s : State) (p : Nat) : State :=
  if s.portState p ≠ Port.stopping then s else
  let s := (s.movePort p Port.disabled).wr F.MAC_STAT_PENDING_ENABLE 0 p
  s.portStart p

/-- Pairs of a mode, PMD and FEC that Table ETH-1 allows. -/
def ethModeOk (mode pmd fec : Nat) : Bool :=
  if mode = 0 then pmd ≤ 2 && 2 ≤ fec
  else if mode = 1 then pmd ≤ 2 && (fec != 1 || pmd != 2)
  else if mode = 2 then (pmd == 1 || pmd == 2) && fec != 2 && (fec != 1 || pmd == 1)
  else if mode = 3 then (pmd == 2 || pmd == 3) && fec == 0
  else mode == 4 && pmd ≤ 2 && fec == 3

/-- TX_REF of group `g` names a usable reference (R274). -/
def State.txRefOk (s : State) (g : Nat) : Bool :=
  let t := s.rd F.SDS_GRP_CTL_TX_REF g
  if t = 0 then true
  else if 7 ≤ t then false
  else
    let q := s.apllVco (t - 1) / 156250000
    s.on F.APLL_CTL_EN (t - 1) && q.den == 1 && decide (62 ≤ q) && decide (q ≤ 81)

/-- The enable check of group `g` (R251). -/
def State.grpCheck (s : State) (g : Nat) : Bool :=
  ethModeOk (s.rd F.SDS_GRP_CTL_MODE g) (s.rd F.SDS_GRP_CTL_PMD g) (s.rd F.SDS_GRP_CTL_FEC g) &&
    s.rd F.SDS_GRP_CTL_LB g ≤ 3 && s.txRefOk g

/-- The ports of group `g` start that may. -/
def State.startPorts (s : State) (g : Nat) : State := forN 4 s (fun s i => s.portStart (4 * g + i))

/-- Group `g` starts: its island, its check, then identification of a module, or its ports (R251). -/
def State.grpStart (s : State) (g : Nat) : State :=
  if !s.islandOn (1 + g) then (s.wr F.SDS_GRP_CTL_EN 0 g).raise 221 (1 + g)
  else if !s.grpCheck g then (s.wr F.SDS_GRP_CTL_EN 0 g).raise 107 g
  else
    let mode := s.rd F.SDS_GRP_CTL_MODE g
    let pmd := s.rd F.SDS_GRP_CTL_PMD g
    let fec := s.rd F.SDS_GRP_CTL_FEC g
    let s := s.wr F.SDS_GRP_STAT_PMD_RES pmd g
    let s := s.wr F.SDS_GRP_STAT_MODE_RES (if mode = 4 then 0 else mode) g
    let s := s.wr F.SDS_GRP_STAT_FEC_RES (if fec = 3 then 0 else fec) g
    let t := s.rd F.SDS_GRP_CTL_TX_REF g
    let byp := t != 0 && s.on F.APLL_STAT_BYPASS (t - 1)
    let s := (s.wrB F.SDS_GRP_STAT_TX_REF_ACT byp g).cond 105 byp g
    if pmd = 2 ∧ fec = 3 then s.wr F.SDS_GRP_STAT_STATE Grp.ident g
    else (s.wr F.SDS_GRP_STAT_STATE Grp.running g).startPorts g

/-- The state of group `g` while it is not enabled. -/
def State.grpIdle (s : State) (g : Nat) : State :=
  s.wr F.SDS_GRP_STAT_STATE (if s.on F.SDS_GRP_CTL_OOS g then Grp.oos else Grp.disabled) g

/-- A write of SDS_GRP_CTL[g] (R251, R254, R280). -/
def State.grpCtlWrite (s : State) (a : Acs) (g w : Nat) : State × Nat :=
  let was := s.on F.SDS_GRP_CTL_EN g
  let oos := s.on F.SDS_GRP_CTL_OOS g
  let r := s.fieldWrite
    (fun f => ((was || s.grpState g == Grp.stopping) && f.no != F.SDS_GRP_CTL_EN.no) || (oos && f.no != F.SDS_GRP_CTL_OOS.no) || s.testing (0x40 + g)) inRange
    [F.SDS_GRP_CTL_FEC, F.SDS_GRP_CTL_PMD, F.SDS_GRP_CTL_TX_REF, F.SDS_GRP_CTL_OOS, F.SDS_GRP_CTL_RCLK_LANE,
     F.SDS_GRP_CTL_RCLK_DIV, F.SDS_GRP_CTL_LB_TXON, F.SDS_GRP_CTL_LB, F.SDS_GRP_CTL_MODE, F.SDS_GRP_CTL_EN] g w
  let s := r.1
  let now := s.on F.SDS_GRP_CTL_EN g
  let st := s.grpState g
  let s :=
    if now && !was then (if st = Grp.stopping then s.wr F.SDS_GRP_STAT_PENDING_ENABLE 1 g else s.grpStart g)
    else if was && !now then
      if st = Grp.stopping then s.wr F.SDS_GRP_STAT_PENDING_ENABLE 0 g
      else (forN 4 s (fun s i => s.portStop (4 * g + i))).wr F.SDS_GRP_STAT_STATE Grp.stopping g
    else if st = Grp.disabled ∨ st = Grp.oos then s.grpIdle g
    else s
  s.conclude a r.2

/-- `GROUP_ENABLE`: requester `req` writes SDS_GRP_CTL[g] with EN = 1; `w` gives the other bits. -/
def execGroupEnable (req g w : Nat) (s : State) : Host.Outcome State Fault Refusal :=
  if 8 ≤ g then done s else done (s.put ⟨req, 0x17000 + 0x40 * g, 2, true⟩ (fun s a => s.grpCtlWrite a g (setBit w 0 true))).1

/-- `GROUP_DISABLE`: requester `req` writes SDS_GRP_CTL[g] with EN = 0; `w` gives the other bits. -/
def execGroupDisable (req g w : Nat) (s : State) : Host.Outcome State Fault Refusal :=
  if 8 ≤ g then done s else done (s.put ⟨req, 0x17000 + 0x40 * g, 2, true⟩ (fun s a => s.grpCtlWrite a g (setBit w 0 false))).1

/-- Group `g` has stopped, its ports with it; a pending enable starts it again (R254). -/
def State.grpStopped (s : State) (g : Nat) : State :=
  if s.grpState g ≠ Grp.stopping then s else
  let s := forN 4 s (fun s i => s.portStopped (4 * g + i))
  let s := s.grpIdle g
  if s.on F.SDS_GRP_STAT_PENDING_ENABLE g then (s.wr F.SDS_GRP_STAT_PENDING_ENABLE 0 g).grpStart g else s

/-- `PORT_STOP_DONE`: port `n`, or group `n` when `grp`, finishes stopping. -/
def execPortStopDone (grp : Bool) (n : Nat) (s : State) : Host.Outcome State Fault Refusal :=
  if grp then (if n < 8 then done (s.grpStopped n) else done s) else if n < 32 then done (s.portStopped n) else done s

/-- `MODULE_IDENT`: the module of group `g` has been read; `mode` and `fec` are what it resolves to, mode 4 and above when it
reports no rate of Table ETH-1 or uses the CMIS map (R251). -/
def execModuleIdent (g mode fec : Nat) (s : State) : Host.Outcome State Fault Refusal :=
  if 8 ≤ g then done s else
  let s := s.wr F.SDS_GRP_STAT_MOD_PRESENT 1 g
  if s.grpState g ≠ Grp.ident then done s
  else
    let m := s.rd F.SDS_GRP_CTL_MODE g
    let res := if m = 4 then mode else m
    if 4 ≤ mode then done (s.raise 102 g)
    else
      let s := (s.wr F.SDS_GRP_STAT_MODE_RES res g).wr F.SDS_GRP_STAT_FEC_RES (min fec 2) g
      done ((s.wr F.SDS_GRP_STAT_STATE Grp.running g).startPorts g)

/-- Counters of a port (R249 and the MAC register block). -/
def macCounters : List Fld :=
  [F.MAC_CNT_RX_FRAMES_RX_FRAMES, F.MAC_CNT_TX_FRAMES_TX_FRAMES, F.MAC_CNT_RX_ERR_RX_ERR, F.MAC_CNT_PAUSE_RX_PAUSE_RX,
   F.MAC_CNT_PAUSE_IGN_PAUSE_IGN, F.MAC_CNT_DROP_DROP, F.MAC_CNT_FEC_CORR_FEC_CORR, F.MAC_CNT_FEC_UNCORR_FEC_UNCORR,
   F.MAC_CNT_LINK_DOWN_LINK_DOWN]

/-- Port `p` enters doze (R276). -/
def State.dozeEnter (s : State) (p : Nat) : State :=
  let s := (s.clearPause p).dropLanes (s.portLanes p)
  (s.setPrt p { s.prt p with dozing := true }).movePort p Port.doze |>.raise 106 p

/-- Port `p` wakes (R277): DISABLED, then bring-up. -/
def State.dozeWake (s : State) (p : Nat) : State :=
  let s := (s.setPrt p { s.prt p with dozing := false }).wr F.MAC_STAT_PENDING_ENABLE 0 p
  (s.movePort p Port.disabled).portStart p

/-- DOZE of port `p` has been written 0 while it dozes: at once, or once entry has completed (R277). -/
def State.dozeOff (s : State) (p : Nat) : State :=
  if s.portState p ≠ Port.doze then s
  else if (s.prt p).dozing then s.wr F.MAC_STAT_PENDING_ENABLE 1 p else s.dozeWake p

/-- A write of MAC_CTL[p] (R249, R252, R254, R262, R276, R280). -/
def State.macCtlWrite (s : State) (a : Acs) (p w : Nat) : State × Nat :=
  if s.portAbsent p then s.conclude a [Code.badParam] else
  let was := s.on F.MAC_CTL_EN p
  let doze := s.on F.MAC_CTL_DOZE p
  let open' := [F.MAC_CTL_EN, F.MAC_CTL_DOZE, F.MAC_CTL_FC_IGN, F.MAC_CTL_PFC_IGN, F.MAC_CTL_FC_TX_EN]
  let r := s.fieldWrite (fun f => (was || s.portState p == Port.stopping) && !f.among open') inRange
    [F.MAC_CTL_MAXF, F.MAC_CTL_WAKE_SEL, F.MAC_CTL_QINQ, F.MAC_CTL_TAG_INS, F.MAC_CTL_TAG_STRIP, F.MAC_CTL_FC_TX_EN,
     F.MAC_CTL_PFC_EN, F.MAC_CTL_PFC_IGN, F.MAC_CTL_FC_IGN, F.MAC_CTL_DOZE, F.MAC_CTL_EN] p w
  let s := r.1
  let now := s.on F.MAC_CTL_EN p
  let st := s.portState p
  let s :=
    if now && !was then
      let s := s.rstFlds macCounters p
      if st = Port.stopping then s.wr F.MAC_STAT_PENDING_ENABLE 1 p else s.portStart p
    else if was && !now then
      if st = Port.stopping then s.wr F.MAC_STAT_PENDING_ENABLE 0 p else s.portStop p
    else s
  let dz := s.on F.MAC_CTL_DOZE p
  let st := s.portState p
  let s :=
    if dz && !doze then
      if st = Port.disabled ∨ st = Port.stopping ∨ st = Port.doze then s else s.dozeEnter p
    else if doze && !dz then s.dozeOff p
    else s
  s.conclude a r.2

/-- The register access of requester `req` to MAC_CTL[p]. -/
def macCtlAcs (req p : Nat) : Acs := ⟨req, 0x10000 + 0x200 * p, 2, true⟩

/-- `PORT_ENABLE`: requester `req` writes MAC_CTL[p] with EN = 1; `w` gives the other bits. -/
def execPortEnable (req p w : Nat) (s : State) : Host.Outcome State Fault Refusal :=
  if 32 ≤ p then done s else done (s.put (macCtlAcs req p) (fun s a => s.macCtlWrite a p (setBit w 0 true))).1

/-- `PORT_DISABLE`: requester `req` writes MAC_CTL[p] with EN = 0; `w` gives the other bits. -/
def execPortDisable (req p w : Nat) (s : State) : Host.Outcome State Fault Refusal :=
  if 32 ≤ p then done s else done (s.put (macCtlAcs req p) (fun s a => s.macCtlWrite a p (setBit w 0 false))).1

/-- `DOZE_ENTER`: requester `req` writes MAC_CTL[p] with DOZE = 1; `w` gives the other bits. -/
def execDozeEnter (req p w : Nat) (s : State) : Host.Outcome State Fault Refusal :=
  if 32 ≤ p then done s else done (s.put (macCtlAcs req p) (fun s a => s.macCtlWrite a p (setBit w 1 true))).1

/-- `DOZE_ENTRY_DONE`: entry of port `p` into doze completes; it wakes at once when DOZE was written 0 meanwhile. -/
def execDozeEntryDone (p : Nat) (s : State) : Host.Outcome State Fault Refusal :=
  if 32 ≤ p ∨ !(s.prt p).dozing then done s else
  let s := s.setPrt p { s.prt p with dozing := false }
  if s.on F.MAC_STAT_PENDING_ENABLE p then done (s.dozeWake p) else done s

/-- `PORT_WAKE`: the wake detector of port `p` sees pattern `cause` (0 signal for 1 ms, 1 a DME page), or requester `req` writes
DOZE = 0 with the other bits of `w` (`cause` 2). -/
def execPortWake (req p cause w : Nat) (s : State) : Host.Outcome State Fault Refusal :=
  if 32 ≤ p then done s
  else if 2 ≤ cause then done (s.put (macCtlAcs req p) (fun s a => s.macCtlWrite a p (setBit w 1 false))).1
  else if s.portState p = Port.doze ∧ !(s.prt p).dozing ∧ s.rd F.MAC_CTL_WAKE_SEL p = cause then
    done ((s.wr F.MAC_CTL_DOZE 0 p).dozeWake p)
  else done s

/-- `AN_RESOLVED`: auto-negotiation of port `p` resolves mode `mode` and FEC `fec`. -/
def execAnResolved (p mode fec : Nat) (s : State) : Host.Outcome State Fault Refusal :=
  if 32 ≤ p ∨ s.portState p ≠ Port.an then done s else
  let g := p / 4
  let auto := s.rd F.SDS_GRP_CTL_MODE g = 4
  let s := if auto then s.wr F.SDS_GRP_STAT_MODE_RES (min mode 3) g else s
  let s := if s.rd F.SDS_GRP_CTL_FEC g = 3 then s.wr F.SDS_GRP_STAT_FEC_RES (min fec 2) g else s
  let s := (s.wr F.MAC_STAT_RATE (s.rd F.SDS_GRP_STAT_MODE_RES g) p).movePort p Port.training
  done (if auto then s.startPorts g else s)

/-- `AN_TIMEOUT`: no resolution on port `p` for 3 s; auto-negotiation restarts. -/
def execAnTimeout (p : Nat) (s : State) : Host.Outcome State Fault Refusal :=
  if p < 32 ∧ s.portState p = Port.an then done (s.raise 98 p) else done s

/-- Training leaves lane `l` with the equaliser settings `eq`: CTLE, first DFE tap, transmit post-cursor and pre-cursor. -/
def State.laneTrained (eq : List (List Nat)) (first : Nat) (s : State) (l : Nat) : State :=
  let v := fun k => (eq.getD (l - first) []).getD k 0
  let s := ((s.wr F.SDS_LN_STAT_TRAINED 1 l).wr F.SDS_LN_EQ_CTLE (v 0) l).wr F.SDS_LN_EQ_DFE1 (v 1) l
  (s.wr F.SDS_LN_EQ_TX_POST (v 2) l).wr F.SDS_LN_EQ_TX_PRE (v 3) l

/-- `TRAINING_DONE`: both ends of port `p` report receiver ready; `eq` gives, per lane of the port, the settings that training
found. -/
def execTrainingDone (p : Nat) (eq : List (List Nat)) (s : State) : Host.Outcome State Fault Refusal :=
  if p < 32 ∧ s.portState p = Port.training then
    done (((s.portLanes p).foldl (State.laneTrained eq p) s).movePort p Port.align)
  else done s

/-- `TRAINING_TIMEOUT`: 500 ms without both ends of port `p` ready. -/
def execTrainingTimeout (p : Nat) (s : State) : Host.Outcome State Fault Refusal :=
  if p < 32 ∧ s.portState p = Port.training then done ((s.raise 98 p).movePort p Port.an) else done s

/-! ### Lane corrections (R284) -/

/-- The corrections of lane `l` become the measured skew `sk` and CDR term `cdr`, in ru; FS 117 when one moves by more than 100 ps. -/
def State.reloadLane (s : State) (l : Nat) (sk cdr : Int) : State :=
  let lat := (s.lane l).lat0 + cdr
  let far := 65536 < 10 * (sk - s.rdS F.PM_LN_RXSKEW_VALUE l).natAbs || 65536 < 10 * (lat - s.rdS F.PM_LN_RXLAT_VALUE l).natAbs
  let s := (s.wrS F.PM_LN_RXSKEW_VALUE sk l).wrS F.PM_LN_RXLAT_VALUE lat l
  let s := s.setLane l { s.lane l with reload := false }
  if far then s.raise 117 l else s

/-- A reload of the lanes of port `p`: per lane of the port in order, skew and CDR term. -/
def State.reloadPort (s : State) (p : Nat) (corr : List (Int × Int)) : State :=
  let s := ((s.portLanes p).zipIdx).foldl (fun s q =>
    match corr[q.2]? with
    | some c => s.reloadLane q.1 c.1 c.2
    | none => s) s
  s.bump F.PM_STAT_CORR_GEN (p / 4)

/-- `CORR_RELOAD`: the corrections of port `p`'s lanes are measured again: per lane, skew and CDR term. -/
def execCorrReload (p : Nat) (corr : List (Int × Int)) (s : State) : Host.Outcome State Fault Refusal :=
  if p < 32 ∧ s.portState p = Port.up then done (s.reloadPort p corr) else done s

/-- `ALIGN_LOCK`: port `p` reaches lock; its lane corrections load and it is UP. -/
def execAlignLock (p : Nat) (corr : List (Int × Int)) (s : State) : Host.Outcome State Fault Refusal :=
  if 32 ≤ p ∨ s.portState p ≠ Port.align then done s else
  let s := (s.portLanes p).foldl (fun s l =>
    ((s.wr F.SDS_LN_STAT_CDR_LOCK 1 l).wr F.SDS_LN_STAT_BLOCK_LOCK 1 l).wr F.SDS_LN_STAT_SIG_DET 1 l) s
  done ((s.reloadPort p corr).movePort p Port.up)

/-- `ALIGN_TIMEOUT`: no lock of port `p` within 500 ms. -/
def execAlignTimeout (p : Nat) (s : State) : Host.Outcome State Fault Refusal :=
  if p < 32 ∧ s.portState p = Port.align then done (s.bringUp p) else done s

/-- `LINK_FAULT_RX`: fault ordered sets arrive on port `p`: local, or remote. -/
def execLinkFaultRx (p : Nat) (remote : Bool) (s : State) : Host.Outcome State Fault Refusal :=
  if 32 ≤ p ∨ s.portState p ≠ Port.up then done s else
  let s := s.wr (if remote then F.MAC_STAT_REMOTE_FAULT else F.MAC_STAT_LOCAL_FAULT) 1 p
  done ((s.movePort p Port.fault).raise 97 p)

/-- `LINK_FAULT_CLEAR`: no fault ordered set on port `p` for 1 ms. -/
def execLinkFaultClear (p : Nat) (s : State) : Host.Outcome State Fault Refusal :=
  if 32 ≤ p ∨ s.portState p ≠ Port.fault then done s else
  done (((s.wr F.MAC_STAT_REMOTE_FAULT 0 p).wr F.MAC_STAT_LOCAL_FAULT 0 p).movePort p Port.up)

/-- A re-adaptation of lane `l` is given up (R261). -/
def State.abandonReadapt (s : State) (l : Nat) : State :=
  let s := s.dequeue Act.readapt l
  let s := s.finishAll (s.lane l).cmds Code.badParam
  let s := s.setLane l { s.lane l with cmds := [] }
  if s.isRunning Act.readapt l then
    let s := (s.wr F.SDS_LN_STAT_ADAPTING 0 l).raise 176 (Act.readapt + l * 256)
    s.endEntry (quietGroup Act.readapt l) Code.badParam 0 0 true
  else s

/-- `LINK_DOWN`: lock or signal of port `p` lost for 1 ms. -/
def execLinkDown (p : Nat) (s : State) : Host.Outcome State Fault Refusal :=
  if 32 ≤ p ∨ !(s.portState p == Port.up || s.portState p == Port.fault) then done s else
  let s := (s.wr F.MAC_STAT_REMOTE_FAULT 0 p).wr F.MAC_STAT_LOCAL_FAULT 0 p
  let s := ((s.inc F.MAC_CNT_LINK_DOWN_LINK_DOWN p).condOn 96 p).dropLanes (s.portLanes p)
  let s := (s.portLanes p).foldl State.abandonReadapt s
  done ((s.clearPause p).bringUp p)

/-! ### Lane adaptation (R255 to R261) -/

/-- `ADAPT_FREEZE`: more than 4,096 low-activity windows in a row on lane `l`. -/
def execAdaptFreeze (l : Nat) (s : State) : Host.Outcome State Fault Refusal :=
  if l < 32 ∧ !s.on F.SDS_LN_STAT_FROZEN l then done ((s.wr F.SDS_LN_STAT_FROZEN 1 l).inc F.SDS_LN_CNT_FREEZES l) else done s

/-- `ADAPT_RESUME`: 256 active windows in a row on lane `l`; ADAPT_HOLD holds the adaptation. -/
def execAdaptResume (l : Nat) (s : State) : Host.Outcome State Fault Refusal :=
  if l < 32 ∧ !s.on F.SDS_LN_CTL_ADAPT_HOLD l then done (s.wr F.SDS_LN_STAT_FROZEN 0 l) else done s

/-- The beat number `n` lies at least 1,024 beats after `q`, or there is no `q`. -/
def quietOver (n : Nat) : Option Nat → Bool
  | none => true
  | some q => 1024 ≤ (n + 2 ^ 32 - q) % 2 ^ 32

/-- An eye result of lane `l` (R257, R260). -/
def State.eyeResult (s : State) (l eye : Nat) : State :=
  let s := s.wrSat F.SDS_LN_STAT_EYE eye l
  let low := s.rd F.SDS_LN_STAT_EYE l < s.rd F.SDS_LN_CTL_EYE_THR l
  let s := s.wrB F.SDS_LN_STAT_EYE_LOW low l
  let x := s.lane l
  let now := s.rd F.RIDGE_BEAT_SEQ_SEQ
  if x.first then
    let s := x.cmds.foldl (fun s c => s.finish c Code.ok (s.rd F.SDS_LN_STAT_EYE l)) s
    let s := s.setLane l { x with first := false, low := 0, quiet := if low then some now else x.quiet, cmds := [] }
    if low then s.raise 101 l else s
  else if !low then s.setLane l { x with low := 0 }
  else if x.low + 1 < 4 ∨ !quietOver now x.quiet then s.setLane l { x with low := min 4 (x.low + 1) }
  else ((s.setLane l { x with low := 0 }).raise 100 l).enqueue Act.readapt l false [] |>.1

/-- `EYE_MEASURE`: an eye-margin measurement of lane `l` completes with `eye`, LSB 1/128 UI. -/
def execEyeMeasure (l eye : Nat) (s : State) : Host.Outcome State Fault Refusal :=
  if 32 ≤ l ∨ s.on F.SDS_LN_STAT_FROZEN l ∨ s.on F.SDS_LN_STAT_ADAPTING l then done s else done (s.eyeResult l eye)

/-- A write of SDS_LN_CTL[l] (R258, R280): the PRBS fields are locked unless the group is in OOS. -/
def State.laneCtlWrite (s : State) (a : Acs) (l w : Nat) : State × Nat :=
  let oos := s.grpState (l / 4) == Grp.oos
  let r := s.fieldWrite (fun f => !oos && f.among [F.SDS_LN_CTL_PRBS_TX, F.SDS_LN_CTL_PRBS_RX]) inRange
    [F.SDS_LN_CTL_EYE_THR, F.SDS_LN_CTL_PRBS_TX, F.SDS_LN_CTL_PRBS_RX, F.SDS_LN_CTL_TX_INV, F.SDS_LN_CTL_RX_INV,
     F.SDS_LN_CTL_ADAPT_HOLD] l w
  let s := if bit w 4 then (r.1.enqueue Act.readapt l false []).1 else r.1
  s.conclude a r.2

/-- `READAPT`: requester `req` writes SDS_LN_CTL[l] with READAPT = 1; `w` gives the other bits. -/
def execReadapt (req l w : Nat) (s : State) : Host.Outcome State Fault Refusal :=
  if 32 ≤ l then done s else done (s.put ⟨req, 0x16000 + 0x80 * l, 2, true⟩ (fun s a => s.laneCtlWrite a l (setBit w 4 true))).1

/-- A re-adaptation of lane `l` starts: frames stamped from now carry CORR_OLD until the corrections are read again (R285). -/
def State.readaptStart (s : State) (l : Nat) : State :=
  (s.setLane l { s.lane l with reload := true }).wr F.SDS_LN_STAT_ADAPTING 1 l

/-- A re-adaptation of lane `l` ends with the measured corrections, and its group takes the next request (R259, R260); a
`MAINT_RUN` behind it completes with the first eye result after it (R575). -/
def State.readaptDone (s : State) (l : Nat) (sk cdr : Int) : State :=
  if !s.isRunning Act.readapt l then s else
  let s := (s.wr F.SDS_LN_STAT_ADAPTING 0 l).inc F.SDS_LN_CNT_READAPTS l
  let s := (s.reloadLane l sk cdr).bump F.PM_STAT_CORR_GEN (l / 4)
  let cmds := match s.quietRun (quietGroup Act.readapt l) with
    | some e => e.cmds
    | none => []
  let s := s.setLane l { s.lane l with first := true, low := 0, cmds := (s.lane l).cmds ++ cmds }
  s.endEntry (quietGroup Act.readapt l) Code.ok 0 0 false

/-- `READAPT_DONE`: the re-adaptation of lane `l` ends; skew and CDR term are re-read, and the equaliser holds `ctle`, `dfe`. -/
def execReadaptDone (l : Nat) (sk cdr : Int) (ctle dfe : Nat) (s : State) : Host.Outcome State Fault Refusal :=
  if 32 ≤ l ∨ !s.isRunning Act.readapt l then done s
  else done ((((s.wr F.SDS_LN_EQ_CTLE ctle l).wr F.SDS_LN_EQ_DFE1 dfe l)).readaptDone l sk cdr)

/-! ### Flow control (R266 to R270) -/

/-- 512 bit times of rate code `rate`, in 10 ps (R266). -/
def quantum (rate : Nat) : Nat := [512, 2048, 5120, 51200].getD rate 512

/-- Now, in 10 ps since Ridge A began to run. -/
def State.now10 (s : State) : Nat := s.ridge.ticks * 80

/-- The end of a pause of `q` quanta on port `p` from now. -/
def State.pauseEnd (s : State) (p q : Nat) : Option Nat :=
  if q = 0 then none else some (s.now10 + q * quantum (s.rd F.MAC_STAT_RATE p))

/-- PAUSED and PFC_PAUSED of port `p` follow its pauses. -/
def State.showPause (s : State) (p : Nat) : State :=
  let x := s.prt p
  let m := (idxs 8 (fun i => (x.pfc.getD i none).isSome)).map (fun i => 2 ^ i)
  (s.wrB F.MAC_STAT_PAUSED x.pause.isSome p).wr F.MAC_STAT_PFC_PAUSED m.sum p

/-- The frame is MAC Control with opcode `op`. -/
def isMacControl (l : List Nat) (op : Nat) : Bool := be l 12 2 == 0x8808 && be l 14 2 == op

/-- A PAUSE or PFC frame ends on port `p` (R266, R267, R269). -/
def State.pauseRx (s : State) (p : Nat) (l : List Nat) : State :=
  let pfcEn := s.on F.MAC_CTL_PFC_EN p
  if isMacControl l 1 then
    if pfcEn || s.on F.MAC_CTL_FC_IGN p then s.inc F.MAC_CNT_PAUSE_IGN_PAUSE_IGN p
    else ((s.inc F.MAC_CNT_PAUSE_RX_PAUSE_RX p).setPrt p { s.prt p with pause := s.pauseEnd p (be l 16 2) }).showPause p
  else if isMacControl l 0x101 then
    if !pfcEn || s.on F.MAC_CTL_PFC_IGN p then s.inc F.MAC_CNT_PAUSE_IGN_PAUSE_IGN p
    else
      let v := be l 16 2
      let t := (s.prt p).pfc.zipIdx.map (fun q => if bit v q.2 then s.pauseEnd p (be l (18 + 2 * q.2) 2) else q.1)
      ((s.inc F.MAC_CNT_PAUSE_RX_PAUSE_RX p).setPrt p { s.prt p with pfc := t }).showPause p
  else s

/-- `PAUSE_RX`: a MAC Control frame ends on port `p`. -/
def execPauseRx (p : Nat) (f : RxFrame) (s : State) : Host.Outcome State Fault Refusal :=
  if p < 32 ∧ s.portState p = Port.up ∧ f.fcsOk then done (s.pauseRx p f.bytes) else done s

/-- `PAUSE_EXPIRE`: the link-level pause of port `p` runs out, or that of priority `prio` when it is below 8. -/
def execPauseExpire (p prio : Nat) (s : State) : Host.Outcome State Fault Refusal :=
  if 32 ≤ p then done s else
  let x := s.prt p
  done ((s.setPrt p (if prio < 8 then { x with pfc := x.pfc.set prio none } else { x with pause := none })).showPause p)

/-- A host frame of priority `prio` may be sent on port `p`: nothing pauses it (R268). -/
def State.unpaused (s : State) (p prio : Nat) : Bool :=
  if s.on F.MAC_CTL_PFC_EN p then ((s.prt p).pfc.getD prio none).isNone else (s.prt p).pause.isNone

/-- The PAUSE, or the PFC of every priority, with `q` quanta that port `p` sends (R270). -/
def State.pauseFrame (s : State) (p q : Nat) : List Nat :=
  let head := beBytes 6 0x0180C2000001 ++ beBytes 6 (s.macAddr p) ++ beBytes 2 0x8808
  padTo 60 (if s.on F.MAC_CTL_PFC_EN p then head ++ beBytes 2 0x101 ++ beBytes 2 0xFF ++ (List.replicate 8 (beBytes 2 q)).flatten
    else head ++ beBytes 2 1 ++ beBytes 2 q)

/-- The bytes in port `p`'s host receive buffer. -/
def State.rxFill (s : State) (p : Nat) : Nat := ((s.prt p).rxq.map (fun f => f.bytes.length)).sum

/-- XOFF and XON of port `p` follow the fill of its receive buffer (R270). -/
def State.flowControl (s : State) (p : Nat) : State :=
  let fill := s.rxFill p
  let x := s.prt p
  if !x.xoff && s.on F.MAC_CTL_FC_TX_EN p && s.rd F.MAC_FC_XOFF p * 1024 < fill then
    (s.setPrt p { x with xoff := true }).sendFrame p (s.pauseFrame p (s.rd F.MAC_FC_QUANTA_TX p))
  else if x.xoff && fill ≤ s.rd F.MAC_FC_XON p * 1024 then
    (s.setPrt p { x with xoff := false }).sendFrame p (s.pauseFrame p 0)
  else s

/-- `PAUSE_REPEAT`: half the quanta time of port `p` has passed with its buffer above XON. -/
def execPauseRepeat (p : Nat) (s : State) : Host.Outcome State Fault Refusal :=
  if p < 32 ∧ (s.prt p).xoff then done (s.sendFrame p (s.pauseFrame p (s.rd F.MAC_FC_QUANTA_TX p))) else done s

/-- The words that the device writes over a receive descriptor for the frame `f`, from byte 8 on (Table HOST-11). -/
def rxDescWords (f : HostFrame) : List Nat :=
  [2 ^ 31 + f.pm.toNat * 2 ^ 22 + f.ptpEv.toNat * 2 ^ 21 + f.inner.isSome.toNat * 2 ^ 20 + f.outer.isSome.toNat * 2 ^ 19 +
     f.port % 32 * 2 ^ 14 + f.bytes.length % 2 ^ 14,
   f.id % 2 ^ 32, f.outer.getD 0 % 2 ^ 16 * 2 ^ 16 + f.inner.getD 0 % 2 ^ 16]

/-- Bytes as the little-endian words of a DMA write, the last word filled with zeros. -/
def dmaWords (l : List Nat) : List Nat :=
  (List.range ((l.length + 3) / 4)).map (fun k => (List.range 4).foldl (fun w j => w + l.getD (4 * k + j) 0 % 256 * 2 ^ (8 * j)) 0)

/-- The receive ring of group `g` serves frames: it runs, and the function is not in D3hot (R401). -/
def State.rxServes (s : State) (g : Nat) : Bool := s.host.rxRun.getD g false && !s.on F.HOST_STAT_D3HOT

/-- The first frame that waits in a host receive buffer of group `g`, the lowest port first. -/
def State.rxWaiting (s : State) (g : Nat) : Option HostFrame :=
  ((List.range 4).map (fun i => (s.prt (4 * g + i)).rxq.head?)).find? (fun f => f.isSome) |>.join

/-- One waiting frame of group `g` goes to its receive ring (R427): written, or discarded when it is longer than the buffer posted. -/
def State.rxServe (s : State) (g : Nat) : State :=
  match s.rxWaiting g, s.host.posted.getD g [] with
  | some f, (buf, len) :: rest =>
    let s := s.setPrt f.port { s.prt f.port with rxq := (s.prt f.port).rxq.tail }
    let s :=
      if len < f.bytes.length then s.inc F.HOST_RXR_DROP_COUNT g
      else
        let h := s.rd F.HOST_RXR_HEAD_PTR g
        let n := s.rd F.HOST_FR_CTL_RX_SIZE g
        let a := s.rd F.HOST_RXR_BASE_BASE g * 4096 + ptrIdx n h * 32 + 8
        let s := (s.emit (.dma buf (dmaWords f.bytes))).emit (.dma a (rxDescWords f))
        let s := { s with host := { s.host with posted := s.host.posted.set g rest } }
        (s.wr F.HOST_RXR_HEAD_PTR (ptrNext n 12 h) g).emit (.msix (11 + g))
    s.flowControl f.port
  | _, _ => s

/-- Waiting frames of group `g` are delivered while descriptors are posted, at most `fuel` of them. -/
def State.rxDrain : Nat → State → Nat → State
  | 0, s, _ => s
  | fuel + 1, s, g =>
    if s.rxServes g && (s.rxWaiting g).isSome && !(s.host.posted.getD g []).isEmpty then State.rxDrain fuel (s.rxServe g) g else s

/-- A frame enters port `p`'s host receive buffer, or finds it full (R270); posted descriptors take it from there. -/
def State.bufferFrame (s : State) (p : Nat) (f : HostFrame) : State :=
  if 65536 < s.rxFill p + f.bytes.length then (s.inc F.MAC_CNT_DROP_DROP p).raise 109 p
  else
    let s := s.setPrt p { s.prt p with rxq := (s.prt p).rxq ++ [f], seq := ((s.prt p).seq + 1) % 2 ^ 32 }
    State.rxDrain 8192 (s.flowControl p) (p / 4)

/-- A write of MAC_FC[p]: XON keeps below XOFF. -/
def State.macFcWrite (s : State) (a : Acs) (p w : Nat) : State × Nat :=
  let xon := bits w 24 8
  let xoff := if inRange F.MAC_FC_XOFF (bits w 16 8) then bits w 16 8 else s.rd F.MAC_FC_XOFF p
  let ok := fun (f : Fld) v => inRange f v && (f.no != F.MAC_FC_XON.no || xon < xoff)
  let r := s.fieldWrite noLock ok [F.MAC_FC_XOFF, F.MAC_FC_XON, F.MAC_FC_QUANTA_TX] p w
  r.1.conclude a r.2

/-- A write of a MAC register that is locked while the port is enabled (R280). -/
def State.macLockedWrite (s : State) (a : Acs) (fs : List Fld) (p w : Nat) : State × Nat :=
  let on := s.on F.MAC_CTL_EN p || s.portState p == Port.stopping
  let r := s.fieldWrite (fun _ => on) inRange fs p w
  r.1.conclude a r.2

/-- A write of SDS_GRP_AN[g], locked while the group is enabled or in OOS (R280). -/
def State.grpAnWrite (s : State) (a : Acs) (fs : List Fld) (g w : Nat) : State × Nat :=
  let on := s.on F.SDS_GRP_CTL_EN g || s.grpState g == Grp.stopping || s.on F.SDS_GRP_CTL_OOS g
  let r := s.fieldWrite (fun _ => on) inRange fs g w
  r.1.conclude a r.2

/-- MAC_CNT_ACK of port `p`. -/
def State.macAck (s : State) (p : Nat) : State := s.rstFlds macCounters p

/-! ### ESMC (R272, R273, Table ETH-5) -/

/-- The index of an SSM code, and of an enhanced one when there is one (Table ETH-5); a code not in the table maps to 1. -/
def qlIndex (optII : Bool) (ssm : Nat) (essm : Option Nat) : Nat :=
  if optII then
    if ssm = 0xA ∨ ssm = 0xE then 2 else if ssm = 0xD then 4 else if ssm = 0x7 ∨ ssm = 0x4 then 5 else if ssm = 0x1 then 6 else 1
  else match ssm, essm with
    | 0xB, some 0x22 => 3
    | 0x2, some 0x23 => 7
    | 0x2, some 0x20 => 8
    | 0x2, some 0x21 => 9
    | 0xB, _ => 2
    | 0x8, _ => 4
    | 0x4, _ => 5
    | 0x2, _ => 6
    | _, _ => 1

/-- The SSM code and enhanced code sent for an index; none where Table ETH-5 gives no code. -/
def qlCode (optII : Bool) (q : Nat) : Option (Nat × Nat) :=
  if optII then
    (match q with | 1 => some 0xF | 2 => some 0xA | 4 => some 0xD | 5 => some 0x7 | 6 => some 0x1 | _ => none).map (fun c => (c, 0xFF))
  else match q with
    | 1 => some (0xF, 0xFF)
    | 2 => some (0xB, 0xFF)
    | 3 => some (0xB, 0x22)
    | 4 => some (0x8, 0xFF)
    | 5 => some (0x4, 0xFF)
    | 6 => some (0x2, 0xFF)
    | 7 => some (0x2, 0x23)
    | 8 => some (0x2, 0x20)
    | 9 => some (0x2, 0x21)
    | _ => none

/-- A frame is an ESMC PDU: slow protocols, subtype 0x0A, ITU-T OUI (R272). -/
def isEsmc (l : List Nat) : Bool := be l 12 2 == 0x8809 && be l 14 1 == 0x0A && be l 15 3 == 0x0019A7

/-- QL_RX of group `g` becomes `q`: a change is counted and raises FS 103 (R272). -/
def State.setQlRx (s : State) (g q : Nat) : State :=
  if s.rd F.SDS_GRP_QL_QL_RX g = q then s
  else ((s.wr F.SDS_GRP_QL_QL_RX q g).inc F.SDS_GRP_CNT_QL_CHG g).raise 103 (g + q * 256)

/-- An ESMC PDU arrives on port `p` (R272): the QL TLV at byte 24, the extended one at byte 28 when it is present. -/
def State.esmcRx (s : State) (p : Nat) (l : List Nat) : State :=
  let g := p / 4
  if s.rclkPort g ≠ p ∨ be l 24 1 ≠ 1 then s else
  let essm := if be l 28 1 = 2 then some (be l 31 1) else none
  (s.wr F.SDS_GRP_QL_RX_TIMEOUT 0 g).setQlRx g (qlIndex (s.on F.SDS_GRP_QL_OPT_II g) (be l 27 1 % 16) essm)

/-- `ESMC_RX`: an ESMC PDU is received on port `p`. -/
def execEsmcRx (p : Nat) (f : RxFrame) (s : State) : Host.Outcome State Fault Refusal :=
  if p < 32 ∧ s.portState p = Port.up ∧ f.fcsOk ∧ isEsmc f.bytes then done (s.esmcRx p f.bytes) else done s

/-- `ESMC_TIMEOUT`: no information PDU for group `g` for 5 s. -/
def execEsmcTimeout (g : Nat) (s : State) : Host.Outcome State Fault Refusal :=
  if 8 ≤ g then done s else
  let s := s.wr F.SDS_GRP_QL_RX_TIMEOUT 1 g
  if s.rd F.SDS_GRP_QL_QL_RX g = 1 then done (s.raise 103 (g + 256)) else done (s.setQlRx g 1)

/-- The index that group `g` sends (R273); index 1 in safe state (R524). -/
def State.qlTx (s : State) (g : Nat) : Nat :=
  if s.on F.TOP_STAT_SAFE then 1
  else if s.rd F.SDS_GRP_QL_TX_MODE g = 1 then s.rd F.SDS_GRP_QL_QL_FIXED g
  else if s.slotState (12 + g) = Slot.member ∨ s.on F.SDS_GRP_STAT_TX_REF_ACT g then 1
  else if s.domState 0 = DomSt.locked then s.rd F.SDS_GRP_QL_QL_LOCKED g
  else if s.domState 0 = DomSt.holdover then s.rd F.SDS_GRP_QL_QL_HOLD g
  else 1

/-- The ESMC PDU of port `p` with SSM `c` and enhanced code `e`; the extended TLV when ENH = 1. -/
def State.esmcPdu (s : State) (p c e : Nat) (event : Bool) : List Nat :=
  let head := beBytes 6 0x0180C2000002 ++ beBytes 6 (s.macAddr p) ++ beBytes 2 0x8809 ++ [0x0A] ++ beBytes 3 0x0019A7 ++
    beBytes 2 1 ++ [0x10 + (if event then 8 else 0), 0, 0, 0]
  let tlv := [1, 0, 4, c % 16]
  let ext := if s.on F.SDS_GRP_QL_ENH (p / 4) then [2, 0, 0x14, e % 256] ++ List.replicate 16 0 else []
  padTo 60 (head ++ tlv ++ ext)

/-- `ESMC_TX`: group `g` sends its information PDU, or an event PDU after a change, on every UP port. -/
def execEsmcTx (g : Nat) (event : Bool) (s : State) : Host.Outcome State Fault Refusal :=
  if 8 ≤ g ∨ s.rd F.SDS_GRP_QL_TX_MODE g = 0 then done s else
  let q := s.qlTx g
  let s := s.wr F.SDS_GRP_QL_QL_TX q g
  let r := match qlCode (s.on F.SDS_GRP_QL_OPT_II g) q with
    | some c => (c, s)
    | none => ((s.draw.1 % 16, s.draw.1 / 16 % 256), s.draw.2)
  done (forN 4 r.2 (fun s i =>
    if s.portState (4 * g + i) = Port.up then s.sendFrame (4 * g + i) (s.esmcPdu (4 * g + i) r.1.1 r.1.2 event) else s))

/-! ### What the ports and lanes report for a beat -/

/-- Codewords of a beat: port, corrected, uncorrectable; FS 99 when more than FEC_THR are uncorrectable. -/
def State.fecBeat (s : State) (q : Nat × Nat × Nat) : State :=
  if 32 ≤ q.1 then s else
  let s := (s.inc F.MAC_CNT_FEC_CORR_FEC_CORR q.1 q.2.1).inc F.MAC_CNT_FEC_UNCORR_FEC_UNCORR q.1 q.2.2
  if s.inF F.MAC_FEC_THR_FEC_THR q.1 < q.2.2 then s.raise 99 q.1 else s

/-- No checker is taken to be locked before the lanes of a beat report. -/
def State.prbsUnlock (s : State) : State := s.rstAll F.SDS_LN_STAT_PRBS_LOCK 32

/-- A beat's report of a lane that checks a pattern and is locked to it (R279): lane, bit errors. -/
def State.prbsBeat (s : State) (q : Nat × Nat) : State :=
  if 32 ≤ q.1 ∨ s.grpState (q.1 / 4) ≠ Grp.oos ∨ !s.on F.SDS_LN_CTL_PRBS_RX q.1 then s else
  let s := s.wr F.SDS_LN_STAT_PRBS_LOCK 1 q.1
  if q.2 = 0 then s else (s.inc F.SDS_LN_PRBS_ERR_ERRORS q.1 q.2).raise 108 q.1

end Sys2Proof.Machine
end

