-- ==== Sys2Proof/Machine/Pm.lean ====
section
/-! DEFINITION. Postmarks and timed launch (spec/08_postmarks_timed_launch.md): stamps, Postmark rings, one-step fields and the launch
queues. -/
namespace Sys2Proof.Machine

/-! ### Classes, domains and stamps (R21, R283) -/

namespace Cls
def ptp0 : Nat := 0
def ptp1 : Nat := 1
def ntp : Nat := 2
def nts : Nat := 3
def pmRx : Nat := 4
def pmTx : Nat := 5
def launch : Nat := 6
end Cls

/-- The domain that class `c` maps to (R21). -/
def State.classDom (s : State) (c : Nat) : Nat := bits (s.rd F.RIDGE_CLASS_ACT_MAP) c 1

/-- The unit interval of rate code `rate` in ru (R283). -/
def unitRu (rate : Nat) : Rat :=
  if rate ≤ 1 then 65536 / (2578125 / 100000) else if rate = 2 then 65536 / (103125 / 10000) else 65536 / (125 / 100)

/-- One byte on the wire at rate code `rate`, in ru. -/
def byteRu (rate : Nat) : Rat := 8 * 65536 / ([100, 25, 10, 1].getD rate 1 : Nat)

/-- The stamp of a reference start that lies `d` ru from now in domain `dom`: on the nearest CCLK tick while the measurement PLL is
not locked (R286). -/
def State.refStamp (s : State) (dom : Nat) (d : Int) : Rat :=
  let c : Rat := s.count dom
  if s.on F.TDC_STAT_MEAS_LOCK then c + d
  else
    let a := ru40 ((s.dom dom).addend : Nat)
    c + roundRat ((d : Rat) / a) * a

/-- A stamp as a Ridge count. -/
def ruWord (q : Rat) : Nat := ofS 64 (roundRat q)

/-- The skew term of lane `l` of port `p`: 0 on a single-lane port (Table PM-1). -/
def State.skewTerm (s : State) (p l : Nat) (f : Fld) : Int :=
  if s.rd F.SDS_GRP_STAT_MODE_RES (p / 4) = 0 then s.rdS f l else 0

/-- STAMP of a received frame in domain `dom` (Table PM-1). -/
def State.rxStamp (s : State) (p dom : Nat) (f : RxFrame) : Nat :=
  ruWord (s.refStamp dom (-(f.back : Int)) + s.skewTerm p f.lane F.PM_LN_RXSKEW_VALUE + f.pos * unitRu (s.rd F.MAC_STAT_RATE p) -
    s.rdS F.PM_LN_RXLAT_VALUE f.lane + s.rdS F.PM_RX_OFS_OFS p)

/-- STAMP of a frame that is sent in domain `dom` (Table PM-1). -/
def State.txStamp (s : State) (p dom : Nat) (t : TxPlace) : Nat :=
  ruWord (s.refStamp dom t.ahead + s.skewTerm p t.lane F.PM_LN_TXSKEW_VALUE + t.pos * unitRu (s.rd F.MAC_STAT_RATE p) +
    s.rdS F.PM_LN_TXLAT_VALUE t.lane + s.rdS F.PM_TX_OFS_OFS p)

/-! ### Postmark rings (R288 to R293, Table PM-3) -/

/-- A Postmark before it is numbered. -/
structure Postmark where
  stamp : Nat
  id : Nat
  delta : Int
  frame : List Nat
  entry : Nat
  lane : Nat
  fecLane : Nat
  pos : Nat
  kind : Nat
  dom : Nat
  corrOld : Bool
  oneStep : Bool
  step : Bool
  port : Nat

/-- Bytes 16 to 19 of a Postmark: the PTP fields, when the frame carries a PTP message. -/
def ptpWord (l : List Nat) : Nat :=
  match ptpOf l with
  | some h => be l (h.2 + 30) 2 * 2 ^ 16 + be l (h.2 + 4) 1 * 2 ^ 8 + be l h.2 1 % 16 * 2 ^ 4 + 1
  | none => 0

/-- Group `g`'s ring without a register. -/
def State.pmg (s : State) (g : Nat) : PmSt := s.eth.pm.getD g {}
def State.setPmg (s : State) (g : Nat) (x : PmSt) : State := { s with eth := { s.eth with pm := s.eth.pm.set g x } }

/-- The ring of group `g` has no space. -/
def State.pmFull (s : State) (g : Nat) : Bool :=
  4096 ≤ ptrUsed 12 12 (s.rd F.PM_RING_RD_PTR g) (s.rd F.PM_RING_WR_PTR g)

/-- A Postmark is due on group `g`'s ring: written, or dropped and counted when the ring is full (R290, R292). -/
def State.postmark (s : State) (g : Nat) (m : Postmark) : State :=
  if !s.on F.PM_CTL_EN g then s else
  let x := s.pmg g
  let seq := (x.seq + 1) % 2 ^ 16
  if s.pmFull g then
    (((s.setPmg g { seq := seq, lost := x.lost + 1 }).inc F.PM_LOST_LOST g).wr F.PM_STAT_FULL 1 g).condOn 112 g
  else
    let wr := s.rd F.PM_RING_WR_PTR g
    let a := 0xC00000 + 0x20000 * g + 32 * ptrIdx 12 wr
    let w24 := m.lane % 64 * 2 ^ 24 + m.fecLane % 4 * 2 ^ 22 + m.pos % 2 ^ 22
    let coarse := !s.on F.TDC_STAT_MEAS_LOCK
    let w28 := m.kind % 16 * 2 ^ 28 + m.dom % 2 * 2 ^ 27 + m.corrOld.toNat * 2 ^ 26 + m.oneStep.toNat * 2 ^ 25 +
      coarse.toNat * 2 ^ 24 + m.step.toNat * 2 ^ 23 + m.port % 32 * 2 ^ 16 + seq
    let s := ((s.mwr a 8 m.stamp).mwr (a + 8) 4 m.id).mwr (a + 12) 4 (ofS 32 (satS 32 m.delta))
    let s := ((s.mwr (a + 16) 4 (ptpWord m.frame)).mwr (a + 20) 4 (satU 16 x.lost * 2 ^ 16 + m.entry % 2048)).mwr (a + 24) 4 w24
    let s := s.mwr (a + 28) 4 w28
    (s.setPmg g { seq := seq, lost := 0 }).wr F.PM_RING_WR_PTR (ptrNext 12 12 wr) g

/-- A write of PM_CTL[g] (R290, R309). -/
def State.pmCtlWrite (s : State) (a : Acs) (g w : Nat) : State × Nat :=
  let was := s.on F.PM_CTL_EN g
  let r := s.fieldWrite (fun f => was && f.no != F.PM_CTL_EN.no) inRange
    [F.PM_CTL_LQ_PM, F.PM_CTL_TX_HOST, F.PM_CTL_RX_SEL, F.PM_CTL_EN] g w
  let s := r.1
  let s := if s.on F.PM_CTL_EN g && !was then
      let s := (s.wr F.PM_RING_WR_PTR 0 g).wr F.PM_RING_RD_PTR 0 g
      (((s.wr F.PM_LOST_LOST 0 g).wr F.PM_STAT_FULL 0 g).condOff 112 g).setPmg g { s.pmg g with lost := 0 }
    else s
  s.conclude a r.2

/-- `PM_RING_ENABLE`: requester `req` writes PM_CTL[g] with EN = 1; `w` gives the other bits. -/
def execPmRingEnable (req g w : Nat) (s : State) : Host.Outcome State Fault Refusal :=
  if 8 ≤ g then done s else done (s.put ⟨req, 0x14800 + 0x20 * g, 2, true⟩ (fun s a => s.pmCtlWrite a g (setBit w 0 true))).1

/-- A write of PM_RING_RD[g] (R86, R290): space returns. -/
def State.pmRdWrite (s : State) (a : Acs) (g w : Nat) : State × Nat :=
  let r := s.fieldWrite noLock inRange [F.PM_RING_RD_PTR] g w
  let s := r.1
  let s := if s.pmFull g then s else (s.wr F.PM_STAT_FULL 0 g).condOff 112 g
  s.conclude a r.2

/-- `PM_RING_RD_WRITE`: requester `req` writes PM_RING_RD[g]. -/
def execPmRingRdWrite (req g w : Nat) (s : State) : Host.Outcome State Fault Refusal :=
  if 8 ≤ g then done s else done (s.put ⟨req, 0x14808 + 0x20 * g, 2, true⟩ (fun s a => s.pmRdWrite a g w)).1

/-! ### Frames for the host (R263, R288, R427) -/

/-- A received frame is delivered to the host: tags stripped, a Postmark when RX_SEL selects it. `ev` says that it is a PTP event
message not answered in hardware. -/
def State.deliverHost (s : State) (p : Nat) (f : RxFrame) (ev : Bool) : State :=
  let tags := tagsOf f.bytes
  let strip := s.on F.MAC_CTL_TAG_STRIP p && tags.length ≤ 2
  let outer := if strip then (tags[0]?).map (fun t => t.2) else none
  let inner := if strip && s.on F.MAC_CTL_QINQ p then (tags[1]?).map (fun t => t.2) else none
  let n := outer.isSome.toNat + inner.isSome.toNat
  let bytes := f.bytes.take 12 ++ f.bytes.drop (12 + 4 * n)
  let g := p / 4
  let sel := s.rd F.PM_CTL_RX_SEL g
  let pm := s.on F.PM_CTL_EN g && (sel == 2 || (sel == 1 && ev))
  let id := (s.prt p).seq
  let room := s.rxFill p + bytes.length ≤ 65536
  let s := s.bufferFrame p ⟨p, bytes, outer, inner, ev, pm, id⟩
  if pm && room then
    let dom := s.classDom Cls.pmRx
    s.postmark g ⟨s.rxStamp p dom f, id, 0, f.bytes, 0, f.lane, f.fecLane, f.pos, 0, dom, (s.lane f.lane).reload, false, false, p⟩
  else s

/-! ### TAI - UTC and leap events of a PTE instance (R326, R348) -/

/-- TAI - UTC now, after the announced event, whether one is announced, and its UTC day since 1970, as instance `u` selects them. -/
def State.utcSource (s : State) (u : Nat) : Nat × Nat × Bool × Nat :=
  if s.inF F.PTE_I_UTC_SRC u = 0 then
    (s.rd F.GNSS_UTC_TAI_UTC, s.rd F.GNSS_UTC_TAI_UTC_NEXT, s.on F.GNSS_UTC_PEND && s.on F.GNSS_UTC_DAY_DAY, s.rd F.GNSS_UTC_DAY_DAY)
  else
    let day := s.inF F.PTE_I_UTCDAY_HOST_DAY u
    (s.inF F.PTE_I_UTC_HOST_OFS u, s.inF F.PTE_I_UTC_HOST_NEXT u, s.inF F.PTE_I_UTC_HOST_PEND u != 0 && day != 0, day)

/-- The leap instant as an epoch time: the UTC day ends where the inserted second starts, or where the deleted one would. -/
def leapInstant (x : Nat × Nat × Bool × Nat) : Int := (((x.2.2.2 + 1) * 86400 + min x.1 x.2.1 : Nat) : Int) * ruSecond

/-- TAI - UTC at the epoch time `e`: the new offset from the leap instant on. -/
def State.taiUtc (s : State) (u : Nat) (e : Int) : Nat :=
  let x := s.utcSource u
  if x.2.2.1 && decide (leapInstant x ≤ e) then x.2.1 else x.1

/-- The leap flag at the epoch time `e`: 1 for an insertion and 2 for a deletion in the last LEAP_WIN hours before it, else 0. -/
def State.leapFlag (s : State) (u : Nat) (e : Int) : Nat :=
  let x := s.utcSource u
  let t := leapInstant x
  if x.2.2.1 && decide (e < t) && decide (t - (s.inF F.PTE_I_UTC_LEAP_WIN u * 3600 : Nat) * (ruSecond : Int) ≤ e) then
    (if x.1 < x.2.1 then 1 else if x.2.1 < x.1 then 2 else 0)
  else 0

/-! ### One-step fields (R294, R295, Table PM-4) -/

/-- Epoch time of the count `c` of domain `dom` in ru. -/
def State.epochRu (s : State) (dom c : Nat) : Int := s.epochOf dom c

/-- Seconds, nanoseconds and the remaining ru of an epoch time. -/
def splitEpoch (e : Int) : Nat × Nat × Nat :=
  let n := e.toNat
  (n / ruSecond, n % ruSecond / 65536, n % 65536)

/-- An epoch time as an NTP timestamp: seconds since 1900 of UTC, `leap` being TAI - UTC, and a fraction of 2^-32 s, rounded down. -/
def ntpStamp (e : Int) (leap : Nat) : Nat :=
  let n := (e - (leap : Int) * ruSecond).toNat
  (n / ruSecond + 2208988800) % 2 ^ 32 * 2 ^ 32 + n % ruSecond * 2 ^ 32 / ruSecond

/-- The frame `l` with its own stamp `c` written in format `fmt` at `o` (Table PM-4). -/
def State.writeStamp (s : State) (fmt o dom c : Nat) (l : List Nat) : List Nat :=
  let t := splitEpoch (s.epochRu dom c)
  if fmt = 1 then
    let l := putBe l (o + 34) 6 t.1
    let l := putBe l (o + 40) 4 t.2.1
    putBe l (o + 8) 8 (be l (o + 8) 8 + t.2.2)
  else if fmt = 2 then
    let e := s.epochRu dom c
    putBe l o 8 (ntpStamp e (s.taiUtc (s.inF F.FRANK_NTP_CTL_UTC_INST) e))
  else if fmt = 3 then overlay l o (leBytes 8 c)
  else l

/-- The frame with its one-step field written and its checksum handled as `csum` at `cofs` says (R295). -/
def State.oneStep (s : State) (fmt o csum cofs dom c : Nat) (l : List Nat) : List Nat :=
  let l' := s.writeStamp fmt o dom c l
  if fmt = 0 ∨ csum = 0 then l'
  else if csum = 1 then putBe l' cofs 2 0
  else
    let a := (if fmt = 1 then o + 8 else o) / 2 * 2
    let part := fun (x : List Nat) => (x.drop a).take 38
    putBe l' cofs 2 (fixSum (be l cofs 2) (part l) (part l'))

/-! ### The launch queues (R297 to R307, Table PM-5) -/

/-- The bytes of the frame of an entry, as they stand in the launch buffer. -/
def State.lqFrame (s : State) (g k : Nat) : List Nat :=
  let o := 0xD80000 + 0x40000 * g + bits (s.lqw g k 8) 0 18
  (List.range (s.lqLen g k)).map (fun i => (memGet s.mem (o + i)).toNat)

/-- The entry passes the checks of R298. -/
def State.lqAccepts (s : State) (g k : Nat) : Bool :=
  let len := s.lqLen g k
  let p := s.lqPort g k
  let w20 := s.lqw g k 20
  let fmt := bits w20 16 2
  let csum := bits w20 18 2
  let o := bits w20 0 16
  let cofs := bits (s.lqw g k 12) 16 16
  let osEnd := if fmt = 0 then 0 else if fmt = 1 then o + 44 else o + 8
  let csEnd := if csum = 0 then 0 else cofs + 2
  s.rd F.LQ_STAT_STATE g == 1 && 60 ≤ len && len ≤ 9596 && len + 4 ≤ s.rd F.MAC_CTL_MAXF p &&
  bits (s.lqw g k 8) 0 18 + len ≤ 0x40000 && osEnd ≤ len && csEnd ≤ len && csum != 3 &&
  (csum != 1 || etherType (s.lqFrame g k) == 0x0800) && !s.portAbsent p &&
  ridgeDist (s.lqTarget g k) (s.count (s.classDom Cls.launch)) != -(2 ^ 63 : Nat)

/-- A Postmark is due for the entry (R288). -/
def State.lqMarked (s : State) (g k : Nat) : Bool := s.on F.PM_CTL_LQ_PM g || bit (s.lqCtl g k) 29

/-- An entry is dropped: counted, with its LAUNCH_DROP Postmark, and `fs` raised (R302, R303). -/
def State.lqDrop (s : State) (g k fs : Nat) : State :=
  let dom := s.lqDom g k
  let c := s.count dom
  let s := (s.inc F.LQ_DROP_COUNT g).raise fs
  let s := if s.lqMarked g k then
      s.postmark g ⟨c, s.lqw g k 16, ridgeDist c (s.lqTarget g k), s.lqFrame g k, k, 0, 0, 0, 3, dom, false, false, false, s.lqPort g k⟩
    else s
  s.lqEnd g k Lq.dropped (ridgeDist c (s.lqTarget g k))

/-- The device arms slot `k` of queue `g`, or rejects it (R298). `w` is the CTL word written. -/
def State.lqArm (s : State) (g k w : Nat) : State :=
  let base := bits w 29 2 * 2 ^ 29
  let s := s.setLqCtl g k base
  if s.lqAccepts g k then
    let s := s.setLqCtl g k (base + 2 ^ 31 + s.classDom Cls.launch * 2 ^ 28)
    ({ s with eth := { s.eth with armed := s.eth.armed.filter (fun e => e != (g, k)) ++ [(g, k)] } }).showLq g
  else (s.raise 116).lqEnd g k Lq.rejected 0

/-- The RW bits of each word of a launch entry (Table PM-5). -/
def lqMask (o : Nat) : Nat := if o = 8 then 2 ^ 18 - 1 else if o = 20 then 2 ^ 20 - 1 else if o = 24 then 0 else 2 ^ 32 - 1

/-- A 32-bit write at byte `o` of slot `k` of queue `g` (R298, R299). The second part is the code of the access. -/
def State.lqWrite (s : State) (g k o w : Nat) : State × Nat :=
  if o = 28 then
    if bit w 31 then
      if s.isCommitted g k then (s, Code.cfgLocked) else (s.lqArm g k w, Code.ok)
    else if s.isCommitted g k then (s, Code.cfgLocked)
    else if s.isArmed g k then (s.lqEnd g k Lq.cancelled 0, Code.ok)
    else (s.setLqCtl g k (setBits (s.lqCtl g k) 29 2 (bits w 29 2)), Code.ok)
  else if s.isArmed g k then (s, Code.cfgLocked)
  else if o = 24 then (s, Code.ok)
  else (s.mwr (lqAddr g k + o) 4 (Nat.land w (lqMask o)), Code.ok)

/-- The access that writes byte `o` of slot `k` of queue `g`, concluded. -/
def State.lqAccess (s : State) (a : Acs) (g k o w : Nat) : State × Nat :=
  let r := s.lqWrite g k o w
  r.1.conclude a (if r.2 = Code.ok then [] else [r.2])

/-- `LAUNCH_ARM`: the CTL word of slot `k` of queue `g` is written with VALID = 1; `w` gives LATE_ACT and PM. -/
def execLaunchArm (req g k w : Nat) (s : State) : Host.Outcome State Fault Refusal :=
  if 8 ≤ g ∨ 2048 ≤ k then done s else
  done (s.put ⟨req, lqAddr g k + 28, 2, true⟩ (fun s a => s.lqAccess a g k 28 (setBit w 31 true))).1

/-- `LAUNCH_CANCEL`: the CTL word of slot `k` of queue `g` is written with VALID = 0. -/
def execLaunchCancel (req g k w : Nat) (s : State) : Host.Outcome State Fault Refusal :=
  if 8 ≤ g ∨ 2048 ≤ k then done s else
  done (s.put ⟨req, lqAddr g k + 28, 2, true⟩ (fun s a => s.lqAccess a g k 28 (setBit w 31 false))).1

/-- The time in ru from now until the frame whose timestamp point is planned for the count `st` must start: preamble and delimiter
are eight bytes. -/
def State.lqStart (s : State) (p dom : Nat) (st : Int) : Rat :=
  (ridgeDist (ofS 64 st) (s.count dom) : Rat) - 8 * byteRu (s.rd F.MAC_STAT_RATE p)

/-- The entry may start at the count `st` (R302): 1 µs is left to its start, and the previous launch frame and its gap have ended. -/
def State.lqOnTime (s : State) (p dom : Nat) (st : Int) : Bool :=
  let lead := s.lqStart p dom st
  decide (65536000 ≤ lead) &&
    (match (s.prt p).lastEnd with
     | some e => decide ((ridgeDist e (s.count dom) : Rat) ≤ lead)
     | none => true)

/-- `LAUNCH_COMMIT`: slot `k` of queue `g` is committed; `delta` is where the nearest permissible position lies from the target, and
`early` the earliest position, both in ru; `place` says which lane and bit carry the timestamp point. -/
def execLaunchCommit (g k : Nat) (delta early : Int) (place : TxPlace) (s : State) : Host.Outcome State Fault Refusal :=
  if !s.isArmed g k ∨ s.isCommitted g k then done s else
  let t : Int := s.lqTarget g k
  let p := s.lqPort g k
  let dom := s.lqDom g k
  let late := !s.lqOnTime p dom (t + delta)
  if late ∧ !(bit (s.lqCtl g k) 30 ∧ early ≤ (s.rd F.LQ_CTL_LATE_MAX g * 65536 : Nat)) then done (s.lqDrop g k 114)
  else
    let st := t + (if late then early else delta)
    let w20 := s.lqw g k 20
    let l := s.oneStep (bits w20 16 2) (bits w20 0 16) (bits w20 18 2) (bits (s.lqw g k 12) 16 16) dom (ofS 64 st) (s.lqFrame g k)
    let s := s.setLqCtl g k (setBit (s.lqCtl g k) 27 true)
    let stop := ofS 64 (roundRat ((st : Rat) + (l.length + 4 + 12 : Nat) * byteRu (s.rd F.MAC_STAT_RATE p)))
    let s := s.setPrt p { s.prt p with lastEnd := some stop }
    done { s with eth := { s.eth with
      commits := s.eth.commits ++ [⟨g, k, l, st, place, false, false, late⟩] } }

/-- The commit of an entry becomes `c`. -/
def State.setCommit (s : State) (c : Launch) : State :=
  { s with eth := { s.eth with commits := s.eth.commits.map (fun x => if x.group == c.group && x.slot == c.slot then c else x) } }

/-- `LAUNCH_SEND`: the frame of slot `k` of queue `g` starts, or its port is not UP (R303). -/
def execLaunchSend (g k : Nat) (s : State) : Host.Outcome State Fault Refusal :=
  match s.lqCommit g k with
  | none => done s
  | some c =>
    if c.started then done s
    else if s.portSends (s.lqPort g k) then done ((s.setCommit { c with started := true }).sendFrame (s.lqPort g k) c.bytes)
    else done (s.lqDrop g k 115)

/-- `LAUNCH_END`: the launch frame of slot `k` of queue `g` has left (R304). -/
def execLaunchEnd (g k : Nat) (s : State) : Host.Outcome State Fault Refusal :=
  match s.lqCommit g k with
  | none => done s
  | some c =>
    if !c.started then done s else
    let p := s.lqPort g k
    let dom := s.lqDom g k
    let delta := ridgeDist (ofS 64 c.stamp) (s.lqTarget g k)
    let s := if c.late then (s.inc F.LQ_LATE_COUNT g).raise 113 (g + k * 256) else s.inc F.LQ_SENT_COUNT g
    let os := bits (s.lqw g k 20) 16 2 != 0
    let s := if s.lqMarked g k then
        s.postmark g ⟨ofS 64 c.stamp, s.lqw g k 16, delta, c.bytes, k, c.place.lane, c.place.fecLane, c.place.pos, 2, dom,
          (s.lane c.place.lane).reload, os, c.step, p⟩
      else s
    done (s.lqEnd g k (if c.late then Lq.sentLate else Lq.sent) delta)

/-- On a step of domain `d`, armed entries of it are planned anew, and a frame on the wire carries STEP (R305). -/
def State.launchReplan (s : State) (d : Nat) : State :=
  let mine := fun c : Launch => s.lqDom c.group c.slot == d
  let back := s.eth.commits.filter (fun c => mine c && !c.started)
  let s := back.foldl (fun s c => s.setLqCtl c.group c.slot (setBit (s.lqCtl c.group c.slot) 27 false)) s
  let s := back.foldl (fun s c => let p := s.lqPort c.group c.slot
                                  s.setPrt p { s.prt p with lastEnd := none }) s
  { s with eth := { s.eth with
    commits := (s.eth.commits.filter (fun c => !(mine c && !c.started))).map (fun c => if mine c then { c with step := true } else c) } }

/-- Queue `g` starts: its counters clear. -/
def State.lqRun (s : State) (g : Nat) : State :=
  (((s.wr F.LQ_SENT_COUNT 0 g).wr F.LQ_LATE_COUNT 0 g).wr F.LQ_DROP_COUNT 0 g).wr F.LQ_STAT_STATE 1 g

/-- A write of LQ_CTL[g] (R307, R309). -/
def State.lqCtlWrite (s : State) (a : Acs) (g w : Nat) : State × Nat :=
  let was := s.on F.LQ_CTL_EN g
  let r := s.fieldWrite (fun f => (was || s.rd F.LQ_STAT_STATE g == 2) && f.no != F.LQ_CTL_EN.no) inRange [F.LQ_CTL_LATE_MAX, F.LQ_CTL_EN] g w
  let s := r.1
  let now := s.on F.LQ_CTL_EN g
  let st := s.rd F.LQ_STAT_STATE g
  let s :=
    if now && !was then (if st = 2 then s.wr F.LQ_STAT_PENDING_ENABLE 1 g else s.lqRun g)
    else if was && !now then
      if st = 2 then s.wr F.LQ_STAT_PENDING_ENABLE 0 g
      else
        let l := s.eth.armed.filter (fun e => e.1 == g && !s.isCommitted e.1 e.2)
        (l.foldl (fun s e => s.lqEnd e.1 e.2 Lq.cancelled 0) s).wr F.LQ_STAT_STATE 2 g
    else s
  s.conclude a r.2

/-- `LQ_DISABLE`: requester `req` writes LQ_CTL[g] with EN = 0; `w` gives the other bits. -/
def execLqDisable (req g w : Nat) (s : State) : Host.Outcome State Fault Refusal :=
  if 8 ≤ g then done s else done (s.put ⟨req, 0x14C00 + 0x20 * g, 2, true⟩ (fun s a => s.lqCtlWrite a g (setBit w 0 false))).1

/-- `LQ_STOP_DONE`: no committed entry of queue `g` is left; it becomes DISABLED, or starts again (R307). -/
def execLqStopDone (g : Nat) (s : State) : Host.Outcome State Fault Refusal :=
  if 8 ≤ g ∨ s.rd F.LQ_STAT_STATE g ≠ 2 ∨ s.eth.commits.any (fun c => c.group == g) then done s else
  let s := s.wr F.LQ_STAT_STATE 0 g
  if s.on F.LQ_STAT_PENDING_ENABLE g then done ((s.wr F.LQ_STAT_PENDING_ENABLE 0 g).lqRun g) else done s

end Sys2Proof.Machine
end

