-- ==== Sys2Proof/Machine/Slate.lean ====
section
/-! DEFINITION. Slates (spec/11_slates.md): key cells, attribute words, key commands and their application, orphans, re-masking,
tamper, and the write-once locks. -/
namespace Sys2Proof.Machine

/-! ### Tags -/

/-- The attribute word that the tag covers (R383): COMMIT, ORPHAN and GEN at 0. -/
def tagAttr (n usage : Nat) (klen noExport : Bool) (origin parent : Nat) : Nat :=
  2 ^ 31 + (if n < 16 then 2 ^ 30 else 0) + noExport.toNat * 2 ^ 29 + origin % 4 * 2 ^ 26 + usage % 8 * 2 ^ 23 +
    klen.toNat * 2 ^ 22 + parent % 256 * 2 ^ 8

/-- The integrity tag of a key of slate `n` under the attribute word `attr` (R383). -/
def slateTag (n attr : Nat) (key : List Nat) : Nat :=
  aesCmac (bytesOf 32 Config.tagKey) ([n] ++ leBytes 4 attr ++ key) / 2 ^ 96

/-- The tag that the active bank of slate `n` should carry. -/
def State.dueTag (s : State) (n : Nat) : Nat :=
  slateTag n (tagAttr n (s.rd F.SLATE_ATTR_USAGE n) (s.on F.SLATE_ATTR_KLEN n) (s.on F.SLATE_ATTR_NO_EXPORT n)
    (s.rd F.SLATE_ATTR_ORIGIN n) (s.rd F.SLATE_ATTR_PARENT n)) (s.slateKey n)

/-- A change of slate `n` is pending (R378). -/
def State.slatePending (s : State) (n : Nat) : Bool := s.slate.changes.any (fun c => c.slate == n)

/-- SLATE_PEND, PENDING and VALID_CNT follow. -/
def State.showSlates (s : State) : State :=
  let s := forN 8 s (fun s i =>
    s.wr F.SLATE_PEND_PEND ((idxs 32 (fun b => s.slatePending (32 * i + b))).map (fun b => 2 ^ b)).sum i)
  let s := s.wrB F.SLATE_STAT_PENDING (!s.slate.changes.isEmpty)
  s.wr F.SLATE_STAT_VALID_CNT (idxs 256 (fun n => s.on F.SLATE_ATTR_VALID n)).length

/-! ### Master keys (R356, R358) -/

/-- Master key `j` is usable: VALID, not ORPHAN, and its slate available for NTS cookies. -/
def State.mkeyUsable (s : State) (j : Nat) : Bool :=
  s.on F.FRANK_NTS_MKEY_CTL_VALID j && !s.on F.FRANK_NTS_MKEY_CTL_ORPHAN j &&
    s.slateUse (s.rd F.FRANK_NTS_MKEY_CTL_SLATE j) Usage.cookie true == Code.ok

/-- FS 130 is live while NTS is served and the current master key is not usable. -/
def State.showMkeys (s : State) : State := s.cond 130 (s.on F.FRANK_NTS_CTL_EN && !s.mkeyUsable 1)

/-- Master keys that name a slate of `l` become ORPHAN (R358, R391). -/
def State.orphanMkeys (s : State) (l : List Nat) : State :=
  (forN 3 s (fun s j => if s.on F.FRANK_NTS_MKEY_CTL_VALID j ∧ l.contains (s.rd F.FRANK_NTS_MKEY_CTL_SLATE j) then
    s.wr F.FRANK_NTS_MKEY_CTL_ORPHAN 1 j else s)).showMkeys

/-! ### Key commands (Table SLATE-4) -/

/-- A security event (Table SLATE-5). -/
def State.secEvent (s : State) (snap : Nat) : State := (s.inc F.SLATE_SEC_SEC_CNT).raise 144 snap

/-- USAGE and KLEN are allowed (R377, Table SLATE-2). -/
def usageOk (usage : Nat) (klen : Bool) : Bool := 1 ≤ usage && usage ≤ 5 && (klen || usage == 2)

/-- A slate that mirroring carries (R396). -/
def State.mirrored (s : State) (n : Nat) : Bool := 16 ≤ n && s.on F.SLATE_ATTR_VALID n && !s.on F.SLATE_ATTR_NO_EXPORT n

/-- A command accepted now would be applied at the following edge: less than 20 µs are left (R380). -/
def State.lateForEdge (s : State) : Bool :=
  decide (ridgeDist s.ridge.nextEdge (s.count 0) < 20000 * 65536)

/-- The new key `key` of slate `n` is written to the inactive bank with its tag, and the change waits for its edge (R380). -/
def State.acceptKey (s : State) (c : SlateChange) (key : List Nat) : State :=
  let tag := slateTag c.slate (tagAttr c.slate c.usage c.klen c.noExport c.origin c.parent) key
  let m := s.draw.1 % 2 ^ 256
  let s := s.draw.2.setBank c.slate (1 - s.activeBank c.slate) ⟨Nat.xor (natOf key) m, m, tag⟩
  let s := { s with slate := { s.slate with changes := s.slate.changes ++ [c] } }.showSlates
  if c.slate < 16 ∨ c.noExport then s else
  let attr := tagAttr c.slate c.usage c.klen c.noExport c.origin c.parent + (1 - s.activeBank c.slate) * 2 ^ 21 +
    (s.rd F.SLATE_ATTR_GEN c.slate + 1) % 256
  s.mirrorSlate c.slate false ((s.edgeBeat false + c.late.toNat) % 2 ^ 20) attr key

/-- What refuses a load, derivation or invalidation of slate `n` before its own checks (R379, R397); `mir` says that it names a
mirrored slate, or makes one. -/
def State.keyBarred (s : State) (n opcode : Nat) (mir : Bool) : Option (State × Nat) :=
  if (n < 16 ∧ s.on F.SLATE_LOCK_PERS_LOCK) ∨ (opcode = 1 ∧ s.on F.SLATE_LOAD_LOCK_LOAD_LOCK) then
    some (s.secEvent (opcode * 2 ^ 16), Code.cfgLocked)
  else if s.notHolder ∧ mir then some (s, Code.notTokenHolder)
  else none

/-- `SLATE_LOAD`: parameter word 0 and the key. -/
def execSlateLoad (c : CmdRef) (w0 : Nat) (buf : List Nat) (s : State) : Host.Outcome State Fault Refusal :=
  let n := bits w0 0 8
  let usage := bits w0 8 3
  let klen := bit w0 11
  let noExport := bit w0 12
  if !usageOk usage klen ∨ buf.length ≠ keyLen klen then done (s.finish c Code.badParam) else
  match s.keyBarred n 1 (s.mirrored n || (16 ≤ n && !noExport)) with
  | some r => done (r.1.finish c r.2)
  | none =>
    if s.slatePending n then done (s.finish c Code.busyRetry)
    else if n < 16 ∧ !s.on F.SLATE_STAT_ROOT_OK then done (s.finish c Code.keyUnavailable)
    else done (s.acceptKey ⟨c, n, false, usage, klen, noExport, 0, 0, s.lateForEdge⟩ (buf.map (fun b => b % 256)))

/-- `SLATE_DERIVE`: parameter words 0 and 1, and the label followed by the context (R377, R382). -/
def execSlateDerive (c : CmdRef) (w0 w1 : Nat) (buf : List Nat) (s : State) : Host.Outcome State Fault Refusal :=
  let n := bits w0 0 8
  let parent := bits w0 8 8
  let root := bit w0 16
  let usage := bits w0 17 3
  let klen := bit w0 20
  let noExport := bit w0 21
  let a := bits w1 0 6
  let b := bits w1 8 6
  if !usageOk usage klen ∨ a = 0 ∨ 32 < a ∨ 32 < b ∨ buf.length ≠ a + b then done (s.finish c Code.badParam) else
  match s.keyBarred n 2 (s.mirrored n || (16 ≤ n && !noExport) || (!root && s.mirrored parent)) with
  | some r => done (r.1.finish c r.2)
  | none =>
    if s.slatePending n ∨ (!root ∧ s.slatePending parent) then done (s.finish c Code.busyRetry)
    else if (root ∨ n < 16) ∧ !s.on F.SLATE_STAT_ROOT_OK then done (s.finish c Code.keyUnavailable)
    else if !root ∧ (!s.slateAvail parent ∨ parent = n) then done (s.finish c Code.keyUnavailable)
    else if !root ∧ s.rd F.SLATE_ATTR_USAGE parent ≠ Usage.derive then done (s.finish c Code.keyAttr)
    else
      let buf := buf.map (fun b => b % 256)
      let kin := if root then bytesOf 32 Config.rootKey else s.slateKey parent
      let key := kdf (bits w0 22 1) kin (buf.take a) (buf.drop a) (usage * 2 + klen.toNat) (keyLen klen)
      done (s.acceptKey ⟨c, n, false, usage, klen, noExport, if root then 2 else 1, if root then 0 else parent, s.lateForEdge⟩ key)

/-- `SLATE_INVALIDATE`: parameter word 0. -/
def execSlateInvalidate (c : CmdRef) (w0 : Nat) (s : State) : Host.Outcome State Fault Refusal :=
  let n := bits w0 0 8
  match s.keyBarred n 3 (s.mirrored n) with
  | some r => done (r.1.finish c r.2)
  | none =>
    if s.slatePending n then done (s.finish c Code.busyRetry)
    else
      let x : SlateChange := ⟨c, n, true, 0, false, false, 0, 0, s.lateForEdge⟩
      let mir := s.mirrored n
      let s := { s with slate := { s.slate with changes := s.slate.changes ++ [x] } }.showSlates
      done (if mir then s.mirrorSlate n true ((s.edgeBeat false + x.late.toNat) % 2 ^ 20)
        (s.rd F.SLATE_ATTR_GEN n) [] else s)

/-- `SLATE_KCV`: parameter word 0; the check value of the key in force (R387). -/
def execSlateKcv (c : CmdRef) (w0 : Nat) (s : State) : Host.Outcome State Fault Refusal :=
  let n := bits w0 0 8
  if !s.slateAvail n then done (s.finish c Code.keyUnavailable)
  else
    let l := Config.kcvBits (s.on F.SLATE_ATTR_KLEN n)
    let out := bytesOf 16 (aesCmac (s.slateKey n) (bytesOf 4 1 ++ [0x4B, 0x43, 0x56, 0x00, 0x00] ++ bytesOf 4 l))
    done (s.finish c Code.ok (natOf (out.take 3)))

/-! ### Application at the beat edge (R380, R388 to R391) -/

/-- Cells of slate `n` are to be zeroised: bank `b`, or both when it is 2; `r` completes then. -/
def State.queueZero (s : State) (n b : Nat) (r : Option CmdRef) : State :=
  { s with slate := { s.slate with zero := s.slate.zero ++ [⟨n, b, r⟩] } }

/-- An accepted load or derivation takes effect: one write of the attribute word flips COMMIT, sets VALID and advances GEN. -/
def State.commitKey (s : State) (c : SlateChange) : State :=
  let n := c.slate
  let s := if s.on F.SLATE_ATTR_VALID n then s.queueZero n (s.activeBank n) none else s
  let s := (s.wr F.SLATE_ATTR_VALID 1 n).wrB F.SLATE_ATTR_NO_EXPORT c.noExport n
  let s := (s.wr F.SLATE_ATTR_ORPHAN 0 n).wr F.SLATE_ATTR_ORIGIN c.origin n
  let s := (s.wr F.SLATE_ATTR_USAGE c.usage n).wrB F.SLATE_ATTR_KLEN c.klen n
  let s := (s.wr F.SLATE_ATTR_COMMIT (1 - s.activeBank n) n).wr F.SLATE_ATTR_PARENT c.parent n
  s.bump F.SLATE_ATTR_GEN n

/-- The inactive bank of slate `c.slate` carries the tag of its key under the new attribute word (R383). -/
def State.changeTagOk (s : State) (c : SlateChange) : Bool :=
  let b := s.bank c.slate (1 - s.activeBank c.slate)
  b.tag == slateTag c.slate (tagAttr c.slate c.usage c.klen c.noExport c.origin c.parent)
    (bytesOf (keyLen c.klen) (Nat.xor b.s0 b.s1))

/-- One change takes effect; the slates invalidated or replaced so far are the second part. -/
def State.applyChange (bad : List Nat) (r : State × List Nat) (c : SlateChange) : State × List Nat :=
  let s := r.1
  let n := c.slate
  if c.inval then
    (((s.wr F.SLATE_ATTR_VALID 0 n).wr F.SLATE_ATTR_USAGE 0 n).queueZero n 2 (some c.ref), r.2 ++ [n])
  else if bad.contains n ∨ !s.changeTagOk c then ((s.raise 147 n).finish c.ref Code.keyUnavailable, r.2)
  else
    let was := s.on F.SLATE_ATTR_VALID n
    ((s.commitKey c).finish c.ref Code.ok, if was then r.2 ++ [n] else r.2)

/-- The children of the slates `l` become orphans, and theirs in turn, through at most `fuel` generations (R390). The answer adds the
new orphans to `seen`. -/
def State.orphan : Nat → State → List Nat → List Nat → State × List Nat
  | 0, s, _, seen => (s, seen)
  | fuel + 1, s, l, seen =>
    let new := idxs 256 (fun n => s.slateAvail n && s.rd F.SLATE_ATTR_ORIGIN n == 1 && l.contains (s.rd F.SLATE_ATTR_PARENT n))
    if new.isEmpty then (s, seen) else
    let s := new.foldl (fun s n => (s.wr F.SLATE_ATTR_ORPHAN 1 n).raise 149 n) s
    State.orphan fuel s new (seen ++ new)

/-- The accepted changes that are due take effect in their order, then the orphans (R380, R390); `bad` lists slates whose new bank fails
its check. -/
def State.applySlates (s : State) (bad : List Nat) : State :=
  let due := s.slate.changes.filter (fun c => !c.late)
  let rest := (s.slate.changes.filter (fun c => c.late)).map (fun c => { c with late := false })
  let failed := s.slate.failed
  let s := { s with slate := { s.slate with changes := rest, failed := [] } }
  let r := due.foldl (State.applyChange bad) (s, failed)
  let o := State.orphan 256 r.1 r.2 r.2
  (o.1.orphanMkeys o.2).showSlates

/-- `SLATE_APPLY`: the accepted changes are applied at the beat edge; `bad` lists slates whose new bank fails its tag check. -/
def execSlateApply (bad : List Nat) (s : State) : Host.Outcome State Fault Refusal := done (s.applySlates bad)

/-- Bank `b` of slate `n` is in use by an admitted answer; both banks when `b` is 2. -/
def State.bankInUse (s : State) (n b : Nat) : Bool :=
  s.frank.answers.any (fun a => a.uses.any (fun u => u.1 == n && (b == 2 || u.2 == b)))

/-- `SLATE_ZEROISE`: the cells of slate `n` that wait to be zeroised are, unless an operation admitted before the edge still uses them,
and the invalidations behind them complete (R389). -/
def execSlateZeroise (n : Nat) (s : State) : Host.Outcome State Fault Refusal :=
  let go := fun (z : Zeroise) => z.slate == n && !s.bankInUse n z.bank
  let l := s.slate.zero.filter go
  let s := { s with slate := { s.slate with zero := s.slate.zero.filter (fun z => !go z) } }
  done (l.foldl (fun s z =>
    let s := if z.bank = 2 then (s.setBank n 0 {}).setBank n 1 {} else s.setBank n z.bank {}
    match z.ref with
    | some r => s.finish r Code.ok
    | none => s) s)

/-! ### The re-mask pass (R386) -/

/-- Both banks of slate `n` take a fresh mask. -/
def State.remaskBanks (s : State) (n : Nat) : State :=
  let mask := fun (s : State) (b : Nat) =>
    let m := s.draw.1 % 2 ^ 256
    let x := s.bank n b
    s.draw.2.setBank n b { x with s0 := Nat.xor x.s0 m, s1 := Nat.xor x.s1 m }
  mask (mask s 0) 1

/-- Slate `n` is re-masked and its tag checked; `bad` says that its cells have changed. -/
def State.remaskSlate (bad : List Nat) (s : State) (n : Nat) : State :=
  let s := s.remaskBanks n
  if bad.contains n ∨ (s.bank n (s.activeBank n)).tag ≠ s.dueTag n then
    let s := (s.wr F.SLATE_ATTR_VALID 0 n).raise 147 n
    { s with slate := { s.slate with failed := s.slate.failed ++ [n] } }.showMkeys
  else s

/-- A pass of `us` µs over every VALID slate. -/
def State.remask (s : State) (bad : List Nat) (us : Nat) : State :=
  let l := idxs 256 (fun n => s.on F.SLATE_ATTR_VALID n)
  ((l.foldl (State.remaskSlate bad) s).bump F.SLATE_STAT_REMASK_SEQ).wrSat F.SLATE_REMASK_LAST us |>.showSlates

/-- The running re-mask activity does its pass and ends, with the count of slates as its result (R575). -/
def State.remaskEnd (s : State) (bad : List Nat) (us : Nat) : State :=
  let n := (idxs 256 (fun n => s.on F.SLATE_ATTR_VALID n)).length
  (s.remask bad us).endEntry (quietGroup Act.remask 0) Code.ok n 0 true

/-- `REMASK_PASS`: a running re-mask ends; or beat 256 of a second starts one, which runs when the key group is free. `bad` lists slates
whose cells have changed; `us` is the pass's duration in µs. -/
def execRemaskPass (bad : List Nat) (us : Nat) (s : State) : Host.Outcome State Fault Refusal :=
  let q := quietGroup Act.remask 0
  if s.isRunning Act.remask 0 then done (s.remaskEnd bad us)
  else if !s.pins.ready then done s
  else if !s.on F.FRANK_STAT_DRBG_OK then done ((s.inc F.SLATE_REMASK_SKIPPED).raise 148)
  else
    let s := (s.enqueue Act.remask 0 true []).1
    match s.startable q with
    | some e => if e.act = Act.remask then done ((s.startEntry q e).remaskEnd bad us) else done s
    | none => done s

/-! ### Tamper (R393, R394) -/

/-- Slate `n` is erased: both banks to zero and its attribute word to the reset value. -/
def State.eraseSlate (s : State) (n : Nat) : State :=
  ((s.setBank n 0 {}).setBank n 1 {}).rstFlds
    [F.SLATE_ATTR_VALID, F.SLATE_ATTR_NO_EXPORT, F.SLATE_ATTR_ORPHAN, F.SLATE_ATTR_ORIGIN, F.SLATE_ATTR_USAGE, F.SLATE_ATTR_KLEN,
     F.SLATE_ATTR_COMMIT, F.SLATE_ATTR_PARENT, F.SLATE_ATTR_GEN] n

/-- Answers that use a slate are abandoned and counted (R393). -/
def State.abandonAnswers (s : State) : State :=
  let l := s.frank.answers.filter (fun a => !a.uses.isEmpty)
  let s := { s with frank := { s.frank with answers := s.frank.answers.filter (fun a => a.uses.isEmpty) } }
  if l.isEmpty then s else s.inc F.FRANK_CNT_DISC_COUNT 0 l.length

/-- `TAMPER`: tamper input `i` has stayed low for its debounce time. -/
def execTamper (i : Nat) (s : State) : Host.Outcome State Fault Refusal :=
  if !(if i = 0 then s.on F.SLATE_TAMP_CFG_EN0 else i == 1 && s.on F.SLATE_TAMP_CFG_EN1) then done s else
  let s := if s.on F.SLATE_TAMP_STAT_T0 || s.on F.SLATE_TAMP_STAT_T1 then s
    else (s.wr (if i = 0 then F.SLATE_TAMP_STAT_T0 else F.SLATE_TAMP_STAT_T1) 1).wr F.SLATE_TAMP_TIME_SEC (s.rd F.TOP_RTC_SEC_SEC)
  let s := (forN 16 s State.eraseSlate).wr F.SLATE_TAMP_STAT_ERASED 1
  let s := if s.on F.SLATE_TAMP_CFG_ERASE_HINT then { s with gnss := { s.gnss with hints := [none, none] } } else s
  if s.pwr.main then
    let s := (forN 240 s (fun s k => s.eraseSlate (16 + k))).abandonAnswers
    done ((s.orphanMkeys (List.range 256)).showSlates.raise 145 i)
  else done s

/-- A write of SLATE_TAMP_ACK clears the record (R394, R498). -/
def State.tampAck (s : State) (w : Nat) : State :=
  if bit w 0 then
    ((((s.wr F.SLATE_TAMP_STAT_VBAT_LOST 0).wr F.SLATE_TAMP_STAT_ERASED 0).wr F.SLATE_TAMP_STAT_T1 0).wr F.SLATE_TAMP_STAT_T0 0).wr
      F.SLATE_TAMP_TIME_SEC 0
  else s

/-- `TAMPER_ACK`: SLATE_TAMP_ACK.ACK is written 1. -/
def execTamperAck (s : State) : Host.Outcome State Fault Refusal := done (s.tampAck 1)

/-! ### Write-once registers (R379, R395, R496) -/

/-- A write of the write-once register at `ra` of the SLATE block: a second write is also a security event. -/
def State.slateOnce (s : State) (a : Acs) (ra : Nat) (fs : List Fld) (w : Nat) : State × Nat :=
  let second := s.once.contains ra
  let r := s.onceWrite a ra fs w
  if second then ((r.1.wr F.SLATE_SEC_LAST_OFS (ra % 4096)).secEvent (ra % 4096), r.2) else r

def State.persLockWrite (s : State) (a : Acs) (w : Nat) : State × Nat := s.slateOnce a 0x2004 [F.SLATE_LOCK_PERS_LOCK] w
def State.loadLockWrite (s : State) (a : Acs) (w : Nat) : State × Nat := s.slateOnce a 0x2010 [F.SLATE_LOAD_LOCK_LOAD_LOCK] w
def State.tampCfgWrite (s : State) (a : Acs) (w : Nat) : State × Nat :=
  s.slateOnce a 0x2100 [F.SLATE_TAMP_CFG_DEBOUNCE, F.SLATE_TAMP_CFG_ERASE_HINT, F.SLATE_TAMP_CFG_EN1, F.SLATE_TAMP_CFG_EN0] w

/-- `PERS_LOCK_WRITE`: requester `req` writes `w` to SLATE_LOCK. -/
def execPersLockWrite (req w : Nat) (s : State) : Host.Outcome State Fault Refusal :=
  done (s.put ⟨req, 0x2004, 2, true⟩ (fun s a => s.persLockWrite a w)).1

/-- `LOAD_LOCK_WRITE`: requester `req` writes `w` to SLATE_LOAD_LOCK. -/
def execLoadLockWrite (req w : Nat) (s : State) : Host.Outcome State Fault Refusal :=
  done (s.put ⟨req, 0x2010, 2, true⟩ (fun s a => s.loadLockWrite a w)).1

/-- `TAMP_CFG_WRITE`: requester `req` writes `w` to SLATE_TAMP_CFG. -/
def execTampCfgWrite (req w : Nat) (s : State) : Host.Outcome State Fault Refusal :=
  done (s.put ⟨req, 0x2100, 2, true⟩ (fun s a => s.tampCfgWrite a w)).1

end Sys2Proof.Machine
end

