-- ==== Sys2Proof/Machine/Ptp.lean ====
section
/-! DEFINITION. PTP in hardware (spec/09_ptp_engine.md): instances, quality fields, the messages sent and answered, authentication,
peer delay and foreign masters. Sessions are in Sess.lean, packet clients in Client.lean. -/
namespace Sys2Proof.Machine

namespace Ptp
def sync : Nat := 0x0
def delayReq : Nat := 0x1
def pdelayReq : Nat := 0x2
def pdelayResp : Nat := 0x3
def followUp : Nat := 0x8
def delayResp : Nat := 0x9
def pdelayFup : Nat := 0xA
def announce : Nat := 0xB
def signaling : Nat := 0xC
def management : Nat := 0xD
end Ptp

/-- The class of instance `i`'s messages and its domain now (R310). -/
def State.ptpDom (s : State) (i : Nat) : Nat := s.classDom (Cls.ptp0 + i)

def State.profile (s : State) (i : Nat) : Nat := s.rd F.PTE_I_CTL_PROFILE i

/-- A profile with instance-specific peer delay (Table PTP-2). -/
def isP2p (profile : Nat) : Bool := profile == 1 || profile == 5

/-- The engine's clockIdentity. -/
def State.clkId (s : State) : Nat := s.rd F.PTE_CLKID_CLKID

/-- The transport code of a carrier. -/
def trOf : Carrier → Nat
  | .l2 => 0
  | .udp4 => 1
  | .udp6 => 2

/-! ### Quality fields (R322 to R326) -/

/-- An ATOM slot is a member. -/
def State.atomMember (s : State) : Bool := s.slotState 8 == Slot.member || s.slotState 9 == Slot.member

/-- A SYNCE slot with QL_RX at or above QL_F is a member. -/
def State.synceMember (s : State) (i : Nat) : Bool :=
  (List.range 8).any (fun g => s.slotState (12 + g) == Slot.member && s.inF F.PTE_I_CC2_QL_F i ≤ s.rd F.SDS_GRP_QL_QL_RX g)

/-- Domain `d` has entered LOCKED since reset. -/
def State.lockedEver (s : State) (d : Nat) : Bool :=
  if d = 0 then s.on F.ENS_DOM_STAT_A_LOCKED_EVER else s.on F.ENS_DOM_STAT_B_LOCKED_EVER

/-- Domain `d` is withheld (R162). -/
def State.withheld (s : State) (d : Nat) : Bool := s.on F.EAVES_x_FLAGS_WITHHELD d

/-- The class of Table PTP-4 is CC_LOST_F. -/
def State.lostF (s : State) (i d : Nat) : Bool :=
  let st := s.domState d
  !s.withheld d && (st == DomSt.lost || st == DomSt.freeRun) && s.everTraced d && (s.atomMember || s.synceMember i)

/-- clockClass of instance `i` in domain `d` (Table PTP-4). -/
def State.ptpClass (s : State) (i d : Nat) : Nat :=
  let st := s.domState d
  let ever := s.everTraced d
  let free := s.inF F.PTE_I_CC2_CC_FREE i
  let lost := s.inF F.PTE_I_CC_CC_LOST i
  let hold := s.inF F.PTE_I_CC_CC_HOLD i
  if s.withheld d then (if ever then lost else free)
  else if st = DomSt.locked then s.inF F.PTE_I_CC_CC_LOCKED i
  else if st = DomSt.holdover then hold
  else if st = DomSt.acquiring then (if s.inHoldover d || s.lockedEver d then hold else free)
  else if !ever then free
  else if s.lostF i d then s.inF F.PTE_I_CC_CC_LOST_F i
  else lost

/-- The limits of Table PTP-5 from code 0x17 on, in tenths of a picosecond. -/
def accuracyLimit (code : Nat) : Nat :=
  let k := code - 0x17
  if code = 0x30 then 10 ^ 14 else if k % 2 = 0 then 10 * 10 ^ (k / 2) else 25 * 10 ^ (k / 2)

/-- The smallest code whose limit is at or above the bound (LSB 0.25 ns); 0xFE for a bound of 0xFFFF_FFFF. -/
def accuracyCode (bound : Nat) : Nat :=
  if maxBound ≤ bound then 0xFE
  else (((List.range 26).map (fun k => 0x17 + k)).find? (fun c => bound * 2500 ≤ accuracyLimit c)).getD 0xFE

/-- clockAccuracy of instance `i` in domain `d` on a port of rate code `rate` (R323). -/
def State.ptpAccuracy (s : State) (i d rate : Nat) : Nat :=
  if s.inF F.PTE_I_CTL_ACC_DERIVE i ≠ 0 then accuracyCode (s.frameBound d rate)
  else if s.domState d = DomSt.locked then s.inF F.PTE_I_CC2_ACC_LOCKED i else 0xFE

/-- offsetScaledLogVariance (R324). -/
def State.ptpVariance (s : State) (i d : Nat) : Nat :=
  if s.domState d = DomSt.locked then s.inF F.PTE_I_QUAL_OSLV_LOCKED i else s.inF F.PTE_I_QUAL_OSLV_OTHER i

/-- The traceable member of domain `d` with the largest weight, the lowest slot on a tie. -/
def State.topTrace (s : State) (d : Nat) : Option Nat :=
  match s.traceSet d with
  | [] => none
  | n :: t => some (t.foldl (fun m k => if s.rd F.ENS_SLOT_W_WEIGHT m < s.rd F.ENS_SLOT_W_WEIGHT k then k else m) n)

/-- timeSource (R324). For a traceable ATOM, XO or SYNCE slot the spec names no code: a free value of the slot. -/
def State.timeSource (s : State) (d : Nat) : Nat :=
  let st := s.domState d
  let other := if s.atomMember then 0x10 else 0xA0
  if st = DomSt.acquiring ∨ st = DomSt.locked then
    match s.topTrace d with
    | none => other
    | some n =>
      if n = 11 then 0x20
      else if 20 ≤ n then (if s.on F.PTE_CLI_CTL_PROTO (n - 20) then 0x50 else 0x40)
      else if n < 8 then 0x90
      else Config.timeSourceOf n % 256
  else other

/-- timeTraceable and frequencyTraceable (R325). -/
def State.timeTr (s : State) (d : Nat) : Bool := s.domState d == DomSt.locked || s.domState d == DomSt.holdover
def State.freqTr (s : State) (i d : Nat) : Bool := s.timeTr d || s.lostF i d

/-- Which of the sources of TAI - UTC instance `u` selects: 0 GNSS, 1 + u the host. -/
def State.utcSrc (s : State) (u : Nat) : Nat := if s.inF F.PTE_I_UTC_SRC u = 0 then 0 else 1 + u

/-- The selected source has given a non-zero offset since reset (R326). -/
def State.utcValid (s : State) (u : Nat) : Bool :=
  s.ptp.utcSeen.getD (s.utcSrc u) false || (s.utcSource u).1 != 0

/-- The sources that give a non-zero offset now are remembered. -/
def State.noteUtc (s : State) : State :=
  let now := [s.on F.GNSS_UTC_TAI_UTC, s.inF F.PTE_I_UTC_HOST_OFS 0 != 0, s.inF F.PTE_I_UTC_HOST_OFS 1 != 0]
  { s with ptp := { s.ptp with utcSeen := (s.ptp.utcSeen.zip now).map (fun q => q.1 || q.2) } }

/-- The LV fields of PTE_I_STAT[i] follow the instance's domain, at each beat edge (R322); those of an instance that does not run
are at their reset values. -/
def State.showInst (s : State) (i : Nat) : State :=
  if !s.ptpRuns i then
    s.rstFlds [F.PTE_I_STAT_CLASS, F.PTE_I_STAT_ACCURACY, F.PTE_I_STAT_TIME_SOURCE, F.PTE_I_STAT_WITHHELD, F.PTE_I_STAT_TIME_TR,
      F.PTE_I_STAT_FREQ_TR, F.PTE_I_STAT_UTC_VALID, F.PTE_I_STAT_LEAP61, F.PTE_I_STAT_LEAP59] i
  else
    let d := s.ptpDom i
    let leap := s.leapFlag i (s.epochOf d (s.count d))
    let s := (s.wr F.PTE_I_STAT_CLASS (s.ptpClass i d) i).wr F.PTE_I_STAT_TIME_SOURCE (s.timeSource d) i
    let s := (s.wrB F.PTE_I_STAT_WITHHELD (s.withheld d) i).wrB F.PTE_I_STAT_TIME_TR (s.timeTr d) i
    let s := (s.wrB F.PTE_I_STAT_FREQ_TR (s.freqTr i d) i).wrB F.PTE_I_STAT_UTC_VALID (s.utcValid i) i
    (s.wrB F.PTE_I_STAT_LEAP61 (leap == 1) i).wrB F.PTE_I_STAT_LEAP59 (leap == 2) i

/-- The engine's part of a beat edge: UTC sources, instances and port states. -/
def State.showPtp (s : State) : State := forN 32 (((s.noteUtc).showInst 0).showInst 1) State.showPtpPort

/-! ### The bytes of a message (R316) -/

/-- The flags of a message of instance `i` in domain `d` whose own time is `e`. -/
def State.ptpFlags (s : State) (i d : Nat) (e : Int) (twoStep unicast : Bool) : Nat :=
  let leap := s.leapFlag i e
  twoStep.toNat * 2 ^ 9 + unicast.toNat * 2 ^ 10 + (s.freqTr i d).toNat * 2 ^ 5 + (s.timeTr d).toNat * 2 ^ 4 + 2 ^ 3 +
    (s.utcValid i).toNat * 2 ^ 2 + (leap == 2).toNat * 2 + (leap == 1).toNat

/-- The controlField of a message type. -/
def controlOf (type : Nat) : Nat := if type = 0 then 0 else if type = 1 then 1 else if type = 8 then 2 else if type = 9 then 3 else 5

/-- The common header; its length is put in when the message is finished. -/
def ptpHead (sdo minorSdo type domain flags : Nat) (corr : Int) (clkId port seq : Nat) (log : Int) : List Nat :=
  [sdo % 16 * 16 + type, 0x12, 0, 0, domain, minorSdo] ++ beBytes 2 flags ++ beBytes 8 (ofS 64 corr) ++ beBytes 4 0 ++
    beBytes 8 clkId ++ beBytes 2 (port + 1) ++ beBytes 2 seq ++ [controlOf type, ofS 8 log]

/-- The common header of a message of instance `i` on port `p`. -/
def State.instHead (s : State) (i p type flags : Nat) (corr : Int) (seq : Nat) (log : Int) : List Nat :=
  ptpHead (s.rd F.PTE_I_CTL_MAJOR_SDO i) (s.rd F.PTE_I_CTL_MINOR_SDO i) type (s.rd F.PTE_I_DS_DOMAIN_NUM i) flags corr s.clkId p seq log

/-- A timestamp of ten bytes: seconds and nanoseconds of an epoch time in ru. -/
def ptpTime (e : Int) : List Nat :=
  let t := splitEpoch e
  beBytes 6 t.1 ++ beBytes 4 t.2.1

/-- The fraction of a nanosecond of an epoch time, in 2^-16 ns. -/
def subNs (e : Int) : Int := e % 65536

/-- The Eaves TLV (Table PTP-6) of domain `d` with the bound `bound`. -/
def State.eavesTlv (s : State) (d bound : Nat) : List Nat :=
  let flags := d % 2 * 128 + s.domState d % 8 * 16 + s.rd F.EAVES_x_FLAGS_HOLD d * 8 + s.rd F.EAVES_x_FLAGS_S2 d * 4 +
    s.rd F.EAVES_x_FLAGS_SAT d * 2 + s.rd F.EAVES_x_FLAGS_NEVER d
  beBytes 2 0x8000 ++ beBytes 2 20 ++ beBytes 3 (s.rd F.PTE_ORG_ORG_ID) ++ beBytes 3 1 ++ [1, flags] ++ beBytes 4 bound ++
    beBytes 4 (s.rd F.EAVES_x_HO_AGE_AGE d / 1024) ++ beBytes 3 (s.rd F.EAVES_x_TRACE_SLOTS_SLOTS d) ++
    [s.rd F.EAVES_x_TRACE_SLOTS_TRACE_GEN d]

/-- The Eaves TLV when `on` says that the message carries it. -/
def State.eavesPart (s : State) (on : Bool) (d rate : Nat) : List Nat := if on then s.eavesTlv d (s.frameBound d rate) else []

/-- The Follow_Up information TLV of 802.1AS (R329). -/
def State.asTlv (s : State) (i : Nat) : List Nat :=
  beBytes 2 3 ++ beBytes 2 28 ++ beBytes 3 0x0080C2 ++ beBytes 3 1 ++ beBytes 4 0 ++ beBytes 2 (s.rd F.PTE_I_UTCDAY_GM_TB i) ++
    beBytes 12 (ofS 96 (s.ptp.phase.getD i 0)) ++ beBytes 4 0

/-- The PATH_TRACE TLV of 802.1AS (R329). -/
def State.pathTlv (s : State) : List Nat := beBytes 2 8 ++ beBytes 2 8 ++ beBytes 8 s.clkId

/-! ### Authentication (R334 to R337) -/

namespace SaBit
def valid : Nat := 31
def rx : Nat := 30
def tx : Nat := 29
def icvCf : Nat := 26
end SaBit

/-- The CTL and KEY_ID words of security association `k` (Table PTP-13). -/
def saAddr (k : Nat) : Nat := 0x880000 + 16 * k
def State.saCtl (s : State) (k : Nat) : Nat := s.mrd (saAddr k) 4
def State.saKeyId (s : State) (k : Nat) : Nat := s.mrd (saAddr k + 4) 4

/-- Algorithm and slate of an association's CTL word. -/
def saAlg (ctl : Nat) : Nat := bits ctl 27 2
def saSlate (ctl : Nat) : Nat := bits ctl 18 8

/-- The key length that an algorithm needs (R376). -/
def saKlen (alg : Nat) : Bool := alg != 1

/-- The slate of the association with CTL word `ctl` can be used for PTP. -/
def State.saUsable (s : State) (ctl : Nat) : Bool := s.slateUse (saSlate ctl) Usage.ptp (saKlen (saAlg ctl)) == Code.ok

/-- The ICV of the message bytes `msg` (all before the ICV) under `key` (R334, R335). -/
def saIcv (ctl : Nat) (key msg : List Nat) : List Nat :=
  let m := if bit ctl SaBit.icvCf then putBe msg 8 8 0 else msg
  if saAlg ctl = 0 then (hmacSha256 key m).take 16 else bytesOf 16 (aesCmac key m)

/-- The message with its length field filled in. -/
def putLength (msg : List Nat) : List Nat := putBe msg 2 2 msg.length

/-- The message with an authentication TLV under `key`. -/
def authenticate (ctl keyId : Nat) (key msg : List Nat) : List Nat :=
  let m := putBe msg 2 2 (msg.length + 26)
  let m := m ++ beBytes 2 0x8009 ++ beBytes 2 22 ++ [ctl % 256, 0] ++ beBytes 4 keyId
  m ++ saIcv ctl key m

/-- Association `k` demands an authentication TLV on what is sent. -/
def State.saSends (s : State) (k : Nat) : Bool :=
  k != 0x3F && bit (s.saCtl k) SaBit.valid && bit (s.saCtl k) SaBit.tx

/-- Association `k` as a sender holds it now: its slate's key and bank, when it can be used. -/
def State.saTake (s : State) (k : Nat) : Option (List Nat × Nat × Nat) :=
  let n := saSlate (s.saCtl k)
  if s.saUsable (s.saCtl k) then some (s.slateKey n, n, s.activeBank n) else none

/-- A message that association `k` should authenticate is not sent, for want of its key (R337). -/
def State.authWithheld (s : State) (p k : Nat) : State := (s.inc F.PTE_CNT_AUTH_COUNT p).raiseOnce 123 p k

/-- The length of the body of a message type, header included. -/
def ptpBody (type : Nat) : Nat := if type = 2 ∨ type = 3 ∨ type = 9 ∨ type = 0xA then 54 else if type = 0xB then 64 else 44

/-- The TLVs of a message from offset `o`, at most `fuel`: type, offset and length of the value. -/
def tlvsFrom (m : List Nat) : Nat → Nat → List (Nat × Nat × Nat)
  | 0, _ => []
  | fuel + 1, o =>
    if o + 4 ≤ m.length then (be m o 2, o + 4, be m (o + 2) 2) :: tlvsFrom m fuel (o + 4 + be m (o + 2) 2) else []

/-- The TLVs of a PTP message. -/
def tlvsOf (m : List Nat) : List (Nat × Nat × Nat) := tlvsFrom m m.length (ptpBody (bits (be m 0 1) 0 4))

/-- The PTP message of a frame: its transport code and its bytes up to messageLength. -/
def ptpMsg (l : List Nat) : Option (Nat × List Nat) :=
  match ptpOf l with
  | some (c, o) => some (trOf c, (l.drop o).take (be l (o + 2) 2))
  | none => none

/-- Fields of a message. -/
def msgType (m : List Nat) : Nat := be m 0 1 % 16
def msgSdo (m : List Nat) : Nat := be m 0 1 / 16 * 256 + be m 5 1
def msgDomain (m : List Nat) : Nat := be m 4 1
def msgCorr (m : List Nat) : Int := toS 64 (be m 8 8)
def msgPort (m : List Nat) : Nat := be m 20 10
def msgSeq (m : List Nat) : Nat := be m 30 2
def msgTwoStep (m : List Nat) : Bool := bit (be m 6 2) 9
/-- The epoch time of a ten-byte timestamp at `o`, in ru. -/
def msgTime (m : List Nat) (o : Nat) : Int := ((be m o 6 * 1000000000 + be m (o + 6) 4) * 65536 : Nat)

/-- Whether a received message verifies: none when it carries no authentication TLV; otherwise whether it does, with the association
found (R336). -/
def State.verify (s : State) (m : List Nat) : Option (Bool × Option Nat) :=
  match (tlvsOf m).find? (fun t => t.1 == 0x8009) with
  | none => none
  | some t =>
    let spp := be m t.2.1 1
    let key := be m (t.2.1 + 2) 4
    match (List.range 64).find? (fun k =>
      let c := s.saCtl k
      bit c SaBit.valid && bit c SaBit.rx && c % 256 == spp && s.saKeyId k == key) with
    | none => some (false, none)
    | some k =>
      let c := s.saCtl k
      let icv := (m.drop (t.2.1 + 6)).take 16
      let good := be m (t.2.1 + 1) 1 == 0 && t.2.2 == 22 && s.saUsable c &&
        saIcv c (s.slateKey (saSlate c)) (m.take (t.2.1 + 6)) == icv
      some (good, some k)

/-- Session `n`'s record lies at this address (Table PTP-13). -/
def sessAddr (n : Nat) : Nat := 0x800000 + 64 * n

/-- A 16-bit saturating field of a record advances. -/
def State.incRec16 (s : State) (a : Nat) : State := s.mwr a 2 (min 0xFFFF (s.mrd a 2 + 1))

/-- A message on port `p`, of session `sess`, passes the authentication rules; `req` says that a message without the TLV fails (R336). -/
def State.authRx (s : State) (p : Nat) (sess : Option Nat) (req : Bool) (m : List Nat) : State × Bool :=
  let fail := fun (s : State) =>
    let s := match sess with
      | some n => s.incRec16 (sessAddr n + 62)
      | none => s
    ((s.inc F.PTE_CNT_AUTH_COUNT p).raiseOnce 122 p p, false)
  let note := fun (s : State) (k : Option Nat) (o : Nat) =>
    match k with
    | some k => s.mwr (saAddr k + o) 4 (s.mrd (saAddr k + o) 4 + 1)
    | none => s
  match s.verify m with
  | none => if req then fail s else (s, true)
  | some (true, k) => (note s k 8, true)
  | some (false, k) => fail (note s k 12)

/-! ### Frames of messages (Table PTP-2) -/

/-- The address entry of port `p` (Table PTP-13). -/
def portAddr (p : Nat) : Nat := 0x880400 + 32 * p
def State.portIp6 (s : State) (p : Nat) : List Nat := s.mbytes (portAddr p) 16
def State.portIp4 (s : State) (p : Nat) : List Nat := s.mbytes (portAddr p + 16) 4
def State.portDscp (s : State) (p : Nat) : Nat := bits (s.mrd (portAddr p + 20) 4) 8 6
def State.portTtl (s : State) (p : Nat) : Nat :=
  let t := bits (s.mrd (portAddr p + 20) 4) 16 8
  if t = 0 then 64 else t

/-- A UDP datagram on port `p` with its IP header, after the Ethernet header `head` without EtherType. -/
def State.udpFrame (s : State) (p : Nat) (v6 : Bool) (head dst : List Nat) (sport dport : Nat) (data : List Nat) : List Nat :=
  let n := data.length + 8
  let udp := beBytes 2 sport ++ beBytes 2 dport ++ beBytes 2 n ++ [0, 0] ++ data
  if v6 then
    udpSum (head ++ beBytes 2 0x86DD ++ beBytes 4 (6 * 2 ^ 28 + s.portDscp p * 2 ^ 22) ++ beBytes 2 n ++ [17, s.portTtl p] ++
      s.portIp6 p ++ dst ++ udp)
  else
    udpSum (ipSum (head ++ beBytes 2 0x0800 ++ [0x45, s.portDscp p * 4] ++ beBytes 2 (n + 20) ++ beBytes 4 0 ++
      [s.portTtl p, 17, 0, 0] ++ s.portIp4 p ++ dst ++ udp))

/-- A frame that carries the message `m` on port `p` over transport `tr`, to the MAC address `mac` and IP address `ip`, with the tag
bytes `tags`. -/
def State.ptpFrame (s : State) (p tr mac : Nat) (ip tags m : List Nat) : List Nat :=
  let head := beBytes 6 mac ++ beBytes 6 (s.macAddr p) ++ tags
  let udpPort := if msgType m < 8 then 319 else 320
  padTo 60 (if tr = 0 then head ++ beBytes 2 0x88F7 ++ m else s.udpFrame p (tr == 2) head ip udpPort udpPort m)

/-- Where a multicast message goes on port `p`: MAC and IP address, for peer delay or not. -/
def State.groupAddr (s : State) (p tr : Nat) (peer : Bool) : Nat × List Nat :=
  if tr = 0 then (if s.rd F.PTE_PORT_CTL_MCAST p = 0 then 0x011B19000000 else 0x0180C200000E, [])
  else if tr = 1 then
    if peer then (0x01005E00006B, [224, 0, 0, 107]) else (0x01005E000181, [224, 0, 1, 129])
  else if peer then (0x33330000006B, [0xFF, 0x02] ++ List.replicate 13 0 ++ [0x6B])
  else (0x333300000181, [0xFF, 0x0E] ++ List.replicate 12 0 ++ [0x01, 0x81])

/-- The tag bytes of a frame. -/
def tagBytes (l : List Nat) : List Nat := (l.drop 12).take (4 * (tagsOf l).length)

/-- The frame with which `m` answers the frame `l` on port `p`: back to its source, or to the group; its tags are the request's
(R265). -/
def State.answerFrame (s : State) (p tr : Nat) (l m : List Nat) (multicast peer : Bool) : List Nat :=
  let g := s.groupAddr p tr peer
  let ip := match udpOf l with
    | some u => (l.drop (u.ip + (if u.v6 then 8 else 12))).take (if u.v6 then 16 else 4)
    | none => []
  if multicast then s.ptpFrame p tr g.1 g.2 (tagBytes l) m else s.ptpFrame p tr (macSrc l) ip (tagBytes l) m

/-- The frame was sent to one station. -/
def isUnicast (l : List Nat) : Bool := be l 0 1 % 2 == 0

/-- A PTP frame goes out on port `p` and is counted. -/
def State.sendPtp (s : State) (p : Nat) (bytes : List Nat) : State := (s.sendFrame p bytes).inc F.PTE_CNT_TX_COUNT p

/-- The message finished for association `sa` with the key held: none when the key is missing. -/
def State.finishMsg (s : State) (sa : Nat) (key : Option (List Nat)) (m : List Nat) : Option (List Nat) :=
  if !s.saSends sa then some (putLength m)
  else key.map (fun k => authenticate (s.saCtl sa) (s.saKeyId sa) k m)

/-- The message finished for association `sa` with the key in force. -/
def State.finishNow (s : State) (sa : Nat) (m : List Nat) : Option (List Nat) :=
  s.finishMsg sa ((s.saTake sa).map (fun t => t.1)) m

/-! ### Enables (R311, R315, R340, R341) -/

/-- ROLE of port `p` for instance `i` as written. -/
def State.roleSet (s : State) (i p : Nat) : Nat := if i = 0 then s.rd F.PTE_PORT_CTL_ROLE0 p else s.rd F.PTE_PORT_CTL_ROLE1 p

/-- The log intervals that PTE_PORT_RATE[p] gives instance `i`: Announce, Sync, Delay_Resp. -/
def State.portLogs (s : State) (i p : Nat) : Int × Int × Int :=
  if i = 0 then (s.rdS F.PTE_PORT_RATE_ANN0 p, s.rdS F.PTE_PORT_RATE_SYNC0 p, s.rdS F.PTE_PORT_RATE_DRESP0 p)
  else (s.rdS F.PTE_PORT_RATE_ANN1 p, s.rdS F.PTE_PORT_RATE_SYNC1 p, s.rdS F.PTE_PORT_RATE_DRESP1 p)

/-- The ranges of log intervals of a profile (Table PTP-2): Announce, Sync, Delay_Resp or Pdelay. -/
def profileLogs (prof : Nat) : List (Int × Int) :=
  if prof = 2 then [(-3, -3), (-4, -4), (-4, -4)]
  else if prof = 3 then [(-3, 0), (-7, 0), (-7, 0)]
  else if prof = 4 then [(-3, 3), (-7, 4), (-7, 4)]
  else [(-3, 4), (-7, 4), (-7, 4)]

/-- The range of domainNumber of a profile. -/
def profileDomains (prof : Nat) : Nat × Nat :=
  if prof = 2 then (24, 43) else if prof = 3 then (44, 63) else if prof = 4 then (4, 23) else (0, 127)

/-- `v` lies in the range `r`. -/
def inSpan (r : Int × Int) (v : Int) : Bool := decide (r.1 ≤ v) && decide (v ≤ r.2)

/-- A transport that a profile allows. -/
def profileTr (prof tr : Nat) : Bool :=
  if prof = 2 ∨ prof = 5 then tr == 0 else if prof = 3 then tr == 1 || tr == 2 else if prof = 4 then tr == 1 else tr ≤ 2

/-- Port `p`, which has a role for instance `i`, fits the instance's profile (R311, R315). -/
def State.portFits (s : State) (i p : Nat) : Bool :=
  let prof := s.profile i
  let o := 1 - i
  let l := s.portLogs i p
  let r := profileLogs prof
  let third := if isP2p prof then s.rdS F.PTE_PORT_RATE_PDLY p else l.2.2
  let role := s.roleSet i p
  let shared := s.on F.PTE_I_STAT_RUNNING o && s.roleSet o p != 0
  let same := s.rd F.PTE_I_DS_DOMAIN_NUM i == s.rd F.PTE_I_DS_DOMAIN_NUM o &&
    s.rd F.PTE_I_CTL_MAJOR_SDO i == s.rd F.PTE_I_CTL_MAJOR_SDO o && s.rd F.PTE_I_CTL_MINOR_SDO i == s.rd F.PTE_I_CTL_MINOR_SDO o
  profileTr prof (s.rd F.PTE_PORT_CTL_TRANSPORT p) &&
  (prof != 5 || s.rd F.PTE_PORT_CTL_MCAST p == 1) &&
  (if prof = 3 ∨ prof = 4 then role == 2 else if prof = 0 then true else role == 1) &&
  ((prof != 2 && prof != 3) || !s.on F.PTE_PORT_CTL_FOREIGN_ACT p) &&
  inSpan (r.getD 0 (0, 0)) l.1 && inSpan (r.getD 1 (0, 0)) l.2.1 && inSpan (r.getD 2 (0, 0)) third &&
  !(shared && (same || (prof == 5 && s.profile o == 5)))

/-- What fails the enable check of instance `i` (R311, R315): nothing, 0 for the instance, or p + 1 for a port. -/
def State.instCheck (s : State) (i : Nat) : Option Nat :=
  let prof := s.profile i
  let dom := s.rd F.PTE_I_DS_DOMAIN_NUM i
  let cc := [s.rd F.PTE_I_CC_CC_LOCKED i, s.rd F.PTE_I_CC_CC_HOLD i, s.rd F.PTE_I_CC_CC_LOST_F i, s.rd F.PTE_I_CC_CC_LOST i,
    s.rd F.PTE_I_CC2_CC_FREE i]
  let d := profileDomains prof
  if s.clkId = 0 ∨ 6 ≤ prof ∨ dom < d.1 ∨ d.2 < dom ∨ s.rd F.PTE_I_CTL_MAJOR_SDO i ≠ (if prof = 5 then 1 else 0) ∨
      (prof = 4 ∧ !cc.all (fun c => [84, 90, 96, 104, 110].contains c)) then some 0
  else ((List.range 32).find? (fun p => s.roleSet i p != 0 && !s.portFits i p)).map (fun p => p + 1)

/-- Block `b` of the engine (0 the engine, 1 + i instance i, 3 + c client c) is stopping; an enable waits behind it. -/
def State.ptpStopping (s : State) (b : Nat) : Bool := s.ptp.stopping.getD b false
def State.setPtpStop (s : State) (b : Nat) (stop pend : Bool) : State :=
  { s with ptp := { s.ptp with stopping := s.ptp.stopping.set b stop, pend := s.ptp.pend.set b pend } }

/-- Instance `i` starts, or its check refuses it. -/
def State.instStart (s : State) (i : Nat) : State :=
  match s.instCheck i with
  | some n => (s.wr F.PTE_I_CTL_EN 0 i).raise 127 (i + n * 256)
  | none => (s.wr F.PTE_I_STAT_RUNNING 1 i).showPtp

/-- Instance `i` stops: its ports go to DISABLED and its Follow_Ups fall; admitted requests are still answered. -/
def State.instStop (s : State) (i : Nat) : State :=
  let s := (s.wr F.PTE_I_STAT_RUNNING 0 i).setPtpStop (1 + i) true false
  { s with ptp := { s.ptp with fups := s.ptp.fups.filter (fun f => f.inst != i) } }.showPtp

/-- A write of PTE_I_CTL[i]. -/
def State.instCtlWrite (s : State) (a : Acs) (i w : Nat) : State × Nat :=
  let was := s.on F.PTE_I_CTL_EN i
  let busy := was || s.ptpStopping (1 + i)
  let open' := [F.PTE_I_CTL_EN, F.PTE_I_CTL_ANN_STOP, F.PTE_I_CTL_ACC_DERIVE]
  let r := s.stagedWrite (fun f => busy && !f.among open') inRange
    [F.PTE_I_CTL_MINOR_SDO, F.PTE_I_CTL_MAJOR_SDO, F.PTE_I_CTL_AUTH_REQ, F.PTE_I_CTL_ANN_STOP, F.PTE_I_CTL_ACC_DERIVE,
     F.PTE_I_CTL_PROFILE, F.PTE_I_CTL_EN] i w
  let s := r.1
  let now := s.on F.PTE_I_CTL_EN i
  let s :=
    if now && !was then
      (if s.ptpStopping (1 + i) then (s.setPtpStop (1 + i) true true).wr F.PTE_I_STAT_PENDING_ENABLE 1 i else s.instStart i)
    else if was && !now then
      (if s.ptpStopping (1 + i) then (s.setPtpStop (1 + i) true false).wr F.PTE_I_STAT_PENDING_ENABLE 0 i else s.instStop i)
    else s
  s.conclude a r.2

/-- `INSTANCE_ENABLE`: requester `req` writes PTE_I_CTL[i] with EN = 1; `w` gives the other bits. -/
def execInstanceEnable (req i w : Nat) (s : State) : Host.Outcome State Fault Refusal :=
  if 2 ≤ i then done s else done (s.put ⟨req, 0x14040 + 0x20 * i, 2, true⟩ (fun s a => s.instCtlWrite a i (setBit w 0 true))).1

/-- `INSTANCE_DISABLE`: requester `req` writes PTE_I_CTL[i] with EN = 0; `w` gives the other bits. -/
def execInstanceDisable (req i w : Nat) (s : State) : Host.Outcome State Fault Refusal :=
  if 2 ≤ i then done s else done (s.put ⟨req, 0x14040 + 0x20 * i, 2, true⟩ (fun s a => s.instCtlWrite a i (setBit w 0 false))).1

/-- The engine starts: its counters clear (Table PTP-13). -/
def State.pteStart (s : State) : State :=
  let s := forN 32 s (fun s p =>
    s.rstFlds [F.PTE_CNT_TX_COUNT, F.PTE_CNT_RX_COUNT, F.PTE_CNT_REFUSED_COUNT, F.PTE_CNT_AUTH_COUNT] p)
  (s.wr F.PTE_STAT_RUNNING 1).showPtp

/-- The engine stops. -/
def State.pteStop (s : State) : State :=
  let s := (s.wr F.PTE_STAT_RUNNING 0).setPtpStop 0 true false
  { s with ptp := { s.ptp with fups := [] } }.showPtp

/-- PENDING_ENABLE of the engine follows: an enable of the engine or of a client waits. -/
def State.showPtePend (s : State) : State :=
  s.wrB F.PTE_STAT_PENDING_ENABLE ([0, 3, 4, 5, 6].any (fun b => s.ptp.pend.getD b false))

/-- A write of PTE_CTL. -/
def State.pteCtlWrite (s : State) (a : Acs) (w : Nat) : State × Nat :=
  let was := s.on F.PTE_CTL_EN
  let fs := [F.PTE_CTL_UNK_ANSWER, F.PTE_CTL_EAVES_ANN, F.PTE_CTL_EAVES_EVT, F.PTE_CTL_EN]
  let r := s.stagedWrite noLock inRange fs 0 w
  let s := r.1
  let now := s.on F.PTE_CTL_EN
  let s :=
    if now && !was then
      (if s.ptpStopping 0 then (s.setPtpStop 0 true true).showPtePend else s.pteStart)
    else if was && !now then
      (if s.ptpStopping 0 then (s.setPtpStop 0 true false).showPtePend else s.pteStop)
    else s
  s.conclude a r.2

/-- `PTE_ENABLE`: requester `req` writes `w` to PTE_CTL. -/
def execPteEnable (req w : Nat) (s : State) : Host.Outcome State Fault Refusal :=
  done (s.put ⟨req, 0x14000, 2, true⟩ (fun s a => s.pteCtlWrite a w)).1

/-- A write of PTE_PORT_CTL[p] (R340): a role that the profile of a running instance does not allow returns to OFF. -/
def State.portCtlWrite (s : State) (a : Acs) (p w : Nat) : State × Nat :=
  let roled := s.roleSet 0 p != 0 || s.roleSet 1 p != 0
  let open' := [F.PTE_PORT_CTL_ROLE0, F.PTE_PORT_CTL_ROLE1, F.PTE_PORT_CTL_MSA]
  let r := s.stagedWrite (fun f => roled && !f.among open') inRange
    [F.PTE_PORT_CTL_MCAST, F.PTE_PORT_CTL_TRANSPORT, F.PTE_PORT_CTL_MSA, F.PTE_PORT_CTL_ROLE1, F.PTE_PORT_CTL_ROLE0,
     F.PTE_PORT_CTL_ONE_STEP1, F.PTE_PORT_CTL_ONE_STEP0, F.PTE_PORT_CTL_HYBRID, F.PTE_PORT_CTL_FOREIGN_ACT] p w
  let old := s
  let s := [0, 1].foldl (fun s i =>
    if s.on F.PTE_I_STAT_RUNNING i && s.roleSet i p != 0 && old.roleSet i p == 0 && !s.portFits i p then
      (s.wr (if i = 0 then F.PTE_PORT_CTL_ROLE0 else F.PTE_PORT_CTL_ROLE1) 0 p).raise 127 (i + (p + 1) * 256)
    else s) r.1
  s.conclude a r.2

/-- A write of PTE_PORT_RATE[p], locked while an instance has a role on the port (R340). -/
def State.portRateWrite (s : State) (a : Acs) (p w : Nat) : State × Nat :=
  let roled := s.roleSet 0 p != 0 || s.roleSet 1 p != 0
  let r := s.fieldWrite (fun _ => roled) inRange
    [F.PTE_PORT_RATE_ANN1, F.PTE_PORT_RATE_SYNC1, F.PTE_PORT_RATE_DRESP1, F.PTE_PORT_RATE_ANN0, F.PTE_PORT_RATE_SYNC0,
     F.PTE_PORT_RATE_DRESP0, F.PTE_PORT_RATE_PDLY] p w
  r.1.conclude a r.2

/-- A write of PTE_I_DS[i], locked while the instance is enabled. -/
def State.instDsWrite (s : State) (a : Acs) (i w : Nat) : State × Nat :=
  let busy := s.on F.PTE_I_CTL_EN i || s.ptpStopping (1 + i)
  let r := s.fieldWrite (fun _ => busy) inRange [F.PTE_I_DS_PRIORITY2, F.PTE_I_DS_PRIORITY1, F.PTE_I_DS_DOMAIN_NUM] i w
  r.1.conclude a r.2

/-- A write of PTE_CLKID, locked while the engine is enabled. -/
def State.clkIdWrite (s : State) (a : Acs) (fs : List Fld) (w : Nat) : State × Nat :=
  let busy := s.on F.PTE_CTL_EN || s.ptpStopping 0
  let r := s.fieldWrite (fun _ => busy) inRange fs 0 w
  r.1.conclude a r.2

/-- A write of an engine register that is written in service and takes effect at the next beat edge (R340); PTE_NEG keeps MAX_DUR at
or above MIN_DUR. -/
def State.pteServiceWrite (s : State) (a : Acs) (fs : List Fld) (i w : Nat) : State × Nat :=
  let r := s.stagedWrite noLock inRange fs i w
  r.1.conclude a r.2
def State.negWrite (s : State) (a : Acs) (w : Nat) : State × Nat :=
  let lo := if inRange F.PTE_NEG_MIN_DUR (bits w 0 16) then bits w 0 16 else s.rd F.PTE_NEG_MIN_DUR
  let ok := fun (f : Fld) v => inRange f v && (f.no != F.PTE_NEG_MAX_DUR.no || lo ≤ v)
  let r := s.stagedWrite noLock ok [F.PTE_NEG_MAX_DUR, F.PTE_NEG_MIN_DUR] 0 w
  r.1.conclude a r.2

/-! ### Messages that fall due (R317, R318) -/

/-- ONE_STEP of port `p` for instance `i`. -/
def State.oneStepOn (s : State) (i p : Nat) : Bool := if i = 0 then s.on F.PTE_PORT_CTL_ONE_STEP0 p else s.on F.PTE_PORT_CTL_ONE_STEP1 p

/-- The tag bytes of session `n` (Table PTP-7). -/
def State.sessTags (s : State) (n : Nat) : List Nat :=
  let w := s.mrd (sessAddr n + 32) 4
  let tci := s.mrd (sessAddr n + 36) 4
  if bits w 20 2 = 1 then beBytes 2 0x8100 ++ beBytes 2 (tci / 2 ^ 16)
  else if bits w 20 2 = 2 then beBytes 2 0x88A8 ++ beBytes 2 (tci / 2 ^ 16) ++ beBytes 2 0x8100 ++ beBytes 2 tci
  else []

/-- A message goes to session `n`'s peer, or to the group when there is no session. -/
def State.msgFrame (s : State) (p : Nat) (sess : Option Nat) (peer : Bool) (m : List Nat) : List Nat :=
  match sess with
  | none =>
    let tr := s.rd F.PTE_PORT_CTL_TRANSPORT p
    let g := s.groupAddr p tr peer
    s.ptpFrame p tr g.1 g.2 [] m
  | some n =>
    let a := sessAddr n
    let w := s.mrd (a + 32) 4
    let tr := bits w 28 2
    let tags := s.sessTags n
    if tr = 0 then s.ptpFrame p 0 (natOf (s.mbytes a 6)) [] tags m
    else s.ptpFrame p tr (natOf (s.mbytes (a + 26) 6)) (s.mbytes a (if tr = 1 then 4 else 16)) tags m

/-- The association of a message to session `n`, or of a multicast one (MSA). -/
def State.msgSa (s : State) (p : Nat) (sess : Option Nat) : Nat :=
  match sess with
  | none => s.inF F.PTE_PORT_CTL_MSA p
  | some n => bits (s.mrd (sessAddr n + 32) 4) 13 6

/-- The log interval of Announce (`kind` 0) or Sync (`kind` 1) on the port or in the session. -/
def State.msgLog (s : State) (i p kind : Nat) (sess : Option Nat) : Int :=
  match sess with
  | none => if kind = 0 then (s.portLogs i p).1 else (s.portLogs i p).2.1
  | some n => toS 4 (bits (s.mrd (sessAddr n + 40) 4) (if kind = 0 then 28 else 24) 4)

/-- The next sequenceId of Announce (`kind` 0) or Sync (`kind` 1), and its advance. -/
def State.msgSeqNo (s : State) (i p kind : Nat) (sess : Option Nat) : Nat :=
  match sess with
  | none => (if kind = 0 then s.ptp.seqAnn else s.ptp.seqSync).getD (32 * i + p) 0
  | some n => s.mrd (sessAddr n + (if kind = 0 then 50 else 52)) 2
def State.advanceSeq (s : State) (i p kind : Nat) (sess : Option Nat) : State :=
  let q := (s.msgSeqNo i p kind sess + 1) % 2 ^ 16
  match sess with
  | none =>
    if kind = 0 then { s with ptp := { s.ptp with seqAnn := s.ptp.seqAnn.set (32 * i + p) q } }
    else { s with ptp := { s.ptp with seqSync := s.ptp.seqSync.set (32 * i + p) q } }
  | some n => s.mwr (sessAddr n + (if kind = 0 then 50 else 52)) 2 q

/-- A VALID master session of port `p` and instance `i` with the grant bit `b` of its word 40. -/
def State.sessServes (s : State) (i p n b : Nat) : Bool :=
  let w := s.mrd (sessAddr n + 32) 4
  bit w 31 && !bit w 19 && bits w 22 5 == p && bits w 27 1 == i && bit (s.mrd (sessAddr n + 40) 4) b

/-- The Announce of instance `i` on port `p` (R328, R329); `e` is its origin time. -/
def State.announceMsg (s : State) (i p : Nat) (sess : Option Nat) (d : Nat) (e : Int) : List Nat :=
  let rate := s.rd F.MAC_STAT_RATE p
  s.instHead i p Ptp.announce (s.ptpFlags i d e false sess.isSome) 0 (s.msgSeqNo i p 0 sess) (s.msgLog i p 0 sess) ++
    ptpTime e ++ beBytes 2 (s.taiUtc i e) ++ [0, s.rd F.PTE_I_DS_PRIORITY1 i, s.rd F.PTE_I_STAT_CLASS i, s.ptpAccuracy i d rate] ++
    beBytes 2 (s.ptpVariance i d) ++ [s.rd F.PTE_I_DS_PRIORITY2 i] ++ beBytes 8 s.clkId ++ beBytes 2 0 ++ [s.timeSource d] ++
    (if s.profile i = 5 then s.pathTlv else []) ++ s.eavesPart (s.inF F.PTE_CTL_EAVES_ANN != 0) d rate

/-- The Sync of instance `i` on port `p`: one-step with its own time, or two-step (R318). -/
def State.syncMsg (s : State) (i p : Nat) (sess : Option Nat) (d : Nat) (e : Int) : List Nat :=
  let one := s.oneStepOn i p
  s.instHead i p Ptp.sync (s.ptpFlags i d e (!one) sess.isSome) (if one then subNs e else 0) (s.msgSeqNo i p 1 sess)
      (s.msgLog i p 1 sess) ++
    (if one then ptpTime e else List.replicate 10 0) ++
    s.eavesPart (one && s.inF F.PTE_CTL_EAVES_EVT != 0) d (s.rd F.MAC_STAT_RATE p)

/-- The Follow_Up `f` (R318, R329): its time is that of the Sync in the instance's domain now (R314). -/
def State.fupMsg (s : State) (f : FollowUp) : List Nat :=
  let d := s.ptpDom f.inst
  let e := s.epochOf d (if d = 0 then f.stampA else f.stampB)
  s.instHead f.inst f.port Ptp.followUp (s.ptpFlags f.inst d e false f.sess.isSome) (subNs e) f.seq (toS 8 f.log) ++ ptpTime e ++
    (if s.profile f.inst = 5 then s.asTlv f.inst else []) ++
    s.eavesPart (s.inF F.PTE_CTL_EAVES_EVT != 0) d (s.rd F.MAC_STAT_RATE f.port)

/-- A message of instance `i` may leave port `p` now, by the state of device, port and session (R313, R317, R320, R333). -/
def State.msgAllowed (s : State) (i p kind : Nat) (sess : Option Nat) : Bool :=
  s.serves && s.ptpState i p == 1 && s.portSends p &&
    (match sess with
     | none => s.ptpRole i p == 1 && (s.profile i != 5 || s.on F.PTE_PORT_STAT_AS_CAPABLE p)
     | some n => s.sessServes i p n (if kind = 0 then 19 else 18))

/-- `PTP_MSG_DUE`: an Announce (`kind` 0) or Sync (`kind` 1) instant of instance `i` on port `p`, of session `sess` when it is below
8,192; `late` says that the message cannot leave before the next instant of its kind. -/
def execPtpMsgDue (i p kind sess : Nat) (place : TxPlace) (late : Bool) (s : State) : Host.Outcome State Fault Refusal :=
  let ss := if sess < 8192 then some sess else none
  if 2 ≤ i ∨ 32 ≤ p ∨ 2 ≤ kind ∨ late ∨ !s.msgAllowed i p kind ss then done s else
  let d := s.ptpDom i
  if s.withheld d ∧ (kind = 1 ∨ s.inF F.PTE_I_CTL_ANN_STOP i ≠ 0) then done s else
  let st := s.txStamp p d place
  let e := s.epochOf d st
  let sa := s.msgSa p ss
  match s.finishNow sa (if kind = 0 then s.announceMsg i p ss d e else s.syncMsg i p ss d e) with
  | none => done (s.authWithheld p sa)
  | some m =>
    let seq := s.msgSeqNo i p kind ss
    let log := ofS 8 (s.msgLog i p kind ss)
    let acc := s.ptpAccuracy i d (s.rd F.MAC_STAT_RATE p)
    let s := (s.sendPtp p (s.msgFrame p ss false m)).advanceSeq i p kind ss
    let s := if kind = 0 then s.wr F.PTE_I_STAT_ACCURACY acc i else s
    if kind = 1 ∧ !s.oneStepOn i p then
      done { s with ptp := { s.ptp with fups := s.ptp.fups ++ [⟨i, p, ss, seq, s.txStamp p 0 place, s.txStamp p 1 place, log⟩] } }
    else done s

/-- `FOLLOW_UP_SEND`: the oldest Follow_Up due on port `p` is sent. -/
def execFollowUpSend (p : Nat) (s : State) : Host.Outcome State Fault Refusal :=
  match s.ptp.fups.find? (fun f => f.port == p) with
  | none => done s
  | some f =>
    let s := { s with ptp := { s.ptp with fups := s.ptp.fups.erase f } }
    if !s.serves || !s.portSends p || s.ptpState f.inst p != 1 || s.withheld (s.ptpDom f.inst) then done s else
    let sa := s.msgSa p f.sess
    match s.finishNow sa (s.fupMsg f) with
    | none => done (s.authWithheld p sa)
    | some m => done (s.sendPtp p (s.msgFrame p f.sess false m))

/-! ### Requests (R319 to R321) -/

/-- The instance whose domainNumber, sdoId and profile a message on port `p` over transport `tr` fits, on a port with a role. -/
def State.instOf (s : State) (p tr : Nat) (m : List Nat) : Option Nat :=
  [0, 1].find? (fun i => s.ptpState i p != 0 && msgDomain m == s.rd F.PTE_I_DS_DOMAIN_NUM i &&
    msgSdo m == s.rd F.PTE_I_CTL_MAJOR_SDO i * 256 + s.rd F.PTE_I_CTL_MINOR_SDO i && profileTr (s.profile i) tr)

/-- The source address of a frame over transport `tr`, as a session record holds it. -/
def srcAddr (l : List Nat) (tr : Nat) : List Nat :=
  if tr = 0 then (l.drop 6).take 6
  else match udpOf l with
    | some u => (l.drop (u.ip + (if u.v6 then 8 else 12))).take (if u.v6 then 16 else 4)
    | none => []

/-- The session of port `p`, instance `i` and transport `tr` whose peer has the address `addr` (R321). -/
def State.sessFind (s : State) (p i tr : Nat) (addr : List Nat) : Option Nat :=
  (List.range 8192).find? (fun n =>
    let w := s.mrd (sessAddr n + 32) 4
    bit w 31 && !bit w 19 && bits w 22 5 == p && bits w 27 1 == i && bits w 28 2 == tr && s.mbytes (sessAddr n) addr.length == addr)

/-- A request is refused (R319, R321): counted, in its session's record too, with FS 126. -/
def State.refuse (s : State) (p : Nat) (sess : Option Nat) (fault : Bool) : State :=
  let s := s.inc F.PTE_CNT_REFUSED_COUNT p
  let s := match sess with
    | some n => s.incRec16 (sessAddr n + 60)
    | none => s
  if fault then s.raise 126 p else s

/-- The predicted departure, in ns after the last bit, keeps the promise (R360). -/
def State.admits (s : State) (pred : Nat) : Bool := pred + s.inF F.FRANK_ADM_MARGIN ≤ 6000

/-- The Delay_Req that session `n` may send in a Ridge second (R321). -/
def State.dreqLimit (s : State) (n : Nat) : Nat :=
  let log := toS 4 (bits (s.mrd (sessAddr n + 40) 4) 20 4)
  min 128 (if log ≤ 0 then 2 * 2 ^ log.natAbs else ceilDiv 2 (2 ^ log.natAbs))

/-- The Delay_Req of session `n` admitted in this second. -/
def State.dreqCount (s : State) (n : Nat) : Nat := (kvGet s.ptp.dreqs n).getD 0

/-- A frame that no hardware path takes goes to the host. -/
def State.toHost (s : State) (p : Nat) (f : RxFrame) (ev : Bool) : State := s.deliverHost p f ev

/-- An event message is received while the engine runs. -/
def State.countEvent (s : State) (p : Nat) : State := if s.on F.PTE_STAT_RUNNING then s.inc F.PTE_CNT_RX_COUNT p else s

/-- A request of instance `i` is admitted: its answer waits, with the key of association `sa` held (R337, R388). -/
def State.admitPtp (s : State) (p kind i : Nat) (f : RxFrame) (sess : Option Nat) (sa : Nat) : State :=
  let d := s.ptpDom i
  let k := if s.saSends sa then s.saTake sa else none
  let keys := match k with
    | some t => [t.1]
    | none => []
  let uses := match k with
    | some t => [t.2]
    | none => []
  let log := match sess with
    | some n => toS 4 (bits (s.mrd (sessAddr n + 40) 4) 20 4)
    | none => (s.portLogs i p).2.2
  let x : Answer := ⟨p, kind, d, s.rxStamp p d f, f, i, sess, log, keys, some sa, uses⟩
  { s with frank := { s.frank with answers := s.frank.answers ++ [x] } }

/-- The peer's port identity is learned from its first message (Table PTP-7). -/
def State.learnPeer (s : State) (n : Nat) (m : List Nat) : State :=
  if s.mbytes (sessAddr n + 16) 10 = List.replicate 10 0 then s.mput (sessAddr n + 16) ((m.drop 20).take 10) else s

/-- Whether a Delay_Req may be answered, and for which session (R321): its instance is MASTER on the port. -/
def State.dreqMatch (s : State) (p i tr : Nat) (f : RxFrame) : Option (Option Nat) :=
  if !isUnicast f.bytes then (if s.ptpRole i p = 1 then some none else none)
  else match s.sessFind p i tr (srcAddr f.bytes tr) with
    | some n => some (some n)
    | none =>
      if s.ptpRole i p = 1 then (if s.profile i = 0 ∧ s.on F.PTE_PORT_CTL_HYBRID p then some none else none)
      else if s.inF F.PTE_CTL_UNK_ANSWER ≠ 0 then some none else none

/-- A Delay_Req is received on port `p` (R319); `pred` is the predicted departure of its answer in ns after its last bit. -/
def State.delayReqRx (s : State) (p : Nat) (f : RxFrame) (tr : Nat) (m : List Nat) (pred : Nat) : State :=
  let s := s.countEvent p
  match s.instOf p tr m with
  | none => s.toHost p f true
  | some i =>
    if isP2p (s.profile i) ∨ 2 < (tagsOf f.bytes).length then s.toHost p f true
    else if s.ptpState i p ≠ 1 ∨ !s.serves then s
    else match s.dreqMatch p i tr f with
      | none => if isUnicast f.bytes then s.refuse p none false else s.toHost p f true
      | some sess =>
        let r := s.authRx p sess (s.on F.PTE_I_CTL_AUTH_REQ i) m
        let s := r.1
        if !r.2 ∨ s.withheld (s.ptpDom i) then s else
        let excess := match sess with
          | some n => !bit (s.mrd (sessAddr n + 40) 4) 17 || s.dreqLimit n ≤ s.dreqCount n
          | none => false
        if excess || !s.admits pred then s.refuse p sess true
        else
          let sa := match sess with
            | some n => s.msgSa p (some n)
            | none => if isUnicast f.bytes then 0x3F else s.msgSa p none
          let s := match sess with
            | some n =>
              let s := (s.learnPeer n m).mwr (sessAddr n + 56) 4 (s.mrd (sessAddr n + 56) 4 + 1)
              { s with ptp := { s.ptp with dreqs := kvPut s.ptp.dreqs n (s.dreqCount n + 1) } }
            | none => s
          s.admitPtp p 3 i f sess sa

/-- A Pdelay_Req is received on port `p` (R320). -/
def State.pdelayReqRx (s : State) (p : Nat) (f : RxFrame) (tr : Nat) (m : List Nat) (pred : Nat) : State :=
  let s := s.countEvent p
  match s.instOf p tr m with
  | none => s.toHost p f true
  | some i =>
    if !isP2p (s.profile i) ∨ 2 < (tagsOf f.bytes).length then s.toHost p f true
    else if s.ptpState i p ≠ 1 ∨ !s.serves then s
    else
      let r := s.authRx p none (s.on F.PTE_I_CTL_AUTH_REQ i) m
      let s := r.1
      if !r.2 then s
      else if !s.admits pred then s.refuse p none true
      else s.admitPtp p 4 i f none (if isUnicast f.bytes then 0x3F else s.msgSa p none)

/-- A frame received on an UP port with a good FCS and length (R262). -/
def State.rxGood (s : State) (p : Nat) (f : RxFrame) : Bool :=
  p < 32 && s.portState p == Port.up && f.fcsOk && 60 ≤ f.bytes.length && f.bytes.length + 4 ≤ s.rd F.MAC_CTL_MAXF p

/-- `DELAY_REQ_RX`: a Delay_Req is received on port `p`. -/
def execDelayReqRx (p : Nat) (f : RxFrame) (pred : Nat) (s : State) : Host.Outcome State Fault Refusal :=
  match ptpMsg f.bytes with
  | some (tr, m) => if s.rxGood p f ∧ msgType m = Ptp.delayReq then done (s.delayReqRx p f tr m pred) else done s
  | none => done s

/-- `PDELAY_REQ_RX`: a Pdelay_Req is received on port `p`. -/
def execPdelayReqRx (p : Nat) (f : RxFrame) (pred : Nat) (s : State) : Host.Outcome State Fault Refusal :=
  match ptpMsg f.bytes with
  | some (tr, m) => if s.rxGood p f ∧ msgType m = Ptp.pdelayReq then done (s.pdelayReqRx p f tr m pred) else done s
  | none => done s

/-! ### Answers (R319, R320) -/

/-- The Delay_Resp of answer `x` to the message `m`. -/
def State.delayRespMsg (s : State) (x : Answer) (m : List Nat) : List Nat :=
  let e := s.epochOf x.dom x.stamp
  s.instHead x.inst x.port Ptp.delayResp (s.ptpFlags x.inst x.dom e false (isUnicast x.req.bytes)) (msgCorr m - subNs e) (msgSeq m)
      x.log ++
    ptpTime e ++ (m.drop 20).take 10 ++ s.eavesPart (s.inF F.PTE_CTL_EAVES_EVT != 0) x.dom (s.rd F.MAC_STAT_RATE x.port)

/-- The Pdelay_Resp of answer `x` that leaves with the stamp `t3`; its follow-up when it is two-step. -/
def State.pdelayRespMsgs (s : State) (x : Answer) (m : List Nat) (t3 : Nat) : List (List Nat) :=
  let e2 := s.epochOf x.dom x.stamp
  let e3 := s.epochOf x.dom t3
  let uni := isUnicast x.req.bytes
  let log : Int := 0x7F
  let req := (m.drop 20).take 10
  if s.oneStepOn x.inst x.port then
    [s.instHead x.inst x.port Ptp.pdelayResp (s.ptpFlags x.inst x.dom e2 false uni) (msgCorr m + (e3 - e2)) (msgSeq m) log ++
      List.replicate 10 0 ++ req]
  else
    [s.instHead x.inst x.port Ptp.pdelayResp (s.ptpFlags x.inst x.dom e2 true uni) (-(subNs e2)) (msgSeq m) log ++ ptpTime e2 ++ req,
     s.instHead x.inst x.port Ptp.pdelayFup (s.ptpFlags x.inst x.dom e3 false uni) (msgCorr m + subNs e3) (msgSeq m) log ++
      ptpTime e3 ++ req]

/-- The answer `x` of the engine leaves port `x.port`, its first frame with the stamp `t3`. -/
def State.answerPtp (s : State) (x : Answer) (t3 : Nat) : State :=
  match ptpMsg x.req.bytes with
  | none => s
  | some (tr, m) =>
    let msgs := if x.kind = 3 then [s.delayRespMsg x m] else s.pdelayRespMsgs x m t3
    let sa := x.sa.getD 0x3F
    msgs.foldl (fun s r =>
      match s.finishMsg sa x.keys.head? r with
      | none => s.authWithheld x.port sa
      | some r => s.sendPtp x.port (s.answerFrame x.port tr x.req.bytes r (!isUnicast x.req.bytes) (x.kind == 4))) s

/-! ### Peer delay (R320) -/

/-- Port `p`'s peer delay. -/
def State.pdl (s : State) (p : Nat) : PdelaySt := s.ptp.pdelay.getD p {}
def State.setPdl (s : State) (p : Nat) (x : PdelaySt) : State := { s with ptp := { s.ptp with pdelay := s.ptp.pdelay.set p x } }

/-- The instance that measures peer delay on port `p`. -/
def State.p2pInst (s : State) (p : Nat) : Option Nat := [0, 1].find? (fun i => s.ptpState i p == 1 && isP2p (s.profile i))

/-- The mean of the last delays, in ru. -/
def meanDelay (l : List Rat) : Rat := if l.isEmpty then 0 else l.sum / l.length

/-- PDLY and asCapable follow the last exchanges (R320): at most 800 ns, and 3 of the last 4 requests answered. -/
def State.showPdelay (s : State) (p : Nat) : State :=
  let x := s.pdl p
  let m := meanDelay x.delays
  let s := s.wrSat F.PTE_PORT_PDLY_PDLY (roundRat (m / 4096)).toNat p
  let ok := !x.delays.isEmpty && decide (m ≤ 800 * 65536) && 3 ≤ x.got.countP id
  s.wrB F.PTE_PORT_STAT_AS_CAPABLE (ok && s.portState p == Port.up) p

/-- The request outstanding ends, answered or not. -/
def PdelaySt.settle (x : PdelaySt) (ok : Bool) : PdelaySt := { x with out := none, rsp := none, got := (ok :: x.got).take 4 }

/-- `PDELAY_REQ_DUE`: the PDLY interval of port `p` has passed. -/
def execPdelayReqDue (p : Nat) (place : TxPlace) (s : State) : Host.Outcome State Fault Refusal :=
  match s.p2pInst p with
  | none => done s
  | some i =>
    if 32 ≤ p ∨ !s.serves ∨ !s.portSends p then done s else
    let x := s.pdl p
    let s := if x.out.isSome then (s.setPdl p (x.settle false)).showPdelay p else s
    let x := s.pdl p
    let d := s.ptpDom i
    let t1 := s.txStamp p d place
    let e := s.epochOf d t1
    let m := s.instHead i p Ptp.pdelayReq (s.ptpFlags i d e false false) 0 x.seq (s.rdS F.PTE_PORT_RATE_PDLY p) ++ List.replicate 20 0
    let sa := s.msgSa p none
    match s.finishNow sa m with
    | none => done (s.authWithheld p sa)
    | some m =>
      let s := s.sendPtp p (s.msgFrame p none true m)
      done (s.setPdl p { x with seq := (x.seq + 1) % 2 ^ 16, out := some (x.seq, i, d, t1) })

/-- An exchange is complete: t4 - t1 less the neighbour's turnaround, halved. -/
def State.pdelayDone (s : State) (p t1 t4 : Nat) (turn : Int) : State :=
  let x := s.pdl p
  let delay : Rat := ((ridgeDist t4 t1 - turn : Int) : Rat) / 2
  (s.setPdl p { (x.settle true) with delays := (delay :: x.delays).take 16 }).showPdelay p

/-- A Pdelay_Resp or Pdelay_Resp_Follow_Up is received on port `p`. -/
def State.pdelayRespRx (s : State) (p : Nat) (f : RxFrame) (m : List Nat) : State :=
  let type := msgType m
  let s := if type = Ptp.pdelayResp then s.countEvent p else s
  let x := s.pdl p
  match x.out with
  | none => s
  | some (seq, i, d, t1) =>
    if msgSeq m ≠ seq ∨ be m 44 10 ≠ s.clkId * 2 ^ 16 + (p + 1) ∨ !s.serves then s else
    let r := s.authRx p none (s.on F.PTE_I_CTL_AUTH_REQ i) m
    let s := r.1
    if !r.2 then s
    else if type = Ptp.pdelayResp then
      let t4 := s.rxStamp p d f
      if msgTwoStep m then s.setPdl p { x with rsp := some (msgCorr m, msgTime m 34, t4) }
      else s.pdelayDone p t1 t4 (msgCorr m)
    else match x.rsp with
      | some (c, t2, t4) => s.pdelayDone p t1 t4 (msgTime m 34 - t2 + c + msgCorr m)
      | none => s

/-- `PDELAY_RESP_RX`: a Pdelay_Resp or its follow-up is received on port `p`. -/
def execPdelayRespRx (p : Nat) (f : RxFrame) (s : State) : Host.Outcome State Fault Refusal :=
  match ptpMsg f.bytes with
  | some (_, m) =>
    if s.rxGood p f ∧ (msgType m = Ptp.pdelayResp ∨ msgType m = Ptp.pdelayFup) then done (s.pdelayRespRx p f m) else done s
  | none => done s

/-! ### Foreign masters (R312, R313) -/

/-- The dataset `a` is better than `b`, field by field. -/
def betterData : List Nat → List Nat → Bool
  | x :: a, y :: b => x < y || (x == y && betterData a b)
  | _, _ => false

/-- The instance's own dataset on port `p`, and that of an Announce (R313). -/
def State.ownData (s : State) (i p : Nat) : List Nat :=
  let d := s.ptpDom i
  [s.rd F.PTE_I_DS_PRIORITY1 i, s.rd F.PTE_I_STAT_CLASS i, s.ptpAccuracy i d (s.rd F.MAC_STAT_RATE p), s.ptpVariance i d,
   s.rd F.PTE_I_DS_PRIORITY2 i, s.clkId]
def announceData (m : List Nat) : List Nat := [be m 47 1, be m 48 1, be m 49 1, be m 50 2, be m 52 1, be m 53 8]

/-- An Announce from another clock in instance `i`'s domain on port `p` (Table PTP-1). -/
def State.foreignRx (s : State) (i p : Nat) (m : List Nat) : State :=
  let clk := msgPort m / 2 ^ 16
  if clk = s.clkId then s else
  let r := s.authRx p none (s.on F.PTE_I_CTL_AUTH_REQ i) m
  let s := r.1
  if !r.2 then s else
  let s := (s.inc F.PTE_PORT_STAT_FOREIGN p).raise 124 (p + i * 256)
  if s.on F.PTE_PORT_CTL_FOREIGN_ACT p ∧ be m 53 8 ≠ s.clkId ∧ betterData (announceData m) (s.ownData i p) then
    ({ s with ptp := { s.ptp with foreign := s.ptp.foreign.set (32 * i + p) (some clk) } }).setPtpState i p 2
  else s

/-- `FOREIGN_TIMEOUT`: the better foreign master of instance `i` on port `p` has been silent for 3 of its intervals. -/
def execForeignTimeout (i p : Nat) (s : State) : Host.Outcome State Fault Refusal :=
  if 2 ≤ i ∨ 32 ≤ p ∨ s.ptpState i p ≠ 2 then done s
  else done (({ s with ptp := { s.ptp with foreign := s.ptp.foreign.set (32 * i + p) none } }).setPtpState i p 1)

/-! ### Phase changes (R329) -/

/-- A profile-5 instance takes note of a phase change of `v` 2^-16 ns. -/
def State.gmChange (s : State) (i : Nat) (v : Int) : State :=
  if s.on F.PTE_I_STAT_RUNNING i ∧ s.profile i = 5 then
    let s := s.bump F.PTE_I_UTCDAY_GM_TB i
    { s with ptp := { s.ptp with phase := s.ptp.phase.set i v } }
  else s

/-- Domain `d` has stepped by `v` ru. -/
def State.ptpStepped (s : State) (d : Nat) (v : Int) : State :=
  [0, 1].foldl (fun s i => if s.ptpDom i = d then s.gmChange i v else s) s

/-- The class map has changed from `old`: an instance that moved takes the new count minus the old one. -/
def State.ptpRemapped (s : State) (old : Nat) : State :=
  [0, 1].foldl (fun s i =>
    let d0 := bits old i 1
    let d1 := s.ptpDom i
    if d0 ≠ d1 then s.gmChange i (ridgeDist (s.count d1) (s.count d0)) else s) s

end Sys2Proof.Machine
end

