-- ==== Sys2Proof/Machine/Sess.lean ====
section
/-! DEFINITION. Unicast sessions (spec/09_ptp_engine.md): negotiation, grants, and the session commands (R330 to R333). -/
namespace Sys2Proof.Machine

/-- Words and grants of session record `n` (Table PTP-7). -/
def State.sessWord (s : State) (n : Nat) : Nat := s.mrd (sessAddr n + 32) 4
def State.sessValid (s : State) (n : Nat) : Bool := bit (s.sessWord n) 31
def State.sessGrants (s : State) (n : Nat) : Nat := s.mrd (sessAddr n + 40) 4

/-- A grant type: 0 Announce, 1 Sync, 2 Delay_Resp; its message type nibble in negotiation. -/
def grantNibble (t : Nat) : Nat := if t = 0 then 0xB else if t = 1 then 0x0 else 0x9
def grantOf (nibble : Nat) : Option Nat :=
  if nibble = 0xB then some 0 else if nibble = 0x0 then some 1 else if nibble = 0x9 then some 2 else none

/-- The grant of type `t` is in force in record `n`; its log interval; the seconds it has left. -/
def State.grantOn (s : State) (n t : Nat) : Bool := bit (s.sessGrants n) (19 - t)
def State.grantLog (s : State) (n t : Nat) : Int := toS 4 (bits (s.sessGrants n) (28 - 4 * t) 4)
def State.grantLeft (s : State) (n t : Nat) : Nat := s.mrd (sessAddr n + 44 + 2 * t) 2

/-- The grant of type `t` of record `n` is in force at `log` for `left` seconds. -/
def State.setGrant (s : State) (n t : Nat) (log : Int) (left : Nat) : State :=
  let w := setBit (setBits (s.sessGrants n) (28 - 4 * t) 4 (ofS 4 log)) (19 - t) true
  ((s.noteSess n).mwr (sessAddr n + 40) 4 w).mwr (sessAddr n + 44 + 2 * t) 2 left

/-- The grant of type `t` of record `n` ends: FS 121. -/
def State.endGrant (s : State) (n t : Nat) : State :=
  if !s.grantOn n t then s else
  (((s.noteSess n).mwr (sessAddr n + 40) 4 (setBit (s.sessGrants n) (19 - t) false)).mwr (sessAddr n + 44 + 2 * t) 2 0).raise 121 n

/-- Record `n` becomes the 64 bytes `l`, counted in SESS_USED when it was free. -/
def State.putSess (s : State) (n : Nat) (l : List Nat) : State :=
  let s := if s.sessValid n then s else s.wr F.PTE_STAT_SESS_USED (s.rd F.PTE_STAT_SESS_USED + 1)
  (s.noteSess n).mput (sessAddr n) l

/-- Record `n` is freed. -/
def State.freeSess (s : State) (n : Nat) : State :=
  if !s.sessValid n then s else
  ((s.noteSess n).mput (sessAddr n) (List.replicate 64 0)).wr F.PTE_STAT_SESS_USED (s.rd F.PTE_STAT_SESS_USED - 1)

/-- The lowest free record that no waiting `SESS_ADD` has taken. -/
def State.sessFree (s : State) : Option Nat :=
  (List.range 8192).find? (fun n => !s.sessValid n &&
    !s.ptp.changes.any (fun c => match c with | .add _ k _ => k == n | _ => false))

/-! ### Signaling messages -/

/-- A Signaling message of instance `i` on port `p` to the port identity `target`, with its TLVs. -/
def State.signalMsg (s : State) (i p seq target : Nat) (tlvs : List Nat) : List Nat :=
  let d := s.ptpDom i
  s.instHead i p Ptp.signaling (s.ptpFlags i d (s.epochOf d (s.count d)) false true) 0 seq 0x7F ++ beBytes 10 target ++ tlvs

/-- Negotiation TLVs (R330, R331). -/
def requestTlv (t : Nat) (log : Int) (dur : Nat) : List Nat :=
  beBytes 2 4 ++ beBytes 2 6 ++ [grantNibble t * 16, ofS 8 log] ++ beBytes 4 dur
def grantTlv (nibble : Nat) (log : Int) (dur : Nat) : List Nat :=
  beBytes 2 5 ++ beBytes 2 8 ++ [nibble * 16, ofS 8 log] ++ beBytes 4 dur ++ [0, 0]
def cancelTlv (nibble : Nat) : List Nat := beBytes 2 6 ++ beBytes 2 2 ++ [nibble * 16, 0]
def ackCancelTlv (nibble : Nat) : List Nat := beBytes 2 7 ++ beBytes 2 2 ++ [nibble * 16, 0]

/-- The next Signaling sequenceId of record `n`, 0 for a peer without one; and its advance. -/
def State.sigSeq (s : State) (n : Option Nat) : Nat :=
  match n with
  | some n => s.mrd (sessAddr n + 54) 2
  | none => 0
def State.advanceSig (s : State) (n : Option Nat) : State :=
  match n with
  | some n => s.mwr (sessAddr n + 54) 2 (s.mrd (sessAddr n + 54) 2 + 1)
  | none => s

/-- The device answers the Signaling frame `f` on port `p` with TLVs, in the session `n` of its sender when there is one. -/
def State.signalBack (s : State) (i p tr : Nat) (f : RxFrame) (n : Option Nat) (tlvs : List Nat) : State :=
  match ptpMsg f.bytes with
  | none => s
  | some (_, m) =>
    let sa := match n with
      | some n => s.msgSa p (some n)
      | none => 0x3F
    match s.finishNow sa (s.signalMsg i p (s.sigSeq n) (msgPort m) tlvs) with
    | none => s.authWithheld p sa
    | some r => if s.portSends p then (s.sendPtp p (s.answerFrame p tr f.bytes r false false)).advanceSig n else s

/-- The device sends TLVs to the peer of record `n`. -/
def State.signalTo (s : State) (n : Nat) (tlvs : List Nat) : State :=
  let w := s.sessWord n
  let p := bits w 22 5
  let sa := s.msgSa p (some n)
  match s.finishNow sa (s.signalMsg (bits w 27 1) p (s.sigSeq (some n)) (natOf (s.mbytes (sessAddr n + 16) 10)) tlvs) with
  | none => s.authWithheld p sa
  | some r => if s.portSends p then (s.sendPtp p (s.msgFrame p (some n) false r)).advanceSig (some n) else s

/-- The running instance whose domainNumber, sdoId and transports a Signaling message fits. -/
def State.sigInst (s : State) (tr : Nat) (m : List Nat) : Option Nat :=
  [0, 1].find? (fun i => s.ptpRuns i && msgDomain m == s.rd F.PTE_I_DS_DOMAIN_NUM i &&
    msgSdo m == s.rd F.PTE_I_CTL_MAJOR_SDO i * 256 + s.rd F.PTE_I_CTL_MINOR_SDO i && profileTr (s.profile i) tr)

/-- The TLVs of type `type` of a Signaling message, as offsets of their values. -/
def sigTlvs (m : List Nat) (type : Nat) : List Nat := ((tlvsOf m).filter (fun t => t.1 == type)).map (fun t => t.2.1)

/-- A Signaling message for instance `i` passes authentication on port `p` (R336). -/
def State.sigAuth (s : State) (i p tr : Nat) (f : RxFrame) (m : List Nat) : State × Bool :=
  s.authRx p (s.sessFind p i tr (srcAddr f.bytes tr)) (s.on F.PTE_I_CTL_AUTH_REQ i) m

/-- Requests for grants are received on port `p`: firmware will answer them (R330). -/
def State.requestRx (s : State) (p : Nat) (f : RxFrame) (tr : Nat) (m : List Nat) : State :=
  match s.sigInst tr m with
  | none => s
  | some i =>
    let l := sigTlvs m 4
    if !s.serves ∨ l.isEmpty then s else
    let r := s.sigAuth i p tr f m
    if !r.2 then r.1 else
    let items := l.map (fun o => (be m o 1 / 16, toS 8 (be m (o + 1) 1), be m (o + 2) 4))
    { r.1 with ptp := { r.1.ptp with reqs := r.1.ptp.reqs ++ [⟨f, p, i, tr, items⟩] } }

/-- `UNICAST_REQUEST_RX`: a REQUEST_UNICAST_TRANSMISSION is received on port `p`. -/
def execUnicastRequestRx (p : Nat) (f : RxFrame) (s : State) : Host.Outcome State Fault Refusal :=
  match ptpMsg f.bytes with
  | some (tr, m) => if s.rxGood p f ∧ msgType m = Ptp.signaling then done (s.requestRx p f tr m) else done s
  | none => done s

/-! ### Grants (R330, R331) -/

/-- Messages per second at a log interval. -/
def logRate (log : Int) : Rat := if log ≤ 0 then (2 ^ log.natAbs : Nat) else 1 / (2 ^ log.natAbs : Nat)

/-- The scheduled transmit load of port `p`, in messages per second: granted types and multicast messages. -/
def State.portLoad (s : State) (p : Nat) : Rat :=
  let sess := (List.range 8192).map (fun n =>
    if s.sessValid n && !bit (s.sessWord n) 19 && bits (s.sessWord n) 22 5 == p then
      ([0, 1, 2].map (fun t => if s.grantOn n t then logRate (s.grantLog n t) else 0)).sum
    else 0)
  let multi := [0, 1].map (fun i =>
    if s.ptpRuns i && s.ptpRole i p == 1 then logRate (s.portLogs i p).1 + logRate (s.portLogs i p).2.1 else 0)
  sess.sum + multi.sum

/-- The greatest scheduled load of a port of rate code `rate`. -/
def loadLimit (rate : Nat) : Nat := [1048576, 262144, 65536, 8192].getD rate 8192

/-- The type of a requested message is granted (R330); `n` is the peer's record when it has one. -/
def State.grantable (s : State) (x : Negotiation) (n : Option Nat) (item : Nat × Int × Nat) : Option Nat :=
  match grantOf item.1 with
  | none => none
  | some t =>
    let prof := s.profile x.inst
    let least := ((profileLogs prof).getD t (0, 0)).1
    let held := match n with
      | some n => if s.grantOn n t then logRate (s.grantLog n t) else 0
      | none => 0
    let load := s.portLoad x.port - held + logRate item.2.1
    if (prof = 0 ∨ prof = 3 ∨ prof = 4) ∧ s.ptpRole x.inst x.port ≠ 0 ∧ least ≤ item.2.1 ∧ -7 ≤ item.2.1 ∧
        (n.isSome ∨ s.sessFree.isSome) ∧ load ≤ loadLimit (s.rd F.MAC_STAT_RATE x.port) then some t
    else none

/-- The duration granted for `dur`: clipped to MIN_DUR and MAX_DUR. -/
def State.grantDur (s : State) (dur : Nat) : Nat := max (s.inF F.PTE_NEG_MIN_DUR) (min dur (s.inF F.PTE_NEG_MAX_DUR))

/-- `GRANT_TX`: firmware answers the oldest request: a GRANT for each type, with duration 0 and FS 120 for one refused. -/
def execGrantTx (s : State) : Host.Outcome State Fault Refusal :=
  match s.ptp.reqs with
  | [] => done s
  | x :: t =>
    let s := { s with ptp := { s.ptp with reqs := t } }
    if !s.serves then done s else
    let n := s.sessFind x.port x.inst x.tr (srcAddr x.frame.bytes x.tr)
    let judged := x.items.map (fun q => (q, s.grantable x n q))
    let tlvs := judged.map (fun q =>
      grantTlv q.1.1 q.1.2.1 (if q.2.isSome then s.grantDur q.1.2.2 else 0))
    let got := (judged.filter (fun q => q.2.isSome)).map (fun q => (q.2.getD 0, q.1.2.1, s.grantDur q.1.2.2))
    let s := s.signalBack x.inst x.port x.tr x.frame n tlvs.flatten
    let s := (judged.filter (fun q => q.2.isNone)).foldl (fun s _ => s.raise 120 x.port) s
    if got.isEmpty then done s
    else done { s with ptp := { s.ptp with grants := s.ptp.grants ++ [{ x with items := got }] } }

/-- A new negotiated record for the sender of `x` (Table PTP-7): no grant yet, no association. -/
def newRecord (x : Negotiation) : List Nat :=
  let l := x.frame.bytes
  let tags := tagsOf l
  let id := match ptpMsg l with
    | some (_, m) => (m.drop 20).take 10
    | none => List.replicate 10 0
  let addr := srcAddr l x.tr
  let w32 := 2 ^ 31 + 2 ^ 30 + x.tr % 4 * 2 ^ 28 + x.inst % 2 * 2 ^ 27 + x.port % 32 * 2 ^ 22 + min 2 tags.length * 2 ^ 20 + 0x3F * 2 ^ 13
  let tci := (tags.getD 0 (0, 0)).2 * 2 ^ 16 + (tags.getD 1 (0, 0)).2
  addr ++ List.replicate (16 - addr.length) 0 ++ id ++ (l.drop 6).take 6 ++ leBytes 4 w32 ++ leBytes 4 tci ++ List.replicate 14 0 ++
    [1, 0] ++ List.replicate 8 0

/-- The grants of `x` take effect: the sender's record is made when it has none; a permanent grant is left as it is. -/
def State.applyGrant (s : State) (x : Negotiation) : State :=
  let addr := srcAddr x.frame.bytes x.tr
  let r : State × Option Nat :=
    match s.sessFind x.port x.inst x.tr addr with
    | some n => (s, some n)
    | none =>
      match s.sessFree with
      | some n => (s.putSess n (newRecord x), some n)
      | none => (s, none)
  match r.2 with
  | none => r.1
  | some n => x.items.foldl (fun s q =>
      if s.grantOn n q.1 && s.grantLeft n q.1 == 0xFFFF then s else s.setGrant n q.1 q.2.1 q.2.2) r.1

/-- The grants that firmware has given take effect, in order. -/
def State.applyGrants (s : State) : State :=
  s.ptp.grants.foldl State.applyGrant { s with ptp := { s.ptp with grants := [] } }

/-- One second passes for record `n` (R331). -/
def State.tickSess (s : State) (n : Nat) : State :=
  if !s.sessValid n then s else
  let s := [0, 1, 2].foldl (fun s t =>
    let left := s.grantLeft n t
    if !s.grantOn n t ∨ left = 0xFFFF then s
    else if left ≤ 1 then s.endGrant n t
    else s.mwr (sessAddr n + 44 + 2 * t) 2 (left - 1)) s
  if bit (s.sessWord n) 30 && !([0, 1, 2].any (s.grantOn n)) then s.freeSess n else s

/-- `GRANT_TICK`: beat 0 of a second: pending grants are applied, then every grant has one second less; the count of Delay_Req of each
session starts again. -/
def execGrantTick (s : State) : Host.Outcome State Fault Refusal :=
  let s := forN 8192 s.applyGrants State.tickSess
  done { s with ptp := { s.ptp with dreqs := [] } }

/-- `CANCEL_RX`: a CANCEL_UNICAST_TRANSMISSION is received on port `p`: the type stops at once and is acknowledged. -/
def State.cancelRx (s : State) (p : Nat) (f : RxFrame) (tr : Nat) (m : List Nat) : State :=
  match s.sigInst tr m with
  | none => s
  | some i =>
    let l := (sigTlvs m 6).map (fun o => be m o 1 / 16)
    if !s.serves ∨ l.isEmpty then s else
    let r := s.sigAuth i p tr f m
    if !r.2 then r.1 else
    let n := r.1.sessFind p i tr (srcAddr f.bytes tr)
    let s := l.foldl (fun s q => match n, grantOf q with
      | some n, some t => s.endGrant n t
      | _, _ => s) r.1
    s.signalBack i p tr f n (l.map ackCancelTlv).flatten

/-- `CANCEL_RX`: a CANCEL_UNICAST_TRANSMISSION is received on port `p`. -/
def execCancelRx (p : Nat) (f : RxFrame) (s : State) : Host.Outcome State Fault Refusal :=
  match ptpMsg f.bytes with
  | some (tr, m) => if s.rxGood p f ∧ msgType m = Ptp.signaling then done (s.cancelRx p f tr m) else done s
  | none => done s

/-! ### Session commands (Table PTP-8, R332) -/

/-- A session command waits for its beat edge. -/
def State.waitSess (s : State) (c : SessChange) : State := { s with ptp := { s.ptp with changes := s.ptp.changes ++ [c] } }

/-- The first 50 bytes of a record are valid. -/
def recordOk (l : List Nat) : Bool :=
  let w := natOf ((l.drop 32).take 4).reverse
  let g := natOf ((l.drop 40).take 4).reverse
  let logOk := fun (o : Nat) => inSpan (-7, 4) (toS 4 (bits g o 4))
  l.length == 50 && bits w 28 2 != 3 && bits w 20 2 != 3 && logOk 28 && logOk 24 && logOk 20

/-- The record as `SESS_ADD` stores it: VALID, static, its counters 0. -/
def staticRecord (l : List Nat) : List Nat :=
  let w := natOf ((l.drop 32).take 4).reverse
  let g := natOf ((l.drop 40).take 4).reverse
  let w' := setBits (setBit (setBit w 31 true) 30 false) 0 13 0
  l.take 32 ++ leBytes 4 w' ++ (l.drop 36).take 4 ++ leBytes 4 (setBits g 0 17 0) ++ (l.drop 44).take 6 ++ List.replicate 14 0

/-- A record is in use, or a waiting `SESS_ADD` has taken it. -/
def State.sessTaken (s : State) (n : Nat) : Bool :=
  s.sessValid n || s.ptp.changes.any (fun c => match c with | .add _ k _ => k == n | _ => false)

/-- `SESS_ADD`: parameter word 0 and the record's first 50 bytes. -/
def execSessAdd (c : CmdRef) (w0 : Nat) (buf : List Nat) (s : State) : Host.Outcome State Fault Refusal :=
  let l := buf.map (fun b => b % 256)
  if s.notHolder then done (s.finish c Code.notTokenHolder)
  else if !recordOk l then done (s.finish c Code.badParam)
  else if bit w0 13 then
    match s.sessFree with
    | some n => done (s.waitSess (.add c n (staticRecord l)))
    | none => done (s.finish c Code.busyRetry)
  else if s.sessTaken (bits w0 0 13) then done (s.finish c Code.badParam)
  else done (s.waitSess (.add c (bits w0 0 13) (staticRecord l)))

/-- `SESS_DEL`: parameter word 0. -/
def execSessDel (c : CmdRef) (w0 : Nat) (s : State) : Host.Outcome State Fault Refusal :=
  if s.notHolder then done (s.finish c Code.notTokenHolder)
  else if !s.sessValid (bits w0 0 13) then done (s.finish c Code.badParam)
  else done (s.waitSess (.del c (bits w0 0 13)))

/-- `SESS_SA`: parameter word 0. -/
def execSessSa (c : CmdRef) (w0 : Nat) (s : State) : Host.Outcome State Fault Refusal :=
  let k := bits w0 16 6
  if s.notHolder then done (s.finish c Code.notTokenHolder)
  else if !s.sessValid (bits w0 0 13) then done (s.finish c Code.badParam)
  else if k ≠ 0x3F ∧ !(s.saSends k && s.saUsable (s.saCtl k)) then done (s.finish c Code.keyUnavailable)
  else done (s.waitSess (.setSa c (bits w0 0 13) k))

/-- `SESS_FLUSH`: parameter word 0. -/
def execSessFlush (c : CmdRef) (w0 : Nat) (s : State) : Host.Outcome State Fault Refusal :=
  if s.notHolder then done (s.finish c Code.notTokenHolder)
  else done (s.waitSess (.flush c (bits w0 0 5) (bits w0 5 1)))

/-- Record `n` is freed by a command; a negotiated one first cancels each type granted. -/
def State.dropSess (s : State) (n : Nat) : State :=
  let l := [0, 1, 2].filter (s.grantOn n)
  let s := if bit (s.sessWord n) 30 then l.foldl (fun s t => s.signalTo n (cancelTlv (grantNibble t))) s else s
  s.freeSess n

/-- A session command takes effect and completes. -/
def State.applySess (s : State) (x : SessChange) : State :=
  match x with
  | .add c n r => (s.putSess n r).finish c Code.ok n
  | .del c n => (s.dropSess n).finish c Code.ok
  | .setSa c n k =>
    if !s.sessValid n then s.finish c Code.badParam
    else ((s.noteSess n).mwr (sessAddr n + 32) 4 (setBits (s.sessWord n) 13 6 k)).finish c Code.ok
  | .flush c p i =>
    let mine := fun n => s.sessValid n && bit (s.sessWord n) 30 && bits (s.sessWord n) 22 5 == p && bits (s.sessWord n) 27 1 == i
    ((idxs 8192 mine).foldl State.dropSess s).finish c Code.ok

/-- The session changes take effect at a beat edge: the grants sent before it, then the commands in order. -/
def State.applySessions (s : State) : State :=
  let s := s.applyGrants
  s.ptp.changes.foldl State.applySess { s with ptp := { s.ptp with changes := [] } }

/-- `SESSION_APPLY`: session changes take effect at the beat edge. -/
def execSessionApply (s : State) : Host.Outcome State Fault Refusal := done s.applySessions

/-- On taking the token, every sequence counter advances by 16 (R333). -/
def State.takeSequences (s : State) : State :=
  let up := fun (l : List Nat) => l.map (fun q => (q + 16) % 2 ^ 16)
  let s := { s with ptp := { s.ptp with
                                        seqAnn := up s.ptp.seqAnn, seqSync := up s.ptp.seqSync,
                                        pdelay := s.ptp.pdelay.map (fun x => { x with seq := (x.seq + 16) % 2 ^ 16 }) } }
  forN 8192 s (fun s n =>
    if !s.sessValid n then s else
    [50, 52, 54].foldl (fun s o => s.mwr (sessAddr n + o) 2 (s.mrd (sessAddr n + o) 2 + 16)) s)

end Sys2Proof.Machine
end

