-- ==== Sys2Proof/Machine/Ntp.lean ====
section
/-! DEFINITION. NTP and NTS serving and the Franking unit (spec/10_ntp_nts_franking.md): requests, answers, cookies, master keys,
pipelines, and the departure of every admitted answer. -/
namespace Sys2Proof.Machine

/-! ### The requests (R343, R344, Table NTS-1) -/

/-- NTP, or NTS, is served on port `p`. -/
def State.ntpOn (s : State) (p : Nat) : Bool := s.on F.FRANK_NTP_CTL_EN && bit (s.inF F.FRANK_NTP_PORTS_PORTS) p
def State.ntsOn (s : State) (p : Nat) : Bool :=
  s.on F.FRANK_NTS_CTL_EN && s.on F.FRANK_CTL_EN && bit (s.inF F.FRANK_NTS_PORTS_PORTS) p

/-- The tests of R343 before the UDP test: address, tags, options, fragment, header checksum. -/
def State.ntpIpOk (s : State) (p : Nat) (l : List Nat) (u : Udp) : Bool :=
  let en := s.mrd (portAddr p + 20) 4
  (tagsOf l).length ≤ 2 &&
  (if u.v6 then bit en 1 && (l.drop (u.ip + 24)).take 16 == s.portIp6 p
   else bit en 0 && (l.drop (u.ip + 16)).take 4 == s.portIp4 p && be l u.ip 1 == 0x45 && be l (u.ip + 6) 2 % 0x4000 == 0 &&
     onesSum ((l.drop u.ip).take 20) == 0xFFFF)

/-- The UDP checksum of a frame is correct, or zero for IPv4. -/
def udpSumOk (l : List Nat) (u : Udp) : Bool :=
  let c := be l (u.data - 2) 2
  (!u.v6 && c == 0) || be (udpSum l) (u.data - 2) 2 == c

/-- The UDP payload of a frame. -/
def udpData (l : List Nat) (u : Udp) : List Nat := (l.drop u.data).take (be l (u.data - 4) 2 - 8)

/-- Extension fields of an NTP payload from offset `o`, at most `fuel` (RFC 7822): type, offset and length of the field, or none when
they do not fill it. -/
def extsFrom (m : List Nat) : Nat → Nat → Option (List (Nat × Nat × Nat))
  | 0, _ => none
  | fuel + 1, o =>
    if o = m.length then some []
    else
      let n := be m (o + 2) 2
      if m.length < o + 16 ∨ n < 16 ∨ n % 4 ≠ 0 ∨ m.length < o + n then none
      else (extsFrom m fuel (o + n)).map (fun t => (be m o 2, o, n) :: t)

/-- The extension fields of an NTP payload. -/
def extsOf (m : List Nat) : Option (List (Nat × Nat × Nat)) := extsFrom m (m.length + 1) 48

/-- The paths of Table NTS-1. -/
inductive NtpPath where
  | ntp | nts | other
  deriving DecidableEq, Repr

/-- The path of a payload on a port with these bits. -/
def ntpPath (ntp nts : Bool) (m : List Nat) : NtpPath :=
  let vn := bits (be m 0 1) 3 3
  if m.length = 48 then (if ntp then .ntp else .other)
  else match extsOf m with
    | some l => if vn = 4 ∧ nts ∧ l.any (fun x => x.1 == 0x0104) then .nts else .other
    | none => .other

/-- What an NTS request holds (R354): the Unique Identifier field, the cookie, the number of placeholders of at least 104 bytes, and
the offset of the Authenticator; none for any other shape. -/
def ntsShape (m : List Nat) : Option (List Nat × List Nat × Nat × Nat) :=
  match extsOf m with
  | none => none
  | some l =>
    let uid := l.filter (fun x => x.1 == 0x0104)
    let ck := l.filter (fun x => x.1 == 0x0204)
    let ph := l.filter (fun x => x.1 == 0x0304)
    match uid, ck, l.getLast? with
    | [u], [c], some a =>
      let nl := be m (a.2.1 + 4) 2
      let cl := be m (a.2.1 + 6) 2
      if l.length = 3 + ph.length ∧ ph.length ≤ 7 ∧ 36 ≤ u.2.2 ∧ u.2.2 ≤ 68 ∧ c.2.2 = 104 ∧ a.1 = 0x0404 ∧ 16 ≤ nl ∧ nl ≤ 32 ∧ cl = 16 ∧
          8 + (nl + 3) / 4 * 4 + 16 ≤ a.2.2 then
        some ((m.drop u.2.1).take u.2.2, (m.drop (c.2.1 + 4)).take 100, (ph.filter (fun x => 104 ≤ x.2.2)).length, a.2.1)
      else none
    | _, _, _ => none

/-- A request is discarded or refused: counted. -/
def State.ntpRefuse (s : State) (p : Nat) : State := s.inc F.FRANK_CNT_REF_COUNT p

/-- The host takes it under HOST_OTHER, or it is discarded and counted. -/
def State.ntpOther (s : State) (p : Nat) (f : RxFrame) : State :=
  if s.on F.FRANK_NTP_CTL_HOST_OTHER then s.toHost p f false else s.ntpRefuse p

/-- A request is admitted: its answer waits. -/
def State.admitNtp (s : State) (p kind d : Nat) (f : RxFrame) (keys : List (List Nat)) (uses : List (Nat × Nat)) : State :=
  let x : Answer := ⟨p, kind, d, s.rxStamp p d f, f, 0, none, 0, keys, none, uses⟩
  { s with frank := { s.frank with answers := s.frank.answers ++ [x] } }

/-! ### Cookies (R353, Table NTS-4) -/

/-- The key of the usable master key with this KEYID. -/
def State.cookieKey (s : State) (keyId : Nat) : Option (List Nat) :=
  ((List.range 3).find? (fun j => s.mkeyUsable j && s.rd F.FRANK_NTS_MKEY_ID_KEYID j == keyId)).map
    (fun j => s.slateKey (s.rd F.FRANK_NTS_MKEY_CTL_SLATE j))

/-- C2S and S2C of a cookie that opens. -/
def State.openCookie (s : State) (ck : List Nat) : Option (List Nat × List Nat) :=
  match s.cookieKey (natOf (ck.take 4)) with
  | none => none
  | some k => (sivOpen k [ck.take 4, (ck.drop 4).take 16] (ck.drop 20)).map (fun p => (p.take 32, p.drop 32))

/-- A cookie that holds `keys` under the master key `mk` of identifier `keyId`, with a nonce of the DRBG. -/
def State.sealCookie (s : State) (keyId : List Nat) (mk keys : List Nat) : List Nat × State :=
  let nonce := bytesOf 16 s.draw.1
  (keyId ++ nonce ++ sivSeal mk [keyId, nonce] keys, s.draw.2)

/-- `n` cookies. -/
def State.sealCookies : Nat → State → List Nat → List Nat → List Nat → List (List Nat) × State
  | 0, s, _, _, _ => ([], s)
  | n + 1, s, keyId, mkey, keys =>
    let r := s.sealCookie keyId mkey keys
    let t := State.sealCookies n r.2 keyId mkey keys
    (r.1 :: t.1, t.2)

/-- The NTS request is to be met with NTSN: counted, with `fs` once per beat per port, and admitted when NAK_EN = 1 (R359). -/
def State.ntsNak (s : State) (p d : Nat) (f : RxFrame) (fs : Option Nat) : State :=
  let s := s.inc F.FRANK_CNT_NAK_COUNT p
  let s := match fs with
    | some n => s.raiseOnce n p p
    | none => s
  if s.on F.FRANK_NTS_CTL_NAK_EN then s.admitNtp p 2 d f [] [] else s

/-- An NTS request of good shape is admitted (R354 to R359): its keys are held from here. -/
def State.ntsAdmit (s : State) (p d : Nat) (f : RxFrame) (m : List Nat) (x : List Nat × List Nat × Nat × Nat) : State :=
  if !s.on F.FRANK_STAT_DRBG_OK then s
  else if !s.mkeyUsable 1 then s.ntsNak p d f none
  else match s.openCookie x.2.1 with
    | none => s.ntsNak p d f (some 128)
    | some k =>
      let o := x.2.2.2
      let nl := be m (o + 4) 2
      let nonce := (m.drop (o + 8)).take nl
      let ct := (m.drop (o + 8 + (nl + 3) / 4 * 4)).take 16
      match sivOpen k.1 [m.take o, nonce] ct with
      | none => s.ntsNak p d f (some 129)
      | some _ =>
        let n := s.rd F.FRANK_NTS_MKEY_CTL_SLATE 1
        s.admitNtp p 1 d f [k.1, k.2, s.slateKey n, bytesOf 4 (s.rd F.FRANK_NTS_MKEY_ID_KEYID 1)] [(n, s.activeBank n)]

/-- A UDP datagram to port 123 on port `p` (R343, R344, R349, R360); `pred` is the predicted departure of its answer. -/
def State.ntpDatagram (s : State) (p : Nat) (f : RxFrame) (u : Udp) (pred : Nat) : State :=
  if u.src = 0 ∨ !udpSumOk f.bytes u then s.ntpRefuse p else
  let m := udpData f.bytes u
  let vn := bits (be m 0 1) 3 3
  if m.length < 48 ∨ !(vn = 3 ∨ vn = 4) ∨ bits (be m 0 1) 0 3 ≠ 3 then s.ntpOther p f else
  match ntpPath (s.ntpOn p) (s.ntsOn p) m with
  | .other => s.ntpOther p f
  | .ntp =>
    let d := s.classDom Cls.ntp
    if !s.serves then s
    else if s.withheld d ∧ !s.on F.FRANK_NTP_CTL_WH_ANS then s.ntpRefuse p
    else if !s.admits pred then (s.ntpRefuse p).raise 131 p
    else s.admitNtp p 0 d f [] []
  | .nts =>
    let d := s.classDom Cls.nts
    match ntsShape m with
    | none => s.ntpRefuse p
    | some x =>
      if !s.serves then s
      else if s.withheld d ∧ !s.on F.FRANK_NTP_CTL_WH_ANS then s.ntpRefuse p
      else if !s.admits pred then (s.ntpRefuse p).raise 131 p
      else s.ntsAdmit p d f m x

/-- A frame is a request for the hardware path, or an ordinary frame (R343). -/
def State.ntpRx (s : State) (p : Nat) (f : RxFrame) (pred : Nat) : State :=
  match udpOf f.bytes with
  | none => s.toHost p f false
  | some u =>
    if u.dst ≠ 123 ∨ !(s.ntpOn p || s.ntsOn p) ∨ !s.ntpIpOk p f.bytes u then s.toHost p f false
    else s.ntpDatagram p f u pred

/-- `NTP_REQUEST_RX`: a UDP port 123 request is received on port `p`. -/
def execNtpRequestRx (p : Nat) (f : RxFrame) (pred : Nat) (s : State) : Host.Outcome State Fault Refusal :=
  if s.rxGood p f then done (s.ntpRx p f pred) else done s

/-! ### The answers (R345 to R350, R355, Tables NTS-2 and NTS-3) -/

/-- The reference ID index of domain `d` (R350). -/
def State.refIdx (s : State) (d : Nat) : Nat :=
  if s.domState d = DomSt.holdover then 4
  else match s.topTrace d with
    | none => Config.refIdOf 24 % 5
    | some n =>
      if n = 11 then 0
      else if n < 8 then 1
      else if 20 ≤ n then (if s.on F.PTE_CLI_CTL_PROTO (n - 20) then 3 else 2)
      else Config.refIdOf n % 5

/-- LI, stratum and reference ID of an answer in domain `d` whose own time is `e` (Table NTS-3). -/
def State.ntpQuality (s : State) (d : Nat) (e : Int) : Nat × Nat × Nat :=
  let u := s.rd F.FRANK_NTP_CTL_UTC_INST
  let st := s.domState d
  let li := s.leapFlag u e
  let hold := s.inF F.FRANK_NTP_REFID_REFID 4
  if s.withheld d ∨ !s.everTraced d ∨ !s.utcValid u then (3, 16, hold)
  else if st = DomSt.locked then (li, s.inF F.FRANK_NTP_STRAT_STRAT_LOCKED, s.inF F.FRANK_NTP_REFID_REFID (s.refIdx d))
  else if st = DomSt.acquiring ∨ st = DomSt.holdover then
    (li, s.inF F.FRANK_NTP_STRAT_STRAT_HOLD, s.inF F.FRANK_NTP_REFID_REFID (s.refIdx d))
  else (li, s.inF F.FRANK_NTP_STRAT_STRAT_LOST, hold)

/-- A bound (LSB 0.25 ns) as root dispersion: units of 2^-16 s, rounded up, never 0 (R167). -/
def rootDispersion (bound : Nat) : Nat := satU 32 (max 1 (ceilDiv (bound * 65536) 4000000000))

/-- An epoch time of the device as an NTP timestamp, by the UTC settings that NTP serving names (R347). -/
def State.ntpTime (s : State) (e : Int) : Nat := ntpStamp e (s.taiUtc (s.rd F.FRANK_NTP_CTL_UTC_INST) e)

/-- The header of the answer `x` to the payload `m` that leaves with the stamp `t3` (Table NTS-2); `kiss` for an NTSN. -/
def State.ntpHeader (s : State) (x : Answer) (m : List Nat) (t3 : Nat) (kiss : Bool) : List Nat :=
  let e3 := s.epochOf x.dom t3
  let q := if kiss then (3, 0, 0x4E54534E) else s.ntpQuality x.dom e3
  let bound := s.frameBound x.dom (s.rd F.MAC_STAT_RATE x.port)
  let ref := if s.everTraced x.dom then s.ntpTime (s.frank.refTime.getD x.dom 0) else 0
  [q.1 * 64 + bits (be m 0 1) 3 3 * 8 + 4, q.2.1, be m 2 1, s.rd F.FRANK_NTP_CTL_PRECISION] ++
    beBytes 4 (s.inF F.FRANK_NTP_ROOTDLY_ROOT_DELAY) ++ beBytes 4 (rootDispersion bound) ++ beBytes 4 q.2.2 ++ beBytes 8 ref ++
    (m.drop 40).take 8 ++ beBytes 8 (s.ntpTime (s.epochOf x.dom x.stamp)) ++ beBytes 8 (s.ntpTime e3)

/-- The frame that answers the datagram `u` of frame `l` on port `p` with the payload `m` (R345). -/
def State.ntpFrame (s : State) (p : Nat) (l : List Nat) (u : Udp) (m : List Nat) : List Nat :=
  let head := (l.drop 6).take 6 ++ l.take 6 ++ tagBytes l
  let ip := (l.drop (u.ip + (if u.v6 then 8 else 12))).take (if u.v6 then 16 else 4)
  padTo 60 (s.udpFrame p u.v6 head ip 123 u.src m)

/-- The payload that answers `x` and the state after the nonces it takes; none when it cannot be built (R355, R366). -/
def State.ntpPayload (s : State) (x : Answer) (m : List Nat) (t3 : Nat) : Option (List Nat × State) :=
  if x.kind = 0 then some (s.ntpHeader x m t3 false, s)
  else if !s.on F.FRANK_STAT_DRBG_OK then none
  else match ntsShape m with
    | none => none
    | some sh =>
      if x.kind = 2 then some (s.ntpHeader x m t3 true ++ sh.1, s)
      else
        let k := fun i => x.keys.getD i []
        let n := min (1 + sh.2.2.1) (s.rd F.FRANK_NTS_CTL_MAX_COOKIES)
        let head := s.ntpHeader x m t3 false ++ sh.1
        let nonce := bytesOf 16 s.draw.1
        let r := State.sealCookies n s.draw.2 (k 3) (k 2) (k 0 ++ k 1)
        let ct := sivSeal (k 1) [head, nonce] ((r.1.map (fun c => beBytes 2 0x0204 ++ beBytes 2 104 ++ c)).flatten)
        some (head ++ beBytes 2 0x0404 ++ beBytes 2 (8 + 16 + ct.length) ++ beBytes 2 16 ++ beBytes 2 ct.length ++ nonce ++ ct, r.2)

/-- The answer `x` of NTP or NTS leaves with the stamp `t3`, and is counted. -/
def State.answerNtp (s : State) (x : Answer) (t3 : Nat) : State :=
  match udpOf x.req.bytes with
  | none => s
  | some u =>
    match s.ntpPayload x (udpData x.req.bytes u) t3 with
    | none => s
    | some r =>
      let s := r.2.sendFrame x.port (r.2.ntpFrame x.port x.req.bytes u r.1)
      if x.kind = 0 then s.inc F.FRANK_CNT_NTP_COUNT x.port
      else if x.kind = 1 then s.inc F.FRANK_CNT_NTS_COUNT x.port else s

/-- `ANSWER_SEND`: the oldest admitted answer on port `p` leaves, placed as `place` says; `late` says that a launch entry armed too late
has displaced it (R361). -/
def execAnswerSend (p : Nat) (place : TxPlace) (late : Bool) (s : State) : Host.Outcome State Fault Refusal :=
  match s.frank.answers.find? (fun a => a.port == p) with
  | none => done s
  | some x =>
    if !s.portSends p then done (s.dropAnswers (fun a => a == x)) else
    let s := { s with frank := { s.frank with answers := s.frank.answers.erase x } }
    let s := if late then (s.inc F.FRANK_CNT_LATE_COUNT).raise 132 else s
    let t3 := s.txStamp p x.dom place
    done (if x.kind < 3 then s.answerNtp x t3 else s.answerPtp x t3)

/-! ### Key commands (R357, Table NTS-5) -/

/-- A KEYID is in use by a master key, or by a rotation that waits. -/
def State.keyIdUsed (s : State) (k : Nat) : Bool :=
  (List.range 3).any (fun j => s.on F.FRANK_NTS_MKEY_CTL_VALID j && s.rd F.FRANK_NTS_MKEY_ID_KEYID j == k) ||
    s.frank.rots.any (fun r => r.keyid == k)

/-- `NTS_ROTATE`: parameter words 0 and 1. A rotation waits in the key group's queue, never merged (R574). -/
def execNtsRotate (c : CmdRef) (w0 w1 : Nat) (s : State) : Host.Outcome State Fault Refusal :=
  let n := bits w0 0 8
  let q := quietGroup Act.keyRotate 0
  let l := s.quietQueue q
  if s.notHolder then done (s.finish c Code.notTokenHolder)
  else if w1 % 2 ^ 32 = 0 ∨ s.keyIdUsed (w1 % 2 ^ 32) then done (s.finish c Code.badParam)
  else if !s.slateAvail n then done (s.finish c Code.keyUnavailable)
  else if s.slateUse n Usage.cookie true ≠ Code.ok then done (s.finish c Code.keyAttr)
  else if 64 ≤ l.length then done (s.finish c Code.busyRetry)
  else
    let wait := (s.quietRun q).isSome || !l.isEmpty
    let s := if wait then (s.inc F.SORT_CNT_DEFERRALS q).defer c else s
    let s := { s with frank := { s.frank with rots := s.frank.rots ++ [Rotation.mk c n (w1 % 2 ^ 32)] } }
    let s := s.setQueue q (l ++ [SortEntry.mk Act.keyRotate 0 false [c] s.ridge.ticks false])
    done (s.mirrorCmd 0x0440 (s.edgeBeat false) [w0, w1])

/-- Master key `j` takes what master key `k` holds. -/
def State.moveMkey (s : State) (j k : Nat) : State :=
  [F.FRANK_NTS_MKEY_CTL_VALID, F.FRANK_NTS_MKEY_CTL_ORPHAN, F.FRANK_NTS_MKEY_CTL_SLATE, F.FRANK_NTS_MKEY_ID_KEYID].foldl
    (fun s f => s.wr f (s.rd f k) j) s

/-- `ROTATE_APPLY`: at a beat edge on which no activity of the key group runs, the oldest rotation takes effect (R357, R574). -/
def execRotateApply (s : State) : Host.Outcome State Fault Refusal :=
  let q := quietGroup Act.keyRotate 0
  match s.frank.rots, (s.quietQueue q).find? (fun e => e.act == Act.keyRotate) with
  | r :: t, some e =>
    if (s.quietRun q).isSome ∨ s.on F.TOP_STAT_SAFE then done s else
    let s := { s with frank := { s.frank with rots := t } }
    let s := (s.moveMkey 0 1).moveMkey 1 2
    let s := ((s.wr F.FRANK_NTS_MKEY_CTL_VALID 1 2).wr F.FRANK_NTS_MKEY_CTL_ORPHAN 0 2).wr F.FRANK_NTS_MKEY_CTL_SLATE r.slate 2
    let s := (s.wr F.FRANK_NTS_MKEY_ID_KEYID r.keyid 2).showMkeys
    done (((s.startEntry q e).endEntry q Code.ok 0 0 false).finish r.ref Code.ok)
  | _, _ => done s

/-- 32-bit words, little-endian, of a list of bytes. -/
def wordsOf (l : List Nat) : List Nat := (chunks 4 (l.length / 4 + 1) l).map (fun b => natOf b.reverse)

/-- `NTS_COOKIE_SEAL`: parameter words 0 and 1, C2S and S2C, and the address of the buffer for the cookies. -/
def execNtsCookieSeal (c : CmdRef) (w0 w1 : Nat) (keys : List Nat) (buf : Nat) (s : State) : Host.Outcome State Fault Refusal :=
  let n := bits w0 0 4
  if n = 0 ∨ 8 < n ∨ w1 ≠ 15 ∨ keys.length ≠ 64 then done (s.finish c Code.badParam)
  else if !s.mkeyUsable 1 ∨ !s.on F.FRANK_STAT_DRBG_OK then done (s.finish c Code.keyUnavailable)
  else
    let mk := s.slateKey (s.rd F.FRANK_NTS_MKEY_CTL_SLATE 1)
    let r := State.sealCookies n s (bytesOf 4 (s.rd F.FRANK_NTS_MKEY_ID_KEYID 1)) mk (keys.map (fun b => b % 256))
    done ((r.2.outBuf c buf (wordsOf r.1.flatten)).finish c Code.ok 0 0 (100 * n))

/-! ### The unit and its pipelines (R365, R366, R371 to R373) -/

/-- The pipelines in service, as a mask. -/
def State.pipesUp (s : State) : List Nat :=
  idxs 12 (fun k => s.on F.FRANK_STAT_RUNNING && !bit (s.inF F.FRANK_PIPE_OOS_OOS) k && !s.frank.badPipes.contains k)

/-- PIPE_ACT and PENDING_ENABLE follow. -/
def State.showFrank (s : State) : State :=
  (s.wr F.FRANK_STAT_PIPE_ACT (maskOf s.pipesUp)).wrB F.FRANK_STAT_PENDING_ENABLE (s.frank.pend.any id)

/-- Block `b` (0 the unit, 1 NTP serving, 2 NTS serving) is stopping, or an enable waits. -/
def State.setFrankStop (s : State) (b : Nat) (stop pend : Bool) : State :=
  { s with frank := { s.frank with stopping := s.frank.stopping.set b stop, pend := s.frank.pend.set b pend } }.showFrank
def State.frankStopping (s : State) (b : Nat) : Bool := s.frank.stopping.getD b false

/-- The unit starts with the known-answer tests on every pipeline. -/
def State.frankStart (s : State) : State :=
  let s := (s.wr F.FRANK_STAT_RUNNING 1).wr F.FRANK_STAT_KAT_FAIL 0
  { s with frank := { s.frank with katEn := true } }.showFrank

/-- A write of FRANK_CTL (R371): the unit does not stop while NTS serving is enabled. -/
def State.frankCtlWrite (s : State) (a : Acs) (w : Nat) : State × Nat :=
  let was := s.on F.FRANK_CTL_EN
  let r := s.fieldWrite noLock inRange [F.FRANK_CTL_EN] 0 w
  let s := r.1
  let now := s.on F.FRANK_CTL_EN
  let s :=
    if now && !was then (if s.frankStopping 0 then s.setFrankStop 0 true true else s.frankStart)
    else if was && !now then
      if s.on F.FRANK_NTS_CTL_EN then (s.wr F.FRANK_CTL_EN 1).raise 137
      else if s.frankStopping 0 then s.setFrankStop 0 true false
      else (s.wr F.FRANK_STAT_RUNNING 0).setFrankStop 0 true false
    else s
  s.conclude a r.2

/-- `FRANK_ENABLE`: requester `req` writes `w` to FRANK_CTL. -/
def execFrankEnable (req w : Nat) (s : State) : Host.Outcome State Fault Refusal :=
  done (s.put ⟨req, 0x15000, 2, true⟩ (fun s a => s.frankCtlWrite a w)).1

/-- The FRANK counters clear, at every enable of NTP or NTS serving. -/
def State.clearFrank (s : State) : State :=
  let s := forN 32 s (fun s p =>
    s.rstFlds [F.FRANK_CNT_NTP_COUNT, F.FRANK_CNT_NTS_COUNT, F.FRANK_CNT_NAK_COUNT, F.FRANK_CNT_REF_COUNT] p)
  s.rstFlds [F.FRANK_CNT_LATE_COUNT, F.FRANK_CNT_DISC_COUNT]

/-- A write of FRANK_NTP_CTL (R372, R373). -/
def State.ntpCtlWrite (s : State) (a : Acs) (w : Nat) : State × Nat :=
  let was := s.on F.FRANK_NTP_CTL_EN
  let busy := was || s.frankStopping 1
  let r := s.fieldWrite (fun f => busy && !f.among [F.FRANK_NTP_CTL_EN, F.FRANK_NTP_CTL_WH_ANS]) inRange
    [F.FRANK_NTP_CTL_PRECISION, F.FRANK_NTP_CTL_WH_ANS, F.FRANK_NTP_CTL_UTC_INST, F.FRANK_NTP_CTL_HOST_OTHER, F.FRANK_NTP_CTL_EN] 0 w
  let s := r.1
  let now := s.on F.FRANK_NTP_CTL_EN
  let s :=
    if now && !was then (if s.frankStopping 1 then s.setFrankStop 1 true true else s.clearFrank)
    else if was && !now then s.setFrankStop 1 true false
    else s
  s.conclude a r.2

/-- `NTP_SERVE_ENABLE`: requester `req` writes `w` to FRANK_NTP_CTL. -/
def execNtpServeEnable (req w : Nat) (s : State) : Host.Outcome State Fault Refusal :=
  done (s.put ⟨req, 0x15014, 2, true⟩ (fun s a => s.ntpCtlWrite a w)).1

/-- NTS serving starts when its check passes (R371). -/
def State.ntsStart (s : State) : State :=
  if s.on F.FRANK_CTL_EN && s.mkeyUsable 1 then s.clearFrank.showMkeys else (s.wr F.FRANK_NTS_CTL_EN 0).raise 137

/-- A write of FRANK_NTS_CTL (R371 to R373). -/
def State.ntsCtlWrite (s : State) (a : Acs) (w : Nat) : State × Nat :=
  let was := s.on F.FRANK_NTS_CTL_EN
  let busy := was || s.frankStopping 2
  let r := s.fieldWrite (fun f => busy && !f.among [F.FRANK_NTS_CTL_EN, F.FRANK_NTS_CTL_NAK_EN]) inRange
    [F.FRANK_NTS_CTL_MAX_COOKIES, F.FRANK_NTS_CTL_NAK_EN, F.FRANK_NTS_CTL_EN] 0 w
  let s := r.1
  let now := s.on F.FRANK_NTS_CTL_EN
  let s :=
    if now && !was then (if s.frankStopping 2 then s.setFrankStop 2 true true else s.ntsStart)
    else if was && !now then (s.setFrankStop 2 true false).showMkeys
    else s
  s.conclude a r.2

/-- `NTS_SERVE_ENABLE`: requester `req` writes `w` to FRANK_NTS_CTL. -/
def execNtsServeEnable (req w : Nat) (s : State) : Host.Outcome State Fault Refusal :=
  done (s.put ⟨req, 0x1503C, 2, true⟩ (fun s a => s.ntsCtlWrite a w)).1

/-- `FRANK_STOP_DONE`: the unit (0), NTP serving (1) or NTS serving (2) finishes stopping, its admitted answers sent; an enable that
waited starts it again. -/
def execFrankStopDone (b : Nat) (s : State) : Host.Outcome State Fault Refusal :=
  let busy := s.frank.answers.any (fun x => if b = 1 then x.kind == 0 else b == 2 && (x.kind == 1 || x.kind == 2))
  if 3 ≤ b ∨ !s.frankStopping b ∨ busy then done s else
  let pend := s.frank.pend.getD b false
  let s := s.setFrankStop b false false
  if !pend then done s
  else if b = 0 then done s.frankStart
  else if b = 1 then done s.clearFrank
  else done s.ntsStart

/-- A write of FRANK_PIPE_OOS (R365): more than four bits keep the previous value; KAT starts the tests. -/
def State.pipeOosWrite (s : State) (a : Acs) (w : Nat) : State × Nat :=
  let many := 4 < (idxs 12 (bit w)).length
  let tested := (List.range 12).any (fun k => s.testing (0x50 + k))
  let r := s.stagedWrite (fun _ => tested) (fun _ _ => !many) [F.FRANK_PIPE_OOS_OOS] 0 w
  let s := if bit w 12 then { r.1 with frank := { r.1.frank with katReq := true } } else r.1
  s.conclude a r.2

/-- `PIPE_OOS_WRITE`: requester `req` writes `w` to FRANK_PIPE_OOS. -/
def execPipeOosWrite (req w : Nat) (s : State) : Host.Outcome State Fault Refusal :=
  done (s.put ⟨req, 0x15008, 2, true⟩ (fun s a => s.pipeOosWrite a w)).1

/-- `KAT`: requester `req` writes FRANK_PIPE_OOS with KAT = 1; `w` gives the other bits. -/
def execKat (req w : Nat) (s : State) : Host.Outcome State Fault Refusal :=
  done (s.put ⟨req, 0x15008, 2, true⟩ (fun s a => s.pipeOosWrite a (setBit w 12 true))).1

/-- `KAT_DONE`: the known-answer tests that run end; `fail` is the mask of pipelines that failed. At enable they run on every
pipeline, otherwise on those out of service. -/
def execKatDone (fail : Nat) (s : State) : Host.Outcome State Fault Refusal :=
  if !s.frank.katEn ∧ !s.frank.katReq then done s else
  let ran := idxs 12 (fun k => s.frank.katEn || !s.pipesUp.contains k)
  let bad := ran.filter (bit fail)
  let s := { s with frank := { s.frank with
    katEn := false
    katReq := false
    badPipes := (s.frank.badPipes.filter (fun k => !ran.contains k)) ++ bad } }
  let s := if bad.isEmpty then s else s.wr F.FRANK_STAT_KAT_FAIL 1
  done (bad.foldl (fun s k => s.raise 134 k) s).showFrank

/-- `DRBG_FAIL`: the health tests of the DRBG fail (R366). -/
def execDrbgFail (s : State) : Host.Outcome State Fault Refusal := done ((s.wr F.FRANK_STAT_DRBG_OK 0).condOn 135)

/-- `DRBG_RECOVER`: the tests pass again; the DRBG reseeds. -/
def execDrbgRecover (s : State) : Host.Outcome State Fault Refusal := done ((s.wr F.FRANK_STAT_DRBG_OK 1).condOff 135)

/-- `PIPE_PARITY_ERROR`: pipeline `k` leaves service; the oldest admitted answer on port `p` that uses the unit is answered with nothing
(R366). -/
def execPipeParityError (k p : Nat) (s : State) : Host.Outcome State Fault Refusal :=
  if 12 ≤ k then done s else
  let s := { s with frank := { s.frank with badPipes := s.frank.badPipes.filter (fun q => q != k) ++ [k] } }
  let s := s.showFrank.raise 136 k
  match s.frank.answers.find? (fun a => a.port == p && !a.uses.isEmpty) with
  | some x =>
    done ({ s with frank := { s.frank with answers := s.frank.answers.erase x } }.inc F.FRANK_CNT_DISC_COUNT)
  | none => done s

/-- A write of FRANK_NTS_MKEY_CTL[j] or _ID[j], locked while NTS serving is enabled (R372). A key written anew is no orphan. -/
def State.mkeyWrite (s : State) (a : Acs) (fs : List Fld) (j w : Nat) : State × Nat :=
  let busy := s.on F.FRANK_NTS_CTL_EN || s.frankStopping 2
  let r := s.fieldWrite (fun _ => busy) inRange fs j w
  let s := if busy then r.1 else r.1.wr F.FRANK_NTS_MKEY_CTL_ORPHAN 0 j
  s.showMkeys.conclude a r.2

/-- A write of a FRANK register that is written in service and takes effect at the next beat edge (R372). -/
def State.frankServiceWrite (s : State) (a : Acs) (fs : List Fld) (i w : Nat) : State × Nat :=
  let r := s.stagedWrite noLock inRange fs i w
  r.1.conclude a r.2

end Sys2Proof.Machine
end

