-- ==== Sys2Proof/Machine/Client.lean ====
section
/-! DEFINITION. Packet clients (spec/09_ptp_engine.md, R338 to R341, Table PTP-10; NTP as a client, R367 to R369 of
spec/10_ntp_nts_franking.md). -/
namespace Sys2Proof.Machine

namespace Cli
def disabled : Nat := 0
def listen : Nat := 1
def measuring : Nat := 2
def valid : Nat := 3
def stopping : Nat := 4
end Cli

/-- Client `c` without its registers. -/
def State.cli (s : State) (c : Nat) : ClientSt := s.ptp.client.getD c {}
def State.setCli (s : State) (c : Nat) (x : ClientSt) : State := { s with ptp := { s.ptp with client := s.ptp.client.set c x } }

/-- Client `c`'s state (Table PTP-10). -/
def State.cliState (s : State) (c : Nat) : Nat := s.rd F.PTE_CLI_STAT_STATE c
def State.setCliState (s : State) (c st : Nat) : State := s.wr F.PTE_CLI_STAT_STATE st c

/-- Client `c` runs: it is in LISTEN, MEASURING or VALID, and no safe state is in force. -/
def State.cliRuns (s : State) (c : Nat) : Bool :=
  c < 4 && 1 ≤ s.cliState c && s.cliState c ≤ 3 && !s.on F.TOP_STAT_SAFE

/-- The session record that client `c` names; its port, transport and peer address. -/
def State.cliSess (s : State) (c : Nat) : Nat := s.rd F.PTE_CLI_CTL_SESS c
def State.cliPort (s : State) (c : Nat) : Nat := bits (s.sessWord (s.cliSess c)) 22 5
def State.cliTr (s : State) (c : Nat) : Nat := bits (s.sessWord (s.cliSess c)) 28 2
def State.cliPeer (s : State) (c : Nat) : List Nat :=
  let tr := s.cliTr c
  s.mbytes (sessAddr (s.cliSess c)) (if tr = 0 then 6 else if tr = 1 then 4 else 16)
def State.cliNtp (s : State) (c : Nat) : Bool := s.on F.PTE_CLI_CTL_PROTO c

/-- The record that client `c` names is VALID with CLIENT = 1; for NTP it runs over UDP, without negotiation or a demand for
authentication (R369). -/
def State.cliCheck (s : State) (c : Nat) : Bool :=
  let w := s.sessWord (s.cliSess c)
  bit w 31 && bit w 19 &&
    (!s.cliNtp c || ((s.cliTr c == 1 || s.cliTr c == 2) && !s.on F.PTE_CLI_CTL_NEG c && !s.on F.PTE_CLI_CTL_AUTH_REQ c))

/-! ### What a client sends -/

/-- The header of a message of client `c`: unicast, sdoId 0, in DOMAIN_NUM. -/
def State.cliHead (s : State) (c type seq : Nat) (log : Int) : List Nat :=
  ptpHead 0 0 type (s.rd F.PTE_CLI_CTL_DOMAIN_NUM c) (2 ^ 10) 0 s.clkId (s.cliPort c) seq log

/-- The message `m` of client `c` goes to its peer when its port can send and its key is at hand (R337). -/
def State.cliSend (s : State) (c : Nat) (m : List Nat) : State × Bool :=
  let n := s.cliSess c
  let p := s.cliPort c
  let sa := s.msgSa p (some n)
  if !s.portSends p then (s, false)
  else match s.finishNow sa m with
    | none => (s.authWithheld p sa, false)
    | some r => (s.sendPtp p (s.msgFrame p (some n) false r), true)

/-- Client `c` sends its peer a Signaling message with `tlvs`. -/
def State.cliSignal (s : State) (c : Nat) (tlvs : List Nat) : State :=
  if tlvs.isEmpty then s else
  let x := s.cli c
  let r := s.cliSend c (s.cliHead c Ptp.signaling x.sigSeq 0x7F ++ s.mbytes (sessAddr (s.cliSess c) + 16) 10 ++ tlvs)
  if r.2 then r.1.setCli c { x with sigSeq := (x.sigSeq + 1) % 2 ^ 16 } else r.1

/-- The request for a grant of type `t` (R338): the client's log interval and duration. -/
def State.cliRequest (s : State) (c t : Nat) : List Nat :=
  let log := if t = 0 then s.rdS F.PTE_CLI_RATE_ANN c else if t = 1 then s.rdS F.PTE_CLI_RATE_SYNC c else s.rdS F.PTE_CLI_RATE_DREQ c
  requestTlv t log (s.rd F.PTE_CLI_RATE_DUR c)

/-- Client `c` requests grants of the types `l`, when it negotiates. -/
def State.cliAsk (s : State) (c : Nat) (l : List Nat) : State :=
  if s.on F.PTE_CLI_CTL_NEG c then s.cliSignal c ((l.map (s.cliRequest c)).flatten) else s

/-- Client `c` cancels the grants it holds. -/
def State.cliCancel (s : State) (c : Nat) : State :=
  let n := s.cliSess c
  if !s.on F.PTE_CLI_CTL_NEG c then s else
  let l := [0, 1, 2].filter (s.grantOn n)
  let s := s.cliSignal c ((l.map (fun t => cancelTlv (grantNibble t))).flatten)
  l.foldl (fun s t =>
    (s.mwr (sessAddr n + 40) 4 (setBit (s.sessGrants n) (19 - t) false)).mwr (sessAddr n + 44 + 2 * t) 2 0) s

/-! ### Enable (Table PTP-10, R340, R341) -/

/-- Client `c` starts in LISTEN, or its check refuses it. -/
def State.cliStart (s : State) (c : Nat) : State :=
  if !s.cliCheck c then (s.wr F.PTE_CLI_CTL_EN 0 c).raise 127 (0x10 + c)
  else
    let s := s.rstFlds [F.PTE_CLI_STAT_UP_CLASS, F.PTE_CLI_STAT_UP_ACC, F.PTE_CLI_STAT_SELECTED, F.PTE_CLI_STAT_EAVES_UP,
      F.PTE_CLI_STAT_AUTH_OK] c
    let x := s.cli c
    ((s.setCli c { seq := x.seq, sigSeq := x.sigSeq }).setCliState c Cli.listen).cliAsk c [0]

/-- Client `c` stops: its grants are cancelled. -/
def State.cliStop (s : State) (c : Nat) : State := ((s.cliCancel c).setCliState c Cli.stopping).setPtpStop (3 + c) true false

/-- A write of PTE_CLI_CTL[c]. -/
def State.cliCtlWrite (s : State) (a : Acs) (c w : Nat) : State × Nat :=
  let was := s.on F.PTE_CLI_CTL_EN c
  let busy := was || s.ptpStopping (3 + c)
  let r := s.fieldWrite (fun f => busy && !f.among [F.PTE_CLI_CTL_EN]) inRange
    [F.PTE_CLI_CTL_SESS, F.PTE_CLI_CTL_DOMAIN_NUM, F.PTE_CLI_CTL_AUTH_REQ, F.PTE_CLI_CTL_NEG, F.PTE_CLI_CTL_PROTO,
     F.PTE_CLI_CTL_EN] c w
  let s := r.1
  let now := s.on F.PTE_CLI_CTL_EN c
  let s :=
    if now && !was then (if s.ptpStopping (3 + c) then s.setPtpStop (3 + c) true true else s.cliStart c)
    else if was && !now then (if s.ptpStopping (3 + c) then s.setPtpStop (3 + c) true false else s.cliStop c)
    else s
  s.showPtePend.conclude a r.2

/-- `CLIENT_ENABLE`: requester `req` writes `w` to PTE_CLI_CTL[c]. -/
def execClientEnable (req c w : Nat) (s : State) : Host.Outcome State Fault Refusal :=
  if 4 ≤ c then done s else done (s.put ⟨req, 0x14300 + 0x20 * c, 2, true⟩ (fun s a => s.cliCtlWrite a c w)).1

/-- A write of another register of client `c`, locked while its EN = 1. -/
def State.cliLockedWrite (s : State) (a : Acs) (fs : List Fld) (c w : Nat) : State × Nat :=
  let busy := s.on F.PTE_CLI_CTL_EN c || s.ptpStopping (3 + c)
  let r := s.fieldWrite (fun _ => busy) inRange fs c w
  r.1.conclude a r.2

/-- `PTE_STOP_DONE`: block `b` (0 the engine, 1 + i instance i, 3 + c client c) finishes stopping, the answers it admitted sent; an
enable that waited starts it again (R341). -/
def execPteStopDone (b : Nat) (s : State) : Host.Outcome State Fault Refusal :=
  let mine := fun (x : Answer) => 3 ≤ x.kind && (b == 0 || x.inst + 1 == b)
  if 7 ≤ b ∨ !s.ptpStopping b ∨ (b < 3 ∧ s.frank.answers.any mine) then done s else
  let pend := s.ptp.pend.getD b false
  let s := (s.setPtpStop b false false).showPtePend
  let s := if b = 1 ∨ b = 2 then s.wr F.PTE_I_STAT_PENDING_ENABLE 0 (b - 1) else s
  let s := if 3 ≤ b then s.setCliState (b - 3) Cli.disabled else s
  if !pend then done s
  else if b = 0 then done s.pteStart
  else if b < 3 then done (s.instStart (b - 1))
  else done (s.cliStart (b - 3))

/-! ### What a client receives -/

/-- The client whose peer sent the message `m` over transport `tr` to port `p`. -/
def State.cliOf (s : State) (p tr : Nat) (f : RxFrame) (m : List Nat) : Option Nat :=
  (List.range 4).find? (fun c => s.cliRuns c && !s.cliNtp c && s.cliPort c == p && s.cliTr c == tr &&
    msgDomain m == s.rd F.PTE_CLI_CTL_DOMAIN_NUM c && srcAddr f.bytes tr == s.cliPeer c)

/-- A message from client `c`'s peer passes authentication; a failure spoils the window (R336, Table PTP-10). -/
def State.cliAuth (s : State) (c p : Nat) (m : List Nat) : State × Bool :=
  let r := s.authRx p (some (s.cliSess c)) (s.on F.PTE_CLI_CTL_AUTH_REQ c) m
  if r.2 then (r.1.learnPeer (s.cliSess c) m, true)
  else (r.1.setCli c { r.1.cli c with authFail := true }, false)

/-- Client `c` goes back to LISTEN, with FS 125 when it was VALID. -/
def State.cliListen (s : State) (c : Nat) : State :=
  let s := if s.cliState c = Cli.valid then s.raise 125 c else s
  s.setCliState c Cli.listen

/-- The value of the Eaves TLV of a message: the offset of its bound. -/
def State.eavesIn (s : State) (m : List Nat) : Option Nat :=
  ((tlvsOf m).find? (fun t => t.1 == 0x8000 && t.2.2 == 20 && be m t.2.1 3 == s.rd F.PTE_ORG_ORG_ID && be m (t.2.1 + 3) 3 == 1 &&
    be m (t.2.1 + 6) 1 == 1)).map (fun t => t.2.1 + 8)

/-- The upstream accuracy of an Announce, in ps (R339). -/
def State.upstream (s : State) (m : List Nat) : Option Nat :=
  match s.eavesIn m with
  | some o => some (be m o 4 * 250)
  | none =>
    let code := be m 49 1
    if 0x17 ≤ code ∧ code ≤ 0x30 then some (ceilDiv (accuracyLimit code) 10) else none

/-- An Announce from client `c`'s peer (Table PTP-10). -/
def State.cliAnnounce (s : State) (c p : Nat) (m : List Nat) : State :=
  let r := s.cliAuth c p m
  let s := r.1
  if !r.2 then s else
  let cls := be m 48 1
  let s := (s.wr F.PTE_CLI_STAT_UP_CLASS cls c).wr F.PTE_CLI_STAT_UP_ACC (be m 49 1) c
  let s := s.wrB F.PTE_CLI_STAT_EAVES_UP (s.eavesIn m).isSome c
  let s := s.setCli c { s.cli c with up := s.upstream m }
  let st := s.cliState c
  if s.rd F.PTE_CLI_RATE_CLASS_MAX c < cls then (if st = Cli.measuring ∨ st = Cli.valid then s.cliListen c else s)
  else if st = Cli.listen then (s.setCliState c Cli.measuring).cliAsk c [1, 2]
  else s

/-- `ANNOUNCE_RX`: an Announce is received on port `p`: of a client's peer, or of a foreign master. -/
def State.announceRx (s : State) (p : Nat) (f : RxFrame) (tr : Nat) (m : List Nat) : State :=
  match s.cliOf p tr f m with
  | some c => s.cliAnnounce c p m
  | none =>
    match s.instOf p tr m with
    | some i => s.foreignRx i p m
    | none => s.toHost p f false

/-- `ANNOUNCE_RX`: an Announce is received on port `p`. -/
def execAnnounceRx (p : Nat) (f : RxFrame) (s : State) : Host.Outcome State Fault Refusal :=
  match ptpMsg f.bytes with
  | some (tr, m) => if s.rxGood p f ∧ msgType m = Ptp.announce then done (s.announceRx p f tr m) else done s
  | none => done s

/-- The stamp of a received frame on Ridge A, as an epoch time. -/
def State.cliStamp (s : State) (p : Nat) (f : RxFrame) : Int := s.epochOf 0 (s.rxStamp p 0 f)

/-- A Sync of client `c` is complete: t2 and t2 - t1 - c_sync. -/
def State.cliSync (s : State) (c : Nat) (t2 ms : Int) : State := s.setCli c { s.cli c with sync := none, last := some (t2, ms) }

/-- A Sync, Follow_Up or Delay_Resp from client `c`'s peer. -/
def State.cliMsg (s : State) (c p : Nat) (f : RxFrame) (m : List Nat) : State :=
  let type := msgType m
  let s := if type = Ptp.sync then s.countEvent p else s
  let r := s.cliAuth c p m
  let s := r.1
  if !r.2 ∨ s.cliState c < Cli.measuring then s else
  let x := s.cli c
  if type = Ptp.sync then
    let t2 := s.cliStamp p f
    if msgTwoStep m then s.setCli c { x with sync := some (msgSeq m, t2, msgCorr m) }
    else s.cliSync c t2 (t2 - msgTime m 34 - msgCorr m)
  else if type = Ptp.followUp then
    match x.sync with
    | some (q, t2, corr) => if q = msgSeq m then s.cliSync c t2 (t2 - msgTime m 34 - (corr + msgCorr m)) else s
    | none => s
  else if be m 44 10 ≠ s.clkId * 2 ^ 16 + (p + 1) then s
  else match x.out.find? (fun q => q.1 == msgSeq m), x.last with
    | some q, some l =>
      let e : Exchange := ⟨l.1, l.2, ((msgTime m 34 - msgCorr m - q.2 : Int) : Rat)⟩
      s.setCli c { x with out := x.out.erase q, exch := x.exch ++ [e] }
    | _, _ => s

/-- A Sync, Follow_Up or Delay_Resp on port `p`: of a client's peer; otherwise it is left to the host. -/
def State.clientRx (s : State) (p : Nat) (f : RxFrame) (tr : Nat) (m : List Nat) : State :=
  match s.cliOf p tr f m with
  | some c => s.cliMsg c p f m
  | none => s.toHost p f false

/-- `CLIENT_MSG_RX`: a Sync, Follow_Up or Delay_Resp is received on port `p`. -/
def execClientMsgRx (p : Nat) (f : RxFrame) (s : State) : Host.Outcome State Fault Refusal :=
  match ptpMsg f.bytes with
  | some (tr, m) =>
    if s.rxGood p f ∧ [Ptp.sync, Ptp.followUp, Ptp.delayResp].contains (msgType m) then done (s.clientRx p f tr m) else done s
  | none => done s

/-- A GRANT from client `c`'s peer: the grants it names with a duration are in force. -/
def State.cliGrant (s : State) (c : Nat) (m : List Nat) : State :=
  (sigTlvs m 5).foldl (fun s o =>
    let dur := be m (o + 2) 4
    match grantOf (be m o 1 / 16) with
    | none => s
    | some t =>
      if dur = 0 then s else
      let x := s.cli c
      (s.setGrant (s.cliSess c) t (toS 8 (be m (o + 1) 1)) (min 0xFFFE dur)).setCli c { x with granted := x.granted.set t dur }) s

/-- A CANCEL from client `c`'s peer: the grants end, and are acknowledged (R331). -/
def State.cliCancelled (s : State) (c : Nat) (m : List Nat) : State :=
  let l := (sigTlvs m 6).map (fun o => be m o 1 / 16)
  let s := l.foldl (fun s q => match grantOf q with
    | some t => s.endGrant (s.cliSess c) t
    | none => s) s
  s.cliSignal c (l.map ackCancelTlv).flatten

/-- A Signaling message on port `p`: grants and cancels of a client's peer; requests and cancels of a session's peer. -/
def State.signalRx (s : State) (p : Nat) (f : RxFrame) (tr : Nat) (m : List Nat) : State :=
  match s.cliOf p tr f m with
  | some c =>
    let r := s.cliAuth c p m
    if r.2 then (r.1.cliGrant c m).cliCancelled c m else r.1
  | none =>
    if !(sigTlvs m 4).isEmpty then s.requestRx p f tr m
    else if !(sigTlvs m 6).isEmpty then s.cancelRx p f tr m
    else s.toHost p f false

/-! ### NTP as a client (R367, R368) -/

/-- An NTP timestamp as an epoch time in ru: the era nearest the device's own time, and TAI - UTC by R348. -/
def State.ntpEpoch (s : State) (t : Nat) : Rat :=
  let now := s.epochOf 0 (s.count 0)
  let leap := s.taiUtc (s.inF F.FRANK_NTP_CTL_UTC_INST) now
  let secs : Rat := (t : Rat) / 2 ^ 32 - 2208988800 + leap
  nearestMod (secs * ruSecond) now (2 ^ 32 * ruSecond)

/-- The NTP client whose server sent the datagram `u` of a frame on port `p`. -/
def State.ntpClientOf (s : State) (p : Nat) (l : List Nat) (u : Udp) : Option Nat :=
  (List.range 4).find? (fun c => s.cliRuns c && s.cliNtp c && s.cliPort c == p && s.cliTr c == (if u.v6 then 2 else 1) &&
    srcAddr l (s.cliTr c) == s.cliPeer c)

/-- A response from the server of client `c` (R367): checked, and accepted as an exchange. -/
def State.ntpResponse (s : State) (c p : Nat) (f : RxFrame) (m : List Nat) : State :=
  let b := be m 0 1
  let stratum := be m 1 1
  let x := s.cli c
  match x.out.find? (fun q => q.1 == be m 24 8) with
  | none => s
  | some q =>
    if m.length < 48 ∨ bits b 0 3 ≠ 4 ∨ bits b 3 3 ≠ 4 ∨ bits b 6 2 = 3 ∨ stratum = 0 ∨ s.rd F.PTE_CLI_RATE_CLASS_MAX c < stratum then s
    else
      let t2 : Rat := s.cliStamp p f
      let e : Exchange := ⟨t2, t2 - s.ntpEpoch (be m 40 8), s.ntpEpoch (be m 32 8) - q.2⟩
      let up := ceilNat ((be m 8 4 + (be m 4 4 : Rat) / 2) / 65536 * 10 ^ 12)
      let s := s.wr F.PTE_CLI_STAT_UP_CLASS stratum c
      let s := s.setCli c { x with out := x.out.erase q, exch := x.exch ++ [e], up := some up }
      if s.cliState c = Cli.listen then s.setCliState c Cli.measuring else s

/-- `NTP_CLIENT_RESPONSE_RX`: an NTP datagram from port 123 is received on port `p`. -/
def execNtpClientResponseRx (p : Nat) (f : RxFrame) (s : State) : Host.Outcome State Fault Refusal :=
  match udpOf f.bytes with
  | none => done s
  | some u =>
    match s.ntpClientOf p f.bytes u with
    | some c =>
      if s.rxGood p f ∧ u.src = 123 ∧ udpSumOk f.bytes u then done (s.ntpResponse c p f (udpData f.bytes u)) else done s
    | none => done s

/-! ### Requests and windows (R338, R339) -/

/-- `CLIENT_DREQ_DUE`: the DREQ interval of client `c` has passed: a Delay_Req, or an NTP request whose transmit timestamp is its own
stamp. -/
def execClientDreqDue (c : Nat) (place : TxPlace) (s : State) : Host.Outcome State Fault Refusal :=
  if !s.cliRuns c then done s else
  let p := s.cliPort c
  let x := s.cli c
  let e := s.epochOf 0 (s.txStamp p 0 place)
  if s.cliNtp c then
    if !s.portSends p then done s else
    let n := s.cliSess c
    let xmt := s.ntpTime e
    let m := [0x23] ++ List.replicate 39 0 ++ beBytes 8 xmt
    let head := beBytes 6 (natOf (s.mbytes (sessAddr n + 26) 6)) ++ beBytes 6 (s.macAddr p) ++ s.sessTags n
    let s := s.sendFrame p (padTo 60 (s.udpFrame p (s.cliTr c == 2) head (s.cliPeer c) 123 123 m))
    done (s.setCli c { x with out := x.out ++ [(xmt, e)] })
  else if s.cliState c < Cli.measuring then done s
  else
    let r := s.cliSend c (s.cliHead c Ptp.delayReq x.seq 0x7F ++ List.replicate 10 0)
    if r.2 then done (r.1.setCli c { x with seq := (x.seq + 1) % 2 ^ 16, out := x.out ++ [(x.seq, e)] }) else done r.1

/-- The mean of a list. -/
def ratMean (l : List Rat) : Rat := l.sum / l.length

/-- The least-squares slope of the second of each pair against the first, where the points give one. -/
def lsSlope (l : List (Rat × Rat)) : Option Rat :=
  let tm := ratMean (l.map (fun q => q.1))
  let om := ratMean (l.map (fun q => q.2))
  let den := (l.map (fun q => (q.1 - tm) * (q.1 - tm))).sum
  if den = 0 then none else some ((l.map (fun q => (q.1 - tm) * (q.2 - om))).sum / den)

/-- The frequency of client `c` over its last windows; a free value where the points give no slope. -/
def State.cliFreq (s : State) (l : List (Rat × Rat)) : Rat × State :=
  match lsSlope l with
  | some f => (f, s)
  | none => let r := s.draw; ((toS 40 (r.1 % two40) : Rat) / 2 ^ 60, r.2)

/-- What client `c` delivers at a window end: from the selected (t2, o) pairs `sel` and the upstream accuracy `up`. -/
def State.cliDeliver (s : State) (c up : Nat) (sel : List (Rat × Rat)) : State :=
  let edge : Rat := s.epochOf 0 (s.count 0)
  let o := sel.map (fun q => q.2)
  let om := ratMean o
  let tm := ratMean (sel.map (fun q => q.1))
  let newest := (sel.map (fun q => q.1)).foldl max tm
  let r := s.cliFreq (s.cli c).hist.flatten
  let freq := r.1
  let ofs := roundRat (om + freq * (edge - tm))
  let var := ratMean (o.map (fun v => (v - om) * (v - om)))
  -- stdev in ps: ru are 2^-16 ns
  let k : Rat := (s.inF F.EAVES_CTL_K : Rat) / 4
  let sd := sqrtUp (ceilNat (k * k * var * 1000000 / 2 ^ 32))
  let u := up + s.rd F.PTE_CLI_UNC_VALUE c + sd
  let s := r.2.wrS F.PTE_CLI_OFS_OFS ofs c
  let age := (roundRat ((edge - newest) / ruBeat)).toNat
  { s with ens := { s.ens with deliv := s.ens.deliv ++ [⟨20 + c, ofs, freq, age⟩] }
           eaves := { s.eaves with unc := s.eaves.unc.set (20 + c) u } }

/-- The upstream accuracy of client `c` is known; for NTP, a UTC offset is valid too (R368). -/
def State.cliUp (s : State) (c : Nat) : Option Nat :=
  if s.cliNtp c ∧ !s.utcValid (s.rd F.FRANK_NTP_CTL_UTC_INST) then none else (s.cli c).up

/-- `CLIENT_WINDOW_END`: a window of client `c` ends at this beat edge (R339). -/
def execClientWindowEnd (c : Nat) (s : State) : Host.Outcome State Fault Refusal :=
  if !s.cliRuns c then done s else
  let x := s.cli c
  let st := s.cliState c
  let asym : Rat := s.rdS F.PTE_CLI_ASYM_VALUE c
  let d := x.exch.map (fun e => ((e.ms + e.sm) / 2, e.t2, (e.sm - e.ms) / 2 + asym))
  let least := (d.map (fun q => q.1)).foldl min ((d.head?.map (fun q => q.1)).getD 0)
  let win : Rat := s.rd F.PTE_CLI_FILT_DLY_WIN c * 65536
  let sel := (d.filter (fun q => decide (q.1 ≤ least + win))).map (fun q => (q.2.1, q.2.2))
  let s := (s.wrSat F.PTE_CLI_STAT_SELECTED sel.length c).wrB F.PTE_CLI_STAT_AUTH_OK (!x.authFail) c
  let hist := if st = Cli.listen then x.hist else (sel :: x.hist).take 16
  let s := s.setCli c { x with exch := [], last := none, sync := none, out := [], authFail := false, hist := hist }
  if st = Cli.listen then done s
  else match s.cliUp c with
    | some up =>
      if s.rd F.PTE_CLI_FILT_MIN_EXCH c ≤ sel.length ∧ !x.authFail then done ((s.cliDeliver c up sel).setCliState c Cli.valid)
      else if st = Cli.valid then done ((s.raise 125 c).setCliState c Cli.measuring)
      else done s
    | none => if st = Cli.valid then done ((s.raise 125 c).setCliState c Cli.measuring) else done s

/-- `GRANT_RENEW`: half the duration of grants of client `c` has passed: it renews them (R338). -/
def execGrantRenew (c : Nat) (s : State) : Host.Outcome State Fault Refusal :=
  if !s.cliRuns c then done s else
  let n := s.cliSess c
  done (s.cliAsk c ([0, 1, 2].filter (fun t => s.grantOn n t && 2 * s.grantLeft n t ≤ (s.cli c).granted.getD t 0)))

/-- `CLIENT_ANNOUNCE_TIMEOUT`: client `c` has had no Announce for 3 announce intervals, or no accepted response for 8 DREQ intervals. -/
def execClientAnnounceTimeout (c : Nat) (s : State) : Host.Outcome State Fault Refusal :=
  if s.cliRuns c ∧ Cli.measuring ≤ s.cliState c then done (s.cliListen c) else done s

end Sys2Proof.Machine
end

