-- ==== Sys2Proof/Machine/Maint.lean ====
section
/-! DEFINITION. The commands of the Sorting office and the memories (spec/18_maintenance_test.md): activities queued, started and
ended, `MAINT_RUN`, self-tests, histories, the DRAM and ECC errors; periodic TDC calibration (R75, R76, R573). -/
namespace Sys2Proof.Machine

/-! ### Calibration (R75, R76, R573) -/

/-- The channels that a calibration trigger queues: those RUNNING, and spares in SPARE_IDLE (R573). -/
def State.calTargets (s : State) : List Nat :=
  idxs 48 (fun n => s.tdcState n == Tdc.running || s.tdcState n == Tdc.spareIdle)

/-- A calibration trigger is due at die temperature `temp` (R75). -/
def State.calDue (s : State) (temp : Int) : Bool :=
  let per := s.rd F.TDC_CAL_CTL_PERIOD
  let step := s.rd F.TDC_CAL_CTL_TEMP_STEP
  let beats := (s.rd F.RIDGE_BEAT_SEQ_SEQ + 2 ^ 32 - s.tdc.trigBeat) % 2 ^ 32
  (per != 0 && per * 1024 ≤ beats) || (step != 0 && step ≤ (temp - s.tdc.trigTemp).natAbs)

/-- `CAL_TRIGGER`: a calibration trigger is judged at die temperature `temp`, LSB 0.25 °C; when due, both counts restart and one TDC_CAL
is queued for each channel. -/
def execCalTrigger (temp : Int) (s : State) : Host.Outcome State Fault Refusal :=
  if !s.calDue temp then done s else
  let s := { s with tdc := { s.tdc with trigBeat := s.rd F.RIDGE_BEAT_SEQ_SEQ, trigTemp := temp } }
  done (s.calTargets.foldl (fun s n => (s.enqueue Act.tdcCal n true []).1) s)

/-- The spare that is free for a calibration (R76). -/
def State.freeSpare (s : State) : Option Nat :=
  [0, 1].find? (fun sel => s.spareCh sel < 8 && s.tdcState (s.spareCh sel) == Tdc.spareIdle && !s.tdc.subs.any (fun q => q.sel == sel))

/-- The entry `e` of the measurement-clock group, a TDC_CAL, has its turn (R76, R566): a free spare first takes the channel's place,
outside the group; otherwise the run starts, on the freed converter, on an idle spare, or in place of the channel's own source. -/
def State.calStart (s : State) (e : SortEntry) : State :=
  let n := e.tgt
  if s.tdc.subs.any (fun q => q.lch == n) then s
  else if s.tdc.oos.contains n ∨ s.tdcState n = Tdc.spareIdle then s.startEntry 0 e
  else if s.tdcState n ≠ Tdc.running then s.dequeue Act.tdcCal n
  else match (if s.on F.TDC_CAL_CTL_USE_SPARE ∧ !s.on F.TDC_CH_CTL_MODE n then s.freeSpare else none) with
    | some sel => { s.subStart sel n with tdc := { (s.subStart sel n).tdc with cal := s.tdc.cal ++ [n] } }
    | none =>
      let s := (s.startEntry 0 e).wr F.TDC_CH_STAT_STATE Tdc.cal n
      s.mapGates (fun g => { g with invalid := true }) (fun k => k == n)

/-- The spare that serves channel `n`. -/
def State.spareOf (s : State) (n : Nat) : Option Nat := [0, 1].find? (fun sel => s.spareFor sel == n)

/-- `TDC_CAL_DONE`: the run for channel `n` completes with the worst DNL (LSB 0.001 bin) or skew (LSB 0.01 ps) and the mean bin width
(LSB 0.001 ps) it measured; a spare taken for it is restored (R76). -/
def execTdcCalDone (n worst binAvg : Nat) (s : State) : Host.Outcome State Fault Refusal :=
  if 48 ≤ n ∨ !s.isRunning Act.tdcCal n then done s else
  let p := if s.tdc.oos.contains n then n else s.tdcPhys n
  let kept := !calWithin (p < 8) worst
  let s := s.calDone n p worst binAvg
  let s := if kept then s.raise 176 (Act.tdcCal + n * 256) else s
  let s := s.endEntry 0 Code.ok worst kept.toNat true
  if !s.tdc.cal.contains n then done s else
  let s := { s with tdc := { s.tdc with cal := s.tdc.cal.filter (fun k => k != n) } }
  match s.spareOf n with
  | some sel => done (s.restoreStart sel n)
  | none => done s

/-! ### The DRAM (R576 to R578) -/

namespace Mem
def offline : Nat := 0
def training : Nat := 1
def online : Nat := 2
def stopping : Nat := 3
end Mem

def State.memState (s : State) : Nat := s.rd F.MEM_STAT_STATE

/-- The DRAM's state becomes `st`; HIST_SRAM follows (R578). -/
def State.moveMem (s : State) (st : Nat) : State := (s.wr F.MEM_STAT_STATE st).wrB F.MEM_STAT_HIST_SRAM (st != Mem.online)

/-- DRAM_EN has been written 1: the check, then a DRAM_ON activity (R577, R565). -/
def State.dramStart (s : State) : State :=
  if !s.islandOn 9 then ((s.wr F.MEM_CTL_DRAM_EN 0).raise 221 9).raise 197
  else if s.rd F.MEM_CTL_SIZE = 0 then (s.wr F.MEM_CTL_DRAM_EN 0).raise 197
  else (s.enqueue Act.dramPower 0 false []).1

/-- DRAM_EN has been written 0: a DRAM_ON that still waits is taken back; otherwise a DRAM_OFF activity is queued. -/
def State.dramStop (s : State) : State :=
  let s := s.dequeue Act.dramPower 0
  if s.memState = Mem.online ∨ s.memState = Mem.training then (s.enqueue Act.dramPower 0 false []).1 else s

/-- A write of MEM_CTL (R577): SIZE and STAMP_LOG are locked while DRAM_EN = 1 or the DRAM stops; an enable waits behind a stop or a
self-test (R503, R579). -/
def State.memCtlWrite (s : State) (a : Acs) (w : Nat) : State × Nat :=
  let was := s.on F.MEM_CTL_DRAM_EN
  let busy := s.memState == Mem.stopping || s.testing 0x80
  let r := s.stagedWrite (fun f => (was || s.memState != Mem.offline || busy) && f.among [F.MEM_CTL_SIZE, F.MEM_CTL_STAMP_LOG]) inRange
    [F.MEM_CTL_ERR_MAX, F.MEM_CTL_HIST_PER, F.MEM_CTL_SIZE, F.MEM_CTL_STAMP_LOG, F.MEM_CTL_DRAM_EN] 0 w
  let s := r.1
  let now := s.on F.MEM_CTL_DRAM_EN
  let s :=
    if now && !was then (if busy then s.wr F.MEM_STAT_PENDING_ENABLE 1 else s.dramStart)
    else if was && !now then (if busy then s.wr F.MEM_STAT_PENDING_ENABLE 0 else s.dramStop)
    else s
  s.conclude a r.2

/-- `DRAM_ON`: requester `req` writes MEM_CTL with DRAM_EN = 1; `w` gives the other bits. -/
def execDramOn (req w : Nat) (s : State) : Host.Outcome State Fault Refusal :=
  done (s.put ⟨req, 0x1A000, 2, true⟩ (fun s a => s.memCtlWrite a (setBit w 0 true))).1

/-- `DRAM_OFF`: requester `req` writes MEM_CTL with DRAM_EN = 0; `w` gives the other bits. -/
def execDramOff (req w : Nat) (s : State) : Host.Outcome State Fault Refusal :=
  done (s.put ⟨req, 0x1A000, 2, true⟩ (fun s a => s.memCtlWrite a (setBit w 0 false))).1

/-- The DRAM interface's power activity starts: training, or stopping (R577). -/
def State.dramPowerStart (s : State) (e : SortEntry) : State :=
  let s := s.startEntry 10 e
  if s.on F.MEM_CTL_DRAM_EN then s.moveMem Mem.training else s.moveMem Mem.stopping

/-- The power activity ends; `ok` says that training completed. ONLINE, the histories start empty; OFFLINE, the learned values go
(R578, R156) and an enable that waits starts. -/
def State.dramPowerEnd (s : State) (ok : Bool) : State :=
  let s := s.endEntry 10 (if ok || s.memState = Mem.stopping then Code.ok else Code.badParam) 0 0 true
  if s.memState = Mem.training then
    if ok then { (s.moveMem Mem.online).wr F.MEM_STAT_HIST_DAYS 0 with eaves := { s.eaves with hist := 0 } }
    else (((s.dequeue Act.dramPower 0).moveMem Mem.offline).wr F.MEM_CTL_DRAM_EN 0).raise 197 |>.raise 176 Act.dramPower
  else
    let s := ((s.moveMem Mem.offline).dropLearned).raise 56
    let s := { s.wr F.MEM_STAT_HIST_DAYS 0 with eaves := { s.eaves with hist := 0 } }
    if s.on F.MEM_STAT_PENDING_ENABLE then (s.wr F.MEM_STAT_PENDING_ENABLE 0).dramStart else s

/-- `HIST_COMMIT`: HIST_PER seconds have passed: a commit of the staged histories is queued. -/
def execHistCommit (s : State) : Host.Outcome State Fault Refusal :=
  if s.memState = Mem.online then done (s.enqueue Act.histCommit 0 true []).1 else done s

/-- `DRAM_CAL`: 64 s have passed, or the die temperature has moved by 5 °C, since the last run: one is queued. -/
def execDramCal (s : State) : Host.Outcome State Fault Refusal :=
  if s.memState = Mem.online then done (s.enqueue Act.dramCal 0 true []).1 else done s

/-- A learned value `v` may stand for the configured value `c` (R156): smaller, and not below a quarter of it. -/
def learnable (v c : Nat) : Bool := v < c && c ≤ 4 * v

/-- A commit ends: HIST_DAYS shows what is held, and with 7 days of LOCKED operation the values learned from it, given as slot, y0 and
drift, come into use (R156). -/
def State.histEnd (s : State) (learn : List (Nat × Nat × Nat)) : State :=
  let s := s.wrSat F.MEM_STAT_HIST_DAYS (s.eaves.hist / (86400 * 1024))
  if s.inF F.EAVES_CTL_LEARN = 0 ∨ s.eaves.hist < 7 * 86400 * 1024 then s else
  learn.foldl (fun s q =>
    let n := q.1
    let y := s.inF F.EAVES_CHAR_Y0_Y0 n
    let d := s.inF F.EAVES_CHAR_DRIFT_DRIFT n
    if n < 24 && (learnable q.2.1 y || learnable q.2.2 d) then
      let x : Learned := ⟨n, if learnable q.2.1 y then q.2.1 else y, if learnable q.2.2 d then q.2.2 else d⟩
      let l := s.eaves.learned.filter (fun x => x.slot != n) ++ [x]
      ({ s with eaves := { s.eaves with learned := l } }).wr F.EAVES_CHAR_CTL_LEARNED 1 n
    else s) s

/-- `ECC_ERROR`: an error found by the scrub or an access: `kind` 0 SRAM corrected, 1 SRAM uncorrectable, 2 DRAM corrected, 3 DRAM
uncorrectable at byte offset `addr`, in a history record that holds `lost` beats of LOCKED operation. -/
def execEccError (kind addr lost : Nat) (s : State) : Host.Outcome State Fault Refusal :=
  if kind = 0 then done ((s.inc F.MEM_ERR_SRAM_CORR).raise 192)
  else if kind = 1 then done (s.raise 193)
  else if s.memState ≠ Mem.online then done s
  else if kind = 2 then done ((s.inc F.MEM_ERR_DRAM_CORR).raise 194)
  else
    let s := ((s.inc F.MEM_ERR_DRAM_UNC).wr F.MEM_ERR_ADDR_ADDR addr).raise 195
    let n := s.sort.dramErrs + 1
    let s := { s with sort := { s.sort with dramErrs := n }, eaves := { s.eaves with hist := s.eaves.hist - lost } }
    if n = s.inF F.MEM_CTL_ERR_MAX + 1 ∧ s.on F.MEM_CTL_DRAM_EN then done ((s.wr F.MEM_CTL_DRAM_EN 0).dramStop.raise 196) else done s

/-- One beat of the background scrub (R576): all of the SRAM every 24 s, all of the DRAM every 512 s, paused while a MEM activity
runs. -/
def State.scrubBeat (s : State) : State :=
  if (s.quietRun 10).isSome then s else
  let a := s.sort.sramScrub + 1
  let b := if s.memState = Mem.online then s.sort.dramScrub + 1 else 0
  let s := if a = 24 * 1024 then s.bump F.MEM_SCRUB_SRAM_PASSES else s
  let s := if b = 512 * 1024 then s.bump F.MEM_SCRUB_DRAM_PASSES else s
  { s with sort := { s.sort with sramScrub := a % (24 * 1024), dramScrub := b % (512 * 1024) } }

/-! ### Activities (R566 to R572) -/

/-- `ACTIVITY_START`: group `q` is free and its next entry starts. A key rotation starts only with `ROTATE_APPLY`. -/
def execActivityStart (q : Nat) (s : State) : Host.Outcome State Fault Refusal :=
  match s.startable q with
  | none => done s
  | some e =>
    if e.act = Act.tdcCal then done (s.calStart e)
    else if e.act = Act.apllSearch then done ((s.startEntry q e).beginSearch e)
    else if e.act = Act.keyRotate then done s
    else if e.act = Act.readapt then done ((s.startEntry q e).readaptStart e.tgt)
    else if e.act = Act.dramPower then done (s.dramPowerStart e)
    else done (s.startEntry q e)

/-- `ACTIVITY_END`: the activity of the memory group ends; `ok` says that a training completed, `learn` gives what a commit has learned.
The ends of the other groups' activities are commands of their own. -/
def execActivityEnd (q : Nat) (ok : Bool) (learn : List (Nat × Nat × Nat)) (s : State) : Host.Outcome State Fault Refusal :=
  if q ≠ 10 then done s else
  match s.quietRun 10 with
  | none => done s
  | some e =>
    if e.act = Act.dramPower then done (s.dramPowerEnd ok)
    else if e.act = Act.histCommit then done ((s.endEntry 10 Code.ok 0 0 true).histEnd learn)
    else done (s.endEntry 10 Code.ok 0 0 true)

/-- `WAIT_MAX_EXCEEDED`: entries of group `q` have waited more than WAIT_MAX ms: FS 178, once for each (R570). -/
def execWaitMaxExceeded (q : Nat) (s : State) : Host.Outcome State Fault Refusal :=
  let late := fun (e : SortEntry) => !e.warned && s.rd F.SORT_CTL_WAIT_MAX * 1250000 < s.ridge.ticks - e.tick
  let l := s.quietQueue q
  let n := l.countP late
  let s := s.setQueue q (l.map (fun e => if late e then { e with warned := true } else e))
  done ((List.range n).foldl (fun s _ => s.raise 178) s)

/-! ### `MAINT_RUN` and self-tests (R575, R579 to R581) -/

/-- A pair member in TEST. -/
def State.inTest (s : State) : Bool := s.rd F.PAIR_STAT_STATE == 5

/-- The target of a self-test meets its needs (Table SORT-4, R581). -/
def State.testReady (s : State) (t : Nat) : Bool :=
  if t < 0x30 then s.tdcState t == Tdc.oos || s.tdc.oos.contains t
  else if 0x40 ≤ t ∧ t < 0x48 then s.grpState (t - 0x40) == Grp.oos
  else if 0x50 ≤ t ∧ t < 0x5C then bit (s.inF F.FRANK_PIPE_OOS_OOS) (t - 0x50)
  else if 0x60 ≤ t ∧ t < 0x66 then
    !s.on F.APLL_CTL_EN (t - 0x60) && s.apllState (t - 0x60) == ApllSt.off && s.islandOn (10 + (t - 0x60))
  else if t = 0x70 then !s.on F.GNSS_CTL_EN && s.rx == Rx.off && s.islandOn 0
  else if t = 0x80 then s.memState == Mem.offline && !s.on F.MEM_CTL_DRAM_EN && s.islandOn 9
  else t == 0xF0 && s.inTest

/-- The activity and target of a `MAINT_RUN` are allowed (R575). -/
def State.maintOk (s : State) (act tgt : Nat) : Bool :=
  if act = Act.tdcCal then tgt < 48 && (s.tdcState tgt == Tdc.running || s.tdcState tgt == Tdc.spareIdle)
  else if act = Act.apllSearch then
    tgt < 6 && !s.on F.APLL_BAND_MAN tgt && [ApllSt.locked, ApllSt.locking, ApllSt.bypass].contains (s.apllState tgt)
  else if act = Act.remask then true
  else if act = Act.readapt then tgt < 32 && (List.range 32).any (fun p => s.portState p == Port.up && (s.portLanes p).contains tgt)
  else act == Act.selftest && s.testReady tgt

/-- `MAINT_RUN`: parameter word 0. -/
def execMaintRun (c : CmdRef) (w0 : Nat) (s : State) : Host.Outcome State Fault Refusal :=
  let act := bits w0 0 8
  let tgt := if act = Act.remask then 0 else bits w0 8 8
  if !s.maintOk act tgt then done (s.finish c Code.badParam)
  else if act = Act.selftest then
    done { s with sort := { s.sort with tests := s.sort.tests ++ [⟨tgt, c, s.ridge.ticks, false⟩] } }
  else
    let q := quietGroup act tgt
    let wait := (s.quietRun q).isSome || !(s.quietQueue q).isEmpty
    let r := s.enqueue act tgt false [c]
    if !r.2 then done ((r.1.finish c Code.busyRetry).raise 177 q)
    else if wait then done (r.1.defer c)
    else done r.1

/-- The number in RESULT0 of a row of Table SORT-4, by the row's first target. -/
def testRow (t : Nat) : Nat :=
  Config.testRowNo (if t < 0x40 then 0 else if t < 0x50 then 1 else if t < 0x60 then 2 else if t < 0x70 then 3
    else if t < 0x80 then 4 else 5) % 256

/-- The enables that waited behind the self-test of `tgt` (R579). -/
def State.testRelease (s : State) (tgt : Nat) : State :=
  let of := fun (t : Nat) => tgt == t || tgt == 0xF0
  let s := forN 6 s (fun s m =>
    if of (0x60 + m) ∧ s.on F.APLL_STAT_PENDING_ENABLE m ∧ s.apllState m = ApllSt.off then
      (s.wr F.APLL_STAT_PENDING_ENABLE 0 m).apllStart m else s)
  let s := forN 48 s (fun s n =>
    if of n ∧ s.on F.TDC_CH_STAT_PENDING_ENABLE n ∧ s.tdcState n = Tdc.oos then s.wr F.TDC_CH_STAT_PENDING_ENABLE 0 n else s)
  if of 0x80 ∧ s.on F.MEM_STAT_PENDING_ENABLE ∧ s.memState = Mem.offline then (s.wr F.MEM_STAT_PENDING_ENABLE 0).dramStart else s

/-- `SELFTEST_STEP`: a step of the test of `tgt` ends. A test that a take has cut short ends here (R580); otherwise `last` ends it,
`failed` giving the target whose row failed first, if one did. For a GNSS enable that waited, `fe` and `sclk` are as in GNSS_ENABLE. -/
def execSelftestStep (tgt : Nat) (last : Bool) (failed : Option Nat) (fe : List Nat) (sclk : Nat) (s : State) :
    Host.Outcome State Fault Refusal :=
  match s.sort.tests.find? (fun x => x.tgt == tgt) with
  | none => done s
  | some x =>
    if !x.cut ∧ !last then done s else
    let s := { s with sort := { s.sort with tests := s.sort.tests.erase x } }
    let s := (s.wr F.SORT_LAST_ACT Act.selftest).wr F.SORT_LAST_TGT tgt
    let s := (s.wr F.SORT_LAST_CODE Code.ok).wr F.SORT_LAST_GROUP 0xFF
    let s := s.wrSat F.SORT_LAST_DUR_DUR ((s.ridge.ticks - x.tick) / 1250)
    let s :=
      if x.cut then (s.finish x.ref Code.ok 2).raise 180
      else match failed with
        | none => s.finish x.ref Code.ok 1
        | some t => (s.finish x.ref Code.ok (testRow t * 256)).raise 179 tgt
    let s := s.testRelease tgt
    if (tgt = 0x70 ∨ tgt = 0xF0) ∧ s.on F.GNSS_STAT_PENDING_ENABLE ∧ s.rx = Rx.off then
      done ((s.wr F.GNSS_STAT_PENDING_ENABLE 0).gnssStart fe sclk)
    else done s

/-- A take cuts every self-test short at the end of its present step (R580). -/
def State.cutTests (s : State) : State :=
  { s with sort := { s.sort with tests := s.sort.tests.map (fun x => { x with cut := true }) } }

end Sys2Proof.Machine
end

