-- ==== Sys2Proof/Machine/HostPort.lean ====
section
/-! DEFINITION. The host port (spec/12_host_letterbox.md): link and power states, the rings' pointers and enables, frame rings, and the
commands' watchdog. The commands themselves are taken in Letterbox.lean. -/
namespace Sys2Proof.Machine

/-! ### The writes of the HOST block (R406, R432, R433) -/

/-- A command of the rings is in flight. -/
def State.ringBusy (s : State) : Bool := s.host.inflight.any (fun e => e.ref.src == CmdSrc.ring) || !s.host.held.isEmpty

/-- The Letterbox starts: its pointers and counters at 0. -/
def State.boxStart (s : State) : State :=
  let s := s.rstFlds [F.HOST_CMD_TAIL_PTR, F.HOST_CMD_HEAD_PTR, F.HOST_CPL_HEAD_PTR, F.HOST_CPL_TAIL_PTR, F.HOST_EVT_HEAD_PTR,
    F.HOST_EVT_TAIL_PTR, F.HOST_EVT_LOST_COUNT, F.HOST_CNT_CMD_COUNT, F.HOST_CNT_DISC_COUNT, F.HOST_STAT_CMD_ERR]
  { s with host := { s.host with running := true, unsig := 0 } }

/-- A write of HOST_CTL (R433). -/
def State.hostCtlWrite (s : State) (a : Acs) (w : Nat) : State × Nat :=
  let was := s.on F.HOST_CTL_EN
  let r := s.fieldWrite noLock inRange [F.HOST_CTL_EVT_EN, F.HOST_CTL_EN] 0 w
  let s := r.1
  let now := s.on F.HOST_CTL_EN
  let s :=
    if now && !was then (if s.host.stopping then s.wr F.HOST_STAT_PENDING_ENABLE 1 else s.boxStart)
    else if was && !now then
      (if s.host.stopping then s.wr F.HOST_STAT_PENDING_ENABLE 0 else { s with host := { s.host with stopping := true } })
    else s
  s.conclude a r.2

/-- `LETTERBOX_ENABLE`: requester `req` writes `w` to HOST_CTL. -/
def execLetterboxEnable (req w : Nat) (s : State) : Host.Outcome State Fault Refusal :=
  done (s.put ⟨req, 0x18000, 2, true⟩ (fun s a => s.hostCtlWrite a w)).1

/-- `LETTERBOX_STOP_DONE`: the last command in flight has completed, and its completion is written; an enable that waits starts the
Letterbox again. -/
def execLetterboxStopDone (s : State) : Host.Outcome State Fault Refusal :=
  if !s.host.stopping ∨ s.ringBusy then done s else
  let s := { s with host := { s.host with stopping := false, running := false } }
  if s.on F.HOST_STAT_PENDING_ENABLE then done (s.wr F.HOST_STAT_PENDING_ENABLE 0).boxStart else done s

/-- A write of a ring base or of HOST_RING_SIZE, locked while the Letterbox runs (R432). -/
def State.hostRingWrite (s : State) (a : Acs) (fs : List Fld) (w : Nat) : State × Nat :=
  let r := s.fieldWrite (fun _ => s.on F.HOST_CTL_EN || s.host.running) inRange fs 0 w
  r.1.conclude a r.2

/-- A pointer write that keeps its ring within its size is taken; otherwise it is ignored, with FS 156 (R406). -/
def State.ptrWrite (s : State) (f : Fld) (i : Nat) (ok : Bool) (w : Nat) : State :=
  if ok then s.wr f (bits w 0 13) i else s.raise 156

/-- Held completions are written while the ring has room (R409). -/
def State.releaseHeld : Nat → State → State
  | 0, s => s
  | fuel + 1, s =>
    match s.host.held with
    | [] => s.wr F.HOST_STAT_CPL_HELD 0
    | c :: t =>
      if s.cplFull || s.on F.HOST_STAT_D3HOT then s
      else State.releaseHeld fuel (({ s with host := { s.host with held := t } }).writeCpl c)

/-- A write of HOST_CMD_TAIL, HOST_CPL_HEAD or HOST_EVT_HEAD. -/
def State.cmdTailWrite (s : State) (a : Acs) (w : Nat) : State × Nat :=
  (s.ptrWrite F.HOST_CMD_TAIL_PTR 0 (ptrOk (s.rd F.HOST_RING_SIZE_CMD) 12 (s.rd F.HOST_CMD_HEAD_PTR) (bits w 0 13)) w).conclude a []
def State.cplHeadWrite (s : State) (a : Acs) (w : Nat) : State × Nat :=
  let n := s.rd F.HOST_RING_SIZE_CPL
  let s := s.ptrWrite F.HOST_CPL_HEAD_PTR 0 (bits w 0 13 % 2 ^ 12 < 2 ^ n && ptrOk n 12 (bits w 0 13) (s.rd F.HOST_CPL_TAIL_PTR)) w
  (State.releaseHeld (s.host.held.length + 1) s).conclude a []
def State.evtHeadWrite (s : State) (a : Acs) (w : Nat) : State × Nat :=
  let n := s.rd F.HOST_RING_SIZE_EVT
  (s.ptrWrite F.HOST_EVT_HEAD_PTR 0 (bits w 0 13 % 2 ^ 12 < 2 ^ n && ptrOk n 12 (bits w 0 13) (s.rd F.HOST_EVT_TAIL_PTR)) w).conclude a []

/-- `CMD_DOORBELL`: requester `req` writes HOST_CMD_TAIL. -/
def execCmdDoorbell (req w : Nat) (s : State) : Host.Outcome State Fault Refusal := done (s.put ⟨req, 0x18024, 2, true⟩ (fun s a => s.cmdTailWrite a w)).1

/-- `CPL_HEAD_WRITE`: requester `req` writes HOST_CPL_HEAD. -/
def execCplHeadWrite (req w : Nat) (s : State) : Host.Outcome State Fault Refusal := done (s.put ⟨req, 0x1802C, 2, true⟩ (fun s a => s.cplHeadWrite a w)).1

/-- `EVT_HEAD_WRITE`: requester `req` writes HOST_EVT_HEAD. -/
def execEvtHeadWrite (req w : Nat) (s : State) : Host.Outcome State Fault Refusal := done (s.put ⟨req, 0x18034, 2, true⟩ (fun s a => s.evtHeadWrite a w)).1

/-- A write of a HOST register that may be written in service. -/
def State.hostServiceWrite (s : State) (a : Acs) (fs : List Fld) (i w : Nat) : State × Nat :=
  let r := s.fieldWrite noLock inRange fs i w
  r.1.conclude a r.2

/-- `IRQ_TIMER`: CPL_TIME has passed since the first completion not signalled (R411). -/
def execIrqTimer (s : State) : Host.Outcome State Fault Refusal :=
  if s.host.unsig = 0 ∨ s.on F.HOST_STAT_D3HOT then done s
  else done ({ s with host := { s.host with unsig := 0 } }.emit (.msix 0))

/-! ### Frame rings (R426, R427) -/

/-- The fields of HOST_FR_CTL[g] that `g`'s ring, transmit or receive, locks. -/
def State.frLocked (s : State) (g : Nat) (f : Fld) : Bool :=
  (s.on F.HOST_FR_CTL_TX_EN g && f.no == F.HOST_FR_CTL_TX_SIZE.no) || (s.on F.HOST_FR_CTL_RX_EN g && f.no == F.HOST_FR_CTL_RX_SIZE.no)

/-- A write of HOST_FR_CTL[g] (R432, R433): a ring starts with its pointers at 0; one that is stopped serves nothing more. -/
def State.frCtlWrite (s : State) (a : Acs) (g w : Nat) : State × Nat :=
  let tx := s.on F.HOST_FR_CTL_TX_EN g
  let rx := s.on F.HOST_FR_CTL_RX_EN g
  let r := s.fieldWrite (s.frLocked g) inRange [F.HOST_FR_CTL_RX_SIZE, F.HOST_FR_CTL_TX_SIZE, F.HOST_FR_CTL_RX_EN, F.HOST_FR_CTL_TX_EN] g w
  let s := r.1
  let tx' := s.on F.HOST_FR_CTL_TX_EN g
  let rx' := s.on F.HOST_FR_CTL_RX_EN g
  let s := if tx' && !tx then s.rstFlds [F.HOST_TXR_TAIL_PTR, F.HOST_TXR_HEAD_PTR] g else s
  let s := if rx' && !rx then s.rstFlds [F.HOST_RXR_TAIL_PTR, F.HOST_RXR_HEAD_PTR, F.HOST_RXR_DROP_COUNT] g else s
  let s := if rx' != rx then { s with host := { s.host with posted := s.host.posted.set g [] } } else s
  let s := { s with host := { s.host with txRun := s.host.txRun.set g tx', rxRun := s.host.rxRun.set g rx' } }
  s.conclude a r.2

/-- `FRAME_RING_ENABLE`: requester `req` writes `w` to HOST_FR_CTL[g]. -/
def execFrameRingEnable (req g w : Nat) (s : State) : Host.Outcome State Fault Refusal :=
  if 8 ≤ g then done s else done (s.put ⟨req, 0x18110 + 0x40 * g, 2, true⟩ (fun s a => s.frCtlWrite a g w)).1

/-- A write of HOST_TXR_BASE[g] or HOST_RXR_BASE[g], locked while that ring runs. -/
def State.frBaseWrite (s : State) (a : Acs) (fs : List Fld) (rx : Bool) (g w : Nat) : State × Nat :=
  let on := s.on (if rx then F.HOST_FR_CTL_RX_EN else F.HOST_FR_CTL_TX_EN) g
  let r := s.fieldWrite (fun _ => on) inRange fs g w
  r.1.conclude a r.2

/-- A write of HOST_TXR_TAIL[g]. -/
def State.txTailWrite (s : State) (a : Acs) (g w : Nat) : State × Nat :=
  (s.ptrWrite F.HOST_TXR_TAIL_PTR g (ptrOk (s.rd F.HOST_FR_CTL_TX_SIZE g) 12 (s.rd F.HOST_TXR_HEAD_PTR g) (bits w 0 13)) w).conclude a []

/-- A write of HOST_RXR_TAIL[g]; `bufs` gives the buffers and lengths of the descriptors it posts. -/
def State.rxTailWrite (s : State) (a : Acs) (g w : Nat) (bufs : List (Nat × Nat)) : State × Nat :=
  let n := s.rd F.HOST_FR_CTL_RX_SIZE g
  let old := s.rd F.HOST_RXR_TAIL_PTR g
  let ok := ptrOk n 12 (s.rd F.HOST_RXR_HEAD_PTR g) (bits w 0 13)
  let s := s.ptrWrite F.HOST_RXR_TAIL_PTR g ok w
  if !ok then s.conclude a [] else
  let k := ptrUsed n 12 old (bits w 0 13)
  let s := { s with host := { s.host with posted := s.host.posted.set g (s.host.posted.getD g [] ++ bufs.take k) } }
  (State.rxDrain 8192 s g).conclude a []

/-- `HOST_RX_POST`: requester `req` writes HOST_RXR_TAIL[g]. -/
def execHostRxPost (req g w : Nat) (bufs : List (Nat × Nat)) (s : State) : Host.Outcome State Fault Refusal :=
  if 8 ≤ g then done s else done (s.put ⟨req, 0x1811C + 0x40 * g, 2, true⟩ (fun s a => s.rxTailWrite a g w bufs)).1

namespace TxRes
def sent : Nat := 1
def dropped : Nat := 2
def rejected : Nat := 3
end TxRes

/-- The fields of a transmit descriptor (Table HOST-10), as words 2 to 4. -/
structure TxDesc where
  w8 : Nat
  w12 : Nat
  id : Nat
  deriving DecidableEq, Repr

def TxDesc.fmt (x : TxDesc) : Nat := bits x.w8 20 2
def TxDesc.csum (x : TxDesc) : Nat := bits x.w8 18 2
def TxDesc.len (x : TxDesc) : Nat := bits x.w8 0 14
def TxDesc.csOfs (x : TxDesc) : Nat := bits x.w12 16 16
def TxDesc.osOfs (x : TxDesc) : Nat := bits x.w12 0 16

/-- The tag that a host frame without one receives on port `p` (R264). -/
def State.hostTags (s : State) (p : Nat) (l : List Nat) : List Nat :=
  if !s.on F.MAC_CTL_TAG_INS p ∨ !(tagsOf l).isEmpty then [] else
  (if s.on F.MAC_CTL_QINQ p then beBytes 2 0x88A8 ++ beBytes 2 (s.rd F.MAC_TAG_S_TCI p) else []) ++
    beBytes 2 0x8100 ++ beBytes 2 (s.rd F.MAC_TAG_C_TCI p)

/-- The fields of a descriptor are in range for the frame `l` as sent (R426). -/
def txOk (x : TxDesc) (maxf : Nat) (l : List Nat) : Bool :=
  let osEnd := if x.fmt = 0 then 0 else if x.fmt = 1 then x.osOfs + 44 else x.osOfs + 8
  let csEnd := if x.csum = 0 then 0 else x.csOfs + 2
  60 ≤ x.len && x.len ≤ 9596 && l.length + 4 ≤ maxf && osEnd ≤ l.length && csEnd ≤ l.length && x.csum != 3 &&
  (x.csum != 1 || etherType l == 0x0800)

/-- The frame of a descriptor goes out on port `p`, its one-step field and checksum as asked, with the Postmark that is due. -/
def State.txSend (s : State) (g p : Nat) (x : TxDesc) (l : List Nat) (place : TxPlace) : State :=
  let d := s.classDom Cls.pmTx
  let st := s.txStamp p d place
  let l := s.oneStep x.fmt x.osOfs x.csum x.csOfs d st l
  let s := s.sendFrame p l
  if bit x.w8 16 && s.on F.PM_CTL_TX_HOST g then
    s.postmark g ⟨st, x.id, 0, l, 0, place.lane, place.fecLane, place.pos, 1, d, (s.lane place.lane).reload, x.fmt != 0, false, p⟩
  else s

/-- The descriptor at the head of group `g`'s transmit ring ends with `result`: DONE and RESULT are written, then HEAD advances. -/
def State.txEnd (s : State) (g result : Nat) : State :=
  let n := s.rd F.HOST_FR_CTL_TX_SIZE g
  let h := s.rd F.HOST_TXR_HEAD_PTR g
  let a := s.rd F.HOST_TXR_BASE_BASE g * 4096 + ptrIdx n h * 32 + 24
  ((s.emit (.dma a [2 ^ 31 + result * 2 ^ 28])).wr F.HOST_TXR_HEAD_PTR (ptrNext n 12 h) g).emit (.msix (3 + g))

/-- The priority of a host frame as sent on port `p` (R268): the PCP of its outer tag, or of C_TCI without one. -/
def State.framePrio (s : State) (p : Nat) (l : List Nat) : Nat :=
  bits (((tagsOf l).head?.map (fun t => t.2)).getD (s.rd F.MAC_TAG_C_TCI p)) 13 3

/-- `HOST_TX_DESCRIPTOR`: the descriptor at the head of group `g`'s transmit ring is served: its words at bytes 8, 12 and 16, the frame in
its buffer, and where it would leave. A frame that a pause holds back waits; `dmaErr` says that it could not be read. -/
def execHostTxDescriptor (g w8 w12 id : Nat) (frame : List Nat) (place : TxPlace) (dmaErr : Bool) (s : State) :
    Host.Outcome State Fault Refusal :=
  let n := s.rd F.HOST_FR_CTL_TX_SIZE g
  if 8 ≤ g ∨ !s.host.txRun.getD g false ∨ s.on F.HOST_STAT_D3HOT ∨
      ptrUsed n 12 (s.rd F.HOST_TXR_HEAD_PTR g) (s.rd F.HOST_TXR_TAIL_PTR g) = 0 then done s else
  let x : TxDesc := ⟨w8, w12, id⟩
  let p := 4 * g + bits w8 14 2
  let l := (frame.take x.len).map (fun b => b % 256)
  let tags := s.hostTags p l
  let l := l.take 12 ++ tags ++ l.drop 12
  if dmaErr then done ((s.txEnd g TxRes.dropped).raise 158 0)
  else if !txOk x (s.rd F.MAC_CTL_MAXF p) l then done (s.txEnd g TxRes.rejected)
  else if !s.portSends p then done ((s.inc F.MAC_CNT_DROP_DROP p).txEnd g TxRes.dropped)
  else if !s.unpaused p (s.framePrio p l) then done s
  else done ((s.txSend g p x l place).txEnd g TxRes.sent)

/-! ### The link (R398 to R402) -/

/-- The fields of the HOST block that a link reset returns to their reset values, by how many there are of each. -/
def hostFields : List (Fld × Nat) :=
  ([F.HOST_CTL_EVT_EN, F.HOST_CTL_EN, F.HOST_STAT_INFLIGHT, F.HOST_STAT_CMD_ERR, F.HOST_STAT_CPL_HELD, F.HOST_STAT_PENDING_ENABLE,
    F.HOST_STAT_D3HOT, F.HOST_STAT_LINK_PM, F.HOST_STAT_WIDTH, F.HOST_STAT_SPEED, F.HOST_CMD_BASE_BASE, F.HOST_CPL_BASE_BASE,
    F.HOST_EVT_BASE_BASE, F.HOST_RING_SIZE_EVT, F.HOST_RING_SIZE_CPL, F.HOST_RING_SIZE_CMD, F.HOST_CMD_TAIL_PTR,
    F.HOST_CMD_HEAD_PTR, F.HOST_CPL_HEAD_PTR, F.HOST_CPL_TAIL_PTR, F.HOST_EVT_HEAD_PTR, F.HOST_EVT_TAIL_PTR, F.HOST_IRQ_MOD_CPL_CNT,
    F.HOST_IRQ_MOD_CPL_TIME, F.HOST_TMO_TMO, F.HOST_EVT_LOST_COUNT, F.HOST_CNT_CMD_COUNT, F.HOST_CNT_DISC_COUNT, F.HOST_MBX_CTL_DONE,
    F.HOST_MBX_CTL_BUSY, F.HOST_MBX_CTL_INT_EN].map (fun f => (f, 1))) ++
  ([F.HOST_TXR_BASE_BASE, F.HOST_RXR_BASE_BASE, F.HOST_FR_CTL_RX_SIZE, F.HOST_FR_CTL_TX_SIZE, F.HOST_FR_CTL_RX_EN,
    F.HOST_FR_CTL_TX_EN, F.HOST_TXR_TAIL_PTR, F.HOST_TXR_HEAD_PTR, F.HOST_RXR_TAIL_PTR, F.HOST_RXR_HEAD_PTR,
    F.HOST_RXR_DROP_COUNT].map (fun f => (f, 8))) ++
  [(F.HOST_MBX_CMD_WORD, 16), (F.HOST_MBX_CPL_WORD, 4)]

/-- The HOST block returns to its reset values and every ring is disabled; commands of the rings run to their end, but their completions
are not written (R402). -/
def State.hostReset (s : State) : State :=
  let gone := s.host.inflight.filter (fun e => e.ref.src == CmdSrc.ring)
  let n := gone.length + s.host.held.length
  let s := hostFields.foldl (fun s q => s.rstAll q.1 q.2) s
  let s := { s with host := { s.host with
    inflight := s.host.inflight.filter (fun e => e.ref.src != CmdSrc.ring)
    dropped := s.host.dropped ++ gone.map InFlight.ref
    held := []
    heldEvents := []
    lost := 0
    unsig := 0
    stopping := false
    running := false
    txRun := List.replicate 8 false
    rxRun := List.replicate 8 false
    posted := List.replicate 8 [] } }
  (s.inc F.HOST_CNT_DISC_COUNT 0 n).showInflight

/-- `HOST_LINK_RESET`: link-down, hot reset or Function Level Reset; `speed` and `width` are the link's afterwards, 0 when it is down. -/
def execHostLinkReset (speed width : Nat) (s : State) : Host.Outcome State Fault Refusal :=
  let s := s.hostReset
  done (((s.wr F.HOST_STAT_SPEED speed).wr F.HOST_STAT_WIDTH width).raise 152)

/-- `HOST_LINK_UP`: the link trains at `speed` (1 to 4) and `width` (1, 2 or 4 lanes) (R398). -/
def execHostLinkUp (speed width : Nat) (s : State) : Host.Outcome State Fault Refusal :=
  if 1 ≤ speed ∧ speed ≤ 4 ∧ (width = 1 ∨ width = 2 ∨ width = 4) then
    done ((s.wr F.HOST_STAT_SPEED speed).wr F.HOST_STAT_WIDTH width)
  else done s

/-- `D3HOT_ENTER`: the function enters D3hot (R401). -/
def execD3hotEnter (s : State) : Host.Outcome State Fault Refusal := done (s.wr F.HOST_STAT_D3HOT 1)

/-- `D0_RETURN`: the function returns to D0: held completions and events are written, and waiting frames delivered. -/
def execD0Return (s : State) : Host.Outcome State Fault Refusal :=
  let s := s.wr F.HOST_STAT_D3HOT 0
  let s := State.releaseHeld (s.host.held.length + 1) s
  let evs := s.host.heldEvents
  let s := { s with host := { s.host with heldEvents := [] } }
  let s := evs.foldl (fun s e => s.writeEvent e.dn e.code e.info e.count e.seq e.payload) s
  done (forN 8 s (fun s g => State.rxDrain 8192 s g))

/-! ### The watchdog (R418) -/

/-- A command in flight completes with DEVICE_TIMEOUT; whatever completes it later is dropped. -/
def State.timeoutCmd (s : State) (r : CmdRef) : State :=
  if !s.host.inflight.any (fun e => e.ref == r) then s else
  let s := s.finish r Code.deviceTimeout
  { s with host := { s.host with dropped := s.host.dropped ++ [r] } }.raise 157 r.dn

/-- `COMMAND_TIMEOUT`: HOST_TMO has elapsed for command `c`, or (`lost`) the path to its device is lost. -/
def execCommandTimeout (c : CmdRef) (lost : Bool) (s : State) : Host.Outcome State Fault Refusal :=
  if (c.src = CmdSrc.ring ∨ c.src = CmdSrc.mailbox) ∧ (lost ∨ s.on F.HOST_TMO_TMO) then done (s.timeoutCmd c) else done s

end Sys2Proof.Machine
end

