-- ==== Sys2Proof/Machine/Noryr.lean ====
section
/-! DEFINITION. Noryr links and the tree (spec/13_noryr_cascade.md): port states, training, sleep, replay and credits, device numbers, and time across
the tree. Frames received are taken in NorRx.lean. -/
namespace Sys2Proof.Machine

/-! ### Roles -/

/-- This device is the root of the tree (R447). -/
def State.norRoot (s : State) : Bool := s.on F.NOR_CTL_ROOT

/-- This device is the upstream end of port `q`: ND, or NP on member 0 (R454, R461). -/
def State.norUpper (s : State) (q : Nat) : Bool := q < 4 || (q == portNP && s.rd F.PAIR_CTL_MEMBER == 0)

/-- The port kind in CAP: 0 NU, 1 ND, 2 NP. -/
def norKind (q : Nat) : Nat := if q < 4 then 1 else if q = portNU then 0 else 2

/-- A level-3 device keeps its ND ports in DETECT (R449). -/
def State.norDeep (s : State) (q : Nat) : Bool := q < 4 && s.on F.NOR_STAT_NUMBERED && s.rd F.NOR_STAT_LEVEL == 3

/-! ### Device numbers (R448, R450, R457) -/

/-- The level and path of device number `dn` as the root knows them. -/
def State.dnPath (s : State) (dn : Nat) : Option (Nat × Nat) :=
  if 1 ≤ dn ∧ dn ≤ 4 then some (1, dn - 1)
  else if 5 ≤ dn ∧ dn ≤ 20 then some (2, (dn - 5) / 4 + 4 * ((dn - 5) % 4))
  else (s.nor.binds.find? (fun b => b.2 == dn)).map (fun b => (3, b.1))

/-- `dn` lies in the subtree that port `q` of the device at `level` and `path` leads to. -/
def State.dnUnder (s : State) (level path q dn : Nat) : Bool :=
  match s.dnPath dn with
  | some (l, p) => level < l && p % 4 ^ (level + 1) == path % 4 ^ level + q * 4 ^ level
  | none => false

/-- The root cuts a subtree: its numbers leave NOR_PRESENT, and its commands in flight end as R418 decides. -/
def State.norCut (s : State) (level path q : Nat) : State :=
  let dead := idxs 64 (fun dn => bit (s.rd F.NOR_PRESENT_MASK) dn && s.dnUnder level path q dn)
  let s := dead.foldl (fun s dn =>
    let s := s.wrBit F.NOR_PRESENT_MASK dn false
    forN 4 s (fun s j => s.wrBit F.NOR_ROUTE_MASK dn false j)) s
  (s.host.inflight.filter (fun e => dead.contains e.ref.dn)).foldl (fun s e => s.timeoutCmd e.ref) s

/-- The number for the device that joins at `level` and `path` (R448), and the bindings afterwards. -/
def State.dnFor (s : State) (level path : Nat) : Option Nat × List (Nat × Nat) :=
  if level = 1 then (some (1 + path % 4), s.nor.binds)
  else if level = 2 then (some (5 + 4 * (path % 4) + path / 4 % 4), s.nor.binds)
  else match s.nor.binds.find? (fun b => b.1 == path) with
    | some b => (some b.2, s.nor.binds)
    | none =>
      match ((List.range 43).map (fun k => 21 + k)).find? (fun dn => !s.nor.binds.any (fun b => b.2 == dn)) with
      | some dn => (some dn, s.nor.binds ++ [(path, dn)])
      | none => (none, s.nor.binds)

/-- An ADDR frame (Table NOR-4). -/
def addrFrame (src : Nat) (dn : Option Nat) (level path : Nat) : NorFrame :=
  ⟨NorT.addr, dn.getD 0, src, 0, [dn.isNone.toNat * 256 + level * 64 + dn.getD 0, path % 64]⟩

/-- An ADDR frame for a device below goes down on port `j`, which learns the route (R450); the parent of a device without a number shows
EXCESS. -/
def State.addrDown (s : State) (j src : Nat) (own : Nat) (dn : Option Nat) (level path : Nat) : State :=
  let s := match dn with
    | some d =>
      let s := s.wrBit F.NOR_ROUTE_MASK d true j
      if level = own + 1 then s.wr F.NOR_PORT_STAT_PARTNER_DN d j else s
    | none => if level = own + 1 then s.wr F.NOR_PORT_STAT_EXCESS 1 j else s
  s.norQueue j src (addrFrame 0 dn level path)

/-- The root gives a number to the device that has joined port `q` of the device at `level` and `path`. -/
def State.norAssign (s : State) (level path q : Nat) : State :=
  if 3 ≤ level then s else
  let p := path % 4 ^ level + q * 4 ^ level
  let r := s.dnFor (level + 1) p
  let s := { s with nor := { s.nor with binds := r.2 } }
  let s := match r.1 with
    | some dn => s.wrBit F.NOR_PRESENT_MASK dn true
    | none => s.raise 163 q
  s.addrDown (p % 4) 6 0 r.1 (level + 1) p

/-- The root learns that port `q` of the device at `level` and `path` has lost (`kind` 0) or joined its partner (R457): event 0x000A, and the
subtree is cut or numbered. -/
def State.rootLink (s : State) (kind q level path : Nat) : State :=
  let s := s.eventNow 0x000A 1 [q + (if kind = 0 then NorS.detect else NorS.active) * 256]
  if 4 ≤ q then s
  else if kind = 0 then s.norCut level path q
  else if kind = 2 then s.norAssign level path q
  else s

/-- A LINK notice of this device's port `q` (R457). A device without a number sends it once it has one. -/
def State.linkNotice (s : State) (q kind : Nat) : State :=
  if !s.norUpper q then s
  else if s.norRoot then s.rootLink kind q 0 0
  else if s.on F.NOR_STAT_NUMBERED ∧ s.norUp portNU then
    s.norOwn NorT.link 0 [kind + q * 16 + s.rd F.NOR_STAT_DN * 256 + s.rd F.NOR_STAT_LEVEL * 2 ^ 14, s.nor.path]
  else s

/-! ### Port states (Table NOR-6) -/

/-- The state of port `q` becomes `st`. -/
def State.setNorState (s : State) (q st : Nat) : State := s.wr F.NOR_PORT_STAT_STATE st q

/-- Port `q` forgets the link it had; exchanges kept stay. -/
def State.clearLink (s : State) (q : Nat) : State :=
  let x := s.norPort q
  let s := s.setNorPort q { kept := x.kept, valid := x.valid, xch := x.xch }
  let s := s.rstFlds [F.NOR_PORT_STAT_TX_N1, F.NOR_PORT_STAT_RX_N1, F.NOR_PORT_STAT_N2_AGREED, F.NOR_PORT_STAT_RATE] q
  if q < 4 then (s.wr F.NOR_ROUTE_MASK 0 q).wr F.NOR_PORT_STAT_PARTNER_DN 0 q else s

/-- Port `q` starts: its counters clear and it enters DETECT; on a level-3 device an ND port stays there, with FS 163 (R449). -/
def State.norStart (s : State) (q : Nat) : State :=
  let s := s.rstFlds [F.NOR_PORT_CNT_DOWNS, F.NOR_PORT_CNT_REPLAYS, F.NOR_PORT_CNT2_DROPPED, F.NOR_PORT_CNT2_CODE_ERR,
    F.NOR_PORT_STAT_EXCESS, F.NOR_PORT_STAT_PARTNER_MEMBER] q
  let s := (s.clearLink q).setNorState q NorS.detect
  if s.norDeep q then (s.wr F.NOR_PORT_STAT_EXCESS 1 q).raise 163 q else s

/-- Port `q` stops: its frames are discarded and its transmitter idles; a partner that was joined is lost. -/
def State.norStop (s : State) (q : Nat) : State :=
  let up := s.norUp q
  let s := ((s.clearLink q).setNorState q NorS.stopping).condOff 160 q
  if up then s.linkNotice q 0 else s

/-- Port `q` reaches ACTIVE: each class is granted whole (R443), the partner is announced (R457), and on NP a new IV epoch is drawn (R479). -/
def State.norActive (s : State) (q : Nat) : State :=
  let x := s.norPort q
  let s := s.setNorPort q { n1 := x.n1, kept := x.kept, valid := x.valid, xch := x.xch }
  let s := (s.setNorState q NorS.active).condOff 160 q
  let s := [(0, 512), (1, 512), (3, 32)].foldl (fun s g => s.norReturn q g.1 g.2) s
  let s := if q = portNP then
      let s := s.norReturn q 2 1024
      { s.draw.2 with pair := { s.pair with iv := s.draw.1 % 2 ^ 32, ctr := 0 } }
    else s
  s.linkNotice q 2

/-- Port `q` leaves ACTIVE or N2 for DETECT (Table NOR-6): counted, FS 160, and the loss is announced. -/
def State.norDown (s : State) (q : Nat) : State :=
  let s := ((s.inc F.NOR_PORT_CNT_DOWNS q).clearLink q).setNorState q NorS.detect
  (s.condOn 160 q).linkNotice q 0

/-- The ports of the layer start, those enabled; the root has number 0 (R447). -/
def State.norLayerStart (s : State) : State :=
  let s := if s.norRoot then
      let s := (s.wr F.NOR_STAT_DN 0).wr F.NOR_STAT_LEVEL 0
      ((s.wr F.NOR_STAT_NUMBERED 1).wr F.NOR_STAT_TREE_VALID 1).wr F.NOR_PRESENT_MASK 1
    else s
  forN 6 s (fun s q => if s.on F.NOR_PORT_CTL_EN q ∧ s.norState q = NorS.disabled then s.norStart q else s)

/-- A port of the layer is stopping. -/
def State.norStopping (s : State) : Bool := (List.range 6).any (fun q => s.norState q == NorS.stopping)

/-- A write of NOR_CTL (R460). -/
def State.norCtlWrite (s : State) (a : Acs) (w : Nat) : State × Nat :=
  let was := s.on F.NOR_CTL_EN
  let r := s.stagedWrite (fun f => (was || s.norStopping) && f.among [F.NOR_CTL_ROOT]) inRange
    [F.NOR_CTL_TS_AVG, F.NOR_CTL_TS_PER, F.NOR_CTL_N1_EN, F.NOR_CTL_N2_EN, F.NOR_CTL_ROOT, F.NOR_CTL_EN] 0 w
  let s := r.1
  let now := s.on F.NOR_CTL_EN
  let s :=
    if now && !was then (if s.norStopping then s.wr F.NOR_STAT_PENDING_ENABLE 1 else s.norLayerStart)
    else if was && !now then
      let s := s.wr F.NOR_STAT_PENDING_ENABLE 0
      forN 6 s (fun s q => if s.norState q = NorS.disabled ∨ s.norState q = NorS.stopping then s else s.norStop q)
    else s
  s.conclude a r.2

/-- A write of NOR_PORT_CTL[q] (R445, R446, R460). -/
def State.norPortWrite (s : State) (a : Acs) (q w : Nat) : State × Nat :=
  let was := s.on F.NOR_PORT_CTL_EN q
  let st := s.norState q
  let r := s.fieldWrite (fun f => (was || st == NorS.stopping) && f.among [F.NOR_PORT_CTL_MAX_RATE]) inRange
    [F.NOR_PORT_CTL_MAX_RATE, F.NOR_PORT_CTL_EN] q w
  let s := r.1
  let now := s.on F.NOR_PORT_CTL_EN q
  let s :=
    if now && !was then
      if st = NorS.stopping then s.wr F.NOR_PORT_STAT_PENDING_ENABLE 1 q
      else if s.on F.NOR_CTL_EN ∧ st = NorS.disabled then s.norStart q else s
    else if was && !now then
      if st = NorS.stopping then s.wr F.NOR_PORT_STAT_PENDING_ENABLE 0 q
      else if st = NorS.disabled then s else s.norStop q
    else s
  s.conclude a r.2

/-- `NOR_PORT_ENABLE`: requester `req` writes NOR_PORT_CTL[q] with EN = 1; `w` gives the other bits. -/
def execNorPortEnable (req q w : Nat) (s : State) : Host.Outcome State Fault Refusal :=
  if 6 ≤ q then done s else done (s.put ⟨req, 0x900 + 0x20 * q, 2, true⟩ (fun s a => s.norPortWrite a q (setBit w 0 true))).1

/-- `NOR_PORT_DISABLE`: requester `req` writes NOR_PORT_CTL[q] with EN = 0. -/
def execNorPortDisable (req q w : Nat) (s : State) : Host.Outcome State Fault Refusal :=
  if 6 ≤ q then done s else done (s.put ⟨req, 0x900 + 0x20 * q, 2, true⟩ (fun s a => s.norPortWrite a q (setBit w 0 false))).1

/-- `NOR_PORT_STOP_DONE`: port `q` finishes STOPPING; an enable that waits starts it again. -/
def execNorPortStopDone (q : Nat) (s : State) : Host.Outcome State Fault Refusal :=
  if 6 ≤ q ∨ s.norState q ≠ NorS.stopping then done s else
  let s := s.setNorState q NorS.disabled
  let again := s.on F.NOR_PORT_STAT_PENDING_ENABLE q
  let s := s.wr F.NOR_PORT_STAT_PENDING_ENABLE 0 q
  let s := if again ∧ s.on F.NOR_CTL_EN ∧ !s.on F.NOR_STAT_PENDING_ENABLE then s.norStart q else s
  if s.on F.NOR_STAT_PENDING_ENABLE ∧ !s.norStopping then done ((s.wr F.NOR_STAT_PENDING_ENABLE 0).norLayerStart) else done s

/-- A write of NOR_IDLE or NOR_PORT_ASYM, which takes effect at the next beat edge. -/
def State.norServiceWrite (s : State) (a : Acs) (fs : List Fld) (i w : Nat) : State × Nat :=
  let r := s.stagedWrite noLock inRange fs i w
  r.1.conclude a r.2

/-- CLR frees the bindings of level-3 numbers that are not present (R448). -/
def State.norBindClr (s : State) : State :=
  if !s.norRoot then s else
  { s with nor := { s.nor with binds := s.nor.binds.filter (fun b => bit (s.rd F.NOR_PRESENT_MASK) b.2) } }

/-- `NOR_BIND_CLR`: NOR_BIND_CLR.CLR is written 1. -/
def execNorBindClr (s : State) : Host.Outcome State Fault Refusal := done s.norBindClr

/-! ### Bring-up -/

/-- `NOR_SIGNAL_DETECT`: a signal has been present on port `q` for 100 µs: training begins. -/
def execNorSignalDetect (q : Nat) (s : State) : Host.Outcome State Fault Refusal :=
  if 6 ≤ q ∨ s.norState q ≠ NorS.detect ∨ s.norDeep q then done s
  else done ((s.setNorState q NorS.train).emit (.norSet q 0x10 0 0))

/-- `NOR_TRAINED`: 64 TRN sets in a row both ways: CAP is sent. -/
def execNorTrained (q : Nat) (s : State) : Host.Outcome State Fault Refusal :=
  if 6 ≤ q ∨ s.norState q ≠ NorS.train then done s else
  let cap := s.rd F.NOR_PORT_CTL_MAX_RATE q + s.inF F.NOR_CTL_N2_EN * 4 + s.inF F.NOR_CTL_N1_EN * 8 + norKind q * 16
  done ((s.setNorState q NorS.cap).emit (.norSet q 0x20 cap (s.rd F.TOP_DEVICE_ID_MEMBER)))

/-- `NOR_TRAIN_TIMEOUT`: training has not completed in 10 ms. -/
def execNorTrainTimeout (q : Nat) (s : State) : Host.Outcome State Fault Refusal :=
  if 6 ≤ q ∨ s.norState q ≠ NorS.train then done s else done ((s.setNorState q NorS.detect).raise 161 q)

/-- Port kinds are compatible (R451): ND with NU, or NP with NP; the root takes no partner on NU. -/
def State.norCompatible (s : State) (q kind : Nat) : Bool :=
  (norKind q == 1 && kind == 0) || (norKind q == 0 && kind == 1 && !s.norRoot) || (norKind q == 2 && kind == 2)

/-- The rate of port `q`: it is at 2.5 Gb/s and ACTIVE, or steps to the resolved rate. -/
def State.norRate (s : State) (q rate : Nat) : State :=
  let s := s.wr F.NOR_PORT_STAT_RATE rate q
  if rate = 0 then s.norActive q else (s.setNorState q NorS.speed).emit (.norSet q 0x28 rate 0)

/-- `CAP_RX`: a CAP with arguments `a0` and `a1` is received on port `q` (R445, R451). -/
def execCapRx (q a0 a1 : Nat) (s : State) : Host.Outcome State Fault Refusal :=
  if 6 ≤ q ∨ s.norState q ≠ NorS.cap then done s
  else if !s.norCompatible q (bits a0 4 2) then done (s.raise 166)
  else
    let rate := min (bits a0 0 2) (s.rd F.NOR_PORT_CTL_MAX_RATE q)
    let n2 := bit a0 2 && s.inF F.NOR_CTL_N2_EN == 1
    let n1 := bit a0 3 && s.inF F.NOR_CTL_N1_EN == 1
    let s := (s.wr F.NOR_PORT_STAT_PARTNER_MEMBER a1 q).wrB F.NOR_PORT_STAT_N2_AGREED n2 q
    let s := s.setNorPort q { s.norPort q with n1 := n1 }
    let s := s.emit (.norSet q 0x21 (rate + n2.toNat * 4 + n1.toNat * 8 + norKind q * 16) (s.rd F.TOP_DEVICE_ID_MEMBER))
    done (s.norRate q rate)

/-- `SPEED_LOCK`: port `q` locks at the new rate within 2 ms. -/
def execSpeedLock (q : Nat) (s : State) : Host.Outcome State Fault Refusal :=
  if 6 ≤ q ∨ s.norState q ≠ NorS.speed then done s else done (s.norActive q)

/-- `SPEED_TIMEOUT`: no lock within 2 ms: FS 161 with the rate that failed, and the next lower rate. -/
def execSpeedTimeout (q : Nat) (s : State) : Host.Outcome State Fault Refusal :=
  if 6 ≤ q ∨ s.norState q ≠ NorS.speed then done s else
  let rate := s.rd F.NOR_PORT_STAT_RATE q
  done ((s.raise 161 (q + rate * 16)).norRate q (rate - 1))

/-- `NOR_LINK_DOWN`: loss of signal for 1 µs outside sleep, or 16 invalid code groups in one beat. -/
def execNorLinkDown (q : Nat) (s : State) : Host.Outcome State Fault Refusal :=
  if 6 ≤ q ∨ !s.norUp q then done s else done (s.norDown q)

/-! ### Acknowledgement, replay and credits (R441, R443) -/

/-- The frames up to `seq` leave the replay buffer of port `q`. -/
def State.norAck (s : State) (q seq : Nat) : State :=
  let x := s.norPort q
  if !x.replay.any (fun e => e.1 == seq) then s else
  let rest := (x.replay.dropWhile (fun e => e.1 != seq)).drop 1
  State.norPump 64 (s.setNorPort q { x with replay := rest, noProg := 0 }) q

/-- Port `q` replays every frame that is not acknowledged; after 4 replays without progress the link is taken down (R441). -/
def State.norReplay (s : State) (q : Nat) : State :=
  let x := s.norPort q
  if x.replay.isEmpty then s
  else if 4 ≤ x.noProg then (s.raise 162).norDown q
  else
    let s := (s.setNorPort q { x with noProg := x.noProg + 1 }).inc F.NOR_PORT_CNT_REPLAYS q
    s.emits (x.replay.map (fun e => .norFrame q (e.2.words e.1)))

/-- The SEQ that an ACK or NAK carries. -/
def ackSeq (a0 a1 : Nat) : Nat := a0 % 256 * 16 + a1 / 16 % 16

/-- `NOR_ACK_RX`: an ACK is received on port `q`. -/
def execNorAckRx (q a0 a1 : Nat) (s : State) : Host.Outcome State Fault Refusal :=
  if 6 ≤ q ∨ !s.norUp q then done s else done (s.norAck q (ackSeq a0 a1))

/-- `NOR_NAK_RX`: a NAK is received on port `q`: the frames up to its SEQ are acknowledged, the others replayed. -/
def execNorNakRx (q a0 a1 : Nat) (s : State) : Host.Outcome State Fault Refusal :=
  if 6 ≤ q ∨ !s.norUp q then done s else done ((s.norAck q (ackSeq a0 a1)).norReplay q)

/-- `NOR_REPLAY_TIMEOUT`: no ACK has arrived 20 µs after a frame of port `q`. -/
def execNorReplayTimeout (q : Nat) (s : State) : Host.Outcome State Fault Refusal :=
  if 6 ≤ q ∨ !s.norUp q then done s else done (s.norReplay q)

/-- `CRD_RX`: a CRD is received on port `q`: the credits granted of its class become its count. -/
def execCrdRx (q a0 a1 : Nat) (s : State) : Host.Outcome State Fault Refusal :=
  if 6 ≤ q ∨ !s.norUp q then done s else
  let x := s.norPort q
  done (State.norPump 64 (s.setNorPort q { x with grant := x.grant.set (bits a0 6 2) (bits a0 0 6 * 256 + a1 % 256) }) q)

/-! ### Numbers and notices received -/

/-- This device takes the number of an ADDR frame, or stays without one (R448). It then announces the partners it has (R457). -/
def State.takeNumber (s : State) (dn : Option Nat) (level path : Nat) : State :=
  let s := { s with nor := { s.nor with path := path } }
  match dn with
  | none => (s.wr F.NOR_STAT_NUMBERED 0).wr F.NOR_STAT_DN 0 |>.wr F.NOR_STAT_LEVEL 0
  | some d =>
    let s := ((s.wr F.NOR_STAT_DN d).wr F.NOR_STAT_LEVEL level).wr F.NOR_STAT_NUMBERED 1
    let parent := if level = 1 then 0 else if level = 2 then 1 + path % 4 else 5 + 4 * (path % 4) + path / 4 % 4
    let s := s.wr F.NOR_PORT_STAT_PARTNER_DN parent portNU
    forN 6 s (fun s q =>
      if s.norDeep q ∧ s.norState q ≠ NorS.disabled ∧ s.norState q ≠ NorS.stopping then
        let s := if s.norUp q then s.norDown q else (s.clearLink q).setNorState q NorS.detect
        (s.wr F.NOR_PORT_STAT_EXCESS 1 q).raise 163 q
      else if s.norUp q then s.linkNotice q 2 else s)

/-- An ADDR frame with payload words `w0` and `w1` has come in on NU: it is for a device below, or for this one (R450). -/
def State.addrRx (s : State) (w0 w1 : Nat) : State :=
  let level := bits w0 6 2
  let path := w1 % 64
  let dn := if bit w0 8 then none else some (bits w0 0 6)
  let own := s.rd F.NOR_STAT_LEVEL
  if s.norRoot then s
  else if s.on F.NOR_STAT_NUMBERED ∧ own < level ∧ path % 4 ^ own = s.nor.path % 4 ^ own then
    s.addrDown (path / 4 ^ own % 4) portNU own dn level path
  else s.takeNumber dn level path

/-- `NOR_ADDR_RX`: an ADDR frame is received on NU. -/
def execNorAddrRx (w0 w1 : Nat) (s : State) : Host.Outcome State Fault Refusal :=
  if s.norUp portNU then done (s.addrRx w0 w1) else done s

/-- A LINK frame with payload words `w0` and `w1` has come in on port `j`: it reaches the root, or goes on towards it. -/
def State.linkRx (s : State) (j w0 w1 : Nat) : State :=
  if s.norRoot then s.rootLink (bits w0 0 4) (bits w0 4 3) (bits w0 14 2) (w1 % 64)
  else s.norUpward j ⟨NorT.link, 0, bits w0 8 6, 0, [w0, w1]⟩

/-- `NOR_LINK_RX`: a LINK frame is received on ND `j`. -/
def execNorLinkRx (j w0 w1 : Nat) (s : State) : Host.Outcome State Fault Refusal :=
  if 4 ≤ j ∨ !s.norUp j then done s else done (s.linkRx j w0 w1)

/-! ### Sleep (R452, R453) -/

/-- Nothing waits to be sent or acknowledged at port `q`. -/
def State.norIdle (s : State) (q : Nat) : Bool := (s.norPort q).waiting.isEmpty && (s.norPort q).replay.isEmpty

/-- The transmit direction of port `q` wakes: 16 TRN sets from N1; from N2 the link is ACTIVE again. -/
def State.norWake (s : State) (q : Nat) : State :=
  let s := if s.on F.NOR_PORT_STAT_TX_N1 q then
      (s.wr F.NOR_PORT_STAT_TX_N1 0 q).emits (List.replicate 16 (.norSet q 0x10 0 0))
    else s
  let s := if s.norState q = NorS.n2 then (s.setNorState q NorS.active).emit (.norSet q 0x10 0 0) else s
  State.norPump 64 s q

/-- `N1_ENTER`: the transmit direction of port `q` has been idle for IDLE_N1. -/
def execN1Enter (q : Nat) (s : State) : Host.Outcome State Fault Refusal :=
  if 6 ≤ q ∨ s.norState q ≠ NorS.active ∨ !(s.norPort q).n1 ∨ s.on F.NOR_PORT_STAT_TX_N1 q ∨ !(s.norPort q).waiting.isEmpty then done s
  else done ((s.emit (.norSet q 0x50 0 0)).wr F.NOR_PORT_STAT_TX_N1 1 q)

/-- `N1_EXIT`: the receive (`rx`) or the transmit direction of port `q` leaves N1. -/
def execN1Exit (q : Nat) (rx : Bool) (s : State) : Host.Outcome State Fault Refusal :=
  if 6 ≤ q ∨ s.norState q ≠ NorS.active then done s
  else if rx then done (s.wr F.NOR_PORT_STAT_RX_N1 0 q)
  else done (s.norWake q)

/-- `EI_RX`: an EI is received on port `q`: the receive direction is in N1. -/
def execEiRx (q : Nat) (s : State) : Host.Outcome State Fault Refusal :=
  if 6 ≤ q ∨ s.norState q ≠ NorS.active ∨ !(s.norPort q).n1 then done s else done (s.wr F.NOR_PORT_STAT_RX_N1 1 q)

/-- `N2_REQUEST`: both directions of port `q` have been idle for IDLE_N2, and its upstream end asks for N2; not on NP while members clash
(R462). -/
def execN2Request (q : Nat) (s : State) : Host.Outcome State Fault Refusal :=
  if 6 ≤ q ∨ s.norState q ≠ NorS.active ∨ !s.on F.NOR_PORT_STAT_N2_AGREED q ∨ !s.norUpper q ∨ !s.norIdle q ∨
      (q = portNP ∧ s.pair.clash) then done s
  else done ((s.setNorPort q { s.norPort q with n2req := true }).emit (.norSet q 0x51 0 0))

/-- The lanes of port `q` turn off: N2. -/
def State.norSleep (s : State) (q : Nat) : State :=
  ((s.setNorPort q { s.norPort q with n2req := false }).rstFlds [F.NOR_PORT_STAT_TX_N1, F.NOR_PORT_STAT_RX_N1] q).setNorState q NorS.n2

/-- `N2REQ_RX`: an N2REQ is received on port `q`: N2ACK when its transmit side is idle, otherwise N2NAK. -/
def execN2reqRx (q : Nat) (s : State) : Host.Outcome State Fault Refusal :=
  if 6 ≤ q ∨ s.norState q ≠ NorS.active then done s
  else if s.on F.NOR_PORT_STAT_N2_AGREED q ∧ s.norIdle q then done ((s.emit (.norSet q 0x52 0 0)).norSleep q)
  else done (s.emit (.norSet q 0x53 0 0))

/-- `N2ACK_RX`: the answer to an N2REQ of port `q` is received: `ack` for N2ACK. -/
def execN2ackRx (q : Nat) (ack : Bool) (s : State) : Host.Outcome State Fault Refusal :=
  if 6 ≤ q ∨ s.norState q ≠ NorS.active ∨ !(s.norPort q).n2req then done s
  else if ack then done (s.norSleep q)
  else done (State.norPump 64 (s.setNorPort q { s.norPort q with n2req := false }) q)

/-- `N2_EXIT`: an end of port `q` leaves N2. -/
def execN2Exit (q : Nat) (s : State) : Host.Outcome State Fault Refusal :=
  if 6 ≤ q ∨ s.norState q ≠ NorS.n2 then done s else done (s.norWake q)

/-! ### Time across the tree (R454 to R456) -/

/-- TREE_VALID and FS 165 follow `v` (R456). -/
def State.setTree (s : State) (v : Bool) : State := (s.wrB F.NOR_STAT_TREE_VALID v).cond 165 (!v)

/-- `TS_EXCHANGE_DUE`: TS_PER beats have passed, and 20 µs: the upstream end of port `q` sends TSQ at its count `t1`, waking the link. -/
def execTsExchangeDue (q t1 : Nat) (s : State) : Host.Outcome State Fault Refusal :=
  if 6 ≤ q ∨ !s.norUp q ∨ !s.norUpper q ∨ (q = portNP ∧ s.pair.clash) then done s else
  let s := s.norWake q
  let x := s.norPort q
  done ((s.setNorPort q { x with xch := (x.xch + 1) % 256, ask := some (x.xch, t1 % two64) }).emit (.norSet q 0x40 x.xch 0))

/-- `TSQ_RX`: a TSQ with number `xch` crosses at count `t2`; TSR goes back at count `t3`. -/
def execTsqRx (q xch t2 t3 : Nat) (s : State) : Host.Outcome State Fault Refusal :=
  if 6 ≤ q ∨ !s.norUp q ∨ s.norUpper q then done s else
  let s := s.norWake q
  done ((s.setNorPort q { s.norPort q with ans := some (xch % 256, t2 % two64, t3 % two64) }).emit (.norSet q 0x41 (xch % 256) 0))

/-- The Ridge A count of the last beat edge. -/
def State.lastEdge (s : State) : Nat := (s.ridge.nextEdge + two64 - ruBeat) % two64

/-- NOR_TREE_OFS carried to the count `t` (R455). -/
def State.treeAt (s : State) (t : Nat) : Rat :=
  s.rdS F.NOR_TREE_OFS_VALUE + (s.rdS F.NOR_TREE_FREQ_VALUE : Rat) / 2 ^ 60 * ridgeDist t s.lastEdge

/-- `TSR_RX`: the TSR with number `xch` crosses at count `t4`: the upstream end sends a TS frame (Table NOR-5). -/
def execTsrRx (q xch t4 : Nat) (s : State) : Host.Outcome State Fault Refusal :=
  if 6 ≤ q ∨ !s.norUp q then done s else
  match (s.norPort q).ask with
  | none => done s
  | some (n, t1) =>
    if n ≠ xch % 256 then done s else
    let valid := s.on F.NOR_STAT_TREE_VALID && s.nor.hold == 0
    let tree := ofS 64 (roundRat (s.treeAt t1))
    let t4 := t4 % two64
    let s := s.setNorPort q { s.norPort q with ask := none }
    done (s.norQueue q 6 ⟨NorT.ts, 0, 0, 0,
      [valid.toNat * 256 + n, t1 % 2 ^ 32, t1 / 2 ^ 32, t4 % 2 ^ 32, t4 / 2 ^ 32, tree % 2 ^ 32, tree / 2 ^ 32]⟩)

/-- Mean of a list of numbers. -/
def meanRat (l : List Rat) : Rat := if l.isEmpty then 0 else l.sum / l.length

/-- The slope of the least-squares line through `l`, none through fewer than two abscissas. -/
def slopeRat (l : List (Rat × Rat)) : Option Rat :=
  let mx := meanRat (l.map (fun p => p.1))
  let my := meanRat (l.map (fun p => p.2))
  let den := (l.map (fun p => (p.1 - mx) * (p.1 - mx))).sum
  if den = 0 then none else some ((l.map (fun p => (p.1 - mx) * (p.2 - my))).sum / den)

/-- An exchange completes at port `q`: it is kept when its delay is within 1 ns of the least of the window (R455). -/
def State.keepExchange (s : State) (q : Nat) (k : NorKept) (up : Bool) : State :=
  let x := s.norPort q
  let least := (x.kept.map NorKept.d).foldl min k.d
  let ok := k.d ≤ least + 65536
  let l := ((k :: x.kept).filter (fun e => e.d ≤ least + 65536)).take (s.inF F.NOR_CTL_TS_AVG)
  let v := if !up then 0 else if ok then x.valid + 1 else x.valid
  s.setNorPort q { x with kept := l, valid := v, ans := none }

/-- The tree offset found from the exchanges of NU (R455): at the newest t2, and its slope; a slope through one point is a free value. -/
def State.findTree (s : State) : State :=
  match (s.norPort portNU).kept with
  | [] => s
  | k :: t =>
    let l := k :: t
    let v := k.tree - meanRat (l.map NorKept.o)
    let pts := l.map (fun e => ((ridgeDist e.t2 k.t2 : Rat), e.tree - e.o))
    match slopeRat pts with
    | some f => { s with nor := { s.nor with tree := some (v, f, k.t2) } }
    | none => { s.draw.2 with nor := { s.nor with tree := some (v, (toS 64 s.draw.1 : Rat) / 2 ^ 60, k.t2) } }

/-- A TS frame with the payload words `ws` completes an exchange of port `q` (R455, R456). -/
def State.tsRx (s : State) (q : Nat) (ws : List Nat) : State :=
  match (s.norPort q).ans with
  | none => s
  | some (n, t2, t3) =>
    let w := fun k => ws.getD k 0
    if n ≠ w 0 % 256 then s else
    let t1 := w 1 + w 2 * 2 ^ 32
    let t4 := w 3 + w 4 * 2 ^ 32
    let up := bit (w 0) 8
    let a : Rat := ridgeDist t2 t1
    let b : Rat := ridgeDist t4 t3
    let asym : Rat := toS 32 (s.inF F.NOR_PORT_ASYM_VALUE q)
    let s := s.keepExchange q ⟨(a + b) / 2, (a - b) / 2 - asym / 2, (toS 64 (w 5 + w 6 * 2 ^ 32) : Int), t2⟩ up
    if q ≠ portNU then s else
    let s := s.findTree
    if !up then (if s.on F.NOR_STAT_TREE_VALID then s.setTree false else s)
    else if s.inF F.NOR_CTL_TS_AVG ≤ (s.norPort q).valid then s.setTree true
    else s

/-- `TS_RX`: a TS frame with the payload words `ws` is received on port `q`. -/
def execTsRx (q : Nat) (ws : List Nat) (s : State) : Host.Outcome State Fault Refusal :=
  if (q = portNU ∨ q = portNP) ∧ s.norUp q ∧ !s.norUpper q then done (s.tsRx q (ws.map (fun w => w % 2 ^ 32))) else done s

/-- `TREE_TIMEOUT`: no exchange has been kept for 4 × TS_AVG × TS_PER beats (R456). -/
def execTreeTimeout (s : State) : Host.Outcome State Fault Refusal :=
  if s.norRoot ∨ !s.on F.NOR_STAT_TREE_VALID then done s else
  done ((s.setNorPort portNU { s.norPort portNU with valid := 0 }).setTree false)

/-- At a beat edge the offsets are published (R455), and one beat of the root's hold passes (R459). -/
def State.norBeat (s : State) : State :=
  let s := [portNU, portNP].foldl (fun s q =>
    match (s.norPort q).kept with
    | [] => s
    | k :: t =>
      let s := s.wrFit F.NOR_PORT_OFS_OFS (meanRat ((k :: t).map NorKept.o)) q
      s.wr F.NOR_PORT_DLY_VALUE (ofS 32 (roundRat k.d)) q) s
  let s := match s.nor.tree with
    | some (v, f, t) =>
      if s.norRoot ∨ !s.on F.NOR_STAT_TREE_VALID then s
      else (s.wrFit F.NOR_TREE_OFS_VALUE (v + f * ridgeDist s.lastEdge t)).wrFit F.NOR_TREE_FREQ_VALUE (f * 2 ^ 60)
    | none => s
  { s with nor := { s.nor with hold := s.nor.hold - 1 } }

/-- A `SYS_RESET` of this device restarts its Ridge A (R459): the exchanges kept are discarded, and UP_VALID is sent as 0 for a while. -/
def State.norRestart (s : State) : State :=
  let s := { s with nor := { s.nor with tree := none } }
  let s := forN 6 s (fun s q => s.setNorPort q { s.norPort q with kept := [], valid := 0, ask := none, ans := none })
  if s.norRoot then { s with nor := { s.nor with hold := s.inF F.NOR_CTL_TS_AVG * s.inF F.NOR_CTL_TS_PER } }
  else if s.norState portNU = NorS.disabled then s
  else s.setTree false

end Sys2Proof.Machine
end

