-- ==== Sys2Proof/Machine/Output.lean ====
section
/-! DEFINITION. The outputs (spec/05_loops_synthesis_outputs.md): clock and pulse outputs, squelch, alignment, and the writes of the
OUT block. An output is numbered CLKOUT i as i and PPSOUT j as 16 + j. -/
namespace Sys2Proof.Machine

/-- Pulse output `j` without a register. -/
def State.pps (s : State) (j : Nat) : PpsSt := s.loop.pps.getD j {}

/-- Pulse output `j`'s hidden state becomes `p`. -/
def State.setPps (s : State) (j : Nat) (p : PpsSt) : State := { s with loop := { s.loop with pps := s.loop.pps.set j p } }

/-! ### Pulses (R197, R198) -/

/-- The period of pulse output `j` in ns (Table LOOP-6). -/
def State.ppsPeriodNs (s : State) (j : Nat) : Nat :=
  let f := s.rd F.OUT_PPS_CTL_FMT j
  if f = 0 then 1000000000 else if f = 1 ∨ f = 2 then 2000000000
  else if f = 3 then s.rd F.OUT_PPS_PER_PER j else 125000

/-- A magnitude that falls towards 0 at `rate` ns/s over `ticks` ticks (R201), in ru. -/
def slewToZero (v : Int) (rate ticks : Nat) : Int :=
  let m := rate * 65536 * 8 * ticks / 10000000000
  if v.natAbs ≤ m then 0 else if v < 0 then v + m else v - m

/-- The slew of pulse output `j` is brought up to the present tick (R201). -/
def State.syncPps (s : State) (j : Nat) : State :=
  let p := s.pps j
  match p.slew with
  | none => s
  | some r =>
    let s := s.wrS F.OUT_PPS_DIFF_DIFF (slewToZero (s.rdS F.OUT_PPS_DIFF_DIFF j) r (s.ridge.ticks - p.slewTick)) j
    s.setPps j { p with slewTick := s.ridge.ticks }

/-- P_j as ru since the epoch (R198). -/
def State.ppsTime (s : State) (j : Nat) : Int :=
  let d := s.rd F.OUT_PPS_CTL_DOM j
  s.epochOf d (s.count d) - s.rdS F.OUT_PPS_DIFF_DIFF j

/-- The next pulse of output `j` in P_j: the first target plus OFS that is not past, comes after the last pulse, and honours an
alignment. -/
def State.nextPulse (s : State) (j : Nat) : Int :=
  let per : Int := (s.ppsPeriodNs j * 65536 : Nat)
  let p := s.pps j
  let ofs := p.ofs * 4096
  let least := max (s.ppsTime j) (max (p.floor.getD (s.ppsTime j)) ((p.last.map (· + 1)).getD (s.ppsTime j)))
  if per = 0 then s.ppsTime j else
  ofs + per * (-((-(least - ofs)) / per))

/-- `PULSE_START`: time passes until P_j reaches its next pulse, which starts unless the output is squelched (R198, R204). -/
def execPulseStart (j : Nat) (s : State) : Host.Outcome State Fault Refusal :=
  if 8 ≤ j then done s else
  let s := s.syncPps j
  if !s.outRuns (16 + j) || s.outSq (16 + j) || (s.pps j).high then done s else
  let t := s.nextPulse j
  let d := s.rd F.OUT_PPS_CTL_DOM j
  let s := s.runTicks (s.ticksTo d (stepCount (s.count d) (t - s.ppsTime j)))
  let s := s.setPps j { s.pps j with last := some t, floor := none, high := true, start := s.ridge.ticks }
  done (s.emit (.pulse j true))

/-- The ticks until the pulse in progress on output `j` ends: WIDTH × 100 ns from its start, or for EVEN_SEC the odd second. -/
def State.pulseLeft (s : State) (j : Nat) : Nat :=
  let p := s.pps j
  if s.rd F.OUT_PPS_CTL_FMT j = 2 then
    let d := s.rd F.OUT_PPS_CTL_DOM j
    s.ticksTo d (stepCount (s.count d) (p.last.getD 0 + (ruSecond : Int) - s.ppsTime j))
  else p.start + 125 * s.rd F.OUT_PPS_WIDTH_WIDTH j - s.ridge.ticks

/-- `PULSE_END`: the pulse of output `j` in progress ends when its width has elapsed (R198). -/
def execPulseEnd (j : Nat) (s : State) : Host.Outcome State Fault Refusal :=
  if 8 ≤ j ∨ !(s.pps j).high then done s else
  let s := s.syncPps j
  let s := s.runTicks (s.pulseLeft j)
  done ((s.setPps j { s.pps j with high := false }).emit (.pulse j false))

/-- A step of `x` ru of domain `d` is added to OUT_PPS_DIFF of every pulse output of the domain (R197). -/
def State.ppsStepped (s : State) (d : Nat) (x : Int) : State :=
  forN 8 s (fun s j =>
    if s.rd F.OUT_PPS_CTL_DOM j = d then
      s.wrFit F.OUT_PPS_DIFF_DIFF ((s.rdS F.OUT_PPS_DIFF_DIFF j + x : Int) : Rat) j
    else s)

/-! ### Enabling and writes (R195, R198, R205 to R207) -/

/-- The frequency of XO_IN in Hz, by TOP_BOOT_STAT.XO_FREQ. -/
def State.xoHz (s : State) : Nat :=
  [0, 10000000, 20000000, 25000000, 49152000, 100000000].getD (s.rd F.TOP_BOOT_STAT_XO_FREQ) 0

/-- The nominal frequency of clock output `i` in Hz (R195). -/
def State.clkHz (s : State) (i : Nat) : Rat :=
  let m := s.rd F.OUT_CLK_CTL_SRC i
  (if m = 7 then (s.xoHz : Rat) else s.apllVco m) / s.rd F.OUT_CLK_DIV_DIV i

/-- The enable check of output `o` (R205): source, divider, format, frequency; pulse format, period and width. -/
def State.outCheck (s : State) (o : Nat) : Bool :=
  if o < 16 then
    let m := s.rd F.OUT_CLK_CTL_SRC o
    let f := s.rd F.OUT_CLK_CTL_FMT o
    m != 6 && (if m = 7 then 1 else 6) ≤ s.rd F.OUT_CLK_DIV_DIV o && f ≤ 4 && decide (s.clkHz o ≤ 1600000000) &&
      (f ≤ 2 || decide (s.clkHz o ≤ 250000000))
  else
    let j := o - 16
    let f := s.rd F.OUT_PPS_CTL_FMT j
    let per := s.rd F.OUT_PPS_PER_PER j
    f ≤ 4 && (f != 3 || (125000 ≤ per && per ≤ 2000000000 && 2000000000 % per == 0)) &&
      (f == 2 || s.rd F.OUT_PPS_WIDTH_WIDTH j * 100 < s.ppsPeriodNs j)

/-- Output `o` starts (R195, R205). -/
def State.outStart (s : State) (o : Nat) : State :=
  if !s.outCheck o then
    (if o < 16 then s.loopRefused F.OUT_CLK_CTL_EN o (0x20 + o) else s.loopRefused F.OUT_PPS_CTL_EN (o - 16) (0x30 + (o - 16)))
  else if o < 16 then
    let m := s.rd F.OUT_CLK_CTL_SRC o
    let s := s.wr F.OUT_CLK_STAT_RUNNING 1 o
    (s.wrB F.OUT_CLK_STAT_BYPASS (m < 6 && s.on F.APLL_STAT_BYPASS m) o)
  else
    let j := o - 16
    let s := s.wr F.OUT_PPS_STAT_RUNNING 1 j
    let s := s.wr F.OUT_PPS_STAT_OFS_STAGED 0 j
    (s.setPps j { s.pps j with ofs := s.rdS F.OUT_PPS_OFS_OFS j, last := none, floor := none, high := false })

/-- The first waiting or slewing alignment is over when no output of it is left: it completes with OK (R201). -/
def State.settleAligns (s : State) : State :=
  let past := s.loop.aligns.filter (fun a => a.applied && a.left.isEmpty)
  let s := { s with loop := { s.loop with aligns := s.loop.aligns.filter (fun a => !(a.applied && a.left.isEmpty)) } }
  let s := s.finishAll (past.map (fun a => a.ref)) Code.ok
  s.wrB F.OUT_STAT_ALIGN_BUSY (!s.loop.aligns.isEmpty)

/-- Output `o` is no longer waited for by any alignment. -/
def State.dropAligned (s : State) (os : List Nat) : State :=
  let l := s.loop.aligns.map (fun a => if a.applied then { a with left := a.left.filter (fun o => !os.contains o) } else a)
  { s with loop := { s.loop with aligns := l } }.settleAligns

/-- An output that is being slewed by an alignment. -/
def State.slewing (s : State) (o : Nat) : Bool := s.loop.aligns.any (fun a => a.applied && a.left.contains o)

/-- The slew of DPLL_STEPD of loop `n` is brought up to the present tick (R201). -/
def State.syncStepd (s : State) (n : Nat) : State :=
  let l := s.dpl n
  match l.slew with
  | none => s
  | some r =>
    let old := s.rdS F.DPLL_STEPD_VALUE n
    let new := slewToZero old r (s.ridge.ticks - l.slewTick)
    let s := s.wrS F.DPLL_STEPD_VALUE new n
    s.setDpl n { l with slewTick := s.ridge.ticks, nco := l.nco - (old - new) * two40 }

/-- A disabled output is dropped from the alignment that slews it; its slew stops where it has got to (R201). -/
def State.dropDisabled (s : State) (o : Nat) : State :=
  if !s.slewing o then s else
  if 16 ≤ o then
    let j := o - 16
    let s := s.syncPps j
    ((s.setPps j { s.pps j with slew := none }).wr F.OUT_PPS_STAT_ALIGNING 0 j).dropAligned [o]
  else
    let m := s.rd F.OUT_CLK_CTL_SRC o
    let s := s.dropAligned [o]
    match s.clkDpll o with
    | none => s
    | some n =>
      if (s.clkOf m).any s.slewing then s
      else
        let s := s.syncStepd n
        s.setDpl n { s.dpl n with slew := none }

/-- A change of an output's EN after a write of its CTL (R206). -/
def State.outEnChanged (s : State) (o : Nat) (was now : Bool) : State :=
  let stopping := s.loop.stopping.contains o
  let pend := fun (s : State) (b : Bool) =>
    if o < 16 then s.wrB F.OUT_CLK_STAT_PENDING_ENABLE b o else s.wrB F.OUT_PPS_STAT_PENDING_ENABLE b (o - 16)
  if now && !was then (if stopping then pend s true else s.outStart o)
  else if was && !now then
    if stopping then pend s false
    else
      let s := s.dropDisabled o
      ({ s with loop := { s.loop with stopping := s.loop.stopping ++ [o] } })
  else s

/-- A write of an output's CTL: every field but EN is locked while EN = 1 (R207). -/
def State.outCtlWrite (s : State) (a : Acs) (o w : Nat) : State × Nat :=
  let was := s.outOn o
  let clk := [F.OUT_CLK_CTL_BYP_DIV, F.OUT_CLK_CTL_S3_ACT, F.OUT_CLK_CTL_SQ_MASK, F.OUT_CLK_CTL_FMT, F.OUT_CLK_CTL_SRC,
    F.OUT_CLK_CTL_EN]
  let pps := [F.OUT_PPS_CTL_S3_ACT, F.OUT_PPS_CTL_SQ_MASK, F.OUT_PPS_CTL_POL, F.OUT_PPS_CTL_FMT, F.OUT_PPS_CTL_DOM,
    F.OUT_PPS_CTL_EN]
  let en := [F.OUT_CLK_CTL_EN, F.OUT_PPS_CTL_EN]
  let live := was || s.loop.stopping.contains o
  let r := s.fieldWrite (fun f => live && !f.among en) inRange (if o < 16 then clk else pps) (if o < 16 then o else o - 16) w
  (r.1.outEnChanged o was (r.1.outOn o)).conclude a r.2

/-- The address of output `o`'s CTL. -/
def outCtlAddr (o : Nat) : Nat := if o < 16 then 0xD100 + 0x10 * o else 0xD200 + 0x20 * (o - 16)

/-- `OUTPUT_ENABLE`: requester `req` writes the CTL of output `o` with EN = 1; `w` gives the other bits. -/
def execOutputEnable (req o w : Nat) (s : State) : Host.Outcome State Fault Refusal :=
  if 24 ≤ o then done s else done (s.put ⟨req, outCtlAddr o, 2, true⟩ (fun s a => s.outCtlWrite a o (setBit w 0 true))).1

/-- `OUTPUT_DISABLE`: requester `req` writes the CTL of output `o` with EN = 0. -/
def execOutputDisable (req o w : Nat) (s : State) : Host.Outcome State Fault Refusal :=
  if 24 ≤ o then done s else done (s.put ⟨req, outCtlAddr o, 2, true⟩ (fun s a => s.outCtlWrite a o (setBit w 0 false))).1

/-- `OUTPUT_STOP_DONE`: output `o` has stopped after its current cycle or pulse, and starts again when an enable is pending
(R206). -/
def execOutputStopDone (o : Nat) (s : State) : Host.Outcome State Fault Refusal :=
  if !s.loop.stopping.contains o then done s else
  let s := { s with loop := { s.loop with stopping := s.loop.stopping.filter (· != o) } }
  if o < 16 then
    let s := (s.wr F.OUT_CLK_STAT_RUNNING 0 o).wr F.OUT_CLK_STAT_BYPASS 0 o
    if s.on F.OUT_CLK_STAT_PENDING_ENABLE o then done ((s.wr F.OUT_CLK_STAT_PENDING_ENABLE 0 o).outStart o) else done s
  else
    let j := o - 16
    let s := (s.wr F.OUT_PPS_STAT_RUNNING 0 j).setPps j { s.pps j with high := false }
    if s.on F.OUT_PPS_STAT_PENDING_ENABLE j then done ((s.wr F.OUT_PPS_STAT_PENDING_ENABLE 0 j).outStart o) else done s

/-- A write of OUT_CLK_DLY[i] (R196, R207): COARSE is locked while the output is enabled; the edge moves to FINE. -/
def State.clkDlyWrite (s : State) (a : Acs) (i w : Nat) : State × Nat :=
  let on := s.on F.OUT_CLK_CTL_EN i || s.loop.stopping.contains i
  let r := s.fieldWrite (fun f => on && f.no == F.OUT_CLK_DLY_COARSE.no) inRange
    [F.OUT_CLK_DLY_COARSE, F.OUT_CLK_DLY_FINE] i w
  let fine := r.1.loop.fine.set i (r.1.rd F.OUT_CLK_DLY_FINE i)
  ({ r.1 with loop := { r.1.loop with fine := fine } }).conclude a r.2

/-- `FINE_SKEW_WRITE`: requester `req` writes `w` to OUT_CLK_DLY[i]. -/
def execFineSkewWrite (req i w : Nat) (s : State) : Host.Outcome State Fault Refusal :=
  if 16 ≤ i then done s else done (s.put ⟨req, 0xD108 + 0x10 * i, 2, true⟩ (fun s a => s.clkDlyWrite a i w)).1

/-- A write of OUT_PPS_OFS[j]: staged while the output runs (R200), in force at once otherwise. -/
def State.ppsOfsWrite (s : State) (a : Acs) (j w : Nat) : State × Nat :=
  let r := s.fieldWrite noLock inRange [F.OUT_PPS_OFS_OFS] j w
  let s := if r.1.outRuns (16 + j) then r.1.wr F.OUT_PPS_STAT_OFS_STAGED 1 j
    else r.1.setPps j { r.1.pps j with ofs := r.1.rdS F.OUT_PPS_OFS_OFS j }
  s.conclude a r.2

/-- `PPS_OFS_WRITE`: requester `req` writes `w` to OUT_PPS_OFS[j]. -/
def execPpsOfsWrite (req j w : Nat) (s : State) : Host.Outcome State Fault Refusal :=
  if 8 ≤ j then done s else done (s.put ⟨req, 0xD20C + 0x20 * j, 2, true⟩ (fun s a => s.ppsOfsWrite a j w)).1

/-- A write of a register that is locked while output `o` is enabled (R207). -/
def State.outLockedWrite (s : State) (a : Acs) (fs : List Fld) (o i w : Nat) : State × Nat :=
  let locked := s.outOn o || s.loop.stopping.contains o
  let r := s.fieldWrite (fun _ => locked) inRange fs i w
  r.1.conclude a r.2

/-! ### `OUT_ALIGN` (R201, R202) -/

/-- The outputs that word 0 of `OUT_ALIGN` names. -/
def namedOutputs (w0 : Nat) : List Nat := idxs 24 (fun o => bit w0 o)

/-- The cases of R202 that answer BAD_PARAM. -/
def State.alignBad (s : State) (os : List Nat) : Bool :=
  os.any (fun o => !s.outOn o) ||
  os.any (fun o => o < 16 && (match s.clkDpll o with
    | some n => (s.dpllState n == DpllSt.acquire || s.dpllState n == DpllSt.locked || s.dpllState n == DpllSt.hold) &&
        (s.dpllDomain n).isNone
    | none => false)) ||
  os.any (fun o => o < 16 && s.rd F.OUT_CLK_CTL_SRC o < 6 &&
    (s.clkOf (s.rd F.OUT_CLK_CTL_SRC o)).any (fun i => s.on F.OUT_CLK_CTL_EN i && !os.contains i))

/-- An `OUT_ALIGN` is checked and queued for the next beat edge. -/
def State.outAlign (s : State) (c : CmdRef) (w0 w1 : Nat) : State :=
  let os := namedOutputs w0
  if s.notHolder ∧ s.rd F.PAIR_STAT_STATE ≠ 2 ∧ c.src ≠ CmdSrc.mirror then s.finish c Code.notTokenHolder
  else if s.alignBad os then s.finish c Code.badParam
  else if os.any s.slewing then s.finish c Code.busyRetry
  else
    let a : AlignReq := { ref := c, outs := os, left := os, slew := bit w1 0, rate := bits w1 16 14 }
    let s := ({ s with loop := { s.loop with aligns := s.loop.aligns ++ [a] } }).wr F.OUT_STAT_ALIGN_BUSY 1
    s.mirrorCmd 0x0330 (s.edgeBeat false) [w0, w1]

/-- `OUT_ALIGN` (Table LOOP-7, R202). -/
def execOutAlign (c : CmdRef) (w0 w1 : Nat) (s : State) : Host.Outcome State Fault Refusal := done (s.outAlign c w0 w1)

/-- SLEW_MAX of domain `d`, for a rate of 0. -/
def State.alignRate (s : State) (rate d : Nat) : Nat := if rate = 0 then (s.dom d).slewMax else rate

/-- Pulse output `j` is aligned at the edge (R201). -/
def State.alignPps (s : State) (slew : Bool) (rate j : Nat) : State × Bool :=
  let s := s.syncPps j
  let p := s.pps j
  let s := s.wr F.OUT_PPS_STAT_OFS_STAGED 0 j
  let ofs := s.rdS F.OUT_PPS_OFS_OFS j
  if slew && s.on F.OUT_PPS_DIFF_DIFF j then
    let r := s.alignRate rate (s.rd F.OUT_PPS_CTL_DOM j)
    ((s.setPps j { p with ofs := ofs, slew := some r, slewTick := s.ridge.ticks }).wr F.OUT_PPS_STAT_ALIGNING 1 j, false)
  else
    let s := s.wr F.OUT_PPS_DIFF_DIFF 0 j
    let since : Int := (s.ridge.ticks - p.start : Nat) * 65536 * 8 / 10
    let half : Int := (s.ppsPeriodNs j * 32768 : Nat)
    let floor := if p.last.isSome then some (s.ppsTime j - since + half) else none
    (s.setPps j { p with ofs := ofs, last := none, floor := floor, slew := none, check := some s.ridge.ticks }, true)

/-- Loop `n` takes DPLL_STEPD out of its oscillator's phase at the edge, in one step or by a slew (R201). -/
def State.alignLoop (s : State) (slew : Bool) (rate n : Nat) : State × Bool :=
  let s := (s.runNco n).syncStepd n
  let l := s.dpl n
  let x := s.rdS F.DPLL_STEPD_VALUE n
  if slew && x != 0 then
    (s.setDpl n { l with slew := some (s.alignRate rate ((s.dpllDomain n).getD 0)), slewTick := s.ridge.ticks }, false)
  else ((s.wr F.DPLL_STEPD_VALUE 0 n).setDpl n { l with nco := l.nco - x * two40, slew := none }, true)

/-- The alignment of the clock outputs `os` is to be checked from now on (R202). -/
def State.watchClk (s : State) (os : List Nat) : State :=
  os.foldl (fun s o => { s with loop := { s.loop with clkCheck := s.loop.clkCheck.set o (some s.ridge.ticks) } }) s

/-- One named output at the edge: the answer's list gains it when it is not aligned at once. A loop already handled through another
output of its APLL is not handled again. -/
def State.alignOne (slew : Bool) (rate : Nat) (r : State × List Nat × List Nat) (o : Nat) : State × List Nat × List Nat :=
  let s := r.1
  if !s.outOn o then r
  else if 16 ≤ o then
    let q := s.alignPps slew rate (o - 16)
    (q.1, if q.2 then r.2.1 else r.2.1 ++ [o], r.2.2)
  else
    match s.clkDpll o with
    | none => (s.watchClk [o], r.2)
    | some n =>
      if r.2.2.contains n then (if (s.dpl n).slew.isSome then (s, r.2.1 ++ [o], r.2.2) else (s.watchClk [o], r.2))
      else
        let q := s.alignLoop slew rate n
        (if q.2 then q.1.watchClk [o] else q.1, if q.2 then r.2.1 else r.2.1 ++ [o], r.2.2 ++ [n])

/-- One accepted `OUT_ALIGN` is applied at the beat edge (R201). -/
def State.applyAlign (s : State) (a : AlignReq) : State :=
  let r := a.outs.foldl (State.alignOne a.slew a.rate) (s, [], [])
  let l := r.1.loop.aligns.map (fun b => if b.ref = a.ref ∧ !b.applied then { b with applied := true, left := r.2.1 } else b)
  { r.1 with loop := { r.1.loop with aligns := l } }

/-- `OUT_ALIGN_APPLY`: the waiting alignments are applied at the beat edge. -/
def execOutAlignApply (s : State) : Host.Outcome State Fault Refusal :=
  let l := s.loop.aligns.filter (fun a => !a.applied)
  done ((l.foldl State.applyAlign s).settleAligns)

/-- `ALIGN_SLEW_DONE`: the slew of output `o`, or of the loop that steers it, has reached 0 (R201). -/
def execAlignSlewDone (o : Nat) (s : State) : Host.Outcome State Fault Refusal :=
  if !s.slewing o then done s
  else if 16 ≤ o then
    let j := o - 16
    let s := (s.wr F.OUT_PPS_DIFF_DIFF 0 j).wr F.OUT_PPS_STAT_ALIGNING 0 j
    done ((s.setPps j { s.pps j with slew := none, check := some s.ridge.ticks }).dropAligned [o])
  else
    match s.clkDpll o with
    | none => done (s.dropAligned [o])
    | some n =>
      let l := s.dpl n
      let x := s.rdS F.DPLL_STEPD_VALUE n
      let s := (s.wr F.DPLL_STEPD_VALUE 0 n).setDpl n { l with nco := l.nco - x * two40, slew := none }
      let os := s.clkOf (s.rd F.OUT_CLK_CTL_SRC o)
      done ((s.watchClk (os.filter s.slewing)).dropAligned os)

/-- The distance in ru of channel `n`'s published edge from the nearest multiple of `per` ru in domain `d`'s time, less `ofs`. -/
def State.loopbackError (s : State) (n d : Nat) (per ofs : Rat) : Rat :=
  if per = 0 then 0 else
  nearestMod ((s.epochOf d (s.rd F.RIDGE_x_ANCHOR_COUNT_COUNT d) : Rat) + s.rdS F.TDC_RES_PHASE_VALUE n - ofs) 0 per

/-- The alignment of tick `c` is checked by a gate that opened at tick `t`: one that holds no edge from before it. -/
def checkDue (c : Option Nat) (t : Nat) : Bool := match c with | some k => k ≤ t | none => false

/-- The channels whose gates close now, each with the tick on which its gate opened. -/
def State.closingGates (s : State) : List (Nat × Nat) :=
  (List.range 48).filterMap (fun n => (s.tch n).closing.map (fun c => (n, c.gate.tick0)))

/-- After an alignment, a channel that measures an aligned output's loopback more than 100 ps off raises FS 72 (R202): `l` lists the
channels just published, each with the tick on which its gate opened. -/
def State.alignChecks (s : State) (l : List (Nat × Nat)) : State :=
  l.foldl (fun s q =>
    let n := q.1
    let src := s.rd F.TDC_CH_SRC_START_SRC n
    if !s.on F.TDC_RES_INFO_VALID n then s
    else if 32 ≤ src ∧ src < 40 ∧ checkDue (s.pps (src - 32)).check q.2 then
      let j := src - 32
      let e := s.loopbackError n (s.rd F.OUT_PPS_CTL_DOM j) (s.ppsPeriodNs j * 65536 : Nat)
        (((s.pps j).ofs * 4096 + s.rdS F.OUT_PPS_DIFF_DIFF j : Int) : Rat)
      let s := s.setPps j { s.pps j with check := none }
      if 100 < |ruToPs e| then s.raise 72 else s
    else if 16 ≤ src ∧ src < 32 ∧ checkDue (s.loop.clkCheck.getD (src - 16) none) q.2 then
      let i := src - 16
      let per := if s.clkHz i = 0 then 0 else (ruSecond : Rat) / s.clkHz i
      let e := s.loopbackError n (((s.outDomain i)).getD 0) per 0
      let s := { s with loop := { s.loop with clkCheck := s.loop.clkCheck.set i none } }
      if 100 < |ruToPs e| then s.raise 72 else s
    else s) s

end Sys2Proof.Machine
end

