-- ==== Sys2Proof/Machine/RegRead.lean ====
section
/-! DEFINITION. Which register lies at an address (Tables REG-1 to REG-3), and what its word reads as; an access is judged in Access.lean. -/
namespace Sys2Proof.Machine

/-- The bytes of a register: 8 for a paired one (R486). -/
def RegDef.size (r : RegDef) : Nat := if r.wide then 8 else 4

/-- The flat index and the word (1 for the high word of a paired register) of register `r` at the word address `a`, if it lies there. -/
def RegDef.place (r : RegDef) (a : Nat) : Option (Nat × Nat) :=
  if a < r.base then none else
  let o := a - r.base
  let i := if 1 < r.n1 then o / r.s1 else 0
  let o := o - i * (if 1 < r.n1 then r.s1 else 0)
  let j := if 1 < r.n2 then o / r.s2 else 0
  let o := o - j * (if 1 < r.n2 then r.s2 else 0)
  if i < r.n1 ∧ j < r.n2 ∧ o < r.size then some (i * r.n2 + j, o / 4) else none

/-- The address of register `r` at flat index `i`. -/
def RegDef.addrOf (r : RegDef) (i : Nat) : Nat := r.base + i / r.n2 * r.s1 + i % r.n2 * r.s2

/-- The registers of the address block that holds `a` (Table REG-2): the map is searched no further. -/
def blockMap (a : Nat) : List RegDef :=
  if a < 0x1000 then mapTOP0 ++ mapTOP1 ++ mapNOR0 ++ mapNOR1
  else if a < 0x2000 then mapFCU0 ++ mapFCU1
  else if a < 0x3000 then mapSLATE0
  else if a < 0x4000 then mapSORT0
  else if a < 0x6000 then mapRIDGE0 ++ mapRIDGE1 ++ mapRIDGE2
  else if a < 0x8000 then mapTDC0 ++ mapTDC1 ++ mapTDC2
  else if a < 0x9000 then mapENS0 ++ mapENS1 ++ mapENS2
  else if a < 0xA000 then mapEAVES0 ++ mapEAVES1 ++ mapEAVES2
  else if a < 0xC000 then mapDPLL0 ++ mapDPLL1
  else if a < 0xD000 then mapAPLL0
  else if a < 0xE000 then mapOUT0
  else if a < 0x10000 then mapGNSS0 ++ mapGNSS1 ++ mapGNSS2 ++ mapGNSS3
  else if a < 0x14000 then mapMAC0 ++ mapMAC1
  else if a < 0x15000 then mapPTE0 ++ mapPTE1 ++ mapPTE2 ++ mapPM0 ++ mapPM1
  else if a < 0x16000 then mapFRANK0 ++ mapFRANK1
  else if a < 0x18000 then mapSDS0
  else if a < 0x19000 then mapHOST0 ++ mapHOST1 ++ mapHOST2
  else if a < 0x1A000 then mapPAIR0
  else if a < 0x1B000 then mapMEM0
  else []

/-- The locations among indexed registers that their chapter reserves: OSC_UCFG, OSC_ACC, OSC_TPL and OSC_RESP of oscillator 0, and
the input registers of DPLL0 and DPLL1. -/
def RegDef.hole (r : RegDef) (i : Nat) : Bool :=
  match r.id with
  | .OSC_UCFG | .OSC_ACC | .OSC_RESP => i == 0
  | .OSC_TPL => decide (i < 3)
  | .DPLL_IN | .DPLL_MON | .DPLL_PD_PER | .DPLL_PBO | .DPLL_STEPD | .DPLL_CMD => decide (i < 2)
  | .DPLL_IN_DIV => decide (i < 8)
  | _ => false

/-- The register at the word address `a`, with its flat index and word; none at a reserved location (R487). -/
def locate (a : Nat) : Option (RegDef × Nat × Nat) :=
  match (blockMap a).findSome? (fun r => (r.place a).map (fun p => (r, p.1, p.2))) with
  | some (r, i, h) => if r.hole i then none else some (r, i, h)
  | none => none

/-- The whole word of register `r` at flat index `i`, 64 bits for a paired one; a lane register packs consecutive indices. -/
def State.regWord (s : State) (r : RegDef) (i : Nat) : Nat :=
  if r.lanes = 1 then s.fieldWord r.flds i
  else ((List.range r.lanes).map (fun k => s.fieldWord r.flds (i * r.lanes + k) * 2 ^ (k * r.lw))).sum

/-- As `regWord`, of the fields that `p` admits. -/
def State.regWordOf (s : State) (p : Fld → Bool) (r : RegDef) (i : Nat) : Nat :=
  s.regWord { r with flds := r.flds.filter p } i

/-- The 32-bit word at the word address `a`: a register, a table window, or 0 at a reserved location. -/
def State.wordAt (s : State) (a : Nat) : Nat :=
  if 0x800000 ≤ a then s.mrd a 4
  else match locate a with
    | some (r, i, h) => bits (s.regWord r i) (32 * h) 32
    | none => 0

/-- The words of the address range from `a`, `n` of them. -/
def State.wordsAt (s : State) (a n : Nat) : List Nat := (List.range n).map (fun k => s.wordAt (a + 4 * k))

/-- The fields of register `r` at flat index `i` that `p` admits take their bits of the word `w`. -/
def State.loadReg (s : State) (p : Fld → Bool) (r : RegDef) (i w : Nat) : State :=
  (r.flds.filter p).foldl (fun s f => s.wr f (bits w f.lo f.w) i) s

end Sys2Proof.Machine
end

