-- ==== Sys2Proof/Machine/Pair.lean ====
section
/-! DEFINITION. Paired operation (spec/14_pair_redundancy.md): member states, token, lease and guard, the mirror sent and received, handover,
and the pair commands. -/
namespace Sys2Proof.Machine

/-! ### Small things -/

/-- The partner's word `k` of Table PAIR-5 in the last STATUS accepted, word 3 being the first; 0 before any. -/
def State.partWord (s : State) (k : Nat) : Nat :=
  match s.pair.last with
  | some x => x.words.getD (k - 3) 0
  | none => 0

/-- The beat number that names a handover edge: the holder's (R476). -/
def State.holderBeat (s : State) : Nat := if s.holds then s.rd F.RIDGE_BEAT_SEQ_SEQ else s.pair.holdB

/-- `a` minus `b` as a signed 16-bit difference (R471). -/
def diff16 (a b : Nat) : Int := toS 16 (ofS 16 ((a : Int) - b))

/-- `a` minus `b` as a signed 20-bit difference, for BSEQ. -/
def diff20 (a b : Nat) : Int := toS 20 (ofS 20 ((a : Int) - b))

/-- A source raised once per beat (R462, R479). -/
def State.pairSay (s : State) (fs : Nat) : State :=
  if s.pair.said.contains fs then s else ({ s with pair := { s.pair with said := s.pair.said ++ [fs] } }).raise fs

/-- The planned handover is abandoned (R476). -/
def State.dropHandover (s : State) : State :=
  match s.pair.ho with
  | none => s
  | some h =>
    let s := { s with pair := { s.pair with ho := none } }
    match h.ref with
    | some c => s.finish c Code.busyRetry
    | none => s

/-- The member enters SYNC: the guard is counted from here when no renewal is running, and the alignment is to be made anew. -/
def State.pairSync (s : State) : State :=
  let s := if s.rd F.PAIR_LEASE_PARTNER_LEFT = 0 then s.wr F.PAIR_LEASE_PARTNER_LEFT 18 else s
  ({ s with pair := { s.pair with good := 0, align := 0, testTake := false } }).pairMove PairS.sync

/-- The member enters SEARCH, its join timer started. -/
def State.pairSearch (s : State) : State := ({ s with pair := { s.pair with join := 0, good := 0, testTake := false } }).pairMove PairS.search

/-! ### PAIR_OFS and steering (R472) -/

/-- The rate of PAIR_OFS over the last beats, a free value when fewer than two are known. -/
def State.pairRate (s : State) : Option Rat :=
  slopeRat (s.pair.ofs.zipIdx.map (fun p => (-((p.2 : Rat) * ruBeat), (p.1 : Rat))))

/-- PAIR_OFS at this beat edge: the link offset on member 1; on member 0 the partner's, negated and carried forward (Table PAIR-5). -/
def State.takeOfs (s : State) : State :=
  if s.pair.last.isNone ∨ s.pair.clash then s else
  let v : Rat :=
    if s.rd F.PAIR_CTL_MEMBER = 1 then s.rdS F.NOR_PORT_OFS_OFS portNP
    else -(toS 64 (s.partWord 9 + s.partWord 10 * 2 ^ 32) : Int) + (s.pairRate.getD 0) * ruBeat
  let s := s.wrFit F.PAIR_OFS_OFS v
  { s with pair := { s.pair with ofs := (s.rdS F.PAIR_OFS_OFS :: s.pair.ofs).take 16 } }

/-- In phase 2 a standby steers by its partner (R472): ENS_x_PHASE and ENS_x_FREQ are PAIR_OFS and its rate; Ridge B so that B minus A
matches the holder's. -/
def State.pairPhase2 (s : State) : State :=
  let b : Int := s.rdS F.PAIR_OFS_OFS + s.pair.bma - toS 64 (s.partWord 11 + s.partWord 12 * 2 ^ 32)
  let s := (s.wr F.ENS_x_PHASE_VALUE (s.rd F.PAIR_OFS_OFS) 0).wrFit F.ENS_x_PHASE_VALUE b 1
  match s.pairRate with
  | some f => (s.wrFit F.ENS_x_FREQ_VALUE (f * 2 ^ 60) 0).wrFit F.ENS_x_FREQ_VALUE (f * 2 ^ 60) 1
  | none => (s.wrFree F.ENS_x_FREQ_VALUE 0).wrFree F.ENS_x_FREQ_VALUE 1

/-! ### The Thatch image (Tables PAIR-6 and PAIR-7) -/

/-- The registers of the image, as register and flat index. -/
def imageRegs : List (RegDef × Nat) :=
  ((mapENS0 ++ mapENS1 ++ mapENS2 ++ mapEAVES0 ++ mapEAVES1 ++ mapEAVES2).flatMap
    (fun r => (List.range (r.n1 * r.n2)).map (fun i => (r, i)))).filter
    (fun p => let a := p.1.addrOf p.2
      a < 0x8700 || (0x9040 ≤ a && a < 0x90C0))

/-- The offset in the image of the register at address `a`. -/
def imageOfs (a : Nat) : Nat := if a < 0x9000 then a - 0x8000 else a - 0x9040 + 0x700

/-- The `n` bytes of `l` from offset `o`, least significant first, as a number. -/
def leNat (l : List Nat) (o n : Nat) : Nat := natOf ((l.drop o).take n).reverse

/-- A rational in units of 2^-60, as 8 bytes. -/
def frac60 (x : Rat) : List Nat := leBytes 8 (ofS 64 (roundRat (x * 2 ^ 60)))

/-- The internal record (Table PAIR-7). -/
def State.imageRecord (s : State) : List Nat :=
  (List.range 24).flatMap (fun n => frac60 (s.slot n).ybar) ++
  frac60 (s.dpl 0).i1 ++ frac60 (s.dpl 1).i1 ++ frac60 (s.dpl 0).i2 ++ frac60 (s.dpl 1).i2 ++
  leBytes 8 (ofS 64 (roundRat s.ens.errA)) ++ frac60 (s.ens.loopA / tauRu) ++
  leBytes 8 (ofS 64 (roundRat s.ens.errB)) ++ frac60 (s.ens.loopB / tauRu) ++
  (List.range 3).flatMap (fun k => leBytes 4 (s.rd F.OSC_CODE_CODE k) ++ leBytes 4 (s.rd F.OSC_ACC_ACC k)) ++
  leBytes 4 (ofS 16 s.eaves.a.temp0) ++ leBytes 4 (s.eaves.a.tint / 256)

/-- The Thatch image of 2,208 bytes. -/
def State.thatchImage (s : State) : List Nat :=
  wordBytes (s.wordsAt 0x8000 448) ++ wordBytes (s.wordsAt 0x9040 32) ++ s.imageRecord

/-- The clock models follow the registers that an image has loaded. -/
def State.loadModels (s : State) (img : List Nat) : State :=
  let s := forN 24 s (fun s n =>
    let e := s.slot n
    let st := s.slotState n
    s.setSlot n { e with
      started := decide (Slot.qualifying ≤ st ∧ st ≤ Slot.disputed)
      x := s.rdS F.ENS_SLOT_X_VALUE n
      y := (s.rdS F.ENS_SLOT_Y_VALUE n : Rat) / 2 ^ 60
      d := (s.rdS F.ENS_SLOT_D_VALUE n : Rat) / 2 ^ 80
      s2 := (s.rd F.ENS_SLOT_SIG2_VALUE n : Rat) / 65536
      ybar := (toS 64 (leNat img (0x780 + 8 * n) 8) : Rat) / 2 ^ 60
      timer := s.rd F.ENS_SLOT_STAT_TIMER n * 1024
      entry := if st = Slot.member then e.entry + 1 else 0
      exit := none })
  let ph := fun d => (s.rdS F.ENS_x_PHASE_VALUE d : Rat)
  let b : Rat := s.rdS F.PAIR_OFS_OFS + s.pair.bma - toS 64 (s.partWord 11 + s.partWord 12 * 2 ^ 32)
  { s with
    ens := { s.ens with
      zA := ru40 s.ens.sA - (s.rdS F.PAIR_OFS_OFS + ph 0)
      zB := ru40 s.ens.sB - (b + ph 1)
      fz := s.ens.rA - ((s.rdS F.ENS_x_FREQ_VALUE 0 : Rat) / 2 ^ 60 + s.pairRate.getD 0)
      errA := toS 64 (leNat img 0x860 8)
      errB := toS 64 (leNat img 0x870 8)
      loopA := (toS 64 (leNat img 0x868 8) : Rat) / 2 ^ 60 * tauRu
      loopB := (toS 64 (leNat img 0x878 8) : Rat) / 2 ^ 60 * tauRu
      run := true }
    eaves := { s.eaves with
      a := { s.eaves.a with temp0 := toS 16 (leNat img 0x898 4), tint := leNat img 0x89C 4 * 256 } } }

/-- A complete image is loaded at the beat edge (R474): every register of it but ENS_STEER and the configuration fields; the codes of
SHARED oscillators. -/
def State.loadImage (s : State) (img : List Nat) : State :=
  let s := imageRegs.foldl (fun s p =>
    if p.1.id = .ENS_STEER then s else
    s.loadReg (fun f => f.acc != .rw && f.acc != .w1p) p.1 p.2 (leNat img (imageOfs (p.1.addrOf p.2)) p.1.size)) s
  let s := forN 3 s (fun s k =>
    if s.on F.OSC_CTL_SHARED k then
      (s.wr F.OSC_CODE_CODE (leNat img (0x880 + 8 * k) 4) k).wr F.OSC_ACC_ACC (leNat img (0x884 + 8 * k) 4) k
    else s)
  s.loadModels img

/-- The image received in this beat, from its ten parts, when all have come. -/
def State.imageGot (s : State) : Option (List Nat) :=
  let l := (List.range 10).filterMap (fun k => (s.pair.parts.find? (fun p => p.1 == k)).map (fun p => p.2))
  if l.length = 10 then some (l.flatten.take 2208) else none

/-! ### Takes (R470, R483) -/

/-- The models are carried forward over `n` beats (R483). -/
def State.carryModels : Nat → State → State
  | 0, s => s
  | n + 1, s =>
    let s := { s with ens := { s.ens with
      slots := s.ens.slots.map (fun e => if e.started then { e with x := e.xp, y := e.y + e.d * tauS } else e) } }
    State.carryModels n s

/-- The member takes the token at a beat edge, for the cause of Table PAIR-2. -/
def State.pairTake (s : State) (cause : Nat) : State :=
  let old := s.pairState
  let own := s.rd F.PAIR_EPOCH_EPOCH
  let part := s.rd F.PAIR_EPOCH_PARTNER_EPOCH
  let age := if s.pairSteered then s.rd F.PAIR_MIR_AGE else 0
  let s := if old = PairS.test then s.cutTests else s
  let s := s.wr F.PAIR_EPOCH_EPOCH ((if diff16 own part < 0 then part else own) + 1)
  let s := ((s.wr F.PAIR_STAT_HOLDER 1).wr F.PAIR_LEASE_OWN_LEFT 16).pairMove PairS.active
  let s := { s with pins := { s.pins with token := true } }
  let s := { s with pair := { s.pair with testTake := false, double := none, padLeft := s.inF F.PAIR_PAD_TAKE_BEATS } }
  let s := s.pairEvent old cause
  let s := (State.carryModels (min age 64) s).takeSequences
  let s := (List.range (min age 255)).foldl (fun s _ => (s.eavesMiss 0).eavesMiss 1) s
  let s := if cause = 1 then (s.raise 168).inc F.PAIR_CNT_TAKEOVERS else s
  if cause = 2 ∨ cause = 3 then s.inc F.PAIR_CNT_HANDOVERS else s

/-- `LEASE_EXPIRY`: the beat edge at which the holder's lease ends without a further renewal (R466). -/
def execLeaseExpiry (s : State) : Host.Outcome State Fault Refusal :=
  if !s.holds ∨ s.rd F.PAIR_LEASE_OWN_LEFT ≠ 0 then done s
  else done (((s.pairRelease 1 PairS.search).raise 169 1).pairSearch)

/-- `GUARD_END`: the beat edge that ends the guard, without a renewal and with TOKEN_IN low (R468); in TEST the tests are cut short and the
take waits for them. -/
def execGuardEnd (s : State) : Host.Outcome State Fault Refusal :=
  if !s.pairSteered ∨ s.rd F.PAIR_LEASE_PARTNER_LEFT ≠ 0 ∨ s.on F.PAIR_STAT_TOKEN_IN ∨ s.on F.TOP_STAT_SAFE then done s
  else if s.pairState = PairS.test ∧ !s.sort.tests.isEmpty then
    done ({ s with pair := { s.pair with testTake := true } }.cutTests)
  else done (s.pairTake 1)

/-- `JOIN_TIMEOUT`: 18 beats in SEARCH with no STATUS and TOKEN_IN low (Table PAIR-1). -/
def execJoinTimeout (s : State) : Host.Outcome State Fault Refusal :=
  if s.pairState = PairS.search ∧ 18 ≤ s.pair.join ∧ !s.on F.PAIR_STAT_TOKEN_IN ∧ !s.on F.TOP_STAT_SAFE then done (s.pairTake 0)
  else done s

/-- `DOUBLE_HOLD_RESOLVE`: the first beat edge after a double hold is detected (R471): the loser releases. -/
def execDoubleHoldResolve (s : State) : Host.Outcome State Fault Refusal :=
  match s.pair.double with
  | none => done s
  | some status =>
    let s := { s with pair := { s.pair with double := none } }
    let d := diff16 (s.rd F.PAIR_EPOCH_EPOCH) (s.rd F.PAIR_EPOCH_PARTNER_EPOCH)
    let pref := s.rd F.PAIR_CTL_MEMBER == s.rd F.PAIR_CTL_PREF_MEMBER
    let lose := if status ∧ d ≠ 0 then decide (d < 0) else !pref
    if s.holds ∧ lose then done (((s.pairRelease 5 PairS.search).raise 169 5).pairSearch) else done s

/-- `TAKE_PAD_END`: TAKE_BEATS beats have passed since a take (R483). -/
def execTakePadEnd (s : State) : Host.Outcome State Fault Refusal := done { s with pair := { s.pair with padLeft := 0 } }

/-! ### Handover (R476, R477) -/

/-- `HANDOVER_EDGE`: the beat edge that a handover names: the holder releases and the standby takes, or both abandon it. -/
def execHandoverEdge (s : State) : Host.Outcome State Fault Refusal :=
  match s.pair.ho with
  | none => done s
  | some h =>
    if h.seq ≠ s.holderBeat then done s
    else if !h.ack then done s.dropHandover
    else
      let s := { s with pair := { s.pair with ho := none } }
      let s :=
        if s.holds then
          let s := (s.pairRelease h.cause PairS.standby).wr F.PAIR_LEASE_PARTNER_LEFT 18
          (s.inc F.PAIR_CNT_HANDOVERS).wr F.PAIR_STAT_WTR_LEFT (s.inF F.PAIR_CTL_WTR)
        else if s.pairState = PairS.standby ∧ !s.on F.TOP_STAT_SAFE then s.pairTake h.cause
        else s
      match h.ref with
      | some c => done (s.finish c Code.ok)
      | none => done s

/-- A handover is asked for: the holder beat four after the present one is named. -/
def State.askHandover (s : State) (cause : Nat) (c : Option CmdRef) : State :=
  { s with pair := { s.pair with ho := some ⟨(s.holderBeat + 4) % 2 ^ 32, true, false, cause, c⟩ } }

/-- `REVERT_START`: WTR_LEFT has reached 0 on the preferred member in STANDBY (R477). -/
def execRevertStart (s : State) : Host.Outcome State Fault Refusal :=
  if s.pairState = PairS.standby ∧ s.inF F.PAIR_CTL_REVERT = 1 ∧ s.rd F.PAIR_CTL_MEMBER = s.rd F.PAIR_CTL_PREF_MEMBER ∧
      s.rd F.PAIR_STAT_WTR_LEFT = 0 ∧ s.on F.PAIR_STAT_PARTNER_HOLDER ∧ s.pair.ho.isNone then done (s.askHandover 3 none)
  else done s

/-- `PAIR_TAKE` (Table PAIR-8). -/
def execPairTake (c : CmdRef) (w0 : Nat) (s : State) : Host.Outcome State Fault Refusal :=
  if !s.on F.PAIR_CTL_EN ∨ s.holds then done (s.finish c Code.badParam)
  else if bit w0 0 then
    if !s.norUp portNP ∧ s.pins.tokenIn then done (s.finish c Code.busyRetry)
    else done { s with pair := { s.pair with force := s.pair.force ++ [c] } }
  else if s.pairState ≠ PairS.standby ∨ s.pair.ho.isSome then done (s.finish c Code.busyRetry)
  else done (s.askHandover 2 (some c))

/-- `PAIR_YIELD` (Table PAIR-8). -/
def execPairYield (c : CmdRef) (s : State) : Host.Outcome State Fault Refusal :=
  if !s.holds then done (s.finish c Code.notTokenHolder)
  else if !s.on F.PAIR_STAT_PARTNER_READY ∨ s.pair.ho.isSome then done (s.finish c Code.busyRetry)
  else done (s.askHandover 2 (some c))

/-- `PAIR_TEST` (Table PAIR-8). -/
def execPairTest (c : CmdRef) (w0 : Nat) (s : State) : Host.Outcome State Fault Refusal :=
  if bit w0 0 then
    if s.pairState = PairS.standby then done ((s.pairMove PairS.test).finish c Code.ok) else done (s.finish c Code.badParam)
  else if s.pairState = PairS.test then done (s.pairSync.finish c Code.ok)
  else done (s.finish c Code.badParam)

/-! ### Readiness (R473) -/

/-- The conditions of R473 have held for 16 beats, the alignment apart. -/
def State.pairFit (s : State) : Bool := s.pairState == PairS.sync && 16 ≤ s.pair.good && s.on F.PAIR_STAT_CFG_MATCH

/-- The reference of the device's own `OUT_ALIGN` (R473). -/
def syncRef : CmdRef := ⟨.mirror, 0, 1, 0⟩

/-- `OUT_ALIGN` may name output `o` (R202). -/
def State.alignable (s : State) (o : Nat) : Bool :=
  s.outOn o && (16 ≤ o || !(match s.clkDpll o with
    | some n => (s.dpllState n == DpllSt.acquire || s.dpllState n == DpllSt.locked || s.dpllState n == DpllSt.hold) && (s.dpllDomain n).isNone
    | none => false))

/-- `SYNC_ALIGN`: the device aligns its outputs itself (R473). -/
def execSyncAlign (s : State) : Host.Outcome State Fault Refusal :=
  if !s.pairFit ∨ !s.on F.PAIR_CTL_SYNC_ALIGN ∨ s.pair.align ≠ 0 then done s else
  let outs := idxs 24 s.alignable
  let s := { s with pair := { s.pair with align := 1 } }
  done (if outs.isEmpty then s else s.outAlign syncRef ((outs.map (fun o => 2 ^ o)).sum) 0)

/-- The device's own alignment, once asked for, has completed. -/
def State.alignDone (s : State) : Bool :=
  s.pair.align == 2 || (s.pair.align == 1 && !s.loop.aligns.any (fun a => a.ref == syncRef))

/-- `STANDBY_ENTER`: the beat edge at which every condition of R473 holds. -/
def execStandbyEnter (s : State) : Host.Outcome State Fault Refusal :=
  if !s.pairFit ∨ (s.on F.PAIR_CTL_SYNC_ALIGN ∧ !s.alignDone) then done s else
  let s := { s with pair := { s.pair with align := 2, wtr := 0 } }
  done ((s.pairMove PairS.standby).wr F.PAIR_STAT_WTR_LEFT (s.inF F.PAIR_CTL_WTR))

/-! ### The digest (R482) -/

/-- The word at `a` with only its RW and WO1 fields. -/
def State.cfgWord (s : State) (a : Nat) : Nat :=
  if 0x800000 ≤ a then s.mrd a 4
  else match locate a with
    | some (r, i, h) => bits (s.regWordOf (fun f => f.acc == .rw || f.acc == .wo1) r i) (32 * h) 32
    | none => 0

/-- The regions of R482 in ascending address, as first address and number of words. -/
def digestRegions : List (Nat × Nat) :=
  [(0x403C, 3), (0x8000, 0x780), (0xA000, 0x800), (0xD000, 0x400), (0x14000, 0xC0), (0x15000, 0x400), (0x880000, 0x100)]

/-- CFG_DIGEST (R482). -/
def State.cfgDigest (s : State) : Nat :=
  crc32 (digestRegions.flatMap (fun g => (List.range g.2).flatMap (fun k => wordBytes [s.cfgWord (g.1 + 4 * k)])))

/-- `DIGEST_RECOMPUTE`: the digest is computed again after a write to a covered region. -/
def execDigestRecompute (s : State) : Host.Outcome State Fault Refusal := done (s.wr F.PAIR_DIGEST_DIGEST s.cfgDigest)

/-! ### The mirror sent (R479, R480) -/

/-- The STATUS body of this member (Table PAIR-5). -/
def State.statusBody (s : State) : List Nat :=
  let q := fun f => s.rd f
  let h := s.pair.ho
  let req := match h with | some x => x.mine && !x.ack | none => false
  let ack := match h with | some x => !x.mine && x.ack | none => false
  let seq := match h with | some x => x.seq | none => 0
  let ofs := if s.rd F.PAIR_CTL_MEMBER = 1 then s.rd F.NOR_PORT_OFS_OFS portNP else 0
  let bma := ofS 64 s.pair.bma
  [q F.PAIR_STAT_STATE * 2 ^ 28 + q F.PAIR_STAT_HOLDER * 2 ^ 27 + q F.PAIR_STAT_READY * 2 ^ 26 + q F.PAIR_CTL_MEMBER * 2 ^ 25 +
     q F.PAIR_STAT_TOKEN_IN * 2 ^ 24 + q F.PAIR_CTL_PREF_MEMBER * 2 ^ 23 + req.toNat * 2 ^ 22 + ack.toNat * 2 ^ 21 +
     (!s.pair.force.isEmpty).toNat * 2 ^ 20 + s.pair.sent % 2 ^ 16,
   q F.PAIR_EPOCH_EPOCH * 2 ^ 16,
   if s.holds then q F.RIDGE_BEAT_SEQ_SEQ else s.partWord 5,
   s.pair.iv, q F.PAIR_DIGEST_DIGEST, seq, ofs % 2 ^ 32, ofs / 2 ^ 32, bma % 2 ^ 32, bma / 2 ^ 32]

/-- A session record as the mirror carries it, or its deletion. -/
def State.sessEntry (s : State) (n : Nat) : List Nat :=
  if s.sessValid n then n :: bytesWords 16 (s.mbytes (sessAddr n) 64) else [n + 2 ^ 31] ++ List.replicate 16 0

/-- A session's sequence counters as the mirror carries them. -/
def State.dynEntry (s : State) (n : Nat) : List Nat := bytesWords 2 (leBytes 2 n ++ s.mbytes (sessAddr n + 50) 6)

/-- `l` in frames of kind `kind`, at most `k` entries each. -/
def State.mirrorMany (kind k : Nat) : Nat → State → List (List Nat) → State
  | 0, s, _ => s
  | fuel + 1, s, l => if l.isEmpty then s else State.mirrorMany kind k fuel (s.mirrorFrame kind (l.take k).flatten) (l.drop k)

/-- The pair job of phase 4 (R466, R467, R480): the holder sends its mirror and renews its lease; either member sends STATUS last. -/
def State.pairPhase4 (s : State) : State :=
  let st := s.pairState
  if st = PairS.disabled ∨ st = PairS.stopping then s else
  let s :=
    if !s.holds then s else
    let img := s.thatchImage
    let s := forN 10 s (fun s k => s.mirrorFrame 1 ((k + 10 * 256) :: bytesWords 56 ((img.drop (224 * k)).take 224)))
    let live := idxs 8192 s.sessValid
    let s := State.mirrorMany 2 29 (live.length + 1) s (live.map s.dynEntry)
    let s := State.mirrorMany 3 3 (s.pair.sess.length + 1) s (s.pair.sess.map s.sessEntry)
    s.wr F.PAIR_LEASE_OWN_LEFT 16
  s.mirrorFrame 0 s.statusBody

/-! ### The mirror received (R471, R479 to R481) -/

/-- A MIRROR frame is discarded. -/
def State.mirrorDiscard (s : State) : State := (s.inc F.PAIR_CNT2_AUTH_FAIL).pairSay 171

/-- A double hold is detected, from a STATUS or from TOKEN_IN alone (R471). -/
def State.doubleHold (s : State) (status : Bool) : State :=
  match s.pair.double with
  | some b => { s with pair := { s.pair with double := some (b || status) } }
  | none => ({ s with pair := { s.pair with double := some status } }.inc F.PAIR_CNT_DOUBLES).raise 170

/-- The handover bits of a STATUS (R476). -/
def State.handoverBits (s : State) (w3 seq : Nat) : State :=
  match s.pair.ho with
  | some h => if bit w3 21 ∧ h.mine ∧ h.seq = seq then { s with pair := { s.pair with ho := some { h with ack := true } } } else s
  | none =>
    if bit w3 22 ∧ (s.holds ∨ s.pairState = PairS.standby) then
      { s with pair := { s.pair with ho := some ⟨seq, false, true, 2, none⟩ } }
    else s

/-- A STATUS from sender beat `bseq` with words 3 to 12 is accepted. -/
def State.statusRx (s : State) (bseq : Nat) (ws : List Nat) : State :=
  let w := fun k => ws.getD (k - 3) 0
  let w3 := w 3
  let holder := bit w3 27
  let clash := bits w3 25 1 == s.rd F.PAIR_CTL_MEMBER
  let s := { s with pair := { s.pair with
    last := some ⟨bseq, ws⟩, fresh := true, clash := clash, rxIv := some (w 6), complete := s.pair.frames == bits w3 0 16
    holdB := if holder then w 5 else s.pair.holdB } }
  let s := (s.wr F.PAIR_STAT_PARTNER_STATE (bits w3 28 3)).wrB F.PAIR_STAT_PARTNER_HOLDER holder
  let s := (s.wrB F.PAIR_STAT_PARTNER_READY (bit w3 26)).wr F.PAIR_STAT_PARTNER_PRESENT 1
  let s := (s.wr F.PAIR_EPOCH_PARTNER_EPOCH (bits (w 4) 16 16)).wr F.PAIR_PDIGEST_DIGEST (w 7)
  let s := if clash then (s.wr F.PAIR_STAT_CFG_MATCH 0).pairSay 173 else s
  let s := if holder then s.wr F.PAIR_LEASE_PARTNER_LEFT 18 else s
  let s := if holder ∧ s.holds then s.doubleHold true else s
  if clash then s else s.handoverBits w3 (w 8)

/-- The entries of a frame's body, `n` words each. -/
def bodyEntries (n : Nat) : Nat → List Nat → List (List Nat)
  | 0, _ => []
  | fuel + 1, l => if l.length < n then [] else l.take n :: bodyEntries n fuel (l.drop n)

/-- A CMD entry is late when it arrives after the edge it names (R474). -/
def State.noteLate (s : State) (edge : Nat) : State :=
  if diff20 edge s.pair.holdB ≤ 0 then s.inc F.PAIR_CNT2_MISSED else s

/-- The body of a frame of another kind is kept until its edge. -/
def State.bodyRx (s : State) (kind : Nat) (ws : List Nat) : State :=
  let add := fun (s : State) (e : MirEntry) => { s with pair := { s.pair with entries := s.pair.entries ++ [e] } }
  if kind = 1 then
    { s with pair := { s.pair with parts := s.pair.parts ++ [(bits (ws.getD 0 0) 0 8, (wordBytes (ws.drop 1)).take 224)] } }
  else if kind = 2 then
    let l := (bodyEntries 2 30 ws).map (fun e =>
      let b := wordBytes e
      (leNat b 0 2 % 2 ^ 13, leNat b 2 2, leNat b 4 2, leNat b 6 2))
    { s with pair := { s.pair with dyn := s.pair.dyn ++ l } }
  else if kind = 3 then
    (bodyEntries 17 4 ws).foldl (fun s e => add s (.sess (e.getD 0 0 % 2 ^ 13) (bit (e.getD 0 0) 31) (wordBytes (e.drop 1)))) s
  else if kind = 4 then
    (bodyEntries 15 4 ws).foldl (fun s e =>
      add s (.slate (bits (e.getD 0 0) 0 8) (bit (e.getD 0 0) 8) (e.getD 1 0) (e.getD 2 0) (wordBytes (e.drop 3)))) s
  else if kind = 5 then
    (bodyEntries 6 10 ws).foldl (fun s e => add (s.noteLate (e.getD 1 0)) (.cmd (bits (e.getD 0 0) 0 16) (e.getD 1 0) (e.drop 2))) s
  else s

/-- A MIRROR frame of header `hd` and payload `p` has come in on NP (R479). -/
def State.mirrorRx (s : State) (hd p : List Nat) : State :=
  let st := s.pairState
  if st = PairS.disabled ∨ st = PairS.stopping ∨ !s.pairKeyed then s else
  let kind := bits (p.getD 0 0) 28 4
  let bseq := bits (p.getD 0 0) 0 20
  let ctr := p.getD 1 0 + p.getD 2 0 * 2 ^ 32
  let body := (p.drop 3).take (p.length - 7)
  let iv? := if kind = 0 then some (body.getD 3 0) else s.pair.rxIv
  match iv? with
  | none => s.mirrorDiscard
  | some iv =>
    let same := s.pair.rxIv == some iv
    let tagOk := 7 ≤ p.length && wordBytes (p.drop (p.length - 4)) == s.mirrorTag iv hd (p.take (p.length - 4))
    let ctrOk := !same || decide (s.pair.rxCtr < ctr)
    let seqOk := match s.pair.expB with
      | some e => !same || decide ((diff20 bseq e).natAbs ≤ 2)
      | none => true
    if !(tagOk && ctrOk && seqOk) then s.mirrorDiscard else
    let s := { s with pair := { s.pair with rxCtr := ctr, expB := some bseq } }
    if kind = 0 then s.statusRx bseq body
    else ({ s with pair := { s.pair with frames := s.pair.frames + 1 } }).bodyRx kind body

/-- `MIRROR_RX`: a MIRROR frame is received on NP, as header and payload words. -/
def execMirrorRx (ws : List Nat) (s : State) : Host.Outcome State Fault Refusal :=
  if !s.norUp portNP then done s else
  let ws := ws.map (fun w => w % 2 ^ 32)
  done (s.mirrorRx (ws.take 2) (ws.drop 2))

/-! ### Mirrored entries (R474, R480) -/

/-- The reference of a mirrored command: its completion goes nowhere. -/
def mirRef : CmdRef := ⟨.mirror, 0, 0, 0⟩

/-- A mirrored command is applied at its edge, on which the step, map, alignment and rotation of this edge follow. -/
def State.applyCmd (s : State) (opcode : Nat) (p : List Nat) : State :=
  let w := fun k => p.getD k 0
  if opcode = 0x0301 then
    let q : StepReq := { ref := mirRef, dom := bits (w 0) 0 1, applySec := false, useReq := false, step := toS 64 (w 1 + w 2 * 2 ^ 32) }
    { s with ridge := { s.ridge with steps := s.ridge.steps ++ [q] } }
  else if opcode = 0x0303 then
    let s := s.wr F.RIDGE_CLASS_MAP_MAP (bits (w 0) 0 7)
    { s with ridge := { s.ridge with mapStaged := true } }
  else if opcode = 0x0330 then s.outAlign mirRef (w 0) (w 1)
  else if opcode = 0x0440 then
    let q := quietGroup Act.keyRotate 0
    let s := { s with frank := { s.frank with rots := s.frank.rots ++ [Rotation.mk mirRef (bits (w 0) 0 8) (w 1)] } }
    s.setQueue q (s.quietQueue q ++ [SortEntry.mk Act.keyRotate 0 false [mirRef] s.ridge.ticks false])
  else s

/-- A mirrored slate: its key is unwrapped and waits for the key commands of this edge; a key that does not unwrap is discarded. -/
def State.applySlateEntry (s : State) (n : Nat) (inval : Bool) (edge attr : Nat) (sealed : List Nat) : State :=
  if inval then
    ({ s with slate := { s.slate with changes := s.slate.changes ++ [SlateChange.mk mirRef n true 0 false false 0 0 false] } }).showSlates
  else
    let klen := bit attr 22
    let head := wordBytes [n, edge, attr]
    match sivOpen s.pairWrap [head] (sealed.take (16 + keyLen klen)) with
    | none => s.mirrorDiscard
    | some key => s.acceptKey ⟨mirRef, n, false, bits attr 23 3, klen, bit attr 29, bits attr 26 2, bits attr 8 8, false⟩ key

/-- An entry is due at this edge: a SLATE or CMD entry at the edge it names or the first after it, a session at the next edge. -/
def State.entryDue (s : State) (e : MirEntry) : Bool :=
  match e with
  | .sess _ _ _ => true
  | .slate _ _ edge _ _ => decide (diff20 edge s.pair.holdB ≤ 0)
  | .cmd _ edge _ => decide (diff20 edge s.pair.holdB ≤ 0)

/-- One entry is applied. -/
def State.applyEntry (s : State) (e : MirEntry) : State :=
  match e with
  | .sess n delete rec => if delete then s.freeSess n else s.putSess n rec
  | .slate n inval edge attr sealed => s.applySlateEntry n inval edge attr sealed
  | .cmd opcode _ p => s.applyCmd opcode p

/-- `MIRROR_CMD_APPLY`: the standby applies the mirrored entries that are due at this edge. -/
def execMirrorCmdApply (s : State) : Host.Outcome State Fault Refusal :=
  if s.holds then done s else
  let due := s.pair.entries.filter s.entryDue
  let s := { s with pair := { s.pair with entries := s.pair.entries.filter (fun e => !s.entryDue e) } }
  done (due.foldl State.applyEntry s)

/-! ### Enable, disable and the beat edge -/

/-- The enable check of R465. -/
def State.pairCheck (s : State) : Bool :=
  let n := s.rd F.PAIR_CTL_SLATE
  s.pairKeyed && (n < 16 || s.on F.SLATE_ATTR_NO_EXPORT n) && s.on F.NOR_PORT_CTL_EN portNP

/-- The pair unit starts: its counters and partner fields clear, and it enters SEARCH; or its check fails with FS 175. -/
def State.pairStart (s : State) : State :=
  if !s.pairCheck then (s.wr F.PAIR_CTL_EN 0).raise 175 else
  let s := s.rstFlds [F.PAIR_STAT_WTR_LEFT, F.PAIR_STAT_PARTNER_PRESENT, F.PAIR_STAT_PARTNER_READY, F.PAIR_STAT_PARTNER_HOLDER,
    F.PAIR_STAT_CFG_MATCH, F.PAIR_STAT_PARTNER_STATE, F.PAIR_LEASE_PARTNER_LEFT, F.PAIR_LEASE_OWN_LEFT, F.PAIR_MIR_AGE,
    F.PAIR_MIR_FRAMES, F.PAIR_CNT_TAKEOVERS, F.PAIR_CNT_HANDOVERS, F.PAIR_CNT_DOUBLES, F.PAIR_CNT_SYNC_LOSS, F.PAIR_CNT2_AUTH_FAIL,
    F.PAIR_CNT2_MISSED]
  ({ s with pair := { iv := s.pair.iv, ctr := s.pair.ctr, padLeft := s.pair.padLeft, bma := s.pair.bma } }).pairSearch

/-- The pair unit stops (Table PAIR-1): the token is released, and what waits is given up. -/
def State.pairStop (s : State) : State :=
  let s := s.dropHandover
  let s := s.finishAll s.pair.force Code.busyRetry
  let s := { s with pair := { s.pair with force := [], entries := [], double := none } }
  let s := (s.condEnd 173).condEnd 174
  if s.holds then s.pairRelease 7 PairS.stopping else s.pairMove PairS.stopping

/-- A write of PAIR_CTL (R485): REVERT and WTR take effect at the next beat edge; the other fields are locked while the unit is not
DISABLED. -/
def State.pairCtlWrite (s : State) (a : Acs) (w : Nat) : State × Nat :=
  let was := s.on F.PAIR_CTL_EN
  let st := s.pairState
  let r := s.stagedWrite (fun f => (was || st != PairS.disabled) &&
      f.among [F.PAIR_CTL_SLATE, F.PAIR_CTL_SYNC_ALIGN, F.PAIR_CTL_PREF_MEMBER, F.PAIR_CTL_MEMBER]) inRange
    [F.PAIR_CTL_WTR, F.PAIR_CTL_SLATE, F.PAIR_CTL_SYNC_ALIGN, F.PAIR_CTL_REVERT, F.PAIR_CTL_PREF_MEMBER, F.PAIR_CTL_MEMBER,
      F.PAIR_CTL_EN] 0 w
  let s := r.1
  let now := s.on F.PAIR_CTL_EN
  let s :=
    if now && !was then (if st = PairS.stopping then s.wr F.PAIR_STAT_PENDING_ENABLE 1 else s.pairStart)
    else if was && !now then (if st = PairS.stopping then s.wr F.PAIR_STAT_PENDING_ENABLE 0 else s.pairStop)
    else s
  s.conclude a r.2

/-- A write of PAIR_PAD, which takes effect at the next beat edge. -/
def State.pairPadWrite (s : State) (a : Acs) (w : Nat) : State × Nat :=
  let r := s.stagedWrite noLock inRange [F.PAIR_PAD_TAKE_BEATS, F.PAIR_PAD_TAKE_PAD] 0 w
  r.1.conclude a r.2

/-- `PAIR_ENABLE`: requester `req` writes PAIR_CTL with EN = 1; `w` gives the other bits. -/
def execPairEnable (req w : Nat) (s : State) : Host.Outcome State Fault Refusal :=
  done (s.put ⟨req, 0x19000, 2, true⟩ (fun s a => s.pairCtlWrite a (setBit w 0 true))).1

/-- `PAIR_DISABLE`: requester `req` writes PAIR_CTL with EN = 0. -/
def execPairDisable (req w : Nat) (s : State) : Host.Outcome State Fault Refusal :=
  done (s.put ⟨req, 0x19000, 2, true⟩ (fun s a => s.pairCtlWrite a (setBit w 0 false))).1

/-- `PAIR_STOP_DONE`: the pair unit finishes STOPPING; an enable that waits starts it again. -/
def execPairStopDone (s : State) : Host.Outcome State Fault Refusal :=
  if s.pairState ≠ PairS.stopping then done s else
  let s := s.pairMove PairS.disabled
  if s.on F.PAIR_STAT_PENDING_ENABLE then done (s.wr F.PAIR_STAT_PENDING_ENABLE 0).pairStart else done s

/-- The mirror of the beat that ends is judged on a standby (R481) and, when complete, loaded (R474). -/
def State.mirrorEdge (s : State) : State :=
  if !s.pairSteered then s else
  let s := s.pair.dyn.foldl (fun s e =>
    if s.sessValid e.1 then ((s.mwr (sessAddr e.1 + 50) 2 e.2.1).mwr (sessAddr e.1 + 52) 2 e.2.2.1).mwr (sessAddr e.1 + 54) 2 e.2.2.2
    else s) s
  if s.pair.complete then
    let s := s.wr F.PAIR_MIR_AGE 0
    match s.imageGot with
    | some img => s.loadImage img
    | none => s
  else ((s.inc F.PAIR_CNT2_MISSED).inc F.PAIR_MIR_AGE).raise 172

/-- The conditions of R473 in the beat that ends. -/
def State.beatFit (s : State) : Bool :=
  s.norUp portNP && 2 ≤ s.rd F.NOR_PORT_STAT_RATE portNP && s.pair.complete && (s.rdS F.PAIR_OFS_OFS).natAbs ≤ 65536

/-- CFG_MATCH and FS 173 (R482): the digests and PREF_MEMBER agree, once the partner has sent a STATUS. -/
def State.showMatch (s : State) : State :=
  if s.pair.last.isNone ∨ s.pair.clash then s else
  let ok := s.rd F.PAIR_DIGEST_DIGEST == s.rd F.PAIR_PDIGEST_DIGEST && bits (s.partWord 3) 23 1 == s.rd F.PAIR_CTL_PREF_MEMBER
  (s.wrB F.PAIR_STAT_CFG_MATCH ok).cond 173 (!ok)

/-- The rows of Table PAIR-1 that a beat edge decides without a command of its own. -/
def State.pairTable (s : State) : State :=
  let st := s.pairState
  let tok := s.on F.PAIR_STAT_TOKEN_IN
  let safe := s.on F.TOP_STAT_SAFE
  if s.pair.fresh && s.pair.clash && st != PairS.active then (if st = PairS.search then s else s.pairSearch)
  else if st = PairS.search then
    if safe ∨ s.pair.clash then s
    else if (s.pair.fresh && s.on F.PAIR_STAT_PARTNER_HOLDER) || tok then s.pairSync
    else if s.pair.fresh then
      (if s.rd F.PAIR_CTL_MEMBER = s.rd F.PAIR_CTL_PREF_MEMBER then s.pairTake 0 else s.pairSync)
    else { s with pair := { s.pair with join := s.pair.join + 1 } }
  else if st = PairS.standby then
    if 655360 < (s.rdS F.PAIR_OFS_OFS).natAbs ∨ !s.on F.PAIR_STAT_CFG_MATCH ∨ 16 ≤ s.rd F.PAIR_MIR_AGE then
      ((s.inc F.PAIR_CNT_SYNC_LOSS).raise 174).pairSync
    else s
  else if st = PairS.test ∧ s.pair.testTake ∧ s.sort.tests.isEmpty ∧ !safe then s.pairTake 1
  else s

/-- One beat of WTR_LEFT on a preferred member in STANDBY (R477). -/
def State.wtrBeat (s : State) : State :=
  if s.pairState ≠ PairS.standby ∨ s.rd F.PAIR_CTL_MEMBER ≠ s.rd F.PAIR_CTL_PREF_MEMBER ∨ !s.on F.PAIR_STAT_PARTNER_HOLDER then s else
  let n := s.pair.wtr + 1
  let s := if n = 1024 then s.wr F.PAIR_STAT_WTR_LEFT (s.rd F.PAIR_STAT_WTR_LEFT - 1) else s
  { s with pair := { s.pair with wtr := n % 1024 } }

/-- The pair's part of a beat edge (R466 to R471, Table PAIR-1). -/
def State.pairEdge (s : State) : State :=
  let st := s.pairState
  let bma : Int := if s.on F.RIDGE_CTL_B_EN then ridgeDist (s.count 1) (s.count 0) else 0
  let s := { s with pair := { s.pair with bma := bma, padLeft := s.pair.padLeft - 1, sent := 0 } }
  if st = PairS.disabled ∨ st = PairS.stopping then s else
  let s := s.wrB F.PAIR_STAT_TOKEN_IN s.pins.tokenIn
  let s := s.wr F.PAIR_LEASE_OWN_LEFT (s.rd F.PAIR_LEASE_OWN_LEFT - 1)
  let s := s.wr F.PAIR_LEASE_PARTNER_LEFT (s.rd F.PAIR_LEASE_PARTNER_LEFT - 1)
  let s := { s with pair := { s.pair with holdB := (s.pair.holdB + 1) % 2 ^ 32, expB := s.pair.expB.map (fun e => (e + 1) % 2 ^ 20) } }
  let s := ((s.takeOfs).wrSat F.PAIR_MIR_FRAMES s.pair.frames).showMatch
  let s := { s with pair := { s.pair with good := if s.beatFit then s.pair.good + 1 else 0 } }
  let s := s.mirrorEdge
  let s := if s.holds ∧ s.pins.tokenIn then s.doubleHold false else s
  let s := s.cond 174 (s.pairSteered && s.rd F.PAIR_LEASE_PARTNER_LEFT == 0 && s.pins.tokenIn)
  let s := (s.pairTable).wtrBeat
  let s := match s.pair.force with
    | [] => s
    | l =>
      let s := { s with pair := { s.pair with force := [] } }
      let s := if s.holds ∨ s.on F.TOP_STAT_SAFE then s else s.pairTake 4
      s.finishAll l Code.ok
  let s := s.wr F.PAIR_STAT_PARTNER_PRESENT 0
  { s with pair := { s.pair with was := s.pair.fresh, fresh := false, frames := 0, parts := [], dyn := [], complete := false, sess := [], said := [] } }

end Sys2Proof.Machine
end

