-- ==== Sys2Proof/Machine/Power.lean ====
section
/-! DEFINITION. Supplies, the RTC, the VBAT domain, power islands, and the resets (spec/17_power_startup.md). -/
namespace Sys2Proof.Machine

/-- A change of `s.pwr`. -/
def State.modPwr (s : State) (f : PwrSt → PwrSt) : State := { s with pwr := f s.pwr }

/-! ### Supplies (R537, Table PWR-10) -/

/-- The source of the rail at bit `b` of TOP_SUPPLY. -/
def railFs (b : Nat) : Nat :=
  if b ≤ 1 then 208 else if b = 2 then 209 else if b ≤ 4 then 210 else if b ≤ 8 then 211 else 212

/-- The condition of the rail at bit `b` begins or ends. -/
def State.railCond (s : State) (b : Nat) (bad : Bool) : State := s.cond (railFs b) bad b

/-- `RAIL_FAULT`: the main rail at bit `b` of TOP_SUPPLY leaves its window for more than 10 µs. -/
def execRailFault (b : Nat) (s : State) : Host.Outcome State Fault Refusal :=
  if 9 ≤ b then done s else
  let s := s.wrBit F.TOP_SUPPLY_IN_RANGE b false
  done (if s.ridge.running then s.railCond b true else s)

/-- `RAIL_RETURN`: the rail is back in its window. -/
def execRailReturn (b : Nat) (s : State) : Host.Outcome State Fault Refusal :=
  if 9 ≤ b then done s else done ((s.wrBit F.TOP_SUPPLY_IN_RANGE b true).railCond b false)

/-- `VBAT_WARNING`: VBAT crosses 1.8 V; `low` says that it is below. -/
def execVbatWarning (low : Bool) (s : State) : Host.Outcome State Fault Refusal :=
  let s := s.wrBit F.TOP_SUPPLY_IN_RANGE 9 (!low)
  done (if s.ridge.running then s.railCond 9 low else s)

/-- `XO_IN_LOSS`: XO_IN goes missing or drifts more than 1,000 ppm from its chosen frequency; `bad` is false when it is back. -/
def execXoInLoss (bad : Bool) (s : State) : Host.Outcome State Fault Refusal :=
  done (if s.ridge.running then s.cond 213 bad else s)

/-- `CORE_PLL_UNLOCK`: the core PLL loses lock; `unlocked` is false when it has lock again. -/
def execCorePllUnlock (unlocked : Bool) (s : State) : Host.Outcome State Fault Refusal :=
  done (if s.ridge.running then s.cond 214 unlocked else s)

/-! ### Die temperature (FS 215, FS 216) -/

/-- The conditions of the die temperature, an integer of 0.25 °C, against TOP_TEMP. -/
def State.judgeTemp (s : State) (t : Int) : State :=
  let s := s.cond 215 (decide ((4 * s.rd F.TOP_TEMP_TEMP_WARN : Nat) < t))
  s.cond 216 (decide ((4 * s.rd F.TOP_TEMP_TEMP_CRIT : Nat) < t))

/-- A write of TOP_TEMP: TEMP_CRIT lies above the TEMP_WARN that the write leaves. -/
def State.topTempWrite (s : State) (a : Acs) (w : Nat) : State × Nat :=
  let warn := if inRange F.TOP_TEMP_TEMP_WARN (bits w 16 8) then bits w 16 8 else s.rd F.TOP_TEMP_TEMP_WARN
  let ok := fun (f : Fld) v => inRange f v && (f.no != F.TOP_TEMP_TEMP_CRIT.no || decide (warn < v))
  let r := s.fieldWrite noLock ok [F.TOP_TEMP_TEMP_CRIT, F.TOP_TEMP_TEMP_WARN] 0 w
  (if r.1.ridge.running then r.1.judgeTemp (r.1.rdS F.EAVES_STAT_TEMP) else r.1).conclude a r.2

/-! ### The RTC (R542) -/

/-- The RTC takes the TAI second `sec`: VALID sets, and the sub-second divider restarts. -/
def State.setRtc (s : State) (sec : Nat) : State :=
  ((s.wr F.TOP_RTC_SEC_SEC sec).wr F.TOP_RTC_STAT_VALID 1).modPwr (fun p => { p with rtcSub := 0 })

/-- A write of TOP_RTC_SEC. -/
def State.rtcWrite (s : State) (a : Acs) (w : Nat) : State × Nat := (s.setRtc (bits w 0 48)).conclude a []

/-- `RTC_WRITE`: requester `req` writes the 64-bit word `w` to TOP_RTC_SEC. -/
def execRtcWrite (req w : Nat) (s : State) : Host.Outcome State Fault Refusal := done (s.put ⟨req, 0x180, 3, true⟩ (fun s a => s.rtcWrite a w)).1

/-- A write of TOP_RTC_STAT. -/
def State.rtcStatWrite (s : State) (a : Acs) (w : Nat) : State × Nat :=
  let r := s.fieldWrite noLock inRange [F.TOP_RTC_STAT_SYNC] 0 w
  r.1.conclude a r.2

/-- At beat 0 of a second whose epoch seconds are a multiple of 64, the RTC follows Ridge A while SYNC = 1 and domain A is LOCKED. -/
def State.rtcSync (s : State) : State :=
  let sec := (s.epochOf 0 (s.count 0)).toNat / ruSecond
  if s.on F.TOP_RTC_STAT_SYNC && s.rd F.ENS_DOM_STAT_A_STATE == 2 && sec % 64 == 0 then s.setRtc sec else s

/-- `RTC_OSC_STOP`: the 32.768 kHz oscillator stops, or (`stopped` false) restarts. -/
def execRtcOscStop (stopped : Bool) (s : State) : Host.Outcome State Fault Refusal :=
  let s := s.wrB F.TOP_RTC_STAT_OSC_OK (!stopped)
  done (if s.ridge.running then s.cond 217 stopped else s)

/-! ### The VBAT domain (R544) -/

/-- The VBAT domain holds what it holds at power-up after a loss: RTC VALID 0, VBAT_LOST 1, SLATE_TAMP_CFG 0, the persistent slates
cleared and both hint halves invalid. -/
def State.vbatClear (s : State) : State :=
  let s := s.rstFlds [F.TOP_RTC_SEC_SEC, F.TOP_RTC_STAT_VALID, F.TOP_RTC_STAT_SYNC, F.SLATE_TAMP_CFG_DEBOUNCE, F.SLATE_TAMP_CFG_ERASE_HINT,
    F.SLATE_TAMP_CFG_EN1, F.SLATE_TAMP_CFG_EN0, F.SLATE_TAMP_STAT_VBAT_LOST, F.SLATE_TAMP_STAT_ERASED, F.SLATE_TAMP_STAT_T1,
    F.SLATE_TAMP_STAT_T0, F.SLATE_TAMP_TIME_SEC]
  let s := forN 16 s State.eraseSlate
  let s := { s with once := s.once.filter (fun x => x != 0x2100) }
  let s := { s with gnss := { s.gnss with hints := [none, none] } }
  s.showSlates

/-- `VBAT_LOSS`: VBAT and VDDIO 1.8 V both fall below 1.6 V. -/
def execVbatLoss (s : State) : Host.Outcome State Fault Refusal := done s.vbatClear

/-- `VBAT_POWER_UP`: the VBAT domain powers up after a loss. -/
def execVbatPowerUp (s : State) : Host.Outcome State Fault Refusal := done s.vbatClear

/-! ### Power islands (R563 to R565, Table PWR-7) -/

/-- Island `i` may be switched off. -/
def State.islandFree (s : State) (i : Nat) : Bool :=
  if i = 0 then !s.on F.GNSS_CTL_EN
  else if i ≤ 8 then !s.on F.SDS_GRP_CTL_EN (i - 1) && !s.on F.SDS_GRP_CTL_OOS (i - 1)
  else if i = 9 then s.rd F.MEM_STAT_STATE == 0
  else !s.on F.APLL_CTL_EN (i - 10) &&
    !((List.range 8).any (fun g => s.on F.SDS_GRP_CTL_EN g && s.rd F.SDS_GRP_CTL_TX_REF g == i - 9))

/-- The ON bit of island `i` is written `b`: 2 is ON, 3 DOWN, 0 OFF, 1 RAMP. -/
def State.islandWrite (r : State × List Nat) (i : Nat) (b : Bool) : State × List Nat :=
  let s := r.1
  let was := bit (s.rd F.TOP_PWR_CTL_ON) i
  if was && !b then
    if !s.islandFree i then (s, r.2 ++ [Code.cfgLocked]) else
    let s := (s.wrBit F.TOP_PWR_CTL_ON i false).wrBit F.TOP_PWR_PEND_PENDING_ENABLE i false
    (s.wr F.TOP_PWR_STAT_STATE 3 i, r.2)
  else if !was && b then
    let s := s.wrBit F.TOP_PWR_CTL_ON i true
    if s.rd F.TOP_PWR_STAT_STATE i = 3 then (s.wrBit F.TOP_PWR_PEND_PENDING_ENABLE i true, r.2)
    else (s.wr F.TOP_PWR_STAT_STATE 1 i, r.2)
  else r

/-- A write of TOP_PWR_CTL (R563, R564). -/
def State.islandCtlWrite (s : State) (a : Acs) (w : Nat) : State × Nat :=
  let r := (List.range 16).foldl (fun r i => State.islandWrite r i (bit w i)) (s, [])
  r.1.conclude a r.2

/-- `ISLAND_POWER_WRITE`: requester `req` writes `w` to TOP_PWR_CTL. -/
def execIslandPowerWrite (req w : Nat) (s : State) : Host.Outcome State Fault Refusal :=
  done (s.put ⟨req, 0x140, 2, true⟩ (fun s a => s.islandCtlWrite a w)).1

/-- `ISLAND_POWER_DONE`: island `i` finishes its power-down, and a pending power-up starts; or it finishes its power-up. -/
def execIslandPowerDone (i : Nat) (s : State) : Host.Outcome State Fault Refusal :=
  if 16 ≤ i then done s
  else if s.rd F.TOP_PWR_STAT_STATE i = 3 then
    if bit (s.rd F.TOP_PWR_PEND_PENDING_ENABLE) i then
      done ((s.wrBit F.TOP_PWR_PEND_PENDING_ENABLE i false).wr F.TOP_PWR_STAT_STATE 1 i)
    else done (s.wr F.TOP_PWR_STAT_STATE 0 i)
  else if s.rd F.TOP_PWR_STAT_STATE i = 1 then done (s.wr F.TOP_PWR_STAT_STATE 2 i)
  else done s

/-! ### Resets (R519, R536, R538, R559, Table PWR-6) -/

/-- The numbers of the fields of the registers `m`. -/
def fldNos (m : List RegDef) : List Nat := (m.map (fun r => r.flds.map Fld.no)).flatten

/-- The fields of the VBAT registers but for the attribute words (R506), which every reset keeps, and TOP_SUPPLY, which shows the rails. -/
def vbatNos : List Nat :=
  [F.TOP_RTC_SEC_SEC, F.TOP_RTC_STAT_VALID, F.TOP_RTC_STAT_OSC_OK, F.TOP_RTC_STAT_SYNC, F.SLATE_TAMP_CFG_DEBOUNCE,
   F.SLATE_TAMP_CFG_ERASE_HINT, F.SLATE_TAMP_CFG_EN1, F.SLATE_TAMP_CFG_EN0, F.SLATE_TAMP_STAT_VBAT_LOST, F.SLATE_TAMP_STAT_ERASED,
   F.SLATE_TAMP_STAT_T1, F.SLATE_TAMP_STAT_T0, F.SLATE_TAMP_TIME_SEC, F.TOP_SUPPLY_IN_RANGE].map Fld.no

/-- The fields of the attribute words, kept for slates 0 to 15. -/
def attrNos : List Nat :=
  [F.SLATE_ATTR_VALID, F.SLATE_ATTR_PERSISTENT, F.SLATE_ATTR_NO_EXPORT, F.SLATE_ATTR_ORPHAN, F.SLATE_ATTR_ORIGIN, F.SLATE_ATTR_USAGE,
   F.SLATE_ATTR_KLEN, F.SLATE_ATTR_COMMIT, F.SLATE_ATTR_PARENT, F.SLATE_ATTR_GEN].map Fld.no

/-- The fields of the FCU that RESET_N and `SYS_RESET` keep (R519). -/
def fcuNos : List Nat :=
  [F.FCU_REC_W0_VALID, F.FCU_REC_W0_FORCED, F.FCU_REC_W0_ESCALATED, F.FCU_REC_W0_SEV, F.FCU_REC_W0_SRC, F.FCU_REC_SEQ_SEQ,
   F.FCU_REC_BEAT_BEAT, F.FCU_REC_SNAP_SNAP, F.FCU_REC_COUNT_COUNT, F.FCU_REC_PRIOR_PRIOR, F.FCU_SEQ_SEQ, F.FCU_CNT_COUNT,
   F.FCU_PEND_BIT, F.FCU_OVF_NOREC, F.FCU_OVF_ESC, F.FCU_SELF_VALID, F.FCU_SELF_SRC, F.FCU_SAFE_SEQ_SEQ].map Fld.no

/-- A register value outlives the reset of cause `cause` (0 power-on, 1 RESET_N, 2 `SYS_RESET`): `SYS_RESET` leaves the HOST block and
the Noryr registers, and the choice of XO_FREQ, which it does not make again. -/
def outlives (cause : Nat) (p : Nat × Nat) : Bool :=
  let no := p.1 % 1024
  vbatNos.contains no || (attrNos.contains no && decide (p.1 / 1024 < 16)) || (cause != 0 && fcuNos.contains no) ||
  (cause == 2 && ((fldNos (mapHOST0 ++ mapHOST1 ++ mapHOST2 ++ mapNOR0 ++ mapNOR1)).contains no || no == F.TOP_BOOT_STAT_XO_FREQ.no))

/-- The device resets. Outside the VBAT domain everything returns to its reset value, but for the FCU's records (R519), and under
`SYS_RESET` the host port with the commands for other devices, and the Noryr layer (R423, R459). Pins go to Table PWR-6; the level of
TOKEN_IN is the partner's. `stage` is where start-up then stands. -/
def State.resetDevice (s : State) (cause stage : Nat) : State :=
  let t := { State.reset with
    pending := s.pending
    regs := s.regs.filter (outlives cause)
    free := s.free
    out := s.out
    once := s.once.filter (fun x => x == 0x2100)
    pins := { alive := s.pins.alive, tokenIn := s.pins.tokenIn }
    pwr := {
      main := true, stage := stage, rtcSub := s.pwr.rtcSub
      cfgOpen := cause == 2 && s.pwr.cfgOpen
      subsys := if cause = 2 then s.pwr.subsys else 0 } }
  let t := { t with slate := { t.slate with cells := s.slate.cells.take 16 ++ t.slate.cells.drop 16 } }
  let t := { t with gnss := { t.gnss with hints := s.gnss.hints } }
  let t := if cause = 2 then
      let t := { t with mem := s.mem.filter (fun c => decide (0xF80000 ≤ c.1)), host := s.host, nor := s.nor }
      t.norRestart
    else t
  t.wr F.TOP_STAT_RESET_CAUSE cause

/-- What a reset ends is counted and recorded before it: answers not started, and armed launches (R306, R362). -/
def State.beforeReset (s : State) : State := ((s.dropAnswers (fun _ => true)).launchAbort).settle 4

/-- `POWER_ON`: every main rail has been in its window for 2 ms and RESET_N is high: power-on reset ends, and start-up begins (R536). -/
def execPowerOn (s : State) : Host.Outcome State Fault Refusal :=
  let t := s.resetDevice 0 2
  done (t.wr F.TOP_SUPPLY_IN_RANGE (setBits (s.rd F.TOP_SUPPLY_IN_RANGE) 0 9 511))

/-- `RESET_N_ASSERT`: RESET_N has been low for 10 µs, and the device resets (R538). -/
def execResetNAssert (s : State) : Host.Outcome State Fault Refusal :=
  if s.pwr.stage = 0 then done s else done (s.beforeReset.resetDevice 1 1)

/-- `RESET_N_RELEASE`: RESET_N rises, and start-up runs. -/
def execResetNRelease (s : State) : Host.Outcome State Fault Refusal :=
  if s.pwr.stage = 1 then done (s.modPwr (fun p => { p with stage := 2 })) else done s

end Sys2Proof.Machine
end

