-- ==== Sys2Proof/Machine/Access.lean ====
section
/-! DEFINITION. An access to the 24-bit address space, judged and applied (spec/15_registers_map.md): registers, the bit-alias region,
table windows and reserved locations; cross-domain timeouts. -/
namespace Sys2Proof.Machine

/-! ### A whole-word write of each register

`fs` are the RW fields of the register, `i` its flat index, `w` the word. -/

/-- A write of a register that no state locks and that takes effect at once. -/
def State.plainWrite (s : State) (a : Acs) (fs : List Fld) (i w : Nat) : State × Nat :=
  let r := s.fieldWrite noLock inRange fs i w
  r.1.conclude a r.2

/-- A write of a register whose only bit is a W1P acknowledgement that `act` carries out (R498). -/
def State.ackWrite (s : State) (a : Acs) (act : State → State) (w : Nat) : State × Nat :=
  (if bit w 0 then act s else s).conclude a []

/-- TOP_ACC_ACK clears TOP_ACC_ERR, TOP_ACC_INFO, TOP_ACC_CNT0, TOP_ACC_CNT1, TOP_XDOM_HWM and TOP_ARB_HWM. -/
def State.accAck (s : State) : State :=
  s.rstFlds [F.TOP_ACC_ERR_CODE, F.TOP_ACC_ERR_ADDR, F.TOP_ACC_INFO_REQ, F.TOP_ACC_INFO_SIZE, F.TOP_ACC_INFO_WRITE,
    F.TOP_ACC_CNT0_LOCKED, F.TOP_ACC_CNT0_RANGE, F.TOP_ACC_CNT1_SIZE, F.TOP_ACC_CNT1_ALIGN, F.TOP_ACC_CNT1_ONCE,
    F.TOP_ACC_CNT1_RSVD_WR, F.TOP_XDOM_HWM_GNSS, F.TOP_XDOM_HWM_SDS, F.TOP_XDOM_HWM_MEAS, F.TOP_XDOM_HWM_HOST,
    F.TOP_ARB_HWM_REQ, F.TOP_ARB_HWM_LOSSES]

/-- `TOP_ACC_ACK`: TOP_ACC_ACK.ACK is written 1. -/
def execTopAccAck (s : State) : Host.Outcome State Fault Refusal := done s.accAck

/-- A write of HOST_MBX_CTL (R431): INT_EN is taken; a GO while BUSY answers CFG_LOCKED, and any other starts the mailbox command,
which Letterbox.lean then dispatches. -/
def State.mbxCtlWrite (s : State) (a : Acs) (w : Nat) : State × Nat :=
  let r := s.fieldWrite noLock inRange [F.HOST_MBX_CTL_INT_EN] 0 w
  let s := r.1
  if !bit w 0 then s.conclude a r.2
  else if s.on F.HOST_MBX_CTL_BUSY then s.conclude a [Code.cfgLocked]
  else
    let s := (s.wr F.HOST_MBX_CTL_BUSY 1).wr F.HOST_MBX_CTL_DONE 0
    ({ s with host := { s.host with mbxReq := a.req, mbxGo := true } }).conclude a []

/-- Registers of TOP, with start-up and Noryr, FCU, SLATE, SORT, PAIR and MEM. -/
def State.writeLow (s : State) (a : Acs) (id : Reg) (fs : List Fld) (i w : Nat) : State × Nat :=
  match id with
  | .TOP_SCRATCH | .SORT_CTL => s.plainWrite a fs i w
  | .TOP_ACC_ACK => s.ackWrite a State.accAck w
  | .TOP_TEMP => s.topTempWrite a w
  | .TOP_PWR_CTL => s.islandCtlWrite a w
  | .TOP_RTC_SEC => s.rtcWrite a w
  | .TOP_RTC_STAT => s.rtcStatWrite a w
  | .NOR_CTL => s.norCtlWrite a w
  | .NOR_IDLE | .NOR_PORT_ASYM => s.norServiceWrite a fs i w
  | .NOR_BIND_CLR => s.ackWrite a State.norBindClr w
  | .NOR_PORT_CTL => s.norPortWrite a i w
  | .FCU_CTL => s.fcuCtlWrite a w
  | .FCU_ACK => s.fcuAckWrite a w
  | .FCU_LOCK => s.cfgLockWrite a w
  | .FCU_FORCE_SNAP => s.forceSnapWrite a w
  | .FCU_FORCE => s.fcuForceWrite a i w
  | .FCU_CFG => s.fcuCfgWrite a i w
  | .SLATE_LOCK => s.persLockWrite a w
  | .SLATE_LOAD_LOCK => s.loadLockWrite a w
  | .SLATE_TAMP_CFG => s.tampCfgWrite a w
  | .SLATE_ATTR => s.conclude a [Code.cfgLocked]
  | .SLATE_TAMP_ACK => (s.tampAck w).conclude a []
  | .PAIR_CTL => s.pairCtlWrite a w
  | .PAIR_PAD => s.pairPadWrite a w
  | .MEM_CTL => s.memCtlWrite a w
  | _ => s.conclude a []

/-- Registers of RIDGE, TDC and ENS, with EAVES and the oscillators. -/
def State.writeTime (s : State) (a : Acs) (id : Reg) (fs : List Fld) (i w : Nat) : State × Nat :=
  match id with
  | .RIDGE_CTL => s.ridgeCtlWrite a w
  | .RIDGE_x_ADD_INT => s.addWrite a i F.RIDGE_x_ADD_INT_ADD_INT w
  | .RIDGE_x_ADD_FRAC => s.addWrite a i F.RIDGE_x_ADD_FRAC_ADD_FRAC w
  | .RIDGE_ADD_LOAD => s.addLoad a w
  | .RIDGE_LIMIT_A | .RIDGE_LIMIT_B | .RIDGE_SLEW => s.plainWrite a fs i w
  | .RIDGE_CLASS_MAP => s.classMapWrite a w
  | .RIDGE_SNAP_CTL => s.ackWrite a State.snapCapture w
  | .RIDGE_BEAT_CLR => s.ackWrite a State.beatClr w
  | .RIDGE_CMP_CTL => s.cmpCtlWrite a i w
  | .RIDGE_CMP_TGT | .RIDGE_CMP_PER =>
    let on := s.on F.RIDGE_CMP_CTL_EN i
    let r := s.fieldWrite (fun _ => on) inRange fs i w
    r.1.conclude a r.2
  | .TDC_CTL => s.tdcArrayWrite a w
  | .TDC_SPARE => s.tdcSpareWrite a w
  | .TDC_SUB => s.tdcSubWrite a w
  | .TDC_CAL_CTL => s.plainWrite a fs i w
  | .TDC_CH_CTL => s.tdcCtlWrite a i w
  | .TDC_CH_SRC | .TDC_CH_GATE | .TDC_CH_WIN | .TDC_CH_NOM | .TDC_CH_OFS =>
    let on := s.tdcChLocked i || s.testing i
    let r := s.fieldWrite (fun _ => on) inRange fs i w
    r.1.conclude a r.2
  | .TDC_RING_RD => s.ringRdWrite a i w
  | .TDC_XB_PRE => s.prescalerWrite a i w
  | .ENS_CTL => s.ensCtlWrite a w
  | .ENS_QUAL | .ENS_DISPUTE | .ENS_RAMP | .ENS_LOCK | .ENS_LOCKF | .ENS_TRACE | .ENS_DOM_CTL => s.ensServiceWrite a fs w
  | .ENS_B_CFG | .ENS_B_TRACE => s.ensBWrite a fs w
  | .ENS_ACK => s.ackWrite a State.ensAck w
  | .ENS_SLOT_CFG => s.slotCfgWrite a i w
  | .ENS_SLOT_RANK => s.rankWrite a i w
  | .ENS_SLOT_FTOL | .ENS_SLOT_SIG0 | .ENS_SLOT_GAIN => s.slotLockedWrite a fs i w
  | .EAVES_CTL | .EAVES_PAD | .EAVES_S2_PAD | .EAVES_x_LIMIT | .EAVES_CAL_CTL | .EAVES_CAL_UNC | .EAVES_CAL_UNCX | .EAVES_CAL_EXP
  | .EAVES_SLOT_CAL | .EAVES_SLOT_UNC | .EAVES_x_CAL_COMMON | .EAVES_CHAR_CTL | .EAVES_CHAR_Y0 | .EAVES_CHAR_DRIFT
  | .EAVES_CHAR_WFM | .EAVES_CHAR_TEMPCO | .EAVES_CHAR_KV => s.eavesWrite a fs i w
  | .OSC_CTL => s.oscCtlWrite a i w
  | .OSC_STEP | .OSC_UCFG => s.oscLockedWrite a fs i i w
  | .OSC_TPL => s.oscLockedWrite a fs (i / 3) i w
  | .OSC_BYTES => s.oscLockedWrite a fs (oscOfBytes i) i w
  | .OSC_CODE => s.oscCodeWrite a i false w
  | .OSC_ACC => s.oscCodeWrite a i true w
  | _ => s.conclude a []

/-- Registers of DPLL, APLL, OUT and GNSS. -/
def State.writeMid (s : State) (a : Acs) (e : Env) (id : Reg) (fs : List Fld) (i w : Nat) : State × Nat :=
  match id with
  | .DPLL_CTL => s.dpllCtlWrite a i w
  | .DPLL_LOOP => s.dpllLoopWrite a i w
  | .DPLL_IN | .DPLL_MON | .DPLL_THR | .DPLL_PD_PER => s.dpllLockedWrite a fs i i w
  | .DPLL_IN_DIV => s.dpllLockedWrite a fs (i / 4) i w
  | .DPLL_CMD => s.dpllCmdWrite a i w (e.meas.getD i [])
  | .APLL_CTL => s.apllCtlWrite a i w (e.fref.getD i 0)
  | .APLL_N | .APLL_FRAC | .APLL_BAND => s.apllLockedWrite a fs i w
  | .OUT_CLK_CTL => s.outCtlWrite a i w
  | .OUT_CLK_DIV => s.outLockedWrite a fs i i w
  | .OUT_CLK_DLY => s.clkDlyWrite a i w
  | .OUT_PPS_CTL => s.outCtlWrite a (16 + i) w
  | .OUT_PPS_WIDTH | .OUT_PPS_PER => s.outLockedWrite a fs (16 + i) i w
  | .OUT_PPS_OFS => s.ppsOfsWrite a i w
  | .GNSS_CTL => s.gnssCtlWrite a w e.fe e.sclk
  | .GNSS_ACQ | .GNSS_FE_CFG | .GNSS_FE_ID | .GNSS_POS_X | .GNSS_POS_Y | .GNSS_POS_Z | .GNSS_BASE_E | .GNSS_BASE_N | .GNSS_BASE_U
  | .GNSS_CABLE | .GNSS_BAND_DLY => s.gnssLockedWrite a fs i w
  | .GNSS_MIN | .GNSS_TRK | .GNSS_SPOOF_CFG | .GNSS_SPOOF_TOL | .GNSS_UNC | .GNSS_IONO_PAD | .GNSS_HINT | .GNSS_STREAM_JAM =>
    s.gnssServiceWrite a fs i w
  | .GNSS_SURVEY => s.plainWrite a fs i w
  | .GNSS_STREAM_CTL => s.streamCtlWrite a i w
  | .GNSS_STREAM_LO => s.streamLoWrite a i w
  | .GNSS_NOTCH => s.notchWrite a i w
  | _ => s.conclude a []

/-- Registers of MAC, SERDES, PTE, Postmarks and launches, FRANK and HOST. -/
def State.writeHigh (s : State) (a : Acs) (e : Env) (id : Reg) (fs : List Fld) (i w : Nat) : State × Nat :=
  match id with
  | .SDS_GRP_CTL => s.grpCtlWrite a i w
  | .SDS_GRP_AN => s.grpAnWrite a fs i w
  | .SDS_GRP_QL | .MAC_TAG | .MAC_FEC_THR | .PM_RX_OFS | .PM_TX_OFS => s.plainWrite a fs i w
  | .SDS_LN_CTL => s.laneCtlWrite a i w
  | .MAC_CTL => s.macCtlWrite a i w
  | .MAC_ADDR_LO | .MAC_ADDR_HI => s.macLockedWrite a fs i w
  | .MAC_FC => s.macFcWrite a i w
  | .MAC_CNT_ACK => s.ackWrite a (fun s => s.macAck i) w
  | .PM_CTL => s.pmCtlWrite a i w
  | .PM_RING_RD => s.pmRdWrite a i w
  | .LQ_CTL => s.lqCtlWrite a i w
  | .PTE_CTL => s.pteCtlWrite a w
  | .PTE_CLKID => s.clkIdWrite a fs w
  | .PTE_NEG => s.negWrite a w
  | .PTE_I_CTL => s.instCtlWrite a i w
  | .PTE_I_DS => s.instDsWrite a i w
  | .PTE_I_CC | .PTE_I_CC2 | .PTE_I_QUAL | .PTE_I_UTC | .PTE_I_UTCDAY => s.pteServiceWrite a fs i w
  | .PTE_PORT_CTL => s.portCtlWrite a i w
  | .PTE_PORT_RATE => s.portRateWrite a i w
  | .PTE_CLI_CTL => s.cliCtlWrite a i w
  | .PTE_CLI_RATE | .PTE_CLI_FILT | .PTE_CLI_ASYM | .PTE_CLI_UNC => s.cliLockedWrite a fs i w
  | .FRANK_CTL => s.frankCtlWrite a w
  | .FRANK_PIPE_OOS => s.pipeOosWrite a w
  | .FRANK_ADM | .FRANK_NTP_STRAT | .FRANK_NTP_ROOTDLY | .FRANK_NTP_REFID | .FRANK_NTP_PORTS | .FRANK_NTS_PORTS =>
    s.frankServiceWrite a fs i w
  | .FRANK_NTP_CTL => s.ntpCtlWrite a w
  | .FRANK_NTS_CTL => s.ntsCtlWrite a w
  | .FRANK_NTS_MKEY_CTL | .FRANK_NTS_MKEY_ID => s.mkeyWrite a fs i w
  | .HOST_CTL => s.hostCtlWrite a w
  | .HOST_CMD_BASE | .HOST_CPL_BASE | .HOST_EVT_BASE | .HOST_RING_SIZE => s.hostRingWrite a fs w
  | .HOST_CMD_TAIL => s.cmdTailWrite a w
  | .HOST_CPL_HEAD => s.cplHeadWrite a w
  | .HOST_EVT_HEAD => s.evtHeadWrite a w
  | .HOST_IRQ_MOD | .HOST_TMO | .HOST_MBX_CMD => s.hostServiceWrite a fs i w
  | .HOST_TXR_BASE => s.frBaseWrite a fs false i w
  | .HOST_RXR_BASE => s.frBaseWrite a fs true i w
  | .HOST_FR_CTL => s.frCtlWrite a i w
  | .HOST_TXR_TAIL => s.txTailWrite a i w
  | .HOST_RXR_TAIL => s.rxTailWrite a i w (e.bufs.getD i [])
  | .HOST_MBX_CTL => s.mbxCtlWrite a w
  | _ => s.conclude a []

/-- A write of the whole word `w` of register `r` at flat index `i`; a register with no writable field ignores it (Table REG-5). The
attribute word of a slate changes by command only, and a write of it answers CFG_LOCKED (R375). -/
def State.regWrite (s : State) (a : Acs) (e : Env) (r : RegDef) (i w : Nat) : State × Nat :=
  let fs := r.flds.filter (fun f => f.acc == Acc.rw)
  if r.base < 0x4000 ∨ 0x19000 ≤ r.base then s.writeLow a r.id fs i w
  else if r.base < 0xA000 then s.writeTime a r.id fs i w
  else if r.base < 0x10000 then s.writeMid a e r.id fs i w
  else s.writeHigh a e r.id fs i w

/-! ### Table windows (Table REG-3, R488) -/

/-- A write of word `o` (byte offset) of security association `k` (Table PTP-13, R334). -/
def State.saWrite (s : State) (a : Acs) (k o w : Nat) : State × Nat :=
  let ctl := s.saCtl k
  if 8 ≤ o then s.conclude a []
  else if bit ctl 31 then s.conclude a [Code.cfgLocked]
  else if o = 0 then
    let w := setBits w 8 10 0
    let n := saSlate w
    if bit w 31 ∧ !(s.on F.SLATE_ATTR_VALID n && s.rd F.SLATE_ATTR_USAGE n == Usage.ptp) then (s.noteErr a Code.keyAttr, Code.keyAttr)
    else (s.mwr (saAddr k) 4 w).conclude a []
  else (s.mwr (saAddr k + 4) 4 w).conclude a []

/-- A port's address entry is in use (R342). -/
def State.addrLocked (s : State) (p : Nat) : Bool :=
  s.on F.PTE_PORT_CTL_ROLE0 p || s.on F.PTE_PORT_CTL_ROLE1 p || s.ntpOn p ||
  (s.on F.FRANK_NTS_CTL_EN && bit (s.inF F.FRANK_NTS_PORTS_PORTS) p)

/-- A write of word `o` of port `p`'s address entry: bytes 24 to 31 are reserved, and the word at 20 holds no other bits. -/
def State.portAddrWrite (s : State) (a : Acs) (p o w : Nat) : State × Nat :=
  if 24 ≤ o then s.conclude a []
  else if s.addrLocked p then s.conclude a [Code.cfgLocked]
  else (s.mwr (portAddr p + o) 4 (if o = 20 then Nat.land w 0x00FF3F03 else w)).conclude a []

/-- The word address `x` lies in a table window. -/
def inWindow (x : Nat) : Bool :=
  (0x800000 ≤ x && x < 0x880800) || (0x900000 ≤ x && x < 0x9C0000) || (0xA00000 ≤ x && x < 0xA06000) ||
  (0xC00000 ≤ x && x < 0xF90000)

/-- A 32-bit write of the window word at `x`: under the rules of its chapter; the windows that the device alone writes ignore it. -/
def State.windowWrite (s : State) (a : Acs) (x w : Nat) : State × Nat :=
  if x < 0x880000 then s.conclude a [Code.cfgLocked]
  else if x < 0x880400 then s.saWrite a ((x - 0x880000) / 16) (x % 16) w
  else if x < 0x880800 then s.portAddrWrite a ((x - 0x880400) / 32) (x % 32) w
  else if x < 0xD00000 then s.conclude a []
  else if x < 0xD80000 then s.lqAccess a ((x - 0xD00000) / 0x10000) ((x - 0xD00000) % 0x10000 / 32) (x % 32) w
  else (s.mwr x 4 w).conclude a []

/-! ### Any word of the address space -/

/-- A write to a reserved location is counted and recorded at S0 (R487, R491). -/
def State.reservedWrite (s : State) (a : Acs) : State × Nat := ((s.inc F.TOP_ACC_CNT1_RSVD_WR).raise 5 a.snap, Code.ok)

/-- The register offset and the bit that the alias word at `x` stands for (R489). -/
def aliasOf (x : Nat) : Option (Nat × Nat) :=
  if 0x200000 ≤ x ∧ x < 0x600000 then some ((x - 0x200000) / 128 * 4, (x - 0x200000) / 4 % 32) else none

/-- Bit `b` of the whole word of register `r` belongs to a field. -/
def RegDef.hasBit (r : RegDef) (b : Nat) : Bool :=
  (List.range r.lanes).any (fun k => r.flds.any (fun f => decide (f.lo + k * r.lw ≤ b ∧ b < f.lo + f.w + k * r.lw)))

/-- The word address `x` belongs to a paired register (R494). -/
def isPaired (x : Nat) : Bool :=
  match (if x < 0x200000 then locate x else none) with
  | some (r, _, _) => r.wide
  | none => false

/-- What a 32-bit read of the word at `x` returns. -/
def State.read32 (s : State) (x : Nat) : Nat :=
  match aliasOf x with
  | some (o, b) => bits (s.wordAt o) b 1
  | none => if x < 0x200000 ∨ inWindow x then s.wordAt x else 0

/-- An aligned 32-bit write of `w` to the word at `x` of no paired register (R487 to R491, R497 to R502). -/
def State.write32 (s : State) (a : Acs) (e : Env) (x w : Nat) : State × Nat :=
  match aliasOf x with
  | some (o, b) =>
    match locate o with
    | none => s.reservedWrite a
    | some (r, i, h) =>
      let b := 32 * h + b
      if !r.hasBit b then s.conclude a [] else s.regWrite a e r i (setBit (s.regWord r i) b (bit w 0))
  | none =>
    if inWindow x then s.windowWrite a x w
    else if x < 0x20000 then
      match locate x with
      | some (r, i, _) => s.regWrite a e r i w
      | none => s.reservedWrite a
    else s.reservedWrite a

/-- The high-water mark of crossings into the domain of the word at `x` for requester `q` (R504): an access over BAR2 to a CORE register
leaves the HOST domain. -/
def xdomFld (q x : Nat) : Option Fld :=
  match locate (regOffset x) with
  | some (r, _, _) =>
    match r.dom with
    | .gnss => some F.TOP_XDOM_HWM_GNSS
    | .sds => some F.TOP_XDOM_HWM_SDS
    | .meas => some F.TOP_XDOM_HWM_MEAS
    | .host => some F.TOP_XDOM_HWM_HOST
    | .vbat => none
    | .core => if q = 3 then some F.TOP_XDOM_HWM_HOST else none
  | none => none

/-- The outcome `p` of an access, or, when its crossing has not completed within 4 µs, its abandonment (R507): the read returns 0, a write
has taken effect or not, and FS 6 is raised. -/
def State.crossed (s : State) (a : Acs) (e : Env) (p : State × Nat × Nat) : State × Nat × Nat :=
  match e.late.find? (fun x => x.1 == a.addr) with
  | none => p
  | some (_, applied) =>
    let s := if a.write && applied then p.1 else s
    let s := match xdomFld a.req a.addr with
      | some f => if s.rd f < 255 then s.wr f 255 else s
      | none => s
    ((s.raise 6 a.snap).noteErr a Code.deviceTimeout, Code.deviceTimeout, 0)

/-- An aligned 32-bit access: the state, the completion code and the value read (R492 to R494). Until READY a write from requester 3 or 4
outside the HOST block changes nothing (R548). -/
def State.access32 (s : State) (a : Acs) (e : Env) (w : Nat) : State × Nat × Nat :=
  if isPaired a.addr then let r := s.conclude a [Code.badSize]; (r.1, r.2, 0)
  else if a.write then
    let r := s.put a (fun s a => s.write32 a e a.addr (w % 2 ^ 32))
    if s.barred a then (r.1, r.2, 0) else s.crossed a e (r.1, r.2, 0)
  else s.crossed a e (s, Code.ok, s.read32 a.addr)

/-- A 64-bit access that begins no paired register: two 32-bit accesses at ascending addresses (R495). -/
def State.twoAccesses (s : State) (a : Acs) (e : Env) (data : Nat) : State × Nat × Nat :=
  let p := s.access32 { a with size := 2 } e (bits data 0 32)
  let q := p.1.access32 { a with addr := a.addr + 4, size := 2 } e (bits data 32 32)
  (q.1, if p.2.1 = Code.ok then q.2.1 else p.2.1, p.2.2 + 2 ^ 32 * q.2.2)

/-- A 64-bit access at the base of the paired register `r`, index `i`: atomic (R494). -/
def State.accessPair (s : State) (a : Acs) (e : Env) (r : RegDef) (i data : Nat) : State × Nat × Nat :=
  if a.write then
    let q := s.put a (fun s a => s.regWrite a e r i (data % 2 ^ 64))
    if s.barred a then (q.1, q.2, 0) else s.crossed a e (q.1, q.2, 0)
  else s.crossed a e (s, Code.ok, s.regWord r i)

/-- An access of any width, of the 24-bit address space (Table REG-4): the state, the completion code and the value read. -/
def State.access (s : State) (a : Acs) (e : Env) (data : Nat) : State × Nat × Nat :=
  let refuse := fun c => let r := s.conclude a [c]; (r.1, r.2, 0)
  if a.size < 2 then
    if a.addr % 2 ^ a.size ≠ 0 then refuse Code.badAlign
    else if a.write then refuse Code.badSize
    else
      let x := a.addr / 4 * 4
      if isPaired x then refuse Code.badSize
      else s.crossed a e (s, Code.ok, bits (s.read32 x) (8 * (a.addr % 4)) (8 * 2 ^ a.size))
  else if a.addr % 4 ≠ 0 then refuse Code.badAlign
  else if a.size = 2 then s.access32 a e data
  else
    match (if a.addr % 8 = 0 ∧ a.addr < 0x200000 then locate a.addr else none) with
    | some (r, i, 0) => if r.wide then s.accessPair a e r i data else s.twoAccesses a e data
    | _ => if a.addr % 8 = 4 ∧ (isPaired a.addr ∨ isPaired (a.addr + 4)) then refuse Code.badAlign else s.twoAccesses a e data

end Sys2Proof.Machine
end

