-- ==== Sys2Proof/Machine/Letterbox.lean ====
section
/-! DEFINITION. The Letterbox protocol (spec/12_host_letterbox.md): command records, the checks of a header, tags, order and limits, the
opcodes, and the register, table and system commands. -/
namespace Sys2Proof.Machine

/-! ### Command records (Table HOST-2): 16 words -/

def recOp (ws : List Nat) : Nat := bits (ws.getD 0 0) 0 16
def recTag (ws : List Nat) : Nat := bits (ws.getD 0 0) 16 10
def recDn (ws : List Nat) : Nat := bits (ws.getD 0 0) 26 6
def recLen (ws : List Nat) : Nat := bits (ws.getD 1 0) 0 24
def recPlen (ws : List Nat) : Nat := bits (ws.getD 1 0) 24 4
def recIn (ws : List Nat) : Bool := bit (ws.getD 1 0) 28
def recOut (ws : List Nat) : Bool := bit (ws.getD 1 0) 29
def recFence (ws : List Nat) : Bool := bit (ws.getD 1 0) 30
def recAddr (ws : List Nat) : Nat := ws.getD 2 0 % 2 ^ 32 + ws.getD 3 0 % 2 ^ 32 * 2 ^ 32

/-- The parameter words: those beyond PLEN are ignored (R412), and read 0 here. -/
def recParams (ws : List Nat) : List Nat :=
  (List.range 12).map (fun k => if k < recPlen ws then ws.getD (4 + k) 0 % 2 ^ 32 else 0)

/-- The opcodes of Table HOST-5. -/
def opcodes : List Nat :=
  [0x0101, 0x0102, 0x0103, 0x0201, 0x0202, 0x0301, 0x0302, 0x0303, 0x0304, 0x0310, 0x0311, 0x0320, 0x0321, 0x0330, 0x0331,
   0x0401, 0x0402, 0x0403, 0x0404, 0x0440, 0x0441, 0x0501, 0x0502, 0x0503, 0x0504, 0x0601, 0x0602, 0x0603, 0x0604, 0x0605,
   0x0606, 0x0701, 0x0801, 0x0802, 0x0803, 0x0F00, 0x0F01, 0x0F02]

/-- COUNT of `REG_RD` and `REG_WR`; 0 when out of range. -/
def regCount (p : List Nat) : Nat := let n := bits (p.getD 1 0) 0 13; if 4096 < n then 0 else n

/-- The bytes of `TBL_RD` and `TBL_WR`; 0 when out of range. -/
def tblBytes (p : List Nat) : Nat := let n := bits (p.getD 1 0) 0 21; if 1048576 < n ∨ n % 4 ≠ 0 then 0 else n

/-- The bytes that opcode `op` reads from its buffer, and whether it needs (2), may use (1) or does not use (0) BUF_IN. -/
def bufInOf (op : Nat) (p : List Nat) : Nat × Nat :=
  if op = 0x0102 then (4 * regCount p, if 10 < regCount p then 2 else 1)
  else if op = 0x0202 then (tblBytes p, 2)
  else if op = 0x0401 then (if bit (p.getD 0 0) 11 then 32 else 16, 2)
  else if op = 0x0402 then (bits (p.getD 1 0) 0 6 + bits (p.getD 1 0) 8 6, 2)
  else if op = 0x0441 then (64, 2)
  else if op = 0x0501 then (50, 2)
  else (0, 0)

/-- As `bufInOf`, for the bytes written and BUF_OUT. -/
def bufOutOf (op : Nat) (p : List Nat) : Nat × Nat :=
  if op = 0x0101 then (4 * regCount p, if 2 < regCount p then 2 else 1)
  else if op = 0x0201 then (tblBytes p, 2)
  else if op = 0x0304 then (16, 2)
  else if op = 0x0311 then (0x700, 2)
  else if op = 0x0321 then (0x1000, 2)
  else if op = 0x0441 then (100 * bits (p.getD 0 0) 0 4, 2)
  else (0, 0)

/-- The checks of a header that follow OPCODE, DN and TAG, in the order of R413: PLEN and the buffer flags, BUF_ADDR, BUF_LEN. -/
def headerCode (ws : List Nat) : Nat :=
  let i := bufInOf (recOp ws) (recParams ws)
  let o := bufOutOf (recOp ws) (recParams ws)
  if 12 < recPlen ws ∨ (recIn ws ∧ i.2 = 0) ∨ (!recIn ws ∧ i.2 = 2) ∨ (recOut ws ∧ o.2 = 0) ∨ (!recOut ws ∧ o.2 = 2) then Code.badParam
  else if !recIn ws ∧ !recOut ws then Code.ok
  else if recAddr ws % 8 ≠ 0 then Code.badAlign
  else if recLen ws < max (if recIn ws then i.1 else 0) (if recOut ws then o.1 else 0) then Code.badSize
  else Code.ok

/-! ### Register and table commands (Table HOST-6, R420 to R422) -/

/-- The requester that a command's accesses are made as (Table REG-7, R431, R556). -/
def State.reqOf (s : State) (c : CmdRef) : Nat :=
  match c.src with
  | .mailbox => s.host.mbxReq
  | .boot => 1
  | .mirror => 2
  | _ => 3

/-- `n` reads at ascending addresses, up to the first that fails: the state, the code, and the words read, behind `acc`. -/
def State.readRun : Nat → State → Acs → Env → List Nat → State × Nat × List Nat
  | 0, s, _, _, acc => (s, Code.ok, acc)
  | n + 1, s, a, e, acc =>
    let r := s.access a e 0
    if r.2.1 ≠ Code.ok then (r.1, r.2.1, acc)
    else if a.size = 3 then State.readRun n r.1 { a with addr := a.addr + 8 } e (acc ++ [r.2.2 % 2 ^ 32, r.2.2 / 2 ^ 32])
    else State.readRun n r.1 { a with addr := a.addr + 4 } e (acc ++ [r.2.2])

/-- Writes of the values `vs` at the addresses given with them, up to the first that fails: the state, the code, and how many were
made before it. -/
def State.writeRun : List (Nat × Nat) → State → Acs → Env → Nat → State × Nat × Nat
  | [], s, _, _, k => (s, Code.ok, k)
  | v :: vs, s, a, e, k =>
    let r := s.access { a with addr := v.1 } e v.2
    if r.2.1 ≠ Code.ok then (r.1, r.2.1, k) else State.writeRun vs r.1 a e (k + 1)

/-- Pairs of words as 64-bit values. -/
def pairUp : List Nat → List Nat
  | a :: b :: t => (a % 2 ^ 32 + b % 2 ^ 32 * 2 ^ 32) :: pairUp t
  | _ => []

/-- The parameters of `REG_RD` and `REG_WR` are refused with this code, or accepted. -/
def regParam (p : List Nat) : Nat :=
  let addr := bits (p.getD 0 0) 0 24
  let w64 := bit (p.getD 1 0) 16
  if regCount p = 0 ∨ 2 ^ 24 < addr + 4 * regCount p then Code.badParam
  else if w64 ∧ (regCount p % 2 = 1 ∨ addr % 8 ≠ 0) then Code.badAlign
  else Code.ok

/-- `REG_RD` with parameters `p`; `out` is the buffer, when BUF_OUT is set. -/
def State.regRd (s : State) (c : CmdRef) (p : List Nat) (out : Option Nat) (e : Env) : State :=
  if regParam p ≠ Code.ok then s.finish c (regParam p) else
  let n := regCount p
  let w64 := bit (p.getD 1 0) 16
  let r := State.readRun (if w64 then n / 2 else n) s ⟨s.reqOf c, bits (p.getD 0 0) 0 24, if w64 then 3 else 2, false⟩ e []
  if r.2.1 ≠ Code.ok then r.1.finish c r.2.1 (if w64 then r.2.2.length / 2 else r.2.2.length)
  else match out with
    | some buf => (r.1.outBuf c buf r.2.2).finish c Code.ok n 0 (4 * n)
    | none => r.1.finish c Code.ok (r.2.2.getD 0 0) (r.2.2.getD 1 0)

/-- `REG_WR` with parameters `p`; `input` is what the buffer holds, when BUF_IN is set. -/
def State.regWr (s : State) (c : CmdRef) (p : List Nat) (input : Option (List Nat)) (e : Env) : State :=
  if regParam p ≠ Code.ok then s.finish c (regParam p) else
  let n := regCount p
  let w64 := bit (p.getD 1 0) 16
  let addr := bits (p.getD 0 0) 0 24
  let ws := (match input with | some l => padTo n (wordsOf l) | none => padTo n (p.drop 2)).take n
  let vs := if w64 then (pairUp ws).zipIdx.map (fun v => (addr + 8 * v.2, v.1)) else ws.zipIdx.map (fun v => (addr + 4 * v.2, v.1))
  let r := State.writeRun vs s ⟨s.reqOf c, addr, if w64 then 3 else 2, true⟩ e 0
  r.1.finish c r.2.1 (if r.2.1 = Code.ok then n else r.2.2)

/-- `REG_RMW` with parameters `p` (R421). -/
def State.regRmw (s : State) (c : CmdRef) (p : List Nat) (e : Env) : State :=
  let addr := bits (p.getD 0 0) 0 24
  let mask := p.getD 1 0 % 2 ^ 32
  let old := if addr % 4 = 0 ∧ !isPaired addr then s.read32 addr else 0
  let v := Nat.lor (Nat.land old (2 ^ 32 - 1 - mask)) (Nat.land (p.getD 2 0) mask)
  let r := s.access ⟨s.reqOf c, addr, 2, true⟩ e v
  r.1.finish c r.2.1 old

/-- The parameters of `TBL_RD` and `TBL_WR` are in range. -/
def tblOk (p : List Nat) : Bool :=
  let addr := bits (p.getD 0 0) 0 24
  tblBytes p != 0 && 0x800000 ≤ addr && addr % 4 == 0 && addr + tblBytes p ≤ 2 ^ 24

/-- `TBL_RD` with parameters `p` into the buffer at `buf`. -/
def State.tblRd (s : State) (c : CmdRef) (p : List Nat) (buf : Nat) : State :=
  if !tblOk p then s.finish c Code.badParam else
  let n := tblBytes p
  let addr := bits (p.getD 0 0) 0 24
  (s.outBuf c buf ((List.range (n / 4)).map (fun k => s.read32 (addr + 4 * k)))).finish c Code.ok n 0 n

/-- The words of a table write in the order they are made: the CTL words of security associations last, since a record is written
whole and the locks are judged against the state before the write (R334, R422, R501). -/
def tblOrder (vs : List (Nat × Nat)) : List (Nat × Nat) :=
  let ctl := fun v : Nat × Nat => 0x880000 ≤ v.1 && v.1 < 0x880400 && v.1 % 16 == 0
  vs.filter (fun v => !ctl v) ++ vs.filter ctl

/-- `TBL_WR` with parameters `p` and the buffer's bytes `input`. One that KEY_ATTR refuses writes nothing (R334). -/
def State.tblWr (s : State) (c : CmdRef) (p : List Nat) (input : List Nat) (e : Env) : State :=
  if !tblOk p then s.finish c Code.badParam else
  let n := tblBytes p
  let addr := bits (p.getD 0 0) 0 24
  let ws := (padTo (n / 4) (wordsOf input)).take (n / 4)
  let r := State.writeRun (tblOrder (ws.zipIdx.map (fun v => (addr + 4 * v.2, v.1)))) s ⟨s.reqOf c, addr, 2, true⟩ e 0
  if r.2.1 = Code.keyAttr then ({ r.1 with mem := s.mem }).finish c Code.keyAttr 0
  else r.1.finish c r.2.1 (4 * r.2.2)

/-! ### Snapshots of a block (R125, R151) -/

/-- `ENS_SNAP`: 0x0_8000–0x0_86FF, all from one GEN, go to the host buffer at `buf`. -/
def State.ensSnap (s : State) (c : CmdRef) (buf : Nat) : State :=
  (s.outBuf c buf (s.wordsAt 0x8000 0x1C0)).finish c Code.ok 0 0 0x700

/-- `EAVES_SNAP`: 0x0_9000–0x0_9FFF, from one GEN, go to the host buffer at `buf`. -/
def State.eavesSnap (s : State) (c : CmdRef) (buf : Nat) : State :=
  (s.outBuf c buf (s.wordsAt 0x9000 0x400)).finish c Code.ok 0 0 0x1000

/-! ### System commands (Table HOST-7) -/

/-- `SYS_NOP`. -/
def State.sysNop (s : State) (c : CmdRef) : State := s.finish c Code.ok (s.wordAt 0) (s.rd F.RIDGE_BEAT_SEQ_SEQ)

/-- `SYS_RESET` (R423, R424, R559): every other command for this device completes, then this one, and the core resets; start-up then runs
from step 3. -/
def State.sysReset (s : State) (c : CmdRef) : State :=
  let s := s.discardCommands Code.discardedReset (some c)
  let s := s.finishAll ((dedupRefs s.appliedRefs).filter (fun r => r != c)) Code.ok
  ((s.finish c Code.ok).beforeReset).resetDevice 2 3

/-- The outputs are released (R558), which `SYS_RELEASE` commands that wait complete with. -/
def State.releaseOutputs (s : State) : State :=
  let l := s.pwr.release
  ((s.wr F.OUT_STAT_RELEASED 1).modPwr (fun p => { p with release := [] })).finishAll l Code.ok

/-- `SYS_RELEASE` (R558). -/
def State.sysRelease (s : State) (c : CmdRef) : State :=
  if s.on F.OUT_STAT_RELEASED then s.finish c Code.ok
  else if s.on F.TOP_STAT_READY then s.releaseOutputs.finish c Code.ok
  else s.modPwr (fun p => { p with release := p.release ++ [c] })

/-! ### The opcodes -/

/-- The state of an outcome. -/
def outState (s : State) : Host.Outcome State Fault Refusal → State
  | .next t => t
  | _ => s

/-- A command of class Time or lower runs on this device. -/
def State.runTime (s : State) (c : CmdRef) (op : Nat) (p : List Nat) (buf : List Nat) (out : Option Nat) (inp : Bool) (e : Env) : State :=
  let q := fun k => p.getD k 0
  let wide := fun k => q k + q (k + 1) * 2 ^ 32
  if op = 0x0101 then s.regRd c p out e
  else if op = 0x0102 then s.regWr c p (if inp then some buf else none) e
  else if op = 0x0103 then s.regRmw c p e
  else if op = 0x0201 then s.tblRd c p (out.getD 0)
  else if op = 0x0202 then s.tblWr c p buf e
  else if op = 0x0301 then outState s (execTimeStep c (q 0) (wide 1) s)
  else if op = 0x0302 then outState s (execTimeSlew c (q 0) (wide 1) (q 3) s)
  else if op = 0x0303 then outState s (execTimeMap c (q 0) s)
  else if op = 0x0304 then outState s (execTimeSnap c (out.getD 0) s)
  else if op = 0x0310 then outState s (execRefRequal c (q 0) s)
  else if op = 0x0311 then s.ensSnap c (out.getD 0)
  else if op = 0x0320 then outState s (execOscSend c (q 0) (p.drop 1) s)
  else if op = 0x0321 then s.eavesSnap c (out.getD 0)
  else if op = 0x0330 then outState s (execOutAlign c (q 0) (q 1) s)
  else outState s (execApllReturn c (q 0) s)

/-- A command of class Keys, Sessions, GNSS, Maintenance, Pair or System runs on this device. -/
def State.runRest (s : State) (c : CmdRef) (op : Nat) (p : List Nat) (buf : List Nat) (out : Option Nat) : State :=
  let q := fun k => p.getD k 0
  if op = 0x0401 then outState s (execSlateLoad c (q 0) (buf.take (bufInOf op p).1) s)
  else if op = 0x0402 then outState s (execSlateDerive c (q 0) (q 1) (buf.take (bufInOf op p).1) s)
  else if op = 0x0403 then outState s (execSlateInvalidate c (q 0) s)
  else if op = 0x0404 then outState s (execSlateKcv c (q 0) s)
  else if op = 0x0440 then outState s (execNtsRotate c (q 0) (q 1) s)
  else if op = 0x0441 then outState s (execNtsCookieSeal c (q 0) (q 1) (buf.take 64) (out.getD 0) s)
  else if op = 0x0501 then outState s (execSessAdd c (q 0) (buf.take 50) s)
  else if op = 0x0502 then outState s (execSessDel c (q 0) s)
  else if op = 0x0503 then outState s (execSessSa c (q 0) s)
  else if op = 0x0504 then outState s (execSessFlush c (q 0) s)
  else if op = 0x0601 then outState s (execGnssSleep c (q 0) s)
  else if op = 0x0602 then outState s (execGnssWake c s)
  else if op = 0x0603 then outState s (execGnssSurvey c (q 0) s)
  else if op = 0x0604 then outState s (execGnssChAssign c (q 0) s)
  else if op = 0x0605 then outState s (execGnssHintSave c s)
  else if op = 0x0606 then outState s (execGnssCold c s)
  else if op = 0x0701 then outState s (execMaintRun c (q 0) s)
  else if op = 0x0801 then outState s (execPairTake c (q 0) s)
  else if op = 0x0802 then outState s (execPairYield c s)
  else if op = 0x0803 then outState s (execPairTest c (q 0) s)
  else if op = 0x0F00 then s.sysNop c
  else if op = 0x0F01 then s.sysReset c
  else s.sysRelease c

/-- The command with record `ws` runs on this device, `buf` being the bytes of its input buffer (Table HOST-5). -/
def State.runCmd (s : State) (c : CmdRef) (ws : List Nat) (buf : List Nat) (e : Env) : State :=
  let op := recOp ws
  let p := recParams ws
  let out := if recOut ws then some (recAddr ws) else none
  if op < 0x0400 then s.runTime c op p buf out (recIn ws) e else s.runRest c op p buf out

/-! ### Tags, order and limits (R413 to R418) -/

/-- Device `dn` can be reached: it is this one, or the root finds it in the tree. -/
def State.dnThere (s : State) (dn : Nat) : Bool :=
  dn == s.rd F.NOR_STAT_DN || (s.norRoot && bit (s.rd F.NOR_PRESENT_MASK) dn)

/-- A command that the rings or the mailbox issued, as against one that came over Noryr or from the image. -/
def hostSide (c : CmdRef) : Bool := c.src == CmdSrc.ring || c.src == CmdSrc.mailbox

/-- Commands in flight for device `dn` that count under R416. -/
def State.flightCnt (s : State) (dn : Nat) : Nat := s.host.inflight.countP (fun x => hostSide x.ref && x.ref.dn == dn)

/-- A mailbox command's buffer lies within the mailbox window (R431). -/
def mbxBufOk (ws : List Nat) : Bool :=
  (!recIn ws && !recOut ws) || (0xF80000 ≤ recAddr ws && recAddr ws + recLen ws ≤ 0xF90000)

/-- A record is taken from `src`: its header is checked in the order of R413, and it is in flight, or completes at once. -/
def State.takeRecord (s : State) (src : CmdSrc) (ws : List Nat) : State × Option CmdRef :=
  let r : CmdRef := ⟨src, recDn ws, recTag ws, s.host.ser⟩
  let s := { s with host := { s.host with ser := s.host.ser + 1 } }
  if !opcodes.contains (recOp ws) then (s.finish r Code.badOpcode, none)
  else if !s.dnThere (recDn ws) then (s.finish r Code.deviceTimeout, none)
  else if hostSide r && s.host.inflight.any (fun x => hostSide x.ref && x.ref.dn == r.dn && x.ref.tag == r.tag) then
    ((s.complete ⟨r, Code.badParam, false, false, true, 0, 0, 0⟩).raise 156, none)
  else if headerCode ws ≠ Code.ok then (s.finish r (headerCode ws), none)
  else if src = CmdSrc.mailbox ∧ !mbxBufOk ws then (s.finish r Code.badParam, none)
  else
    let s := { s with host := { s.host with inflight := s.host.inflight ++ [InFlight.mk r ws false none] } }
    (s.showInflight, some r)

/-- Command `x` may start (R417, R548): READY, every earlier command to its device has started, and under FENCE has completed. -/
def State.mayStart (s : State) (x : InFlight) : Bool :=
  let earlier := (s.host.inflight.takeWhile (fun y => y.ref != x.ref)).filter (fun y => hostSide y.ref == hostSide x.ref && y.ref.dn == x.ref.dn)
  !x.started && s.on F.TOP_STAT_READY && earlier.all (fun y => y.started) && (!recFence x.words || earlier.isEmpty)

/-- A command for another device leaves on the port that leads there, its input before it (R444). -/
def State.routeCmd (s : State) (x : InFlight) (buf : List Nat) : State :=
  let dn := x.ref.dn
  match (List.range 4).find? (fun j => bit (s.rd F.NOR_ROUTE_MASK j) dn) with
  | none => s.timeoutCmd x.ref
  | some j =>
    let ws := wordsOf (padTo (4 * ceilDiv (recLen x.words) 4) (buf.take (recLen x.words)))
    let s := if recIn x.words then
        (bufPayloads (ws.length + 1) 0 ws).foldl (fun s p => s.norQueue j 6 ⟨NorT.bufIn, dn, 0, x.ref.tag, p⟩) s
      else s
    s.norQueue j 6 ⟨NorT.cmd, dn, 0, x.ref.tag, x.words⟩

/-- A command in flight, marked as started if it is `c`. -/
def InFlight.start (c : CmdRef) (y : InFlight) : InFlight := if y.ref == c then { y with started := true } else y

/-- Command `x` starts. `buf` is its input; `rdFail` says that the DMA read of it fails, and `wrFail` after how many bytes the DMA writes
of its output fail (R419). -/
def State.startCmd (s : State) (x : InFlight) (buf : List Nat) (rdFail : Bool) (wrFail : Option Nat) (e : Env) : State :=
  let s := { s with host := { s.host with
    inflight := s.host.inflight.map (InFlight.start x.ref) } }
  if recIn x.words && rdFail then (s.complete ⟨x.ref, Code.badParam, false, true, false, 0, 0, 0⟩).raise 158 0
  else if x.ref.dn ≠ s.rd F.NOR_STAT_DN then s.routeCmd x buf
  else
    let s := { s with host := { s.host with outFail := if recOut x.words then wrFail else none } }
    let s := s.runCmd x.ref x.words buf e
    let short := match s.host.outFail with
      | some k => decide (k < (bufOutOf (recOp x.words) (recParams x.words)).1)
      | none => false
    let s := { s with host := { s.host with outFail := none } }
    if short then s.raise 158 1 else s

/-- The input of a command, from where its source has it: the mailbox window, what Noryr has brought, or `buf` from host memory. -/
def State.inputOf (s : State) (x : InFlight) (buf : List Nat) : List Nat :=
  match x.ref.src with
  | .mailbox => s.mbytes (recAddr x.words) (recLen x.words)
  | .noryr =>
    ((s.nor.bufIn.filter (fun b => b.1 == x.ref.tag)).foldl (fun l b => overlay (padTo (b.2.1 + 4 * b.2.2.length) l) b.2.1 (wordBytes b.2.2)) [])
  | _ => buf

/-- The first command in flight that may start does, if there is one. -/
def State.startNext (s : State) (buf : List Nat) (rdFail : Bool) (wrFail : Option Nat) (e : Env) : State :=
  match s.host.inflight.find? s.mayStart with
  | some x =>
    let s := s.startCmd x (s.inputOf x buf) (rdFail && x.ref.src == CmdSrc.ring) (if x.ref.src = CmdSrc.ring then wrFail else none) e
    if x.ref.src = CmdSrc.noryr then { s with nor := { s.nor with bufIn := s.nor.bufIn.filter (fun b => b.1 != x.ref.tag) } } else s
  | none => s

/-- A mailbox GO that has been accepted dispatches the record in HOST_MBX_CMD (R431), when its device has room (R416). -/
def State.settleBox (s : State) (e : Env) : State :=
  if !s.host.mbxGo then s else
  let ws := (List.range 16).map (fun k => s.rd F.HOST_MBX_CMD_WORD k)
  if 1024 ≤ s.flightCnt (recDn ws) then s else
  let s := { s with host := { s.host with mbxGo := false } }
  let r := s.takeRecord CmdSrc.mailbox ws
  match r.2 with
  | none => r.1
  | some ref =>
    match r.1.host.inflight.find? (fun x => x.ref == ref) with
    | some x => if r.1.mayStart x then r.1.startCmd x (r.1.inputOf x []) false none e else r.1
    | none => r.1

/-- The device may fetch a record for device `dn` (R401, R409, R416, R419, R433). -/
def State.mayFetch (s : State) (dn : Nat) : Bool :=
  s.host.running && !s.host.stopping && !s.on F.HOST_STAT_CMD_ERR && !s.on F.HOST_STAT_D3HOT && s.host.held.isEmpty &&
  s.rd F.HOST_CMD_HEAD_PTR != s.rd F.HOST_CMD_TAIL_PTR && decide (s.flightCnt dn < 1024)

/-- A record `ws` is fetched: HEAD advances, and its header is checked (R407, R413). -/
def State.fetchRecord (s : State) (ws : List Nat) : State × Option CmdRef :=
  let s := s.wr F.HOST_CMD_HEAD_PTR (ptrNext (s.rd F.HOST_RING_SIZE_CMD) 12 (s.rd F.HOST_CMD_HEAD_PTR))
  (s.inc F.HOST_CNT_CMD_COUNT).takeRecord CmdSrc.ring ws

/-- `CMD_FETCH`: the record `ws` at HOST_CMD_HEAD is fetched, or cannot be (`recFail`), and starts when it may; with no record, a command
that was held starts. The other operands are as in `startCmd`. -/
def execCmdFetch (ws buf : List Nat) (recFail rdFail : Bool) (wrFail : Option Nat) (e : Env) (s : State) :
    Host.Outcome State Fault Refusal :=
  if recFail then
    if s.mayFetch 0 then done ((s.wr F.HOST_STAT_CMD_ERR 1).raise 158 0) else done s
  else if ws.isEmpty then done ((s.startNext buf rdFail wrFail e).settleBox e)
  else if !s.mayFetch (recDn ws) then done s
  else
    let r := s.fetchRecord ws
    match r.2 with
    | none => done r.1
    | some ref =>
      match r.1.host.inflight.find? (fun x => x.ref == ref) with
      | some x => done ((if r.1.mayStart x then r.1.startCmd x buf rdFail wrFail e else r.1).settleBox e)
      | none => done r.1

/-! ### The commands' own rows -/

/-- `REG_RD`: parameters `p`; `out` is the buffer, when BUF_OUT is set. -/
def execRegRd (c : CmdRef) (p : List Nat) (out : Option Nat) (e : Env) (s : State) : Host.Outcome State Fault Refusal :=
  done (s.regRd c p out e)

/-- `REG_WR`: parameters `p`; `input` is what the buffer holds, when BUF_IN is set. -/
def execRegWr (c : CmdRef) (p : List Nat) (input : Option (List Nat)) (e : Env) (s : State) : Host.Outcome State Fault Refusal :=
  done ((s.regWr c p input e).settleBox e)

/-- `REG_RMW`: parameters `p`. -/
def execRegRmw (c : CmdRef) (p : List Nat) (e : Env) (s : State) : Host.Outcome State Fault Refusal :=
  done ((s.regRmw c p e).settleBox e)

/-- `TBL_RD`: parameters `p`, into the buffer at `buf`. -/
def execTblRd (c : CmdRef) (p : List Nat) (buf : Nat) (s : State) : Host.Outcome State Fault Refusal := done (s.tblRd c p buf)

/-- `TBL_WR`: parameters `p`, and the bytes of the buffer. -/
def execTblWr (c : CmdRef) (p input : List Nat) (e : Env) (s : State) : Host.Outcome State Fault Refusal := done (s.tblWr c p input e)

/-- `ENS_SNAP` into the buffer at `buf`. -/
def execEnsSnap (c : CmdRef) (buf : Nat) (s : State) : Host.Outcome State Fault Refusal := done (s.ensSnap c buf)

/-- `EAVES_SNAP` into the buffer at `buf`. -/
def execEavesSnap (c : CmdRef) (buf : Nat) (s : State) : Host.Outcome State Fault Refusal := done (s.eavesSnap c buf)

/-- `SYS_NOP`. -/
def execSysNop (c : CmdRef) (s : State) : Host.Outcome State Fault Refusal := done (s.sysNop c)

/-- `SYS_RESET`. -/
def execSysReset (c : CmdRef) (s : State) : Host.Outcome State Fault Refusal := done (s.sysReset c)

/-- `SYS_RELEASE`. -/
def execSysRelease (c : CmdRef) (s : State) : Host.Outcome State Fault Refusal := done (s.sysRelease c)

/-- `MAILBOX_GO`: requester `req` writes HOST_MBX_CTL with GO = 1; `w` gives the other bits. -/
def execMailboxGo (req w : Nat) (e : Env) (s : State) : Host.Outcome State Fault Refusal :=
  done ((s.put ⟨req, 0x18840, 2, true⟩ (fun s a => s.mbxCtlWrite a (setBit w 0 true))).1.settleBox e)

end Sys2Proof.Machine
end

