-- ==== Sys2Proof/Machine/Bar.lean ====
section
/-! DEFINITION. The paths of a register access from outside (spec/12_host_letterbox.md, spec/15_registers_map.md): BAR2, the bit-alias
region and the management SPI. -/
namespace Sys2Proof.Machine

/-- `REGISTER_WRITE`: requester `req` writes `data` at byte address `addr`; `size` is 0 to 3 for 8, 16, 32 and 64 bits (R501). -/
def execRegisterWrite (req addr size data : Nat) (e : Env) (s : State) : Host.Outcome State Fault Refusal :=
  done ((s.access ⟨req, addr, size, true⟩ e data).1.settleBox e)

/-- The alias word of bit `b` of the register at offset `o` (R489). -/
def aliasAddr (o b : Nat) : Nat := 0x200000 + o * 32 + b * 4

/-- `ALIAS_WRITE`: requester `req` writes `v` to the alias word of bit `b` of the register at offset `o` (R490). -/
def execAliasWrite (req o b v : Nat) (e : Env) (s : State) : Host.Outcome State Fault Refusal :=
  done ((s.access ⟨req, aliasAddr o b, 2, true⟩ e v).1.settleBox e)

/-! ### The management SPI (Table HOST-12, R428 to R430) -/

/-- STATUS records a refusal with code `code`. -/
def State.noteMspi (s : State) (code : Nat) : State :=
  if code = Code.ok then s else
  { s with host := { s.host with mspiCode := code, mspiCnt := min 255 (s.host.mspiCnt + 1) } }

/-- An access of the MSPI: STATUS records its refusal. -/
def State.mspiAccess (s : State) (a : Acs) (e : Env) (data : Nat) : State × Nat :=
  let r := s.access a e data
  (r.1.noteMspi r.2.1, r.2.2)

/-- `CROSSING_TIMEOUT`: the crossing of an access has not completed within 4 µs; `applied` says whether a write has taken effect (R507). -/
def execCrossingTimeout (req addr size : Nat) (write applied : Bool) (data : Nat) (e : Env) (s : State) :
    Host.Outcome State Fault Refusal :=
  let e := { e with late := [(addr, applied)] }
  let a : Acs := ⟨req, addr, size, write⟩
  done ((if req = 4 then (s.mspiAccess a e data).1 else (s.access a e data).1).settleBox e)

/-- The address `x` is the base of a paired register. -/
def pairBase (x : Nat) : Bool := isPaired x && x % 8 == 0

/-- `n` data words read from ascending addresses, behind `acc`. -/
def State.mspiReads : Nat → State → Nat → Env → List Nat → State × List Nat
  | 0, s, _, _, acc => (s, acc)
  | 1, s, x, e, acc => let r := s.mspiAccess ⟨4, x, 2, false⟩ e 0; (r.1, acc ++ [r.2])
  | n + 2, s, x, e, acc =>
    if pairBase x then
      let r := s.mspiAccess ⟨4, x, 3, false⟩ e 0
      State.mspiReads n r.1 ((x + 8) % 2 ^ 24) e (acc ++ [r.2 % 2 ^ 32, r.2 / 2 ^ 32])
    else
      let r := s.mspiAccess ⟨4, x, 2, false⟩ e 0
      State.mspiReads (n + 1) r.1 ((x + 4) % 2 ^ 24) e (acc ++ [r.2])

/-- Whole data words written to ascending addresses. -/
def State.mspiWrites : List Nat → State → Nat → Env → State
  | [], s, _, _ => s
  | [w], s, x, e => (s.mspiAccess ⟨4, x, 2, true⟩ e w).1
  | w :: v :: t, s, x, e =>
    if pairBase x then State.mspiWrites t (s.mspiAccess ⟨4, x, 3, true⟩ e (w + v * 2 ^ 32)).1 ((x + 8) % 2 ^ 24) e
    else State.mspiWrites (v :: t) (s.mspiAccess ⟨4, x, 2, true⟩ e w).1 ((x + 4) % 2 ^ 24) e

/-- `MSPI_READ`: READ of `n` words from address `addr`; the bytes are shifted out. An unaligned start reads zeros. -/
def execMspiRead (addr n : Nat) (e : Env) (s : State) : Host.Outcome State Fault Refusal :=
  let x := addr % 2 ^ 24
  if n = 0 then done s
  else if x % 4 ≠ 0 then done ((s.mspiAccess ⟨4, x, 2, false⟩ e 0).1.emit (.mspi (List.replicate (4 * n) 0)))
  else
    let r := s.mspiReads n x e []
    done (r.1.emit (.mspi (wordBytes r.2)))

/-- `MSPI_WRITE`: WRITE of the bytes `data` to address `addr`; 1 to 3 bytes left over write nothing and are recorded as BAD_SIZE. -/
def execMspiWrite (addr : Nat) (data : List Nat) (e : Env) (s : State) : Host.Outcome State Fault Refusal :=
  let x := addr % 2 ^ 24
  if data.isEmpty then done s
  else if x % 4 ≠ 0 then done (s.mspiAccess ⟨4, x, 2, true⟩ e 0).1
  else
    let s := s.mspiWrites (wordsOf (data.take (data.length / 4 * 4))) x e
    done ((if data.length % 4 = 0 then s else s.noteMspi Code.badSize).settleBox e)

/-- `MSPI_STATUS`: the code of the last refused access, the refusals since the last STATUS, MBX_DONE and READY, and 0; the code and the
count then clear. -/
def execMspiStatus (s : State) : Host.Outcome State Fault Refusal :=
  let b := (s.on F.HOST_MBX_CTL_DONE).toNat + 2 * (s.on F.TOP_STAT_READY).toNat
  let s := s.emit (.mspi [s.host.mspiCode, s.host.mspiCnt, b, 0])
  done { s with host := { s.host with mspiCode := 0, mspiCnt := 0 } }

/-! ### BAR2 (R404) -/

/-- `n` words of a read TLP, behind `acc`. -/
def State.tlpReads : Nat → State → Nat → Env → List Nat → State × List Nat
  | 0, s, _, _, acc => (s, acc)
  | 1, s, x, e, acc => let r := s.access ⟨3, x, 2, false⟩ e 0; (r.1, acc ++ [r.2.2])
  | n + 2, s, x, e, acc =>
    if pairBase x then
      let r := s.access ⟨3, x, 3, false⟩ e 0
      State.tlpReads n r.1 (x + 8) e (acc ++ [r.2.2 % 2 ^ 32, r.2.2 / 2 ^ 32])
    else
      let r := s.access ⟨3, x, 2, false⟩ e 0
      State.tlpReads (n + 1) r.1 (x + 4) e (acc ++ [r.2.2])

/-- The words of a write TLP. -/
def State.tlpWrites : List Nat → State → Nat → Env → State
  | [], s, _, _ => s
  | [w], s, x, e => (s.access ⟨3, x, 2, true⟩ e w).1
  | w :: v :: t, s, x, e =>
    if pairBase x then State.tlpWrites t (s.access ⟨3, x, 3, true⟩ e (w % 2 ^ 32 + v * 2 ^ 32)).1 (x + 8) e
    else State.tlpWrites (v :: t) (s.access ⟨3, x, 2, true⟩ e w).1 (x + 4) e

/-- `BAR2_ACCESS`: a TLP of `dw` DW at offset `addr` reads, or writes `data`. -/
def execBar2Access (write : Bool) (addr dw : Nat) (data : List Nat) (e : Env) (s : State) : Host.Outcome State Fault Refusal :=
  let x := addr % 2 ^ 24 / 4 * 4
  if 16 < dw then done (if write then s.raise 153 else (s.emit (.tlp true [])).raise 153)
  else if write then done ((s.tlpWrites ((padTo dw data).take dw) x e).settleBox e)
  else
    let r := s.tlpReads dw x e []
    done (r.1.emit (.tlp false r.2))

end Sys2Proof.Machine
end

