-- ==== Sys2Proof/Machine/Ecdsa.lean ====
section
/-! DEFINITION. The algorithms that verify a configuration image (Table PWR-3): SHA-384 (FIPS 180-4) and ECDSA over P-384 (FIPS 186-4),
on lists of bytes. The spec names them by their standards; their arithmetic is taken from those standards (assumption 14). -/
namespace Sys2Proof.Machine

/-! ### SHA-384 -/

/-- The round constants of SHA-384. -/
def sha5K : List Nat :=
  [0x428a2f98d728ae22, 0x7137449123ef65cd, 0xb5c0fbcfec4d3b2f, 0xe9b5dba58189dbbc, 0x3956c25bf348b538,
   0x59f111f1b605d019, 0x923f82a4af194f9b, 0xab1c5ed5da6d8118, 0xd807aa98a3030242, 0x12835b0145706fbe,
   0x243185be4ee4b28c, 0x550c7dc3d5ffb4e2, 0x72be5d74f27b896f, 0x80deb1fe3b1696b1, 0x9bdc06a725c71235,
   0xc19bf174cf692694] ++
  [0xe49b69c19ef14ad2, 0xefbe4786384f25e3, 0x0fc19dc68b8cd5b5, 0x240ca1cc77ac9c65, 0x2de92c6f592b0275,
   0x4a7484aa6ea6e483, 0x5cb0a9dcbd41fbd4, 0x76f988da831153b5, 0x983e5152ee66dfab, 0xa831c66d2db43210,
   0xb00327c898fb213f, 0xbf597fc7beef0ee4, 0xc6e00bf33da88fc2, 0xd5a79147930aa725, 0x06ca6351e003826f,
   0x142929670a0e6e70] ++
  [0x27b70a8546d22ffc, 0x2e1b21385c26c926, 0x4d2c6dfc5ac42aed, 0x53380d139d95b3df, 0x650a73548baf63de,
   0x766a0abb3c77b2a8, 0x81c2c92e47edaee6, 0x92722c851482353b, 0xa2bfe8a14cf10364, 0xa81a664bbc423001,
   0xc24b8b70d0f89791, 0xc76c51a30654be30, 0xd192e819d6ef5218, 0xd69906245565a910, 0xf40e35855771202a,
   0x106aa07032bbd1b8] ++
  [0x19a4c116b8d2d0c8, 0x1e376c085141ab53, 0x2748774cdf8eeb99, 0x34b0bcb5e19b48a8, 0x391c0cb3c5c95a63,
   0x4ed8aa4ae3418acb, 0x5b9cca4f7763e373, 0x682e6ff3d6b2b8a3, 0x748f82ee5defb2fc, 0x78a5636f43172f60,
   0x84c87814a1f0ab72, 0x8cc702081a6439ec, 0x90befffa23631e28, 0xa4506cebde82bde9, 0xbef9a3f7b2c67915,
   0xc67178f2e372532b] ++
  [0xca273eceea26619c, 0xd186b8c721c0c207, 0xeada7dd6cde0eb1e, 0xf57d4f7fee6ed178, 0x06f067aa72176fba,
   0x0a637dc5a2c898a6, 0x113f9804bef90dae, 0x1b710b35131c471b, 0x28db77f523047d84, 0x32caab7b40c72493,
   0x3c9ebe0a15c9bebc, 0x431d67c49c100d4c, 0x4cc5d4becb3e42b6, 0x597f299cfc657e2a, 0x5fcb6fab3ad6faec,
   0x6c44198c4a475817]

/-- The initial hash value of SHA-384. -/
def sha384Init : List Nat :=
  [0xcbbb9d5dc1059ed8, 0x629a292a367cd507, 0x9159015a3070dd17, 0x152fecd8f70e5939,
   0x67332667ffc00b31, 0x8eb44a8768581511, 0xdb0c2e0d64f98fa7, 0x47b5481dbefa4fa4]

/-- `x` rotated right by `n` in 64 bits. -/
def rotr64 (x n : Nat) : Nat := x / 2 ^ n + x % 2 ^ n * 2 ^ (64 - n)

/-- The sum of `l` in 64 bits. -/
def add64 (l : List Nat) : Nat := l.sum % 2 ^ 64

/-- `n` more words of the message schedule, `w` holding the words so far, newest first. -/
def sha5Schedule : Nat → List Nat → List Nat
  | 0, w => w
  | n + 1, w =>
    let a := w.getD 14 0
    let b := w.getD 1 0
    let s0 := Nat.xor (rotr64 a 1) (Nat.xor (rotr64 a 8) (a / 128))
    let s1 := Nat.xor (rotr64 b 19) (Nat.xor (rotr64 b 61) (b / 64))
    sha5Schedule n (add64 [w.getD 15 0, s0, w.getD 6 0, s1] :: w)

/-- One round on the eight working words, with the round's constant and schedule word. -/
def sha5Round (v : List Nat) (k w : Nat) : List Nat :=
  let x := fun i => v.getD i 0
  let s1 := Nat.xor (rotr64 (x 4) 14) (Nat.xor (rotr64 (x 4) 18) (rotr64 (x 4) 41))
  let ch := Nat.xor (Nat.land (x 4) (x 5)) (Nat.land (2 ^ 64 - 1 - x 4) (x 6))
  let t1 := add64 [x 7, s1, ch, k, w]
  let s0 := Nat.xor (rotr64 (x 0) 28) (Nat.xor (rotr64 (x 0) 34) (rotr64 (x 0) 39))
  let maj := Nat.xor (Nat.land (x 0) (x 1)) (Nat.xor (Nat.land (x 0) (x 2)) (Nat.land (x 1) (x 2)))
  [add64 [t1, s0, maj], x 0, x 1, x 2, add64 [x 3, t1], x 4, x 5, x 6]

/-- The hash value after one 128-byte block. -/
def sha5Block (h : List Nat) (block : List Nat) : List Nat :=
  let w := (sha5Schedule 64 ((chunks 8 16 block).map natOf).reverse).reverse
  let v := (sha5K.zip w).foldl (fun v q => sha5Round v q.1 q.2) h
  (h.zip v).map (fun q => add64 [q.1, q.2])

/-- SHA-384 of `msg`: 48 bytes. -/
def sha384 (msg : List Nat) : List Nat :=
  let n := msg.length
  let m := msg ++ [0x80] ++ List.replicate ((239 - n % 128) % 128) 0 ++ bytesOf 16 (8 * n)
  ((((chunks 128 (n / 128 + 2) m).foldl sha5Block sha384Init).map (bytesOf 8)).flatten).take 48

/-! ### ECDSA over P-384 -/

/-- The prime of the field, the order of the base point, the coefficient b (a is -3) and the base point. -/
def p384P : Nat := 2 ^ 384 - 2 ^ 128 - 2 ^ 96 + 2 ^ 32 - 1
def p384N : Nat := 0xffffffffffffffffffffffffffffffffffffffffffffffffc7634d81f4372ddf581a0db248b0a77aecec196accc52973
def p384B : Nat := 0xb3312fa7e23ee7e4988e056be3f82d19181d9c6efe8141120314088f5013875ac656398d8a2ed19d2a85c8edd3ec2aef
def p384Gx : Nat := 0xaa87ca22be8b05378eb1c71ef320ad746e1d3b628ba79b9859f741e082542a385502f25dbf55296c3a545e3872760ab7
def p384Gy : Nat := 0x3617de4a96262c6f5d9e98bf9292dc29f8f41dbd289a147ce9da3113b5f0b8c00a60b1ce1d7e819d7a431d7c90ea0e5f

/-- `a` to the power of the low `n` bits of `e`, modulo `m`. -/
def powMod (m : Nat) : Nat → Nat → Nat → Nat
  | 0, _, _ => 1
  | n + 1, a, e => (if e % 2 = 1 then a else 1) * powMod m n (a * a % m) (e / 2) % m

/-- The inverse of `a` modulo the prime `m` of 384 bits. -/
def invMod (m a : Nat) : Nat := powMod m 384 (a % m) (m - 2)

/-- A point of the curve; none is the point at infinity. -/
abbrev EcPoint := Option (Nat × Nat)

/-- The point with slope `l` through (x1, y1) and a point with abscissa `x2`, reflected. -/
def ecMeet (l x1 y1 x2 : Nat) : EcPoint :=
  let p := p384P
  let x3 := (l * l + 2 * p - x1 - x2) % p
  some (x3, (l * (x1 + p - x3) + p - y1) % p)

/-- The sum of two points. -/
def ecAdd (a b : EcPoint) : EcPoint :=
  let p := p384P
  match a, b with
  | none, b => b
  | a, none => a
  | some (x1, y1), some (x2, y2) =>
    if x1 = x2 then
      (if y1 = y2 ∧ y1 ≠ 0 then ecMeet ((3 * x1 * x1 + p - 3) * invMod p (2 * y1) % p) x1 y1 x1 else none)
    else ecMeet ((y2 + p - y1) * invMod p (x2 + p - x1) % p) x1 y1 x2

/-- The low `n` bits of `k` times the point `a`. -/
def ecMul : Nat → Nat → EcPoint → EcPoint
  | 0, _, _ => none
  | n + 1, k, a =>
    let t := ecMul n (k / 2) (ecAdd a a)
    if k % 2 = 1 then ecAdd t a else t

/-- (x, y) lies on the curve. -/
def ecOn (x y : Nat) : Bool :=
  decide (x < p384P) && decide (y < p384P) && y * y % p384P == (x * x * x + (p384P - 3) * x + p384B) % p384P

/-- The signature (r, s) of the 48-byte digest verifies under the public key (x, y). -/
def ecdsaVerify (x y : Nat) (digest : List Nat) (r s : Nat) : Bool :=
  if !ecOn x y || r == 0 || s == 0 || decide (p384N ≤ r) || decide (p384N ≤ s) then false else
  let w := invMod p384N s
  let u1 := natOf digest * w % p384N
  let u2 := r * w % p384N
  match ecAdd (ecMul 384 u1 (some (p384Gx, p384Gy))) (ecMul 384 u2 (some (x, y))) with
  | none => false
  | some (v, _) => v % p384N == r

end Sys2Proof.Machine
end

