-- ==== Sys2Proof/Machine/NorRx.lean ====
section
/-! DEFINITION. Noryr frames received (spec/13_noryr_cascade.md): the link layer's checks, and what each frame type does where it arrives. -/
namespace Sys2Proof.Machine

/-- The frame that `ws` spells: header, payload and CRC. -/
def frameOf (ws : List Nat) : NorFrame :=
  let h := ws.getD 0 0
  ⟨bits h 28 4, bits h 22 6, bits h 16 6, bits (ws.getD 1 0) 10 10, (ws.drop 2).take (ws.length - 3)⟩

/-- The frame is whole (R440): LEN matches the words received, and the CRC is right. -/
def frameGood (ws : List Nat) : Bool :=
  3 ≤ ws.length && bits (ws.getD 0 0) 0 7 + 3 == ws.length && bits (ws.getD 0 0) 0 7 ≤ 65 &&
  ws.getD (ws.length - 1) 0 == crc32 (wordBytes (ws.take (ws.length - 1)))

/-- Port `q` sends the acknowledgement `t` (ACK 0x30, NAK 0x31) of the last frame it accepted. -/
def State.norAnswer (s : State) (q t : Nat) : State :=
  let seq := ((s.norPort q).expect + 4095) % 4096
  s.emit (.norSet q t (seq / 16) (seq % 16 * 16))

/-- Port `q` carries frames of type `t` towards this device (Table NOR-3). -/
def State.norCarries (s : State) (q t : Nat) : Bool :=
  if q < 4 then t == NorT.cpl || t == NorT.evt || t == NorT.bufOut || t == NorT.link
  else if q = portNU then t == NorT.cmd || t == NorT.bufIn || t == NorT.addr || t == NorT.ts
  else t == NorT.mirror || (t == NorT.ts && !s.norUpper portNP)

/-- The frame that came in on port `q` has been consumed: its credits go back (R443). -/
def State.norTaken (s : State) (q : Nat) (f : NorFrame) : State := s.norReturn q (norClass f.ftype) f.cost

/-! ### At the root: completions, events and output -/

/-- A CPL for a command of the root's rings or mailbox: one whose tag was dropped is not written (R418), and one whose output a failed DMA
write has cut short carries DMA_ERR (R419). -/
def State.cplRx (s : State) (f : NorFrame) : State :=
  let w := fun k => f.payload.getD k 0
  let interim := bit (w 0) 27
  let mine := fun r : CmdRef => hostSide r && r.dn == f.src && r.tag == f.tag
  match s.host.dropped.find? mine with
  | some r => s.complete ⟨r, bits (w 0) 16 8, interim, false, false, 0, 0, 0⟩
  | none =>
    match s.host.inflight.find? (fun x => mine x.ref) with
    | none => s
    | some x =>
      let cut := if interim then none else x.cut
      let c : Cpl := ⟨x.ref, bits (w 0) 16 8, interim, bit (w 0) 26 || cut.isSome, bit (w 0) 25, w 1, w 2, cut.getD (w 3 % 2 ^ 24)⟩
      let s := s.complete c
      if cut.isSome then s.raise 158 1 else s

/-- An EVT at the root: it is relayed unchanged to the event ring (R410), or held in D3hot (R401). -/
def State.evtRx (s : State) (f : NorFrame) : State :=
  let w := fun k => f.payload.getD k 0
  let r : EvtRec := ⟨bits (w 0) 16 6, bits (w 0) 0 16, bits (w 0) 22 8, w 2 + w 3 * 2 ^ 32, bits (w 1) 0 16, (f.payload.drop 4).take 4⟩
  if !s.on F.HOST_CTL_EVT_EN then s
  else if s.on F.HOST_STAT_D3HOT then { s with host := { s.host with heldEvents := s.host.heldEvents ++ [r] } }
  else s.writeEvent r.dn r.code r.info r.count r.seq r.payload

/-- A command in flight, marked as cut short after `n` bytes of its output, unless it already is. -/
def InFlight.cutAt (c : CmdRef) (n : Nat) (x : InFlight) : InFlight :=
  if x.ref == c && x.cut.isNone then { x with cut := some n } else x

/-- A BUF_OUT at the root: its data goes to the host buffer, or to the mailbox window (R431, R444); `fail` says after how many bytes the DMA
write of it fails. -/
def State.bufOutRx (s : State) (f : NorFrame) (fail : Option Nat) : State :=
  let o := f.payload.getD 0 0
  let ws := f.payload.drop 1
  match s.host.inflight.find? (fun x => hostSide x.ref && x.ref.dn == f.src && x.ref.tag == f.tag) with
  | none => s
  | some x =>
    if x.ref.src = CmdSrc.mailbox then s.outBuf x.ref (recAddr x.words + o) ws
    else if x.cut.isSome then s
    else match fail with
      | none => s.outBuf x.ref (recAddr x.words + o) ws
      | some k =>
        let s := s.outBuf x.ref (recAddr x.words + o) (ws.take (k / 4))
        { s with host := { s.host with inflight := s.host.inflight.map (InFlight.cutAt x.ref (o + min k (4 * ws.length))) } }

/-! ### At the target: commands and their input -/

/-- A command that Noryr brings to this device: its header is checked, and it starts when it may. -/
def State.cmdRx (s : State) (f : NorFrame) (e : Env) : State :=
  let r := s.takeRecord CmdSrc.noryr (padTo 16 f.payload)
  match r.2 with
  | none => r.1
  | some ref =>
    match r.1.host.inflight.find? (fun x => x.ref == ref) with
    | some x =>
      if !r.1.mayStart x then r.1 else
      let s := r.1.startCmd x (r.1.inputOf x []) false none e
      { s with nor := { s.nor with bufIn := s.nor.bufIn.filter (fun b => b.1 != x.ref.tag) } }
    | none => r.1

/-- A BUF_IN is kept until its command comes (R444). -/
def State.bufInRx (s : State) (f : NorFrame) : State :=
  { s with nor := { s.nor with bufIn := s.nor.bufIn ++ [(f.tag, f.payload.getD 0 0, f.payload.drop 1)] } }

/-- A CMD or BUF_IN on NU (R450): it is for this device, or goes on downward; a DST that lies nowhere below cannot be routed (R440). -/
def State.downRx (s : State) (f : NorFrame) (e : Env) : State :=
  if s.on F.NOR_STAT_NUMBERED && f.dst == s.rd F.NOR_STAT_DN then
    let s := s.norTaken portNU f
    if f.ftype = NorT.cmd then s.cmdRx f e else s.bufInRx f
  else match (List.range 4).find? (fun j => bit (s.rd F.NOR_ROUTE_MASK j) f.dst) with
    | some j => s.norQueue j portNU f
    | none => (s.norDrop portNU).norTaken portNU f

/-- An ADDR frame with these words goes on to a device below this one. -/
def State.addrBelow (s : State) (w0 w1 : Nat) : Bool :=
  let own := s.rd F.NOR_STAT_LEVEL
  s.on F.NOR_STAT_NUMBERED && own < bits w0 6 2 && w1 % 64 % 4 ^ own == s.nor.path % 4 ^ own

/-- A good frame in sequence on port `q`. -/
def State.frameRx (s : State) (q : Nat) (hd : List Nat) (f : NorFrame) (fail : Option Nat) (e : Env) : State :=
  let w := fun k => f.payload.getD k 0
  if !s.norCarries q f.ftype then (s.norDrop q).norTaken q f
  else if f.ftype = NorT.cmd ∨ f.ftype = NorT.bufIn then s.downRx f e
  else if f.ftype = NorT.addr then
    if s.addrBelow (w 0) (w 1) then s.addrRx (w 0) (w 1) else (s.norTaken q f).addrRx (w 0) (w 1)
  else if f.ftype = NorT.ts then (s.norTaken q f).tsRx q f.payload
  else if f.ftype = NorT.mirror then (s.norTaken q f).mirrorRx hd f.payload
  else if !s.norRoot then s.norUpward q f
  else
    let s := s.norTaken q f
    if f.ftype = NorT.cpl then s.cplRx f
    else if f.ftype = NorT.evt then s.evtRx f
    else if f.ftype = NorT.bufOut then s.bufOutRx f fail
    else s.linkRx q (w 0) (w 1)

/-- `NOR_FRAME_RX`: the frame `words` (header, payload and CRC) is received on port `q`; `codeErr` says that it held an invalid code group,
`abort` that it ended early; `fail` after how many bytes a DMA write of its data fails (R440, R441). -/
def execNorFrameRx (q : Nat) (words : List Nat) (codeErr abort : Bool) (fail : Option Nat) (e : Env) (s : State) :
    Host.Outcome State Fault Refusal :=
  if 6 ≤ q ∨ s.norState q ≠ NorS.active ∨ abort then done s else
  let ws := words.map (fun w => w % 2 ^ 32)
  if codeErr then done ((s.inc F.NOR_PORT_CNT2_CODE_ERR q).norAnswer q 0x31)
  else if !frameGood ws then done (s.norAnswer q 0x31)
  else
    let x := s.norPort q
    let seq := bits (ws.getD 1 0) 20 12
    if seq ≠ x.expect then
      if (x.expect + 4096 - seq) % 4096 ≤ 2048 then done (s.norAnswer q 0x30) else done s
    else
      let s := (s.setNorPort q { x with expect := (seq + 1) % 4096 }).norAnswer q 0x30
      done ((s.frameRx q (ws.take 2) (frameOf ws) fail e).settleBox e)

end Sys2Proof.Machine
end

