-- ==== Sys2Proof/Machine/Boot.lean ====
section
/-! DEFINITION. Start-up (spec/17_power_startup.md): fuse load, the configuration image, the start-up commands and READY. -/
namespace Sys2Proof.Machine

/-! ### Steps 1 to 4: XO_IN, fuses, Ridge A and the persistent slates -/

/-- The frequencies of XO_IN in Hz, by their code in XO_FREQ (R545). -/
def xoFreqs : List (Nat × Nat) := [(1, 10000000), (2, 20000000), (3, 25000000), (4, 49152000), (5, 100000000)]

/-- The frequency chosen for a measured `hz`: one from which it lies no more than 10 %. -/
def xoPick (hz : Nat) : Option (Nat × Nat) := xoFreqs.find? (fun f => decide (10 * ((hz : Int) - f.2).natAbs ≤ f.2))

/-- `XO_RETRY`: XO_IN is not recognised, and the device waits at step 1. -/
def execXoRetry (s : State) : Host.Outcome State Fault Refusal :=
  if s.pwr.stage = 2 then done (s.modPwr (fun p => { p with xoMissed := true })) else done s

/-- The fields that fuse load gives their values (R9). -/
def State.loadFuses (s : State) : State :=
  let s := forN 64 s (fun s k => s.wr F.TDC_XB_DLY_DLY (Config.fuse 0 k) k)
  let s := forN 32 s (fun s l =>
    let s := (s.wr F.PM_LN_TXSKEW_VALUE (Config.fuse 1 l) l).wr F.PM_LN_TXLAT_VALUE (Config.fuse 2 l) l
    let s := s.wr F.PM_LN_RXLAT_VALUE (Config.fuse 3 l) l
    s.setLane l { s.lane l with lat0 := toS 32 (Config.fuse 3 l) })
  let s := s.wr F.PTE_ORG_ORG_ID (Config.fuse 4 0)
  let s := forN 12 s (fun s j => s.wr F.SLATE_VHASH_HASH (Config.fuse 5 j) j)
  let s := (s.wr F.SLATE_STAT_ROOT_OK (Config.fuse 6 0)).wr F.SLATE_STAT_VHASH_OK (Config.fuse 7 0)
  s.wr F.TOP_BOOT_MINSVN_VALUE (Config.fuse 8 0)

/-- Ridge A starts at count 0, anchored at the RTC second, or at second 0 when the RTC is not VALID (R18, R543). -/
def State.startRidge (s : State) : State :=
  let sec := if s.on F.TOP_RTC_STAT_VALID then s.rd F.TOP_RTC_SEC_SEC else 0
  ({ s with ridge := { s.ridge with running := true, nextEdge := ruBeat } }).setAnchor 0 ((sec * ruSecond : Nat) : Int)

/-- The conditions of supplies and clocks as the FCU finds them when it starts (Table PWR-10). -/
def State.firstConds (s : State) : State :=
  let s := forN 10 s (fun s b => if bit (s.rd F.TOP_SUPPLY_IN_RANGE) b then s else s.railCond b true)
  if s.on F.TOP_RTC_STAT_OSC_OK then s else s.cond 217 true

/-- The persistent slates are checked at start-up (R384). -/
def State.checkSlates (s : State) : State :=
  let lost := s.on F.SLATE_TAMP_STAT_VBAT_LOST
  (forN 16 s (fun s n =>
    if lost then s.eraseSlate n
    else if !s.on F.SLATE_ATTR_VALID n ∨ (s.bank n (s.activeBank n)).tag = s.dueTag n then s
    else (((s.wr F.SLATE_ATTR_VALID 0 n).wr F.SLATE_ATTR_ORPHAN 0 n).wr F.SLATE_ATTR_USAGE 0 n).raise 146 n)).showSlates

/-- `FUSE_LOAD`: fuse load completes. `xoHz` is XO_IN's frequency as measured; `err` is 1 for a corrected fuse error and 2 for an
uncorrectable one; `rtc` is how many seconds the RTC has counted since the main domain last ran, none when its oscillator has stopped;
`temp` is the die temperature in 0.25 °C (R545, R546, R543, R384). -/
def execFuseLoad (xoHz err : Nat) (rtc : Option Nat) (temp : Int) (s : State) : Host.Outcome State Fault Refusal :=
  let first := s.pwr.stage == 2
  if !first ∧ s.pwr.stage ≠ 3 then done s else
  match xoPick xoHz with
  | none => if first then done (s.modPwr (fun p => { p with xoMissed := true })) else done s
  | some (code, nominal) =>
    let s := if first then s.wr F.TOP_BOOT_STAT_XO_FREQ code else s
    let s := match rtc with
      | some n => (s.wr F.TOP_RTC_SEC_SEC (s.rd F.TOP_RTC_SEC_SEC + n)).wr F.TOP_RTC_STAT_OSC_OK 1
      | none => s.wr F.TOP_RTC_STAT_OSC_OK 0
    let s := s.loadFuses.startRidge.firstConds
    let s := (s.wrB F.TOP_STAT_FUSE_OK (err != 2)).wr F.FRANK_STAT_DRBG_OK 1
    let s := (s.wr F.MEM_STAT_HIST_SRAM 1).wrS F.EAVES_STAT_TEMP (satS 16 temp)
    let s := { s with tdc := { s.tdc with trigTemp := temp }, pins := { s.pins with mspiRdy := true } }
    let s := s.judgeTemp temp
    let s := s.cond 213 (decide (nominal < 1000 * ((xoHz : Int) - nominal).natAbs))
    let s := if s.pwr.xoMissed then s.raise 213 else s
    let s := if err = 1 then s.raise 222 else if err = 2 then s.raise 223 else s
    let s := if s.on F.SLATE_STAT_ROOT_OK && s.on F.SLATE_STAT_VHASH_OK then s else s.raise 150
    let s := if err = 2 then s else s.checkSlates
    done (s.modPwr (fun p => { p with stage := 4 }))

/-! ### The image (Tables PWR-3 and PWR-4) -/

/-- The little-endian word of `n` bytes at byte `o` of an image. -/
def imgWord (img : List Nat) (o n : Nat) : Nat := natOf ((padTo n ((img.drop o).take n)).reverse)

/-- `n` bytes at byte `o` of an image. -/
def imgBytes (img : List Nat) (o n : Nat) : List Nat := (img.drop o).take n

/-- The section table: type, offset and length of each section. -/
def imgSections (img : List Nat) : List (Nat × Nat × Nat) :=
  (List.range (imgWord img 6 2)).map (fun k =>
    let o := 128 + 16 * k
    (imgWord img o 4 % 256, imgWord img (o + 4) 4, imgWord img (o + 8) 4))

/-- The header is correct (check 1 of R550): MAGIC, FORMAT, TOTAL_LEN and AUTO_RELEASE. -/
def imgHeaderOk (img : List Nat) : Bool :=
  let n := imgWord img 8 4
  imgWord img 0 4 == 0x52505849 && imgWord img 4 2 == 1 && n % 16 == 0 && 512 ≤ n && n ≤ 16777216 && n ≤ img.length &&
  imgWord img 20 4 % 4 != 3

/-- The sections are in order (check 6 of R550). -/
def imgSectionsOk (img : List Nat) : Bool :=
  let n := imgWord img 8 4
  let secs := imgSections img
  let once : List Nat := (secs.map (fun x => x.1)).filter (fun t => t != 6)
  1 ≤ secs.length && secs.length ≤ 64 && 128 + 16 * secs.length ≤ n &&
  secs.all (fun x => 1 ≤ x.1 && x.1 ≤ 6 && x.2.1 % 16 == 0 && x.2.1 + x.2.2 ≤ n) && decide once.Nodup

/-- The first check of R550 that the image of a slot fails, 0 when it passes them all; none stands for a slot that reads with an error. -/
def State.imageCause (s : State) (slot : Option (List Nat)) : Nat :=
  match slot with
  | none => 1
  | some img =>
    let n := imgWord img 8 4
    let hash := (List.range 12).flatMap (fun j => leBytes 4 (s.rd F.SLATE_VHASH_HASH j))
    if !imgHeaderOk img then 1
    else if imgWord img 16 4 ≠ 0x08640000 then 2
    else if !s.on F.SLATE_STAT_VHASH_OK || sha384 (imgBytes img 32 96) != hash then 3
    else if imgWord img 12 4 < s.rd F.TOP_BOOT_MINSVN_VALUE then 4
    else if !ecdsaVerify (natOf (imgBytes img 32 48)) (natOf (imgBytes img 80 48)) (sha384 (img.take (n - 96)))
        (natOf (imgBytes img (n - 96) 48)) (natOf (imgBytes img (n - 48) 48)) then 5
    else if !imgSectionsOk img then 6
    else 0

/-- A slot is rejected: its cause is kept, and FS 218 raised (R550). -/
def State.rejectSlot (s : State) (slot cause : Nat) : State :=
  (s.wr (if slot = 0 then F.TOP_BOOT_STAT_A_CAUSE else F.TOP_BOOT_STAT_B_CAUSE) cause).raise 218 (slot + cause * 256)

/-- A slot is accepted. -/
def State.acceptSlot (s : State) (slot : Nat) (img : List Nat) : State :=
  let s := (s.wr F.TOP_BOOT_STAT_SLOT (slot + 1)).wr F.TOP_BOOT_SVN_VALUE (imgWord img 12 4)
  let s := (s.wr F.TOP_BOOT_BUILD_VALUE (imgWord img 24 4)).wr F.TOP_BOOT_STAT_AUTO_REL (imgWord img 20 4 % 4)
  s.modPwr (fun p => { p with image := img.take (imgWord img 8 4), stage := 5 })

/-- `IMAGE_VERIFY`: slots A and B are read, none where the read fails, and one is accepted, or the device falls back to defaults (R550 to
R552). -/
def execImageVerify (imgA imgB : Option (List Nat)) (s : State) : Host.Outcome State Fault Refusal :=
  if s.pwr.stage ≠ 4 ∨ s.on F.TOP_STAT_SAFE then done s else
  let a := s.imageCause imgA
  if a = 0 then done (s.acceptSlot 0 (imgA.getD [])) else
  let b := s.imageCause imgB
  let s := s.rejectSlot 0 a
  if b = 0 then done (s.acceptSlot 1 (imgB.getD [])) else
  done (((s.rejectSlot 1 b).wr F.TOP_BOOT_STAT_NO_IMAGE 1).modPwr (fun p => { p with stage := 7, cfgOpen := true }))

/-- The bytes of the section of type `t`, none when the image has none. -/
def imgSection (img : List Nat) (t : Nat) : List Nat :=
  match (imgSections img).find? (fun x => x.1 == t) with
  | some x => imgBytes img x.2.1 x.2.2
  | none => []

/-- FE entries, each one GFE_SPI transaction: antenna, list, bytes. -/
def feEntries : Nat → List Nat → List (Nat × Nat × List Nat)
  | 0, _ => []
  | fuel + 1, l =>
    let n := l.getD 1 0
    if l.length < 2 ∨ n = 0 ∨ 32 < n then []
    else (l.getD 0 0 % 2, l.getD 0 0 / 2 % 2, (l.drop 2).take n) :: feEntries fuel (l.drop (2 + n))

/-- The PCIE and FE sections are applied (R553, R212). -/
def State.applyPcieFe (s : State) : State :=
  let img := s.pwr.image
  let s := s.modPwr (fun p => { p with cfgOpen := true, subsys := imgWord (imgSection img 1) 0 4 })
  let fe := imgSection img 3
  let l := feEntries (fe.length + 1) fe
  let pick := fun a k => (l.filter (fun x => x.1 == a && x.2.1 == k)).map (fun x => x.2.2)
  { s with gnss := { s.gnss with feWrite := [pick 0 0, pick 1 0], feSleep := [pick 0 1, pick 1 1] } }

/-- An entry of the image has failed: FS 219 with its index. -/
def State.entryFail (s : State) (idx : Nat) : State := s.raise 219 (idx % 65536)

/-- A KEYS entry, `b` its 64 bytes (R554): the key is unwrapped, and loaded as `SLATE_LOAD` loads it, or the entry is skipped. -/
def State.keysEntry (s : State) (idx : Nat) (b : List Nat) : State :=
  let w0 := imgWord b 0 4
  let wrap := bits w0 16 8
  let skip := (s.wr F.TOP_BOOT_STAT_KEY_FAIL 1).entryFail idx
  if 16 ≤ wrap ∨ s.slateUse wrap Usage.image true ≠ Code.ok then skip else
  let n := if bit w0 11 then 32 else 16
  match sivOpen (s.slateKey wrap) [imgBytes b 0 4] (imgBytes b 16 (16 + n)) with
  | none => skip
  | some key => outState s (execSlateLoad ⟨.boot, 0, idx, s.host.ser⟩ w0 key s)

/-- Loads that were refused, or that failed at their beat edge, count as skipped entries. -/
def State.keyResults (s : State) : State :=
  let bad := s.bootCpl.filter (fun c => c.code != Code.ok)
  let s := { s with bootCpl := [] }
  bad.foldl (fun s c => (s.wr F.TOP_BOOT_STAT_KEY_FAIL 1).entryFail c.ref.tag) s

/-- A key of the KEYS section waits for its beat edge. -/
def State.keysWait (s : State) : Bool := s.slate.changes.any (fun c => c.ref.src == CmdSrc.boot)

/-- A REGS entry, `b` its 12 bytes (R555). -/
def State.regsEntry (s : State) (e : Env) (idx : Nat) (b : List Nat) : State :=
  let w0 := imgWord b 0 4
  let r := s.access ⟨1, bits w0 0 24, if bit w0 31 then 3 else 2, true⟩ e (imgWord b 4 8)
  (if r.2.1 = Code.ok then r.1 else (r.1.wr F.TOP_BOOT_STAT_REG_FAIL 1).entryFail idx).settle 4

/-- The REGS section is applied, and the CMDS list is made ready. -/
def State.applyRegs (s : State) (e : Env) : State :=
  let img := s.pwr.image
  let cut := fun n l => chunks n (l.length / n) l
  let s := (cut 12 (imgSection img 2)).zipIdx.foldl (fun s x => s.regsEntry e x.2 x.1) s
  let cmds := (cut 68 (imgSection img 5)).zipIdx.map (fun x => (x.2, (List.range 17).map (fun k => imgWord x.1 (4 * k) 4)))
  s.modPwr (fun p => { p with image := [], cmds := cmds, stage := 7 })

/-- `IMAGE_APPLY`: PCIE, FE and KEYS of the accepted image are applied, and, once the keys are committed, REGS (R553 to R555). -/
def execImageApply (e : Env) (s : State) : Host.Outcome State Fault Refusal :=
  if s.on F.TOP_STAT_SAFE then done s
  else if s.pwr.stage = 5 then
    let keys := imgSection s.pwr.image 4
    let s := (chunks 64 (keys.length / 64) keys).zipIdx.foldl (fun s x => s.keysEntry x.2 x.1) s.applyPcieFe
    let s := s.keyResults.modPwr (fun p => { p with stage := 6 })
    done (if s.keysWait then s else (s.applyRegs e).settleBox e)
  else if s.pwr.stage = 6 ∧ !s.keysWait then done ((s.keyResults.applyRegs e).settleBox e)
  else done s

/-! ### The CMDS list (R556) -/

/-- A CMDS entry has failed: it stops the list unless CONT = 1. -/
def State.cmdsFail (s : State) (idx : Nat) (cont : Bool) : State :=
  let s := s.entryFail idx
  if cont then s else
  ((s.wr F.TOP_BOOT_STAT_CMD_FAIL 1).wr F.TOP_BOOT_STAT_CMD_FAIL_IDX idx).modPwr (fun p => { p with cmds := [] })

/-- The entry that runs has completed. -/
def State.judgeEntry (s : State) : State :=
  match s.pwr.cur with
  | none => s
  | some (idx, cont) =>
    match s.bootCpl.find? (fun c => c.ref.tag == idx) with
    | none => s
    | some c =>
      let s := { s with bootCpl := s.bootCpl.filter (fun c => c.ref.tag != idx) }
      let s := s.modPwr (fun p => { p with cur := none })
      if c.code = Code.ok then s else s.cmdsFail idx cont

/-- The condition WAIT of an entry holds. -/
def State.waitHolds (s : State) (k : Nat) : Bool :=
  k == 0 || (k == 1 && s.on F.RIDGE_STAT_A_STEP_NEEDED) || (k == 2 && s.rd F.ENS_DOM_STAT_A_STATE == 2) ||
  (k == 3 && s.on F.GNSS_STAT_SOL_VALID)

/-- CCLK ticks in a second. -/
def ticksPerSecond : Nat := 1250000000

/-- The command of entry `idx`, record `ws`, runs; one with a buffer, for another device or with a bad header fails. -/
def State.runEntry (s : State) (idx : Nat) (cont : Bool) (ws : List Nat) (e : Env) : State :=
  let c : CmdRef := ⟨.boot, 0, idx, s.host.ser⟩
  if recIn ws || recOut ws || recDn ws != 0 || !opcodes.contains (recOp ws) || headerCode ws != Code.ok then s.cmdsFail idx cont
  else ((s.modPwr (fun p => { p with cur := some (idx, cont) })).runCmd c ws [] e).judgeEntry

/-- The next entry starts when its WAIT holds, or fails when the wait has run out. Until READY an entry with a WAIT is not begun. -/
def State.nextEntry (s : State) (e : Env) : State :=
  match s.pwr.cmds with
  | [] => s
  | (idx, ws) :: rest =>
    let w := ws.getD 0 0
    let cont := bit w 20
    let kind := bits w 16 4
    let gone := fun p : PwrSt => { p with cmds := rest, waitFrom := none }
    if kind ≠ 0 ∧ !s.on F.TOP_STAT_READY then s
    else if s.waitHolds kind then ((s.modPwr gone).runEntry idx cont (ws.drop 1) e).settleBox e
    else match s.pwr.waitFrom with
      | none =>
        let t := s.ridge.ticks
        s.modPwr (fun p => { p with waitFrom := some t })
      | some t0 => if t0 + bits w 0 16 * ticksPerSecond ≤ s.ridge.ticks then (s.modPwr gone).cmdsFail idx cont else s

/-- `CMDS_ENTRY`: the entry that runs is looked at, and the next one starts when it may. -/
def execCmdsEntry (e : Env) (s : State) : Host.Outcome State Fault Refusal :=
  if s.pwr.stage ≠ 7 ∨ (s.on F.TOP_STAT_SAFE ∧ !s.on F.TOP_STAT_READY) then done s else
  let s := s.judgeEntry
  if s.pwr.cur.isSome then done s else done (s.nextEntry e)

/-! ### READY (R557, R558) -/

/-- The CMDS list has reached its end, an entry with a WAIT, or a stop. -/
def State.listAtRest (s : State) : Bool :=
  s.pwr.cur.isNone && (match s.pwr.cmds with | [] => true | x :: _ => bits (x.2.getD 0 0) 16 4 != 0)

/-- `READY`: the list is at rest and due known-answer tests have finished, `ms` milliseconds after release of reset. -/
def execReady (ms : Nat) (s : State) : Host.Outcome State Fault Refusal :=
  let s := s.judgeEntry
  if s.pwr.stage ≠ 7 ∨ s.on F.TOP_STAT_READY ∨ s.on F.TOP_STAT_SAFE ∨ !s.listAtRest ∨ s.frank.katEn ∨ s.frank.katReq then done s else
  let s := (s.wr F.TOP_STAT_READY 1).wr F.TOP_BOOT_STAT_DONE 1
  let s := (s.wr F.TOP_BOOT_TIME_VALUE (satU 16 ms)).eventNow 0x0009 0 [s.wordAt 0]
  let s := { s with pins := { s.pins with ready := true } }
  done (if s.rd F.TOP_BOOT_STAT_AUTO_REL = 1 ∨ !s.pwr.release.isEmpty then s.releaseOutputs else s)

/-- `READY_TIMEOUT`: 2 s have passed since release of reset. -/
def execReadyTimeout (s : State) : Host.Outcome State Fault Refusal :=
  if s.on F.TOP_STAT_READY ∨ !s.ridge.running then done s else done (s.raise 220)

/-- AUTO_RELEASE 2: outputs are released when domain A is LOCKED (R558). -/
def State.autoRelease (s : State) : State :=
  if s.rd F.TOP_BOOT_STAT_AUTO_REL = 2 ∧ s.rd F.ENS_DOM_STAT_A_STATE = 2 ∧ !s.on F.OUT_STAT_RELEASED then s.releaseOutputs else s

/-! ### PCIe configuration requests (R549, Table HOST-1) -/

/-- The word at DW `dw` of configuration space: identity, class code and Subsystem IDs; the spec states no value of another word. -/
def State.pcieWord (s : State) (dw : Nat) : State × Nat :=
  if dw = 0 then (s, Config.fuse 9 0 % 65536 + 0x0864 * 65536)
  else if dw = 2 then (s, 0x118000 * 256 + 0xB1)
  else if dw = 11 then (s, s.pwr.subsys)
  else (s.draw.2, s.draw.1 % 2 ^ 32)

/-- `PCIE_CONFIG_REQUEST`: a configuration read of DW `dw` arrives. -/
def execPcieConfigRequest (dw : Nat) (s : State) : Host.Outcome State Fault Refusal :=
  if s.pwr.cfgOpen ∨ s.on F.TOP_STAT_SAFE then
    let r := s.pcieWord dw
    done (r.1.emit (.pcieCfg false r.2))
  else done (s.emit (.pcieCfg true 0))

end Sys2Proof.Machine
end

