-- ==== Sys2Proof/Machine/FrameRx.lean ====
section
/-! DEFINITION. A received Ethernet frame (R262): checked, classified, and given to the unit that takes it, or to the host. -/
namespace Sys2Proof.Machine

/-- A PTP message `m` over transport `tr`, by its type. -/
def State.ptpRx (s : State) (p : Nat) (f : RxFrame) (tr : Nat) (m : List Nat) (pred : Nat) : State :=
  let type := msgType m
  if type = Ptp.delayReq then s.delayReqRx p f tr m pred
  else if type = Ptp.pdelayReq then s.pdelayReqRx p f tr m pred
  else if type = Ptp.pdelayResp ∨ type = Ptp.pdelayFup then
    if (s.instOf p tr m).isSome then s.pdelayRespRx p f m else s.toHost p f (type == Ptp.pdelayResp)
  else if type = Ptp.sync ∨ type = Ptp.followUp ∨ type = Ptp.delayResp then s.clientRx p f tr m
  else if type = Ptp.announce then s.announceRx p f tr m
  else if type = Ptp.signaling then
    if (s.cliOf p tr f m).isSome ∨ (s.sigInst tr m).isSome then s.signalRx p f tr m else s.toHost p f false
  else s.toHost p f false

/-- The NTP client that a datagram on port `p` answers: mode 4 from UDP port 123 of its server (R367). -/
def State.ntpAnswerFor (s : State) (p : Nat) (l : List Nat) (u : Udp) : Option Nat :=
  if u.src = 123 ∧ be l u.data 1 % 8 = 4 ∧ udpSumOk l u then s.ntpClientOf p l u else none

/-- A frame of good length and FCS on an UP port. -/
def State.goodRx (s : State) (p : Nat) (f : RxFrame) (pred : Nat) : State :=
  let l := f.bytes
  if isMacControl l 1 ∨ isMacControl l 0x101 then s.pauseRx p l
  else if isEsmc l then s.esmcRx p l
  else if 2 < (tagsOf l).length then s.toHost p f false
  else match ptpMsg l with
    | some (tr, m) => s.ptpRx p f tr m pred
    | none =>
      match udpOf l with
      | none => s.toHost p f false
      | some u =>
        match s.ntpAnswerFor p l u with
        | some c => s.ntpResponse c p f (udpData l u)
        | none => s.ntpRx p f pred

/-- `FRAME_RX`: a frame is received on port `p`; `pred` is the predicted departure of an answer to it, in ns after its last bit. Frames are
delivered only in UP (R253). -/
def execFrameRx (p : Nat) (f : RxFrame) (pred : Nat) (s : State) : Host.Outcome State Fault Refusal :=
  if 32 ≤ p ∨ s.portState p ≠ Port.up then done s
  else if !s.rxGood p f then done (s.inc F.MAC_CNT_RX_ERR_RX_ERR p)
  else done ((s.inc F.MAC_CNT_RX_FRAMES_RX_FRAMES p).goodRx p f pred)

end Sys2Proof.Machine
end

