-- ==== Sys2Proof/Machine/Beat.lean ====
section
/-! DEFINITION. The beat (spec/01_ridge_time.md, R45 to R49): what its edge does, its four phases in the windows of Table RIDGE-5, an
overrun, and the steps and class maps that take effect at an edge. -/
namespace Sys2Proof.Machine

/-! ### The beat edge (R16, R20, R23, R45, R529) -/

/-- The limits in force for the beat follow their fields (R23). -/
def State.latchLimits (s : State) : State :=
  let s := s.setDom 0 { s.dom 0 with
    limit := s.rd F.RIDGE_LIMIT_A_JUMP_LIMIT, slewMax := s.rd F.RIDGE_SLEW_SLEW_MAX, jumpEn := true }
  s.setDom 1 { s.dom 1 with
    limit := s.rd F.RIDGE_LIMIT_B_JUMP_LIMIT_B, slewMax := s.rd F.RIDGE_SLEW_SLEW_MAX_B, jumpEn := s.on F.RIDGE_LIMIT_B_JUMP_B_EN }

/-- SLEW_REM and REQ_STEP of domain `d` as the phase 3 of the beat uses them (R175). -/
def State.latchCorr (s : State) (d : Nat) : State :=
  s.setDom d { s.dom d with remEdge := (s.dom d).pend.tdiv two40, reqEdge := s.rdS F.RIDGE_x_REQ_STEP_VALUE d }

/-- A stopping DPLL0 or DPLL1 has stopped (R176, R206). -/
def State.loopStopEdge (s : State) (d : Nat) : State :=
  if s.dpllState d = DpllSt.stopping then s.dpllStopped d else s

/-- The beats since the epoch at Ridge A's count now. -/
def State.beatsNow (s : State) : Nat := (s.epochOf 0 (s.count 0)).toNat / ruBeat

/-- Event record every BEAT_EVT_DIV beats. -/
def State.beatEvent (s : State) : State :=
  let n := s.rd F.RIDGE_CTL_BEAT_EVT_DIV
  let q := s.rd F.RIDGE_BEAT_SEQ_SEQ
  if n ≠ 0 ∧ q % n = 0 then s.eventNow 0x0003 0 [q, s.rd F.RIDGE_STAT_BEAT_NUM] else s

/-- What the first edge of a second does besides: records expire (R163), the epoch rate is taken (R226), the counts of the second
restart (R523), and the RTC follows (R542). -/
def State.secondEdge (s : State) : State :=
  if s.rd F.RIDGE_STAT_BEAT_NUM ≠ 0 then s else
  let s := (((s.expireRecords).gnssBeat0).fcuSecond).rtcSync
  { s with sort := { s.sort with dramErrs := 0 } }

/-- S2 withholding begins and ends at a beat edge (R522). -/
def State.withholdEdge (s : State) : State :=
  let a := s.s2Withholds 0
  let b := s.s2Withholds 1
  let s := { s with fcu := { s.fcu with whA := a, whB := b } }
  (s.showWithheld 0).showWithheld 1

/-- The reference time of domain `d` while it has a traceable source (Table NTS-2). -/
def State.noteRef (s : State) (d : Nat) : State :=
  if s.hasTrace d then
    { s with frank := { s.frank with refTime := s.frank.refTime.set d (s.epochOf d (s.count d)) } }
  else s

/-- The new beat begins: its sequence and its number in the second; in safe state its phases 2 to 4 do not run (R524). -/
def State.newBeat (s : State) : State :=
  let s := s.bump F.RIDGE_BEAT_SEQ_SEQ
  let s := s.wr F.RIDGE_STAT_BEAT_NUM (s.beatsNow % 1024)
  let s := s.wr F.RIDGE_STAT_PHASE 1
  { s with
    was := []
    frank := { s.frank with raised := [] }
    ridge := { s.ridge with
      nextEdge := (s.ridge.nextEdge + ruBeat) % two64
      done := if s.on F.TOP_STAT_SAFE then [2, 3, 4] else []
      overrun := false } }

/-- The anchor of each running domain is latched (R16). -/
def State.latchAnchors (s : State) : State :=
  let s := s.latchAnchor 0
  if s.on F.RIDGE_CTL_B_EN then s.latchAnchor 1 else s

/-- ALIVE toggles unless the device is in safe state (R529). -/
def State.toggleAlive (s : State) : State :=
  if s.on F.TOP_STAT_SAFE then s else { s with pins := { s.pins with alive := !s.pins.alive } }

/-- The Franking unit's load of the beat that ends, in percent. -/
def State.noteLoad (s : State) (load : Nat) : State :=
  let s := s.wrSat F.FRANK_LOAD_LOAD load
  s.wrSat F.FRANK_LOAD_PEAK (max (s.rd F.FRANK_LOAD_PEAK) load)

/-- A beat edge of Ridge A. `fec`: codewords of the beat that ends, as port, corrected, uncorrectable; `prbs`: the lanes whose
checkers are locked, each with its bit errors;
`load`: blocks that the Franking unit used in it, in percent of its capacity. -/
def State.beatEdge (s : State) (fec : List (Nat × Nat × Nat)) (prbs : List (Nat × Nat)) (load : Nat) : State :=
  let s := (s.newBeat).latchAnchors
  let k := s.beatsNow
  let s := (s.latchLimits).loopEdge 0
  let s := ((s.loopEdge 1).loopStopEdge 0).loopStopEdge 1
  let s := ((s.thatchEdge).latchCorr 0).latchCorr 1
  let s := ((s.toggleAlive).beatEvent).countMark
  let s := (s.secondEdge).endDueGates k
  let s := ((s.withholdEdge).rejudgeLive).norBeat
  let s := (s.pairEdge).scrubBeat
  let s := ((s.showPtp).showFrank).noteRef 0
  let s := (s.noteRef 1).noteLoad load
  prbs.foldl State.prbsBeat ((fec.foldl State.fecBeat s).prbsUnlock)

/-- `BEAT_EDGE`: time passes to the next beat edge of Ridge A, which takes effect. -/
def execBeatEdge (fec : List (Nat × Nat × Nat)) (prbs : List (Nat × Nat)) (load : Nat) (s : State) :
    Host.Outcome State Fault Refusal :=
  if !s.ridge.running then done s
  else done ((s.runTicks (s.ticksTo 0 s.ridge.nextEdge)).beatEdge fec prbs load)

/-! ### The phases (Table RIDGE-5) -/

/-- Phase `p` may run now: the phases it needs are finished, and neither it nor an overrun has ended it in this beat (R45, R47). -/
def State.phaseFree (s : State) (p : Nat) : Bool :=
  let needs := if p = 1 then [] else if p = 2 then [1] else if p = 3 then [1, 2] else [2, 3]
  s.ridge.running && !s.ridge.overrun && !s.ridge.done.contains p && needs.all (fun q => s.ridge.done.contains q)

/-- The deadline of phase `p`, LSB 20 ns. -/
def phaseDeadline (p : Nat) : Nat := [10000, 25000, 35000, 45000].getD (p - 1) 45000

/-- Phase `p` has finished at `endAt` (R49): it is done, and RIDGE_STAT.PHASE shows the one that starts at once, or 0. -/
def State.phaseDone (s : State) (p endAt : Nat) : State :=
  let s := s.wrSat F.RIDGE_PHASE_HWM_HWM (max (s.rd F.RIDGE_PHASE_HWM_HWM (p - 1)) endAt) (p - 1)
  let s := { s with ridge := { s.ridge with done := s.ridge.done ++ [p] } }
  s.wr F.RIDGE_STAT_PHASE (if phaseDeadline p ≤ endAt ∧ p < 4 then p + 1 else 0)

/-- `PHASE_1` (R67, R227). -/
def execPhase1 (endAt : Nat) (epoch : List (List Nat)) (s : State) : Host.Outcome State Fault Refusal :=
  if !s.phaseFree 1 then done s else
  let s := (s.publishAll).alignChecks s.closingGates
  done ((s.gnssRecords epoch).phaseDone 1 endAt)

/-- Domain `d`, aligned in this phase 2, passes the breach test (R118, R159). -/
def State.alignEdge (s : State) (d : Nat) (aligned : Bool) : State := if aligned then s.eavesAligned d else s

/-- `PHASE_2` (R124; a standby follows its partner, R472). -/
def execPhase2 (endAt : Nat) (s : State) : Host.Outcome State Fault Refusal :=
  if !s.phaseFree 2 then done s else
  let s := if s.pairSteered then s.pairPhase2 else
    let s := s.thatchPhase2
    (s.alignEdge 0 s.ens.alignA).alignEdge 1 s.ens.alignB
  done ((s.autoRelease).phaseDone 2 endAt)

/-- The sampled event sources stop being live at the end of phase 3 (R512); those raised in it stay. -/
def State.dropSeen (s : State) (n : Nat) : State := { s with fcu := { s.fcu with evts := s.fcu.evts.drop n } }

/-- The loops and the bound of phase 3: a standby steers by its partner's STATUS of the beat before, and takes its bound from the
mirror (R472, R474). -/
def State.steerPhase3 (s : State) (temp : Int) : State :=
  if s.pairSteered then
    let s := s.wrS F.EAVES_STAT_TEMP (satS 16 temp)
    if s.pair.was then (s.steerLoop 0).steerLoop 1 else s
  else ((s.steerLoop 0).steerLoop 1).eavesPhase3 temp

/-- `PHASE_3` (R134, R157, R175): `temp` is the die temperature read, an integer of 0.25 °C. -/
def execPhase3 (endAt : Nat) (temp : Int) (s : State) : Host.Outcome State Fault Refusal :=
  if !s.phaseFree 3 then done s else
  let seen := s.fcu.evts.length
  let s := ((s.steerPhase3 temp).oscPhase3).loopMonitors
  done (((s.judgeTemp temp).dropSeen seen).phaseDone 3 endAt)

/-- A check of a management core or of the collector that failed in this beat (Table FCU-2, R533): source and snapshot; the word under
test is FS 234's own. -/
def State.checkFailed (s : State) (c : Nat × Nat) : State :=
  if (225 ≤ c.1 ∧ c.1 ≤ 228) ∨ c.1 = 232 ∨ c.1 = 233 then s.raise c.1 c.2
  else if c.1 = 234 then s.raise 234 s.fcu.selfWord
  else s

/-- `PHASE_4` (R466, R480, R523, R530, R533): `checks` are the checks that failed. -/
def execPhase4 (endAt : Nat) (checks : List (Nat × Nat)) (s : State) : Host.Outcome State Fault Refusal :=
  if !s.phaseFree 4 then done s else
  let s := (checks.foldl State.checkFailed s.pairPhase4).fcuPhase4
  done ({ s with fcu := { s.fcu with marked := true } }.phaseDone 4 endAt)

/-! ### Overrun (R47, R48) -/

/-- An abandoned phase 1 publishes nothing: the gates that ended and the latched epoch are lost. -/
def State.dropPhase1 (s : State) : State :=
  let s := forN 48 s (fun s n => s.setTch n { s.tch n with closing := none })
  s.setGnss { s.gnss with latched := none }

/-- `BEAT_OVERRUN`: a phase is still running 900 µs after the edge: its work is abandoned and the later phases are skipped. -/
def execBeatOverrun (s : State) : Host.Outcome State Fault Refusal :=
  let d := s.ridge.done
  if !s.ridge.running ∨ s.ridge.overrun ∨ [1, 2, 3, 4].all (fun p => d.contains p) then done s else
  let s := { s with ridge := { s.ridge with overrun := true } }
  let s := ((s.inc F.RIDGE_BEAT_OVR_OVR_CNT).raise 8).wr F.RIDGE_STAT_PHASE 0
  let s := if d.contains 1 then s else s.dropPhase1
  done (if d.contains 3 then s else (s.eavesMiss 0).eavesMiss 1)

/-! ### Steps and class maps at the edge (R22, R27, R30, R38) -/

/-- What else follows from a step of `x` ru of domain `d`, on its tick. -/
def State.afterStep (s : State) (d : Nat) (x : Int) : State :=
  let s := if d = 0 then s.rebaseGates else s
  let s := ((s.thatchStepped d x).dpllStepped d x).ppsStepped d x
  ((s.markSkipped d).launchReplan d).ptpStepped d x

/-- The automatic step of domain `d` that waits. -/
def State.autoStep (s : State) (d : Nat) : Option Int := if d = 0 then s.ridge.autoA else s.ridge.autoB

/-- The steps of domain `d` that are due, and its automatic step, no longer wait. -/
def State.dropDue (s : State) (d : Nat) : State :=
  let keep := s.ridge.steps.filter (fun q => !(s.dueSteps d).contains q)
  let s := { s with ridge := { s.ridge with steps := keep } }
  if d = 0 then { s with ridge := { s.ridge with autoA := none } } else { s with ridge := { s.ridge with autoB := none } }

/-- The steps due for domain `d` are applied as one (R38): each command ends with its own code, and nothing moves when none of them
is accepted and no automatic step is due. -/
def State.applySteps (s : State) (d : Nat) : State :=
  let due := s.dueSteps d
  let auto := s.autoStep d
  if (due.isEmpty ∧ auto.isNone) ∨ !s.domRuns d then s else
  let r := sumSteps (s.stepNeeded d) (s.rdS F.RIDGE_x_REQ_STEP_VALUE d) due (auto.getD 0) false []
  let s := s.dropDue d
  let s :=
    if auto.isNone ∧ r.2.all (fun q => q.2 != Code.ok) then s
    else
      let s := if d = 0 then s.stepGates else s
      ((s.stepDomain d r.1 auto.isSome).afterStep d r.1).latchCorr d
  r.2.foldl (fun s q => s.finish q.1 q.2) s

/-- `TIME_STEP_APPLY`: the steps due for domain `dom` at this edge (R30, R38). -/
def execTimeStepApply (dom : Nat) (s : State) : Host.Outcome State Fault Refusal := done (s.applySteps (dom % 2))

/-- `AUTO_STEP_B`: the whole correction that was refused on domain B while JUMP_B_EN = 0, within the one step of the edge (R27). -/
def execAutoStepB (s : State) : Host.Outcome State Fault Refusal :=
  if s.ridge.autoB.isNone then done s else done (s.applySteps 1)

/-- `CLASS_MAP_APPLY`: the staged map takes effect, and each `TIME_MAP` that waits completes (R20, R22). -/
def execClassMapApply (s : State) : Host.Outcome State Fault Refusal :=
  if !s.ridge.mapStaged then done s else
  let old := s.rd F.RIDGE_CLASS_ACT_MAP
  let l := s.ridge.maps
  let s := s.wr F.RIDGE_CLASS_ACT_MAP (s.rd F.RIDGE_CLASS_MAP_MAP)
  let s := { s with ridge := { s.ridge with mapStaged := false, maps := [] } }
  done ((s.ptpRemapped old).finishAll l Code.ok)

end Sys2Proof.Machine
end

