-- ==== Sys2Proof/Machine/Dispatch.lean ====
section
/-! DEFINITION. The dispatch of a command to its meaning, one arm per constructor. -/
namespace Sys2Proof.Machine

def exec (i : Instr) (s : State) : Host.Outcome State Fault Refusal :=
  match i with
  | .beatEdge fec prbs load => Sys2Proof.Machine.execBeatEdge fec prbs load s
  | .phase1 endAt epoch => Sys2Proof.Machine.execPhase1 endAt epoch s
  | .phase2 endAt => Sys2Proof.Machine.execPhase2 endAt s
  | .phase3 endAt temp => Sys2Proof.Machine.execPhase3 endAt temp s
  | .phase4 endAt checks => Sys2Proof.Machine.execPhase4 endAt checks s
  | .phaseSlip p => Sys2Proof.Machine.execPhaseSlip p s
  | .beatOverrun => Sys2Proof.Machine.execBeatOverrun s
  | .autoStepB => Sys2Proof.Machine.execAutoStepB s
  | .slewStart dom => Sys2Proof.Machine.execSlewStart dom s
  | .slewEnd dom => Sys2Proof.Machine.execSlewEnd dom s
  | .timeStep c w0 step => Sys2Proof.Machine.execTimeStep c w0 step s
  | .timeStepApply dom => Sys2Proof.Machine.execTimeStepApply dom s
  | .timeSlew c w0 corr w3 => Sys2Proof.Machine.execTimeSlew c w0 corr w3 s
  | .timeMap c w0 => Sys2Proof.Machine.execTimeMap c w0 s
  | .classMapWrite req w => Sys2Proof.Machine.execClassMapWrite req w s
  | .classMapApply => Sys2Proof.Machine.execClassMapApply s
  | .timeSnap c buf => Sys2Proof.Machine.execTimeSnap c buf s
  | .ridgeBEnable req w => Sys2Proof.Machine.execRidgeBEnable req w s
  | .ridgeBDisable req w => Sys2Proof.Machine.execRidgeBDisable req w s
  | .addWrite req dom frac v => Sys2Proof.Machine.execAddWrite req dom frac v s
  | .addLoad req w => Sys2Proof.Machine.execAddLoad req w s
  | .cmpEnable req n w => Sys2Proof.Machine.execCmpEnable req n w s
  | .cmpDisable req n w => Sys2Proof.Machine.execCmpDisable req n w s
  | .cmpFire n => Sys2Proof.Machine.execCmpFire n s
  | .beatClrAck => Sys2Proof.Machine.execBeatClrAck s
  | .tdcEdge src fall pos => Sys2Proof.Machine.execTdcEdge src fall pos s
  | .windowTimeout n => Sys2Proof.Machine.execWindowTimeout n s
  | .lockLost n => Sys2Proof.Machine.execLockLost n s
  | .lockAcquired n => Sys2Proof.Machine.execLockAcquired n s
  | .lockTimeout n => Sys2Proof.Machine.execLockTimeout n s
  | .tdcChEnable req n w => Sys2Proof.Machine.execTdcChEnable req n w s
  | .tdcChDisable req n w => Sys2Proof.Machine.execTdcChDisable req n w s
  | .tdcStopDone n => Sys2Proof.Machine.execTdcStopDone n s
  | .measUnlock => Sys2Proof.Machine.execMeasUnlock s
  | .measRelock => Sys2Proof.Machine.execMeasRelock s
  | .tdcArrayEnable req w => Sys2Proof.Machine.execTdcArrayEnable req w s
  | .calTrigger temp => Sys2Proof.Machine.execCalTrigger temp s
  | .tdcCalDone n worst binAvg => Sys2Proof.Machine.execTdcCalDone n worst binAvg s
  | .substitute req w => Sys2Proof.Machine.execSubstitute req w s
  | .restore req w => Sys2Proof.Machine.execRestore req w s
  | .spareSwap sel diff => Sys2Proof.Machine.execSpareSwap sel diff s
  | .spareWrite req w => Sys2Proof.Machine.execSpareWrite req w s
  | .prescalerWrite req src w => Sys2Proof.Machine.execPrescalerWrite req src w s
  | .ringRdWrite req n w => Sys2Proof.Machine.execRingRdWrite req n w s
  | .slotEnable req n w => Sys2Proof.Machine.execSlotEnable req n w s
  | .slotDisable req n w => Sys2Proof.Machine.execSlotDisable req n w s
  | .rankWrite req n w => Sys2Proof.Machine.execRankWrite req n w s
  | .qualTimeDone n => Sys2Proof.Machine.execQualTimeDone n s
  | .holdoffDone n => Sys2Proof.Machine.execHoldoffDone n s
  | .rampEnd n => Sys2Proof.Machine.execRampEnd n s
  | .disputeEnd n m => Sys2Proof.Machine.execDisputeEnd n m s
  | .domainLocked dom => Sys2Proof.Machine.execDomainLocked dom s
  | .refRequal c w0 => Sys2Proof.Machine.execRefRequal c w0 s
  | .refRequalApply => Sys2Proof.Machine.execRefRequalApply s
  | .ensSnap c buf => Sys2Proof.Machine.execEnsSnap c buf s
  | .thatchEnable req w => Sys2Proof.Machine.execThatchEnable req w s
  | .thatchDisable req w => Sys2Proof.Machine.execThatchDisable req w s
  | .ensAck => Sys2Proof.Machine.execEnsAck s
  | .oscModeManual req k w => Sys2Proof.Machine.execOscModeManual req k w s
  | .oscModeAuto req k w => Sys2Proof.Machine.execOscModeAuto req k w s
  | .oscModeOff req k w => Sys2Proof.Machine.execOscModeOff req k w s
  | .oscSteerStep k => Sys2Proof.Machine.execOscSteerStep k s
  | .oscSteerApply k => Sys2Proof.Machine.execOscSteerApply k s
  | .oscCodeWrite req k acc w => Sys2Proof.Machine.execOscCodeWrite req k acc w s
  | .uartSend k => Sys2Proof.Machine.execUartSend k s
  | .oscPoll k => Sys2Proof.Machine.execOscPoll k s
  | .pollResponseEnd k bytes err => Sys2Proof.Machine.execPollResponseEnd k bytes err s
  | .oscSend c w0 msg => Sys2Proof.Machine.execOscSend c w0 msg s
  | .probeRetry k => Sys2Proof.Machine.execProbeRetry k s
  | .eavesSnap c buf => Sys2Proof.Machine.execEavesSnap c buf s
  | .dpllEnable req n w => Sys2Proof.Machine.execDpllEnable req n w s
  | .dpllDisable req n w => Sys2Proof.Machine.execDpllDisable req n w s
  | .dpllStopDone n => Sys2Proof.Machine.execDpllStopDone n s
  | .dpllUpdate n meas lost => Sys2Proof.Machine.execDpllUpdate n meas lost s
  | .inputValid n e meas => Sys2Proof.Machine.execInputValid n e meas s
  | .revertSwitch n e meas => Sys2Proof.Machine.execRevertSwitch n e meas s
  | .dpllSwitch req n w meas => Sys2Proof.Machine.execDpllSwitch req n w meas s
  | .dpllLocked n => Sys2Proof.Machine.execDpllLocked n s
  | .apllEnable req m w fref => Sys2Proof.Machine.execApllEnable req m w fref s
  | .apllDisable req m w => Sys2Proof.Machine.execApllDisable req m w s
  | .apllStopDone m => Sys2Proof.Machine.execApllStopDone m s
  | .bandSearch => Sys2Proof.Machine.execBandSearch s
  | .bandSearchDone cnt => Sys2Proof.Machine.execBandSearchDone cnt s
  | .searchRetry m => Sys2Proof.Machine.execSearchRetry m s
  | .apllLock m => Sys2Proof.Machine.execApllLock m s
  | .apllLossOfLock m refLost => Sys2Proof.Machine.execApllLossOfLock m refLost s
  | .apllRefReturn m => Sys2Proof.Machine.execApllRefReturn m s
  | .bypassReturn m => Sys2Proof.Machine.execBypassReturn m s
  | .apllReturn c w0 => Sys2Proof.Machine.execApllReturn c w0 s
  | .outputEnable req o w => Sys2Proof.Machine.execOutputEnable req o w s
  | .outputDisable req o w => Sys2Proof.Machine.execOutputDisable req o w s
  | .fineSkewWrite req idx w => Sys2Proof.Machine.execFineSkewWrite req idx w s
  | .ppsOfsWrite req j w => Sys2Proof.Machine.execPpsOfsWrite req j w s
  | .pulseStart j => Sys2Proof.Machine.execPulseStart j s
  | .pulseEnd j => Sys2Proof.Machine.execPulseEnd j s
  | .outAlign c w0 w1 => Sys2Proof.Machine.execOutAlign c w0 w1 s
  | .outAlignApply => Sys2Proof.Machine.execOutAlignApply s
  | .alignSlewDone o => Sys2Proof.Machine.execAlignSlewDone o s
  | .gnssEnable req w fe sclk => Sys2Proof.Machine.execGnssEnable req w fe sclk s
  | .gnssDisable req w => Sys2Proof.Machine.execGnssDisable req w s
  | .gnssStopDone fe sclk => Sys2Proof.Machine.execGnssStopDone fe sclk s
  | .streamEnable req t w => Sys2Proof.Machine.execStreamEnable req t w s
  | .sclkLoss a => Sys2Proof.Machine.execSclkLoss a s
  | .sclkRestart a => Sys2Proof.Machine.execSclkRestart a s
  | .jamSet t jn => Sys2Proof.Machine.execJamSet t jn s
  | .jamClear t jn => Sys2Proof.Machine.execJamClear t jn s
  | .notchScan peaks jn sat => Sys2Proof.Machine.execNotchScan peaks jn sat s
  | .acqSearchDone found => Sys2Proof.Machine.execAcqSearchDone found s
  | .channelPullInTimeout no => Sys2Proof.Machine.execChannelPullInTimeout no s
  | .channelPhaseLock no => Sys2Proof.Machine.execChannelPhaseLock no s
  | .channelPhaseUnlock no => Sys2Proof.Machine.execChannelPhaseUnlock no s
  | .channelLost no => Sys2Proof.Machine.execChannelLost no s
  | .autoAssign vis => Sys2Proof.Machine.execAutoAssign vis s
  | .gnssChAssign c w0 => Sys2Proof.Machine.execGnssChAssign c w0 s
  | .epochLatch pos => Sys2Proof.Machine.execEpochLatch pos s
  | .solutionDone x => Sys2Proof.Machine.execSolutionDone x s
  | .surveyTimeout => Sys2Proof.Machine.execSurveyTimeout s
  | .gnssDelivery => Sys2Proof.Machine.execGnssDelivery s
  | .gnssSleep c w0 => Sys2Proof.Machine.execGnssSleep c w0 s
  | .gnssWake c => Sys2Proof.Machine.execGnssWake c s
  | .gnssSurvey c w0 => Sys2Proof.Machine.execGnssSurvey c w0 s
  | .gnssHintSave c => Sys2Proof.Machine.execGnssHintSave c s
  | .hintPeriodicSave => Sys2Proof.Machine.execHintPeriodicSave s
  | .gnssCold c => Sys2Proof.Machine.execGnssCold c s
  | .groupEnable req g w => Sys2Proof.Machine.execGroupEnable req g w s
  | .groupDisable req g w => Sys2Proof.Machine.execGroupDisable req g w s
  | .moduleIdent g mode fec => Sys2Proof.Machine.execModuleIdent g mode fec s
  | .portEnable req p w => Sys2Proof.Machine.execPortEnable req p w s
  | .portDisable req p w => Sys2Proof.Machine.execPortDisable req p w s
  | .portStopDone grp n => Sys2Proof.Machine.execPortStopDone grp n s
  | .anResolved p mode fec => Sys2Proof.Machine.execAnResolved p mode fec s
  | .anTimeout p => Sys2Proof.Machine.execAnTimeout p s
  | .trainingDone p eq => Sys2Proof.Machine.execTrainingDone p eq s
  | .trainingTimeout p => Sys2Proof.Machine.execTrainingTimeout p s
  | .alignLock p corr => Sys2Proof.Machine.execAlignLock p corr s
  | .alignTimeout p => Sys2Proof.Machine.execAlignTimeout p s
  | .linkFaultRx p remote => Sys2Proof.Machine.execLinkFaultRx p remote s
  | .linkFaultClear p => Sys2Proof.Machine.execLinkFaultClear p s
  | .linkDown p => Sys2Proof.Machine.execLinkDown p s
  | .adaptFreeze l => Sys2Proof.Machine.execAdaptFreeze l s
  | .adaptResume l => Sys2Proof.Machine.execAdaptResume l s
  | .eyeMeasure l eye => Sys2Proof.Machine.execEyeMeasure l eye s
  | .readapt req l w => Sys2Proof.Machine.execReadapt req l w s
  | .readaptDone l sk cdr ctle dfe => Sys2Proof.Machine.execReadaptDone l sk cdr ctle dfe s
  | .frameRx p f pred => Sys2Proof.Machine.execFrameRx p f pred s
  | .pauseRx p f => Sys2Proof.Machine.execPauseRx p f s
  | .pauseExpire p prio => Sys2Proof.Machine.execPauseExpire p prio s
  | .pauseRepeat p => Sys2Proof.Machine.execPauseRepeat p s
  | .esmcRx p f => Sys2Proof.Machine.execEsmcRx p f s
  | .esmcTimeout g => Sys2Proof.Machine.execEsmcTimeout g s
  | .esmcTx g event => Sys2Proof.Machine.execEsmcTx g event s
  | .dozeEnter req p w => Sys2Proof.Machine.execDozeEnter req p w s
  | .portWake req p cause w => Sys2Proof.Machine.execPortWake req p cause w s
  | .corrReload p corr => Sys2Proof.Machine.execCorrReload p corr s
  | .pmRingEnable req g w => Sys2Proof.Machine.execPmRingEnable req g w s
  | .pmRingRdWrite req g w => Sys2Proof.Machine.execPmRingRdWrite req g w s
  | .launchArm req g k w => Sys2Proof.Machine.execLaunchArm req g k w s
  | .launchCancel req g k w => Sys2Proof.Machine.execLaunchCancel req g k w s
  | .launchCommit g k delta early place => Sys2Proof.Machine.execLaunchCommit g k delta early place s
  | .launchSend g k => Sys2Proof.Machine.execLaunchSend g k s
  | .launchEnd g k => Sys2Proof.Machine.execLaunchEnd g k s
  | .lqDisable req g w => Sys2Proof.Machine.execLqDisable req g w s
  | .lqStopDone g => Sys2Proof.Machine.execLqStopDone g s
  | .pteEnable req w => Sys2Proof.Machine.execPteEnable req w s
  | .instanceEnable req idx w => Sys2Proof.Machine.execInstanceEnable req idx w s
  | .instanceDisable req idx w => Sys2Proof.Machine.execInstanceDisable req idx w s
  | .ptpMsgDue idx p kind sess place late => Sys2Proof.Machine.execPtpMsgDue idx p kind sess place late s
  | .followUpSend p => Sys2Proof.Machine.execFollowUpSend p s
  | .delayReqRx p f pred => Sys2Proof.Machine.execDelayReqRx p f pred s
  | .pdelayReqRx p f pred => Sys2Proof.Machine.execPdelayReqRx p f pred s
  | .pdelayReqDue p place => Sys2Proof.Machine.execPdelayReqDue p place s
  | .pdelayRespRx p f => Sys2Proof.Machine.execPdelayRespRx p f s
  | .announceRx p f => Sys2Proof.Machine.execAnnounceRx p f s
  | .foreignTimeout idx p => Sys2Proof.Machine.execForeignTimeout idx p s
  | .unicastRequestRx p f => Sys2Proof.Machine.execUnicastRequestRx p f s
  | .grantTx => Sys2Proof.Machine.execGrantTx s
  | .cancelRx p f => Sys2Proof.Machine.execCancelRx p f s
  | .grantTick => Sys2Proof.Machine.execGrantTick s
  | .sessAdd c w0 buf => Sys2Proof.Machine.execSessAdd c w0 buf s
  | .sessDel c w0 => Sys2Proof.Machine.execSessDel c w0 s
  | .sessSa c w0 => Sys2Proof.Machine.execSessSa c w0 s
  | .sessFlush c w0 => Sys2Proof.Machine.execSessFlush c w0 s
  | .sessionApply => Sys2Proof.Machine.execSessionApply s
  | .clientEnable req c w => Sys2Proof.Machine.execClientEnable req c w s
  | .clientDreqDue c place => Sys2Proof.Machine.execClientDreqDue c place s
  | .clientMsgRx p f => Sys2Proof.Machine.execClientMsgRx p f s
  | .ntpClientResponseRx p f => Sys2Proof.Machine.execNtpClientResponseRx p f s
  | .clientWindowEnd c => Sys2Proof.Machine.execClientWindowEnd c s
  | .grantRenew c => Sys2Proof.Machine.execGrantRenew c s
  | .clientAnnounceTimeout c => Sys2Proof.Machine.execClientAnnounceTimeout c s
  | .ntpRequestRx p f pred => Sys2Proof.Machine.execNtpRequestRx p f pred s
  | .answerSend p place late => Sys2Proof.Machine.execAnswerSend p place late s
  | .ntsRotate c w0 w1 => Sys2Proof.Machine.execNtsRotate c w0 w1 s
  | .rotateApply => Sys2Proof.Machine.execRotateApply s
  | .ntsCookieSeal c w0 w1 keys buf => Sys2Proof.Machine.execNtsCookieSeal c w0 w1 keys buf s
  | .frankEnable req w => Sys2Proof.Machine.execFrankEnable req w s
  | .ntpServeEnable req w => Sys2Proof.Machine.execNtpServeEnable req w s
  | .ntsServeEnable req w => Sys2Proof.Machine.execNtsServeEnable req w s
  | .pipeOosWrite req w => Sys2Proof.Machine.execPipeOosWrite req w s
  | .kat req w => Sys2Proof.Machine.execKat req w s
  | .katDone fail => Sys2Proof.Machine.execKatDone fail s
  | .drbgFail => Sys2Proof.Machine.execDrbgFail s
  | .drbgRecover => Sys2Proof.Machine.execDrbgRecover s
  | .pipeParityError k p => Sys2Proof.Machine.execPipeParityError k p s
  | .slateLoad c w0 buf => Sys2Proof.Machine.execSlateLoad c w0 buf s
  | .slateDerive c w0 w1 buf => Sys2Proof.Machine.execSlateDerive c w0 w1 buf s
  | .slateInvalidate c w0 => Sys2Proof.Machine.execSlateInvalidate c w0 s
  | .slateKcv c w0 => Sys2Proof.Machine.execSlateKcv c w0 s
  | .slateApply bad => Sys2Proof.Machine.execSlateApply bad s
  | .slateZeroise n => Sys2Proof.Machine.execSlateZeroise n s
  | .remaskPass bad us => Sys2Proof.Machine.execRemaskPass bad us s
  | .tamper idx => Sys2Proof.Machine.execTamper idx s
  | .tamperAck => Sys2Proof.Machine.execTamperAck s
  | .persLockWrite req w => Sys2Proof.Machine.execPersLockWrite req w s
  | .loadLockWrite req w => Sys2Proof.Machine.execLoadLockWrite req w s
  | .tampCfgWrite req w => Sys2Proof.Machine.execTampCfgWrite req w s
  | .hostLinkReset speed width => Sys2Proof.Machine.execHostLinkReset speed width s
  | .d3hotEnter => Sys2Proof.Machine.execD3hotEnter s
  | .d0Return => Sys2Proof.Machine.execD0Return s
  | .bar2Access write addr dw data e => Sys2Proof.Machine.execBar2Access write addr dw data e s
  | .cmdDoorbell req w => Sys2Proof.Machine.execCmdDoorbell req w s
  | .cmdFetch ws buf recFail rdFail wrFail e => Sys2Proof.Machine.execCmdFetch ws buf recFail rdFail wrFail e s
  | .cplHeadWrite req w => Sys2Proof.Machine.execCplHeadWrite req w s
  | .evtHeadWrite req w => Sys2Proof.Machine.execEvtHeadWrite req w s
  | .irqTimer => Sys2Proof.Machine.execIrqTimer s
  | .commandTimeout c lost => Sys2Proof.Machine.execCommandTimeout c lost s
  | .regRd c p out e => Sys2Proof.Machine.execRegRd c p out e s
  | .regWr c p input e => Sys2Proof.Machine.execRegWr c p input e s
  | .regRmw c p e => Sys2Proof.Machine.execRegRmw c p e s
  | .tblRd c p buf => Sys2Proof.Machine.execTblRd c p buf s
  | .tblWr c p input e => Sys2Proof.Machine.execTblWr c p input e s
  | .sysNop c => Sys2Proof.Machine.execSysNop c s
  | .sysReset c => Sys2Proof.Machine.execSysReset c s
  | .sysRelease c => Sys2Proof.Machine.execSysRelease c s
  | .hostTxDescriptor g w8 w12 id frame place dmaErr => Sys2Proof.Machine.execHostTxDescriptor g w8 w12 id frame place dmaErr s
  | .hostRxPost req g w bufs => Sys2Proof.Machine.execHostRxPost req g w bufs s
  | .letterboxEnable req w => Sys2Proof.Machine.execLetterboxEnable req w s
  | .letterboxStopDone => Sys2Proof.Machine.execLetterboxStopDone s
  | .frameRingEnable req g w => Sys2Proof.Machine.execFrameRingEnable req g w s
  | .mspiRead addr n e => Sys2Proof.Machine.execMspiRead addr n e s
  | .mspiWrite addr data e => Sys2Proof.Machine.execMspiWrite addr data e s
  | .mspiStatus => Sys2Proof.Machine.execMspiStatus s
  | .mailboxGo req w e => Sys2Proof.Machine.execMailboxGo req w e s
  | .norPortEnable req q w => Sys2Proof.Machine.execNorPortEnable req q w s
  | .norPortDisable req q w => Sys2Proof.Machine.execNorPortDisable req q w s
  | .norSignalDetect q => Sys2Proof.Machine.execNorSignalDetect q s
  | .norTrained q => Sys2Proof.Machine.execNorTrained q s
  | .norTrainTimeout q => Sys2Proof.Machine.execNorTrainTimeout q s
  | .capRx q a0 a1 => Sys2Proof.Machine.execCapRx q a0 a1 s
  | .speedLock q => Sys2Proof.Machine.execSpeedLock q s
  | .speedTimeout q => Sys2Proof.Machine.execSpeedTimeout q s
  | .norLinkDown q => Sys2Proof.Machine.execNorLinkDown q s
  | .norFrameRx q words codeErr abort fail e => Sys2Proof.Machine.execNorFrameRx q words codeErr abort fail e s
  | .norAckRx q a0 a1 => Sys2Proof.Machine.execNorAckRx q a0 a1 s
  | .norNakRx q a0 a1 => Sys2Proof.Machine.execNorNakRx q a0 a1 s
  | .norReplayTimeout q => Sys2Proof.Machine.execNorReplayTimeout q s
  | .crdRx q a0 a1 => Sys2Proof.Machine.execCrdRx q a0 a1 s
  | .norAddrRx w0 w1 => Sys2Proof.Machine.execNorAddrRx w0 w1 s
  | .norLinkRx j w0 w1 => Sys2Proof.Machine.execNorLinkRx j w0 w1 s
  | .norBindClr => Sys2Proof.Machine.execNorBindClr s
  | .n1Enter q => Sys2Proof.Machine.execN1Enter q s
  | .n1Exit q rx => Sys2Proof.Machine.execN1Exit q rx s
  | .n2Request q => Sys2Proof.Machine.execN2Request q s
  | .n2reqRx q => Sys2Proof.Machine.execN2reqRx q s
  | .n2ackRx q ack => Sys2Proof.Machine.execN2ackRx q ack s
  | .n2Exit q => Sys2Proof.Machine.execN2Exit q s
  | .tsExchangeDue q t1 => Sys2Proof.Machine.execTsExchangeDue q t1 s
  | .tsqRx q xch t2 t3 => Sys2Proof.Machine.execTsqRx q xch t2 t3 s
  | .tsrRx q xch t4 => Sys2Proof.Machine.execTsrRx q xch t4 s
  | .tsRx q ws => Sys2Proof.Machine.execTsRx q ws s
  | .treeTimeout => Sys2Proof.Machine.execTreeTimeout s
  | .pairEnable req w => Sys2Proof.Machine.execPairEnable req w s
  | .pairDisable req w => Sys2Proof.Machine.execPairDisable req w s
  | .mirrorRx ws => Sys2Proof.Machine.execMirrorRx ws s
  | .leaseExpiry => Sys2Proof.Machine.execLeaseExpiry s
  | .guardEnd => Sys2Proof.Machine.execGuardEnd s
  | .joinTimeout => Sys2Proof.Machine.execJoinTimeout s
  | .doubleHoldResolve => Sys2Proof.Machine.execDoubleHoldResolve s
  | .standbyEnter => Sys2Proof.Machine.execStandbyEnter s
  | .syncAlign => Sys2Proof.Machine.execSyncAlign s
  | .mirrorCmdApply => Sys2Proof.Machine.execMirrorCmdApply s
  | .handoverEdge => Sys2Proof.Machine.execHandoverEdge s
  | .revertStart => Sys2Proof.Machine.execRevertStart s
  | .pairTake c w0 => Sys2Proof.Machine.execPairTake c w0 s
  | .pairYield c => Sys2Proof.Machine.execPairYield c s
  | .pairTest c w0 => Sys2Proof.Machine.execPairTest c w0 s
  | .digestRecompute => Sys2Proof.Machine.execDigestRecompute s
  | .takePadEnd => Sys2Proof.Machine.execTakePadEnd s
  | .registerWrite req addr size data e => Sys2Proof.Machine.execRegisterWrite req addr size data e s
  | .aliasWrite req o b v e => Sys2Proof.Machine.execAliasWrite req o b v e s
  | .crossingTimeout req addr size write applied data e => Sys2Proof.Machine.execCrossingTimeout req addr size write applied data e s
  | .topAccAck => Sys2Proof.Machine.execTopAccAck s
  | .stallDetect => Sys2Proof.Machine.execStallDetect s
  | .fcuAck req w => Sys2Proof.Machine.execFcuAck req w s
  | .ackAll req w => Sys2Proof.Machine.execAckAll req w s
  | .fcuCfgWrite req idx w => Sys2Proof.Machine.execFcuCfgWrite req idx w s
  | .cfgLockWrite req w => Sys2Proof.Machine.execCfgLockWrite req w s
  | .fcuForce req j w => Sys2Proof.Machine.execFcuForce req j w s
  | .powerOn => Sys2Proof.Machine.execPowerOn s
  | .resetNAssert => Sys2Proof.Machine.execResetNAssert s
  | .resetNRelease => Sys2Proof.Machine.execResetNRelease s
  | .railFault b => Sys2Proof.Machine.execRailFault b s
  | .vbatLoss => Sys2Proof.Machine.execVbatLoss s
  | .xoRetry => Sys2Proof.Machine.execXoRetry s
  | .fuseLoad xoHz err rtc temp => Sys2Proof.Machine.execFuseLoad xoHz err rtc temp s
  | .imageVerify imgA imgB => Sys2Proof.Machine.execImageVerify imgA imgB s
  | .imageApply e => Sys2Proof.Machine.execImageApply e s
  | .cmdsEntry e => Sys2Proof.Machine.execCmdsEntry e s
  | .ready ms => Sys2Proof.Machine.execReady ms s
  | .readyTimeout => Sys2Proof.Machine.execReadyTimeout s
  | .rtcWrite req w => Sys2Proof.Machine.execRtcWrite req w s
  | .islandPowerWrite req w => Sys2Proof.Machine.execIslandPowerWrite req w s
  | .islandPowerDone idx => Sys2Proof.Machine.execIslandPowerDone idx s
  | .maintRun c w0 => Sys2Proof.Machine.execMaintRun c w0 s
  | .activityStart q => Sys2Proof.Machine.execActivityStart q s
  | .activityEnd q ok learn => Sys2Proof.Machine.execActivityEnd q ok learn s
  | .waitMaxExceeded q => Sys2Proof.Machine.execWaitMaxExceeded q s
  | .selftestStep tgt last failed fe sclk => Sys2Proof.Machine.execSelftestStep tgt last failed fe sclk s
  | .histCommit => Sys2Proof.Machine.execHistCommit s
  | .dramCal => Sys2Proof.Machine.execDramCal s
  | .eccError kind addr lost => Sys2Proof.Machine.execEccError kind addr lost s
  | .dramOn req w => Sys2Proof.Machine.execDramOn req w s
  | .dramOff req w => Sys2Proof.Machine.execDramOff req w s
  | .channelPullInDone no => Sys2Proof.Machine.execChannelPullInDone no s
  | .xoInLoss bad => Sys2Proof.Machine.execXoInLoss bad s
  | .corePllUnlock unlocked => Sys2Proof.Machine.execCorePllUnlock unlocked s
  | .rtcOscStop stopped => Sys2Proof.Machine.execRtcOscStop stopped s
  | .railReturn b => Sys2Proof.Machine.execRailReturn b s
  | .vbatWarning low => Sys2Proof.Machine.execVbatWarning low s
  | .vbatPowerUp => Sys2Proof.Machine.execVbatPowerUp s
  | .hostLinkUp speed width => Sys2Proof.Machine.execHostLinkUp speed width s
  | .pcieConfigRequest dw => Sys2Proof.Machine.execPcieConfigRequest dw s
  | .norPortStopDone q => Sys2Proof.Machine.execNorPortStopDone q s
  | .outputStopDone o => Sys2Proof.Machine.execOutputStopDone o s
  | .pteStopDone b => Sys2Proof.Machine.execPteStopDone b s
  | .frankStopDone b => Sys2Proof.Machine.execFrankStopDone b s
  | .pairStopDone => Sys2Proof.Machine.execPairStopDone s
  | .gnssSleepDone => Sys2Proof.Machine.execGnssSleepDone s
  | .dozeEntryDone p => Sys2Proof.Machine.execDozeEntryDone p s
  | .eiRx q => Sys2Proof.Machine.execEiRx q s

end Sys2Proof.Machine
end

