-- ==== Sys2Proof/WellFormed.lean ====
section
/-! DEFINITION. Which commands are well formed: the operands lie in the ranges that the spec gives what they stand for. A command
that is not well formed stands for nothing in the spec; exec is total on it all the same (assumption 6). -/
namespace Sys2Proof

/-- A requester of Table REG-7 (spec/15_registers_map.md). -/
def reqOk (r : Nat) : Bool := decide (r < 6)

/-- A 32-bit word, and a list of them. -/
def w32 (w : Nat) : Bool := decide (w < 4294967296)
def wordsOk (l : List Nat) : Bool := l.all w32

/-- Bytes. -/
def bytesOk (l : List Nat) : Bool := l.all (fun b => decide (b < 256))

/-- A beat phase (Table RIDGE-5, spec/01_ridge_time.md). -/
def phaseNo (p : Nat) : Bool := decide (1 ≤ p) && decide (p ≤ 4)

/-- A command reference: a 6-bit device number and a 10-bit tag (Table HOST-2, spec/12_host_letterbox.md). -/
def CmdRef.wf (c : CmdRef) : Bool := decide (c.dn < 64) && decide (c.tag < 1024)

/-- A received frame is bytes. -/
def RxFrame.wf (f : RxFrame) : Bool := bytesOk f.bytes

/-- The command is well formed. -/
def Instr.wf : Instr → Bool
  | .beatEdge _ _ _ => true
  | .phase1 _ _ => true
  | .phase2 _ => true
  | .phase3 _ _ => true
  | .phase4 _ _ => true
  | .phaseSlip p => phaseNo p
  | .beatOverrun => true
  | .autoStepB => true
  | .slewStart dom => decide (dom < 2)
  | .slewEnd dom => decide (dom < 2)
  | .timeStep c w0 step => c.wf && w32 w0 && decide (step < 2 ^ 64)
  | .timeStepApply dom => decide (dom < 2)
  | .timeSlew c w0 corr w3 => c.wf && w32 w0 && decide (corr < 2 ^ 64) && w32 w3
  | .timeMap c w0 => c.wf && w32 w0
  | .classMapWrite req w => reqOk req && w32 w
  | .classMapApply => true
  | .timeSnap c _ => c.wf
  | .ridgeBEnable req w => reqOk req && w32 w
  | .ridgeBDisable req w => reqOk req && w32 w
  | .addWrite req dom _ v => reqOk req && decide (dom < 2) && decide (v < 2 ^ 64)
  | .addLoad req w => reqOk req && w32 w
  | .cmpEnable req n w => reqOk req && decide (n < 32) && w32 w
  | .cmpDisable req n w => reqOk req && decide (n < 32) && w32 w
  | .cmpFire n => decide (n < 32)
  | .beatClrAck => true
  | .tdcEdge src _ pos => decide (src < 64) && decide (pos < 65536)
  | .windowTimeout n => decide (n < 48)
  | .lockLost n => decide (n < 48)
  | .lockAcquired n => decide (n < 48)
  | .lockTimeout n => decide (n < 48)
  | .tdcChEnable req n w => reqOk req && decide (n < 48) && w32 w
  | .tdcChDisable req n w => reqOk req && decide (n < 48) && w32 w
  | .tdcStopDone n => decide (n < 48)
  | .measUnlock => true
  | .measRelock => true
  | .tdcArrayEnable req w => reqOk req && w32 w
  | .calTrigger _ => true
  | .tdcCalDone n _ _ => decide (n < 48)
  | .substitute req w => reqOk req && w32 w
  | .restore req w => reqOk req && w32 w
  | .spareSwap sel _ => decide (sel < 2)
  | .spareWrite req w => reqOk req && w32 w
  | .prescalerWrite req src w => reqOk req && decide (src < 64) && w32 w
  | .ringRdWrite req n w => reqOk req && decide (n < 48) && w32 w
  | .slotEnable req n w => reqOk req && decide (n < 24) && w32 w
  | .slotDisable req n w => reqOk req && decide (n < 24) && w32 w
  | .rankWrite req n w => reqOk req && decide (n < 24) && w32 w
  | .qualTimeDone n => decide (n < 24)
  | .holdoffDone n => decide (n < 24)
  | .rampEnd n => decide (n < 24)
  | .disputeEnd n m => decide (n < 24) && decide (m < 24)
  | .domainLocked dom => decide (dom < 2)
  | .refRequal c w0 => c.wf && w32 w0
  | .refRequalApply => true
  | .ensSnap c _ => c.wf
  | .thatchEnable req w => reqOk req && w32 w
  | .thatchDisable req w => reqOk req && w32 w
  | .ensAck => true
  | .oscModeManual req k w => reqOk req && decide (k < 3) && w32 w
  | .oscModeAuto req k w => reqOk req && decide (k < 3) && w32 w
  | .oscModeOff req k w => reqOk req && decide (k < 3) && w32 w
  | .oscSteerStep k => decide (k < 3)
  | .oscSteerApply k => decide (k < 3)
  | .oscCodeWrite req k _ w => reqOk req && decide (k < 3) && w32 w
  | .uartSend k => decide (k < 3)
  | .oscPoll k => decide (k < 3)
  | .pollResponseEnd k bytes _ => decide (k < 3) && bytesOk bytes
  | .oscSend c w0 msg => c.wf && w32 w0 && wordsOk msg
  | .probeRetry k => decide (k < 3)
  | .eavesSnap c _ => c.wf
  | .dpllEnable req n w => reqOk req && decide (n < 8) && w32 w
  | .dpllDisable req n w => reqOk req && decide (n < 8) && w32 w
  | .dpllStopDone n => decide (n < 8)
  | .dpllUpdate n _ _ => decide (n < 8)
  | .inputValid n e _ => decide (n < 8) && decide (e < 4)
  | .revertSwitch n e _ => decide (n < 8) && decide (e < 4)
  | .dpllSwitch req n w _ => reqOk req && decide (n < 8) && w32 w
  | .dpllLocked n => decide (n < 8)
  | .apllEnable req m w _ => reqOk req && decide (m < 6) && w32 w
  | .apllDisable req m w => reqOk req && decide (m < 6) && w32 w
  | .apllStopDone m => decide (m < 6)
  | .bandSearch => true
  | .bandSearchDone _ => true
  | .searchRetry m => decide (m < 6)
  | .apllLock m => decide (m < 6)
  | .apllLossOfLock m _ => decide (m < 6)
  | .apllRefReturn m => decide (m < 6)
  | .bypassReturn m => decide (m < 6)
  | .apllReturn c w0 => c.wf && w32 w0
  | .outputEnable req o w => reqOk req && decide (o < 24) && w32 w
  | .outputDisable req o w => reqOk req && decide (o < 24) && w32 w
  | .fineSkewWrite req i w => reqOk req && decide (i < 16) && w32 w
  | .ppsOfsWrite req j w => reqOk req && decide (j < 8) && w32 w
  | .pulseStart j => decide (j < 8)
  | .pulseEnd j => decide (j < 8)
  | .outAlign c w0 w1 => c.wf && w32 w0 && w32 w1
  | .outAlignApply => true
  | .alignSlewDone o => decide (o < 24)
  | .gnssEnable req w _ sclk => reqOk req && w32 w && decide (sclk < 4)
  | .gnssDisable req w => reqOk req && w32 w
  | .gnssStopDone _ sclk => decide (sclk < 4)
  | .streamEnable req t w => reqOk req && decide (t < 8) && w32 w
  | .sclkLoss a => decide (a < 2)
  | .sclkRestart a => decide (a < 2)
  | .jamSet t _ => decide (t < 8)
  | .jamClear t _ => decide (t < 8)
  | .notchScan _ _ _ => true
  | .acqSearchDone _ => true
  | .channelPullInTimeout no => decide (no < 384)
  | .channelPhaseLock no => decide (no < 384)
  | .channelPhaseUnlock no => decide (no < 384)
  | .channelLost no => decide (no < 384)
  | .autoAssign _ => true
  | .gnssChAssign c w0 => c.wf && w32 w0
  | .epochLatch pos => decide (pos < 65536)
  | .solutionDone _ => true
  | .surveyTimeout => true
  | .gnssDelivery => true
  | .gnssSleep c w0 => c.wf && w32 w0
  | .gnssWake c => c.wf
  | .gnssSurvey c w0 => c.wf && w32 w0
  | .gnssHintSave c => c.wf
  | .hintPeriodicSave => true
  | .gnssCold c => c.wf
  | .groupEnable req g w => reqOk req && decide (g < 8) && w32 w
  | .groupDisable req g w => reqOk req && decide (g < 8) && w32 w
  | .moduleIdent g _ _ => decide (g < 8)
  | .portEnable req p w => reqOk req && decide (p < 32) && w32 w
  | .portDisable req p w => reqOk req && decide (p < 32) && w32 w
  | .portStopDone grp n => decide (n < (if grp then 8 else 32))
  | .anResolved p _ _ => decide (p < 32)
  | .anTimeout p => decide (p < 32)
  | .trainingDone p _ => decide (p < 32)
  | .trainingTimeout p => decide (p < 32)
  | .alignLock p _ => decide (p < 32)
  | .alignTimeout p => decide (p < 32)
  | .linkFaultRx p _ => decide (p < 32)
  | .linkFaultClear p => decide (p < 32)
  | .linkDown p => decide (p < 32)
  | .adaptFreeze l => decide (l < 32)
  | .adaptResume l => decide (l < 32)
  | .eyeMeasure l _ => decide (l < 32)
  | .readapt req l w => reqOk req && decide (l < 32) && w32 w
  | .readaptDone l _ _ _ _ => decide (l < 32)
  | .frameRx p f _ => decide (p < 32) && f.wf
  | .pauseRx p f => decide (p < 32) && f.wf
  | .pauseExpire p prio => decide (p < 32) && decide (prio < 8)
  | .pauseRepeat p => decide (p < 32)
  | .esmcRx p f => decide (p < 32) && f.wf
  | .esmcTimeout g => decide (g < 8)
  | .esmcTx g _ => decide (g < 8)
  | .dozeEnter req p w => reqOk req && decide (p < 32) && w32 w
  | .portWake req p cause w => reqOk req && decide (p < 32) && decide (cause < 3) && w32 w
  | .corrReload p _ => decide (p < 32)
  | .pmRingEnable req g w => reqOk req && decide (g < 8) && w32 w
  | .pmRingRdWrite req g w => reqOk req && decide (g < 8) && w32 w
  | .launchArm req g k w => reqOk req && decide (g < 8) && decide (k < 2048) && w32 w
  | .launchCancel req g k w => reqOk req && decide (g < 8) && decide (k < 2048) && w32 w
  | .launchCommit g k _ _ _ => decide (g < 8) && decide (k < 2048)
  | .launchSend g k => decide (g < 8) && decide (k < 2048)
  | .launchEnd g k => decide (g < 8) && decide (k < 2048)
  | .lqDisable req g w => reqOk req && decide (g < 8) && w32 w
  | .lqStopDone g => decide (g < 8)
  | .pteEnable req w => reqOk req && w32 w
  | .instanceEnable req i w => reqOk req && decide (i < 2) && w32 w
  | .instanceDisable req i w => reqOk req && decide (i < 2) && w32 w
  | .ptpMsgDue i p kind sess _ _ => decide (i < 2) && decide (p < 32) && decide (kind < 2) && decide (sess ≤ 8192)
  | .followUpSend p => decide (p < 32)
  | .delayReqRx p f _ => decide (p < 32) && f.wf
  | .pdelayReqRx p f _ => decide (p < 32) && f.wf
  | .pdelayReqDue p _ => decide (p < 32)
  | .pdelayRespRx p f => decide (p < 32) && f.wf
  | .announceRx p f => decide (p < 32) && f.wf
  | .foreignTimeout i p => decide (i < 2) && decide (p < 32)
  | .unicastRequestRx p f => decide (p < 32) && f.wf
  | .grantTx => true
  | .cancelRx p f => decide (p < 32) && f.wf
  | .grantTick => true
  | .sessAdd c w0 buf => c.wf && w32 w0 && bytesOk buf
  | .sessDel c w0 => c.wf && w32 w0
  | .sessSa c w0 => c.wf && w32 w0
  | .sessFlush c w0 => c.wf && w32 w0
  | .sessionApply => true
  | .clientEnable req c w => reqOk req && decide (c < 4) && w32 w
  | .clientDreqDue c _ => decide (c < 4)
  | .clientMsgRx p f => decide (p < 32) && f.wf
  | .ntpClientResponseRx p f => decide (p < 32) && f.wf
  | .clientWindowEnd c => decide (c < 4)
  | .grantRenew c => decide (c < 4)
  | .clientAnnounceTimeout c => decide (c < 4)
  | .ntpRequestRx p f _ => decide (p < 32) && f.wf
  | .answerSend p _ _ => decide (p < 32)
  | .ntsRotate c w0 w1 => c.wf && w32 w0 && w32 w1
  | .rotateApply => true
  | .ntsCookieSeal c w0 w1 keys _ => c.wf && w32 w0 && w32 w1 && bytesOk keys
  | .frankEnable req w => reqOk req && w32 w
  | .ntpServeEnable req w => reqOk req && w32 w
  | .ntsServeEnable req w => reqOk req && w32 w
  | .pipeOosWrite req w => reqOk req && w32 w
  | .kat req w => reqOk req && w32 w
  | .katDone fail => decide (fail < 2 ^ 12)
  | .drbgFail => true
  | .drbgRecover => true
  | .pipeParityError k p => decide (k < 12) && decide (p < 32)
  | .slateLoad c w0 buf => c.wf && w32 w0 && bytesOk buf
  | .slateDerive c w0 w1 buf => c.wf && w32 w0 && w32 w1 && bytesOk buf
  | .slateInvalidate c w0 => c.wf && w32 w0
  | .slateKcv c w0 => c.wf && w32 w0
  | .slateApply _ => true
  | .slateZeroise n => decide (n < 256)
  | .remaskPass _ _ => true
  | .tamper i => decide (i < 2)
  | .tamperAck => true
  | .persLockWrite req w => reqOk req && w32 w
  | .loadLockWrite req w => reqOk req && w32 w
  | .tampCfgWrite req w => reqOk req && w32 w
  | .hostLinkReset _ _ => true
  | .d3hotEnter => true
  | .d0Return => true
  | .bar2Access _ addr _ data _ => decide (addr < 2 ^ 24) && wordsOk data
  | .cmdDoorbell req w => reqOk req && w32 w
  | .cmdFetch ws buf _ _ _ _ => wordsOk ws && bytesOk buf
  | .cplHeadWrite req w => reqOk req && w32 w
  | .evtHeadWrite req w => reqOk req && w32 w
  | .irqTimer => true
  | .commandTimeout c _ => c.wf
  | .regRd c p _ _ => c.wf && wordsOk p
  | .regWr c p input _ => c.wf && wordsOk p && input.all bytesOk
  | .regRmw c p _ => c.wf && wordsOk p
  | .tblRd c p _ => c.wf && wordsOk p
  | .tblWr c p input _ => c.wf && wordsOk p && bytesOk input
  | .sysNop c => c.wf
  | .sysReset c => c.wf
  | .sysRelease c => c.wf
  | .hostTxDescriptor g w8 w12 id frame _ _ => decide (g < 8) && w32 w8 && w32 w12 && w32 id && bytesOk frame
  | .hostRxPost req g w _ => reqOk req && decide (g < 8) && w32 w
  | .letterboxEnable req w => reqOk req && w32 w
  | .letterboxStopDone => true
  | .frameRingEnable req g w => reqOk req && decide (g < 8) && w32 w
  | .mspiRead addr _ _ => decide (addr < 2 ^ 24)
  | .mspiWrite addr data _ => decide (addr < 2 ^ 24) && bytesOk data
  | .mspiStatus => true
  | .mailboxGo req w _ => reqOk req && w32 w
  | .norPortEnable req q w => reqOk req && decide (q < 6) && w32 w
  | .norPortDisable req q w => reqOk req && decide (q < 6) && w32 w
  | .norSignalDetect q => decide (q < 6)
  | .norTrained q => decide (q < 6)
  | .norTrainTimeout q => decide (q < 6)
  | .capRx q a0 a1 => decide (q < 6) && decide (a0 < 256) && decide (a1 < 256)
  | .speedLock q => decide (q < 6)
  | .speedTimeout q => decide (q < 6)
  | .norLinkDown q => decide (q < 6)
  | .norFrameRx q words _ _ _ _ => decide (q < 6) && wordsOk words
  | .norAckRx q a0 a1 => decide (q < 6) && decide (a0 < 256) && decide (a1 < 256)
  | .norNakRx q a0 a1 => decide (q < 6) && decide (a0 < 256) && decide (a1 < 256)
  | .norReplayTimeout q => decide (q < 6)
  | .crdRx q a0 a1 => decide (q < 6) && decide (a0 < 256) && decide (a1 < 256)
  | .norAddrRx w0 w1 => w32 w0 && w32 w1
  | .norLinkRx j w0 w1 => decide (j < 4) && w32 w0 && w32 w1
  | .norBindClr => true
  | .n1Enter q => decide (q < 6)
  | .n1Exit q _ => decide (q < 6)
  | .n2Request q => decide (q < 6)
  | .n2reqRx q => decide (q < 6)
  | .n2ackRx q _ => decide (q < 6)
  | .n2Exit q => decide (q < 6)
  | .tsExchangeDue q t1 => decide (q < 6) && decide (t1 < 2 ^ 64)
  | .tsqRx q xch t2 t3 => decide (q < 6) && decide (xch < 65536) && decide (t2 < 2 ^ 64) && decide (t3 < 2 ^ 64)
  | .tsrRx q xch t4 => decide (q < 6) && decide (xch < 65536) && decide (t4 < 2 ^ 64)
  | .tsRx q ws => decide (q < 6) && wordsOk ws
  | .treeTimeout => true
  | .pairEnable req w => reqOk req && w32 w
  | .pairDisable req w => reqOk req && w32 w
  | .mirrorRx ws => wordsOk ws
  | .leaseExpiry => true
  | .guardEnd => true
  | .joinTimeout => true
  | .doubleHoldResolve => true
  | .standbyEnter => true
  | .syncAlign => true
  | .mirrorCmdApply => true
  | .handoverEdge => true
  | .revertStart => true
  | .pairTake c w0 => c.wf && w32 w0
  | .pairYield c => c.wf
  | .pairTest c w0 => c.wf && w32 w0
  | .digestRecompute => true
  | .takePadEnd => true
  | .registerWrite req addr size data _ => reqOk req && decide (addr < 2 ^ 24) && decide (size < 4) && decide (data < 2 ^ 64)
  | .aliasWrite req o b v _ => reqOk req && decide (o < 2 ^ 17) && decide (b < 32) && w32 v
  | .crossingTimeout req addr size _ _ data _ => reqOk req && decide (addr < 2 ^ 24) && decide (size < 4) && decide (data < 2 ^ 64)
  | .topAccAck => true
  | .stallDetect => true
  | .fcuAck req w => reqOk req && w32 w
  | .ackAll req w => reqOk req && w32 w
  | .fcuCfgWrite req i w => reqOk req && decide (i < 100) && w32 w
  | .cfgLockWrite req w => reqOk req && w32 w
  | .fcuForce req j w => reqOk req && decide (j < 13) && w32 w
  | .powerOn => true
  | .resetNAssert => true
  | .resetNRelease => true
  | .railFault b => decide (b < 9)
  | .vbatLoss => true
  | .xoRetry => true
  | .fuseLoad _ err _ _ => decide (err < 3)
  | .imageVerify imgA imgB => imgA.all bytesOk && imgB.all bytesOk
  | .imageApply _ => true
  | .cmdsEntry _ => true
  | .ready _ => true
  | .readyTimeout => true
  | .rtcWrite req w => reqOk req && decide (w < 2 ^ 64)
  | .islandPowerWrite req w => reqOk req && w32 w
  | .islandPowerDone i => decide (i < 16)
  | .maintRun c w0 => c.wf && w32 w0
  | .activityStart q => decide (q < 11)
  | .activityEnd q _ _ => decide (q < 11)
  | .waitMaxExceeded q => decide (q < 11)
  | .selftestStep tgt _ _ _ sclk => decide (tgt < 256) && decide (sclk < 4)
  | .histCommit => true
  | .dramCal => true
  | .eccError kind _ _ => decide (kind < 4)
  | .dramOn req w => reqOk req && w32 w
  | .dramOff req w => reqOk req && w32 w
  | .channelPullInDone no => decide (no < 384)
  | .xoInLoss _ => true
  | .corePllUnlock _ => true
  | .rtcOscStop _ => true
  | .railReturn b => decide (b < 9)
  | .vbatWarning _ => true
  | .vbatPowerUp => true
  | .hostLinkUp _ _ => true
  | .pcieConfigRequest _ => true
  | .norPortStopDone q => decide (q < 6)
  | .outputStopDone o => decide (o < 24)
  | .pteStopDone b => decide (b < 7)
  | .frankStopDone b => decide (b < 3)
  | .pairStopDone => true
  | .gnssSleepDone => true
  | .dozeEntryDone p => decide (p < 32)
  | .eiRx q => decide (q < 6)

end Sys2Proof
end

