-- ==== Sys2Proof/Safety.lean ====
section
/-! DEFINITION. The terms that claims about the block are stated in: what it means that a command settles with an effect, what a
command leaves alone, and what the pins of the fault collection unit must show. -/
namespace Sys2Proof.Machine

/-- Command `c` completes at `s`: its own effect is the state `u`, of which `P` holds, and the next state is `u` with the faults of
the tick settled (R514). -/
def Settles (c : Instr) (s : State) (P : State → Prop) : Prop := ∃ u, exec c s = .next u.close ∧ P u

/-- Command `c`, known as `r`, completes at `s` with code OK: its effect besides the completion is the state `u`, of which `P`
holds. -/
def Replies (c : Instr) (s : State) (r : CmdRef) (P : State → Prop) : Prop :=
  ∃ (u : State) (r0 r1 n : Nat), exec c s = .next (u.finish r Code.ok r0 r1 n).close ∧ P u

/-- Command `c`, known as `r`, completes at `s` with the code given and changes nothing. -/
def Refuses (c : Instr) (s : State) (r : CmdRef) (code : Nat) : Prop := exec c s = .next (s.finish r code).close

/-- Between `s` and `u` every register field but those listed, each with its index, reads the same. -/
def RegsBut (s u : State) (l : List (Fld × Nat)) : Prop :=
  ∀ f i, (∀ p ∈ l, f.key i ≠ p.1.key p.2) → u.rd f i = s.rd f i

/-- Only the register fields listed differ between `s` and `u`: no byte of memory, no output, no part of the machine without a
register. -/
def OnlyRegs (s u : State) (l : List (Fld × Nat)) : Prop := { s with regs := u.regs } = u ∧ RegsBut s u l

/-- Only the register fields listed and the fault collector's own record of occurrences and conditions differ. -/
def OnlyRegsFcu (s u : State) (l : List (Fld × Nat)) : Prop :=
  { s with regs := u.regs, fcu := u.fcu } = u ∧ RegsBut s u l

/-- The register fields in which completions and events show: the rings and the mailbox of the host port, and the frames that a Noryr
port drops. -/
def answerFlds : List Fld :=
  [F.HOST_STAT_INFLIGHT, F.HOST_CPL_TAIL_PTR, F.HOST_STAT_CPL_HELD, F.HOST_MBX_CPL_WORD, F.HOST_MBX_CTL_BUSY,
   F.HOST_MBX_CTL_DONE, F.HOST_EVT_TAIL_PTR, F.HOST_EVT_LOST_COUNT, F.NOR_PORT_CNT2_DROPPED]

/-- Between `s` and `u` the block has only answered: completions, events and the messages that carry them. -/
def Answered (s u : State) : Prop :=
  { s with regs := u.regs, out := u.out, fcu := u.fcu, host := u.host, nor := u.nor, bootCpl := u.bootCpl } = u ∧
  ∀ f i, f.no < 1024 → (∀ g ∈ answerFlds, f.no ≠ g.no) → u.rd f i = s.rd f i

/-- Every RW field among `fs` takes a value of its range from the word `w` (R502). -/
def Fits (fs : List Fld) (w : Nat) : Bool := fs.all (fun f => f.acc != .rw || inRange f (bits w f.lo f.w))

/-- Lasting condition `fs`, told apart by `snap`, holds (R512). -/
def State.condHolds (s : State) (fs : Nat) (snap : Nat := 0) : Bool := s.fcu.conds.any (fun c => c.fs == fs && c.snap == snap)

/-- An occurrence of source `fs` with snapshot `snap` is among those of the tick that are still to be settled (R514). -/
def State.staged (s : State) (fs : Nat) (snap : Nat := 0) : Prop := Occ.mk fs snap false ∈ s.fcu.occs

/-- Requester `req` may write outside the HOST block now (R548). -/
abbrev Admitted (s : State) (req : Nat) : Prop := req = 3 ∨ req = 4 → s.on F.TOP_STAT_READY = true

/-- The applied severity of the live source `fs` reaches FAULT_MIN (R531). -/
def State.severe (s : State) (fs : Nat) : Bool :=
  s.isLive fs && !isReservedFS fs && decide (s.rd F.FCU_CTL_FAULT_MIN ≤ s.liveSev fs)

/-- FAULT_N is low exactly in safe state or while a source at or above FAULT_MIN is live (R531). -/
def State.FaultShown (s : State) : Prop :=
  s.ridge.running = true →
    (s.pins.faultLow = true ↔ s.on F.TOP_STAT_SAFE = true ∨ ∃ fs, s.severe fs = true)

/-- A valid record whose severity is at or above INT_MIN is held (R532). -/
def State.recordCalls (s : State) : Prop :=
  ∃ k, k < 64 ∧ s.on F.FCU_REC_W0_VALID k = true ∧ s.rd F.FCU_CTL_INT_MIN ≤ s.rd F.FCU_REC_W0_SEV k

/-- The mailbox shows DONE with its interrupt enabled (R431). -/
def State.mailboxCalls (s : State) : Prop := s.on F.HOST_MBX_CTL_DONE = true ∧ s.on F.HOST_MBX_CTL_INT_EN = true

/-- INT_N is low exactly while INT_EN = 1 and a record or the mailbox calls (R532). -/
def State.IntShown (s : State) : Prop :=
  s.ridge.running = true →
    (s.pins.intLow = true ↔ s.on F.FCU_CTL_INT_EN = true ∧ (s.recordCalls ∨ s.mailboxCalls))

/-- A safe run: the pins that call a supervisor show what the state holds. -/
def State.PinsShown (s : State) : Prop := s.FaultShown ∧ s.IntShown

end Sys2Proof.Machine
end

