-- ==== Sys2Proof/Certificates/Slice0/Obligations.lean ====
section
/-! DEFINITION. The obligations on the model of the timing block: what each command does where it completes, what it leaves alone, and
what holds of the whole machine. `s` is the state a command meets, `u` the state it makes before the faults of its tick are settled. -/
section
open Sys2Proof Sys2Proof.Machine

/-- A beat edge opens the next beat: no overrun is recorded in it yet and, outside the safe state, no phase has ended. Phase p
runs when the phases it needs have ended, is then the last of the phases done, and PHASE_HWM[p] holds the latest end seen;
phase 4 tells the watchdog that the beat is marked. A slip counts in SLIP_CNT, stages FS 9, and changes nothing else but
RIDGE_STAT.PHASE. An overrun counts in OVR_CNT, stages FS 8 and ends the beat's phases; without phase 1 its gates and its
latched epoch are lost. -/
def Obligations.BeatsRunTheirPhases : Prop :=
  (∀ (s : State) (fec : List (Nat × Nat × Nat)) (prbs : List (Nat × Nat)) (load : Nat), s.ridge.running = true → s.on
  F.TOP_STAT_SAFE = false → Settles (.beatEdge fec prbs load) s (fun u => u.ridge.running = true ∧ u.ridge.overrun = false ∧
  u.ridge.done = [] ∧ u.ridge.nextEdge = (s.ridge.nextEdge + ruBeat) % two64)) ∧
  (∀ (s : State) (endAt : Nat) (epoch : List (List Nat)), s.phaseFree 1 = true → Settles (.phase1 endAt epoch) s (fun u =>
  u.ridge.done = s.ridge.done ++ [1] ∧ u.rd F.RIDGE_PHASE_HWM_HWM 0 = satU 16 (max (s.rd F.RIDGE_PHASE_HWM_HWM 0) endAt) ∧
  u.rd F.RIDGE_STAT_PHASE = (if 10000 ≤ endAt then 2 else 0))) ∧
  (∀ (s : State) (endAt : Nat), s.phaseFree 2 = true → Settles (.phase2 endAt) s (fun u => u.ridge.done = s.ridge.done ++ [2]
  ∧ u.rd F.RIDGE_PHASE_HWM_HWM 1 = satU 16 (max (s.rd F.RIDGE_PHASE_HWM_HWM 1) endAt) ∧ u.rd F.RIDGE_STAT_PHASE = (if 25000 ≤
  endAt then 3 else 0))) ∧
  (∀ (s : State) (endAt : Nat) (temp : Int), s.phaseFree 3 = true → Settles (.phase3 endAt temp) s (fun u => u.ridge.done =
  s.ridge.done ++ [3] ∧ u.rd F.RIDGE_PHASE_HWM_HWM 2 = satU 16 (max (s.rd F.RIDGE_PHASE_HWM_HWM 2) endAt) ∧ u.rd
  F.RIDGE_STAT_PHASE = (if 35000 ≤ endAt then 4 else 0))) ∧
  (∀ (s : State) (endAt : Nat) (checks : List (Nat × Nat)), s.phaseFree 4 = true → Settles (.phase4 endAt checks) s (fun u =>
  u.ridge.done = s.ridge.done ++ [4] ∧ u.fcu.marked = true ∧ u.rd F.RIDGE_PHASE_HWM_HWM 3 = satU 16 (max (s.rd
  F.RIDGE_PHASE_HWM_HWM 3) endAt) ∧ u.rd F.RIDGE_STAT_PHASE = 0)) ∧
  (∀ (s : State) (p : Nat), 1 ≤ p ∧ p ≤ 4 → Settles (.phaseSlip p) s (fun u => u.rd F.RIDGE_BEAT_OVR_SLIP_CNT = satU 16 (s.rd
  F.RIDGE_BEAT_OVR_SLIP_CNT + 1) ∧ u.rd F.RIDGE_STAT_PHASE = p ∧ Occ.mk 9 0 false ∈ u.fcu.occs ∧ OnlyRegsFcu s u
  [(F.RIDGE_BEAT_OVR_SLIP_CNT, 0), (F.RIDGE_STAT_PHASE, 0)])) ∧
  (∀ (s : State), s.ridge.running = true → s.ridge.overrun = false → s.ridge.done = [] → Settles .beatOverrun s (fun u => u.rd
  F.RIDGE_BEAT_OVR_OVR_CNT = satU 16 (s.rd F.RIDGE_BEAT_OVR_OVR_CNT + 1) ∧ u.ridge.overrun = true ∧ Occ.mk 8 0 false ∈
  u.fcu.occs ∧ u.gnss.latched = none ∧ (∀ p, u.phaseFree p = false) ∧ u.mem = s.mem))

/-- A TIME_SLEW of the token holder, on a Ridge that runs, within the jump limit adds its correction to the pending value of
its domain, shows it in SLEW_REM and completes with OK; the other domain and every other register keep their values. A
standby's is refused with NOT_TOKEN_HOLDER, one for Ridge B while B_EN = 0 with BAD_PARAM. SLEW_START makes the accepted slew
of its domain run; SLEW_END lets exactly the ticks pass that the slew still takes, after which the pending value is 0 and the
slew has ended. -/
def Obligations.SlewCommandsAnswer : Prop :=
  (∀ (s : State) (c : CmdRef) (w0 corr w3 : Nat), s.notHolder = false → (bits w0 0 1 = 1 → s.on F.RIDGE_CTL_B_EN = true) →
  s.withinLimit (bits w0 0 1) (toS 64 corr) = true → Replies (.timeSlew c w0 corr w3) s c (fun u => (u.dom (bits w0 0 1)).pend
  = (s.dom (bits w0 0 1)).pend + toS 64 corr * two40 ∧ u.dom (1 - bits w0 0 1) = s.dom (1 - bits w0 0 1) ∧ u.rd
  F.RIDGE_x_SLEW_REM_VALUE (bits w0 0 1) = ofS 64 (((s.dom (bits w0 0 1)).pend + toS 64 corr * two40).tdiv two40) % 2 ^ 64 ∧
  { s with regs := u.regs, ridge := u.ridge } = u ∧ RegsBut s u [(F.RIDGE_x_SLEW_REM_VALUE, bits w0 0 1),
  (F.RIDGE_STAT_A_SLEWING, 0), (F.RIDGE_STAT_B_SLEWING, 0)])) ∧
  (∀ (s : State) (c : CmdRef) (w0 corr w3 : Nat), s.notHolder = true → Refuses (.timeSlew c w0 corr w3) s c
  Code.notTokenHolder) ∧
  (∀ (s : State) (c : CmdRef) (w0 corr w3 : Nat), s.notHolder = false → bits w0 0 1 = 1 → s.on F.RIDGE_CTL_B_EN = false →
  Refuses (.timeSlew c w0 corr w3) s c Code.badParam) ∧
  (∀ (s : State) (dom : Nat), dom < 2 → (s.dom dom).pend ≠ 0 → s.domRuns dom = true → Settles (.slewStart dom) s (fun u =>
  (u.dom dom).slewing = true ∧ (u.dom dom).pend = (s.dom dom).pend ∧ u.dom (1 - dom) = s.dom (1 - dom) ∧
  { s with ridge := u.ridge } = u)) ∧
  (∀ (s : State) (dom : Nat), dom < 2 → (s.dom dom).slewing = true → s.domRuns dom = true → 0 < slewOffset (s.dom dom).rate →
  Settles (.slewEnd dom) s (fun u => (u.dom dom).pend = 0 ∧ (u.dom dom).slewing = false ∧ u.ridge.ticks = s.ridge.ticks +
  s.slewTicks dom ∧ { s with regs := u.regs, ridge := u.ridge, pwr := u.pwr } = u ∧ RegsBut s u [(F.RIDGE_x_COUNT_COUNT, 0),
  (F.RIDGE_x_COUNT_COUNT, 1), (F.RIDGE_x_SLEW_REM_VALUE, 0), (F.RIDGE_x_SLEW_REM_VALUE, 1), (F.RIDGE_STAT_A_SLEWING, 0),
  (F.RIDGE_STAT_B_SLEWING, 0), (F.TOP_RTC_SEC_SEC, 0)]))

/-- A TIME_SLEW that the jump limit refuses (the device holds the token and the Ridge runs, so no other check comes first)
completes with BAD_PARAM, and the state is otherwise the one before it. -/
def Obligations.TimeSlewRefusedChangesNothing : Prop :=
  ∀ (s : State) (c : CmdRef) (w0 corr w3 : Nat), s.notHolder = false → (bits w0 0 1 = 1 → s.on F.RIDGE_CTL_B_EN = true) →
  s.withinLimit (bits w0 0 1) (toS 64 corr) = false → Refuses (.timeSlew c w0 corr w3) s c Code.badParam

/-- Of a device that holds the token and whose Ridge runs, a TIME_STEP with a step of its own whose magnitude is below 2^47 ns
(2^63 ru) is accepted in every state of JUMP_LIMIT and waits, after those already accepted, for its beat edge, changing no
register and no byte of memory; one of 2^47 ns or more completes with BAD_PARAM and changes nothing. -/
def Obligations.TimeStepIsLimitedByItsMagnitudeAlone : Prop :=
  (∀ (s : State) (c : CmdRef) (w0 step : Nat), s.notHolder = false → (bits w0 0 1 = 1 → s.on F.RIDGE_CTL_B_EN = true) → bit w0
  2 = false → (toS 64 step).natAbs < 2 ^ 63 → Settles (.timeStep c w0 step) s (fun u => u.ridge.steps = s.ridge.steps ++
  [{ ref := c, dom := bits w0 0 1, applySec := bit w0 1, useReq := false, step := toS 64 step }] ∧ (∀ f i, u.rd f i = s.rd f
  i) ∧ u.mem = s.mem ∧ u.host = s.host)) ∧
  (∀ (s : State) (c : CmdRef) (w0 step : Nat), s.notHolder = false → (bits w0 0 1 = 1 → s.on F.RIDGE_CTL_B_EN = true) → bit w0
  2 = false → 2 ^ 63 ≤ (toS 64 step).natAbs → Refuses (.timeStep c w0 step) s c Code.badParam)

/-- A TIME_STEP with USE_REQ set waits, after those already accepted, for its beat edge with the correction request of its
domain; one that uses a request that is not there completes with BAD_PARAM and changes nothing. TIME_STEP_APPLY of one due
step of x ru (Ridge A, no other step due) moves the count by x modulo 2^64 ru, discards the pending slew, clears STEP_NEEDED,
and takes the step off the queue. AUTO_STEP_B without a waiting correction changes nothing; with one, the count of Ridge B
moves by it. -/
def Obligations.TimeStepsQueueAndApply : Prop :=
  (∀ (s : State) (c : CmdRef) (w0 step : Nat), s.notHolder = false → (bits w0 0 1 = 1 → s.on F.RIDGE_CTL_B_EN = true) → bit w0
  2 = true → s.stepNeeded (bits w0 0 1) = true → Settles (.timeStep c w0 step) s (fun u => u.ridge.steps = s.ridge.steps ++
  [{ ref := c, dom := bits w0 0 1, applySec := bit w0 1, useReq := true, step := toS 64 step }] ∧ (∀ f i, u.rd f i = s.rd f i)
  ∧ u.mem = s.mem ∧ u.host = s.host)) ∧
  (∀ (s : State) (c : CmdRef) (w0 step : Nat), s.notHolder = false → (bits w0 0 1 = 1 → s.on F.RIDGE_CTL_B_EN = true) → bit w0
  2 = true → s.stepNeeded (bits w0 0 1) = false → Refuses (.timeStep c w0 step) s c Code.badParam) ∧
  (∀ (s : State) (q : StepReq), s.domRuns 0 = true → s.dueSteps 0 = [q] → s.ridge.autoA = none → q.useReq = false →
  q.step.natAbs < 2 ^ 63 → Settles (.timeStepApply 0) s (fun u => u.count 0 = stepCount (s.count 0) q.step % 2 ^ 64 ∧ (u.dom
  0).pend = 0 ∧ (u.dom 0).slewing = false ∧ u.stepNeeded 0 = false ∧ q ∉ u.ridge.steps ∧ u.count 1 = s.count 1)) ∧
  (∀ (s : State) (x : Int), s.domRuns 1 = true → s.ridge.autoB = some x → s.dueSteps 1 = [] → Settles .autoStepB s (fun u =>
  u.count 1 = stepCount (s.count 1) x % 2 ^ 64 ∧ (u.dom 1).pend = 0 ∧ u.ridge.autoB = none ∧ u.count 0 = s.count 0))

/-- A write of RIDGE_CLASS_MAP and a TIME_MAP stage the map; CLASS_MAP_APPLY makes the staged map the one in force and clears
the stage. TIME_SNAP sends both counts of one tick to the host buffer. Starting Ridge B copies Ridge A's count and hidden
fraction; stopping it clears its pending correction and its waiting steps. ADD_WRITE stages the addend of a disabled loop and
ADD_LOAD makes the staged value the addend in force; while the loop runs neither changes it. BEAT_CLR_ACK clears the overrun,
slip and high-water fields. Every other register keeps its value. -/
def Obligations.RidgeRegistersAndMaps : Prop :=
  (∀ (s : State) (req w : Nat), Admitted s req → Settles (.classMapWrite req w) s (fun u => u.rd F.RIDGE_CLASS_MAP_MAP = bits
  w F.RIDGE_CLASS_MAP_MAP.lo F.RIDGE_CLASS_MAP_MAP.w ∧ u.ridge.mapStaged = true ∧ u.rd F.RIDGE_CLASS_ACT_MAP = s.rd
  F.RIDGE_CLASS_ACT_MAP ∧ { s with regs := u.regs, ridge := { s.ridge with mapStaged := true } } = u ∧ RegsBut s u
  [(F.RIDGE_CLASS_MAP_MAP, 0)])) ∧
  (∀ (s : State) (c : CmdRef) (w0 : Nat), Settles (.timeMap c w0) s (fun u => u.rd F.RIDGE_CLASS_MAP_MAP = bits w0 0 7 ∧
  u.ridge.mapStaged = true ∧ u.ridge.maps = s.ridge.maps ++ [c] ∧ u.mem = s.mem ∧ RegsBut s u [(F.RIDGE_CLASS_MAP_MAP, 0)])) ∧
  (∀ (s : State), s.ridge.mapStaged = true → Settles .classMapApply s (fun u => u.rd F.RIDGE_CLASS_ACT_MAP = s.rd
  F.RIDGE_CLASS_MAP_MAP % 2 ^ 7 ∧ u.ridge.mapStaged = false ∧ u.ridge.maps = [] ∧ u.count 0 = s.count 0 ∧ u.count 1 = s.count
  1)) ∧
  (∀ (s : State) (c : CmdRef) (buf : Nat), c.src = .ring → s.host.outFail = none → Replies (.timeSnap c buf) s c (fun u => u =
  s.emit (.dma buf [s.count 0 % 2 ^ 32, s.count 0 / 2 ^ 32, s.count 1 % 2 ^ 32, s.count 1 / 2 ^ 32]))) ∧
  (∀ (s : State) (req w : Nat), Admitted s req → s.on F.RIDGE_CTL_B_EN = false → Settles (.ridgeBEnable req w) s (fun u =>
  u.on F.RIDGE_CTL_B_EN = true ∧ u.count 1 = s.count 0 % 2 ^ 64 ∧ u.ridge.b.frac = s.ridge.a.frac ∧ u.rd
  F.RIDGE_CTL_BEAT_EVT_DIV = bits w 16 16 ∧ u.rd F.RIDGE_x_ANCHOR_COUNT_COUNT 1 = s.rd F.RIDGE_x_ANCHOR_COUNT_COUNT 0 % 2 ^ 64
  ∧ { s with regs := u.regs, ridge := u.ridge, fcu := u.fcu } = u ∧ RegsBut s u [(F.RIDGE_CTL_B_EN, 0),
  (F.RIDGE_CTL_BEAT_EVT_DIV, 0), (F.RIDGE_x_COUNT_COUNT, 1), (F.RIDGE_x_ANCHOR_COUNT_COUNT, 1), (F.RIDGE_x_ANCHOR_SEC_SEC, 1),
  (F.RIDGE_x_ANCHOR_NSF_NS, 1), (F.RIDGE_x_ANCHOR_NSF_FRAC, 1)])) ∧
  (∀ (s : State) (req w : Nat), Admitted s req → s.on F.RIDGE_CTL_B_EN = true → s.ridge.steps = [] → Settles (.ridgeBDisable
  req w) s (fun u => u.on F.RIDGE_CTL_B_EN = false ∧ (u.dom 1).pend = 0 ∧ (u.dom 1).slewing = false ∧ u.ridge.autoB = none ∧
  u.stepNeeded 1 = false ∧ u.count 1 = s.count 1 ∧ { s with regs := u.regs, ridge := u.ridge, fcu := u.fcu } = u ∧ RegsBut s u
  [(F.RIDGE_CTL_B_EN, 0), (F.RIDGE_CTL_BEAT_EVT_DIV, 0), (F.RIDGE_x_REQ_STEP_VALUE, 1), (F.RIDGE_STAT_B_STEP_NEEDED, 0),
  (F.RIDGE_x_SLEW_REM_VALUE, 1), (F.RIDGE_STAT_B_SLEWING, 0)])) ∧
  (∀ (s : State) (req dom v : Nat), Admitted s req → dom < 2 → s.addendOpen dom = true → Settles (.addWrite req dom false v) s
  (fun u => u.rd F.RIDGE_x_ADD_INT_ADD_INT dom = bits v 0 32 ∧ OnlyRegs s u [(F.RIDGE_x_ADD_INT_ADD_INT, dom)])) ∧
  (∀ (s : State) (req dom v : Nat), Admitted s req → dom < 2 → s.addendOpen dom = true → Settles (.addWrite req dom true v) s
  (fun u => u.rd F.RIDGE_x_ADD_FRAC_ADD_FRAC dom = bits v 0 40 ∧ OnlyRegs s u [(F.RIDGE_x_ADD_FRAC_ADD_FRAC, dom)])) ∧
  (∀ (s : State) (req : Nat), Admitted s req → s.addendOpen 0 = true → Settles (.addLoad req 1) s (fun u => u.ridge.a.addend =
  s.rd F.RIDGE_x_ADD_INT_ADD_INT 0 * two40 + s.rd F.RIDGE_x_ADD_FRAC_ADD_FRAC 0 ∧ u.dom 1 = s.dom 1 ∧ u.mem = s.mem)) ∧
  (∀ (s : State) (req : Nat), Admitted s req → s.addendOpen 0 = false → Settles (.addLoad req 1) s (fun u => u.ridge = s.ridge
  ∧ Occ.mk 14 0 false ∈ u.fcu.occs ∧ Occ.mk 0 (Acs.snap ⟨req, 0x4038, 2, true⟩) false ∈ u.fcu.occs)) ∧
  (∀ (s : State), Settles .beatClrAck s (fun u => u.rd F.RIDGE_BEAT_OVR_OVR_CNT = 0 ∧ u.rd F.RIDGE_BEAT_OVR_SLIP_CNT = 0 ∧ (∀
  p, p < 4 → u.rd F.RIDGE_PHASE_HWM_HWM p = 0) ∧ OnlyRegs s u [(F.RIDGE_BEAT_OVR_OVR_CNT, 0), (F.RIDGE_BEAT_OVR_SLIP_CNT, 0),
  (F.RIDGE_PHASE_HWM_HWM, 0), (F.RIDGE_PHASE_HWM_HWM, 1), (F.RIDGE_PHASE_HWM_HWM, 2), (F.RIDGE_PHASE_HWM_HWM, 3)]))

/-- Enabling a disabled single-shot comparator whose target lies ahead sets EN and ARMED and fires nothing. A late target with
LATE_ACT = 0 is discarded: EN and ARMED clear, LATE is set and FS 12 raised. CMP_DISABLE clears EN and ARMED. CMP_FIRE of an
armed single-shot comparator, none of whose actions is selected, lets the ticks to its target pass, counts the firing and
disarms it; one that is not armed does nothing. -/
def Obligations.ComparatorsArmFireAndDisarm : Prop :=
  (∀ (s : State) (req n w : Nat), Admitted s req → n < 32 → s.on F.RIDGE_CMP_CTL_EN n = false → bit w 31 = false → bits w 2 1
  = 0 → 0 < ridgeDist (s.rd F.RIDGE_CMP_TGT_VALUE n) (s.count (bits w 1 1)) → Settles (.cmpEnable req n w) s (fun u => u.on
  F.RIDGE_CMP_CTL_EN n = true ∧ u.on F.RIDGE_CMP_STAT_ARMED n = true ∧ u.rd F.RIDGE_CMP_CTL_DOM n = bits w 1 1 ∧ u.rd
  F.RIDGE_CMP_CTL_EVT n = bits w 4 1 ∧ OnlyRegs s u ((F.RIDGE_CMP_STAT_ARMED, n) :: cmpCtlFlds.map (fun f => (f, n))))) ∧
  (∀ (s : State) (req n w : Nat), Admitted s req → n < 32 → s.on F.RIDGE_CMP_CTL_EN n = false → bit w 31 = false → bits w 2 1
  = 0 → bits w 7 1 = 0 → ridgeDist (s.rd F.RIDGE_CMP_TGT_VALUE n) (s.count (bits w 1 1)) < 0 → Settles (.cmpEnable req n w) s
  (fun u => u.on F.RIDGE_CMP_CTL_EN n = false ∧ u.on F.RIDGE_CMP_STAT_ARMED n = false ∧ u.on F.RIDGE_CMP_STAT_LATE n = true ∧
  Occ.mk 12 (n + 256) false ∈ u.fcu.occs ∧ u.rd F.RIDGE_CMP_STAT_FIRED_CNT n = s.rd F.RIDGE_CMP_STAT_FIRED_CNT n)) ∧
  (∀ (s : State) (req n w : Nat), Admitted s req → n < 32 → s.on F.RIDGE_CMP_CTL_EN n = true → bit w 31 = false →
  cmpCtlFlds.all (fun f => f.among [F.RIDGE_CMP_CTL_EN] || bits w f.lo f.w == s.rd f n) = true → Settles (.cmpDisable req n w)
  s (fun u => u.on F.RIDGE_CMP_CTL_EN n = false ∧ u.on F.RIDGE_CMP_STAT_ARMED n = false ∧ (∀ f i, (f.key i ≠
  F.RIDGE_CMP_CTL_EN.key n ∧ f.key i ≠ F.RIDGE_CMP_STAT_ARMED.key n) → u.rd f i = s.rd f i))) ∧
  (∀ (s : State) (n : Nat), n < 32 → s.on F.RIDGE_CMP_STAT_ARMED n = true → s.domRuns (s.rd F.RIDGE_CMP_CTL_DOM n) = true →
  s.ridge.skipped.getD n false = false → s.on F.RIDGE_CMP_CTL_EVT n = false → s.on F.RIDGE_CMP_CTL_TRIG n = false → s.on
  F.RIDGE_CMP_CTL_SNAP n = false → s.on F.RIDGE_CMP_CTL_MODE n = false → Settles (.cmpFire n) s (fun u => u.ridge.ticks =
  s.ridge.ticks + s.ticksTo (s.rd F.RIDGE_CMP_CTL_DOM n) (s.rd F.RIDGE_CMP_TGT_VALUE n) ∧ u.rd F.RIDGE_CMP_STAT_FIRED_CNT n =
  satU F.RIDGE_CMP_STAT_FIRED_CNT.w (s.rd F.RIDGE_CMP_STAT_FIRED_CNT n + 1) % 2 ^ F.RIDGE_CMP_STAT_FIRED_CNT.w ∧ u.on
  F.RIDGE_CMP_STAT_ARMED n = false ∧ u.on F.RIDGE_CMP_CTL_EN n = false ∧ u.rd F.RIDGE_CMP_TGT_VALUE n = s.rd
  F.RIDGE_CMP_TGT_VALUE n))

/-- A rising edge of a source whose prescaler has edges left to drop takes one from that count and changes nothing else. One
that the prescaler passes, while channel n alone is running in STAMP mode on that source and its capture is in its dead time,
advances the channel's edge index, is counted in MISSED, raises FS 18 and is not stamped. WINDOW_TIMEOUT of an open window
that writes no ring leaves the window armed, or idle when a trigger line arms it, and changes nothing else. -/
def Obligations.EdgesPassThePrescaler : Prop :=
  (∀ (s : State) (src pos : Nat), src < 64 → s.tdc.preRise.getD src 0 ≠ 0 → Settles (.tdcEdge src false pos) s (fun u => u =
  { s with tdc := { s.tdc with preRise := s.tdc.preRise.set src (s.tdc.preRise.getD src 0 - 1) } })) ∧
  (∀ (s : State) (src n pos : Nat), src < 64 → n < 48 → s.tdc.ch.length = 48 → s.tdc.preRise.getD src 0 = 0 → s.measOk = true
  → (∀ m, m < 48 → m ≠ n → s.tdcState m = 0) → s.tdcState n = 2 → s.on F.TDC_CH_CTL_MODE n = false → s.on
  F.TDC_CH_CTL_START_FALL n = false → s.rd F.TDC_CH_SRC_START_SRC n = src → inDeadTime (s.tch n).lastStart (s.rawTime pos) =
  true → Settles (.tdcEdge src false pos) s (fun u => (u.tch n).idx = ((s.tch n).idx + 1) % 2 ^ 32 ∧ (u.tch n).gate = (s.tch
  n).gate ∧ u.rd F.TDC_CH_CNT_MISSED n = satU F.TDC_CH_CNT_MISSED.w (s.rd F.TDC_CH_CNT_MISSED n + 1) % 2 ^
  F.TDC_CH_CNT_MISSED.w ∧ Occ.mk 18 (s.tdcSnap n) false ∈ u.fcu.occs ∧ u.mem = s.mem ∧ u.out = s.out ∧ RegsBut s u
  [(F.TDC_CH_CNT_MISSED, n)])) ∧
  (∀ (s : State) (n : Nat), s.rd F.TDC_CH_STAT_WINDOW n = 2 → s.on F.TDC_CH_CTL_RING_EN n = false → Settles (.windowTimeout n)
  s (fun u => u.rd F.TDC_CH_STAT_WINDOW n = (if s.on F.TDC_CH_CTL_ARM_SEL n then 0 else 1) ∧ OnlyRegs s u
  [(F.TDC_CH_STAT_WINDOW, n)]))

/-- Enabling a disabled fine channel that is no spare and not under test sets EN and makes it LOCKING. When its delay line
locks while the measurement clock runs, it is LOCKED and RUNNING; when it unlocks, LOCKED clears and FS 16 is live; when it
has not locked in time, FS 16 is live and no register changes. Disabling a running channel clears EN, closes its window and
leaves it STOPPING; when it has stopped it is DISABLED, or LOCKING again when an enable waits. -/
def Obligations.ChannelsLockStartAndStop : Prop :=
  (∀ (s : State) (req n w : Nat), Admitted s req → n < 48 → s.tdcState n = 0 → s.on F.TDC_CH_CTL_EN n = false → s.on
  F.TDC_CH_CTL_OOS n = false → s.isSpare n = false → s.testing n = false → s.tdcFine n = true → Fits tdcCtlFlds (setBit w 0
  true) = true → bits w 5 1 = 0 → Settles (.tdcChEnable req n w) s (fun u => u.on F.TDC_CH_CTL_EN n = true ∧ u.rd
  F.TDC_CH_STAT_STATE n = 1 ∧ u.rd F.TDC_CH_CTL_ARM_SEL n = bits w 16 6 ∧ u.rd F.TDC_CH_CTL_MAX_STOPS n = bits w 24 4 ∧ u.rd
  F.TDC_RES_INFO_GATE_SEQ n = 0 ∧ { s with regs := u.regs } = u)) ∧
  (∀ (s : State) (n : Nat), s.tdcFine n = true → s.measOk = true → s.tdcState n = 1 → Settles (.lockAcquired n) s (fun u =>
  u.on F.TDC_CH_STAT_LOCKED n = true ∧ u.rd F.TDC_CH_STAT_STATE n = 2 ∧ u.mem = s.mem ∧ u.out = s.out ∧ RegsBut s u
  [(F.TDC_CH_STAT_LOCKED, n), (F.TDC_STAT_FINE_LOCKED, 0), (F.TDC_CH_STAT_STATE, n), (F.TDC_CH_STAT_WINDOW, n)])) ∧
  (∀ (s : State) (n : Nat), s.tdcFine n = true → s.on F.TDC_CH_STAT_LOCKED n = true → Settles (.lockLost n) s (fun u => u.on
  F.TDC_CH_STAT_LOCKED n = false ∧ u.isLive 16 = true ∧ { s with regs := u.regs, tdc := u.tdc, fcu := u.fcu } = u ∧ RegsBut s
  u [(F.TDC_CH_STAT_LOCKED, n), (F.TDC_STAT_FINE_LOCKED, 0)])) ∧
  (∀ (s : State) (n : Nat), s.tdcFine n = true → s.on F.TDC_CH_STAT_LOCKED n = false → s.tdcState n = 1 → Settles
  (.lockTimeout n) s (fun u => u.isLive 16 = true ∧ { s with fcu := u.fcu } = u)) ∧
  (∀ (s : State) (req n w : Nat), Admitted s req → n < 48 → s.tdcState n = 2 → s.on F.TDC_CH_CTL_EN n = true → s.on
  F.TDC_CH_CTL_OOS n = false → s.isSpare n = false → s.testing n = false → Settles (.tdcChDisable req n w) s (fun u => u.on
  F.TDC_CH_CTL_EN n = false ∧ u.rd F.TDC_CH_STAT_STATE n = 7 ∧ u.rd F.TDC_CH_STAT_WINDOW n = 0 ∧ u.on F.TDC_CH_STAT_LOCKED n =
  false ∧ (∀ m, m ≠ n → u.tdcState m = s.tdcState m))) ∧
  (∀ (s : State) (n : Nat), s.tdcState n = 7 → s.isRunning Act.tdcCal n = false → s.on F.TDC_CH_STAT_PENDING_ENABLE n = false
  → Settles (.tdcStopDone n) s (fun u => u.rd F.TDC_CH_STAT_STATE n = 0 ∧ OnlyRegs s u [(F.TDC_CH_STAT_STATE, n)])) ∧
  (∀ (s : State) (n : Nat), s.tdcState n = 7 → s.isRunning Act.tdcCal n = false → s.on F.TDC_CH_STAT_PENDING_ENABLE n = true →
  s.tdcFine n = true → Settles (.tdcStopDone n) s (fun u => u.rd F.TDC_CH_STAT_STATE n = 1 ∧ u.on F.TDC_CH_STAT_PENDING_ENABLE
  n = false ∧ { s with regs := u.regs } = u))

/-- When the measurement PLL loses lock, MEAS_LOCK clears, FS 25 is live and no fine channel is LOCKED; when it locks,
MEAS_LOCK is set and FS 25 ends. A write of TDC_CTL with EN = 1 turns the array on; one with EN = 0 turns it off with its
lock, and FS 25 ends. A prescaler whose source no enabled channel selects takes its new DIV and starts anew; one that is
selected keeps it. The reader's pointer is taken, and with no record lost nothing else changes. -/
def Obligations.MeasurementClockAndCrossbar : Prop :=
  (∀ (s : State), s.measOk = true → Settles .measUnlock s (fun u => u.on F.TDC_STAT_MEAS_LOCK = false ∧ u.isLive 25 = true ∧
  (∀ n, n < 48 → s.tdcFine n = true → u.on F.TDC_CH_STAT_LOCKED n = false) ∧ u.mem = s.mem ∧ u.out = s.out ∧ (∀ n, u.tdcState
  n = s.tdcState n))) ∧
  (∀ (s : State), s.on F.TDC_CTL_EN = true → s.on F.TDC_STAT_MEAS_LOCK = false → Settles .measRelock s (fun u => u.on
  F.TDC_STAT_MEAS_LOCK = true ∧ (∀ c ∈ u.fcu.conds, ¬(c.fs = 25 ∧ c.snap = 0)) ∧
  { s with regs := u.regs, tdc := u.tdc, fcu := u.fcu } = u ∧ RegsBut s u [(F.TDC_STAT_MEAS_LOCK, 0)])) ∧
  (∀ (s : State) (req w : Nat), Admitted s req → bit w 0 = true → Settles (.tdcArrayEnable req w) s (fun u => u.on
  F.TDC_CTL_EN = true ∧ OnlyRegs s u [(F.TDC_CTL_EN, 0)])) ∧
  (∀ (s : State) (req w : Nat), Admitted s req → s.on F.TDC_CTL_EN = true → bit w 0 = false → Settles (.tdcArrayEnable req w)
  s (fun u => u.on F.TDC_CTL_EN = false ∧ u.on F.TDC_STAT_MEAS_LOCK = false ∧ (∀ c ∈ u.fcu.conds, ¬(c.fs = 25 ∧ c.snap = 0)))) ∧
  (∀ (s : State) (req src w : Nat), Admitted s req → src < 64 → s.srcInUse src = false → Fits [F.TDC_XB_PRE_DIV] w = true →
  Settles (.prescalerWrite req src w) s (fun u => u.rd F.TDC_XB_PRE_DIV src = bits w 0 17 ∧ u.tdc.preRise = s.tdc.preRise.set
  src 0 ∧ u.tdc.preFall = s.tdc.preFall.set src 0 ∧ { s with regs := u.regs, tdc := u.tdc } = u ∧ RegsBut s u
  [(F.TDC_XB_PRE_DIV, src)])) ∧
  (∀ (s : State) (req src w : Nat), Admitted s req → src < 64 → s.srcInUse src = true → bits w 0 17 ≠ s.rd F.TDC_XB_PRE_DIV
  src → Settles (.prescalerWrite req src w) s (fun u => u.rd F.TDC_XB_PRE_DIV src = s.rd F.TDC_XB_PRE_DIV src ∧ u.tdc = s.tdc
  ∧ Occ.mk 0 (Acs.snap ⟨req, 0x7800 + 4 * src, 2, true⟩) false ∈ u.fcu.occs)) ∧
  (∀ (s : State) (req n w : Nat), Admitted s req → n < 48 → (s.tch n).ringLost = 0 → Settles (.ringRdWrite req n w) s (fun u
  => u.rd F.TDC_RING_RD_PTR n = bits w 0 11 ∧ OnlyRegs s u [(F.TDC_RING_RD_PTR, n)]))

/-- A write of TDC_SPARE that names a disabled fine channel holds it as a spare, SPARE_IDLE. A substitution for a channel that
runs in STAMP mode puts the idle spare into SHADOW and waits for the swap; one that names no idle spare is refused with FAILED
and FS 23. A restoration waits likewise. The swap publishes the spare under the logical channel, or gives the channel back and
leaves the spare idle, and sets DONE. -/
def Obligations.SparesShadowSwapAndReturn : Prop :=
  (∀ (s : State) (req w : Nat), Admitted s req → s.spareCh 0 = 0x3F → s.spareCh 1 = 0x3F → bits w 0 6 < 8 → bits w 8 6 = 0x3F
  → s.on F.TDC_CH_CTL_EN (bits w 0 6) = false → s.tdcState (bits w 0 6) = 0 → Settles (.spareWrite req w) s (fun u => u.rd
  F.TDC_SPARE_SPARE0 = bits w 0 6 ∧ u.rd F.TDC_SPARE_SPARE1 = 0x3F ∧ u.tdcState (bits w 0 6) = 4 ∧ { s with regs := u.regs } =
  u ∧ RegsBut s u [(F.TDC_SPARE_SPARE0, 0), (F.TDC_SPARE_SPARE1, 0), (F.TDC_CH_STAT_STATE, bits w 0 6)])) ∧
  (∀ (s : State) (req w : Nat), Admitted s req → s.spareCh (bits w 8 1) < 8 → bits w 0 6 < 48 → s.tdcState (s.spareCh (bits w
  8 1)) = 4 → s.tdcState (bits w 0 6) = 2 → s.on F.TDC_CH_CTL_MODE (bits w 0 6) = false → s.tdcPhys (bits w 0 6) = bits w 0 6
  → Settles (.substitute req w) s (fun u => u.tdcState (s.spareCh (bits w 8 1)) = 3 ∧ u.on F.TDC_SUB_STAT_BUSY = true ∧ u.on
  F.TDC_SUB_STAT_DONE = false ∧ u.on F.TDC_SUB_STAT_FAILED = false ∧ u.tdc.subs = s.tdc.subs ++ [⟨bits w 8 1, bits w 0 6,
  false⟩] ∧ { s with regs := u.regs, tdc := { s.tdc with subs := u.tdc.subs } } = u)) ∧
  (∀ (s : State) (req w : Nat), Admitted s req → 8 ≤ s.spareCh (bits w 8 1) → Settles (.substitute req w) s (fun u => u.on
  F.TDC_SUB_STAT_FAILED = true ∧ Occ.mk 23 (s.tdcSnap (bits w 0 6)) false ∈ u.fcu.occs ∧ u.tdc = s.tdc)) ∧
  (∀ (s : State) (req w : Nat), Admitted s req → s.spareFor (bits w 8 1) = bits w 0 6 → bits w 0 6 < 48 → s.tdcState (bits w 0
  6) = 2 → s.on F.TDC_CH_CTL_MODE (bits w 0 6) = false → s.tdc.subs = [] → Settles (.restore req w) s (fun u => u.on
  F.TDC_SUB_STAT_BUSY = true ∧ u.on F.TDC_SUB_STAT_FAILED = false ∧ u.tdc.subs = [⟨bits w 8 1, bits w 0 6, true⟩] ∧
  { s with regs := u.regs, tdc := { s.tdc with subs := u.tdc.subs } } = u)) ∧
  (∀ (s : State) (sel : Nat) (diff : Int) (q : SubReq), s.tdc.subs.find? (fun q => q.sel == sel) = some q → q.restore = false
  → Settles (.spareSwap sel diff) s (fun u => u.rd F.TDC_CH_STAT_PHYS q.lch = s.spareCh q.sel % 2 ^ F.TDC_CH_STAT_PHYS.w ∧
  u.tdcState (s.spareCh q.sel) = 2 ∧ u.on F.TDC_SUB_STAT_DONE = true ∧ u.tdc.oos = s.tdc.oos ++ [q.lch] ∧ u.mem = s.mem ∧
  u.ridge = s.ridge)) ∧
  (∀ (s : State) (sel : Nat) (diff : Int) (q : SubReq), s.tdc.subs.find? (fun q => q.sel == sel) = some q → q.restore = true →
  Settles (.spareSwap sel diff) s (fun u => u.rd F.TDC_CH_STAT_PHYS q.lch = q.lch % 2 ^ F.TDC_CH_STAT_PHYS.w ∧ u.tdcState
  (s.spareCh q.sel) = 4 ∧ u.on F.TDC_SUB_STAT_DONE = true ∧ q.lch ∉ u.tdc.oos ∧ u.mem = s.mem ∧ u.ridge = s.ridge))

/-- Enabling a slot while Thatch is stopped only takes its configuration; while Thatch runs, a receiver slot with a rank
starts to qualify. Disabling a slot of a running Thatch leaves it DISABLED. A write of a rank is staged: the rank in force
keeps its value until the beat edge. A qualifying slot whose QUAL_TIME has passed becomes a candidate; a disqualified one
whose hold-off has passed qualifies again; the end of an exit ramp makes the member a candidate and takes it out of
ENS_MEMBERS, the end of an entry ramp leaves it at full entry. Enabling Thatch makes it run; disabling it sets it stopping
with both domains in FREE_RUN. ENS_ACK clears ENS_CHANGED. -/
def Obligations.SlotsQualifyAndRetire : Prop :=
  (∀ (s : State) (req n w : Nat), Admitted s req → n < 24 → s.ens.run = false → Fits [F.ENS_SLOT_CFG_QUAL_TIME] w = true →
  s.on F.ENS_SLOT_CFG_EN n = false → Settles (.slotEnable req n w) s (fun u => u.on F.ENS_SLOT_CFG_EN n = true ∧ u.rd
  F.ENS_SLOT_CFG_QUAL_TIME n = bits w 20 12 ∧ u.rd F.ENS_SLOT_CFG_SRC n = bits w 8 6 ∧ u.rd F.ENS_SLOT_CFG_QL_MIN n = bits w
  16 4 ∧ u.rd F.ENS_SLOT_CFG_KIND n = bits w 1 1 ∧ OnlyRegs s u [(F.ENS_SLOT_CFG_QUAL_TIME, n), (F.ENS_SLOT_CFG_QL_MIN, n),
  (F.ENS_SLOT_CFG_SRC, n), (F.ENS_SLOT_CFG_KIND, n), (F.ENS_SLOT_CFG_EN, n)])) ∧
  (∀ (s : State) (req n w : Nat), Admitted s req → (n = 10 ∨ n = 11) → s.ens.run = true → s.on F.ENS_SLOT_CFG_EN n = false →
  s.slotState n = 0 → s.rank n ≠ 0 → Settles (.slotEnable req n w) s (fun u => u.on F.ENS_SLOT_CFG_EN n = true ∧ u.slotState n
  = 2 ∧ u.rd F.ENS_SLOT_STAT_CAUSE n = 0 ∧ (∀ m, m ≠ n → u.slotState m = s.slotState m))) ∧
  (∀ (s : State) (req n w : Nat), Admitted s req → n < 24 → s.ens.run = true → s.on F.ENS_SLOT_CFG_EN n = true → Settles
  (.slotDisable req n w) s (fun u => u.on F.ENS_SLOT_CFG_EN n = false ∧ u.slotState n = 0 ∧ (∀ m, m ≠ n → u.slotState m =
  s.slotState m))) ∧
  (∀ (s : State) (req n w : Nat), Admitted s req → n < 24 → Settles (.rankWrite req n w) s (fun u => u.rd F.ENS_SLOT_RANK_RANK
  n = bits w 0 4 ∧ (∀ m, u.rank m = s.rank m) ∧ { s with regs := u.regs, was := u.was } = u ∧ RegsBut s u
  [(F.ENS_SLOT_RANK_RANK, n)])) ∧
  (∀ (s : State) (n : Nat), n < 24 → s.slotState n = 2 → s.rank n ≠ 0 → Settles (.qualTimeDone n) s (fun u => u.slotState n =
  3 ∧ (∀ m, m ≠ n → u.slotState m = s.slotState m) ∧ u.mem = s.mem ∧ u.ridge = s.ridge)) ∧
  (∀ (s : State) (n : Nat), n < 24 → s.slotState n = 6 → s.rd F.ENS_SLOT_STAT_CAUSE n ≠ 7 → s.rank n ≠ 0 → Settles
  (.holdoffDone n) s (fun u => u.slotState n = 2 ∧ (∀ m, m ≠ n → u.slotState m = s.slotState m) ∧ u.mem = s.mem ∧ u.ridge =
  s.ridge)) ∧
  (∀ (s : State) (n : Nat), n < 24 → s.slotState n = 4 → s.rank n ≠ 0 → (s.slot n).exit.isSome = true → Settles (.rampEnd n) s
  (fun u => u.slotState n = 3 ∧ bit (u.rd F.ENS_MEMBERS_MASK) n = false ∧ u.mem = s.mem ∧ u.ridge = s.ridge)) ∧
  (∀ (s : State) (n : Nat), n < 24 → s.slotState n = 4 → (s.slot n).exit = none → Settles (.rampEnd n) s (fun u => u =
  s.setSlot n { s.slot n with entry := s.inF F.ENS_RAMP_ENTRY_RAMP })) ∧
  (∀ (s : State) (req w : Nat), Admitted s req → s.on F.ENS_CTL_EN = false → s.ens.stopping = false → Settles (.thatchEnable
  req w) s (fun u => u.on F.ENS_CTL_EN = true ∧ u.ens.run = true ∧ u.ens.stopping = false ∧ u.mem = s.mem ∧ u.ridge =
  s.ridge)) ∧
  (∀ (s : State) (req w : Nat), Admitted s req → s.on F.ENS_CTL_EN = true → s.ens.stopping = false → Settles (.thatchDisable
  req w) s (fun u => u.on F.ENS_CTL_EN = false ∧ u.ens.stopping = true ∧ u.domState 0 = 0 ∧ u.domState 1 = 0 ∧ u.mem = s.mem ∧
  u.ridge = s.ridge)) ∧
  (∀ (s : State), Settles .ensAck s (fun u => u.rd F.ENS_CHANGED_CHG = 0 ∧ OnlyRegs s u [(F.ENS_CHANGED_CHG, 0)]))

/-- The end of a dispute drops it and leaves its slots, when disputed and ranked, as candidates. An enabled domain that is
acquiring, traceable and within the lock limits becomes LOCKED. A REF_REQUAL of the token holder for a disqualified or
disputed slot waits for the next beat; for any other slot it completes with BAD_PARAM, on a standby with NOT_TOKEN_HOLDER,
both changing nothing. At the beat the waiting command's slot starts to qualify and the command completes with OK. -/
def Obligations.DisputesLocksAndRequalification : Prop :=
  (∀ (s : State) (n m : Nat), s.ens.disputes.any (fun d => d.i == n && d.j == m) = true → s.slotState n = 5 → s.rank n ≠ 0 →
  Settles (.disputeEnd n m) s (fun u => (∀ d ∈ u.ens.disputes, ¬(d.i = n ∧ d.j = m)) ∧ u.slotState n = 3 ∧ u.mem = s.mem ∧
  u.ridge = s.ridge)) ∧
  (∀ (s : State) (dom : Nat), dom < 2 → s.domState dom = 1 → s.domEnabled dom = true → s.hasTrace dom = true → s.lockWithin
  dom 1 = true → Settles (.domainLocked dom) s (fun u => u.domState dom = 2 ∧ u.on (if dom = 0 then
  F.ENS_DOM_STAT_A_LOCKED_EVER else F.ENS_DOM_STAT_B_LOCKED_EVER) = true ∧ u.domState (1 - dom) = s.domState (1 - dom) ∧ u.mem
  = s.mem ∧ u.ridge = s.ridge)) ∧
  (∀ (s : State) (c : CmdRef) (w0 : Nat), s.notHolder = false → s.requalifiable (bits w0 0 5) = true → Settles (.refRequal c
  w0) s (fun u => u = { s with ens := { s.ens with requal := s.ens.requal ++ [(c, bits w0 0 5)] } })) ∧
  (∀ (s : State) (c : CmdRef) (w0 : Nat), s.notHolder = false → s.requalifiable (bits w0 0 5) = false → Refuses (.refRequal c
  w0) s c Code.badParam) ∧
  (∀ (s : State) (c : CmdRef) (w0 : Nat), s.notHolder = true → Refuses (.refRequal c w0) s c Code.notTokenHolder) ∧
  (∀ (s : State) (c : CmdRef) (n : Nat), s.ens.requal = [(c, n)] → s.slotState n = 6 → n < 24 → s.rd F.ENS_SLOT_STAT_CAUSE n ≠
  7 → s.rank n ≠ 0 → Replies .refRequalApply s c (fun u => u.ens.requal = [] ∧ u.slotState n = 2 ∧ u.mem = s.mem ∧ u.ridge =
  s.ridge))

/-- From OFF, MODE = 1 makes the oscillator MANUAL and MODE = 2 FROZEN; MODE = 0 turns it OFF and only messages of OSC_SEND
stay in its queue. In MANUAL the code written is taken, and nothing else changes on a VTUNE oscillator; out of MANUAL it is
kept. A steering step of a tracking VTUNE oscillator prepares its step, clamped to the code's range, and moves no code;
applying it moves the code by the step and counts it. -/
def Obligations.OscillatorsSteerAndChange : Prop :=
  (∀ (s : State) (req k w : Nat), Admitted s req → k < 3 → s.rd F.OSC_CTL_MODE k = 0 → s.oscState k = 0 → Settles
  (.oscModeManual req k w) s (fun u => u.rd F.OSC_CTL_MODE k = 1 ∧ u.oscState k = 1 ∧ u.mem = s.mem ∧ u.ridge = s.ridge)) ∧
  (∀ (s : State) (req k w : Nat), Admitted s req → k < 3 → s.rd F.OSC_CTL_MODE k = 0 → s.oscState k = 0 → Settles
  (.oscModeAuto req k w) s (fun u => u.rd F.OSC_CTL_MODE k = 2 ∧ u.oscState k = 2 ∧ u.mem = s.mem ∧ u.ridge = s.ridge)) ∧
  (∀ (s : State) (req k w : Nat), Admitted s req → k < 3 → s.eaves.osc.length = 3 → s.rd F.OSC_CTL_MODE k ≠ 0 → s.oscState k ≠
  0 → Settles (.oscModeOff req k w) s (fun u => u.rd F.OSC_CTL_MODE k = 0 ∧ u.oscState k = 0 ∧ (u.osc k).queue = (s.osc
  k).queue.filter UartMsg.isSend ∧ u.mem = s.mem ∧ u.ridge = s.ridge)) ∧
  (∀ (s : State) (req k w : Nat), Admitted s req → k < 3 → s.oscState k = 1 → Settles (.oscCodeWrite req k false w) s (fun u
  => u.rd F.OSC_CODE_CODE k = bits w 0 20 ∧ OnlyRegs s u [(F.OSC_CODE_CODE, k)])) ∧
  (∀ (s : State) (req k w : Nat), Admitted s req → k < 3 → s.oscState k = 1 → s.oscUart k = false → Settles (.oscCodeWrite req
  k true w) s (fun u => u.rd F.OSC_ACC_ACC k = bits w 0 32 ∧ OnlyRegs s u [(F.OSC_ACC_ACC, k)])) ∧
  (∀ (s : State) (req k w : Nat), Admitted s req → k < 3 → s.oscState k ≠ 1 → bits w 0 20 ≠ s.rd F.OSC_CODE_CODE k → Settles
  (.oscCodeWrite req k false w) s (fun u => u.rd F.OSC_CODE_CODE k = s.rd F.OSC_CODE_CODE k ∧ u.eaves = s.eaves ∧ Occ.mk 0
  (Acs.snap (oscAcs req k 8)) false ∈ u.fcu.occs)) ∧
  (∀ (s : State) (k : Nat), k < 3 → s.oscState k = 3 → s.oscUart k = false → Settles (.oscSteerStep k) s (fun u => u.rd
  F.OSC_CODE_CODE k = s.rd F.OSC_CODE_CODE k ∧ u.eaves = (s.setOsc k
  { s.osc k with step := some (clampI 0 0xFFFFF ((s.rd F.OSC_CODE_CODE k : Int) + s.oscStep k) - s.rd F.OSC_CODE_CODE k) }).eaves
  ∧ RegsBut s u [(F.OSC_STAT_CLAMPED, k)] ∧ u.mem = s.mem)) ∧
  (∀ (s : State) (k : Nat) (d : Int), k < 3 → s.oscUart k = false → (s.osc k).step = some d → Settles (.oscSteerApply k) s
  (fun u => u.rd F.OSC_CODE_CODE k = ((s.rd F.OSC_CODE_CODE k : Int) + d).toNat % 2 ^ 20 ∧ u.rd F.OSC_STAT_STEPS k = satU 16
  (s.rd F.OSC_STAT_STEPS k + 1) ∧ u.mem = s.mem))

/-- UART_SEND takes the message of the lowest class that waits: a raw message of OSC_SEND leaves on the port byte for byte and
its command completes. A poll that is due waits in the queue. A poll whose response passes clears MISS and ends the wait; a
failed probe is sent again. OSC_SEND queues its bytes or its probe; without a port, a length or a probe template it completes
with BAD_PARAM and changes nothing. -/
def Obligations.UartMessagesGoOut : Prop :=
  (∀ (s : State) (k : Nat) (c : CmdRef) (bs : List Nat), (k = 1 ∨ k = 2) → nextMsg (s.osc k).queue = some (.raw c bs) →
  s.oscBarred k = false → Replies (.uartSend k) s c (fun u => u = (s.setOsc k
  { s.osc k with queue := (s.osc k).queue.erase (.raw c bs) }).emit (.uart k bs))) ∧
  (∀ (s : State) (k : Nat), (k = 1 ∨ k = 2) → s.on F.OSC_UCFG_POLL_PERIOD k = true → s.oscState k ≠ 0 → s.tplOn k 1 = true →
  s.oscBarred k = false → Settles (.oscPoll k) s (fun u => u = s.oscQueue k .poll)) ∧
  (∀ (s : State) (k : Nat) (bytes : List Nat), (k = 1 ∨ k = 2) → s.eaves.osc.length = 3 → (s.osc k).await = 1 → s.respPasses k
  bytes = true → Settles (.pollResponseEnd k bytes false) s (fun u => u.rd F.OSC_STAT_MISS k = 0 ∧ (u.osc k).await = 0 ∧
  (u.osc k).passes = (s.osc k).passes + 1 ∧ u.mem = s.mem ∧ u.out = s.out)) ∧
  (∀ (s : State) (k : Nat), (k = 1 ∨ k = 2) → s.eaves.osc.length = 3 → (s.osc k).retry = true → s.on F.OSC_CTL_MODE k = true →
  s.oscBarred k = false → Settles (.probeRetry k) s (fun u => (u.osc k).queue = (s.osc k).queue ++ [.probe none] ∧ (u.osc
  k).tries = (s.osc k).tries + 1 ∧ (u.osc k).retry = false ∧ { s with eaves := u.eaves } = u)) ∧
  (∀ (s : State) (c : CmdRef) (w0 : Nat) (msg : List Nat), (bits w0 0 2 = 1 ∨ bits w0 0 2 = 2) → s.oscBarred (bits w0 0 2) =
  false → bit w0 2 = false → bits w0 8 5 ≠ 0 → Settles (.oscSend c w0 msg) s (fun u => u = s.oscQueue (bits w0 0 2) (.raw c
  ((List.range (bits w0 8 5)).map (fun i => bits (msg.getD (i / 4) 0) (i % 4 * 8) 8))))) ∧
  (∀ (s : State) (c : CmdRef) (w0 : Nat) (msg : List Nat), (bits w0 0 2 = 1 ∨ bits w0 0 2 = 2) → s.oscBarred (bits w0 0 2) =
  false → bit w0 2 = true → s.tplOn (bits w0 0 2) 2 = true → Settles (.oscSend c w0 msg) s (fun u => u = s.oscQueue (bits w0 0
  2) (.probe (some c)))) ∧
  (∀ (s : State) (c : CmdRef) (w0 : Nat) (msg : List Nat), (bits w0 0 2 = 0 ∨ bits w0 0 2 = 3) → Refuses (.oscSend c w0 msg) s
  c Code.badParam)

/-- OSC_SEND for oscillator 1 or 2 with SHARED = 1, on a paired member that does not hold the token, completes with
NOT_TOKEN_HOLDER, and the state is otherwise the one before it, so no message waits or goes out. -/
def Obligations.SharedOscillatorIsRefusedOnTheStandby : Prop :=
  ∀ (s : State) (c : CmdRef) (w0 : Nat) (msg : List Nat), (bits w0 0 2 = 1 ∨ bits w0 0 2 = 2) → s.oscBarred (bits w0 0 2) =
  true → Refuses (.oscSend c w0 msg) s c Code.notTokenHolder

/-- Enabling a disabled output loop whose settings pass the check sets EN and leaves it in FREERUN on entry 0 without a phase
offset; one that fails keeps EN = 0 and raises FS 67. DPLL0 and DPLL1 start in FREERUN or LOCKED as their domain is free or
not. Disabling a locked loop leaves it STOPPING; when it has stopped it is DISABLED. An entry that becomes valid takes a
free-running loop to ACQUIRE on it; an update in which all its clocks are lost takes a locked loop to HOLD with FS 66 live. A
switch by command, or back to an entry of higher priority, makes the entry ACTIVE in ACQUIRE and is counted. 1,024 updates
within LOCK_WIN make it LOCKED. -/
def Obligations.DigitalLoopsFollowTheirEntries : Prop :=
  (∀ (s : State) (req n w : Nat), Admitted s req → 2 ≤ n → n < 8 → s.on F.DPLL_CTL_EN n = false → s.dpllState n = 0 →
  s.dpllCheck n = true → Settles (.dpllEnable req n w) s (fun u => u.on F.DPLL_CTL_EN n = true ∧ u.dpllState n = 1 ∧ u.rd
  F.DPLL_STAT_ACTIVE n = 0 ∧ u.rd F.DPLL_PBO_VALUE n = 0 ∧ u.mem = s.mem ∧ u.ridge = s.ridge ∧ (∀ m, m ≠ n → u.dpllState m =
  s.dpllState m))) ∧
  (∀ (s : State) (req n w : Nat), Admitted s req → 2 ≤ n → n < 8 → s.on F.DPLL_CTL_EN n = false → s.dpllState n = 0 →
  s.dpllCheck n = false → Settles (.dpllEnable req n w) s (fun u => u.on F.DPLL_CTL_EN n = false ∧ u.dpllState n = 0 ∧ Occ.mk
  67 n false ∈ u.fcu.occs ∧ u.loop = s.loop)) ∧
  (∀ (s : State) (req n w : Nat), Admitted s req → n < 2 → s.on F.DPLL_CTL_EN n = false → s.dpllState n = 0 → (bits w 1 2 = 2
  ∨ bits w 1 2 = 3) → s.bwOk n (s.rd F.DPLL_LOOP_BW n) = true → s.bwOk n (s.rd F.DPLL_LOOP_ACQ_BW n) = true → Settles
  (.dpllEnable req n w) s (fun u => u.on F.DPLL_CTL_EN n = true ∧ u.dpllState n = (if s.domState n = 0 then 1 else 3) ∧ u.mem
  = s.mem ∧ u.ridge = s.ridge)) ∧
  (∀ (s : State) (req n w : Nat), Admitted s req → n < 8 → s.on F.DPLL_CTL_EN n = true → s.dpllState n = 3 → Settles
  (.dpllDisable req n w) s (fun u => u.on F.DPLL_CTL_EN n = false ∧ u.dpllState n = 5 ∧ u.mem = s.mem ∧ u.ridge = s.ridge ∧
  u.loop = s.loop)) ∧
  (∀ (s : State) (n : Nat), n < 8 → s.dpllState n = 5 → s.on F.DPLL_STAT_PENDING_ENABLE n = false → Settles (.dpllStopDone n)
  s (fun u => u.dpllState n = 0 ∧ u.mem = s.mem ∧ u.ridge = s.ridge ∧ (∀ m, m ≠ n → u.dpllState m = s.dpllState m))) ∧
  (∀ (s : State) (n : Nat) (meas : List Int), 2 ≤ n → n < 8 → (s.dpllState n = 2 ∨ s.dpllState n = 3) → (∀ e, e < 4 →
  isDomainCode (s.entrySrc n e) = false) → Settles (.dpllUpdate n meas 15) s (fun u => u.dpllState n = 4 ∧ u.isLive 66 = true
  ∧ u.mem = s.mem ∧ u.ridge = s.ridge ∧ (∀ m, m ≠ n → u.dpllState m = s.dpllState m))) ∧
  (∀ (s : State) (n e : Nat) (meas : List Int), 2 ≤ n → n < 8 → e < 4 → s.dpllState n = 1 → s.entryOn n e = true →
  isDomainCode (s.entrySrc n e) = false → (∀ k, k < 4 → k ≠ e → s.entryValid n k = false) → Settles (.inputValid n e meas) s
  (fun u => u.dpllState n = 2 ∧ u.rd F.DPLL_STAT_ACTIVE n = e ∧ u.mem = s.mem ∧ u.ridge = s.ridge)) ∧
  (∀ (s : State) (n e : Nat) (meas : List Int), 2 ≤ n → n < 8 → s.on F.DPLL_CTL_REVERT n = true → s.entryValid n e = true → e
  < s.rd F.DPLL_STAT_ACTIVE n → e < 4 → s.dpllState n = 3 → Settles (.revertSwitch n e meas) s (fun u => u.dpllState n = 2 ∧
  u.rd F.DPLL_STAT_ACTIVE n = e ∧ Occ.mk 65 (n + 16 * e) false ∈ u.fcu.occs ∧ u.mem = s.mem ∧ u.ridge = s.ridge)) ∧
  (∀ (s : State) (req n w : Nat) (meas : List Int), Admitted s req → 2 ≤ n → n < 8 → s.dpllState n = 3 → s.entryValid n (bits
  w 0 2) = true → Settles (.dpllSwitch req n w meas) s (fun u => u.dpllState n = 2 ∧ u.rd F.DPLL_STAT_ACTIVE n = bits w 0 2 ∧
  u.rd F.DPLL_CMD_ENTRY n = bits w 0 2 ∧ Occ.mk 65 (n + 16 * bits w 0 2) false ∈ u.fcu.occs ∧ u.mem = s.mem ∧ u.ridge =
  s.ridge)) ∧
  (∀ (s : State) (n : Nat), 2 ≤ n → n < 8 → s.dpllState n = 2 → Settles (.dpllLocked n) s (fun u => u.dpllState n = 3 ∧ u.mem
  = s.mem ∧ u.ridge = s.ridge ∧ u.loop = s.loop ∧ (∀ m, m ≠ n → u.dpllState m = s.dpllState m)))

/-- Enabling an OFF analogue loop whose island is up and whose settings pass, with MAN = 1, puts it on bypass in MAN_BAND and
makes it LOCKING; with the island down EN stays 0. Disabling a locked one leaves it STOPPING, and when it has stopped it is
OFF, unlocked and off bypass. A band search starts when the measurement-clock group is free and ends with the loop LOCKING, or
waiting with FS 69 when the count found is off by more than 1,000. A lock sets LOCK; a loss of lock goes to BYPASS, counted,
with FS 68 live, or FS 70 for a lost reference. A returned reference asks for a lock attempt. After RET_HOLD or by APLL_RETURN
a locked loop leaves bypass; APLL_RETURN of any other completes with BAD_PARAM and changes nothing. -/
def Obligations.AnalogueLoopsSearchLockAndBypass : Prop :=
  (∀ (s : State) (req m w fref : Nat), Admitted s req → m < 6 → s.on F.APLL_CTL_EN m = false → s.apllState m = 0 → s.testing
  (0x60 + m) = false → s.islandOn (10 + m) = false → Settles (.apllEnable req m w fref) s (fun u => u.on F.APLL_CTL_EN m =
  false ∧ u.apllState m = 0 ∧ Occ.mk 221 (10 + m) false ∈ u.fcu.occs ∧ u.mem = s.mem ∧ u.ridge = s.ridge)) ∧
  (∀ (s : State) (req m w fref : Nat), Admitted s req → m < 6 → s.on F.APLL_CTL_EN m = false → s.apllState m = 0 → s.testing
  (0x60 + m) = false → s.islandOn (10 + m) = true → s.on F.APLL_BAND_MAN m = true → ((((s.fieldWrite noLock inRange
  [F.APLL_CTL_AUTO_RET, F.APLL_CTL_LBW, F.APLL_CTL_DPLL_SEL, F.APLL_CTL_RDIV, F.APLL_CTL_RDBL, F.APLL_CTL_REF, F.APLL_CTL_EN]
  m (setBit w 0 true)).1).setApl m { s.apl m with fref := fref }).apllCheck m) = true → Settles (.apllEnable req m w fref) s
  (fun u => u.on F.APLL_CTL_EN m = true ∧ u.apllState m = 3 ∧ u.on F.APLL_STAT_BYPASS m = true ∧ u.rd F.APLL_STAT_BAND m =
  s.rd F.APLL_BAND_MAN_BAND m % 2 ^ F.APLL_STAT_BAND.w ∧ u.mem = s.mem ∧ u.ridge = s.ridge)) ∧
  (∀ (s : State) (req m w : Nat), Admitted s req → m < 6 → s.on F.APLL_CTL_EN m = true → s.apllState m = 4 → s.testing (0x60 +
  m) = false → Settles (.apllDisable req m w) s (fun u => u.on F.APLL_CTL_EN m = false ∧ u.apllState m = 6 ∧ u.mem = s.mem ∧
  u.ridge = s.ridge)) ∧
  (∀ (s : State) (m : Nat), m < 6 → s.apllState m = 6 → s.isRunning Act.apllSearch m = false → s.on F.APLL_STAT_PENDING_ENABLE
  m = false → Settles (.apllStopDone m) s (fun u => u.apllState m = 0 ∧ u.on F.APLL_STAT_LOCK m = false ∧ u.on
  F.APLL_STAT_BYPASS m = false ∧ u.mem = s.mem ∧ u.ridge = s.ridge)) ∧
  (∀ (s : State) (e : SortEntry), s.startable 0 = some e → e.act = Act.apllSearch → s.apllState e.tgt = 1 → Settles
  .bandSearch s (fun u => u.apllState e.tgt = 2 ∧ u.on F.APLL_STAT_LOCK e.tgt = false ∧ u.on F.APLL_STAT_BYPASS e.tgt = true ∧
  u.on F.TDC_STAT_MAINT_ACTIVE = true ∧ u.mem = s.mem ∧ u.ridge = s.ridge)) ∧
  (∀ (s : State) (cnt : List (Nat × Nat)) (e : SortEntry), s.sort.running.length = 11 → s.quietRun 0 = some e → e.act =
  Act.apllSearch → e.tgt < 6 → s.apllState e.tgt = 2 → Settles (.bandSearchDone cnt) s (fun u => u.apllState e.tgt = (if 1000
  < |(countOf cnt (chosenBand cnt (s.searchTarget e.tgt)) : Rat) - s.searchTarget e.tgt| then 1 else 3) ∧ u.rd
  F.APLL_STAT_BAND e.tgt = chosenBand cnt (s.searchTarget e.tgt) % 2 ^ F.APLL_STAT_BAND.w ∧ u.quietRun 0 = none ∧ u.mem =
  s.mem ∧ u.ridge = s.ridge)) ∧
  (∀ (s : State) (m : Nat), m < 6 → s.apllState m = 1 → (s.apl m).waiting = true → s.on F.APLL_BAND_MAN m = true → Settles
  (.searchRetry m) s (fun u => u.apllState m = 3 ∧ u.rd F.APLL_STAT_BAND m = s.rd F.APLL_BAND_MAN_BAND m % 2 ^
  F.APLL_STAT_BAND.w ∧ u.mem = s.mem ∧ u.ridge = s.ridge)) ∧
  (∀ (s : State) (m : Nat), m < 6 → s.apllState m = 3 → (s.apl m).cmds = [] → Settles (.apllLock m) s (fun u => u.apllState m
  = 4 ∧ u.on F.APLL_STAT_LOCK m = true ∧ u.mem = s.mem ∧ u.ridge = s.ridge ∧ (∀ k, k ≠ m → u.apllState k = s.apllState k))) ∧
  (∀ (s : State) (m : Nat) (refLost : Bool), m < 6 → s.apllState m = 4 → Settles (.apllLossOfLock m refLost) s (fun u =>
  u.apllState m = 5 ∧ u.on F.APLL_STAT_LOCK m = false ∧ u.on F.APLL_STAT_BYPASS m = true ∧ u.isLive (if refLost then 70 else
  68) = true ∧ (refLost = true → u.on F.APLL_STAT_REF_OK m = false) ∧ u.mem = s.mem ∧ u.ridge = s.ridge)) ∧
  (∀ (s : State) (m : Nat), m < 6 → s.apllState m = 5 → s.on F.APLL_BAND_MAN m = true → Settles (.apllRefReturn m) s (fun u =>
  u.apllState m = 3 ∧ u.on F.APLL_STAT_REF_OK m = true ∧ u.mem = s.mem ∧ u.ridge = s.ridge)) ∧
  (∀ (s : State) (m : Nat), m < 6 → s.apllState m = 4 → s.on F.APLL_STAT_BYPASS m = true → s.on F.APLL_CTL_AUTO_RET m = true →
  Settles (.bypassReturn m) s (fun u => u.on F.APLL_STAT_BYPASS m = false ∧ u.apllState m = 4 ∧ u.mem = s.mem ∧ u.ridge =
  s.ridge)) ∧
  (∀ (s : State) (c : CmdRef) (w0 : Nat), bits w0 0 3 < 6 → s.apllState (bits w0 0 3) = 4 → s.on F.APLL_STAT_BYPASS (bits w0 0
  3) = true → Replies (.apllReturn c w0) s c (fun u => u.on F.APLL_STAT_BYPASS (bits w0 0 3) = false ∧ u.apllState (bits w0 0
  3) = 4 ∧ u.mem = s.mem ∧ u.ridge = s.ridge)) ∧
  (∀ (s : State) (c : CmdRef) (w0 : Nat), s.apllState (bits w0 0 3) ≠ 4 → Refuses (.apllReturn c w0) s c Code.badParam)

/-- Enabling a stopped clock output whose settings pass sets EN and RUNNING; settings that fail keep EN = 0 with FS 67.
Disabling a running one clears EN and lets it stop after its cycle, and when it has stopped RUNNING is 0. FINE of a clock's
delay may be written while it runs, COARSE then keeps its value. The offset of a running pulse output is staged, that of a
stopped one is in force at once. A pulse starts only on a running output that is not squelched and not already high, and ends
when its width has passed. OUT_ALIGN of enabled, allowed outputs waits for the beat edge with ALIGN_BUSY set; it is refused
for a disabled output and on a standby. An alignment with no output left completes, and the end of a pulse output's slew
clears its difference. -/
def Obligations.OutputsRunAlignAndPulse : Prop :=
  (∀ (s : State) (req o w : Nat), Admitted s req → o < 16 → s.on F.OUT_CLK_CTL_EN o = false → s.loop.stopping.contains o =
  false → bits w 1 3 = 7 → bits w 4 3 ≤ 2 → s.rd F.OUT_CLK_DIV_DIV o = 1 → s.rd F.TOP_BOOT_STAT_XO_FREQ = 1 → Settles
  (.outputEnable req o w) s (fun u => u.on F.OUT_CLK_CTL_EN o = true ∧ u.on F.OUT_CLK_STAT_RUNNING o = true ∧ u.mem = s.mem ∧
  u.ridge = s.ridge ∧ u.loop = s.loop)) ∧
  (∀ (s : State) (req o w : Nat), Admitted s req → o < 16 → s.on F.OUT_CLK_CTL_EN o = true → s.loop.stopping.contains o =
  false → s.slewing o = false → Settles (.outputDisable req o w) s (fun u => u.on F.OUT_CLK_CTL_EN o = false ∧ u.loop.stopping
  = s.loop.stopping ++ [o] ∧ u.on F.OUT_CLK_STAT_RUNNING o = s.on F.OUT_CLK_STAT_RUNNING o ∧ u.mem = s.mem ∧ u.ridge =
  s.ridge)) ∧
  (∀ (s : State) (o : Nat), o < 16 → s.loop.stopping.contains o = true → s.on F.OUT_CLK_STAT_PENDING_ENABLE o = false →
  Settles (.outputStopDone o) s (fun u => u.on F.OUT_CLK_STAT_RUNNING o = false ∧ u.on F.OUT_CLK_STAT_BYPASS o = false ∧ o ∉
  u.loop.stopping ∧ { s with regs := u.regs, loop := u.loop } = u ∧ RegsBut s u [(F.OUT_CLK_STAT_RUNNING, o),
  (F.OUT_CLK_STAT_BYPASS, o)])) ∧
  (∀ (s : State) (req o w : Nat), Admitted s req → o < 16 → s.on F.OUT_CLK_CTL_EN o = true → bits w F.OUT_CLK_DLY_COARSE.lo
  F.OUT_CLK_DLY_COARSE.w = s.rd F.OUT_CLK_DLY_COARSE o → inRange F.OUT_CLK_DLY_FINE (bits w F.OUT_CLK_DLY_FINE.lo
  F.OUT_CLK_DLY_FINE.w) = true → Settles (.fineSkewWrite req o w) s (fun u => u.rd F.OUT_CLK_DLY_FINE o = bits w
  F.OUT_CLK_DLY_FINE.lo F.OUT_CLK_DLY_FINE.w ∧ { s with regs := u.regs, loop := { s.loop with fine := u.loop.fine } } = u ∧
  u.loop.fine = s.loop.fine.set o (bits w F.OUT_CLK_DLY_FINE.lo F.OUT_CLK_DLY_FINE.w) ∧ RegsBut s u [(F.OUT_CLK_DLY_COARSE,
  o), (F.OUT_CLK_DLY_FINE, o)])) ∧
  (∀ (s : State) (req j w : Nat), Admitted s req → j < 8 → s.outRuns (16 + j) = true → Settles (.ppsOfsWrite req j w) s (fun u
  => u.rd F.OUT_PPS_OFS_OFS j = bits w F.OUT_PPS_OFS_OFS.lo F.OUT_PPS_OFS_OFS.w ∧ u.on F.OUT_PPS_STAT_OFS_STAGED j = true ∧
  OnlyRegs s u [(F.OUT_PPS_OFS_OFS, j), (F.OUT_PPS_STAT_OFS_STAGED, j)])) ∧
  (∀ (s : State) (j : Nat), j < 8 → s.loop.pps.length = 8 → (s.pps j).slew = none → s.outRuns (16 + j) = true → s.outSq (16 +
  j) = false → (s.pps j).high = false → Settles (.pulseStart j) s (fun u => (u.pps j).high = true ∧ (u.pps j).last = some
  (s.nextPulse j) ∧ (u.pps j).start = u.ridge.ticks ∧ u.out = s.out ++ [.pulse j true] ∧ u.mem = s.mem)) ∧
  (∀ (s : State) (j : Nat), j < 8 → s.loop.pps.length = 8 → (s.pps j).slew = none → (s.pps j).high = true → Settles (.pulseEnd
  j) s (fun u => (u.pps j).high = false ∧ u.ridge.ticks = s.ridge.ticks + s.pulseLeft j ∧ u.out = s.out ++ [.pulse j false] ∧
  u.mem = s.mem)) ∧
  (∀ (s : State) (c : CmdRef) (w0 w1 : Nat), s.notHolder = false → s.alignBad (namedOutputs w0) = false → (namedOutputs
  w0).any s.slewing = false → Settles (.outAlign c w0 w1) s (fun u => u.loop.aligns = s.loop.aligns ++
  [{ ref := c, outs := namedOutputs w0, left := namedOutputs w0, slew := bit w1 0, rate := bits w1 16 14 }] ∧ u.on
  F.OUT_STAT_ALIGN_BUSY = true ∧ u.mem = s.mem ∧ u.ridge = s.ridge ∧ RegsBut s u [(F.OUT_STAT_ALIGN_BUSY, 0)])) ∧
  (∀ (s : State) (c : CmdRef) (w0 w1 : Nat), s.notHolder = false → (namedOutputs w0).any (fun o => !s.outOn o) = true →
  Refuses (.outAlign c w0 w1) s c Code.badParam) ∧
  (∀ (s : State) (c : CmdRef) (w0 w1 : Nat), s.notHolder = true → s.rd F.PAIR_STAT_STATE ≠ 2 → c.src ≠ .mirror → Refuses
  (.outAlign c w0 w1) s c Code.notTokenHolder) ∧
  (∀ (s : State) (c : CmdRef) (slew : Bool) (rate : Nat), s.loop.aligns =
  [{ ref := c, outs := [], left := [], slew := slew, rate := rate }] → Settles .outAlignApply s (fun u => u.loop.aligns = [] ∧
  u.on F.OUT_STAT_ALIGN_BUSY = false ∧ u.mem = s.mem ∧ u.ridge = s.ridge)) ∧
  (∀ (s : State) (j : Nat), j < 8 → s.slewing (16 + j) = true → Settles (.alignSlewDone (16 + j)) s (fun u => u.rd
  F.OUT_PPS_DIFF_DIFF j = 0 ∧ u.on F.OUT_PPS_STAT_ALIGNING j = false ∧ u.slewing (16 + j) = false ∧ u.mem = s.mem ∧ u.ridge =
  s.ridge))

/-- A search that finds its signal moves its channel to PULL_IN; one that does not queues again one class lower. Convergence
moves PULL_IN to FLL, phase lock FLL to PLL with the lock count at 0; a lost phase lock goes back to FLL with SLIP due; a
timeout or a lost signal queues the search again. An assignment with a channel below 384 and a signal of the stream's mask
waits for the next epoch latch, any other completes with BAD_PARAM; automatic assignment adds waiting assignments only.
Nothing else of the machine changes. -/
def Obligations.TrackingChannelsSearchPullInAndLock : Prop :=
  (∀ (s : State) (g : GnssCh), s.nextSearch = some g → Settles (.acqSearchDone true) s (fun u => u.gch g.no = some
  { g with st := 2 } ∧ u.gnss.queue = s.gnss.queue.filter (fun n => n != g.no) ∧ { s with regs := u.regs, gnss := u.gnss } = u
  ∧ RegsBut s u [(F.GNSS_STAT_CH_TRACK, 0)])) ∧
  (∀ (s : State) (g : GnssCh), s.nextSearch = some g → Settles (.acqSearchDone false) s (fun u => u.gch g.no = some
  { g with st := 1, cls := min 2 (g.cls + 1), lockCnt := 0 } ∧ u.gnss.queue = s.gnss.queue.filter (fun n => n != g.no) ++
  [g.no] ∧ { s with regs := u.regs, gnss := u.gnss } = u ∧ RegsBut s u [(F.GNSS_STAT_CH_TRACK, 0)])) ∧
  (∀ (s : State) (no : Nat) (g : GnssCh), s.gch no = some g → g.st = 2 → Settles (.channelPullInDone no) s (fun u => u.gch no
  = some { g with st := 3 } ∧ { s with regs := u.regs, gnss := { s.gnss with ch := u.gnss.ch } } = u ∧ RegsBut s u
  [(F.GNSS_STAT_CH_TRACK, 0)])) ∧
  (∀ (s : State) (no : Nat) (g : GnssCh), s.gch no = some g → g.st = 2 → Settles (.channelPullInTimeout no) s (fun u => u.gch
  no = some { g with st := 1, lockCnt := 0 } ∧ u.gnss.queue = s.gnss.queue.filter (fun n => n != no) ++ [no] ∧
  { s with regs := u.regs, gnss := { s.gnss with ch := u.gnss.ch, queue := u.gnss.queue } } = u ∧ RegsBut s u
  [(F.GNSS_STAT_CH_TRACK, 0)])) ∧
  (∀ (s : State) (no : Nat) (g : GnssCh), s.gch no = some g → g.st = 3 → Settles (.channelPhaseLock no) s (fun u => u.gch no =
  some { g with st := 4, lockCnt := 0 } ∧ { s with regs := u.regs, gnss := { s.gnss with ch := u.gnss.ch } } = u ∧ RegsBut s u
  [(F.GNSS_STAT_CH_TRACK, 0)])) ∧
  (∀ (s : State) (no : Nat) (g : GnssCh), s.gch no = some g → g.st = 4 → Settles (.channelPhaseUnlock no) s (fun u => u.gch no
  = some { g with st := 3, slip := true } ∧ { s with regs := u.regs, gnss := { s.gnss with ch := u.gnss.ch } } = u ∧ RegsBut s
  u [(F.GNSS_STAT_CH_TRACK, 0)])) ∧
  (∀ (s : State) (no : Nat) (g : GnssCh), s.gch no = some g → g.st = 3 ∨ g.st = 4 → Settles (.channelLost no) s (fun u =>
  u.gch no = some { g with st := 1, cls := 0, lockCnt := 0, slip := g.slip || g.st == 4 } ∧ u.gnss.queue = s.gnss.queue.filter
  (fun n => n != no) ++ [no] ∧ { s with regs := u.regs, gnss := { s.gnss with ch := u.gnss.ch, queue := u.gnss.queue } } = u ∧
  RegsBut s u [(F.GNSS_STAT_CH_TRACK, 0)])) ∧
  (∀ (s : State) (c : CmdRef) (w0 : Nat), bits w0 0 9 < 384 → bits w0 12 4 = 15 ∨ s.sigOn (bits w0 9 1) (bits w0 10 2) (bits
  w0 12 4) = true → Settles (.gnssChAssign c w0) s (fun u => u =
  { s with gnss := { s.gnss with assigns := s.gnss.assigns ++ [⟨some c, bits w0 0 9, bits w0 9 1, bits w0 10 2, bits w0 12 4, bits w0 16 8⟩] } })) ∧
  (∀ (s : State) (c : CmdRef) (w0 : Nat), 384 ≤ bits w0 0 9 → Refuses (.gnssChAssign c w0) s c Code.badParam) ∧
  (∀ (s : State) (vis : List (Nat × Nat × Nat)), s.rxActive = true → s.on F.GNSS_CTL_AUTO_CH = true → Settles (.autoAssign
  vis) s (fun u => s.gnss.assigns <+: u.gnss.assigns ∧ (∀ q ∈ u.gnss.assigns, q ∈ s.gnss.assigns ∨ q.cmd = none) ∧
  { s with gnss := { s.gnss with assigns := u.gnss.assigns }, fcu := u.fcu } = u))

/-- An enable starts the receiver when its island is on and its settings pass the check; with the island off EN returns to 0
and FS 221 is staged. A disable releases every channel and leaves STOPPING for OFF when the engine has stopped. A stream
enabled outside service takes EN. A lost sample clock stops the antenna's streams and begins FS 81, its return ends it.
GNSS_SLEEP from RUNNING goes to SLEEPING and completes when the receiver is ASLEEP; in OFF it is refused. GNSS_WAKE wakes an
ASLEEP receiver and is refused to a RUNNING one. -/
def Obligations.ReceiverStartsStopsSleepsAndWakes : Prop :=
  (∀ (s : State) (req w : Nat) (fe : List Nat) (sclk : Nat), Admitted s req → s.on F.GNSS_CTL_EN = false → s.rx = 0 →
  s.testing 0x70 = false → s.islandOn 0 = true → ((s.fieldWrite noLock inRange [F.GNSS_CTL_TIME_SYS, F.GNSS_CTL_UTC_CORR,
  F.GNSS_CTL_SPOOF_REQ, F.GNSS_CTL_BASE_LEARN, F.GNSS_CTL_MODE, F.GNSS_CTL_EPOCH_RATE, F.GNSS_CTL_AUTO_CH, F.GNSS_CTL_ANT1_EN,
  F.GNSS_CTL_EN] 0 (setBit w 0 true)).1).gnssCheck = true → Settles (.gnssEnable req w fe sclk) s (fun u => u.on F.GNSS_CTL_EN
  = true ∧ u.rx = 1 ∧ u.gnss.sclk = [bit sclk 0, bit sclk 1] ∧ u.mem = s.mem ∧ u.ridge = s.ridge)) ∧
  (∀ (s : State) (req w : Nat) (fe : List Nat) (sclk : Nat), Admitted s req → s.on F.GNSS_CTL_EN = false → s.rx = 0 →
  s.testing 0x70 = false → s.islandOn 0 = false → Settles (.gnssEnable req w fe sclk) s (fun u => u.on F.GNSS_CTL_EN = false ∧
  u.rx = 0 ∧ u.staged 221 ∧ u.mem = s.mem ∧ u.ridge = s.ridge)) ∧
  (∀ (s : State) (req w : Nat), Admitted s req → s.on F.GNSS_CTL_EN = true → s.rx = 2 → s.testing 0x70 = false → Settles
  (.gnssDisable req w) s (fun u => u.on F.GNSS_CTL_EN = false ∧ u.rx = 6 ∧ u.gnss.ch = [] ∧ u.rd F.GNSS_VERDICT_VERDICT = 0 ∧
  u.on F.GNSS_STAT_SOL_VALID = false ∧ u.ridge = s.ridge)) ∧
  (∀ (s : State) (fe : List Nat) (sclk : Nat), s.rx = 6 → s.on F.GNSS_STAT_PENDING_ENABLE = false → Settles (.gnssStopDone fe
  sclk) s (fun u => u.rx = 0 ∧ OnlyRegs s u [(F.GNSS_STAT_STATE, 0)])) ∧
  (∀ (s : State) (req t w : Nat), Admitted s req → t < 8 → s.streamOn t = false → s.on F.GNSS_CTL_EN = false → Settles
  (.streamEnable req t w) s (fun u => u.streamOn t = true ∧
  { s with regs := u.regs, gnss := { s.gnss with run := u.gnss.run }, fcu := u.fcu } = u)) ∧
  (∀ (s : State) (a : Nat), a < 2 → s.gnss.sclk.getD a false = true → Settles (.sclkLoss a) s (fun u => u.gnss.sclk.getD a
  false = false ∧ u.condHolds 81 a = true ∧ (∀ b, b < 4 → u.streamRuns (4 * a + b) = false) ∧ (∀ g ∈ s.gnss.ch, g.ant = a → ∃
  h, u.gch g.no = some h ∧ h.st = 5) ∧ u.mem = s.mem ∧ u.ridge = s.ridge)) ∧
  (∀ (s : State) (a : Nat), a < 2 → s.gnss.sclk.length = 2 → Settles (.sclkRestart a) s (fun u => u.gnss.sclk.getD a false =
  true ∧ u.condHolds 81 a = false ∧ u.mem = s.mem ∧ u.ridge = s.ridge)) ∧
  (∀ (s : State) (c : CmdRef) (w0 : Nat), s.rx = 2 → Settles (.gnssSleep c w0) s (fun u => u.rx = 3 ∧ u.gnss.sleeps =
  s.gnss.sleeps ++ [c] ∧ u.gnss.queue = [] ∧ (∀ t, u.streamRuns t = false) ∧ u.mem = s.mem ∧ RegsBut s u [(F.GNSS_STAT_STATE,
  0), (F.GNSS_STAT_CH_TRACK, 0)])) ∧
  (∀ (s : State) (c : CmdRef) (w0 : Nat), s.rx = 0 ∨ s.rx = 6 → Refuses (.gnssSleep c w0) s c Code.badParam) ∧
  (∀ (s : State), s.rx = 3 → s.gnss.sleeps = [] → s.on F.GNSS_STAT_PENDING_ENABLE = false → Settles .gnssSleepDone s (fun u =>
  u.rx = 4 ∧ OnlyRegs s u [(F.GNSS_STAT_STATE, 0)])) ∧
  (∀ (s : State) (c : CmdRef), s.rx = 4 → Replies (.gnssWake c) s c (fun u => u.rx = 5 ∧ u.on F.GNSS_STAT_PENDING_ENABLE =
  false ∧ u.gnss.wakes = [] ∧ u.mem = s.mem ∧ u.ridge = s.ridge)) ∧
  (∀ (s : State) (c : CmdRef), s.rx = 2 → Refuses (.gnssWake c) s c Code.badParam)

/-- Jamming sets JAM of the stream, its bit in GNSS_VERDICT and FS 83; its end clears all three. An epoch latch takes the
anchor, the beat and the corrections so far, and empties what waited for it. A finished solution is VALID only with enough
satellites, and is then held for delivery with its offset and frequency; delivered, it is carried forward over its age, shown
in GNSS_TSOL and given to the ensemble as slot 11. GNSS_SURVEY starts a survey and makes the mode SURVEY; GNSS_HINT_SAVE
stores a hint only while the solution is VALID; GNSS_COLD forgets ephemerides, almanac and hints. -/
def Obligations.ReceiverEpochsSolutionsAndHints : Prop :=
  (∀ (s : State) (t jn : Nat), t < 8 → s.streamRuns t = true → Settles (.jamSet t jn) s (fun u => u.rd F.GNSS_STREAM_STAT_JN t
  = satU F.GNSS_STREAM_STAT_JN.w jn ∧ u.on F.GNSS_STREAM_STAT_JAM t = true ∧ bit (u.rd F.GNSS_VERDICT_JAM) t = true ∧
  u.condHolds 83 t = true ∧ OnlyRegsFcu s u [(F.GNSS_STREAM_STAT_JN, t), (F.GNSS_STREAM_STAT_JAM, t), (F.GNSS_VERDICT_JAM,
  0)])) ∧
  (∀ (s : State) (t jn : Nat), t < 8 → Settles (.jamClear t jn) s (fun u => u.on F.GNSS_STREAM_STAT_JAM t = false ∧ bit (u.rd
  F.GNSS_VERDICT_JAM) t = false ∧ u.condHolds 83 t = false ∧ OnlyRegsFcu s u [(F.GNSS_STREAM_STAT_JN, t),
  (F.GNSS_STREAM_STAT_JAM, t), (F.GNSS_VERDICT_JAM, 0)])) ∧
  (∀ (s : State) (peaks : List (List (Int × Nat))) (jn : List Nat) (sat : Nat), Settles (.notchScan peaks jn sat) s (fun u =>
  (∀ t, t < 8 → s.streamRuns t = true → u.on F.GNSS_STREAM_STAT_SAT t = bit sat t ∧ u.condHolds 82 t = bit sat t) ∧
  { s with regs := u.regs, gnss := { s.gnss with notch := u.gnss.notch }, fcu := u.fcu } = u)) ∧
  (∀ (s : State) (pos : Nat), s.epochBeat = true → (List.range 8).any s.streamRuns = true → Settles (.epochLatch pos) s (fun u
  => u.gnss.latched = some ⟨s.rd F.RIDGE_x_ANCHOR_COUNT_COUNT 0, s.rd F.RIDGE_BEAT_SEQ_SEQ, s.ridge.a.total⟩ ∧ u.gnss.assigns
  = [] ∧ u.gnss.was = [] ∧ u.ridge = s.ridge)) ∧
  (∀ (s : State) (x : GnssFix) (ep : EpochSt), s.gnss.epoch = some ep → s.rxActive = true → Settles (.solutionDone x) s (fun u
  => u.gnss.epoch = none ∧ u.gnss.hadSolution = true ∧ (u.on F.GNSS_STAT_SOL_VALID = true ↔ ∃ q, u.gnss.sol = some q ∧ q.ofs =
  x.ofs ∧ q.freq = x.freq ∧ q.ep = ep) ∧ (x.sats.length < s.inG F.GNSS_MIN_MIN_SV → u.on F.GNSS_STAT_SOL_VALID = false ∧
  u.gnss.invalid = s.gnss.invalid + 1) ∧ u.ridge = s.ridge)) ∧
  (∀ (s : State) (q : GnssSol), s.gnss.sol = some q → 8 ≤ s.solAge q → s.rxActive = true → s.rd F.GNSS_VERDICT_VERDICT ≠ 4 →
  Settles .gnssDelivery s (fun u => u.gnss.sol = none ∧ u.rd F.GNSS_TSOL_UNC_U = q.u % 2 ^ F.GNSS_TSOL_UNC_U.w ∧ u.on
  F.GNSS_TSOL_INFO_VALID = true ∧ u.rd F.GNSS_TSOL_INFO_SEQ = (s.rd F.GNSS_TSOL_INFO_SEQ + 1) % 2 ^ F.GNSS_TSOL_INFO_SEQ.w ∧
  u.ens.deliv = s.ens.deliv ++ [⟨11, roundRat ((q.ofs : Rat) + (q.freq : Rat) / 2 ^ 60 * s.solAge q * ruBeat - ru40
  (s.ridge.a.total - q.ep.total)), (q.freq : Rat) / 2 ^ 60, s.solAge q⟩] ∧ u.mem = s.mem ∧ u.ridge = s.ridge)) ∧
  (∀ (s : State), s.gnss.survey = true → Settles .surveyTimeout s (fun u => u.staged 87 ∧ u.regs = s.regs ∧ u.gnss = s.gnss)) ∧
  (∀ (s : State) (c : CmdRef) (w0 : Nat), s.rxActive = true → Replies (.gnssSurvey c w0) s c (fun u => u.gnss.survey = true ∧
  u.gnss.learn = (s.on F.GNSS_CTL_BASE_LEARN || bit w0 1) ∧ u.rd F.GNSS_STAT_MODE_ACT = 1 ∧
  { s with regs := u.regs, gnss := u.gnss } = u ∧ RegsBut s u [(F.GNSS_STAT_MODE_ACT, 0)])) ∧
  (∀ (s : State) (c : CmdRef) (w0 : Nat), s.rxActive = false → Refuses (.gnssSurvey c w0) s c Code.badParam) ∧
  (∀ (s : State) (c : CmdRef), s.on F.GNSS_STAT_SOL_VALID = true → s.gnss.hints = [none, none] → Replies (.gnssHintSave c) s c
  (fun u => ∃ h, u = { s with gnss := { s.gnss with hints := [some h, none] } } ∧ h.pos = s.gnss.pos ∧ h.rtc = s.rd
  F.TOP_RTC_SEC_SEC)) ∧
  (∀ (s : State) (c : CmdRef), s.on F.GNSS_STAT_SOL_VALID = false → Refuses (.gnssHintSave c) s c Code.badParam) ∧
  (∀ (s : State), s.on F.GNSS_STAT_SOL_VALID = true → s.inG F.GNSS_HINT_HINT_PERIOD ≠ 0 → s.gnss.hints = [none, none] →
  Settles .hintPeriodicSave s (fun u => ∃ h, u = { s with gnss := { s.gnss with hints := [some h, none] } } ∧ h.pos =
  s.gnss.pos ∧ h.rtc = s.rd F.TOP_RTC_SEC_SEC)) ∧
  (∀ (s : State) (c : CmdRef), Replies (.gnssCold c) s c (fun u => u.gnss.eph = 0 ∧ u.gnss.almanac = false ∧ u.gnss.hints =
  [none, none] ∧ { s with regs := u.regs, gnss := u.gnss } = u ∧ RegsBut s u [(F.GNSS_STAT_CH_TRACK, 0)]))

/-- A group whose island is on and whose settings pass the check runs, or waits for its module when PMD is 2 and FEC 3; with
the island off EN returns to 0 and FS 221 is staged. A disabled group stops with its ports. A module's report fixes mode and
FEC, or stages FS 102. An enabled port of a running group clears its counters and begins bring-up; disabled, it stops, and
stopped it is DISABLED. DOZE takes an UP port to DOZE and stages FS 106; the wake pattern selected, or DOZE written 0, brings
it up again. -/
def Obligations.EthernetGroupsAndPortsStartAndStop : Prop :=
  (∀ (s : State) (req g w : Nat), Admitted s req → g < 8 → s.on F.SDS_GRP_CTL_EN g = false → s.on F.SDS_GRP_CTL_OOS g = false
  → s.grpState g = 0 → s.testing (0x40 + g) = false → s.islandOn (1 + g) = true → ((s.fieldWrite noLock inRange
  [F.SDS_GRP_CTL_FEC, F.SDS_GRP_CTL_PMD, F.SDS_GRP_CTL_TX_REF, F.SDS_GRP_CTL_OOS, F.SDS_GRP_CTL_RCLK_LANE,
  F.SDS_GRP_CTL_RCLK_DIV, F.SDS_GRP_CTL_LB_TXON, F.SDS_GRP_CTL_LB, F.SDS_GRP_CTL_MODE, F.SDS_GRP_CTL_EN] g (setBit w 0
  true)).1).grpCheck g = true → Settles (.groupEnable req g w) s (fun u => u.on F.SDS_GRP_CTL_EN g = true ∧ u.grpState g = (if
  u.rd F.SDS_GRP_CTL_PMD g = 2 ∧ u.rd F.SDS_GRP_CTL_FEC g = 3 then 1 else 2) ∧ u.mem = s.mem ∧ u.ridge = s.ridge)) ∧
  (∀ (s : State) (req g w : Nat), Admitted s req → g < 8 → s.on F.SDS_GRP_CTL_EN g = false → s.on F.SDS_GRP_CTL_OOS g = false
  → s.grpState g = 0 → s.testing (0x40 + g) = false → s.islandOn (1 + g) = false → Settles (.groupEnable req g w) s (fun u =>
  u.on F.SDS_GRP_CTL_EN g = false ∧ u.grpState g = 0 ∧ u.staged 221 (1 + g) ∧ u.mem = s.mem ∧ u.ridge = s.ridge)) ∧
  (∀ (s : State) (req g w : Nat), Admitted s req → g < 8 → s.on F.SDS_GRP_CTL_EN g = true → s.on F.SDS_GRP_CTL_OOS g = false →
  s.grpState g = 2 → s.testing (0x40 + g) = false → Settles (.groupDisable req g w) s (fun u => u.on F.SDS_GRP_CTL_EN g =
  false ∧ u.grpState g = 4 ∧ (∀ i, i < 4 → u.portState (4 * g + i) = (if s.portState (4 * g + i) = 0 then 0 else 7)) ∧ u.mem =
  s.mem ∧ u.ridge = s.ridge)) ∧
  (∀ (s : State) (p : Nat), p < 32 → s.portState p = 7 → s.on F.MAC_CTL_EN p = false → Settles (.portStopDone false p) s (fun
  u => u.portState p = 0 ∧ u.on F.MAC_STAT_PENDING_ENABLE p = false ∧ u.condHolds 96 p = false ∧ u.mem = s.mem ∧ u.ridge =
  s.ridge)) ∧
  (∀ (s : State) (g : Nat), g < 8 → s.grpState g = 4 → s.on F.SDS_GRP_STAT_PENDING_ENABLE g = false → Settles (.portStopDone
  true g) s (fun u => u.grpState g = (if s.on F.SDS_GRP_CTL_OOS g then 3 else 0) ∧ (∀ i, i < 4 → u.portState (4 * g + i) ≠ 7)
  ∧ u.mem = s.mem ∧ u.ridge = s.ridge)) ∧
  (∀ (s : State) (g mode fec : Nat), g < 8 → s.grpState g = 1 → s.rd F.SDS_GRP_CTL_MODE g = 4 → mode < 4 → Settles
  (.moduleIdent g mode fec) s (fun u => u.grpState g = 2 ∧ u.rd F.SDS_GRP_STAT_MODE_RES g = mode ∧ u.rd F.SDS_GRP_STAT_FEC_RES
  g = min fec 2 ∧ u.on F.SDS_GRP_STAT_MOD_PRESENT g = true ∧ u.mem = s.mem ∧ u.ridge = s.ridge)) ∧
  (∀ (s : State) (g mode fec : Nat), g < 8 → s.grpState g = 1 → 4 ≤ mode → Settles (.moduleIdent g mode fec) s (fun u =>
  u.grpState g = 1 ∧ u.staged 102 g ∧ u.on F.SDS_GRP_STAT_MOD_PRESENT g = true ∧ OnlyRegsFcu s u [(F.SDS_GRP_STAT_MOD_PRESENT,
  g)])) ∧
  (∀ (s : State) (req p w : Nat), Admitted s req → p < 32 → s.portAbsent p = false → s.on F.MAC_CTL_EN p = false → s.on
  F.MAC_CTL_DOZE p = false → bit w 1 = false → s.portState p = 0 → s.grpState (p / 4) = 2 → Settles (.portEnable req p w) s
  (fun u => u.on F.MAC_CTL_EN p = true ∧ u.portState p = (if s.rd F.SDS_GRP_STAT_PMD_RES (p / 4) ≤ 1 then 1 else 3) ∧ u.rd
  F.MAC_STAT_RATE p = s.rd F.SDS_GRP_STAT_MODE_RES (p / 4) % 4 ∧ (∀ f ∈ macCounters, u.rd f p = 0) ∧ u.mem = s.mem ∧ u.ridge =
  s.ridge)) ∧
  (∀ (s : State) (req p w : Nat), Admitted s req → p < 32 → s.portAbsent p = false → s.on F.MAC_CTL_EN p = true → s.on
  F.MAC_CTL_DOZE p = false → bit w 1 = false → s.portState p = 4 → s.eth.port.length = 32 → Settles (.portDisable req p w) s
  (fun u => u.on F.MAC_CTL_EN p = false ∧ u.portState p = 7 ∧ (u.prt p).pause = none ∧ u.on F.MAC_STAT_PAUSED p = false ∧
  u.mem = s.mem ∧ u.ridge = s.ridge)) ∧
  (∀ (s : State) (req p w : Nat), Admitted s req → p < 32 → s.portAbsent p = false → s.on F.MAC_CTL_EN p = true → bit w 0 =
  true → s.on F.MAC_CTL_DOZE p = false → s.portState p = 4 → s.eth.port.length = 32 → Settles (.dozeEnter req p w) s (fun u =>
  u.on F.MAC_CTL_DOZE p = true ∧ u.portState p = 6 ∧ (u.prt p).dozing = true ∧ u.staged 106 p ∧ u.mem = s.mem ∧ u.ridge =
  s.ridge)) ∧
  (∀ (s : State) (p : Nat), p < 32 → s.eth.port.length = 32 → (s.prt p).dozing = true → s.on F.MAC_STAT_PENDING_ENABLE p =
  false → Settles (.dozeEntryDone p) s (fun u => u = s.setPrt p { s.prt p with dozing := false } ∧ (u.prt p).dozing = false)) ∧
  (∀ (s : State) (req p cause w : Nat), p < 32 → cause < 2 → s.portState p = 6 → (s.prt p).dozing = false → s.rd
  F.MAC_CTL_WAKE_SEL p = cause → s.on F.MAC_CTL_EN p = true → s.grpState (p / 4) = 2 → s.portAbsent p = false → Settles
  (.portWake req p cause w) s (fun u => u.on F.MAC_CTL_DOZE p = false ∧ u.portState p = (if s.rd F.SDS_GRP_STAT_PMD_RES (p /
  4) ≤ 1 then 1 else 3) ∧ u.mem = s.mem ∧ u.ridge = s.ridge)) ∧
  (∀ (s : State) (req p cause w : Nat), Admitted s req → p < 32 → 2 ≤ cause → s.portState p = 6 → (s.prt p).dozing = false →
  s.on F.MAC_CTL_EN p = true → bit w 0 = true → s.on F.MAC_CTL_DOZE p = true → s.grpState (p / 4) = 2 → s.portAbsent p = false
  → Settles (.portWake req p cause w) s (fun u => u.on F.MAC_CTL_DOZE p = false ∧ u.portState p = (if s.rd
  F.SDS_GRP_STAT_PMD_RES (p / 4) ≤ 1 then 1 else 3) ∧ u.mem = s.mem ∧ u.ridge = s.ridge))

/-- A resolved negotiation takes a port to TRAINING with the rate resolved; a timeout stages FS 98 and, of training, returns
to negotiation. Training done marks every lane of the port and goes on to ALIGN; lock makes the port UP with CDR and block
lock on its lanes and ends FS 96; no lock starts over. A fault ordered set moves an UP port to FAULT with its cause and stages
FS 97, and its end moves it back. A lost link counts, begins FS 96 and starts bring-up over. A reload of corrections advances
CORR_GEN of the group. A received frame of an UP port counts as good or as an error. -/
def Obligations.EthernetLinksComeUpAndGoDown : Prop :=
  (∀ (s : State) (p mode fec : Nat), p < 32 → s.portState p = 1 → Settles (.anResolved p mode fec) s (fun u => u.portState p =
  2 ∧ u.rd F.MAC_STAT_RATE p = u.rd F.SDS_GRP_STAT_MODE_RES (p / 4) % 4 ∧ u.rd F.SDS_GRP_STAT_MODE_RES (p / 4) = (if s.rd
  F.SDS_GRP_CTL_MODE (p / 4) = 4 then min mode 3 else s.rd F.SDS_GRP_STAT_MODE_RES (p / 4)) ∧ u.rd F.SDS_GRP_STAT_FEC_RES (p /
  4) = (if s.rd F.SDS_GRP_CTL_FEC (p / 4) = 3 then min fec 2 else s.rd F.SDS_GRP_STAT_FEC_RES (p / 4)) ∧ u.mem = s.mem ∧
  u.ridge = s.ridge)) ∧
  (∀ (s : State) (p : Nat), p < 32 → s.portState p = 1 → Settles (.anTimeout p) s (fun u => u.staged 98 p ∧ OnlyRegsFcu s u
  [])) ∧
  (∀ (s : State) (p : Nat) (eq : List (List Nat)), p < 32 → s.portState p = 2 → Settles (.trainingDone p eq) s (fun u =>
  u.portState p = 3 ∧ (∀ l ∈ s.portLanes p, u.on F.SDS_LN_STAT_TRAINED l = true) ∧ u.mem = s.mem ∧ u.ridge = s.ridge ∧ u.eth =
  s.eth)) ∧
  (∀ (s : State) (p : Nat), p < 32 → s.portState p = 2 → Settles (.trainingTimeout p) s (fun u => u.portState p = 1 ∧ u.staged
  98 p ∧ u.mem = s.mem ∧ u.ridge = s.ridge ∧ u.eth = s.eth)) ∧
  (∀ (s : State) (p : Nat) (corr : List (Int × Int)), p < 32 → s.portState p = 3 → Settles (.alignLock p corr) s (fun u =>
  u.portState p = 4 ∧ u.condHolds 96 p = false ∧ (∀ l ∈ s.portLanes p, u.on F.SDS_LN_STAT_CDR_LOCK l = true ∧ u.on
  F.SDS_LN_STAT_BLOCK_LOCK l = true) ∧ u.rd F.PM_STAT_CORR_GEN (p / 4) = (s.rd F.PM_STAT_CORR_GEN (p / 4) + 1) % 2 ^
  F.PM_STAT_CORR_GEN.w ∧ u.mem = s.mem ∧ u.ridge = s.ridge)) ∧
  (∀ (s : State) (p : Nat), p < 32 → s.portState p = 3 → Settles (.alignTimeout p) s (fun u => u.portState p = (if s.rd
  F.SDS_GRP_STAT_PMD_RES (p / 4) ≤ 1 then 1 else 3) ∧ u.mem = s.mem ∧ u.ridge = s.ridge ∧ u.eth = s.eth)) ∧
  (∀ (s : State) (p : Nat) (remote : Bool), p < 32 → s.portState p = 4 → Settles (.linkFaultRx p remote) s (fun u =>
  u.portState p = 5 ∧ u.on (if remote then F.MAC_STAT_REMOTE_FAULT else F.MAC_STAT_LOCAL_FAULT) p = true ∧ u.staged 97 p ∧
  u.mem = s.mem ∧ u.ridge = s.ridge ∧ u.eth = s.eth)) ∧
  (∀ (s : State) (p : Nat), p < 32 → s.portState p = 5 → Settles (.linkFaultClear p) s (fun u => u.portState p = 4 ∧ u.on
  F.MAC_STAT_REMOTE_FAULT p = false ∧ u.on F.MAC_STAT_LOCAL_FAULT p = false ∧ u.mem = s.mem ∧ u.ridge = s.ridge ∧ u.eth =
  s.eth)) ∧
  (∀ (s : State) (p : Nat), p < 32 → s.portState p = 4 ∨ s.portState p = 5 → Settles (.linkDown p) s (fun u => u.portState p =
  (if s.rd F.SDS_GRP_STAT_PMD_RES (p / 4) ≤ 1 then 1 else 3) ∧ u.rd F.MAC_CNT_LINK_DOWN_LINK_DOWN p = satU
  F.MAC_CNT_LINK_DOWN_LINK_DOWN.w (s.rd F.MAC_CNT_LINK_DOWN_LINK_DOWN p + 1) ∧ u.condHolds 96 p = true ∧ (∀ l ∈ s.portLanes p,
  u.on F.SDS_LN_STAT_CDR_LOCK l = false) ∧ u.mem = s.mem ∧ u.ridge = s.ridge)) ∧
  (∀ (s : State) (p : Nat) (sk cdr : Int), p < 32 → s.portState p = 4 → s.rd F.SDS_GRP_STAT_MODE_RES (p / 4) ≠ 0 → Settles
  (.corrReload p [(sk, cdr)]) s (fun u => u.rd F.PM_LN_RXSKEW_VALUE p = ofS F.PM_LN_RXSKEW_VALUE.w sk ∧ u.rd
  F.PM_LN_RXLAT_VALUE p = ofS F.PM_LN_RXLAT_VALUE.w ((s.lane p).lat0 + cdr) ∧ u.rd F.PM_STAT_CORR_GEN (p / 4) = (s.rd
  F.PM_STAT_CORR_GEN (p / 4) + 1) % 2 ^ F.PM_STAT_CORR_GEN.w ∧ RegsBut s u [(F.PM_LN_RXSKEW_VALUE, p), (F.PM_LN_RXLAT_VALUE,
  p), (F.PM_STAT_CORR_GEN, p / 4)] ∧ u.mem = s.mem)) ∧
  (∀ (s : State) (p : Nat) (f : RxFrame) (pred : Nat), p < 32 → s.portState p = 4 → s.rxGood p f = false → Settles (.frameRx p
  f pred) s (fun u => u.rd F.MAC_CNT_RX_ERR_RX_ERR p = satU F.MAC_CNT_RX_ERR_RX_ERR.w (s.rd F.MAC_CNT_RX_ERR_RX_ERR p + 1) ∧
  OnlyRegs s u [(F.MAC_CNT_RX_ERR_RX_ERR, p)])) ∧
  (∀ (s : State) (p : Nat) (f : RxFrame) (pred : Nat), p < 32 → s.portState p = 4 → s.rxGood p f = true → Settles (.frameRx p
  f pred) s (fun u => u.rd F.MAC_CNT_RX_FRAMES_RX_FRAMES p = satU F.MAC_CNT_RX_FRAMES_RX_FRAMES.w (s.rd
  F.MAC_CNT_RX_FRAMES_RX_FRAMES p + 1) ∧ u.rd F.MAC_CNT_RX_ERR_RX_ERR p = s.rd F.MAC_CNT_RX_ERR_RX_ERR p ∧ u.portState p = 4 ∧
  u.ridge = s.ridge))

/-- A frozen lane counts the freeze and thaws unless it is held. An eye result is shown; the fourth low one in a row stages FS
100 and requests a re-adaptation, which a write of READAPT requests too; its end counts. A PAUSE frame pauses the port for its
quanta and counts, or is counted as ignored; a PFC frame pauses the priorities it names. An expired pause ends, and a
congested port repeats its PAUSE. ESMC sets QL_RX to the index of the code, its silence sets QL_RX to 1 and stages FS 103, and
ESMC_TX sends its PDU on each UP port. -/
def Obligations.LanesAdaptAndPausesHold : Prop :=
  (∀ (s : State) (l : Nat), l < 32 → s.on F.SDS_LN_STAT_FROZEN l = false → Settles (.adaptFreeze l) s (fun u => u.on
  F.SDS_LN_STAT_FROZEN l = true ∧ u.rd F.SDS_LN_CNT_FREEZES l = satU F.SDS_LN_CNT_FREEZES.w (s.rd F.SDS_LN_CNT_FREEZES l + 1)
  ∧ OnlyRegs s u [(F.SDS_LN_STAT_FROZEN, l), (F.SDS_LN_CNT_FREEZES, l)])) ∧
  (∀ (s : State) (l : Nat), l < 32 → s.on F.SDS_LN_CTL_ADAPT_HOLD l = false → Settles (.adaptResume l) s (fun u => u.on
  F.SDS_LN_STAT_FROZEN l = false ∧ OnlyRegs s u [(F.SDS_LN_STAT_FROZEN, l)])) ∧
  (∀ (s : State) (l eye : Nat), l < 32 → s.on F.SDS_LN_STAT_FROZEN l = false → s.on F.SDS_LN_STAT_ADAPTING l = false → (s.lane
  l).first = false → s.eth.lane.length = 32 → s.rd F.SDS_LN_CTL_EYE_THR l ≤ satU F.SDS_LN_STAT_EYE.w eye → Settles
  (.eyeMeasure l eye) s (fun u => u.rd F.SDS_LN_STAT_EYE l = satU F.SDS_LN_STAT_EYE.w eye ∧ u.on F.SDS_LN_STAT_EYE_LOW l =
  false ∧ (u.lane l).low = 0 ∧ { s with regs := u.regs, eth := u.eth } = u ∧ RegsBut s u [(F.SDS_LN_STAT_EYE, l),
  (F.SDS_LN_STAT_EYE_LOW, l)])) ∧
  (∀ (s : State) (l eye : Nat), l < 32 → s.on F.SDS_LN_STAT_FROZEN l = false → s.on F.SDS_LN_STAT_ADAPTING l = false → (s.lane
  l).first = false → (s.lane l).low = 3 → (s.lane l).quiet = none → satU F.SDS_LN_STAT_EYE.w eye < s.rd F.SDS_LN_CTL_EYE_THR l
  → s.sort.queues.length = 11 → s.quietQueue (2 + l / 4) = [] → Settles (.eyeMeasure l eye) s (fun u => u.on
  F.SDS_LN_STAT_EYE_LOW l = true ∧ u.staged 100 l ∧ u.quietQueue (2 + l / 4) = [⟨5, l, false, [], s.ridge.ticks, false⟩] ∧
  u.mem = s.mem ∧ u.ridge = s.ridge)) ∧
  (∀ (s : State) (req l w : Nat), Admitted s req → l < 32 → s.sort.queues.length = 11 → s.quietQueue (2 + l / 4) = [] →
  Settles (.readapt req l w) s (fun u => u.quietQueue (2 + l / 4) = [⟨5, l, false, [], s.ridge.ticks, false⟩] ∧ u.mem = s.mem
  ∧ u.ridge = s.ridge ∧ u.eth = s.eth)) ∧
  (∀ (s : State) (l : Nat) (sk cdr : Int) (ctle dfe : Nat), l < 32 → s.isRunning 5 l = true → s.eth.lane.length = 32 → Settles
  (.readaptDone l sk cdr ctle dfe) s (fun u => u.on F.SDS_LN_STAT_ADAPTING l = false ∧ u.rd F.SDS_LN_CNT_READAPTS l = satU
  F.SDS_LN_CNT_READAPTS.w (s.rd F.SDS_LN_CNT_READAPTS l + 1) ∧ (u.lane l).first = true ∧ u.rd F.SDS_LN_EQ_CTLE l = ctle % 2 ^
  F.SDS_LN_EQ_CTLE.w ∧ u.rd F.PM_LN_RXSKEW_VALUE l = ofS F.PM_LN_RXSKEW_VALUE.w sk ∧ u.mem = s.mem)) ∧
  (∀ (s : State) (p : Nat) (f : RxFrame), p < 32 → s.portState p = 4 → f.fcsOk = true → isMacControl f.bytes 1 = true → s.on
  F.MAC_CTL_PFC_EN p = false → s.on F.MAC_CTL_FC_IGN p = false → s.eth.port.length = 32 → Settles (.pauseRx p f) s (fun u =>
  (u.prt p).pause = s.pauseEnd p (be f.bytes 16 2) ∧ u.on F.MAC_STAT_PAUSED p = (be f.bytes 16 2 != 0) ∧ u.rd
  F.MAC_CNT_PAUSE_RX_PAUSE_RX p = satU F.MAC_CNT_PAUSE_RX_PAUSE_RX.w (s.rd F.MAC_CNT_PAUSE_RX_PAUSE_RX p + 1) ∧
  { s with regs := u.regs, eth := u.eth } = u ∧ RegsBut s u [(F.MAC_STAT_PAUSED, p), (F.MAC_STAT_PFC_PAUSED, p),
  (F.MAC_CNT_PAUSE_RX_PAUSE_RX, p)])) ∧
  (∀ (s : State) (p : Nat) (f : RxFrame), p < 32 → s.portState p = 4 → f.fcsOk = true → isMacControl f.bytes 1 = true → s.on
  F.MAC_CTL_PFC_EN p = true ∨ s.on F.MAC_CTL_FC_IGN p = true → Settles (.pauseRx p f) s (fun u => u.rd
  F.MAC_CNT_PAUSE_IGN_PAUSE_IGN p = satU F.MAC_CNT_PAUSE_IGN_PAUSE_IGN.w (s.rd F.MAC_CNT_PAUSE_IGN_PAUSE_IGN p + 1) ∧ OnlyRegs
  s u [(F.MAC_CNT_PAUSE_IGN_PAUSE_IGN, p)])) ∧
  (∀ (s : State) (p : Nat) (f : RxFrame), p < 32 → s.portState p = 4 → f.fcsOk = true → isMacControl f.bytes 1 = false →
  isMacControl f.bytes 0x101 = true → s.on F.MAC_CTL_PFC_EN p = true → s.on F.MAC_CTL_PFC_IGN p = false → s.eth.port.length =
  32 → (s.prt p).pfc.length = 8 → Settles (.pauseRx p f) s (fun u => (∀ i, i < 8 → (u.prt p).pfc.getD i none = (if bit (be
  f.bytes 16 2) i then s.pauseEnd p (be f.bytes (18 + 2 * i) 2) else (s.prt p).pfc.getD i none)) ∧ u.rd
  F.MAC_CNT_PAUSE_RX_PAUSE_RX p = satU F.MAC_CNT_PAUSE_RX_PAUSE_RX.w (s.rd F.MAC_CNT_PAUSE_RX_PAUSE_RX p + 1) ∧
  { s with regs := u.regs, eth := u.eth } = u ∧ RegsBut s u [(F.MAC_STAT_PAUSED, p), (F.MAC_STAT_PFC_PAUSED, p),
  (F.MAC_CNT_PAUSE_RX_PAUSE_RX, p)])) ∧
  (∀ (s : State) (p prio : Nat), p < 32 → 8 ≤ prio → s.eth.port.length = 32 → Settles (.pauseExpire p prio) s (fun u => u.prt
  p = { s.prt p with pause := none } ∧ u.on F.MAC_STAT_PAUSED p = false ∧ { s with regs := u.regs, eth := u.eth } = u ∧
  RegsBut s u [(F.MAC_STAT_PAUSED, p), (F.MAC_STAT_PFC_PAUSED, p)])) ∧
  (∀ (s : State) (p prio : Nat), p < 32 → prio < 8 → s.eth.port.length = 32 → Settles (.pauseExpire p prio) s (fun u => u.prt
  p = { s.prt p with pfc := (s.prt p).pfc.set prio none } ∧ { s with regs := u.regs, eth := u.eth } = u ∧ RegsBut s u
  [(F.MAC_STAT_PAUSED, p), (F.MAC_STAT_PFC_PAUSED, p)])) ∧
  (∀ (s : State) (p : Nat), p < 32 → (s.prt p).xoff = true → s.portSends p = true → Settles (.pauseRepeat p) s (fun u => u.out
  = s.out ++ [.frame p (s.pauseFrame p (s.rd F.MAC_FC_QUANTA_TX p))] ∧ u.rd F.MAC_CNT_TX_FRAMES_TX_FRAMES p = satU
  F.MAC_CNT_TX_FRAMES_TX_FRAMES.w (s.rd F.MAC_CNT_TX_FRAMES_TX_FRAMES p + 1) ∧ { s with regs := u.regs, out := u.out } = u ∧
  RegsBut s u [(F.MAC_CNT_TX_FRAMES_TX_FRAMES, p)])) ∧
  (∀ (s : State) (p : Nat) (f : RxFrame), p < 32 → s.portState p = 4 → f.fcsOk = true → isEsmc f.bytes = true → s.rclkPort (p
  / 4) = p → be f.bytes 24 1 = 1 → Settles (.esmcRx p f) s (fun u => u.rd F.SDS_GRP_QL_QL_RX (p / 4) = qlIndex (s.on
  F.SDS_GRP_QL_OPT_II (p / 4)) (be f.bytes 27 1 % 16) (if be f.bytes 28 1 = 2 then some (be f.bytes 31 1) else none) ∧ u.on
  F.SDS_GRP_QL_RX_TIMEOUT (p / 4) = false ∧ OnlyRegsFcu s u [(F.SDS_GRP_QL_QL_RX, p / 4), (F.SDS_GRP_QL_RX_TIMEOUT, p / 4),
  (F.SDS_GRP_CNT_QL_CHG, p / 4)])) ∧
  (∀ (s : State) (g : Nat), g < 8 → Settles (.esmcTimeout g) s (fun u => u.rd F.SDS_GRP_QL_QL_RX g = 1 ∧ u.on
  F.SDS_GRP_QL_RX_TIMEOUT g = true ∧ u.staged 103 (g + 256) ∧ OnlyRegsFcu s u [(F.SDS_GRP_QL_QL_RX, g),
  (F.SDS_GRP_QL_RX_TIMEOUT, g), (F.SDS_GRP_CNT_QL_CHG, g)])) ∧
  (∀ (s : State) (g : Nat) (event : Bool) (c e : Nat), g < 8 → s.rd F.SDS_GRP_QL_TX_MODE g ≠ 0 → qlCode (s.on
  F.SDS_GRP_QL_OPT_II g) (s.qlTx g) = some (c, e) → Settles (.esmcTx g event) s (fun u => u.rd F.SDS_GRP_QL_QL_TX g = s.qlTx g
  % 2 ^ F.SDS_GRP_QL_QL_TX.w ∧ u.out = s.out ++ (idxs 4 (fun i => s.portSends (4 * g + i))).map (fun i => Out.frame (4 * g +
  i) (s.esmcPdu (4 * g + i) c e event)) ∧ { s with regs := u.regs, out := u.out } = u))

/-- A ring enabled starts empty; its read pointer returns space. An entry that passes the checks is armed: VALID and its
domain stand in its CTL word, and only that word of memory changes. Cancelled, it ends with its result and without VALID.
Committed in time, its frame and its stamp are fixed; too late, it is dropped with FS 114. At its start the frame leaves on
the port, or FS 115 drops it. Its end counts it, writes the result and clears VALID, and when it is marked a Postmark with its
stamp enters the ring. A disabled queue cancels what is not committed and stops. -/
def Obligations.PostmarksAndTimedLaunches : Prop :=
  (∀ (s : State) (req g w : Nat), Admitted s req → g < 8 → s.on F.PM_CTL_EN g = false → Settles (.pmRingEnable req g w) s (fun
  u => u.on F.PM_CTL_EN g = true ∧ u.rd F.PM_RING_WR_PTR g = 0 ∧ u.rd F.PM_RING_RD_PTR g = 0 ∧ u.rd F.PM_LOST_LOST g = 0 ∧
  u.on F.PM_STAT_FULL g = false ∧ u.condHolds 112 g = false ∧ u.mem = s.mem ∧ u.ridge = s.ridge)) ∧
  (∀ (s : State) (req g w : Nat), Admitted s req → g < 8 → Settles (.pmRingRdWrite req g w) s (fun u => u.rd F.PM_RING_RD_PTR
  g = bits w F.PM_RING_RD_PTR.lo F.PM_RING_RD_PTR.w ∧ (u.pmFull g = false → u.on F.PM_STAT_FULL g = false ∧ u.condHolds 112 g
  = false) ∧ OnlyRegsFcu s u [(F.PM_RING_RD_PTR, g), (F.PM_STAT_FULL, g)])) ∧
  (∀ (s : State) (req g k w : Nat), Admitted s req → g < 8 → k < 2048 → s.isCommitted g k = false → (s.setLqCtl g k (bits w 29
  2 * 2 ^ 29)).lqAccepts g k = true → Settles (.launchArm req g k w) s (fun u => u.isArmed g k = true ∧ u.lqCtl g k = bits w
  29 2 * 2 ^ 29 + 2 ^ 31 + s.classDom Cls.launch * 2 ^ 28 ∧ (∀ a, a < lqAddr g k + 28 ∨ lqAddr g k + 32 ≤ a → memGet u.mem a =
  memGet s.mem a) ∧ u.ridge = s.ridge)) ∧
  (∀ (s : State) (req g k w : Nat), Admitted s req → g < 8 → k < 2048 → s.isArmed g k = true → s.isCommitted g k = false →
  Settles (.launchCancel req g k w) s (fun u => u.isArmed g k = false ∧ bits (u.lqCtl g k) 24 3 = 5 ∧ bit (u.lqCtl g k) 31 =
  false ∧ u.lqw g k 24 = 0 ∧ (∀ a, a < lqAddr g k + 24 ∨ lqAddr g k + 32 ≤ a → memGet u.mem a = memGet s.mem a) ∧ u.ridge =
  s.ridge)) ∧
  (∀ (s : State) (req g k w : Nat), Admitted s req → g < 8 → k < 2048 → s.isArmed g k = false → s.isCommitted g k = false →
  Settles (.launchCancel req g k w) s (fun u => u.lqCtl g k = setBits (s.lqCtl g k) 29 2 (bits w 29 2) ∧ (∀ a, a < lqAddr g k
  + 28 ∨ lqAddr g k + 32 ≤ a → memGet u.mem a = memGet s.mem a) ∧ { s with mem := u.mem } = u)) ∧
  (∀ (s : State) (g k : Nat) (delta early : Int) (place : TxPlace), s.isArmed g k = true → s.isCommitted g k = false →
  s.lqOnTime (s.lqPort g k) (s.lqDom g k) (s.lqTarget g k + delta) = true → Settles (.launchCommit g k delta early place) s
  (fun u => u.eth.commits = s.eth.commits ++ [⟨g, k, s.oneStep (bits (s.lqw g k 20) 16 2) (bits (s.lqw g k 20) 0 16) (bits
  (s.lqw g k 20) 18 2) (bits (s.lqw g k 12) 16 16) (s.lqDom g k) (ofS 64 (s.lqTarget g k + delta)) (s.lqFrame g k), s.lqTarget
  g k + delta, place, false, false, false⟩] ∧ u.lqCtl g k = setBit (s.lqCtl g k) 27 true ∧ (∀ a, a < lqAddr g k + 28 ∨ lqAddr
  g k + 32 ≤ a → memGet u.mem a = memGet s.mem a) ∧ { s with mem := u.mem, eth := u.eth } = u)) ∧
  (∀ (s : State) (g k : Nat) (delta early : Int) (place : TxPlace), s.isArmed g k = true → s.isCommitted g k = false →
  s.lqOnTime (s.lqPort g k) (s.lqDom g k) (s.lqTarget g k + delta) = false → bit (s.lqCtl g k) 30 = false → Settles
  (.launchCommit g k delta early place) s (fun u => u.isArmed g k = false ∧ u.rd F.LQ_DROP_COUNT g = satU F.LQ_DROP_COUNT.w
  (s.rd F.LQ_DROP_COUNT g + 1) ∧ u.staged 114 ∧ bits (u.lqCtl g k) 24 3 = 3 ∧ u.ridge = s.ridge)) ∧
  (∀ (s : State) (g k : Nat) (x : Launch), s.lqCommit g k = some x → x.started = false → s.portSends (s.lqPort g k) = true →
  Settles (.launchSend g k) s (fun u => u.out = s.out ++ [.frame (s.lqPort g k) x.bytes] ∧ u.lqCommit g k = some
  { x with started := true } ∧ { s with regs := u.regs, eth := u.eth, out := u.out } = u ∧ RegsBut s u
  [(F.MAC_CNT_TX_FRAMES_TX_FRAMES, s.lqPort g k)])) ∧
  (∀ (s : State) (g k : Nat) (x : Launch), s.lqCommit g k = some x → x.started = false → s.portSends (s.lqPort g k) = false →
  Settles (.launchSend g k) s (fun u => u.out = s.out ∧ u.lqCommit g k = none ∧ u.rd F.LQ_DROP_COUNT g = satU
  F.LQ_DROP_COUNT.w (s.rd F.LQ_DROP_COUNT g + 1) ∧ u.staged 115 ∧ bits (u.lqCtl g k) 24 3 = 3)) ∧
  (∀ (s : State) (g k : Nat) (x : Launch), g < 8 → k < 2048 → s.lqCommit g k = some x → x.started = true → x.late = false →
  s.lqMarked g k = false → Settles (.launchEnd g k) s (fun u => u.lqCommit g k = none ∧ u.isArmed g k = false ∧ u.rd
  F.LQ_SENT_COUNT g = satU F.LQ_SENT_COUNT.w (s.rd F.LQ_SENT_COUNT g + 1) ∧ bits (u.lqCtl g k) 24 3 = 1 ∧ bit (u.lqCtl g k) 31
  = false ∧ (∀ a, a < lqAddr g k + 24 ∨ lqAddr g k + 32 ≤ a → memGet u.mem a = memGet s.mem a) ∧
  { s with regs := u.regs, mem := u.mem, eth := u.eth } = u)) ∧
  (∀ (s : State) (g k : Nat) (x : Launch), g < 8 → k < 2048 → s.lqCommit g k = some x → x.started = true → x.late = true →
  s.lqMarked g k = true → s.on F.PM_CTL_EN g = true → s.pmFull g = false → Settles (.launchEnd g k) s (fun u => u.lqCommit g k
  = none ∧ u.rd F.LQ_LATE_COUNT g = satU F.LQ_LATE_COUNT.w (s.rd F.LQ_LATE_COUNT g + 1) ∧ u.staged 113 (g + k * 256) ∧ bits
  (u.lqCtl g k) 24 3 = 2 ∧ u.rd F.PM_RING_WR_PTR g = ptrNext 12 12 (s.rd F.PM_RING_WR_PTR g) ∧ u.mrd (0xC00000 + 0x20000 * g +
  32 * ptrIdx 12 (s.rd F.PM_RING_WR_PTR g)) 8 = ofS 64 x.stamp)) ∧
  (∀ (s : State) (req g w : Nat), Admitted s req → g < 8 → s.on F.LQ_CTL_EN g = true → s.rd F.LQ_STAT_STATE g = 1 → Settles
  (.lqDisable req g w) s (fun u => u.on F.LQ_CTL_EN g = false ∧ u.rd F.LQ_STAT_STATE g = 2 ∧ u.eth.commits = s.eth.commits ∧
  (∀ k, u.isArmed g k = true → u.isCommitted g k = true) ∧ u.ridge = s.ridge)) ∧
  (∀ (s : State) (g : Nat), g < 8 → s.rd F.LQ_STAT_STATE g = 2 → s.eth.commits.any (fun x => x.group == g) = false → s.on
  F.LQ_STAT_PENDING_ENABLE g = false → Settles (.lqStopDone g) s (fun u => u.rd F.LQ_STAT_STATE g = 0 ∧ OnlyRegs s u
  [(F.LQ_STAT_STATE, g)]))

/-- Writing EN starts the engine with its counters at 0, an instance whose settings pass the check, or a client whose session
is one; settings that fail leave EN = 0 and stage FS 127 with the place of the failure. Writing EN = 0 stops the unit, which
then waits until what it has admitted is answered; the end of its stop is the end of the waiting. -/
def Obligations.PacketTimingEngineStartsAndStops : Prop :=
  (∀ (s : State) (req w : Nat), Admitted s req → s.on F.PTE_CTL_EN = false → s.ptpStopping 0 = false → bit w 0 = true →
  Settles (.pteEnable req w) s (fun u => u.on F.PTE_CTL_EN = true ∧ u.on F.PTE_STAT_RUNNING = true ∧ (∀ p, p < 32 → u.rd
  F.PTE_CNT_TX_COUNT p = 0 ∧ u.rd F.PTE_CNT_RX_COUNT p = 0 ∧ u.rd F.PTE_CNT_REFUSED_COUNT p = 0 ∧ u.rd F.PTE_CNT_AUTH_COUNT p
  = 0) ∧ u.mem = s.mem ∧ u.ridge = s.ridge)) ∧
  (∀ (s : State) (req w : Nat), Admitted s req → s.on F.PTE_CTL_EN = true → s.ptpStopping 0 = false → s.ptp.stopping.length =
  7 → bit w 0 = false → Settles (.pteEnable req w) s (fun u => u.on F.PTE_CTL_EN = false ∧ u.on F.PTE_STAT_RUNNING = false ∧
  u.ptpStopping 0 = true ∧ u.ptp.fups = [] ∧ u.mem = s.mem ∧ u.ridge = s.ridge)) ∧
  (∀ (s : State) (req k w : Nat), Admitted s req → k < 2 → s.on F.PTE_I_CTL_EN k = false → s.ptpStopping (1 + k) = false →
  ((s.stagedWrite noLock inRange [F.PTE_I_CTL_MINOR_SDO, F.PTE_I_CTL_MAJOR_SDO, F.PTE_I_CTL_AUTH_REQ, F.PTE_I_CTL_ANN_STOP,
  F.PTE_I_CTL_ACC_DERIVE, F.PTE_I_CTL_PROFILE, F.PTE_I_CTL_EN] k (setBit w 0 true)).1).instCheck k = none → Settles
  (.instanceEnable req k w) s (fun u => u.on F.PTE_I_CTL_EN k = true ∧ u.on F.PTE_I_STAT_RUNNING k = true ∧ u.mem = s.mem ∧
  u.ridge = s.ridge)) ∧
  (∀ (s : State) (req k w n : Nat), Admitted s req → k < 2 → s.on F.PTE_I_CTL_EN k = false → s.ptpStopping (1 + k) = false →
  ((s.stagedWrite noLock inRange [F.PTE_I_CTL_MINOR_SDO, F.PTE_I_CTL_MAJOR_SDO, F.PTE_I_CTL_AUTH_REQ, F.PTE_I_CTL_ANN_STOP,
  F.PTE_I_CTL_ACC_DERIVE, F.PTE_I_CTL_PROFILE, F.PTE_I_CTL_EN] k (setBit w 0 true)).1).instCheck k = some n → Settles
  (.instanceEnable req k w) s (fun u => u.on F.PTE_I_CTL_EN k = false ∧ u.staged 127 (k + n * 256) ∧ u.ptp = s.ptp ∧ u.mem =
  s.mem ∧ u.ridge = s.ridge)) ∧
  (∀ (s : State) (req k w : Nat), Admitted s req → k < 2 → s.on F.PTE_I_CTL_EN k = true → s.ptpStopping (1 + k) = false →
  s.ptp.stopping.length = 7 → Settles (.instanceDisable req k w) s (fun u => u.on F.PTE_I_CTL_EN k = false ∧ u.on
  F.PTE_I_STAT_RUNNING k = false ∧ u.ptpStopping (1 + k) = true ∧ u.ptp.fups = s.ptp.fups.filter (fun f => f.inst != k) ∧
  u.mem = s.mem ∧ u.ridge = s.ridge)) ∧
  (∀ (s : State) (b : Nat), b < 7 → s.ptpStopping b = true → s.frank.answers = [] → s.ptp.pend.getD b false = false → Settles
  (.pteStopDone b) s (fun u => u.ptpStopping b = false ∧ (3 ≤ b → u.cliState (b - 3) = 0) ∧
  { s with regs := u.regs, ptp := u.ptp } = u)) ∧
  (∀ (s : State) (req k w : Nat), Admitted s req → k < 4 → s.on F.PTE_CLI_CTL_EN k = false → s.ptpStopping (3 + k) = false →
  bit w 0 = true → bit w 2 = false → ((s.fieldWrite noLock inRange [F.PTE_CLI_CTL_SESS, F.PTE_CLI_CTL_DOMAIN_NUM,
  F.PTE_CLI_CTL_AUTH_REQ, F.PTE_CLI_CTL_NEG, F.PTE_CLI_CTL_PROTO, F.PTE_CLI_CTL_EN] k w).1).cliCheck k = true → Settles
  (.clientEnable req k w) s (fun u => u.on F.PTE_CLI_CTL_EN k = true ∧ u.cliState k = 1 ∧ u.mem = s.mem ∧ u.ridge = s.ridge ∧
  u.out = s.out)) ∧
  (∀ (s : State) (req k w : Nat), Admitted s req → k < 4 → s.on F.PTE_CLI_CTL_EN k = false → s.ptpStopping (3 + k) = false →
  bit w 0 = true → ((s.fieldWrite noLock inRange [F.PTE_CLI_CTL_SESS, F.PTE_CLI_CTL_DOMAIN_NUM, F.PTE_CLI_CTL_AUTH_REQ,
  F.PTE_CLI_CTL_NEG, F.PTE_CLI_CTL_PROTO, F.PTE_CLI_CTL_EN] k w).1).cliCheck k = false → Settles (.clientEnable req k w) s
  (fun u => u.on F.PTE_CLI_CTL_EN k = false ∧ u.staged 127 (0x10 + k) ∧ u.cliState k = s.cliState k ∧ u.mem = s.mem ∧ u.ridge
  = s.ridge ∧ u.out = s.out)) ∧
  (∀ (s : State) (req k w : Nat), Admitted s req → k < 4 → s.on F.PTE_CLI_CTL_EN k = true → s.ptpStopping (3 + k) = false →
  s.ptp.stopping.length = 7 → s.on F.PTE_CLI_CTL_NEG k = false → bit w 0 = false → Settles (.clientEnable req k w) s (fun u =>
  u.on F.PTE_CLI_CTL_EN k = false ∧ u.cliState k = 4 ∧ u.ptpStopping (3 + k) = true ∧ u.mem = s.mem ∧ u.ridge = s.ridge ∧
  u.out = s.out))

/-- A due Announce or Sync of a MASTER port leaves with its frame, advances its sequence number and, of a two-step Sync,
leaves a Follow_Up behind, which is sent and forgotten. A Delay_Req or Pdelay_Req that is allowed, unauthenticated and in time
is counted and admitted with its receive stamp. A Pdelay_Req sent is outstanding; its answer enters the delays of the port. An
Announce of another clock counts as foreign and stages FS 124; when foreign masters fall silent a PASSIVE port is MASTER
again. Nothing else of the machine changes. -/
def Obligations.PtpMessagesAreSentAndAnswered : Prop :=
  (∀ (s : State) (k p : Nat) (place : TxPlace), k < 2 → p < 32 → s.msgAllowed k p 0 none = true → s.withheld (s.ptpDom k) =
  false → s.saSends (s.msgSa p none) = false → s.ptp.seqAnn.length = 64 → Settles (.ptpMsgDue k p 0 8192 place false) s (fun u
  => u.out = s.out ++ [.frame p (s.msgFrame p none false (putLength (s.announceMsg k p none (s.ptpDom k) (s.epochOf (s.ptpDom
  k) (s.txStamp p (s.ptpDom k) place)))))] ∧ u.ptp.seqAnn.getD (32 * k + p) 0 = (s.ptp.seqAnn.getD (32 * k + p) 0 + 1) % 2 ^
  16 ∧ { s with regs := u.regs, ptp := { s.ptp with seqAnn := u.ptp.seqAnn }, out := u.out } = u ∧ RegsBut s u
  [(F.MAC_CNT_TX_FRAMES_TX_FRAMES, p), (F.PTE_CNT_TX_COUNT, p), (F.PTE_I_STAT_ACCURACY, k)])) ∧
  (∀ (s : State) (k p : Nat) (place : TxPlace), k < 2 → p < 32 → s.msgAllowed k p 1 none = true → s.withheld (s.ptpDom k) =
  false → s.saSends (s.msgSa p none) = false → s.oneStepOn k p = false → s.ptp.seqSync.length = 64 → Settles (.ptpMsgDue k p 1
  8192 place false) s (fun u => (∃ b, u.out = s.out ++ [.frame p b]) ∧ (∃ x, u.ptp.fups = s.ptp.fups ++ [x] ∧ x.inst = k ∧
  x.port = p ∧ x.seq = s.ptp.seqSync.getD (32 * k + p) 0 ∧ x.stampA = s.txStamp p 0 place ∧ x.stampB = s.txStamp p 1 place) ∧
  u.ptp.seqSync.getD (32 * k + p) 0 = (s.ptp.seqSync.getD (32 * k + p) 0 + 1) % 2 ^ 16 ∧
  { s with regs := u.regs, ptp := u.ptp, out := u.out } = u ∧ RegsBut s u [(F.MAC_CNT_TX_FRAMES_TX_FRAMES, p),
  (F.PTE_CNT_TX_COUNT, p)])) ∧
  (∀ (s : State) (p : Nat) (x : FollowUp), s.ptp.fups.find? (fun y => y.port == p) = some x → s.serves = true → s.portSends p
  = true → s.ptpState x.inst p = 1 → s.withheld (s.ptpDom x.inst) = false → s.saSends (s.msgSa p x.sess) = false → Settles
  (.followUpSend p) s (fun u => u.out = s.out ++ [.frame p (s.msgFrame p x.sess false (putLength (s.fupMsg x)))] ∧ u.ptp.fups
  = s.ptp.fups.erase x ∧ { s with regs := u.regs, ptp := { s.ptp with fups := u.ptp.fups }, out := u.out } = u ∧ RegsBut s u
  [(F.MAC_CNT_TX_FRAMES_TX_FRAMES, p), (F.PTE_CNT_TX_COUNT, p)])) ∧
  (∀ (s : State) (p : Nat) (f : RxFrame) (pred tr k : Nat) (m : List Nat), ptpMsg f.bytes = some (tr, m) → s.rxGood p f = true
  → msgType m = 1 → s.instOf p tr m = some k → isP2p (s.profile k) = false → (tagsOf f.bytes).length ≤ 2 → s.ptpState k p = 1
  → s.serves = true → isUnicast f.bytes = false → s.ptpRole k p = 1 → s.on F.PTE_I_CTL_AUTH_REQ k = false → s.verify m = none
  → s.withheld (s.ptpDom k) = false → s.admits pred = true → Settles (.delayReqRx p f pred) s (fun u => (∃ a, u.frank.answers
  = s.frank.answers ++ [a] ∧ a.port = p ∧ a.kind = 3 ∧ a.inst = k ∧ a.stamp = s.rxStamp p (s.ptpDom k) f ∧ a.req = f ∧ a.sess
  = none) ∧ { s with regs := u.regs, frank := { s.frank with answers := u.frank.answers } } = u ∧ RegsBut s u
  [(F.PTE_CNT_RX_COUNT, p)])) ∧
  (∀ (s : State) (p : Nat) (f : RxFrame) (pred tr k : Nat) (m : List Nat), ptpMsg f.bytes = some (tr, m) → s.rxGood p f = true
  → msgType m = 2 → s.instOf p tr m = some k → isP2p (s.profile k) = true → (tagsOf f.bytes).length ≤ 2 → s.ptpState k p = 1 →
  s.serves = true → s.on F.PTE_I_CTL_AUTH_REQ k = false → s.verify m = none → s.admits pred = true → Settles (.pdelayReqRx p f
  pred) s (fun u => (∃ a, u.frank.answers = s.frank.answers ++ [a] ∧ a.port = p ∧ a.kind = 4 ∧ a.inst = k ∧ a.stamp =
  s.rxStamp p (s.ptpDom k) f ∧ a.req = f) ∧ { s with regs := u.regs, frank := { s.frank with answers := u.frank.answers } } =
  u ∧ RegsBut s u [(F.PTE_CNT_RX_COUNT, p)])) ∧
  (∀ (s : State) (p k : Nat) (place : TxPlace), s.p2pInst p = some k → p < 32 → s.serves = true → s.portSends p = true →
  (s.pdl p).out = none → s.saSends (s.msgSa p none) = false → s.ptp.pdelay.length = 32 → Settles (.pdelayReqDue p place) s
  (fun u => (∃ b, u.out = s.out ++ [.frame p b]) ∧ u.pdl p =
  { s.pdl p with seq := ((s.pdl p).seq + 1) % 2 ^ 16, out := some ((s.pdl p).seq, k, s.ptpDom k, s.txStamp p (s.ptpDom k) place) }
  ∧ { s with regs := u.regs, ptp := { s.ptp with pdelay := u.ptp.pdelay }, out := u.out } = u ∧ RegsBut s u
  [(F.MAC_CNT_TX_FRAMES_TX_FRAMES, p), (F.PTE_CNT_TX_COUNT, p)])) ∧
  (∀ (s : State) (p : Nat) (f : RxFrame) (tr k d t1 : Nat) (m : List Nat), ptpMsg f.bytes = some (tr, m) → s.rxGood p f = true
  → msgType m = 3 → (s.pdl p).out = some (msgSeq m, k, d, t1) → be m 44 10 = s.clkId * 2 ^ 16 + (p + 1) → s.serves = true →
  s.on F.PTE_I_CTL_AUTH_REQ k = false → s.verify m = none → msgTwoStep m = false → s.ptp.pdelay.length = 32 → p < 32 → Settles
  (.pdelayRespRx p f) s (fun u => (u.pdl p).delays = ((((ridgeDist (s.rxStamp p d f) t1 - msgCorr m : Int) : Rat) / 2) ::
  (s.pdl p).delays).take 16 ∧ { s with regs := u.regs, ptp := { s.ptp with pdelay := u.ptp.pdelay } } = u ∧ RegsBut s u
  [(F.PTE_CNT_RX_COUNT, p), (F.PTE_PORT_PDLY_PDLY, p), (F.PTE_PORT_STAT_AS_CAPABLE, p)])) ∧
  (∀ (s : State) (p : Nat) (f : RxFrame) (tr k : Nat) (m : List Nat), ptpMsg f.bytes = some (tr, m) → s.rxGood p f = true →
  msgType m = 11 → s.cliOf p tr f m = none → s.instOf p tr m = some k → msgPort m / 2 ^ 16 ≠ s.clkId → s.on
  F.PTE_I_CTL_AUTH_REQ k = false → s.verify m = none → s.on F.PTE_PORT_CTL_FOREIGN_ACT p = false → Settles (.announceRx p f) s
  (fun u => u.rd F.PTE_PORT_STAT_FOREIGN p = satU F.PTE_PORT_STAT_FOREIGN.w (s.rd F.PTE_PORT_STAT_FOREIGN p + 1) ∧ u.staged
  124 (p + k * 256) ∧ OnlyRegsFcu s u [(F.PTE_PORT_STAT_FOREIGN, p)])) ∧
  (∀ (s : State) (k p : Nat), k < 2 → p < 32 → s.ptpState k p = 2 → Settles (.foreignTimeout k p) s (fun u => u.ptpState k p =
  1 ∧ { s with regs := u.regs, ptp := { s.ptp with foreign := s.ptp.foreign.set (32 * k + p) none } } = u ∧ RegsBut s u [(if k
  = 0 then F.PTE_PORT_STAT_STATE0 else F.PTE_PORT_STAT_STATE1, p)]))

/-- A negotiation request of a running instance waits for its answer. A grant sent waits to be applied and an item refused
stages FS 120. The second's tick counts every finite grant down by one. A cancellation is acknowledged. SESS_ADD with a record
in range and a free number, SESS_DEL and SESS_SA of a valid session, and SESS_FLUSH wait for the beat edge, where all that
wait are applied; each is refused without the token, and SESS_ADD, SESS_DEL and SESS_SA also for a record or session that does
not allow it. -/
def Obligations.SessionsAreGrantedAddedAndChanged : Prop :=
  (∀ (s : State) (p : Nat) (f : RxFrame) (tr k : Nat) (m : List Nat), ptpMsg f.bytes = some (tr, m) → s.rxGood p f = true →
  msgType m = 12 → s.sigInst tr m = some k → s.serves = true → sigTlvs m 4 ≠ [] → s.on F.PTE_I_CTL_AUTH_REQ k = false →
  s.verify m = none → Settles (.unicastRequestRx p f) s (fun u => u =
  { s with ptp := { s.ptp with reqs := s.ptp.reqs ++ [⟨f, p, k, tr, (sigTlvs m 4).map (fun o => (be m o 1 / 16, toS 8 (be m (o + 1) 1), be m (o + 2) 4))⟩] } })) ∧
  (∀ (s : State) (x : Negotiation) (l : List Negotiation) (q : Nat × Int × Nat), s.ptp.reqs = x :: l → s.serves = true →
  x.items = [q] → { s with ptp := { s.ptp with reqs := l } }.grantable x ({ s with ptp := { s.ptp with reqs := l } }.sessFind
  x.port x.inst x.tr (srcAddr x.frame.bytes x.tr)) q = none → Settles .grantTx s (fun u => u.ptp.reqs = l ∧ u.ptp.grants =
  s.ptp.grants ∧ u.staged 120 x.port ∧ u.ridge = s.ridge)) ∧
  (∀ (s : State) (x : Negotiation) (l : List Negotiation) (q : Nat × Int × Nat) (t : Nat), s.ptp.reqs = x :: l → s.serves =
  true → x.items = [q] → { s with ptp := { s.ptp with reqs := l } }.grantable x
  ({ s with ptp := { s.ptp with reqs := l } }.sessFind x.port x.inst x.tr (srcAddr x.frame.bytes x.tr)) q = some t → Settles
  .grantTx s (fun u => u.ptp.reqs = l ∧ u.ptp.grants = s.ptp.grants ++ [{ x with items := [(t, q.2.1, s.grantDur q.2.2)] }] ∧
  u.ridge = s.ridge)) ∧
  (∀ (s : State) (n t : Nat), s.ptp.grants = [] → n < 8192 → t < 3 → s.sessValid n = true → s.grantOn n t = true → 1 <
  s.grantLeft n t → s.grantLeft n t ≠ 0xFFFF → Settles .grantTick s (fun u => u.grantLeft n t = s.grantLeft n t - 1 ∧
  u.sessValid n = true ∧ u.grantOn n t = true ∧ u.ptp.dreqs = [] ∧ u.ridge = s.ridge)) ∧
  (∀ (s : State) (p : Nat) (f : RxFrame) (tr k : Nat) (m : List Nat), ptpMsg f.bytes = some (tr, m) → s.rxGood p f = true →
  s.portSends p = true → msgType m = 12 → s.sigInst tr m = some k → s.serves = true → sigTlvs m 6 ≠ [] → s.on
  F.PTE_I_CTL_AUTH_REQ k = false → s.verify m = none → s.sessFind p k tr (srcAddr f.bytes tr) = none → Settles (.cancelRx p f)
  s (fun u => (∃ b, u.out = s.out ++ [.frame p b]) ∧ u.mem = s.mem ∧ u.ptp.reqs = s.ptp.reqs ∧ u.rd F.PTE_CNT_TX_COUNT p =
  satU F.PTE_CNT_TX_COUNT.w (s.rd F.PTE_CNT_TX_COUNT p + 1) ∧ u.ridge = s.ridge)) ∧
  (∀ (s : State) (c : CmdRef) (w0 : Nat) (buf : List Nat), s.notHolder = false → recordOk (buf.map (fun b => b % 256)) = true
  → bit w0 13 = false → s.sessTaken (bits w0 0 13) = false → Settles (.sessAdd c w0 buf) s (fun u => u =
  { s with ptp := { s.ptp with changes := s.ptp.changes ++ [.add c (bits w0 0 13) (staticRecord (buf.map (fun b => b % 256)))] } })) ∧
  (∀ (s : State) (c : CmdRef) (w0 : Nat) (buf : List Nat) (n : Nat), s.notHolder = false → recordOk (buf.map (fun b => b %
  256)) = true → bit w0 13 = true → s.sessFree = some n → Settles (.sessAdd c w0 buf) s (fun u => u =
  { s with ptp := { s.ptp with changes := s.ptp.changes ++ [.add c n (staticRecord (buf.map (fun b => b % 256)))] } })) ∧
  (∀ (s : State) (c : CmdRef) (w0 : Nat) (buf : List Nat), s.notHolder = false → recordOk (buf.map (fun b => b % 256)) = false
  ∨ (bit w0 13 = false ∧ s.sessTaken (bits w0 0 13) = true) → Refuses (.sessAdd c w0 buf) s c Code.badParam) ∧
  (∀ (s : State) (c : CmdRef) (w0 : Nat) (buf : List Nat), s.notHolder = true → Refuses (.sessAdd c w0 buf) s c
  Code.notTokenHolder) ∧
  (∀ (s : State) (c : CmdRef) (w0 : Nat), s.notHolder = false → s.sessValid (bits w0 0 13) = true → Settles (.sessDel c w0) s
  (fun u => u = { s with ptp := { s.ptp with changes := s.ptp.changes ++ [.del c (bits w0 0 13)] } })) ∧
  (∀ (s : State) (c : CmdRef) (w0 : Nat), s.notHolder = false → s.sessValid (bits w0 0 13) = false → Refuses (.sessDel c w0) s
  c Code.badParam) ∧
  (∀ (s : State) (c : CmdRef) (w0 : Nat), s.notHolder = false → s.sessValid (bits w0 0 13) = true → bits w0 16 6 = 0x3F ∨
  (s.saSends (bits w0 16 6) = true ∧ s.saUsable (s.saCtl (bits w0 16 6)) = true) → Settles (.sessSa c w0) s (fun u => u =
  { s with ptp := { s.ptp with changes := s.ptp.changes ++ [.setSa c (bits w0 0 13) (bits w0 16 6)] } })) ∧
  (∀ (s : State) (c : CmdRef) (w0 : Nat), s.notHolder = false → s.sessValid (bits w0 0 13) = true → bits w0 16 6 ≠ 0x3F →
  s.saSends (bits w0 16 6) = false → Refuses (.sessSa c w0) s c Code.keyUnavailable) ∧
  (∀ (s : State) (c : CmdRef) (w0 : Nat), s.notHolder = false → Settles (.sessFlush c w0) s (fun u => u =
  { s with ptp := { s.ptp with changes := s.ptp.changes ++ [.flush c (bits w0 0 5) (bits w0 5 1)] } })) ∧
  (∀ (s : State) (c : CmdRef) (w0 : Nat), s.notHolder = true → Refuses (.sessFlush c w0) s c Code.notTokenHolder) ∧
  (∀ (s : State) (c : CmdRef) (n k : Nat), s.ptp.grants = [] → s.ptp.changes = [.setSa c n k] → n < 8192 → s.sessValid n =
  true → Replies .sessionApply s c (fun u => u.sessWord n = setBits (s.sessWord n) 13 6 k ∧ u.ptp.changes = [] ∧ (∀ a, a <
  sessAddr n + 32 ∨ sessAddr n + 36 ≤ a → memGet u.mem a = memGet s.mem a) ∧ u.regs = s.regs)) ∧
  (∀ (s : State) (c : CmdRef) (n : Nat) (l : List Nat), s.ptp.grants = [] → s.ptp.changes = [.add c n l] → n < 8192 → l.length
  = 64 → Replies .sessionApply s c (fun u => u.mbytes (sessAddr n) 64 = l.map (fun b => b % 256) ∧ u.ptp.changes = [] ∧ (∀ a,
  a < sessAddr n ∨ sessAddr n + 64 ≤ a → memGet u.mem a = memGet s.mem a) ∧ RegsBut s u [(F.PTE_STAT_SESS_USED, 0)]))

/-- A running PTP client that measures sends its Delay_Req with the next sequence number and keeps it outstanding; an NTP
client sends its request and keeps it. A one-step Sync sets the client's last Sync; an NTP answer to an outstanding request
enters the window and makes a listening client measure. The end of a window empties it: a listening client goes on listening,
one exchange that suffices makes a measuring client VALID, and a VALID client without its server's data stages FS 125. A
silent server takes the client back to listening; half of a grant gone renews it. -/
def Obligations.PacketClientsMeasure : Prop :=
  (∀ (s : State) (k : Nat) (place : TxPlace), s.cliRuns k = true → s.cliNtp k = false → 2 ≤ s.cliState k → s.portSends
  (s.cliPort k) = true → s.saSends (s.msgSa (s.cliPort k) (some (s.cliSess k))) = false → s.ptp.client.length = 4 → Settles
  (.clientDreqDue k place) s (fun u => (∃ b, u.out = s.out ++ [.frame (s.cliPort k) b]) ∧ u.cli k =
  { s.cli k with seq := ((s.cli k).seq + 1) % 2 ^ 16, out := (s.cli k).out ++ [((s.cli k).seq, s.epochOf 0 (s.txStamp (s.cliPort k) 0 place))] }
  ∧ { s with regs := u.regs, ptp := { s.ptp with client := u.ptp.client }, out := u.out } = u ∧ RegsBut s u
  [(F.MAC_CNT_TX_FRAMES_TX_FRAMES, s.cliPort k), (F.PTE_CNT_TX_COUNT, s.cliPort k)])) ∧
  (∀ (s : State) (k : Nat) (place : TxPlace), s.cliRuns k = true → s.cliNtp k = true → s.portSends (s.cliPort k) = true →
  s.ptp.client.length = 4 → Settles (.clientDreqDue k place) s (fun u => (∃ b, u.out = s.out ++ [.frame (s.cliPort k) b]) ∧
  u.cli k =
  { s.cli k with out := (s.cli k).out ++ [(s.ntpTime (s.epochOf 0 (s.txStamp (s.cliPort k) 0 place)), s.epochOf 0 (s.txStamp (s.cliPort k) 0 place))] }
  ∧ { s with regs := u.regs, ptp := { s.ptp with client := u.ptp.client }, out := u.out } = u ∧ RegsBut s u
  [(F.MAC_CNT_TX_FRAMES_TX_FRAMES, s.cliPort k)])) ∧
  (∀ (s : State) (p : Nat) (f : RxFrame) (tr k : Nat) (m : List Nat), ptpMsg f.bytes = some (tr, m) → s.rxGood p f = true →
  msgType m = 0 → s.cliOf p tr f m = some k → s.on F.PTE_CLI_CTL_AUTH_REQ k = false → s.verify m = none → 2 ≤ s.cliState k →
  msgTwoStep m = false → s.ptp.client.length = 4 → Settles (.clientMsgRx p f) s (fun u => (u.cli k).last = some (s.cliStamp p
  f, s.cliStamp p f - msgTime m 34 - msgCorr m) ∧ (u.cli k).sync = none ∧ (u.cli k).exch = (s.cli k).exch ∧ u.ridge = s.ridge
  ∧ u.out = s.out)) ∧
  (∀ (s : State) (p : Nat) (f : RxFrame) (v : Udp) (k : Nat) (q : Nat × Int), udpOf f.bytes = some v → s.ntpClientOf p f.bytes
  v = some k → s.rxGood p f = true → v.src = 123 → udpSumOk f.bytes v = true → (s.cli k).out.find? (fun q => q.1 == be
  (udpData f.bytes v) 24 8) = some q → 48 ≤ (udpData f.bytes v).length → bits (be (udpData f.bytes v) 0 1) 0 3 = 4 ∧ bits (be
  (udpData f.bytes v) 0 1) 3 3 = 4 ∧ bits (be (udpData f.bytes v) 0 1) 6 2 ≠ 3 → 0 < be (udpData f.bytes v) 1 1 ∧ be (udpData
  f.bytes v) 1 1 ≤ s.rd F.PTE_CLI_RATE_CLASS_MAX k → s.ptp.client.length = 4 → s.cliState k = 1 → Settles
  (.ntpClientResponseRx p f) s (fun u => u.cliState k = 2 ∧ (u.cli k).out = (s.cli k).out.erase q ∧ (∃ e : Exchange, (u.cli
  k).exch = (s.cli k).exch ++ [e] ∧ e.t2 = s.cliStamp p f) ∧ u.rd F.PTE_CLI_STAT_UP_CLASS k = be (udpData f.bytes v) 1 1 ∧
  u.mem = s.mem ∧ u.ridge = s.ridge ∧ u.out = s.out)) ∧
  (∀ (s : State) (k : Nat), s.cliRuns k = true → s.cliState k = 1 → s.ptp.client.length = 4 → Settles (.clientWindowEnd k) s
  (fun u => u.cliState k = 1 ∧ (u.cli k).exch = [] ∧ (u.cli k).out = [] ∧ (u.cli k).hist = (s.cli k).hist ∧ u.mem = s.mem ∧
  u.ridge = s.ridge ∧ u.ens = s.ens)) ∧
  (∀ (s : State) (k : Nat), s.cliRuns k = true → s.cliState k = 3 → s.cliUp k = none → s.ptp.client.length = 4 → Settles
  (.clientWindowEnd k) s (fun u => u.cliState k = 2 ∧ u.staged 125 k ∧ (u.cli k).exch = [] ∧ u.mem = s.mem ∧ u.ridge = s.ridge
  ∧ u.ens = s.ens)) ∧
  (∀ (s : State) (k up : Nat) (e : Exchange), s.cliRuns k = true → s.cliState k = 2 → s.cliUp k = some up →
  s.ptp.client.length = 4 → (s.cli k).authFail = false → (s.cli k).exch = [e] → s.rd F.PTE_CLI_FILT_MIN_EXCH k ≤ 1 → Settles
  (.clientWindowEnd k) s (fun u => u.cliState k = 3 ∧ (u.cli k).exch = [] ∧ u.rd F.PTE_CLI_STAT_SELECTED k = 1 ∧ u.on
  F.PTE_CLI_STAT_AUTH_OK k = true ∧ u.mem = s.mem ∧ u.ridge = s.ridge)) ∧
  (∀ (s : State) (k : Nat), s.cliRuns k = true → s.on F.PTE_CLI_CTL_NEG k = true → s.grantOn (s.cliSess k) 0 = true → 2 *
  s.grantLeft (s.cliSess k) 0 ≤ (s.cli k).granted.getD 0 0 → s.portSends (s.cliPort k) = true → s.saSends (s.msgSa (s.cliPort
  k) (some (s.cliSess k))) = false → s.ptp.client.length = 4 → Settles (.grantRenew k) s (fun u => (∃ b, u.out = s.out ++
  [.frame (s.cliPort k) b]) ∧ u.cli k = { s.cli k with sigSeq := ((s.cli k).sigSeq + 1) % 2 ^ 16 } ∧ u.mem = s.mem ∧ u.ridge =
  s.ridge)) ∧
  (∀ (s : State) (k : Nat), s.cliRuns k = true → 2 ≤ s.cliState k → Settles (.clientAnnounceTimeout k) s (fun u => u.cliState
  k = 1 ∧ (s.cliState k = 3 → u.staged 125 k) ∧ OnlyRegsFcu s u [(F.PTE_CLI_STAT_STATE, k)]))

/-- A client request of a port that serves NTP, well formed and in time, is admitted with its receive stamp; one whose answer
would be late is refused, counted, and stages FS 131. The first admitted answer of a port leaves as its frame and is
forgotten; a late one counts and stages FS 132 and still leaves; on a port that cannot send it is dropped, counted, and stages
FS 133. -/
def Obligations.FrankingAdmitsAndAnswers : Prop :=
  (∀ (s : State) (p : Nat) (f : RxFrame) (pred : Nat) (v : Udp), s.rxGood p f = true → udpOf f.bytes = some v → v.dst = 123 →
  s.ntpOn p = true → s.ntpIpOk p f.bytes v = true → v.src ≠ 0 → udpSumOk f.bytes v = true → (udpData f.bytes v).length = 48 →
  bits (be (udpData f.bytes v) 0 1) 3 3 = 3 ∨ bits (be (udpData f.bytes v) 0 1) 3 3 = 4 → bits (be (udpData f.bytes v) 0 1) 0
  3 = 3 → s.serves = true → s.withheld (s.classDom Cls.ntp) = false → s.admits pred = true → Settles (.ntpRequestRx p f pred)
  s (fun u => u =
  { s with frank := { s.frank with answers := s.frank.answers ++ [⟨p, 0, s.classDom Cls.ntp, s.rxStamp p (s.classDom Cls.ntp) f, f, 0, none, 0, [], none, []⟩] } })) ∧
  (∀ (s : State) (p : Nat) (f : RxFrame) (pred : Nat) (v : Udp), s.rxGood p f = true → udpOf f.bytes = some v → v.dst = 123 →
  s.ntpOn p = true → s.ntpIpOk p f.bytes v = true → v.src ≠ 0 → udpSumOk f.bytes v = true → (udpData f.bytes v).length = 48 →
  bits (be (udpData f.bytes v) 0 1) 3 3 = 3 ∨ bits (be (udpData f.bytes v) 0 1) 3 3 = 4 → bits (be (udpData f.bytes v) 0 1) 0
  3 = 3 → s.serves = true → s.withheld (s.classDom Cls.ntp) = false → s.admits pred = false → Settles (.ntpRequestRx p f pred)
  s (fun u => u.staged 131 p ∧ u.rd F.FRANK_CNT_REF_COUNT p = satU F.FRANK_CNT_REF_COUNT.w (s.rd F.FRANK_CNT_REF_COUNT p + 1)
  ∧ OnlyRegsFcu s u [(F.FRANK_CNT_REF_COUNT, p)])) ∧
  (∀ (s : State) (p : Nat) (place : TxPlace) (x : Answer) (tr : Nat) (m : List Nat), s.frank.answers.find? (fun a => a.port ==
  p) = some x → s.portSends p = true → x.kind = 3 → ptpMsg x.req.bytes = some (tr, m) → s.saSends (x.sa.getD 0x3F) = false →
  Settles (.answerSend p place false) s (fun u => u.out = s.out ++ [.frame p (s.answerFrame p tr x.req.bytes (putLength
  (s.delayRespMsg x m)) (!isUnicast x.req.bytes) false)] ∧ u.frank.answers = s.frank.answers.erase x ∧
  { s with regs := u.regs, out := u.out, frank := { s.frank with answers := u.frank.answers } } = u ∧ RegsBut s u
  [(F.MAC_CNT_TX_FRAMES_TX_FRAMES, p), (F.PTE_CNT_TX_COUNT, p)])) ∧
  (∀ (s : State) (p : Nat) (place : TxPlace) (x : Answer) (v : Udp), s.frank.answers.find? (fun a => a.port == p) = some x →
  s.portSends p = true → x.kind = 0 → udpOf x.req.bytes = some v → Settles (.answerSend p place true) s (fun u => u.out =
  s.out ++ [.frame p (s.ntpFrame p x.req.bytes v (s.ntpHeader x (udpData x.req.bytes v) (s.txStamp p x.dom place) false))] ∧
  u.frank.answers = s.frank.answers.erase x ∧ u.staged 132 ∧ u.rd F.FRANK_CNT_LATE_COUNT = satU F.FRANK_CNT_LATE_COUNT.w (s.rd
  F.FRANK_CNT_LATE_COUNT + 1) ∧ u.rd F.FRANK_CNT_NTP_COUNT p = satU F.FRANK_CNT_NTP_COUNT.w (s.rd F.FRANK_CNT_NTP_COUNT p + 1)
  ∧ u.mem = s.mem ∧ u.ridge = s.ridge)) ∧
  (∀ (s : State) (p : Nat) (place : TxPlace) (late : Bool) (x : Answer), s.frank.answers = [x] → x.port = p → s.portSends p =
  false → Settles (.answerSend p place late) s (fun u => u.frank.answers = [] ∧ u.out = s.out ∧ u.staged 133 ∧ u.rd
  F.FRANK_CNT_DISC_COUNT = satU F.FRANK_CNT_DISC_COUNT.w (s.rd F.FRANK_CNT_DISC_COUNT + 1) ∧
  { s with regs := u.regs, fcu := u.fcu, frank := { s.frank with answers := [] } } = u))

/-- NTS_ROTATE with a new identifier and an available cookie slate waits for its edge, where each key moves down one place and
the new slate becomes the next key; without the token it is refused. NTS_COOKIE_SEAL writes its cookies to the buffer and
changes no register. The unit, NTP and NTS start with cleared counters and stop on EN = 0; NTS without the unit or its key
stays off with FS 137. At most four pipelines go out of service. Known-answer tests end with FS 134 for each that fails; FS
135 lasts while the generator fails; a parity error stages FS 136. -/
def Obligations.FrankingUnitsRotateTestAndFail : Prop :=
  (∀ (s : State) (c : CmdRef) (w0 w1 : Nat), s.notHolder = false → w1 % 2 ^ 32 ≠ 0 → s.keyIdUsed (w1 % 2 ^ 32) = false →
  s.slateAvail (bits w0 0 8) = true → s.slateUse (bits w0 0 8) Usage.cookie true = Code.ok → (s.quietQueue 1).length < 64 →
  s.sort.queues.length = 11 → Settles (.ntsRotate c w0 w1) s (fun u => u.frank.rots = s.frank.rots ++ [⟨c, bits w0 0 8, w1 % 2
  ^ 32⟩] ∧ u.quietQueue 1 = s.quietQueue 1 ++ [⟨4, 0, false, [c], s.ridge.ticks, false⟩] ∧ u.ridge = s.ridge ∧ u.slate =
  s.slate)) ∧
  (∀ (s : State) (c : CmdRef) (w0 w1 : Nat), s.notHolder = false → w1 % 2 ^ 32 = 0 ∨ s.keyIdUsed (w1 % 2 ^ 32) = true →
  Refuses (.ntsRotate c w0 w1) s c Code.badParam) ∧
  (∀ (s : State) (c : CmdRef) (w0 w1 : Nat), s.notHolder = true → Refuses (.ntsRotate c w0 w1) s c Code.notTokenHolder) ∧
  (∀ (s : State) (x : Rotation) (l : List Rotation) (e : SortEntry), s.frank.rots = x :: l → (s.quietQueue 1).find? (fun e =>
  e.act == 4) = some e → s.quietRun 1 = none → s.on F.TOP_STAT_SAFE = false → Replies .rotateApply s x.ref (fun u =>
  u.frank.rots = l ∧ u.rd F.FRANK_NTS_MKEY_ID_KEYID 0 = s.rd F.FRANK_NTS_MKEY_ID_KEYID 1 % 2 ^ 32 ∧ u.rd
  F.FRANK_NTS_MKEY_ID_KEYID 1 = s.rd F.FRANK_NTS_MKEY_ID_KEYID 2 % 2 ^ 32 ∧ u.rd F.FRANK_NTS_MKEY_ID_KEYID 2 = x.keyid % 2 ^
  32 ∧ u.rd F.FRANK_NTS_MKEY_CTL_SLATE 0 = s.rd F.FRANK_NTS_MKEY_CTL_SLATE 1 % 2 ^ F.FRANK_NTS_MKEY_CTL_SLATE.w ∧ u.rd
  F.FRANK_NTS_MKEY_CTL_SLATE 1 = s.rd F.FRANK_NTS_MKEY_CTL_SLATE 2 % 2 ^ F.FRANK_NTS_MKEY_CTL_SLATE.w ∧ u.on
  F.FRANK_NTS_MKEY_CTL_VALID 2 = true ∧ u.mem = s.mem ∧ u.ridge = s.ridge)) ∧
  (∀ (s : State) (c : CmdRef) (w0 w1 : Nat) (keys : List Nat) (buf : Nat), 1 ≤ bits w0 0 4 ∧ bits w0 0 4 ≤ 8 → w1 = 15 →
  keys.length = 64 → s.mkeyUsable 1 = true → s.on F.FRANK_STAT_DRBG_OK = true → c.src = .ring → s.host.outFail = none →
  Replies (.ntsCookieSeal c w0 w1 keys buf) s c (fun u => (∃ ws, u.out = s.out ++ [.dma buf ws]) ∧
  { s with free := u.free, out := u.out } = u)) ∧
  (∀ (s : State) (c : CmdRef) (w0 w1 : Nat) (keys : List Nat) (buf : Nat), bits w0 0 4 = 0 ∨ 8 < bits w0 0 4 ∨ w1 ≠ 15 ∨
  keys.length ≠ 64 → Refuses (.ntsCookieSeal c w0 w1 keys buf) s c Code.badParam) ∧
  (∀ (s : State) (req w : Nat), Admitted s req → s.on F.FRANK_CTL_EN = false → s.frankStopping 0 = false → bit w 0 = true →
  Settles (.frankEnable req w) s (fun u => u.on F.FRANK_CTL_EN = true ∧ u.on F.FRANK_STAT_RUNNING = true ∧ u.frank.katEn =
  true ∧ { s with regs := u.regs, frank := u.frank } = u ∧ RegsBut s u [(F.FRANK_CTL_EN, 0), (F.FRANK_STAT_RUNNING, 0),
  (F.FRANK_STAT_KAT_FAIL, 0), (F.FRANK_STAT_PIPE_ACT, 0), (F.FRANK_STAT_PENDING_ENABLE, 0)])) ∧
  (∀ (s : State) (req w : Nat), Admitted s req → s.on F.FRANK_CTL_EN = true → s.on F.FRANK_NTS_CTL_EN = false →
  s.frankStopping 0 = false → s.frank.stopping.length = 3 → bit w 0 = false → Settles (.frankEnable req w) s (fun u => u.on
  F.FRANK_CTL_EN = false ∧ u.on F.FRANK_STAT_RUNNING = false ∧ u.frankStopping 0 = true ∧
  { s with regs := u.regs, frank := u.frank } = u)) ∧
  (∀ (s : State) (req w : Nat), Admitted s req → s.on F.FRANK_CTL_EN = true → s.on F.FRANK_NTS_CTL_EN = true → bit w 0 = false
  → Settles (.frankEnable req w) s (fun u => u.on F.FRANK_CTL_EN = true ∧ u.staged 137 ∧ u.frank = s.frank ∧ u.mem = s.mem ∧
  u.ridge = s.ridge)) ∧
  (∀ (s : State) (req w : Nat), Admitted s req → s.on F.FRANK_NTP_CTL_EN = false → s.frankStopping 1 = false → bit w 0 = true
  → Settles (.ntpServeEnable req w) s (fun u => u.on F.FRANK_NTP_CTL_EN = true ∧ (∀ p, p < 32 → u.rd F.FRANK_CNT_NTP_COUNT p =
  0 ∧ u.rd F.FRANK_CNT_REF_COUNT p = 0) ∧ u.rd F.FRANK_CNT_LATE_COUNT = 0 ∧ u.mem = s.mem ∧ u.ridge = s.ridge ∧ u.frank =
  s.frank)) ∧
  (∀ (s : State) (req w : Nat), Admitted s req → s.on F.FRANK_NTS_CTL_EN = false → s.frankStopping 2 = false → bit w 0 = true
  → s.on F.FRANK_CTL_EN = true → s.mkeyUsable 1 = true → Settles (.ntsServeEnable req w) s (fun u => u.on F.FRANK_NTS_CTL_EN =
  true ∧ (∀ p, p < 32 → u.rd F.FRANK_CNT_NTS_COUNT p = 0) ∧ u.condHolds 130 = false ∧ u.mem = s.mem ∧ u.ridge = s.ridge ∧
  u.frank = s.frank)) ∧
  (∀ (s : State) (req w : Nat), Admitted s req → s.on F.FRANK_NTS_CTL_EN = false → s.frankStopping 2 = false → bit w 0 = true
  → s.on F.FRANK_CTL_EN = false → Settles (.ntsServeEnable req w) s (fun u => u.on F.FRANK_NTS_CTL_EN = false ∧ u.staged 137 ∧
  u.mem = s.mem ∧ u.ridge = s.ridge ∧ u.frank = s.frank)) ∧
  (∀ (s : State) (b : Nat), b < 3 → s.frankStopping b = true → s.frank.answers = [] → s.frank.pend.getD b false = false →
  Settles (.frankStopDone b) s (fun u => u.frankStopping b = false ∧ { s with regs := u.regs, frank := u.frank } = u ∧ RegsBut
  s u [(F.FRANK_STAT_PIPE_ACT, 0), (F.FRANK_STAT_PENDING_ENABLE, 0)])) ∧
  (∀ (s : State) (req w : Nat), Admitted s req → s.sort.tests = [] → (idxs 12 (bit w)).length ≤ 4 → Settles (.pipeOosWrite req
  w) s (fun u => u.rd F.FRANK_PIPE_OOS_OOS = bits w 0 12 ∧ u.frank.katReq = (s.frank.katReq || bit w 12) ∧ RegsBut s u
  [(F.FRANK_PIPE_OOS_OOS, 0)] ∧ u.mem = s.mem ∧ u.ridge = s.ridge)) ∧
  (∀ (s : State) (req w : Nat), Admitted s req → s.sort.tests = [] → 4 < (idxs 12 (bit w)).length → Settles (.pipeOosWrite req
  w) s (fun u => u.rd F.FRANK_PIPE_OOS_OOS = s.rd F.FRANK_PIPE_OOS_OOS ∧ u.frank.katReq = (s.frank.katReq || bit w 12) ∧ u.mem
  = s.mem ∧ u.ridge = s.ridge)) ∧
  (∀ (s : State) (req w : Nat), Admitted s req → Settles (.kat req w) s (fun u => u.frank.katReq = true ∧ u.frank.answers =
  s.frank.answers ∧ u.mem = s.mem ∧ u.ridge = s.ridge)) ∧
  (∀ (s : State) (fail : Nat), s.frank.katEn = true → Settles (.katDone fail) s (fun u => u.frank.katEn = false ∧
  u.frank.katReq = false ∧ (∀ k, k < 12 → (k ∈ u.frank.badPipes ↔ bit fail k = true)) ∧ (∀ k, k < 12 → bit fail k = true →
  u.staged 134 k) ∧ (bits fail 0 12 ≠ 0 → u.on F.FRANK_STAT_KAT_FAIL = true) ∧
  { s with regs := u.regs, fcu := u.fcu, frank := u.frank } = u)) ∧
  (∀ (s : State), Settles .drbgFail s (fun u => u.on F.FRANK_STAT_DRBG_OK = false ∧ u.condHolds 135 = true ∧ OnlyRegsFcu s u
  [(F.FRANK_STAT_DRBG_OK, 0)])) ∧
  (∀ (s : State), Settles .drbgRecover s (fun u => u.on F.FRANK_STAT_DRBG_OK = true ∧ u.condHolds 135 = false ∧ OnlyRegsFcu s
  u [(F.FRANK_STAT_DRBG_OK, 0)])) ∧
  (∀ (s : State) (k p : Nat), k < 12 → s.frank.answers = [] → Settles (.pipeParityError k p) s (fun u => k ∈ u.frank.badPipes
  ∧ u.staged 136 k ∧ { s with regs := u.regs, fcu := u.fcu, frank := u.frank } = u ∧ RegsBut s u [(F.FRANK_STAT_PIPE_ACT, 0),
  (F.FRANK_STAT_PENDING_ENABLE, 0)])) ∧
  (∀ (s : State) (k p : Nat) (x : Answer), k < 12 → s.frank.answers.find? (fun a => a.port == p && !a.uses.isEmpty) = some x →
  Settles (.pipeParityError k p) s (fun u => u.frank.answers = s.frank.answers.erase x ∧ u.rd F.FRANK_CNT_DISC_COUNT = satU
  F.FRANK_CNT_DISC_COUNT.w (s.rd F.FRANK_CNT_DISC_COUNT + 1) ∧ u.staged 136 k ∧ u.out = s.out))

/-- SLATE_LOAD and SLATE_DERIVE with a legal usage and length, and SLATE_INVALIDATE, wait for their beat edge; they are
refused for bad parameters, and by the locks with a security event. At the edge an invalidated slate loses VALID and its cells
are queued for zeros. Zeroing clears both banks and completes. SLATE_KCV answers the check value of an available slate and
changes nothing. A tamper input erases every slate, latches its time and stages FS 145; TAMPER_ACK clears what was latched. A
write-once lock takes its first write and keeps it. -/
def Obligations.SlatesTakeAndLoseKeys : Prop :=
  (∀ (s : State) (c : CmdRef) (w0 : Nat) (buf : List Nat), usageOk (bits w0 8 3) (bit w0 11) = true → buf.length = keyLen (bit
  w0 11) → s.keyBarred (bits w0 0 8) 1 (s.mirrored (bits w0 0 8) || (16 ≤ bits w0 0 8 && !bit w0 12)) = none → s.slatePending
  (bits w0 0 8) = false → 16 ≤ bits w0 0 8 ∨ s.on F.SLATE_STAT_ROOT_OK = true → Settles (.slateLoad c w0 buf) s (fun u =>
  u.slate.changes = s.slate.changes ++ [⟨c, bits w0 0 8, false, bits w0 8 3, bit w0 11, bit w0 12, 0, 0, s.lateForEdge⟩] ∧
  u.on F.SLATE_STAT_PENDING = true ∧ u.activeBank (bits w0 0 8) = s.activeBank (bits w0 0 8) ∧ u.mem = s.mem ∧ u.ridge =
  s.ridge)) ∧
  (∀ (s : State) (c : CmdRef) (w0 : Nat) (buf : List Nat), usageOk (bits w0 8 3) (bit w0 11) = false ∨ buf.length ≠ keyLen
  (bit w0 11) → Refuses (.slateLoad c w0 buf) s c Code.badParam) ∧
  (∀ (s : State) (c : CmdRef) (w0 : Nat) (buf : List Nat), usageOk (bits w0 8 3) (bit w0 11) = true → buf.length = keyLen (bit
  w0 11) → s.on F.SLATE_LOAD_LOCK_LOAD_LOCK = true → exec (.slateLoad c w0 buf) s = .next ((s.secEvent 0x10000).finish c
  Code.cfgLocked).close) ∧
  (∀ (s : State) (c : CmdRef) (w0 w1 : Nat) (buf : List Nat), usageOk (bits w0 17 3) (bit w0 20) = true → 1 ≤ bits w1 0 6 ∧
  bits w1 0 6 ≤ 32 ∧ bits w1 8 6 ≤ 32 ∧ buf.length = bits w1 0 6 + bits w1 8 6 → bit w0 16 = true → s.keyBarred (bits w0 0 8)
  2 (s.mirrored (bits w0 0 8) || (16 ≤ bits w0 0 8 && !bit w0 21)) = none → s.slatePending (bits w0 0 8) = false → s.on
  F.SLATE_STAT_ROOT_OK = true → Settles (.slateDerive c w0 w1 buf) s (fun u => u.slate.changes = s.slate.changes ++ [⟨c, bits
  w0 0 8, false, bits w0 17 3, bit w0 20, bit w0 21, 2, 0, s.lateForEdge⟩] ∧ u.on F.SLATE_STAT_PENDING = true ∧ u.mem = s.mem
  ∧ u.ridge = s.ridge)) ∧
  (∀ (s : State) (c : CmdRef) (w0 w1 : Nat) (buf : List Nat), usageOk (bits w0 17 3) (bit w0 20) = true → 1 ≤ bits w1 0 6 ∧
  bits w1 0 6 ≤ 32 ∧ bits w1 8 6 ≤ 32 ∧ buf.length = bits w1 0 6 + bits w1 8 6 → bit w0 16 = false → s.keyBarred (bits w0 0 8)
  2 (s.mirrored (bits w0 0 8) || (16 ≤ bits w0 0 8 && !bit w0 21) || s.mirrored (bits w0 8 8)) = none → s.slatePending (bits
  w0 0 8) = false → s.slatePending (bits w0 8 8) = false → 16 ≤ bits w0 0 8 ∨ s.on F.SLATE_STAT_ROOT_OK = true → s.slateAvail
  (bits w0 8 8) = true → bits w0 8 8 ≠ bits w0 0 8 → s.rd F.SLATE_ATTR_USAGE (bits w0 8 8) = Usage.derive → Settles
  (.slateDerive c w0 w1 buf) s (fun u => u.slate.changes = s.slate.changes ++ [⟨c, bits w0 0 8, false, bits w0 17 3, bit w0
  20, bit w0 21, 1, bits w0 8 8, s.lateForEdge⟩] ∧ u.on F.SLATE_STAT_PENDING = true ∧ u.mem = s.mem ∧ u.ridge = s.ridge)) ∧
  (∀ (s : State) (c : CmdRef) (w0 w1 : Nat) (buf : List Nat), usageOk (bits w0 17 3) (bit w0 20) = false ∨ bits w1 0 6 = 0 ∨
  32 < bits w1 0 6 ∨ 32 < bits w1 8 6 ∨ buf.length ≠ bits w1 0 6 + bits w1 8 6 → Refuses (.slateDerive c w0 w1 buf) s c
  Code.badParam) ∧
  (∀ (s : State) (c : CmdRef) (w0 : Nat), s.keyBarred (bits w0 0 8) 3 (s.mirrored (bits w0 0 8)) = none → s.slatePending (bits
  w0 0 8) = false → Settles (.slateInvalidate c w0) s (fun u => u.slate.changes = s.slate.changes ++ [⟨c, bits w0 0 8, true,
  0, false, false, 0, 0, s.lateForEdge⟩] ∧ u.on F.SLATE_STAT_PENDING = true ∧ u.slate.cells = s.slate.cells ∧ u.mem = s.mem ∧
  u.ridge = s.ridge)) ∧
  (∀ (s : State) (c : CmdRef) (w0 : Nat), s.keyBarred (bits w0 0 8) 3 (s.mirrored (bits w0 0 8)) = none → s.slatePending (bits
  w0 0 8) = true → Refuses (.slateInvalidate c w0) s c Code.busyRetry) ∧
  (∀ (s : State) (c : CmdRef) (w0 : Nat), s.slateAvail (bits w0 0 8) = true → exec (.slateKcv c w0) s = .next (s.finish c
  Code.ok (natOf ((bytesOf 16 (aesCmac (s.slateKey (bits w0 0 8)) (bytesOf 4 1 ++ [0x4B, 0x43, 0x56, 0x00, 0x00] ++ bytesOf 4
  (Config.kcvBits (s.on F.SLATE_ATTR_KLEN (bits w0 0 8)))))).take 3))).close) ∧
  (∀ (s : State) (c : CmdRef) (w0 : Nat), s.slateAvail (bits w0 0 8) = false → Refuses (.slateKcv c w0) s c
  Code.keyUnavailable) ∧
  (∀ (s : State) (x : SlateChange), s.slate.changes = [x] → x.late = false → x.inval = true → x.slate < 256 → Settles
  (.slateApply []) s (fun u => u.on F.SLATE_ATTR_VALID x.slate = false ∧ u.slate.changes = [] ∧ ⟨x.slate, 2, some x.ref⟩ ∈
  u.slate.zero ∧ u.on F.SLATE_STAT_PENDING = false ∧ u.mem = s.mem ∧ u.ridge = s.ridge)) ∧
  (∀ (s : State) (x : SlateChange), s.slate.changes = [x] → s.slate.failed = [] → x.late = false → x.inval = false → x.slate <
  256 → s.on F.SLATE_ATTR_VALID x.slate = false → s.changeTagOk x = true → Settles (.slateApply []) s (fun u => u.on
  F.SLATE_ATTR_VALID x.slate = true ∧ u.on F.SLATE_ATTR_ORPHAN x.slate = false ∧ u.rd F.SLATE_ATTR_USAGE x.slate = x.usage % 2
  ^ F.SLATE_ATTR_USAGE.w ∧ u.activeBank x.slate = (1 - s.activeBank x.slate) % 2 ∧ u.slate.changes = [] ∧ u.slate.cells =
  s.slate.cells ∧ u.ridge = s.ridge)) ∧
  (∀ (s : State) (n : Nat) (c : CmdRef), s.slate.zero = [⟨n, 2, some c⟩] → s.frank.answers = [] → n < 256 →
  s.slate.cells.length = 256 → Replies (.slateZeroise n) s c (fun u => u.cells n = ({}, {}) ∧ u.slate.zero = [] ∧ (∀ k, k ≠ n
  → u.cells k = s.cells k) ∧ { s with slate := u.slate } = u)) ∧
  (∀ (s : State) (bad : List Nat) (us : Nat), s.isRunning 3 0 = true → s.sort.running.length = 11 → Settles (.remaskPass bad
  us) s (fun u => u.quietRun 1 = none ∧ u.rd F.SORT_LAST_CODE = 0 ∧ u.rd F.SORT_LAST_ACT = 3 ∧ u.mem = s.mem ∧ u.ridge =
  s.ridge)) ∧
  (∀ (s : State) (bad : List Nat) (us : Nat), s.isRunning 3 0 = false → s.pins.ready = true → s.on F.FRANK_STAT_DRBG_OK =
  false → Settles (.remaskPass bad us) s (fun u => u.rd F.SLATE_REMASK_SKIPPED = satU F.SLATE_REMASK_SKIPPED.w (s.rd
  F.SLATE_REMASK_SKIPPED + 1) ∧ u.staged 148 ∧ OnlyRegsFcu s u [(F.SLATE_REMASK_SKIPPED, 0)])) ∧
  (∀ (s : State) (k : Nat), k = 0 → s.on F.SLATE_TAMP_CFG_EN0 = true → s.on F.SLATE_TAMP_STAT_T0 = false → s.on
  F.SLATE_TAMP_STAT_T1 = false → s.pwr.main = true → s.slate.cells.length = 256 → Settles (.tamper k) s (fun u => u.on
  F.SLATE_TAMP_STAT_T0 = true ∧ u.on F.SLATE_TAMP_STAT_ERASED = true ∧ u.rd F.SLATE_TAMP_TIME_SEC = s.rd F.TOP_RTC_SEC_SEC % 2
  ^ 32 ∧ u.staged 145 0 ∧ (∀ n, n < 256 → u.cells n = ({}, {}) ∧ u.on F.SLATE_ATTR_VALID n = false) ∧ u.mem = s.mem ∧ u.ridge
  = s.ridge)) ∧
  (∀ (s : State) (k : Nat), k = 1 → s.on F.SLATE_TAMP_CFG_EN1 = true → s.on F.SLATE_TAMP_STAT_T0 = false → s.on
  F.SLATE_TAMP_STAT_T1 = false → s.pwr.main = false → s.slate.cells.length = 256 → Settles (.tamper k) s (fun u => u.on
  F.SLATE_TAMP_STAT_T1 = true ∧ u.on F.SLATE_TAMP_STAT_ERASED = true ∧ (∀ n, n < 16 → u.cells n = ({}, {}) ∧ u.on
  F.SLATE_ATTR_VALID n = false) ∧ u.fcu = s.fcu ∧ u.mem = s.mem ∧ u.ridge = s.ridge)) ∧
  (∀ (s : State), Settles .tamperAck s (fun u => u.on F.SLATE_TAMP_STAT_T0 = false ∧ u.on F.SLATE_TAMP_STAT_T1 = false ∧ u.on
  F.SLATE_TAMP_STAT_ERASED = false ∧ u.on F.SLATE_TAMP_STAT_VBAT_LOST = false ∧ u.rd F.SLATE_TAMP_TIME_SEC = 0 ∧ OnlyRegs s u
  [(F.SLATE_TAMP_STAT_T0, 0), (F.SLATE_TAMP_STAT_T1, 0), (F.SLATE_TAMP_STAT_ERASED, 0), (F.SLATE_TAMP_STAT_VBAT_LOST, 0),
  (F.SLATE_TAMP_TIME_SEC, 0)])) ∧
  (∀ (s : State) (req w : Nat), Admitted s req → s.once.contains 0x2004 = false → Settles (.persLockWrite req w) s (fun u =>
  u.on F.SLATE_LOCK_PERS_LOCK = bit w 0 ∧ u.once = s.once ++ [0x2004] ∧ { s with regs := u.regs, once := u.once } = u ∧
  RegsBut s u [(F.SLATE_LOCK_PERS_LOCK, 0)])) ∧
  (∀ (s : State) (req w : Nat), Admitted s req → s.once.contains 0x2004 = true → Settles (.persLockWrite req w) s (fun u =>
  u.on F.SLATE_LOCK_PERS_LOCK = s.on F.SLATE_LOCK_PERS_LOCK ∧ u.staged 144 4 ∧ u.once = s.once ∧ u.slate = s.slate)) ∧
  (∀ (s : State) (req w : Nat), Admitted s req → s.once.contains 0x2010 = false → Settles (.loadLockWrite req w) s (fun u =>
  u.on F.SLATE_LOAD_LOCK_LOAD_LOCK = bit w 0 ∧ u.once = s.once ++ [0x2010] ∧ { s with regs := u.regs, once := u.once } = u ∧
  RegsBut s u [(F.SLATE_LOAD_LOCK_LOAD_LOCK, 0)])) ∧
  (∀ (s : State) (req w : Nat), Admitted s req → s.once.contains 0x2100 = false → Settles (.tampCfgWrite req w) s (fun u =>
  u.on F.SLATE_TAMP_CFG_EN0 = bit w 0 ∧ u.on F.SLATE_TAMP_CFG_EN1 = bit w 1 ∧ u.on F.SLATE_TAMP_CFG_ERASE_HINT = bit w 4 ∧
  u.rd F.SLATE_TAMP_CFG_DEBOUNCE = bits w 5 3 ∧ u.once = s.once ++ [0x2100] ∧ { s with regs := u.regs, once := u.once } = u))

/-- A write of HOST_CTL.EN = 1 starts a stopped Letterbox with its pointers at 0; EN = 0 makes it stop, and it is stopped when
nothing is in flight or held; an enable that waited then starts it. A tail or head write that keeps its ring within 2^n
entries is taken and changes no other register; one that does not is ignored with FS 156. A write of HOST_CPL_HEAD that makes
room writes a held completion at the tail. The moderation timer signals unsignalled completions. Frame rings start with their
pointers at 0, and a running ring keeps its size, with FS 0. A posted receive descriptor waits for a frame. -/
def Obligations.LetterboxStartsStopsAndKeepsItsRings : Prop :=
  (∀ (s : State) (req w : Nat), s.on F.HOST_CTL_EN = false → bit w 0 = true → s.host.stopping = false → Settles
  (.letterboxEnable req w) s (fun u => u.on F.HOST_CTL_EN = true ∧ u.on F.HOST_CTL_EVT_EN = bit w 1 ∧ (∀ f ∈
  [F.HOST_CMD_TAIL_PTR, F.HOST_CMD_HEAD_PTR, F.HOST_CPL_HEAD_PTR, F.HOST_CPL_TAIL_PTR, F.HOST_EVT_HEAD_PTR,
  F.HOST_EVT_TAIL_PTR, F.HOST_EVT_LOST_COUNT, F.HOST_STAT_CMD_ERR], u.rd f = 0) ∧ u.host.running = true ∧
  { s with regs := u.regs, host := { s.host with running := true, unsig := 0 } } = u ∧ RegsBut s u ([F.HOST_CTL_EVT_EN,
  F.HOST_CTL_EN, F.HOST_CMD_TAIL_PTR, F.HOST_CMD_HEAD_PTR, F.HOST_CPL_HEAD_PTR, F.HOST_CPL_TAIL_PTR, F.HOST_EVT_HEAD_PTR,
  F.HOST_EVT_TAIL_PTR, F.HOST_EVT_LOST_COUNT, F.HOST_CNT_CMD_COUNT, F.HOST_CNT_DISC_COUNT, F.HOST_STAT_CMD_ERR].map (fun f =>
  (f, 0))))) ∧
  (∀ (s : State) (req w : Nat), s.on F.HOST_CTL_EN = true → bit w 0 = false → s.host.stopping = false → Settles
  (.letterboxEnable req w) s (fun u => u.on F.HOST_CTL_EN = false ∧ u.on F.HOST_CTL_EVT_EN = bit w 1 ∧
  { s with regs := u.regs, host := { s.host with stopping := true } } = u ∧ RegsBut s u [(F.HOST_CTL_EVT_EN, 0),
  (F.HOST_CTL_EN, 0)])) ∧
  (∀ (s : State), s.host.stopping = true → s.ringBusy = false → s.on F.HOST_STAT_PENDING_ENABLE = false → exec
  .letterboxStopDone s = .next { s with host := { s.host with stopping := false, running := false } }.close) ∧
  (∀ (s : State), s.host.stopping = true → s.ringBusy = false → s.on F.HOST_STAT_PENDING_ENABLE = true → Settles
  .letterboxStopDone s (fun u => u.host.running = true ∧ u.host.stopping = false ∧ u.on F.HOST_STAT_PENDING_ENABLE = false ∧
  u.rd F.HOST_CMD_HEAD_PTR = 0 ∧ u.rd F.HOST_CPL_TAIL_PTR = 0 ∧ u.mem = s.mem ∧ u.ridge = s.ridge)) ∧
  (∀ (s : State) (req w : Nat), ptrOk (s.rd F.HOST_RING_SIZE_CMD) 12 (s.rd F.HOST_CMD_HEAD_PTR) (bits w 0 13) = true → Settles
  (.cmdDoorbell req w) s (fun u => u.rd F.HOST_CMD_TAIL_PTR = bits w 0 13 ∧ OnlyRegs s u [(F.HOST_CMD_TAIL_PTR, 0)])) ∧
  (∀ (s : State) (req w : Nat), ptrOk (s.rd F.HOST_RING_SIZE_CMD) 12 (s.rd F.HOST_CMD_HEAD_PTR) (bits w 0 13) = false →
  Settles (.cmdDoorbell req w) s (fun u => u.staged 156 ∧ OnlyRegsFcu s u [])) ∧
  (∀ (s : State) (req w : Nat), s.host.held = [] → bits w 0 13 % 2 ^ 12 < 2 ^ s.rd F.HOST_RING_SIZE_CPL → ptrOk (s.rd
  F.HOST_RING_SIZE_CPL) 12 (bits w 0 13) (s.rd F.HOST_CPL_TAIL_PTR) = true → Settles (.cplHeadWrite req w) s (fun u => u.rd
  F.HOST_CPL_HEAD_PTR = bits w 0 13 ∧ u.on F.HOST_STAT_CPL_HELD = false ∧ OnlyRegs s u [(F.HOST_CPL_HEAD_PTR, 0),
  (F.HOST_STAT_CPL_HELD, 0)])) ∧
  (∀ (s : State) (req w : Nat) (x : Cpl), s.host.held = [x] → s.on F.HOST_STAT_D3HOT = false → bits w 0 13 % 2 ^ 12 < 2 ^ s.rd
  F.HOST_RING_SIZE_CPL → ptrOk (s.rd F.HOST_RING_SIZE_CPL) 12 (bits w 0 13) (s.rd F.HOST_CPL_TAIL_PTR) = true → ptrUsed (s.rd
  F.HOST_RING_SIZE_CPL) 12 (bits w 0 13) (s.rd F.HOST_CPL_TAIL_PTR) < 2 ^ s.rd F.HOST_RING_SIZE_CPL → Settles (.cplHeadWrite
  req w) s (fun u => u.host.held = [] ∧ u.on F.HOST_STAT_CPL_HELD = false ∧ u.rd F.HOST_CPL_TAIL_PTR = ptrNext (s.rd
  F.HOST_RING_SIZE_CPL) 12 (s.rd F.HOST_CPL_TAIL_PTR) % 2 ^ 13 ∧ Out.dma (s.rd F.HOST_CPL_BASE_BASE * 4096 + ptrIdx (s.rd
  F.HOST_RING_SIZE_CPL) (s.rd F.HOST_CPL_TAIL_PTR) * 16) (cplWords (ptrPhase (s.rd F.HOST_CPL_TAIL_PTR)) x) ∈ u.out ∧ u.mem =
  s.mem ∧ u.ridge = s.ridge)) ∧
  (∀ (s : State) (req w : Nat), bits w 0 13 % 2 ^ 12 < 2 ^ s.rd F.HOST_RING_SIZE_EVT → ptrOk (s.rd F.HOST_RING_SIZE_EVT) 12
  (bits w 0 13) (s.rd F.HOST_EVT_TAIL_PTR) = true → Settles (.evtHeadWrite req w) s (fun u => u.rd F.HOST_EVT_HEAD_PTR = bits
  w 0 13 ∧ OnlyRegs s u [(F.HOST_EVT_HEAD_PTR, 0)])) ∧
  (∀ (s : State), s.host.unsig ≠ 0 → s.on F.HOST_STAT_D3HOT = false → exec .irqTimer s = .next
  { s with host := { s.host with unsig := 0 }, out := s.out ++ [Out.msix 0] }.close) ∧
  (∀ (s : State) (req g w : Nat), g < 8 → s.on F.HOST_FR_CTL_TX_EN g = false → s.on F.HOST_FR_CTL_RX_EN g = false → 6 ≤ bits w
  4 4 ∧ bits w 4 4 ≤ 12 → 6 ≤ bits w 8 4 ∧ bits w 8 4 ≤ 12 → s.host.txRun.length = 8 ∧ s.host.rxRun.length = 8 → Settles
  (.frameRingEnable req g w) s (fun u => u.on F.HOST_FR_CTL_TX_EN g = bit w 0 ∧ u.on F.HOST_FR_CTL_RX_EN g = bit w 1 ∧ u.rd
  F.HOST_FR_CTL_TX_SIZE g = bits w 4 4 ∧ u.rd F.HOST_FR_CTL_RX_SIZE g = bits w 8 4 ∧ u.host.txRun.getD g false = bit w 0 ∧
  u.host.rxRun.getD g false = bit w 1 ∧ (bit w 0 = true → u.rd F.HOST_TXR_TAIL_PTR g = 0 ∧ u.rd F.HOST_TXR_HEAD_PTR g = 0) ∧
  (bit w 1 = true → u.rd F.HOST_RXR_TAIL_PTR g = 0 ∧ u.rd F.HOST_RXR_HEAD_PTR g = 0) ∧
  { s with regs := u.regs, host := u.host } = u ∧ RegsBut s u ([F.HOST_FR_CTL_RX_SIZE, F.HOST_FR_CTL_TX_SIZE,
  F.HOST_FR_CTL_RX_EN, F.HOST_FR_CTL_TX_EN, F.HOST_TXR_TAIL_PTR, F.HOST_TXR_HEAD_PTR, F.HOST_RXR_TAIL_PTR,
  F.HOST_RXR_HEAD_PTR, F.HOST_RXR_DROP_COUNT].map (fun f => (f, g))))) ∧
  (∀ (s : State) (req g w : Nat), g < 8 → s.on F.HOST_FR_CTL_TX_EN g = true → bits w 4 4 ≠ s.rd F.HOST_FR_CTL_TX_SIZE g →
  Settles (.frameRingEnable req g w) s (fun u => u.rd F.HOST_FR_CTL_TX_SIZE g = s.rd F.HOST_FR_CTL_TX_SIZE g ∧ u.staged 0
  (Acs.snap ⟨req, 0x18110 + 0x40 * g, 2, true⟩) ∧ u.mem = s.mem ∧ u.ridge = s.ridge)) ∧
  (∀ (s : State) (req g w : Nat) (bufs : List (Nat × Nat)), g < 8 → ptrOk (s.rd F.HOST_FR_CTL_RX_SIZE g) 12 (s.rd
  F.HOST_RXR_HEAD_PTR g) (bits w 0 13) = true → s.rxWaiting g = none → s.host.posted.length = 8 → Settles (.hostRxPost req g w
  bufs) s (fun u => u.rd F.HOST_RXR_TAIL_PTR g = bits w 0 13 ∧ u.host.posted.getD g [] = s.host.posted.getD g [] ++ bufs.take
  (ptrUsed (s.rd F.HOST_FR_CTL_RX_SIZE g) 12 (s.rd F.HOST_RXR_TAIL_PTR g) (bits w 0 13)) ∧
  { s with regs := u.regs, host := { s.host with posted := u.host.posted } } = u ∧ RegsBut s u [(F.HOST_RXR_TAIL_PTR, g)]))

/-- Fetching a record advances HOST_CMD_HEAD. A record with an opcode that no table names completes with BAD_OPCODE; a good
one that arrives before READY is in flight and waits; SYS_NOP, alone, runs and its completion is written at HOST_CPL_TAIL with
the phase of the ring. A record that cannot be fetched sets CMD_ERR with FS 158. The watchdog completes a command in flight
with DEVICE_TIMEOUT and FS 157, and a later completion is dropped. A mailbox GO while BUSY is ignored with FS 0; one whose
device has no room waits; one with an unknown opcode completes in HOST_MBX_CPL and shows DONE. -/
def Obligations.CommandRecordsAreTakenRunAndWatched : Prop :=
  (∀ (s : State) (ws buf : List Nat) (rdFail : Bool) (wrFail : Option Nat) (e : Env), ws ≠ [] → s.mayFetch (recDn ws) = true →
  (recOp ws) ∉ opcodes → s.host.dropped = [] → s.host.outFail = none → s.cplFull = false → Settles (.cmdFetch ws buf false
  rdFail wrFail e) s (fun u => u.rd F.HOST_CMD_HEAD_PTR = ptrNext (s.rd F.HOST_RING_SIZE_CMD) 12 (s.rd F.HOST_CMD_HEAD_PTR) %
  2 ^ 13 ∧ Out.dma (s.rd F.HOST_CPL_BASE_BASE * 4096 + ptrIdx (s.rd F.HOST_RING_SIZE_CPL) (s.rd F.HOST_CPL_TAIL_PTR) * 16)
  (cplWords (ptrPhase (s.rd F.HOST_CPL_TAIL_PTR)) ⟨⟨.ring, recDn ws, recTag ws, s.host.ser⟩, Code.badOpcode, false, false,
  false, 0, 0, 0⟩) ∈ u.out ∧ u.mem = s.mem ∧ u.ridge = s.ridge)) ∧
  (∀ (s : State) (ws buf : List Nat) (rdFail : Bool) (wrFail : Option Nat) (e : Env), ws ≠ [] → s.mayFetch (recDn ws) = true →
  (recOp ws) ∈ opcodes → s.dnThere (recDn ws) = true → s.host.inflight = [] → headerCode ws = Code.ok → s.on F.TOP_STAT_READY
  = false → s.host.mbxGo = false → Settles (.cmdFetch ws buf false rdFail wrFail e) s (fun u => u.rd F.HOST_CMD_HEAD_PTR =
  ptrNext (s.rd F.HOST_RING_SIZE_CMD) 12 (s.rd F.HOST_CMD_HEAD_PTR) % 2 ^ 13 ∧ u.host.inflight = [InFlight.mk ⟨.ring, recDn
  ws, recTag ws, s.host.ser⟩ ws false none] ∧ u.rd F.HOST_STAT_INFLIGHT = 1 ∧
  { s with regs := u.regs, host := { s.host with inflight := u.host.inflight, ser := s.host.ser + 1 } } = u ∧ RegsBut s u
  [(F.HOST_CMD_HEAD_PTR, 0), (F.HOST_CNT_CMD_COUNT, 0), (F.HOST_STAT_INFLIGHT, 0)])) ∧
  (∀ (s : State) (ws buf : List Nat) (rdFail : Bool) (wrFail : Option Nat) (e : Env), ws ≠ [] → s.mayFetch (recDn ws) = true →
  recOp ws = 0x0F00 → recDn ws = s.rd F.NOR_STAT_DN → s.host.inflight = [] → headerCode ws = Code.ok → s.on F.TOP_STAT_READY =
  true → s.host.dropped = [] → s.cplFull = false → s.host.mbxGo = false → Settles (.cmdFetch ws buf false rdFail wrFail e) s
  (fun u => u.host.inflight = [] ∧ u.rd F.HOST_CPL_TAIL_PTR = ptrNext (s.rd F.HOST_RING_SIZE_CPL) 12 (s.rd
  F.HOST_CPL_TAIL_PTR) % 2 ^ 13 ∧ Out.dma (s.rd F.HOST_CPL_BASE_BASE * 4096 + ptrIdx (s.rd F.HOST_RING_SIZE_CPL) (s.rd
  F.HOST_CPL_TAIL_PTR) * 16) (cplWords (ptrPhase (s.rd F.HOST_CPL_TAIL_PTR)) ⟨⟨.ring, recDn ws, recTag ws, s.host.ser⟩,
  Code.ok, false, false, false, s.wordAt 0, s.rd F.RIDGE_BEAT_SEQ_SEQ, 0⟩) ∈ u.out ∧ u.mem = s.mem ∧ u.ridge = s.ridge)) ∧
  (∀ (s : State) (ws buf : List Nat) (rdFail : Bool) (wrFail : Option Nat) (e : Env), s.mayFetch 0 = true → Settles (.cmdFetch
  ws buf true rdFail wrFail e) s (fun u => u.on F.HOST_STAT_CMD_ERR = true ∧ u.staged 158 ∧ OnlyRegsFcu s u
  [(F.HOST_STAT_CMD_ERR, 0)])) ∧
  (∀ (s : State) (c : CmdRef) (lost : Bool), c.src = .ring → lost = true ∨ s.on F.HOST_TMO_TMO = true → s.host.inflight.any
  (fun x => x.ref == c) = true → s.host.dropped = [] → s.host.outFail = none → s.host.held = [] → s.on F.HOST_STAT_D3HOT =
  false → s.cplFull = false → Settles (.commandTimeout c lost) s (fun u => u.host.inflight.any (fun x => x.ref == c) = false ∧
  u.host.dropped = [c] ∧ u.staged 157 c.dn ∧ Out.dma (s.rd F.HOST_CPL_BASE_BASE * 4096 + ptrIdx (s.rd F.HOST_RING_SIZE_CPL)
  (s.rd F.HOST_CPL_TAIL_PTR) * 16) (cplWords (ptrPhase (s.rd F.HOST_CPL_TAIL_PTR)) ⟨c, Code.deviceTimeout, false, false,
  false, 0, 0, 0⟩) ∈ u.out ∧ u.mem = s.mem ∧ u.ridge = s.ridge)) ∧
  (∀ (s : State) (req w : Nat) (e : Env), s.on F.HOST_MBX_CTL_BUSY = true → s.host.mbxGo = false → Settles (.mailboxGo req w
  e) s (fun u => u.on F.HOST_MBX_CTL_BUSY = true ∧ u.host = s.host ∧ u.staged 0 (Acs.snap ⟨req, 0x18840, 2, true⟩) ∧ u.mem =
  s.mem ∧ u.ridge = s.ridge)) ∧
  (∀ (s : State) (req w : Nat) (e : Env), s.on F.HOST_MBX_CTL_BUSY = false → 1024 ≤ s.flightCnt (recDn [s.rd
  F.HOST_MBX_CMD_WORD]) → Settles (.mailboxGo req w e) s (fun u => u.on F.HOST_MBX_CTL_BUSY = true ∧ u.on F.HOST_MBX_CTL_DONE
  = false ∧ u.on F.HOST_MBX_CTL_INT_EN = bit w 1 ∧
  { s with regs := u.regs, host := { s.host with mbxReq := req, mbxGo := true } } = u ∧ RegsBut s u [(F.HOST_MBX_CTL_INT_EN,
  0), (F.HOST_MBX_CTL_BUSY, 0), (F.HOST_MBX_CTL_DONE, 0)])) ∧
  (∀ (s : State) (req w : Nat) (e : Env), s.on F.HOST_MBX_CTL_BUSY = false → s.flightCnt (recDn [s.rd F.HOST_MBX_CMD_WORD]) <
  1024 → recOp [s.rd F.HOST_MBX_CMD_WORD] ∉ opcodes → s.host.dropped = [] → s.host.outFail = none → Settles (.mailboxGo req w
  e) s (fun u => u.on F.HOST_MBX_CTL_BUSY = false ∧ u.on F.HOST_MBX_CTL_DONE = true ∧ u.rd F.HOST_MBX_CPL_WORD 0 =
  Code.badOpcode * 2 ^ 16 + recDn [s.rd F.HOST_MBX_CMD_WORD] * 2 ^ 10 + recTag [s.rd F.HOST_MBX_CMD_WORD] ∧ u.mem = s.mem ∧
  u.ridge = s.ridge))

/-- REG_RD of one word answers what the register reads; a count out of range is refused, and W64 with an odd count or an
unaligned address answers BAD_ALIGN. REG_WR and REG_RMW of a scratch word write exactly it, and REG_RMW answers the old value.
TBL_RD copies a window to the host buffer, TBL_WR writes one; both refuse bytes outside the windows. ENS_SNAP and EAVES_SNAP
copy their pages. SYS_NOP answers TOP_DEVICE_ID and RIDGE_BEAT_SEQ. SYS_RELEASE sets OUT_STAT.RELEASED when READY, at once
when it is set, and waits before READY. SYS_RESET leaves the machine at start-up step 3 with RESET_CAUSE 2, its clock stopped
and its persistent slates kept. -/
def Obligations.RegisterTableAndSnapshotCommands : Prop :=
  (∀ (s : State) (c : CmdRef) (p : List Nat) (e : Env), regCount p = 1 → bit (p.getD 1 0) 16 = false → bits (p.getD 0 0) 0 24
  % 4 = 0 → isPaired (bits (p.getD 0 0) 0 24) = false → e.late = [] → exec (.regRd c p none e) s = .next (s.finish c Code.ok
  (s.read32 (bits (p.getD 0 0) 0 24))).close) ∧
  (∀ (s : State) (c : CmdRef) (p : List Nat) (out : Option Nat) (e : Env), regCount p = 0 → Refuses (.regRd c p out e) s c
  Code.badParam) ∧
  (∀ (s : State) (c : CmdRef) (p : List Nat) (out : Option Nat) (e : Env), regCount p ≠ 0 → bits (p.getD 0 0) 0 24 + 4 *
  regCount p ≤ 2 ^ 24 → bit (p.getD 1 0) 16 = true → regCount p % 2 = 1 ∨ bits (p.getD 0 0) 0 24 % 8 ≠ 0 → Refuses (.regRd c p
  out e) s c Code.badAlign) ∧
  (∀ (s : State) (c : CmdRef) (p : List Nat) (e : Env) (k : Nat), k < 4 → regCount p = 1 → bit (p.getD 1 0) 16 = false → bits
  (p.getD 0 0) 0 24 = 0x10 + 4 * k → e.late = [] → s.on F.TOP_STAT_READY = true → s.host.mbxGo = false → exec (.regWr c p none
  e) s = .next ((s.wr F.TOP_SCRATCH_DATA (p.getD 2 0) k).finish c Code.ok 1).close) ∧
  (∀ (s : State) (c : CmdRef) (p : List Nat) (e : Env) (k : Nat), k < 4 → bits (p.getD 0 0) 0 24 = 0x10 + 4 * k → e.late = []
  → s.on F.TOP_STAT_READY = true → s.host.mbxGo = false → ∃ u : State, exec (.regRmw c p e) s = .next (u.finish c Code.ok
  (s.read32 (0x10 + 4 * k))).close ∧ (∀ j, j < 32 → bit (u.rd F.TOP_SCRATCH_DATA k) j = if bit (p.getD 1 0) j then bit (p.getD
  2 0) j else bit (s.rd F.TOP_SCRATCH_DATA k) j) ∧ OnlyRegs s u [(F.TOP_SCRATCH_DATA, k)]) ∧
  (∀ (s : State) (c : CmdRef) (p : List Nat) (buf : Nat), tblOk p = true → c.src = .ring → s.host.outFail = none → exec
  (.tblRd c p buf) s = .next ((s.emit (.dma buf ((List.range (tblBytes p / 4)).map (fun k => s.read32 (bits (p.getD 0 0) 0 24
  + 4 * k))))).finish c Code.ok (tblBytes p) 0 (tblBytes p)).close) ∧
  (∀ (s : State) (c : CmdRef) (p : List Nat) (buf : Nat), tblOk p = false → Refuses (.tblRd c p buf) s c Code.badParam) ∧
  (∀ (s : State) (c : CmdRef) (p input : List Nat) (e : Env), tblOk p = true → tblBytes p = 4 → 0xF80000 ≤ bits (p.getD 0 0) 0
  24 ∧ bits (p.getD 0 0) 0 24 < 0xF90000 → e.late = [] → s.on F.TOP_STAT_READY = true → ∃ u : State, exec (.tblWr c p input e)
  s = .next (u.finish c Code.ok 4).close ∧ u.mrd (bits (p.getD 0 0) 0 24) 4 = (wordsOf input).getD 0 0 % 2 ^ 32 ∧ (∀ a, a <
  bits (p.getD 0 0) 0 24 ∨ bits (p.getD 0 0) 0 24 + 4 ≤ a → u.mrd a 1 = s.mrd a 1) ∧ { s with mem := u.mem } = u) ∧
  (∀ (s : State) (c : CmdRef) (p input : List Nat) (e : Env), tblOk p = false → Refuses (.tblWr c p input e) s c
  Code.badParam) ∧
  (∀ (s : State) (c : CmdRef) (buf : Nat), c.src = .ring → s.host.outFail = none → exec (.ensSnap c buf) s = .next ((s.emit
  (.dma buf (s.wordsAt 0x8000 (0x700 / 4)))).finish c Code.ok 0 0 0x700).close) ∧
  (∀ (s : State) (c : CmdRef) (buf : Nat), c.src = .ring → s.host.outFail = none → exec (.eavesSnap c buf) s = .next ((s.emit
  (.dma buf (s.wordsAt 0x9000 (0x1000 / 4)))).finish c Code.ok 0 0 0x1000).close) ∧
  (∀ (s : State) (c : CmdRef), exec (.sysNop c) s = .next (s.finish c Code.ok (s.wordAt 0) (s.rd F.RIDGE_BEAT_SEQ_SEQ)).close) ∧
  (∀ (s : State) (c : CmdRef), s.on F.OUT_STAT_RELEASED = true → exec (.sysRelease c) s = .next (s.finish c Code.ok).close) ∧
  (∀ (s : State) (c : CmdRef), s.on F.OUT_STAT_RELEASED = false → s.on F.TOP_STAT_READY = true → s.pwr.release = [] → Replies
  (.sysRelease c) s c (fun u => u.on F.OUT_STAT_RELEASED = true ∧ OnlyRegs s u [(F.OUT_STAT_RELEASED, 0)])) ∧
  (∀ (s : State) (c : CmdRef), s.on F.OUT_STAT_RELEASED = false → s.on F.TOP_STAT_READY = false → exec (.sysRelease c) s =
  .next { s with pwr := { s.pwr with release := s.pwr.release ++ [c] } }.close) ∧
  (∀ (s : State) (c : CmdRef), Settles (.sysReset c) s (fun u => u.rd F.TOP_STAT_RESET_CAUSE = 2 ∧ u.on F.TOP_STAT_READY =
  false ∧ u.pwr.stage = 3 ∧ u.ridge = State.reset.ridge ∧ (∀ n, n < 16 → u.cells n = s.cells n) ∧ u.pending = s.pending))

/-- A transmit descriptor at the head of its ring ends DROPPED with FS 158 when it cannot be read and REJECTED when a field is
out of range; DONE and RESULT are written and the head advances. The link shows its speed and width when it trains; a link
reset returns the HOST block alone to its reset values, counts the commands whose completions are lost and raises FS 152.
D3hot holds completions, which D0 writes. A TLP above 16 DW touches nothing and raises FS 153; a one-word TLP reads what the
register reads, or writes a scratch word alone. The management SPI reads and writes words, records an unaligned start or a
partial word, and answers STATUS. -/
def Obligations.FramesLeaveByTheRingsAndTheLinkComesAndGoes : Prop :=
  (∀ (s : State) (g w8 w12 id : Nat) (frame : List Nat) (place : TxPlace), g < 8 → s.host.txRun.getD g false = true → s.on
  F.HOST_STAT_D3HOT = false → ptrUsed (s.rd F.HOST_FR_CTL_TX_SIZE g) 12 (s.rd F.HOST_TXR_HEAD_PTR g) (s.rd F.HOST_TXR_TAIL_PTR
  g) ≠ 0 → Settles (.hostTxDescriptor g w8 w12 id frame place true) s (fun u => u.out = s.out ++ [.dma (s.rd
  F.HOST_TXR_BASE_BASE g * 4096 + ptrIdx (s.rd F.HOST_FR_CTL_TX_SIZE g) (s.rd F.HOST_TXR_HEAD_PTR g) * 32 + 24) [2 ^ 31 +
  TxRes.dropped * 2 ^ 28], .msix (3 + g)] ∧ u.rd F.HOST_TXR_HEAD_PTR g = ptrNext (s.rd F.HOST_FR_CTL_TX_SIZE g) 12 (s.rd
  F.HOST_TXR_HEAD_PTR g) % 2 ^ 13 ∧ u.staged 158 ∧ { s with regs := u.regs, out := u.out, fcu := u.fcu } = u ∧ RegsBut s u
  [(F.HOST_TXR_HEAD_PTR, g)])) ∧
  (∀ (s : State) (g w8 w12 id : Nat) (frame : List Nat) (place : TxPlace), g < 8 → s.host.txRun.getD g false = true → s.on
  F.HOST_STAT_D3HOT = false → ptrUsed (s.rd F.HOST_FR_CTL_TX_SIZE g) 12 (s.rd F.HOST_TXR_HEAD_PTR g) (s.rd F.HOST_TXR_TAIL_PTR
  g) ≠ 0 → bits w8 0 14 < 60 ∨ 9596 < bits w8 0 14 ∨ bits w8 18 2 = 3 → Settles (.hostTxDescriptor g w8 w12 id frame place
  false) s (fun u => u.out = s.out ++ [.dma (s.rd F.HOST_TXR_BASE_BASE g * 4096 + ptrIdx (s.rd F.HOST_FR_CTL_TX_SIZE g) (s.rd
  F.HOST_TXR_HEAD_PTR g) * 32 + 24) [2 ^ 31 + TxRes.rejected * 2 ^ 28], .msix (3 + g)] ∧ u.rd F.HOST_TXR_HEAD_PTR g = ptrNext
  (s.rd F.HOST_FR_CTL_TX_SIZE g) 12 (s.rd F.HOST_TXR_HEAD_PTR g) % 2 ^ 13 ∧ { s with regs := u.regs, out := u.out } = u ∧
  RegsBut s u [(F.HOST_TXR_HEAD_PTR, g)])) ∧
  (∀ (s : State) (g w8 w12 id : Nat) (frame : List Nat) (place : TxPlace), g < 8 → s.host.txRun.getD g false = true → s.on
  F.HOST_STAT_D3HOT = false → ptrUsed (s.rd F.HOST_FR_CTL_TX_SIZE g) 12 (s.rd F.HOST_TXR_HEAD_PTR g) (s.rd F.HOST_TXR_TAIL_PTR
  g) ≠ 0 → s.portSends (4 * g + bits w8 14 2) = true → s.on F.MAC_CTL_TAG_INS (4 * g + bits w8 14 2) = false → bits w8 16 4 =
  0 ∧ bits w8 20 2 = 0 → 60 ≤ bits w8 0 14 ∧ bits w8 0 14 ≤ 9596 ∧ frame.length = bits w8 0 14 ∧ frame.length + 4 ≤ s.rd
  F.MAC_CTL_MAXF (4 * g + bits w8 14 2) → s.unpaused (4 * g + bits w8 14 2) (s.framePrio (4 * g + bits w8 14 2) (frame.map
  (fun b => b % 256))) = true → Settles (.hostTxDescriptor g w8 w12 id frame place false) s (fun u => (∃ l, u.out = s.out ++ l
  ++ [.dma (s.rd F.HOST_TXR_BASE_BASE g * 4096 + ptrIdx (s.rd F.HOST_FR_CTL_TX_SIZE g) (s.rd F.HOST_TXR_HEAD_PTR g) * 32 + 24)
  [2 ^ 31 + TxRes.sent * 2 ^ 28], .msix (3 + g)] ∧ Out.frame (4 * g + bits w8 14 2) (frame.map (fun b => b % 256)) ∈ l) ∧ u.rd
  F.HOST_TXR_HEAD_PTR g = ptrNext (s.rd F.HOST_FR_CTL_TX_SIZE g) 12 (s.rd F.HOST_TXR_HEAD_PTR g) % 2 ^ 13 ∧ u.mem = s.mem ∧
  u.ridge = s.ridge)) ∧
  (∀ (s : State) (speed width : Nat), 1 ≤ speed ∧ speed ≤ 4 → width = 1 ∨ width = 2 ∨ width = 4 → Settles (.hostLinkUp speed
  width) s (fun u => u.rd F.HOST_STAT_SPEED = speed ∧ u.rd F.HOST_STAT_WIDTH = width ∧ OnlyRegs s u [(F.HOST_STAT_SPEED, 0),
  (F.HOST_STAT_WIDTH, 0)])) ∧
  (∀ (s : State) (speed width : Nat), Settles (.hostLinkReset speed width) s (fun u => u.rd F.HOST_STAT_SPEED = speed % 16 ∧
  u.rd F.HOST_STAT_WIDTH = width % 16 ∧ u.on F.HOST_CTL_EN = false ∧ u.host.running = false ∧ u.host.held = [] ∧ (∀ x ∈
  u.host.inflight, x.ref.src ≠ .ring) ∧ u.rd F.HOST_CNT_DISC_COUNT = satU F.HOST_CNT_DISC_COUNT.w (s.host.inflight.countP (fun
  x => x.ref.src == .ring) + s.host.held.length) ∧ u.staged 152 ∧ { s with regs := u.regs, host := u.host, fcu := u.fcu } = u
  ∧ (∀ f i, f.no < 1024 → (∀ q ∈ hostFields, f.no ≠ q.1.no) → u.rd f i = s.rd f i))) ∧
  (∀ (s : State), Settles .d3hotEnter s (fun u => u.on F.HOST_STAT_D3HOT = true ∧ OnlyRegs s u [(F.HOST_STAT_D3HOT, 0)])) ∧
  (∀ (s : State), s.host.held = [] → s.host.heldEvents = [] → ∀ g, g < 8 → s.rxWaiting g = none → Settles .d0Return s (fun u
  => u.on F.HOST_STAT_D3HOT = false ∧ u.on F.HOST_STAT_CPL_HELD = false ∧ OnlyRegs s u [(F.HOST_STAT_D3HOT, 0),
  (F.HOST_STAT_CPL_HELD, 0)])) ∧
  (∀ (s : State) (x : Cpl), s.host.held = [x] → s.host.heldEvents = [] → ∀ g, g < 8 → s.rxWaiting g = none → s.cplFull = false
  → Settles .d0Return s (fun u => u.on F.HOST_STAT_D3HOT = false ∧ u.host.held = [] ∧ Out.dma (s.rd F.HOST_CPL_BASE_BASE *
  4096 + ptrIdx (s.rd F.HOST_RING_SIZE_CPL) (s.rd F.HOST_CPL_TAIL_PTR) * 16) (cplWords (ptrPhase (s.rd F.HOST_CPL_TAIL_PTR))
  x) ∈ u.out ∧ u.mem = s.mem ∧ u.ridge = s.ridge)) ∧
  (∀ (s : State) (write : Bool) (addr dw : Nat) (data : List Nat) (e : Env), 16 < dw → Settles (.bar2Access write addr dw data
  e) s (fun u => u.staged 153 ∧ u.out = (if write then s.out else s.out ++ [.tlp true []]) ∧
  { s with out := u.out, fcu := u.fcu } = u)) ∧
  (∀ (s : State) (addr : Nat) (data : List Nat) (e : Env), isPaired (addr % 2 ^ 24 / 4 * 4) = false → e.late = [] → exec
  (.bar2Access false addr 1 data e) s = .next (s.emit (.tlp false [s.read32 (addr % 2 ^ 24 / 4 * 4)])).close) ∧
  (∀ (s : State) (k v : Nat) (e : Env), k < 4 → e.late = [] → s.on F.TOP_STAT_READY = true → s.host.mbxGo = false → Settles
  (.bar2Access true (0x10 + 4 * k) 1 [v] e) s (fun u => u.rd F.TOP_SCRATCH_DATA k = v % 2 ^ 32 ∧ OnlyRegs s u
  [(F.TOP_SCRATCH_DATA, k)])) ∧
  (∀ (s : State) (addr : Nat) (e : Env), addr % 4 = 0 → isPaired (addr % 2 ^ 24) = false → e.late = [] → exec (.mspiRead addr
  1 e) s = .next (s.emit (.mspi (wordBytes [s.read32 (addr % 2 ^ 24)]))).close) ∧
  (∀ (s : State) (addr n : Nat) (e : Env), n ≠ 0 → addr % 4 ≠ 0 → Settles (.mspiRead addr n e) s (fun u => u.out = s.out ++
  [.mspi (List.replicate (4 * n) 0)] ∧ u.host.mspiCode = Code.badAlign ∧ u.staged 3 (Acs.snap ⟨4, addr % 2 ^ 24, 2, false⟩) ∧
  u.mem = s.mem ∧ u.ridge = s.ridge)) ∧
  (∀ (s : State) (k : Nat) (data : List Nat) (e : Env), k < 4 → data.length = 4 → e.late = [] → s.on F.TOP_STAT_READY = true →
  s.host.mbxGo = false → Settles (.mspiWrite (0x10 + 4 * k) data e) s (fun u => u.rd F.TOP_SCRATCH_DATA k = (wordsOf
  data).getD 0 0 % 2 ^ 32 ∧ OnlyRegs s u [(F.TOP_SCRATCH_DATA, k)])) ∧
  (∀ (s : State) (addr : Nat) (data : List Nat) (e : Env), 1 ≤ data.length ∧ data.length ≤ 3 → addr % 4 = 0 → s.host.mbxGo =
  false → exec (.mspiWrite addr data e) s = .next
  { s with host := { s.host with mspiCode := Code.badSize, mspiCnt := min 255 (s.host.mspiCnt + 1) } }.close) ∧
  (∀ (s : State), exec .mspiStatus s = .next
  { s with out := s.out ++ [Out.mspi [s.host.mspiCode, s.host.mspiCnt, (s.on F.HOST_MBX_CTL_DONE).toNat + 2 * (s.on F.TOP_STAT_READY).toNat, 0]], host := { s.host with mspiCode := 0, mspiCnt := 0 } }.close)

/-- An enabled port of a running layer enters DETECT; a signal takes it to TRAIN, 64 sets each way to CAP, a compatible CAP to
SPEED at the lower of the two rates, and a lock to ACTIVE; an incompatible partner leaves it in CAP with FS 166, a training
timeout returns it to DETECT with FS 161, a speed timeout steps one rate down with FS 161. Disabling stops it, and the stop
ends in DISABLED. Loss of the link counts, raises FS 160 and returns it to DETECT. A bad frame is answered with NAK, a good
one with ACK; an ACK empties the replay buffer, a NAK or a timeout replays it, and after four replays without progress the
link is taken down with FS 162. A CRD sets the credits of its class. -/
def Obligations.NoryrPortsTrainActivateAndFall : Prop :=
  (∀ (s : State) (req q w : Nat), q < 6 → Admitted s req → s.norState q = NorS.disabled → s.on F.NOR_PORT_CTL_EN q = false →
  s.on F.NOR_CTL_EN = true → s.norDeep q = false → Settles (.norPortEnable req q w) s (fun u => u.norState q = NorS.detect ∧
  u.on F.NOR_PORT_CTL_EN q = true ∧ u.rd F.NOR_PORT_CTL_MAX_RATE q = bits w 1 2 ∧ u.rd F.NOR_PORT_CNT_DOWNS q = 0 ∧ u.rd
  F.NOR_PORT_CNT_REPLAYS q = 0 ∧ u.out = s.out ∧ u.mem = s.mem ∧ u.ridge = s.ridge)) ∧
  (∀ (s : State) (req q w : Nat), q < 6 → Admitted s req → s.on F.NOR_PORT_CTL_EN q = true → s.norState q ≠ NorS.disabled →
  s.norState q ≠ NorS.stopping → Settles (.norPortDisable req q w) s (fun u => u.norState q = NorS.stopping ∧ u.on
  F.NOR_PORT_CTL_EN q = false ∧ u.mem = s.mem ∧ u.ridge = s.ridge)) ∧
  (∀ (s : State) (q : Nat), q < 6 → s.norState q = NorS.stopping → s.on F.NOR_PORT_STAT_PENDING_ENABLE q = false → s.on
  F.NOR_STAT_PENDING_ENABLE = false → Settles (.norPortStopDone q) s (fun u => u.norState q = NorS.disabled ∧ OnlyRegs s u
  [(F.NOR_PORT_STAT_STATE, q), (F.NOR_PORT_STAT_PENDING_ENABLE, q)])) ∧
  (∀ (s : State) (q : Nat), q < 6 → s.norState q = NorS.detect → s.norDeep q = false → Settles (.norSignalDetect q) s (fun u
  => u.norState q = NorS.train ∧ u.out = s.out ++ [Out.norSet q 0x10 0 0] ∧ { s with regs := u.regs, out := u.out } = u ∧
  RegsBut s u [(F.NOR_PORT_STAT_STATE, q)])) ∧
  (∀ (s : State) (q : Nat), q < 6 → s.norState q = NorS.train → Settles (.norTrained q) s (fun u => u.norState q = NorS.cap ∧
  u.out = s.out ++ [Out.norSet q 0x20 (s.rd F.NOR_PORT_CTL_MAX_RATE q + s.inF F.NOR_CTL_N2_EN * 4 + s.inF F.NOR_CTL_N1_EN * 8
  + norKind q * 16) (s.rd F.TOP_DEVICE_ID_MEMBER)] ∧ { s with regs := u.regs, out := u.out } = u ∧ RegsBut s u
  [(F.NOR_PORT_STAT_STATE, q)])) ∧
  (∀ (s : State) (q : Nat), q < 6 → s.norState q = NorS.train → Settles (.norTrainTimeout q) s (fun u => u.norState q =
  NorS.detect ∧ u.staged 161 q ∧ OnlyRegsFcu s u [(F.NOR_PORT_STAT_STATE, q)])) ∧
  (∀ (s : State) (q a0 a1 : Nat), q < 6 → s.norState q = NorS.cap → s.norCompatible q (bits a0 4 2) = false → Settles (.capRx
  q a0 a1) s (fun u => u.norState q = NorS.cap ∧ u.staged 166 ∧ OnlyRegsFcu s u [])) ∧
  (∀ (s : State) (q a0 a1 : Nat), q < 6 → s.norState q = NorS.cap → s.norCompatible q (bits a0 4 2) = true → min (bits a0 0 2)
  (s.rd F.NOR_PORT_CTL_MAX_RATE q) ≠ 0 → s.nor.port.length = 6 → Settles (.capRx q a0 a1) s (fun u => u.norState q =
  NorS.speed ∧ u.rd F.NOR_PORT_STAT_RATE q = min (bits a0 0 2) (s.rd F.NOR_PORT_CTL_MAX_RATE q) ∧ u.on
  F.NOR_PORT_STAT_N2_AGREED q = (bit a0 2 && s.inF F.NOR_CTL_N2_EN == 1) ∧ (u.norPort q).n1 = (bit a0 3 && s.inF
  F.NOR_CTL_N1_EN == 1) ∧ u.mem = s.mem ∧ u.ridge = s.ridge)) ∧
  (∀ (s : State) (q : Nat), q < 6 → s.norState q = NorS.speed → Settles (.speedLock q) s (fun u => u.norState q = NorS.active
  ∧ u.condHolds 160 q = false ∧ u.mem = s.mem ∧ u.ridge = s.ridge)) ∧
  (∀ (s : State) (q : Nat), q < 6 → s.norState q = NorS.speed → 2 ≤ s.rd F.NOR_PORT_STAT_RATE q ∧ s.rd F.NOR_PORT_STAT_RATE q
  ≤ 3 → Settles (.speedTimeout q) s (fun u => u.norState q = NorS.speed ∧ u.rd F.NOR_PORT_STAT_RATE q = s.rd
  F.NOR_PORT_STAT_RATE q - 1 ∧ u.staged 161 (q + s.rd F.NOR_PORT_STAT_RATE q * 16) ∧ u.out = s.out ++ [Out.norSet q 0x28 (s.rd
  F.NOR_PORT_STAT_RATE q - 1) 0] ∧ { s with regs := u.regs, fcu := u.fcu, out := u.out } = u ∧ RegsBut s u
  [(F.NOR_PORT_STAT_STATE, q), (F.NOR_PORT_STAT_RATE, q)])) ∧
  (∀ (s : State) (q : Nat), q < 6 → s.norState q = NorS.speed → s.rd F.NOR_PORT_STAT_RATE q = 1 → Settles (.speedTimeout q) s
  (fun u => u.norState q = NorS.active ∧ u.rd F.NOR_PORT_STAT_RATE q = 0 ∧ u.staged 161 (q + 16) ∧ u.mem = s.mem ∧ u.ridge =
  s.ridge)) ∧
  (∀ (s : State) (q : Nat), q < 6 → s.norUp q = true → Settles (.norLinkDown q) s (fun u => u.norState q = NorS.detect ∧ u.rd
  F.NOR_PORT_CNT_DOWNS q = satU F.NOR_PORT_CNT_DOWNS.w (s.rd F.NOR_PORT_CNT_DOWNS q + 1) ∧ u.condHolds 160 q = true ∧ u.mem =
  s.mem ∧ u.ridge = s.ridge)) ∧
  (∀ (s : State) (q : Nat) (words : List Nat) (fail : Option Nat) (e : Env), q < 6 → s.norState q = NorS.active → frameGood
  (words.map (fun w => w % 2 ^ 32)) = false → exec (.norFrameRx q words false false fail e) s = .next (s.emit (.norSet q 0x31
  (((s.norPort q).expect + 4095) % 4096 / 16) (((s.norPort q).expect + 4095) % 4096 % 16 * 16))).close) ∧
  (∀ (s : State) (words : List Nat) (fail : Option Nat) (e : Env) (f : NorFrame), s.norState 4 = NorS.active → frameGood
  (words.map (fun w => w % 2 ^ 32)) = true → frameOf (words.map (fun w => w % 2 ^ 32)) = f → f.ftype = NorT.bufIn → f.dst =
  s.rd F.NOR_STAT_DN → s.on F.NOR_STAT_NUMBERED = true → bits (words.getD 1 0 % 2 ^ 32) 20 12 = (s.norPort 4).expect →
  s.nor.port.length = 6 → s.host.mbxGo = false → Settles (.norFrameRx 4 words false false fail e) s (fun u => u.nor.bufIn =
  s.nor.bufIn ++ [(f.tag, f.payload.getD 0 0, f.payload.drop 1)] ∧ (u.norPort 4).expect = ((s.norPort 4).expect + 1) % 4096 ∧
  Out.norSet 4 0x30 ((s.norPort 4).expect / 16) ((s.norPort 4).expect % 16 * 16) ∈ u.out ∧
  { s with nor := u.nor, out := u.out } = u)) ∧
  (∀ (s : State) (q a0 a1 : Nat) (f : NorFrame), q < 6 → s.norUp q = true → (s.norPort q).replay = [(ackSeq a0 a1, f)] →
  (s.norPort q).waiting = [] → exec (.norAckRx q a0 a1) s = .next (s.setNorPort q
  { s.norPort q with replay := [], noProg := 0 }).close) ∧
  (∀ (s : State) (q a0 a1 : Nat), q < 6 → s.norUp q = true → (s.norPort q).replay ≠ [] → (s.norPort q).replay.any (fun x =>
  x.1 == ackSeq a0 a1) = false → (s.norPort q).noProg < 4 → s.nor.port.length = 6 → Settles (.norNakRx q a0 a1) s (fun u =>
  u.out = s.out ++ (s.norPort q).replay.map (fun x => Out.norFrame q (x.2.words x.1)) ∧ u.rd F.NOR_PORT_CNT_REPLAYS q = satU
  F.NOR_PORT_CNT_REPLAYS.w (s.rd F.NOR_PORT_CNT_REPLAYS q + 1) ∧ u.norPort q =
  { s.norPort q with noProg := (s.norPort q).noProg + 1 } ∧ { s with regs := u.regs, nor := u.nor, out := u.out } = u ∧
  RegsBut s u [(F.NOR_PORT_CNT_REPLAYS, q)])) ∧
  (∀ (s : State) (q : Nat), q < 6 → s.norUp q = true → (s.norPort q).replay ≠ [] → (s.norPort q).noProg < 4 → Settles
  (.norReplayTimeout q) s (fun u => u.out = s.out ++ (s.norPort q).replay.map (fun x => Out.norFrame q (x.2.words x.1)) ∧ u.rd
  F.NOR_PORT_CNT_REPLAYS q = satU F.NOR_PORT_CNT_REPLAYS.w (s.rd F.NOR_PORT_CNT_REPLAYS q + 1) ∧
  { s with regs := u.regs, nor := u.nor, out := u.out } = u ∧ RegsBut s u [(F.NOR_PORT_CNT_REPLAYS, q)])) ∧
  (∀ (s : State) (q : Nat), q < 6 → s.norUp q = true → (s.norPort q).replay ≠ [] → 4 ≤ (s.norPort q).noProg → Settles
  (.norReplayTimeout q) s (fun u => u.norState q = NorS.detect ∧ u.staged 162 ∧ u.condHolds 160 q = true ∧ u.mem = s.mem ∧
  u.ridge = s.ridge)) ∧
  (∀ (s : State) (q a0 a1 : Nat), q < 6 → s.norUp q = true → (s.norPort q).waiting = [] → exec (.crdRx q a0 a1) s = .next
  (s.setNorPort q { s.norPort q with grant := (s.norPort q).grant.set (bits a0 6 2) (bits a0 0 6 * 256 + a1 % 256) }).close)

/-- A device below the root takes the number, level and path of an ADDR frame; one that carries no number leaves it
unnumbered. The root that hears of a joined device of level 2 makes its number present. NOR_BIND_CLR frees the bindings of
absent level-3 devices. A direction enters N1 after an EI and leaves it with 16 TRN sets; N2 is asked for, granted when the
port is idle, refused otherwise, and left with a TRN set. An upstream end sends TSQ with its number, the downstream end
answers TSR, the upstream end then sends a TS frame with its stamps, and the downstream end keeps d and o. TREE_TIMEOUT clears
TREE_VALID with FS 165. -/
def Obligations.NoryrNumbersSleepAndTime : Prop :=
  (∀ (s : State) (w0 w1 : Nat), s.norUp portNU = true → s.norRoot = false → s.on F.NOR_STAT_NUMBERED = false → bit w0 8 =
  false → bits w0 6 2 < 3 → Settles (.norAddrRx w0 w1) s (fun u => u.rd F.NOR_STAT_DN = bits w0 0 6 ∧ u.rd F.NOR_STAT_LEVEL =
  bits w0 6 2 ∧ u.on F.NOR_STAT_NUMBERED = true ∧ u.nor.path = w1 % 64 ∧ u.mem = s.mem ∧ u.ridge = s.ridge)) ∧
  (∀ (s : State) (w0 w1 : Nat), s.norUp portNU = true → s.norRoot = false → s.on F.NOR_STAT_NUMBERED = false → bit w0 8 = true
  → Settles (.norAddrRx w0 w1) s (fun u => u.rd F.NOR_STAT_DN = 0 ∧ u.on F.NOR_STAT_NUMBERED = false ∧
  { s with regs := u.regs, nor := { s.nor with path := w1 % 64 } } = u ∧ RegsBut s u [(F.NOR_STAT_NUMBERED, 0),
  (F.NOR_STAT_DN, 0), (F.NOR_STAT_LEVEL, 0)])) ∧
  (∀ (s : State) (j w0 w1 : Nat), j < 4 → s.norUp j = true → s.norRoot = true → bits w0 0 4 = 2 → bits w0 4 3 < 4 → bits w0 14
  2 = 1 → Settles (.norLinkRx j w0 w1) s (fun u => bit (u.rd F.NOR_PRESENT_MASK) (5 + 4 * (w1 % 4) + bits w0 4 3) = true ∧
  u.mem = s.mem ∧ u.ridge = s.ridge)) ∧
  (∀ (s : State), s.norRoot = true → exec .norBindClr s = .next
  { s with nor := { s.nor with binds := s.nor.binds.filter (fun b => bit (s.rd F.NOR_PRESENT_MASK) b.2) } }.close) ∧
  (∀ (s : State) (q : Nat), q < 6 → s.norState q = NorS.active → (s.norPort q).n1 = true → s.on F.NOR_PORT_STAT_TX_N1 q =
  false → (s.norPort q).waiting = [] → Settles (.n1Enter q) s (fun u => u.on F.NOR_PORT_STAT_TX_N1 q = true ∧ u.out = s.out ++
  [Out.norSet q 0x50 0 0] ∧ { s with regs := u.regs, out := u.out } = u ∧ RegsBut s u [(F.NOR_PORT_STAT_TX_N1, q)])) ∧
  (∀ (s : State) (q : Nat), q < 6 → s.norState q = NorS.active → s.on F.NOR_PORT_STAT_TX_N1 q = true → (s.norPort q).waiting =
  [] → Settles (.n1Exit q false) s (fun u => u.on F.NOR_PORT_STAT_TX_N1 q = false ∧ u.out = s.out ++ List.replicate 16
  (Out.norSet q 0x10 0 0) ∧ { s with regs := u.regs, out := u.out } = u ∧ RegsBut s u [(F.NOR_PORT_STAT_TX_N1, q)])) ∧
  (∀ (s : State) (q : Nat), q < 6 → s.norState q = NorS.active → Settles (.n1Exit q true) s (fun u => u.on
  F.NOR_PORT_STAT_RX_N1 q = false ∧ OnlyRegs s u [(F.NOR_PORT_STAT_RX_N1, q)])) ∧
  (∀ (s : State) (q : Nat), q < 6 → s.norState q = NorS.active → (s.norPort q).n1 = true → Settles (.eiRx q) s (fun u => u.on
  F.NOR_PORT_STAT_RX_N1 q = true ∧ OnlyRegs s u [(F.NOR_PORT_STAT_RX_N1, q)])) ∧
  (∀ (s : State) (q : Nat), q < 6 → s.norState q = NorS.active → s.on F.NOR_PORT_STAT_N2_AGREED q = true → s.norUpper q = true
  → s.norIdle q = true → s.pair.clash = false → exec (.n2Request q) s = .next ((s.setNorPort q
  { s.norPort q with n2req := true }).emit (.norSet q 0x51 0 0)).close) ∧
  (∀ (s : State) (q : Nat), q < 6 → s.norState q = NorS.active → s.on F.NOR_PORT_STAT_N2_AGREED q = true → s.norIdle q = true
  → Settles (.n2reqRx q) s (fun u => u.norState q = NorS.n2 ∧ u.on F.NOR_PORT_STAT_TX_N1 q = false ∧ u.on
  F.NOR_PORT_STAT_RX_N1 q = false ∧ u.out = s.out ++ [Out.norSet q 0x52 0 0] ∧
  { s with regs := u.regs, nor := u.nor, out := u.out } = u ∧ RegsBut s u [(F.NOR_PORT_STAT_STATE, q), (F.NOR_PORT_STAT_TX_N1,
  q), (F.NOR_PORT_STAT_RX_N1, q)])) ∧
  (∀ (s : State) (q : Nat), q < 6 → s.norState q = NorS.active → s.norIdle q = false → exec (.n2reqRx q) s = .next (s.emit
  (.norSet q 0x53 0 0)).close) ∧
  (∀ (s : State) (q : Nat), q < 6 → s.norState q = NorS.active → (s.norPort q).n2req = true → s.nor.port.length = 6 → Settles
  (.n2ackRx q true) s (fun u => u.norState q = NorS.n2 ∧ (u.norPort q).n2req = false ∧ { s with regs := u.regs, nor := u.nor }
  = u ∧ RegsBut s u [(F.NOR_PORT_STAT_STATE, q), (F.NOR_PORT_STAT_TX_N1, q), (F.NOR_PORT_STAT_RX_N1, q)])) ∧
  (∀ (s : State) (q : Nat), q < 6 → s.norState q = NorS.active → (s.norPort q).n2req = true → (s.norPort q).waiting = [] →
  exec (.n2ackRx q false) s = .next (s.setNorPort q { s.norPort q with n2req := false }).close) ∧
  (∀ (s : State) (q : Nat), q < 6 → s.norState q = NorS.n2 → s.on F.NOR_PORT_STAT_TX_N1 q = false → (s.norPort q).waiting = []
  → Settles (.n2Exit q) s (fun u => u.norState q = NorS.active ∧ u.out = s.out ++ [Out.norSet q 0x10 0 0] ∧
  { s with regs := u.regs, out := u.out } = u ∧ RegsBut s u [(F.NOR_PORT_STAT_STATE, q)])) ∧
  (∀ (s : State) (q t1 : Nat), q < 4 → s.norState q = NorS.active → s.on F.NOR_PORT_STAT_TX_N1 q = false → (s.norPort
  q).waiting = [] → exec (.tsExchangeDue q t1) s = .next ((s.setNorPort q
  { s.norPort q with xch := ((s.norPort q).xch + 1) % 256, ask := some ((s.norPort q).xch, t1 % 2 ^ 64) }).emit (.norSet q
  0x40 (s.norPort q).xch 0)).close) ∧
  (∀ (s : State) (xch t2 t3 : Nat), s.norState portNU = NorS.active → s.on F.NOR_PORT_STAT_TX_N1 portNU = false → (s.norPort
  portNU).waiting = [] → exec (.tsqRx portNU xch t2 t3) s = .next ((s.setNorPort portNU
  { s.norPort portNU with ans := some (xch % 256, t2 % 2 ^ 64, t3 % 2 ^ 64) }).emit (.norSet portNU 0x41 (xch % 256)
  0)).close) ∧
  (∀ (s : State) (q xch t4 t1 : Nat), q < 4 → s.norState q = NorS.active → s.on F.NOR_PORT_STAT_TX_N1 q = false → (s.norPort
  q).ask = some (xch % 256, t1) → (s.norPort q).waiting = [] → (s.norPort q).replay = [] → 1 ≤ (s.norPort q).credit 3 →
  s.nor.port.length = 6 → Settles (.tsrRx q xch t4) s (fun u => (u.norPort q).ask = none ∧ (∃ tree, Out.norFrame q
  ((NorFrame.mk NorT.ts 0 0 0 [(s.on F.NOR_STAT_TREE_VALID && s.nor.hold == 0).toNat * 256 + xch % 256, t1 % 2 ^ 32, t1 / 2 ^
  32, t4 % 2 ^ 64 % 2 ^ 32, t4 % 2 ^ 64 / 2 ^ 32, tree % 2 ^ 32, tree / 2 ^ 32]).words (s.norPort q).seq) ∈ u.out) ∧
  { s with nor := u.nor, out := u.out } = u)) ∧
  (∀ (s : State) (q : Nat) (ws : List Nat) (t2 t3 : Nat), q = portNU ∨ q = portNP → s.norUp q = true → s.norUpper q = false →
  (s.norPort q).ans = some (ws.getD 0 0 % 2 ^ 32 % 256, t2, t3) → (s.norPort q).kept = [] → s.inF F.NOR_CTL_TS_AVG ≠ 0 →
  s.nor.port.length = 6 → Settles (.tsRx q ws) s (fun u => (u.norPort q).ans = none ∧ (∃ k, (u.norPort q).kept = [k] ∧ k.t2 =
  t2 ∧ 2 * k.d = ridgeDist t2 (ws.getD 1 0 % 2 ^ 32 + ws.getD 2 0 % 2 ^ 32 * 2 ^ 32) + ridgeDist (ws.getD 3 0 % 2 ^ 32 +
  ws.getD 4 0 % 2 ^ 32 * 2 ^ 32) t3 ∧ 2 * k.o = ridgeDist t2 (ws.getD 1 0 % 2 ^ 32 + ws.getD 2 0 % 2 ^ 32 * 2 ^ 32) -
  ridgeDist (ws.getD 3 0 % 2 ^ 32 + ws.getD 4 0 % 2 ^ 32 * 2 ^ 32) t3 - toS 32 (s.inF F.NOR_PORT_ASYM_VALUE q)) ∧ u.mem =
  s.mem ∧ u.ridge = s.ridge)) ∧
  (∀ (s : State), s.norRoot = false → s.on F.NOR_STAT_TREE_VALID = true → s.nor.port.length = 6 → Settles .treeTimeout s (fun
  u => u.on F.NOR_STAT_TREE_VALID = false ∧ u.condHolds 165 = true ∧ (u.norPort portNU).valid = 0 ∧
  { s with regs := u.regs, nor := u.nor, fcu := u.fcu } = u ∧ RegsBut s u [(F.NOR_STAT_TREE_VALID, 0)]))

/-- Enabling a member whose pair slate is usable and whose NP port is enabled puts it in SEARCH; a member that fails the check
stays disabled with FS 175; disabling a member without the token stops it. A holder whose lease has ended releases the token
(FS 169 cause 1) and searches. The end of the guard, or 18 beats of SEARCH with no partner, makes the member ACTIVE with an
epoch one above the greater and 16 beats of lease; a guard take counts and raises FS 168. After a double hold the lower epoch
releases and the higher keeps the token. A handover acknowledged by its edge moves the token and completes its command; one
that is not is abandoned with BUSY_RETRY. PAIR_TAKE, PAIR_YIELD and PAIR_TEST are accepted only in the states that their table
names. -/
def Obligations.MembersTakeAndReleaseTheToken : Prop :=
  (∀ (s : State) (req w : Nat), Admitted s req → s.on F.PAIR_CTL_EN = false → s.pairState = PairS.disabled → bits w 16 16 ≠ 0
  → s.slateUse (bits w 8 8) Usage.pair true = Code.ok → bits w 8 8 < 16 ∨ s.on F.SLATE_ATTR_NO_EXPORT (bits w 8 8) = true →
  s.on F.NOR_PORT_CTL_EN portNP = true → Settles (.pairEnable req w) s (fun u => u.pairState = PairS.search ∧ u.on
  F.PAIR_CTL_EN = true ∧ u.rd F.PAIR_CTL_MEMBER = bits w 1 1 ∧ u.rd F.PAIR_LEASE_OWN_LEFT = 0 ∧ u.rd F.PAIR_CNT_TAKEOVERS = 0
  ∧ u.mem = s.mem ∧ u.ridge = s.ridge)) ∧
  (∀ (s : State) (req w : Nat), Admitted s req → s.on F.PAIR_CTL_EN = false → s.pairState = PairS.disabled → s.on
  F.NOR_PORT_CTL_EN portNP = false → Settles (.pairEnable req w) s (fun u => u.pairState = PairS.disabled ∧ u.on F.PAIR_CTL_EN
  = false ∧ u.staged 175 ∧ u.mem = s.mem ∧ u.ridge = s.ridge)) ∧
  (∀ (s : State) (req w : Nat), Admitted s req → s.on F.PAIR_CTL_EN = true → s.pairState ≠ PairS.stopping → s.holds = false →
  s.pair.ho = none → s.pair.force = [] → Settles (.pairDisable req w) s (fun u => u.pairState = PairS.stopping ∧ u.on
  F.PAIR_CTL_EN = false ∧ u.pair.entries = [] ∧ u.mem = s.mem ∧ u.ridge = s.ridge)) ∧
  (∀ (s : State), s.pairState = PairS.stopping → s.on F.PAIR_STAT_PENDING_ENABLE = false → Settles .pairStopDone s (fun u =>
  u.pairState = PairS.disabled ∧ u.on F.PAIR_STAT_READY = false ∧ OnlyRegs s u [(F.PAIR_STAT_STATE, 0), (F.PAIR_STAT_READY,
  0)])) ∧
  (∀ (s : State), s.holds = true → s.rd F.PAIR_LEASE_OWN_LEFT = 0 → Settles .leaseExpiry s (fun u => u.holds = false ∧
  u.pairState = PairS.search ∧ u.pins.token = false ∧ u.staged 169 1 ∧ u.mem = s.mem ∧ u.ridge = s.ridge)) ∧
  (∀ (s : State), s.pairState = PairS.sync ∨ s.pairState = PairS.standby → s.rd F.PAIR_LEASE_PARTNER_LEFT = 0 → s.on
  F.PAIR_STAT_TOKEN_IN = false → s.on F.TOP_STAT_SAFE = false → Settles .guardEnd s (fun u => u.holds = true ∧ u.pairState =
  PairS.active ∧ u.pins.token = true ∧ u.rd F.PAIR_LEASE_OWN_LEFT = 16 ∧ u.rd F.PAIR_EPOCH_EPOCH = ((if diff16 (s.rd
  F.PAIR_EPOCH_EPOCH) (s.rd F.PAIR_EPOCH_PARTNER_EPOCH) < 0 then s.rd F.PAIR_EPOCH_PARTNER_EPOCH else s.rd F.PAIR_EPOCH_EPOCH)
  + 1) % 2 ^ 16 ∧ u.staged 168 ∧ u.rd F.PAIR_CNT_TAKEOVERS = satU F.PAIR_CNT_TAKEOVERS.w (s.rd F.PAIR_CNT_TAKEOVERS + 1) ∧
  u.ridge = s.ridge)) ∧
  (∀ (s : State), s.pairState = PairS.test → s.sort.tests ≠ [] → s.rd F.PAIR_LEASE_PARTNER_LEFT = 0 → s.on
  F.PAIR_STAT_TOKEN_IN = false → s.on F.TOP_STAT_SAFE = false → Settles .guardEnd s (fun u => u.pair.testTake = true ∧ (∀ x ∈
  u.sort.tests, x.cut = true) ∧ u.regs = s.regs ∧ u.mem = s.mem ∧ u.ridge = s.ridge)) ∧
  (∀ (s : State), s.pairState = PairS.search → 18 ≤ s.pair.join → s.on F.PAIR_STAT_TOKEN_IN = false → s.on F.TOP_STAT_SAFE =
  false → Settles .joinTimeout s (fun u => u.holds = true ∧ u.pairState = PairS.active ∧ u.pins.token = true ∧ u.rd
  F.PAIR_LEASE_OWN_LEFT = 16 ∧ u.ridge = s.ridge)) ∧
  (∀ (s : State), s.pair.double = some true → s.holds = true → diff16 (s.rd F.PAIR_EPOCH_EPOCH) (s.rd
  F.PAIR_EPOCH_PARTNER_EPOCH) < 0 → Settles .doubleHoldResolve s (fun u => u.holds = false ∧ u.pairState = PairS.search ∧
  u.pins.token = false ∧ u.staged 169 5 ∧ u.pair.double = none ∧ u.mem = s.mem ∧ u.ridge = s.ridge)) ∧
  (∀ (s : State), s.pair.double = some true → 0 < diff16 (s.rd F.PAIR_EPOCH_EPOCH) (s.rd F.PAIR_EPOCH_PARTNER_EPOCH) → exec
  .doubleHoldResolve s = .next { s with pair := { s.pair with double := none } }.close) ∧
  (∀ (s : State) (seq cause : Nat) (mine : Bool), s.pair.ho = some ⟨seq, mine, true, cause, none⟩ → seq = s.holderBeat →
  s.holds = true → Settles .handoverEdge s (fun u => u.holds = false ∧ u.pairState = PairS.standby ∧ u.pins.token = false ∧
  u.pair.ho = none ∧ u.rd F.PAIR_LEASE_PARTNER_LEFT = 18 ∧ u.rd F.PAIR_CNT_HANDOVERS = satU F.PAIR_CNT_HANDOVERS.w (s.rd
  F.PAIR_CNT_HANDOVERS + 1) ∧ u.mem = s.mem ∧ u.ridge = s.ridge)) ∧
  (∀ (s : State) (seq cause : Nat) (c : CmdRef), s.pair.ho = some ⟨seq, true, true, cause, some c⟩ → seq = s.holderBeat →
  s.holds = false → s.pairState = PairS.standby → s.on F.TOP_STAT_SAFE = false → Replies .handoverEdge s c (fun u => u.holds =
  true ∧ u.pairState = PairS.active ∧ u.pins.token = true ∧ u.pair.ho = none ∧ u.ridge = s.ridge)) ∧
  (∀ (s : State) (seq cause : Nat) (c : CmdRef), s.pair.ho = some ⟨seq, true, false, cause, some c⟩ → seq = s.holderBeat →
  exec .handoverEdge s = .next ({ s with pair := { s.pair with ho := none } }.finish c Code.busyRetry).close) ∧
  (∀ (s : State), s.pairState = PairS.standby → s.inF F.PAIR_CTL_REVERT = 1 → s.rd F.PAIR_CTL_MEMBER = s.rd
  F.PAIR_CTL_PREF_MEMBER → s.rd F.PAIR_STAT_WTR_LEFT = 0 → s.on F.PAIR_STAT_PARTNER_HOLDER = true → s.pair.ho = none → exec
  .revertStart s = .next
  { s with pair := { s.pair with ho := some ⟨(s.holderBeat + 4) % 2 ^ 32, true, false, 3, none⟩ } }.close) ∧
  (∀ (s : State) (c : CmdRef) (w0 : Nat), s.on F.PAIR_CTL_EN = false ∨ s.holds = true → Refuses (.pairTake c w0) s c
  Code.badParam) ∧
  (∀ (s : State) (c : CmdRef) (w0 : Nat), s.on F.PAIR_CTL_EN = true → s.holds = false → bit w0 0 = false → s.pairState =
  PairS.standby → s.pair.ho = none → exec (.pairTake c w0) s = .next
  { s with pair := { s.pair with ho := some ⟨(s.holderBeat + 4) % 2 ^ 32, true, false, 2, some c⟩ } }.close) ∧
  (∀ (s : State) (c : CmdRef) (w0 : Nat), s.on F.PAIR_CTL_EN = true → s.holds = false → bit w0 0 = true → s.norUp portNP =
  true ∨ s.pins.tokenIn = false → exec (.pairTake c w0) s = .next
  { s with pair := { s.pair with force := s.pair.force ++ [c] } }.close) ∧
  (∀ (s : State) (c : CmdRef), s.holds = false → Refuses (.pairYield c) s c Code.notTokenHolder) ∧
  (∀ (s : State) (c : CmdRef), s.holds = true → s.on F.PAIR_STAT_PARTNER_READY = false → Refuses (.pairYield c) s c
  Code.busyRetry) ∧
  (∀ (s : State) (c : CmdRef), s.holds = true → s.on F.PAIR_STAT_PARTNER_READY = true → s.pair.ho = none → exec (.pairYield c)
  s = .next
  { s with pair := { s.pair with ho := some ⟨(s.rd F.RIDGE_BEAT_SEQ_SEQ + 4) % 2 ^ 32, true, false, 2, some c⟩ } }.close) ∧
  (∀ (s : State) (c : CmdRef) (w0 : Nat), bit w0 0 = true → s.pairState = PairS.standby → Replies (.pairTest c w0) s c (fun u
  => u.pairState = PairS.test ∧ u.on F.PAIR_STAT_READY = false ∧ OnlyRegs s u [(F.PAIR_STAT_STATE, 0), (F.PAIR_STAT_READY,
  0)])) ∧
  (∀ (s : State) (c : CmdRef) (w0 : Nat), bit w0 0 = false → s.pairState = PairS.test → Replies (.pairTest c w0) s c (fun u =>
  u.pairState = PairS.sync ∧ u.pair.good = 0 ∧ u.mem = s.mem ∧ u.ridge = s.ridge)) ∧
  (∀ (s : State) (c : CmdRef) (w0 : Nat), s.pairState ≠ PairS.standby → s.pairState ≠ PairS.test → Refuses (.pairTest c w0) s
  c Code.badParam)

/-- A STATUS frame whose tag and counter are right shows the partner's state, readiness, holder and epoch, and a holder's
STATUS renews the guard to 18 beats. A frame of another kind before any IV epoch is known is discarded, counted, and raises FS
171 once in a beat. A mirrored TIME_STEP is queued at the edge it names and kept until then. A member that has met the
conditions of R473 aligns its outputs and then enters STANDBY with READY set and WTR_LEFT loaded. The digest is recomputed
over the covered regions; the padding after a take ends. -/
def Obligations.StandbysFollowTheMirrorAndBecomeReady : Prop :=
  (∀ (s : State) (hd body tag : List Nat) (b c0 c1 : Nat), s.norUp portNP = true → s.pairState ≠ PairS.disabled → s.pairState
  ≠ PairS.stopping → s.pairKeyed = true → hd.length = 2 → body.length = 10 → tag.length = 4 → ∀ w ∈ hd ++ [b, c0, c1] ++ body
  ++ tag, w < 2 ^ 32 → bits b 28 4 = 0 → s.pair.rxIv = none → s.pair.expB = none → s.mirrorTag (body.getD 3 0) hd ([b, c0, c1]
  ++ body) = wordBytes tag → s.holds = false → bits (body.getD 0 0) 25 1 ≠ s.rd F.PAIR_CTL_MEMBER → Settles (.mirrorRx (hd ++
  [b, c0, c1] ++ body ++ tag)) s (fun u => u.rd F.PAIR_STAT_PARTNER_STATE = bits (body.getD 0 0) 28 3 ∧ u.on
  F.PAIR_STAT_PARTNER_HOLDER = bit (body.getD 0 0) 27 ∧ u.on F.PAIR_STAT_PARTNER_READY = bit (body.getD 0 0) 26 ∧ u.on
  F.PAIR_STAT_PARTNER_PRESENT = true ∧ u.rd F.PAIR_EPOCH_PARTNER_EPOCH = bits (body.getD 1 0) 16 16 ∧ (bit (body.getD 0 0) 27
  = true → u.rd F.PAIR_LEASE_PARTNER_LEFT = 18) ∧ u.pair.last = some ⟨bits b 0 20, body⟩ ∧ u.mem = s.mem ∧ u.ridge = s.ridge)) ∧
  (∀ (s : State) (ws : List Nat), s.norUp portNP = true → s.pairState ≠ PairS.disabled → s.pairState ≠ PairS.stopping →
  s.pairKeyed = true → bits (ws.getD 2 0 % 2 ^ 32) 28 4 ≠ 0 → s.pair.rxIv = none → s.pair.said.contains 171 = false → Settles
  (.mirrorRx ws) s (fun u => u.rd F.PAIR_CNT2_AUTH_FAIL = satU F.PAIR_CNT2_AUTH_FAIL.w (s.rd F.PAIR_CNT2_AUTH_FAIL + 1) ∧
  u.staged 171 ∧ u.pair.said = s.pair.said ++ [171] ∧ { s with regs := u.regs, pair := u.pair, fcu := u.fcu } = u ∧ RegsBut s
  u [(F.PAIR_CNT2_AUTH_FAIL, 0)])) ∧
  (∀ (s : State) (edge : Nat) (p : List Nat), s.holds = false → s.pair.entries = [.cmd 0x0301 edge p] → diff20 edge
  s.pair.holdB ≤ 0 → Settles .mirrorCmdApply s (fun u => u.pair.entries = [] ∧ u.ridge.steps = s.ridge.steps ++
  [{ ref := mirRef, dom := bits (p.getD 0 0) 0 1, applySec := false, useReq := false, step := toS 64 (p.getD 1 0 + p.getD 2 0 * 2 ^ 32) }]
  ∧ { s with ridge := { s.ridge with steps := u.ridge.steps }, pair := { s.pair with entries := [] } } = u)) ∧
  (∀ (s : State) (edge op : Nat) (p : List Nat), s.pair.entries = [.cmd op edge p] → 0 < diff20 edge s.pair.holdB → exec
  .mirrorCmdApply s = .next s.close) ∧
  (∀ (s : State), s.pairFit = true → s.on F.PAIR_CTL_SYNC_ALIGN = true → s.pair.align = 0 → ∀ o, o < 24 → s.alignable o =
  false → exec .syncAlign s = .next { s with pair := { s.pair with align := 1 } }.close) ∧
  (∀ (s : State), s.pairFit = true → s.on F.PAIR_CTL_SYNC_ALIGN = true → s.alignDone = true → Settles .standbyEnter s (fun u
  => u.pairState = PairS.standby ∧ u.on F.PAIR_STAT_READY = true ∧ u.rd F.PAIR_STAT_WTR_LEFT = s.inF F.PAIR_CTL_WTR % 2 ^ 16 ∧
  { s with regs := u.regs, pair := { s.pair with align := 2, wtr := 0 } } = u ∧ RegsBut s u [(F.PAIR_STAT_STATE, 0),
  (F.PAIR_STAT_READY, 0), (F.PAIR_STAT_WTR_LEFT, 0)])) ∧
  (∀ (s : State), Settles .digestRecompute s (fun u => u.rd F.PAIR_DIGEST_DIGEST = s.cfgDigest % 2 ^ 32 ∧ OnlyRegs s u
  [(F.PAIR_DIGEST_DIGEST, 0)])) ∧
  (∀ (s : State), exec .takePadEnd s = .next { s with pair := { s.pair with padLeft := 0 } }.close)

/-- A 32-bit write of a scratch register changes that register alone. A 64-bit write of the target of a disabled comparator is
one atomic write. A narrow write answers BAD_SIZE with FS 2, an unaligned one BAD_ALIGN with FS 3, one word of a paired
register BAD_SIZE; a reserved location ignores the write with FS 5; each is counted, and the first refusal is kept in
TOP_ACC_ERR. Before READY a write from the host ports outside the HOST block changes nothing. A write of an alias word changes
one bit. A crossing that is abandoned raises FS 6, and the write has taken effect or not, as it says. TOP_ACC_ACK clears what
was recorded. -/
def Obligations.RegisterAccessesAreJudgedAndApplied : Prop :=
  (∀ (s : State) (req k data : Nat) (e : Env), k < 4 → Admitted s req → e.late = [] → s.host.mbxGo = false → Settles
  (.registerWrite req (0x10 + 4 * k) 2 data e) s (fun u => u.rd F.TOP_SCRATCH_DATA k = data % 2 ^ 32 ∧ OnlyRegs s u
  [(F.TOP_SCRATCH_DATA, k)])) ∧
  (∀ (s : State) (req k data : Nat) (e : Env), k < 32 → Admitted s req → s.on F.RIDGE_CMP_CTL_EN k = false → e.late = [] →
  s.host.mbxGo = false → Settles (.registerWrite req (0x4208 + 32 * k) 3 data e) s (fun u => u.rd F.RIDGE_CMP_TGT_VALUE k =
  data % 2 ^ 64 ∧ OnlyRegs s u [(F.RIDGE_CMP_TGT_VALUE, k)])) ∧
  (∀ (s : State) (req addr size data : Nat) (e : Env), size < 2 → addr % 2 ^ size = 0 → s.on F.TOP_ACC_ERR_CODE = false →
  s.host.mbxGo = false → Settles (.registerWrite req addr size data e) s (fun u => u.staged 2 (Acs.snap ⟨req, addr, size,
  true⟩) ∧ u.rd F.TOP_ACC_CNT1_SIZE = satU F.TOP_ACC_CNT1_SIZE.w (s.rd F.TOP_ACC_CNT1_SIZE + 1) ∧ u.rd F.TOP_ACC_ERR_CODE =
  Code.badSize ∧ u.rd F.TOP_ACC_ERR_ADDR = addr % 2 ^ 24 ∧ u.rd F.TOP_ACC_INFO_REQ = req % 8 ∧ u.rd F.TOP_ACC_INFO_SIZE = size
  ∧ u.on F.TOP_ACC_INFO_WRITE = true ∧ OnlyRegsFcu s u ([F.TOP_ACC_CNT1_SIZE, F.TOP_ACC_ERR_CODE, F.TOP_ACC_ERR_ADDR,
  F.TOP_ACC_INFO_REQ, F.TOP_ACC_INFO_SIZE, F.TOP_ACC_INFO_WRITE].map (fun f => (f, 0))))) ∧
  (∀ (s : State) (req addr data : Nat) (e : Env), addr % 4 ≠ 0 → s.on F.TOP_ACC_ERR_CODE = true → s.host.mbxGo = false →
  Settles (.registerWrite req addr 2 data e) s (fun u => u.staged 3 (Acs.snap ⟨req, addr, 2, true⟩) ∧ u.rd
  F.TOP_ACC_CNT1_ALIGN = satU F.TOP_ACC_CNT1_ALIGN.w (s.rd F.TOP_ACC_CNT1_ALIGN + 1) ∧ OnlyRegsFcu s u [(F.TOP_ACC_CNT1_ALIGN,
  0)])) ∧
  (∀ (s : State) (req addr data : Nat) (e : Env), addr % 4 = 0 → isPaired addr = true → s.host.mbxGo = false → Settles
  (.registerWrite req addr 2 data e) s (fun u => u.staged 2 (Acs.snap ⟨req, addr, 2, true⟩) ∧ u.rd F.TOP_ACC_CNT1_SIZE = satU
  F.TOP_ACC_CNT1_SIZE.w (s.rd F.TOP_ACC_CNT1_SIZE + 1) ∧ { s with regs := u.regs, fcu := u.fcu } = u)) ∧
  (∀ (s : State) (req addr data : Nat) (e : Env), addr % 4 = 0 → 0x20000 ≤ addr ∧ addr < 0x200000 → isPaired addr = false →
  Admitted s req → e.late = [] → s.host.mbxGo = false → Settles (.registerWrite req addr 2 data e) s (fun u => u.staged 5
  (Acs.snap ⟨req, addr, 2, true⟩) ∧ u.rd F.TOP_ACC_CNT1_RSVD_WR = satU F.TOP_ACC_CNT1_RSVD_WR.w (s.rd F.TOP_ACC_CNT1_RSVD_WR +
  1) ∧ OnlyRegsFcu s u [(F.TOP_ACC_CNT1_RSVD_WR, 0)])) ∧
  (∀ (s : State) (req addr data : Nat) (e : Env), addr % 4 = 0 → addr < 0x18000 → isPaired addr = false → req = 3 ∨ req = 4 →
  s.on F.TOP_STAT_READY = false → s.host.mbxGo = false → exec (.registerWrite req addr 2 data e) s = .next s.close) ∧
  (∀ (s : State) (req k b v : Nat) (e : Env), k < 4 → b < 32 → Admitted s req → e.late = [] → s.host.mbxGo = false → Settles
  (.aliasWrite req (0x10 + 4 * k) b v e) s (fun u => (∀ j, j < 32 → bit (u.rd F.TOP_SCRATCH_DATA k) j = if j = b then bit v 0
  else bit (s.rd F.TOP_SCRATCH_DATA k) j) ∧ OnlyRegs s u [(F.TOP_SCRATCH_DATA, k)])) ∧
  (∀ (s : State) (k data : Nat) (applied : Bool) (e : Env), k < 4 → s.on F.TOP_STAT_READY = true → s.on F.TOP_ACC_ERR_CODE =
  false → s.host.mbxGo = false → Settles (.crossingTimeout 3 (0x10 + 4 * k) 2 true applied data e) s (fun u => u.staged 6
  (Acs.snap ⟨3, 0x10 + 4 * k, 2, true⟩) ∧ u.rd F.TOP_SCRATCH_DATA k = (if applied then data % 2 ^ 32 else s.rd
  F.TOP_SCRATCH_DATA k) ∧ u.rd F.TOP_ACC_ERR_CODE = Code.deviceTimeout ∧ 255 ≤ u.rd F.TOP_XDOM_HWM_HOST ∧
  { s with regs := u.regs, fcu := u.fcu } = u)) ∧
  (∀ (s : State) (addr data : Nat) (applied : Bool) (e : Env), addr % 4 = 0 → isPaired addr = false → s.on F.TOP_ACC_ERR_CODE
  = false → s.host.mbxGo = false → Settles (.crossingTimeout 4 addr 2 false applied data e) s (fun u => u.staged 6 (Acs.snap
  ⟨4, addr, 2, false⟩) ∧ u.rd F.TOP_ACC_ERR_CODE = Code.deviceTimeout ∧ u.host.mspiCode = Code.deviceTimeout ∧ u.host.mspiCnt
  = min 255 (s.host.mspiCnt + 1) ∧ u.mem = s.mem ∧ u.ridge = s.ridge)) ∧
  (∀ (s : State), Settles .topAccAck s (fun u => (∀ f ∈ [F.TOP_ACC_ERR_CODE, F.TOP_ACC_ERR_ADDR, F.TOP_ACC_INFO_REQ,
  F.TOP_ACC_INFO_SIZE, F.TOP_ACC_INFO_WRITE, F.TOP_ACC_CNT0_LOCKED, F.TOP_ACC_CNT0_RANGE, F.TOP_ACC_CNT1_SIZE,
  F.TOP_ACC_CNT1_ALIGN, F.TOP_ACC_CNT1_ONCE, F.TOP_ACC_CNT1_RSVD_WR, F.TOP_XDOM_HWM_GNSS, F.TOP_XDOM_HWM_SDS,
  F.TOP_XDOM_HWM_MEAS, F.TOP_XDOM_HWM_HOST], u.rd f = 0) ∧ { s with regs := u.regs } = u ∧ u.rd F.TOP_SCRATCH_DATA 0 = s.rd
  F.TOP_SCRATCH_DATA 0))

/-- FCU_ACK with the number of a valid record frees that record alone, clears the pending bit and the count of its source, and
keeps the number; a number that no valid record has answers BAD_PARAM with FS 1. ACK_ALL frees every record and clears every
count and overflow. A configuration byte takes what is written, and a live source keeps the severity it was judged under until
it is judged again; fixed and reserved sources take no write, and none do under CFG_LOCK, with FS 0. FCU_LOCK takes its first
write; a second raises FS 4. FCU_FORCE raises the source with FCU_FORCE_SNAP, and an S3 source only under FORCE_S3. Eight
beats without a mark raise FS 224. -/
def Obligations.FaultsAreAcknowledgedConfiguredAndForced : Prop :=
  (∀ (s : State) (req w k : Nat), Admitted s req → w % 2 ^ 32 ≠ 0 → s.recOf (w % 2 ^ 32) = some k → Settles (.fcuAck req w) s
  (fun u => u.on F.FCU_REC_W0_VALID k = false ∧ u.on F.FCU_PEND_BIT (s.rd F.FCU_REC_W0_SRC k) = false ∧ u.rd F.FCU_CNT_COUNT
  (s.rd F.FCU_REC_W0_SRC k) = 0 ∧ u.rd F.FCU_ACK_SEQ = w % 2 ^ 32 ∧ (∀ j, j ≠ k → u.on F.FCU_REC_W0_VALID j = s.on
  F.FCU_REC_W0_VALID j) ∧ { s with regs := u.regs } = u)) ∧
  (∀ (s : State) (req w : Nat), Admitted s req → w % 2 ^ 32 = 0 ∨ s.recOf (w % 2 ^ 32) = none → Settles (.fcuAck req w) s (fun
  u => u.staged 1 (Acs.snap ⟨req, 0x100C, 2, true⟩) ∧ u.rd F.FCU_ACK_SEQ = s.rd F.FCU_ACK_SEQ ∧ (∀ j, u.on F.FCU_REC_W0_VALID
  j = s.on F.FCU_REC_W0_VALID j) ∧ { s with regs := u.regs, fcu := u.fcu } = u)) ∧
  (∀ (s : State) (req w : Nat), Admitted s req → Settles (.ackAll req w) s (fun u => (∀ k, k < 64 → u.on F.FCU_REC_W0_VALID k
  = false) ∧ (∀ fs, fs < 400 → u.rd F.FCU_CNT_COUNT fs = 0) ∧ u.rd F.FCU_OVF_NOREC = 0 ∧ u.rd F.FCU_OVF_ESC = 0 ∧ u.on
  F.FCU_SELF_VALID = false ∧ { s with regs := u.regs, fcu := u.fcu } = u)) ∧
  (∀ (s : State) (req i w b : Nat), Admitted s req → i < 100 → b < 4 → cfgFixed (4 * i + b) = false → s.on F.FCU_LOCK_CFG_LOCK
  = false → Settles (.fcuCfgWrite req i w) s (fun u => u.rd F.FCU_CFG_SEV (4 * i + b) = bits w (8 * b) 2 ∧ u.on F.FCU_CFG_REC
  (4 * i + b) = bit w (8 * b + 2) ∧ u.on F.FCU_CFG_EVT (4 * i + b) = bit w (8 * b + 3) ∧ u.rd F.FCU_CFG_SCOPE (4 * i + b) =
  bits w (8 * b + 4) 2 ∧ u.on F.FCU_CFG_WH (4 * i + b) = bit w (8 * b + 6) ∧ u.on F.FCU_CFG_ESC (4 * i + b) = bit w (8 * b +
  7) ∧ (s.isLive (4 * i + b) = true → (4 * i + b, s.liveSev (4 * i + b)) ∈ u.fcu.rejudge) ∧
  { s with regs := u.regs, fcu := { s.fcu with rejudge := u.fcu.rejudge } } = u)) ∧
  (∀ (s : State) (req i w b : Nat), Admitted s req → i < 100 → b < 4 → cfgFixed (4 * i + b) = true → Settles (.fcuCfgWrite req
  i w) s (fun u => u.rd F.FCU_CFG_SEV (4 * i + b) = s.rd F.FCU_CFG_SEV (4 * i + b) ∧ u.rd F.FCU_CFG_SCOPE (4 * i + b) = s.rd
  F.FCU_CFG_SCOPE (4 * i + b) ∧ u.mem = s.mem ∧ u.ridge = s.ridge)) ∧
  (∀ (s : State) (req i w b : Nat), Admitted s req → i < 100 → b < 4 → cfgFixed (4 * i + b) = false → s.on F.FCU_LOCK_CFG_LOCK
  = true → bits w (8 * b) 2 ≠ s.rd F.FCU_CFG_SEV (4 * i + b) → Settles (.fcuCfgWrite req i w) s (fun u => u.rd F.FCU_CFG_SEV
  (4 * i + b) = s.rd F.FCU_CFG_SEV (4 * i + b) ∧ u.staged 0 (Acs.snap ⟨req, 0x1100 + 4 * i, 2, true⟩) ∧ u.mem = s.mem ∧
  u.ridge = s.ridge)) ∧
  (∀ (s : State) (req w : Nat), Admitted s req → s.once.contains 0x1010 = false → Settles (.cfgLockWrite req w) s (fun u =>
  u.on F.FCU_LOCK_CFG_LOCK = bit w 0 ∧ u.once = s.once ++ [0x1010] ∧ { s with regs := u.regs, once := u.once } = u ∧ RegsBut s
  u [(F.FCU_LOCK_CFG_LOCK, 0)])) ∧
  (∀ (s : State) (req w : Nat), Admitted s req → s.once.contains 0x1010 = true → Settles (.cfgLockWrite req w) s (fun u =>
  u.on F.FCU_LOCK_CFG_LOCK = s.on F.FCU_LOCK_CFG_LOCK ∧ u.staged 4 (Acs.snap ⟨req, 0x1010, 2, true⟩) ∧ u.once = s.once ∧
  { s with regs := u.regs, fcu := u.fcu } = u)) ∧
  (∀ (s : State) (req j b : Nat), Admitted s req → j < 13 → b < 32 → cfgFixed (32 * j + b) = false → s.rd F.FCU_CFG_SEV (32 *
  j + b) ≠ 3 ∨ s.on F.FCU_CTL_FORCE_S3 = true → Settles (.fcuForce req j (2 ^ b)) s (fun u => u.fcu.occs = s.fcu.occs ++ [⟨32
  * j + b, s.rd F.FCU_FORCE_SNAP_SNAP, true⟩] ∧ u.isLive (32 * j + b) = true ∧
  { s with fcu := { s.fcu with occs := u.fcu.occs, evts := u.fcu.evts } } = u)) ∧
  (∀ (s : State) (req j b : Nat), Admitted s req → j < 13 → b < 32 → cfgFixed (32 * j + b) = false → s.rd F.FCU_CFG_SEV (32 *
  j + b) = 3 → s.on F.FCU_CTL_FORCE_S3 = false → Settles (.fcuForce req j (2 ^ b)) s (fun u => u.staged 0 (Acs.snap ⟨req,
  0x10C0 + 4 * j, 2, true⟩) ∧ (∀ x ∈ u.fcu.occs, x.forced = true → x ∈ s.fcu.occs) ∧ { s with regs := u.regs, fcu := u.fcu } =
  u)) ∧
  (∀ (s : State), 8 ≤ s.fcu.noMark → Settles .stallDetect s (fun u => u.staged 224 ∧ u.fcu.noMark = 0 ∧
  { s with fcu := u.fcu } = u))

/-- A rail that leaves its window clears its bit of TOP_SUPPLY, and once the FCU runs its source holds until the rail returns;
the same of VBAT below 1.8 V, a lost XO_IN, an unlocked core PLL and a stopped RTC oscillator. A write of TOP_RTC_SEC sets the
second and VALID. A loss or power-up of VBAT clears the RTC's VALID, the persistent slates and the hints, and shows VBAT_LOST.
An island ramps up, or goes down, as its ON bit is written, unless a block in it is enabled (FS 0), and its power change ends
in ON or OFF. -/
def Obligations.SuppliesClocksAndIslandsAreShown : Prop :=
  (∀ (s : State) (b : Nat), b < 9 → s.ridge.running = true → Settles (.railFault b) s (fun u => bit (u.rd
  F.TOP_SUPPLY_IN_RANGE) b = false ∧ u.condHolds (railFs b) b = true ∧ OnlyRegsFcu s u [(F.TOP_SUPPLY_IN_RANGE, 0)])) ∧
  (∀ (s : State) (b : Nat), b < 9 → s.ridge.running = false → Settles (.railFault b) s (fun u => bit (u.rd
  F.TOP_SUPPLY_IN_RANGE) b = false ∧ OnlyRegs s u [(F.TOP_SUPPLY_IN_RANGE, 0)])) ∧
  (∀ (s : State) (b : Nat), b < 9 → Settles (.railReturn b) s (fun u => bit (u.rd F.TOP_SUPPLY_IN_RANGE) b = true ∧
  u.condHolds (railFs b) b = false ∧ OnlyRegsFcu s u [(F.TOP_SUPPLY_IN_RANGE, 0)])) ∧
  (∀ (s : State) (low : Bool), s.ridge.running = true → Settles (.vbatWarning low) s (fun u => bit (u.rd
  F.TOP_SUPPLY_IN_RANGE) 9 = !low ∧ u.condHolds 212 9 = low ∧ OnlyRegsFcu s u [(F.TOP_SUPPLY_IN_RANGE, 0)])) ∧
  (∀ (s : State) (bad : Bool), s.ridge.running = true → Settles (.xoInLoss bad) s (fun u => u.condHolds 213 = bad ∧
  { s with fcu := u.fcu } = u)) ∧
  (∀ (s : State) (unlocked : Bool), s.ridge.running = true → Settles (.corePllUnlock unlocked) s (fun u => u.condHolds 214 =
  unlocked ∧ { s with fcu := u.fcu } = u)) ∧
  (∀ (s : State) (stopped : Bool), s.ridge.running = true → Settles (.rtcOscStop stopped) s (fun u => u.on
  F.TOP_RTC_STAT_OSC_OK = !stopped ∧ u.condHolds 217 = stopped ∧ OnlyRegsFcu s u [(F.TOP_RTC_STAT_OSC_OK, 0)])) ∧
  (∀ (s : State) (req w : Nat), Admitted s req → Settles (.rtcWrite req w) s (fun u => u.rd F.TOP_RTC_SEC_SEC = w % 2 ^ 48 ∧
  u.on F.TOP_RTC_STAT_VALID = true ∧ u.pwr.rtcSub = 0 ∧ { s with regs := u.regs, pwr := { s.pwr with rtcSub := 0 } } = u ∧
  RegsBut s u [(F.TOP_RTC_SEC_SEC, 0), (F.TOP_RTC_STAT_VALID, 0)])) ∧
  (∀ (s : State), s.slate.cells.length = 256 → Settles .vbatLoss s (fun u => u.on F.TOP_RTC_STAT_VALID = false ∧ u.on
  F.SLATE_TAMP_STAT_VBAT_LOST = true ∧ u.on F.SLATE_TAMP_CFG_EN0 = false ∧ u.on F.SLATE_TAMP_CFG_EN1 = false ∧ (∀ n, n < 16 →
  u.cells n = ({}, {}) ∧ u.on F.SLATE_ATTR_VALID n = false) ∧ u.gnss.hints = [none, none] ∧ u.mem = s.mem ∧ u.ridge =
  s.ridge)) ∧
  (∀ (s : State), s.slate.cells.length = 256 → Settles .vbatPowerUp s (fun u => u.on F.TOP_RTC_STAT_VALID = false ∧ u.on
  F.SLATE_TAMP_STAT_VBAT_LOST = true ∧ (∀ n, n < 16 → u.cells n = ({}, {}) ∧ u.on F.SLATE_ATTR_VALID n = false) ∧ u.gnss.hints
  = [none, none] ∧ u.mem = s.mem ∧ u.ridge = s.ridge)) ∧
  (∀ (s : State) (req i : Nat), Admitted s req → i < 16 → bit (s.rd F.TOP_PWR_CTL_ON) i = false → s.rd F.TOP_PWR_STAT_STATE i
  ≠ 3 → Settles (.islandPowerWrite req (setBit (s.rd F.TOP_PWR_CTL_ON) i true)) s (fun u => bit (u.rd F.TOP_PWR_CTL_ON) i =
  true ∧ u.rd F.TOP_PWR_STAT_STATE i = 1 ∧ (∀ j, j < 16 → j ≠ i → bit (u.rd F.TOP_PWR_CTL_ON) j = bit (s.rd F.TOP_PWR_CTL_ON)
  j) ∧ OnlyRegs s u [(F.TOP_PWR_CTL_ON, 0), (F.TOP_PWR_STAT_STATE, i)])) ∧
  (∀ (s : State) (req i : Nat), Admitted s req → i < 16 → bit (s.rd F.TOP_PWR_CTL_ON) i = true → s.islandFree i = true →
  Settles (.islandPowerWrite req (setBit (s.rd F.TOP_PWR_CTL_ON) i false)) s (fun u => bit (u.rd F.TOP_PWR_CTL_ON) i = false ∧
  u.rd F.TOP_PWR_STAT_STATE i = 3 ∧ bit (u.rd F.TOP_PWR_PEND_PENDING_ENABLE) i = false ∧ OnlyRegs s u [(F.TOP_PWR_CTL_ON, 0),
  (F.TOP_PWR_PEND_PENDING_ENABLE, 0), (F.TOP_PWR_STAT_STATE, i)])) ∧
  (∀ (s : State) (req i : Nat), Admitted s req → i < 16 → bit (s.rd F.TOP_PWR_CTL_ON) i = true → s.islandFree i = false →
  Settles (.islandPowerWrite req (setBit (s.rd F.TOP_PWR_CTL_ON) i false)) s (fun u => u.rd F.TOP_PWR_CTL_ON = s.rd
  F.TOP_PWR_CTL_ON ∧ u.rd F.TOP_PWR_STAT_STATE i = s.rd F.TOP_PWR_STAT_STATE i ∧ u.staged 0 (Acs.snap ⟨req, 0x140, 2, true⟩) ∧
  { s with regs := u.regs, fcu := u.fcu } = u)) ∧
  (∀ (s : State) (i : Nat), i < 16 → s.rd F.TOP_PWR_STAT_STATE i = 1 → Settles (.islandPowerDone i) s (fun u => u.rd
  F.TOP_PWR_STAT_STATE i = 2 ∧ OnlyRegs s u [(F.TOP_PWR_STAT_STATE, i)])) ∧
  (∀ (s : State) (i : Nat), i < 16 → s.rd F.TOP_PWR_STAT_STATE i = 3 → bit (s.rd F.TOP_PWR_PEND_PENDING_ENABLE) i = false →
  Settles (.islandPowerDone i) s (fun u => u.rd F.TOP_PWR_STAT_STATE i = 0 ∧ OnlyRegs s u [(F.TOP_PWR_STAT_STATE, i)]))

/-- Power-on reset and RESET_N return everything outside the VBAT domain to reset, with their cause, and RESET_N holds
start-up until it rises. Fuse load needs a recognised XO_IN; it starts Ridge A with its first beat edge one beat away, shows
FUSE_OK, and raises FS 222 or FS 223 for a fuse error. Two slots that do not read are rejected with FS 218 and the device runs
on defaults; an accepted slot A shows its SVN and build. A REGS entry writes its register; an empty image leads on to the
commands; a CMDS entry runs, or stops the list with FS 219, or waits for READY. READY shows DONE and the time, and releases
the outputs when AUTO_RELEASE says so; two seconds without it raise FS 220. Until the configuration space opens, a
configuration request is answered with a retry. -/
def Obligations.StartUpRunsFromPowerOnToReady : Prop :=
  (∀ (s : State), Settles .powerOn s (fun u => u.rd F.TOP_STAT_RESET_CAUSE = 0 ∧ u.pwr.stage = 2 ∧ u.pwr.main = true ∧ (∀ b, b
  < 9 → bit (u.rd F.TOP_SUPPLY_IN_RANGE) b = true) ∧ u.ridge = State.reset.ridge ∧ u.host = State.reset.host ∧ u.mem =
  State.reset.mem ∧ u.pending = s.pending ∧ (∀ k, k < 4 → u.rd F.TOP_SCRATCH_DATA k = 0))) ∧
  (∀ (s : State), s.pwr.stage ≠ 0 → Settles .resetNAssert s (fun u => u.rd F.TOP_STAT_RESET_CAUSE = 1 ∧ u.pwr.stage = 1 ∧ u.on
  F.TOP_STAT_READY = false ∧ u.ridge = State.reset.ridge ∧ u.host = State.reset.host ∧ u.mem = State.reset.mem ∧ u.pending =
  s.pending ∧ (∀ k, k < 4 → u.rd F.TOP_SCRATCH_DATA k = 0))) ∧
  (∀ (s : State), s.pwr.stage = 1 → exec .resetNRelease s = .next { s with pwr := { s.pwr with stage := 2 } }.close) ∧
  (∀ (s : State), s.pwr.stage = 2 → exec .xoRetry s = .next { s with pwr := { s.pwr with xoMissed := true } }.close) ∧
  (∀ (s : State) (xoHz err code nominal : Nat) (rtc : Option Nat) (temp : Int), s.pwr.stage = 2 → xoPick xoHz = some (code,
  nominal) → Settles (.fuseLoad xoHz err rtc temp) s (fun u => u.pwr.stage = 4 ∧ u.ridge.running = true ∧ u.ridge.nextEdge =
  64000000000 ∧ u.rd F.TOP_BOOT_STAT_XO_FREQ = code ∧ u.on F.TOP_STAT_FUSE_OK = (err != 2) ∧ u.on F.FRANK_STAT_DRBG_OK = true
  ∧ u.rdS F.EAVES_STAT_TEMP = satS 16 temp ∧ u.on F.TOP_RTC_STAT_OSC_OK = rtc.isSome ∧ u.pins.mspiRdy = true ∧ (err = 1 →
  u.staged 222) ∧ (err = 2 → u.staged 223) ∧ u.mem = s.mem ∧ u.host = s.host)) ∧
  (∀ (s : State) (xoHz err : Nat) (rtc : Option Nat) (temp : Int), s.pwr.stage = 2 → xoPick xoHz = none → exec (.fuseLoad xoHz
  err rtc temp) s = .next { s with pwr := { s.pwr with xoMissed := true } }.close) ∧
  (∀ (s : State), s.pwr.stage = 4 → s.on F.TOP_STAT_SAFE = false → Settles (.imageVerify none none) s (fun u => u.rd
  F.TOP_BOOT_STAT_A_CAUSE = 1 ∧ u.rd F.TOP_BOOT_STAT_B_CAUSE = 1 ∧ u.on F.TOP_BOOT_STAT_NO_IMAGE = true ∧ u.staged 218 256 ∧
  u.staged 218 257 ∧ u.pwr.stage = 7 ∧ u.pwr.cfgOpen = true ∧ u.mem = s.mem ∧ u.ridge = s.ridge)) ∧
  (∀ (s : State) (img : List Nat) (imgB : Option (List Nat)), s.pwr.stage = 4 → s.on F.TOP_STAT_SAFE = false → Settles
  (.imageVerify (some img) imgB) s (fun u => (s.imageCause (some img) = 0 → u.rd F.TOP_BOOT_STAT_SLOT = 1 ∧ u.rd
  F.TOP_BOOT_SVN_VALUE = imgWord img 12 4 % 2 ^ 32 ∧ u.rd F.TOP_BOOT_BUILD_VALUE = imgWord img 24 4 % 2 ^ 32 ∧ u.rd
  F.TOP_BOOT_STAT_AUTO_REL = imgWord img 20 4 % 4 ∧ u.pwr.image = img.take (imgWord img 8 4) ∧ u.pwr.stage = 5 ∧
  { s with regs := u.regs, pwr := u.pwr } = u) ∧ (s.imageCause (some img) ≠ 0 → u.rd F.TOP_BOOT_STAT_A_CAUSE = s.imageCause
  (some img) ∧ u.staged 218 (s.imageCause (some img) * 256)) ∧ u.mem = s.mem ∧ u.ridge = s.ridge)) ∧
  (∀ (s : State) (e : Env), s.on F.TOP_STAT_SAFE = false → s.pwr.stage = 5 → ∀ t, t < 6 → imgSection s.pwr.image t = [] →
  s.keysWait = false → s.bootCpl = [] → s.host.mbxGo = false → Settles (.imageApply e) s (fun u => u.pwr.stage = 7 ∧
  u.pwr.cfgOpen = true ∧ u.pwr.cmds = [] ∧ u.pwr.image = [] ∧ u.gnss.feWrite = [[], []] ∧
  { s with pwr := u.pwr, gnss := u.gnss } = u)) ∧
  (∀ (s : State) (e : Env) (b : List Nat) (k : Nat), s.on F.TOP_STAT_SAFE = false → s.pwr.stage = 6 → s.keysWait = false →
  s.bootCpl = [] → s.fcu.occs = [] → e.late = [] → s.host.mbxGo = false → imgSection s.pwr.image 2 = b → imgSection
  s.pwr.image 5 = [] → b.length = 12 → k < 4 → bits (imgWord b 0 4) 0 24 = 0x10 + 4 * k → bit (imgWord b 0 4) 31 = false →
  Settles (.imageApply e) s (fun u => u.rd F.TOP_SCRATCH_DATA k = imgWord b 4 8 % 2 ^ 32 ∧ u.pwr.stage = 7 ∧ u.pwr.image = []
  ∧ { s with regs := u.regs, pwr := u.pwr } = u ∧ RegsBut s u [(F.TOP_SCRATCH_DATA, k)])) ∧
  (∀ (s : State) (e : Env) (idx : Nat) (ws : List Nat), s.pwr.stage = 7 → s.on F.TOP_STAT_SAFE = false → s.pwr.cur = none →
  s.pwr.cmds = [(idx, ws)] → s.bootCpl = [] → s.host.dropped = [] → s.host.outFail = none → s.host.mbxGo = false → bits
  (ws.getD 0 0) 16 4 = 0 → recOp (ws.drop 1) = 0x0F00 → recDn (ws.drop 1) = 0 → headerCode (ws.drop 1) = Code.ok → Settles
  (.cmdsEntry e) s (fun u => u.pwr.cmds = [] ∧ u.pwr.cur = none ∧ u.bootCpl = [] ∧ u.on F.TOP_BOOT_STAT_CMD_FAIL = s.on
  F.TOP_BOOT_STAT_CMD_FAIL ∧ u.mem = s.mem ∧ u.ridge = s.ridge)) ∧
  (∀ (s : State) (e : Env) (idx : Nat) (ws : List Nat) (rest : List (Nat × List Nat)), s.pwr.stage = 7 → s.on F.TOP_STAT_SAFE
  = false → s.pwr.cur = none → s.pwr.cmds = (idx, ws) :: rest → bits (ws.getD 0 0) 16 4 = 0 → bit (ws.getD 0 0) 20 = false →
  recOp (ws.drop 1) ∉ opcodes → s.host.mbxGo = false → Settles (.cmdsEntry e) s (fun u => u.on F.TOP_BOOT_STAT_CMD_FAIL = true
  ∧ u.rd F.TOP_BOOT_STAT_CMD_FAIL_IDX = idx % 2 ^ 12 ∧ u.staged 219 (idx % 2 ^ 16) ∧ u.pwr.cmds = [] ∧ u.mem = s.mem ∧ u.ridge
  = s.ridge)) ∧
  (∀ (s : State) (e : Env) (idx : Nat) (ws : List Nat) (rest : List (Nat × List Nat)), s.pwr.cur = none → s.pwr.cmds = (idx,
  ws) :: rest → bits (ws.getD 0 0) 16 4 ≠ 0 → s.on F.TOP_STAT_READY = false → exec (.cmdsEntry e) s = .next s.close) ∧
  (∀ (s : State) (ms : Nat), s.pwr.stage = 7 → s.pwr.cur = none → s.pwr.cmds = [] → s.pwr.release = [] → s.on F.TOP_STAT_READY
  = false → s.on F.TOP_STAT_SAFE = false → s.frank.katEn = false → s.frank.katReq = false → Settles (.ready ms) s (fun u =>
  u.on F.TOP_STAT_READY = true ∧ u.on F.TOP_BOOT_STAT_DONE = true ∧ u.rd F.TOP_BOOT_TIME_VALUE = min ms 65535 ∧ u.pins.ready =
  true ∧ u.on F.OUT_STAT_RELEASED = (s.on F.OUT_STAT_RELEASED || s.rd F.TOP_BOOT_STAT_AUTO_REL == 1) ∧ u.mem = s.mem ∧ u.ridge
  = s.ridge)) ∧
  (∀ (s : State), s.on F.TOP_STAT_READY = false → s.ridge.running = true → Settles .readyTimeout s (fun u => u.staged 220 ∧
  { s with fcu := u.fcu } = u)) ∧
  (∀ (s : State) (dw : Nat), s.pwr.cfgOpen = false → s.on F.TOP_STAT_SAFE = false → exec (.pcieConfigRequest dw) s = .next
  (s.emit (.pcieCfg true 0)).close) ∧
  (∀ (s : State), s.pwr.cfgOpen = true → exec (.pcieConfigRequest 2) s = .next (s.emit (.pcieCfg false 0x118000B1)).close)

/-- A write that sets one ON bit of TOP_PWR_CTL while its island is powering down sets the island's PENDING bit and leaves the
island DOWN, with every other register as before; when the power-down has completed, the island ramps up and PENDING is clear.
-/
def Obligations.AnIslandWaitsForItsPowerDown : Prop :=
  (∀ (s : State) (req i : Nat), Admitted s req → i < 16 → bit (s.rd F.TOP_PWR_CTL_ON) i = false → s.rd F.TOP_PWR_STAT_STATE i
  = 3 → Settles (.islandPowerWrite req (setBit (s.rd F.TOP_PWR_CTL_ON) i true)) s (fun u => bit (u.rd F.TOP_PWR_CTL_ON) i =
  true ∧ u.rd F.TOP_PWR_STAT_STATE i = 3 ∧ bit (u.rd F.TOP_PWR_PEND_PENDING_ENABLE) i = true ∧ OnlyRegs s u
  [(F.TOP_PWR_CTL_ON, 0), (F.TOP_PWR_PEND_PENDING_ENABLE, 0)])) ∧
  (∀ (s : State) (i : Nat), i < 16 → s.rd F.TOP_PWR_STAT_STATE i = 3 → bit (s.rd F.TOP_PWR_PEND_PENDING_ENABLE) i = true →
  Settles (.islandPowerDone i) s (fun u => u.rd F.TOP_PWR_STAT_STATE i = 1 ∧ bit (u.rd F.TOP_PWR_PEND_PENDING_ENABLE) i =
  false ∧ OnlyRegs s u [(F.TOP_PWR_STAT_STATE, i), (F.TOP_PWR_PEND_PENDING_ENABLE, 0)]))

/-- MAINT_RUN of an allowed activity on an idle group waits at the head of its queue with its command; a self-test runs at
once beside the queues; an activity that is not allowed completes with BAD_PARAM and a full queue with BUSY_RETRY and FS 177.
A calibration due asks for every running channel. An activity that starts leaves the queue and runs; one that ends leaves the
group idle and is recorded as the last. Entries that wait too long stage FS 178, once each. A self-test ends with its result,
and with FS 179 when it failed. -/
def Obligations.MaintenanceRunsInQuietGroups : Prop :=
  (∀ (s : State) (temp : Int), s.calDue temp = true → s.calTargets = [] → Settles (.calTrigger temp) s (fun u => u =
  { s with tdc := { s.tdc with trigBeat := s.rd F.RIDGE_BEAT_SEQ_SEQ, trigTemp := temp } })) ∧
  (∀ (s : State) (temp : Int) (n : Nat), s.calDue temp = true → s.calTargets = [n] → s.quietQueue 0 = [] →
  s.sort.queues.length = 11 → Settles (.calTrigger temp) s (fun u => u.quietQueue 0 = [⟨1, n, true, [], s.ridge.ticks, false⟩]
  ∧ u.tdc = { s.tdc with trigBeat := s.rd F.RIDGE_BEAT_SEQ_SEQ, trigTemp := temp } ∧ u.mem = s.mem ∧ u.ridge = s.ridge)) ∧
  (∀ (s : State) (n worst binAvg : Nat), n < 48 → s.isRunning 1 n = true → s.tdc.cal.contains n = false → s.tdc.oos.contains n
  = true → s.tdcState n = 5 → s.sort.running.length = 11 → worst ≤ 600 → Settles (.tdcCalDone n worst binAvg) s (fun u =>
  u.tdcState n = 2 ∧ u.quietRun 0 = none ∧ u.rd F.SORT_LAST_ACT = 1 ∧ u.rd F.SORT_LAST_CODE = 0 ∧ u.on F.TDC_STAT_MAINT_ACTIVE
  = false ∧ u.mem = s.mem ∧ u.ridge = s.ridge)) ∧
  (∀ (s : State) (n worst binAvg : Nat), n < 48 → s.isRunning 1 n = true → s.tdc.cal.contains n = false →
  s.sort.running.length = 11 → 800 < worst → Settles (.tdcCalDone n worst binAvg) s (fun u => u.staged 176 (1 + n * 256) ∧
  u.quietRun 0 = none ∧ (∀ p, u.tch p = s.tch p) ∧ u.mem = s.mem ∧ u.ridge = s.ridge)) ∧
  (∀ (s : State) (c : CmdRef) (w0 : Nat), bits w0 0 8 ≠ 3 → bits w0 0 8 ≠ 9 → s.maintOk (bits w0 0 8) (bits w0 8 8) = true →
  s.quietQueue (quietGroup (bits w0 0 8) (bits w0 8 8)) = [] → s.quietRun (quietGroup (bits w0 0 8) (bits w0 8 8)) = none →
  s.sort.queues.length = 11 → Settles (.maintRun c w0) s (fun u => u.quietQueue (quietGroup (bits w0 0 8) (bits w0 8 8)) =
  [⟨bits w0 0 8, bits w0 8 8, false, [c], s.ridge.ticks, false⟩] ∧ { s with regs := u.regs, sort := u.sort } = u)) ∧
  (∀ (s : State) (c : CmdRef) (w0 : Nat), bits w0 0 8 = 3 → s.quietQueue 1 = [] → s.quietRun 1 = none → s.sort.queues.length =
  11 → Settles (.maintRun c w0) s (fun u => u.quietQueue 1 = [⟨3, 0, false, [c], s.ridge.ticks, false⟩] ∧
  { s with regs := u.regs, sort := u.sort } = u)) ∧
  (∀ (s : State) (c : CmdRef) (w0 : Nat), bits w0 0 8 = 9 → s.testReady (bits w0 8 8) = true → Settles (.maintRun c w0) s (fun
  u => u = { s with sort := { s.sort with tests := s.sort.tests ++ [⟨bits w0 8 8, c, s.ridge.ticks, false⟩] } })) ∧
  (∀ (s : State) (c : CmdRef) (w0 : Nat), s.maintOk (bits w0 0 8) (if bits w0 0 8 = 3 then 0 else bits w0 8 8) = false →
  Refuses (.maintRun c w0) s c Code.badParam) ∧
  (∀ (s : State) (q : Nat) (e : SortEntry), q < 11 → s.startable q = some e → e.act = 6 ∨ e.act = 7 → s.sort.queues.length =
  11 → s.sort.running.length = 11 → Settles (.activityStart q) s (fun u => u.quietRun q = some
  { e with tick := s.ridge.ticks } ∧ u.quietQueue q = (s.quietQueue q).erase e ∧ u.mem = s.mem ∧ u.ridge = s.ridge)) ∧
  (∀ (s : State) (q : Nat) (e : SortEntry), q < 11 → s.startable q = some e → e.act = 5 → e.tgt < 32 → s.sort.queues.length =
  11 → s.sort.running.length = 11 → s.eth.lane.length = 32 → Settles (.activityStart q) s (fun u => u.quietRun q = some
  { e with tick := s.ridge.ticks } ∧ u.on F.SDS_LN_STAT_ADAPTING e.tgt = true ∧ (u.lane e.tgt).reload = true ∧ u.mem = s.mem ∧
  u.ridge = s.ridge)) ∧
  (∀ (s : State) (ok : Bool) (learn : List (Nat × Nat × Nat)) (e : SortEntry), s.quietRun 10 = some e → e.act = 7 →
  s.sort.running.length = 11 → Settles (.activityEnd 10 ok learn) s (fun u => u.quietRun 10 = none ∧ u.rd F.SORT_LAST_ACT = 7
  ∧ u.rd F.SORT_LAST_CODE = 0 ∧ u.rd F.SORT_LAST_GROUP = 10 ∧ u.mem = s.mem ∧ u.ridge = s.ridge)) ∧
  (∀ (s : State) (learn : List (Nat × Nat × Nat)) (e : SortEntry), s.quietRun 10 = some e → e.act = 8 → s.memState = 1 →
  s.sort.running.length = 11 → Settles (.activityEnd 10 true learn) s (fun u => u.memState = 2 ∧ u.rd F.MEM_STAT_HIST_DAYS = 0
  ∧ u.eaves.hist = 0 ∧ u.quietRun 10 = none ∧ u.mem = s.mem ∧ u.ridge = s.ridge)) ∧
  (∀ (s : State) (q : Nat) (e : SortEntry), q < 11 → s.quietQueue q = [e] → e.warned = false → s.rd F.SORT_CTL_WAIT_MAX *
  1250000 < s.ridge.ticks - e.tick → s.sort.queues.length = 11 → Settles (.waitMaxExceeded q) s (fun u => u.staged 178 ∧
  u.quietQueue q = [{ e with warned := true }] ∧ u.mem = s.mem ∧ u.ridge = s.ridge)) ∧
  (∀ (s : State) (tgt : Nat) (fe : List Nat) (sclk : Nat) (x : SelfTest), s.sort.tests = [x] → x.tgt = tgt → x.cut = false →
  tgt < 0x30 → s.on F.TDC_CH_STAT_PENDING_ENABLE tgt = false → Replies (.selftestStep tgt true none fe sclk) s x.ref (fun u =>
  u.sort.tests = [] ∧ u.rd F.SORT_LAST_ACT = 9 ∧ u.rd F.SORT_LAST_TGT = tgt ∧ u.fcu = s.fcu ∧ u.mem = s.mem ∧ u.ridge =
  s.ridge)) ∧
  (∀ (s : State) (tgt k : Nat) (fe : List Nat) (sclk : Nat) (x : SelfTest), s.sort.tests = [x] → x.tgt = tgt → x.cut = false →
  tgt < 0x30 → Settles (.selftestStep tgt true (some k) fe sclk) s (fun u => u.sort.tests = [] ∧ u.staged 179 tgt ∧ u.mem =
  s.mem ∧ u.ridge = s.ridge))

/-- Enabling the DRAM with its island on and its size set asks for training; without the island EN returns to 0 and FS 197 is
staged. Disabling an online DRAM asks for the power change. A history commit and a recalibration are asked for only online. A
corrected SRAM error counts and stages FS 192, an uncorrected one stages FS 193; a corrected DRAM error counts and stages FS
194, an uncorrected one counts, leaves its address, stages FS 195 and takes its lost samples from the history. -/
def Obligations.MemoriesTrainCommitAndReportErrors : Prop :=
  (∀ (s : State) (req w : Nat), Admitted s req → s.on F.MEM_CTL_DRAM_EN = false → s.memState = 0 → s.sort.tests = [] →
  s.islandOn 9 = false → Settles (.dramOn req w) s (fun u => u.on F.MEM_CTL_DRAM_EN = false ∧ u.staged 197 ∧ u.staged 221 9 ∧
  u.sort = s.sort ∧ u.mem = s.mem ∧ u.ridge = s.ridge)) ∧
  (∀ (s : State) (req w : Nat), Admitted s req → s.on F.MEM_CTL_DRAM_EN = false → s.memState = 0 → s.sort.tests = [] →
  s.islandOn 9 = true → ((s.stagedWrite noLock inRange [F.MEM_CTL_ERR_MAX, F.MEM_CTL_HIST_PER, F.MEM_CTL_SIZE,
  F.MEM_CTL_STAMP_LOG, F.MEM_CTL_DRAM_EN] 0 (setBit w 0 true)).1).rd F.MEM_CTL_SIZE ≠ 0 → s.quietQueue 10 = [] →
  s.sort.queues.length = 11 → Settles (.dramOn req w) s (fun u => u.on F.MEM_CTL_DRAM_EN = true ∧ u.quietQueue 10 = [⟨8, 0,
  false, [], s.ridge.ticks, false⟩] ∧ u.mem = s.mem ∧ u.ridge = s.ridge)) ∧
  (∀ (s : State) (req w : Nat), Admitted s req → s.on F.MEM_CTL_DRAM_EN = true → s.memState = 2 → s.sort.tests = [] →
  s.quietQueue 10 = [] → s.sort.queues.length = 11 → Settles (.dramOff req w) s (fun u => u.on F.MEM_CTL_DRAM_EN = false ∧
  u.memState = 2 ∧ u.quietQueue 10 = [⟨8, 0, false, [], s.ridge.ticks, false⟩] ∧ u.mem = s.mem ∧ u.ridge = s.ridge)) ∧
  (∀ (s : State), s.memState = 2 → s.quietQueue 10 = [] → s.sort.queues.length = 11 → Settles .histCommit s (fun u =>
  u.quietQueue 10 = [⟨6, 0, true, [], s.ridge.ticks, false⟩] ∧ { s with regs := u.regs, sort := u.sort } = u)) ∧
  (∀ (s : State), s.memState = 2 → s.quietQueue 10 = [] → s.sort.queues.length = 11 → Settles .dramCal s (fun u =>
  u.quietQueue 10 = [⟨7, 0, true, [], s.ridge.ticks, false⟩] ∧ { s with regs := u.regs, sort := u.sort } = u)) ∧
  (∀ (s : State) (addr lost : Nat), Settles (.eccError 0 addr lost) s (fun u => u.rd F.MEM_ERR_SRAM_CORR = satU
  F.MEM_ERR_SRAM_CORR.w (s.rd F.MEM_ERR_SRAM_CORR + 1) ∧ u.staged 192 ∧ OnlyRegsFcu s u [(F.MEM_ERR_SRAM_CORR, 0)])) ∧
  (∀ (s : State) (addr lost : Nat), Settles (.eccError 1 addr lost) s (fun u => u.staged 193 ∧ OnlyRegsFcu s u [])) ∧
  (∀ (s : State) (addr lost : Nat), s.memState = 2 → Settles (.eccError 2 addr lost) s (fun u => u.rd F.MEM_ERR_DRAM_CORR =
  satU F.MEM_ERR_DRAM_CORR.w (s.rd F.MEM_ERR_DRAM_CORR + 1) ∧ u.staged 194 ∧ OnlyRegsFcu s u [(F.MEM_ERR_DRAM_CORR, 0)])) ∧
  (∀ (s : State) (kind addr lost : Nat), 3 ≤ kind → s.memState = 2 → s.sort.dramErrs + 1 ≠ s.inF F.MEM_CTL_ERR_MAX + 1 →
  Settles (.eccError kind addr lost) s (fun u => u.rd F.MEM_ERR_DRAM_UNC = satU F.MEM_ERR_DRAM_UNC.w (s.rd F.MEM_ERR_DRAM_UNC
  + 1) ∧ u.rd F.MEM_ERR_ADDR_ADDR = addr % 2 ^ F.MEM_ERR_ADDR_ADDR.w ∧ u.staged 195 ∧ u.eaves.hist = s.eaves.hist - lost ∧
  u.sort = { s.sort with dramErrs := s.sort.dramErrs + 1 } ∧ u.mem = s.mem ∧ u.ridge = s.ridge))

/-- For every command c and state s: the step of s with c at the front of its queue is the execution of c on s with the
queue's rest. That commands wait in a first-in, first-out queue is the model's form of a block (log entry 1). -/
def Obligations.AStepRunsTheCommandInFront : Prop :=
  ∀ (s : State) (c : Instr) (rest : List Instr), step { s with pending := c :: rest } = exec c { s with pending := rest }

/-- With no command waiting, a step is one CCLK tick; that is the model's choice (log entry 5). On it each domain that runs
adds its addend and the slew in progress, limited to the slew offset and to what is still pending, to its count with the
40-bit fraction, modulo 2^64 ru; a domain that does not run keeps its count. Nothing changes but the counts, the slew views,
the RTC second, and what Ridge and the RTC keep without a register. -/
def Obligations.AnEmptyQueueLetsOneTickPass : Prop :=
  (∀ (s : State), s.pending = [] → ∃ u, step s = .next u ∧ { s with regs := u.regs, ridge := u.ridge, pwr := u.pwr } = u ∧
  u.ridge.ticks = s.ridge.ticks + 1 ∧ RegsBut s u [(F.RIDGE_x_COUNT_COUNT, 0), (F.RIDGE_x_COUNT_COUNT, 1),
  (F.RIDGE_x_SLEW_REM_VALUE, 0), (F.RIDGE_x_SLEW_REM_VALUE, 1), (F.RIDGE_STAT_A_SLEWING, 0), (F.RIDGE_STAT_B_SLEWING, 0),
  (F.TOP_RTC_SEC_SEC, 0)]) ∧
  (∀ (s : State) (d : Nat), s.pending = [] → d < 2 → s.domRuns d = true → (s.dom d).slewing = false → ∃ u, step s = .next u ∧
  u.count d * two40 + (u.dom d).frac = (s.count d * two40 + (s.dom d).frac + (s.dom d).addend) % (two64 * two40)) ∧
  (∀ (s : State) (d : Nat), s.pending = [] → d < 2 → s.domRuns d = true → (s.dom d).slewing = true → 0 ≤ (s.dom d).pend → ∃ u,
  step s = .next u ∧ u.count d * two40 + (u.dom d).frac = (s.count d * two40 + (s.dom d).frac + (s.dom d).addend + min
  (slewOffset (s.dom d).rate) (s.dom d).pend.toNat) % (two64 * two40)) ∧
  (∀ (s : State) (d : Nat), s.pending = [] → d < 2 → s.domRuns d = false → ∃ u, step s = .next u ∧ u.count d = s.count d ∧
  u.dom d = s.dom d)

/-- For every command and every state there is an effect u such that the command answers the next state made of u by settling
the faults of the tick. No command of the table ends a run. -/
def Obligations.EveryCommandSettles : Prop :=
  ∀ (s : State) (c : Instr), ∃ u : State, exec c s = .next u.close

/-- Where the outputs' squelch raises nothing and no occurrence waits, settling a tick leaves memory, outputs, queue and every
part of the machine without a register as they are, but the pins FAULT_N and INT_N, and every register but the squelch status
and counts of the outputs, the FCU_LIVE bits and FCU_STAT. -/
def Obligations.SettlingAQuietTickOnlyShows : Prop :=
  ∀ (s : State), s.evalSquelch.fcu.occs = [] → s.evalSquelch.evalSquelch.fcu.occs = [] →
  { s with regs := s.close.regs, pins := { s.pins with faultLow := s.close.pins.faultLow, intLow := s.close.pins.intLow } } =
  s.close ∧ (∀ f i, f.no < 1024 → (∀ g ∈ [F.OUT_CLK_STAT_SQUELCHED, F.OUT_PPS_STAT_SQUELCHED, F.OUT_STAT_CLK_SQ,
  F.OUT_STAT_PPS_SQ, F.OUT_CLK_STAT_SQ_CNT, F.OUT_PPS_STAT_SQ_CNT, F.FCU_LIVE_BIT, F.FCU_STAT_REC_USED, F.FCU_STAT_MAX_LIVE,
  F.FCU_STAT_MAX_PEND, F.FCU_STAT_FAULT, F.FCU_STAT_INT], f.no ≠ g.no) → s.close.rd f i = s.rd f i)

/-- In the state that a command ends in, once the fault collector runs, the bit of FCU_LIVE of each source that is not
reserved is 1 exactly when the source is live, those of reserved sources are 0, REC_USED is the number of valid records, and
FAULT and INT show the levels of FAULT_N and INT_N. -/
def Obligations.TheFaultCollectorShowsWhatIsLive : Prop :=
  ∀ (s : State) (fs : Nat), s.close.ridge.running = true → (s.close.on F.FCU_LIVE_BIT fs = true ↔ s.close.isLive fs = true ∧
  isReservedFS fs = false) ∧ s.close.rd F.FCU_STAT_REC_USED = s.close.validRecs.length ∧ (s.close.on F.FCU_STAT_FAULT = true ↔
  s.close.pins.faultLow = true) ∧ (s.close.on F.FCU_STAT_INT = true ↔ s.close.pins.intLow = true)

/-- Let one occurrence of a source that is neither reserved nor a self-fault wait, with applied severity below S3. With REC =
1, the pending bit clear and a slot free for its severity, the lowest such slot holds its record: valid, not forced, its
severity and source, the next sequence number, the beat, the snapshot the source states, Ridge A's count and the newest valid
record's number; the pending bit is set. With EVT = 0, so that no event can be dropped on the way, the source's count rises by
1, up to 255, FCU_SEQ and LAST_SRC show the record, and no other slot changes. With no slot free, NOREC counts it; with the
pending bit set or REC = 0, it is only counted, and FCU_SEQ keeps its value. -/
def Obligations.AnOccurrenceIsCountedAndRecorded : Prop :=
  (∀ (s : State) (fs snap k : Nat), s.ridge.running = true → s.evalSquelch.fcu.occs = [Occ.mk fs snap false] → isReservedFS fs
  = false → (fs < 232 ∨ 234 < fs) → s.sevOf fs < 3 → s.on F.FCU_CFG_REC fs = true → s.on F.FCU_PEND_BIT fs = false →
  s.freeSlot (s.sevOf fs) = some k → statedSnaps.contains fs = true → s.close.on F.FCU_REC_W0_VALID k = true ∧ s.close.on
  F.FCU_REC_W0_FORCED k = false ∧ s.close.on F.FCU_REC_W0_ESCALATED k = false ∧ s.close.rd F.FCU_REC_W0_SEV k = s.sevOf fs ∧
  s.close.rd F.FCU_REC_W0_SRC k = fs ∧ s.close.rd F.FCU_REC_SEQ_SEQ k = nextSeq (s.rd F.FCU_SEQ_SEQ) ∧ s.close.rd
  F.FCU_REC_BEAT_BEAT k = s.rd F.RIDGE_BEAT_SEQ_SEQ % 2 ^ 32 ∧ s.close.rd F.FCU_REC_SNAP_SNAP k = snap % 2 ^ 32 ∧ s.close.rd
  F.FCU_REC_COUNT_COUNT k = s.count 0 % 2 ^ 64 ∧ s.close.rd F.FCU_REC_PRIOR_PRIOR k = s.newestSeq % 2 ^ 32 ∧ s.close.on
  F.FCU_PEND_BIT fs = true ∧ (s.on F.FCU_CFG_EVT fs = false → s.close.rd F.FCU_CNT_COUNT fs = min 255 (s.rd F.FCU_CNT_COUNT fs
  + 1) ∧ s.close.rd F.FCU_SEQ_SEQ = nextSeq (s.rd F.FCU_SEQ_SEQ) ∧ s.close.rd F.FCU_STAT_LAST_SRC = fs ∧ (∀ j, j ≠ k →
  s.close.rd F.FCU_REC_W0_VALID j = s.rd F.FCU_REC_W0_VALID j))) ∧
  (∀ (s : State) (fs snap : Nat), s.ridge.running = true → s.evalSquelch.fcu.occs = [Occ.mk fs snap false] → isReservedFS fs =
  false → (fs < 232 ∨ 234 < fs) → s.sevOf fs < 3 → s.on F.FCU_CFG_REC fs = true → s.on F.FCU_PEND_BIT fs = false → s.freeSlot
  (s.sevOf fs) = none → s.close.rd F.FCU_CNT_COUNT fs = min 255 (s.rd F.FCU_CNT_COUNT fs + 1) ∧ s.close.rd F.FCU_OVF_NOREC =
  satU F.FCU_OVF_NOREC.w (s.rd F.FCU_OVF_NOREC + 1) ∧ s.close.rd F.FCU_SEQ_SEQ = s.rd F.FCU_SEQ_SEQ ∧ s.close.on
  F.FCU_PEND_BIT fs = false ∧ (∀ j, s.close.rd F.FCU_REC_W0_VALID j = s.rd F.FCU_REC_W0_VALID j)) ∧
  (∀ (s : State) (fs snap : Nat), s.ridge.running = true → s.evalSquelch.fcu.occs = [Occ.mk fs snap false] → isReservedFS fs =
  false → (fs < 232 ∨ 234 < fs) → s.sevOf fs < 3 → (s.on F.FCU_CFG_REC fs = false ∨ s.on F.FCU_PEND_BIT fs = true) →
  s.close.rd F.FCU_CNT_COUNT fs = min 255 (s.rd F.FCU_CNT_COUNT fs + 1) ∧ s.close.rd F.FCU_SEQ_SEQ = s.rd F.FCU_SEQ_SEQ ∧
  s.close.rd F.FCU_OVF_NOREC = s.rd F.FCU_OVF_NOREC ∧ (∀ j, s.close.rd F.FCU_REC_W0_VALID j = s.rd F.FCU_REC_W0_VALID j))

/-- Let an occurrence with applied severity S3 wait while the device is not in safe state. The command that settles it ends
with TOP_STAT.SAFE and FCU_STAT.SAFE set and FAULT_N low; a holder has released the token and drives TOKEN low; no admitted
answer is left; an enabled output with S3_ACT = 0 is squelched. When no S3 is kept in FCU_SAFE_SEQ and the occurrence is
recorded, FCU_SAFE_SEQ takes its sequence number. -/
def Obligations.AnS3OccurrenceEntersSafeState : Prop :=
  (∀ (s : State) (o : Occ), s.ridge.running = true → s.evalSquelch.fcu.occs = [o] → isReservedFS o.fs = false → s.sevOf o.fs =
  3 → s.on F.TOP_STAT_SAFE = false → s.close.on F.TOP_STAT_SAFE = true ∧ s.close.on F.FCU_STAT_SAFE = true ∧
  s.close.pins.faultLow = true ∧ s.close.frank.answers = [] ∧ (s.holds = true → s.close.holds = false ∧ s.close.pins.token =
  false) ∧ (∀ n, n < 16 → s.on F.OUT_CLK_CTL_EN n = true → s.on F.OUT_CLK_CTL_S3_ACT n = false → s.close.on
  F.OUT_CLK_STAT_SQUELCHED n = true) ∧ (∀ n, n < 8 → s.on F.OUT_PPS_CTL_EN n = true → s.on F.OUT_PPS_CTL_S3_ACT n = false →
  s.close.on F.OUT_PPS_STAT_SQUELCHED n = true)) ∧
  (∀ (s : State) (o : Occ), s.ridge.running = true → s.evalSquelch.fcu.occs = [o] → isReservedFS o.fs = false → (o.fs < 232 ∨
  234 < o.fs) → s.sevOf o.fs = 3 → s.on F.TOP_STAT_SAFE = false → s.on F.FCU_CFG_REC o.fs = true → s.on F.FCU_PEND_BIT o.fs =
  false → s.freeSlot 3 ≠ none → s.rd F.FCU_SAFE_SEQ_SEQ = 0 → s.close.rd F.FCU_SAFE_SEQ_SEQ = nextSeq (s.rd F.FCU_SEQ_SEQ) ∧
  s.close.on F.FCU_PEND_BIT o.fs = true)

/-- State.reset holds no waiting command, no byte of memory and no output; the fault collector holds no record and no live
source, the Ridge does not run, FAULT_N is low and TOKEN, READY, ALIVE and INT_N are not driven; the pins show what they must.
-/
def Obligations.ResetShowsItsPins : Prop :=
  ∀ (s : State), s = State.reset → s.PinsShown ∧ s.pending = [] ∧ s.mem = [] ∧ s.out = [] ∧ s.ridge.running = false ∧
  s.validRecs = [] ∧ s.liveSources = [] ∧ s.pins.faultLow = true ∧ s.pins.intLow = false ∧ s.pins.token = false ∧ s.pins.ready
  = false ∧ s.pins.alive = false

/-- Once the Ridge and with it the fault collector runs: FAULT_N is low exactly in safe state or while a source whose applied
severity is at or above FAULT_MIN is live (R531), and INT_N is low exactly while INT_EN = 1 and a valid record at or above
INT_MIN is held or the mailbox shows DONE with its interrupt enabled (R532). From every state in which the pins show this,
whatever command stands in front, and with none, every step leads to a state in which they do. -/
def Obligations.EveryStepShowsFaultAndInterrupt : Prop :=
  ∀ (s : State) (t : State), s.PinsShown → step s = .next t → t.PinsShown

/-- For every state, reachable or not, the settling that ends each command leads to a state in which FAULT_N and INT_N show
what R531 and R532 ask of them: the pins are recomputed from the live sources, the records and the mailbox, and hold no
history. -/
def Obligations.SettlingShowsThePins : Prop :=
  ∀ (s : State), s.close.PinsShown

end
end

