-- ==== Sys2Proof/Laws/State.lean ====
section
/-! SUPPORT. What each basic update of the state changes, field by field: the rules that keep later proofs from unfolding a record
update. The derived writes are brought to the form of `wr`. -/
namespace Sys2Proof.Machine.State

variable (s : State)

/-! ### The derived register writes as writes of one field -/

@[simp] theorem wrS_eq (f : Fld) (v : Int) (i : Nat) : s.wrS f v i = s.wr f (ofS f.w v) i := rfl
@[simp] theorem wrB_eq (f : Fld) (b : Bool) (i : Nat) : s.wrB f b i = s.wr f b.toNat i := rfl
@[simp] theorem wrSat_eq (f : Fld) (v i : Nat) : s.wrSat f v i = s.wr f (satU f.w v) i := rfl
@[simp] theorem inc_eq (f : Fld) (i n : Nat) : s.inc f i n = s.wr f (satU f.w (s.rd f i + n)) i := rfl
@[simp] theorem bump_eq (f : Fld) (i : Nat) : s.bump f i = s.wr f (s.rd f i + 1) i := rfl
@[simp] theorem wrBit_eq (f : Fld) (b : Nat) (v : Bool) (i : Nat) :
    s.wrBit f b v i = s.wr f (setBit (s.rd f i) b v) i := rfl
@[simp] theorem wrFree_eq (f : Fld) (i : Nat) : s.wrFree f i = s.draw.2.wr f s.draw.1 i := rfl

/-! ### `wr` -/

@[simp] theorem wr_pending (f : Fld) (v i : Nat) : (s.wr f v i).pending = s.pending := rfl
@[simp] theorem wr_mem (f : Fld) (v i : Nat) : (s.wr f v i).mem = s.mem := rfl
@[simp] theorem wr_free (f : Fld) (v i : Nat) : (s.wr f v i).free = s.free := rfl
@[simp] theorem wr_out (f : Fld) (v i : Nat) : (s.wr f v i).out = s.out := rfl
@[simp] theorem wr_nor (f : Fld) (v i : Nat) : (s.wr f v i).nor = s.nor := rfl
@[simp] theorem wr_fcu (f : Fld) (v i : Nat) : (s.wr f v i).fcu = s.fcu := rfl
@[simp] theorem wr_bootCpl (f : Fld) (v i : Nat) : (s.wr f v i).bootCpl = s.bootCpl := rfl
@[simp] theorem wr_host (f : Fld) (v i : Nat) : (s.wr f v i).host = s.host := rfl
@[simp] theorem wr_pins (f : Fld) (v i : Nat) : (s.wr f v i).pins = s.pins := rfl
@[simp] theorem wr_once (f : Fld) (v i : Nat) : (s.wr f v i).once = s.once := rfl
@[simp] theorem wr_ridge (f : Fld) (v i : Nat) : (s.wr f v i).ridge = s.ridge := rfl
@[simp] theorem wr_tdc (f : Fld) (v i : Nat) : (s.wr f v i).tdc = s.tdc := rfl
@[simp] theorem wr_ens (f : Fld) (v i : Nat) : (s.wr f v i).ens = s.ens := rfl
@[simp] theorem wr_was (f : Fld) (v i : Nat) : (s.wr f v i).was = s.was := rfl
@[simp] theorem wr_eaves (f : Fld) (v i : Nat) : (s.wr f v i).eaves = s.eaves := rfl
@[simp] theorem wr_loop (f : Fld) (v i : Nat) : (s.wr f v i).loop = s.loop := rfl
@[simp] theorem wr_gnss (f : Fld) (v i : Nat) : (s.wr f v i).gnss = s.gnss := rfl
@[simp] theorem wr_eth (f : Fld) (v i : Nat) : (s.wr f v i).eth = s.eth := rfl
@[simp] theorem wr_slate (f : Fld) (v i : Nat) : (s.wr f v i).slate = s.slate := rfl
@[simp] theorem wr_frank (f : Fld) (v i : Nat) : (s.wr f v i).frank = s.frank := rfl
@[simp] theorem wr_ptp (f : Fld) (v i : Nat) : (s.wr f v i).ptp = s.ptp := rfl
@[simp] theorem wr_pair (f : Fld) (v i : Nat) : (s.wr f v i).pair = s.pair := rfl
@[simp] theorem wr_pwr (f : Fld) (v i : Nat) : (s.wr f v i).pwr = s.pwr := rfl
@[simp] theorem wr_sort (f : Fld) (v i : Nat) : (s.wr f v i).sort = s.sort := rfl

/-! ### `rst` -/

@[simp] theorem rst_pending (f : Fld) (i : Nat) : (s.rst f i).pending = s.pending := rfl
@[simp] theorem rst_mem (f : Fld) (i : Nat) : (s.rst f i).mem = s.mem := rfl
@[simp] theorem rst_free (f : Fld) (i : Nat) : (s.rst f i).free = s.free := rfl
@[simp] theorem rst_out (f : Fld) (i : Nat) : (s.rst f i).out = s.out := rfl
@[simp] theorem rst_nor (f : Fld) (i : Nat) : (s.rst f i).nor = s.nor := rfl
@[simp] theorem rst_fcu (f : Fld) (i : Nat) : (s.rst f i).fcu = s.fcu := rfl
@[simp] theorem rst_bootCpl (f : Fld) (i : Nat) : (s.rst f i).bootCpl = s.bootCpl := rfl
@[simp] theorem rst_host (f : Fld) (i : Nat) : (s.rst f i).host = s.host := rfl
@[simp] theorem rst_pins (f : Fld) (i : Nat) : (s.rst f i).pins = s.pins := rfl
@[simp] theorem rst_once (f : Fld) (i : Nat) : (s.rst f i).once = s.once := rfl
@[simp] theorem rst_ridge (f : Fld) (i : Nat) : (s.rst f i).ridge = s.ridge := rfl
@[simp] theorem rst_tdc (f : Fld) (i : Nat) : (s.rst f i).tdc = s.tdc := rfl
@[simp] theorem rst_ens (f : Fld) (i : Nat) : (s.rst f i).ens = s.ens := rfl
@[simp] theorem rst_was (f : Fld) (i : Nat) : (s.rst f i).was = s.was := rfl
@[simp] theorem rst_eaves (f : Fld) (i : Nat) : (s.rst f i).eaves = s.eaves := rfl
@[simp] theorem rst_loop (f : Fld) (i : Nat) : (s.rst f i).loop = s.loop := rfl
@[simp] theorem rst_gnss (f : Fld) (i : Nat) : (s.rst f i).gnss = s.gnss := rfl
@[simp] theorem rst_eth (f : Fld) (i : Nat) : (s.rst f i).eth = s.eth := rfl
@[simp] theorem rst_slate (f : Fld) (i : Nat) : (s.rst f i).slate = s.slate := rfl
@[simp] theorem rst_frank (f : Fld) (i : Nat) : (s.rst f i).frank = s.frank := rfl
@[simp] theorem rst_ptp (f : Fld) (i : Nat) : (s.rst f i).ptp = s.ptp := rfl
@[simp] theorem rst_pair (f : Fld) (i : Nat) : (s.rst f i).pair = s.pair := rfl
@[simp] theorem rst_pwr (f : Fld) (i : Nat) : (s.rst f i).pwr = s.pwr := rfl
@[simp] theorem rst_sort (f : Fld) (i : Nat) : (s.rst f i).sort = s.sort := rfl

/-! ### `mwr` -/

@[simp] theorem mwr_pending (a n v : Nat) : (s.mwr a n v).pending = s.pending := rfl
@[simp] theorem mwr_regs (a n v : Nat) : (s.mwr a n v).regs = s.regs := rfl
@[simp] theorem mwr_free (a n v : Nat) : (s.mwr a n v).free = s.free := rfl
@[simp] theorem mwr_out (a n v : Nat) : (s.mwr a n v).out = s.out := rfl
@[simp] theorem mwr_nor (a n v : Nat) : (s.mwr a n v).nor = s.nor := rfl
@[simp] theorem mwr_fcu (a n v : Nat) : (s.mwr a n v).fcu = s.fcu := rfl
@[simp] theorem mwr_bootCpl (a n v : Nat) : (s.mwr a n v).bootCpl = s.bootCpl := rfl
@[simp] theorem mwr_host (a n v : Nat) : (s.mwr a n v).host = s.host := rfl
@[simp] theorem mwr_pins (a n v : Nat) : (s.mwr a n v).pins = s.pins := rfl
@[simp] theorem mwr_once (a n v : Nat) : (s.mwr a n v).once = s.once := rfl
@[simp] theorem mwr_ridge (a n v : Nat) : (s.mwr a n v).ridge = s.ridge := rfl
@[simp] theorem mwr_tdc (a n v : Nat) : (s.mwr a n v).tdc = s.tdc := rfl
@[simp] theorem mwr_ens (a n v : Nat) : (s.mwr a n v).ens = s.ens := rfl
@[simp] theorem mwr_was (a n v : Nat) : (s.mwr a n v).was = s.was := rfl
@[simp] theorem mwr_eaves (a n v : Nat) : (s.mwr a n v).eaves = s.eaves := rfl
@[simp] theorem mwr_loop (a n v : Nat) : (s.mwr a n v).loop = s.loop := rfl
@[simp] theorem mwr_gnss (a n v : Nat) : (s.mwr a n v).gnss = s.gnss := rfl
@[simp] theorem mwr_eth (a n v : Nat) : (s.mwr a n v).eth = s.eth := rfl
@[simp] theorem mwr_slate (a n v : Nat) : (s.mwr a n v).slate = s.slate := rfl
@[simp] theorem mwr_frank (a n v : Nat) : (s.mwr a n v).frank = s.frank := rfl
@[simp] theorem mwr_ptp (a n v : Nat) : (s.mwr a n v).ptp = s.ptp := rfl
@[simp] theorem mwr_pair (a n v : Nat) : (s.mwr a n v).pair = s.pair := rfl
@[simp] theorem mwr_pwr (a n v : Nat) : (s.mwr a n v).pwr = s.pwr := rfl
@[simp] theorem mwr_sort (a n v : Nat) : (s.mwr a n v).sort = s.sort := rfl
@[simp] theorem mwr_mem (a n v : Nat) : (s.mwr a n v).mem = memWrite s.mem a n v := rfl

/-! ### `emit` -/

@[simp] theorem emit_pending (o : Out) : (s.emit o).pending = s.pending := rfl
@[simp] theorem emit_regs (o : Out) : (s.emit o).regs = s.regs := rfl
@[simp] theorem emit_mem (o : Out) : (s.emit o).mem = s.mem := rfl
@[simp] theorem emit_free (o : Out) : (s.emit o).free = s.free := rfl
@[simp] theorem emit_nor (o : Out) : (s.emit o).nor = s.nor := rfl
@[simp] theorem emit_fcu (o : Out) : (s.emit o).fcu = s.fcu := rfl
@[simp] theorem emit_bootCpl (o : Out) : (s.emit o).bootCpl = s.bootCpl := rfl
@[simp] theorem emit_host (o : Out) : (s.emit o).host = s.host := rfl
@[simp] theorem emit_pins (o : Out) : (s.emit o).pins = s.pins := rfl
@[simp] theorem emit_once (o : Out) : (s.emit o).once = s.once := rfl
@[simp] theorem emit_ridge (o : Out) : (s.emit o).ridge = s.ridge := rfl
@[simp] theorem emit_tdc (o : Out) : (s.emit o).tdc = s.tdc := rfl
@[simp] theorem emit_ens (o : Out) : (s.emit o).ens = s.ens := rfl
@[simp] theorem emit_was (o : Out) : (s.emit o).was = s.was := rfl
@[simp] theorem emit_eaves (o : Out) : (s.emit o).eaves = s.eaves := rfl
@[simp] theorem emit_loop (o : Out) : (s.emit o).loop = s.loop := rfl
@[simp] theorem emit_gnss (o : Out) : (s.emit o).gnss = s.gnss := rfl
@[simp] theorem emit_eth (o : Out) : (s.emit o).eth = s.eth := rfl
@[simp] theorem emit_slate (o : Out) : (s.emit o).slate = s.slate := rfl
@[simp] theorem emit_frank (o : Out) : (s.emit o).frank = s.frank := rfl
@[simp] theorem emit_ptp (o : Out) : (s.emit o).ptp = s.ptp := rfl
@[simp] theorem emit_pair (o : Out) : (s.emit o).pair = s.pair := rfl
@[simp] theorem emit_pwr (o : Out) : (s.emit o).pwr = s.pwr := rfl
@[simp] theorem emit_sort (o : Out) : (s.emit o).sort = s.sort := rfl
@[simp] theorem emit_out (o : Out) : (s.emit o).out = s.out ++ [o] := rfl

/-! ### `emits` -/

@[simp] theorem emits_pending (os : List Out) : (s.emits os).pending = s.pending := rfl
@[simp] theorem emits_regs (os : List Out) : (s.emits os).regs = s.regs := rfl
@[simp] theorem emits_mem (os : List Out) : (s.emits os).mem = s.mem := rfl
@[simp] theorem emits_free (os : List Out) : (s.emits os).free = s.free := rfl
@[simp] theorem emits_nor (os : List Out) : (s.emits os).nor = s.nor := rfl
@[simp] theorem emits_fcu (os : List Out) : (s.emits os).fcu = s.fcu := rfl
@[simp] theorem emits_bootCpl (os : List Out) : (s.emits os).bootCpl = s.bootCpl := rfl
@[simp] theorem emits_host (os : List Out) : (s.emits os).host = s.host := rfl
@[simp] theorem emits_pins (os : List Out) : (s.emits os).pins = s.pins := rfl
@[simp] theorem emits_once (os : List Out) : (s.emits os).once = s.once := rfl
@[simp] theorem emits_ridge (os : List Out) : (s.emits os).ridge = s.ridge := rfl
@[simp] theorem emits_tdc (os : List Out) : (s.emits os).tdc = s.tdc := rfl
@[simp] theorem emits_ens (os : List Out) : (s.emits os).ens = s.ens := rfl
@[simp] theorem emits_was (os : List Out) : (s.emits os).was = s.was := rfl
@[simp] theorem emits_eaves (os : List Out) : (s.emits os).eaves = s.eaves := rfl
@[simp] theorem emits_loop (os : List Out) : (s.emits os).loop = s.loop := rfl
@[simp] theorem emits_gnss (os : List Out) : (s.emits os).gnss = s.gnss := rfl
@[simp] theorem emits_eth (os : List Out) : (s.emits os).eth = s.eth := rfl
@[simp] theorem emits_slate (os : List Out) : (s.emits os).slate = s.slate := rfl
@[simp] theorem emits_frank (os : List Out) : (s.emits os).frank = s.frank := rfl
@[simp] theorem emits_ptp (os : List Out) : (s.emits os).ptp = s.ptp := rfl
@[simp] theorem emits_pair (os : List Out) : (s.emits os).pair = s.pair := rfl
@[simp] theorem emits_pwr (os : List Out) : (s.emits os).pwr = s.pwr := rfl
@[simp] theorem emits_sort (os : List Out) : (s.emits os).sort = s.sort := rfl
@[simp] theorem emits_out (os : List Out) : (s.emits os).out = s.out ++ os := rfl

/-! ### `draw` -/

@[simp] theorem draw_pending : (s.draw.2).pending = s.pending := rfl
@[simp] theorem draw_regs : (s.draw.2).regs = s.regs := rfl
@[simp] theorem draw_mem : (s.draw.2).mem = s.mem := rfl
@[simp] theorem draw_out : (s.draw.2).out = s.out := rfl
@[simp] theorem draw_nor : (s.draw.2).nor = s.nor := rfl
@[simp] theorem draw_fcu : (s.draw.2).fcu = s.fcu := rfl
@[simp] theorem draw_bootCpl : (s.draw.2).bootCpl = s.bootCpl := rfl
@[simp] theorem draw_host : (s.draw.2).host = s.host := rfl
@[simp] theorem draw_pins : (s.draw.2).pins = s.pins := rfl
@[simp] theorem draw_once : (s.draw.2).once = s.once := rfl
@[simp] theorem draw_ridge : (s.draw.2).ridge = s.ridge := rfl
@[simp] theorem draw_tdc : (s.draw.2).tdc = s.tdc := rfl
@[simp] theorem draw_ens : (s.draw.2).ens = s.ens := rfl
@[simp] theorem draw_was : (s.draw.2).was = s.was := rfl
@[simp] theorem draw_eaves : (s.draw.2).eaves = s.eaves := rfl
@[simp] theorem draw_loop : (s.draw.2).loop = s.loop := rfl
@[simp] theorem draw_gnss : (s.draw.2).gnss = s.gnss := rfl
@[simp] theorem draw_eth : (s.draw.2).eth = s.eth := rfl
@[simp] theorem draw_slate : (s.draw.2).slate = s.slate := rfl
@[simp] theorem draw_frank : (s.draw.2).frank = s.frank := rfl
@[simp] theorem draw_ptp : (s.draw.2).ptp = s.ptp := rfl
@[simp] theorem draw_pair : (s.draw.2).pair = s.pair := rfl
@[simp] theorem draw_pwr : (s.draw.2).pwr = s.pwr := rfl
@[simp] theorem draw_sort : (s.draw.2).sort = s.sort := rfl
@[simp] theorem draw_free : s.draw.2.free = s.free + 1 := rfl

/-! ### `raise` -/

@[simp] theorem raise_pending (fs snap : Nat) : (s.raise fs snap).pending = s.pending := rfl
@[simp] theorem raise_regs (fs snap : Nat) : (s.raise fs snap).regs = s.regs := rfl
@[simp] theorem raise_mem (fs snap : Nat) : (s.raise fs snap).mem = s.mem := rfl
@[simp] theorem raise_free (fs snap : Nat) : (s.raise fs snap).free = s.free := rfl
@[simp] theorem raise_out (fs snap : Nat) : (s.raise fs snap).out = s.out := rfl
@[simp] theorem raise_nor (fs snap : Nat) : (s.raise fs snap).nor = s.nor := rfl
@[simp] theorem raise_bootCpl (fs snap : Nat) : (s.raise fs snap).bootCpl = s.bootCpl := rfl
@[simp] theorem raise_host (fs snap : Nat) : (s.raise fs snap).host = s.host := rfl
@[simp] theorem raise_pins (fs snap : Nat) : (s.raise fs snap).pins = s.pins := rfl
@[simp] theorem raise_once (fs snap : Nat) : (s.raise fs snap).once = s.once := rfl
@[simp] theorem raise_ridge (fs snap : Nat) : (s.raise fs snap).ridge = s.ridge := rfl
@[simp] theorem raise_tdc (fs snap : Nat) : (s.raise fs snap).tdc = s.tdc := rfl
@[simp] theorem raise_ens (fs snap : Nat) : (s.raise fs snap).ens = s.ens := rfl
@[simp] theorem raise_was (fs snap : Nat) : (s.raise fs snap).was = s.was := rfl
@[simp] theorem raise_eaves (fs snap : Nat) : (s.raise fs snap).eaves = s.eaves := rfl
@[simp] theorem raise_loop (fs snap : Nat) : (s.raise fs snap).loop = s.loop := rfl
@[simp] theorem raise_gnss (fs snap : Nat) : (s.raise fs snap).gnss = s.gnss := rfl
@[simp] theorem raise_eth (fs snap : Nat) : (s.raise fs snap).eth = s.eth := rfl
@[simp] theorem raise_slate (fs snap : Nat) : (s.raise fs snap).slate = s.slate := rfl
@[simp] theorem raise_frank (fs snap : Nat) : (s.raise fs snap).frank = s.frank := rfl
@[simp] theorem raise_ptp (fs snap : Nat) : (s.raise fs snap).ptp = s.ptp := rfl
@[simp] theorem raise_pair (fs snap : Nat) : (s.raise fs snap).pair = s.pair := rfl
@[simp] theorem raise_pwr (fs snap : Nat) : (s.raise fs snap).pwr = s.pwr := rfl
@[simp] theorem raise_sort (fs snap : Nat) : (s.raise fs snap).sort = s.sort := rfl

/-! ### `condOn` -/

@[simp] theorem condOn_pending (fs snap : Nat) : (s.condOn fs snap).pending = s.pending := by unfold State.condOn; split <;> rfl
@[simp] theorem condOn_regs (fs snap : Nat) : (s.condOn fs snap).regs = s.regs := by unfold State.condOn; split <;> rfl
@[simp] theorem condOn_mem (fs snap : Nat) : (s.condOn fs snap).mem = s.mem := by unfold State.condOn; split <;> rfl
@[simp] theorem condOn_free (fs snap : Nat) : (s.condOn fs snap).free = s.free := by unfold State.condOn; split <;> rfl
@[simp] theorem condOn_out (fs snap : Nat) : (s.condOn fs snap).out = s.out := by unfold State.condOn; split <;> rfl
@[simp] theorem condOn_nor (fs snap : Nat) : (s.condOn fs snap).nor = s.nor := by unfold State.condOn; split <;> rfl
@[simp] theorem condOn_bootCpl (fs snap : Nat) : (s.condOn fs snap).bootCpl = s.bootCpl := by unfold State.condOn; split <;> rfl
@[simp] theorem condOn_host (fs snap : Nat) : (s.condOn fs snap).host = s.host := by unfold State.condOn; split <;> rfl
@[simp] theorem condOn_pins (fs snap : Nat) : (s.condOn fs snap).pins = s.pins := by unfold State.condOn; split <;> rfl
@[simp] theorem condOn_once (fs snap : Nat) : (s.condOn fs snap).once = s.once := by unfold State.condOn; split <;> rfl
@[simp] theorem condOn_ridge (fs snap : Nat) : (s.condOn fs snap).ridge = s.ridge := by unfold State.condOn; split <;> rfl
@[simp] theorem condOn_tdc (fs snap : Nat) : (s.condOn fs snap).tdc = s.tdc := by unfold State.condOn; split <;> rfl
@[simp] theorem condOn_ens (fs snap : Nat) : (s.condOn fs snap).ens = s.ens := by unfold State.condOn; split <;> rfl
@[simp] theorem condOn_was (fs snap : Nat) : (s.condOn fs snap).was = s.was := by unfold State.condOn; split <;> rfl
@[simp] theorem condOn_eaves (fs snap : Nat) : (s.condOn fs snap).eaves = s.eaves := by unfold State.condOn; split <;> rfl
@[simp] theorem condOn_loop (fs snap : Nat) : (s.condOn fs snap).loop = s.loop := by unfold State.condOn; split <;> rfl
@[simp] theorem condOn_gnss (fs snap : Nat) : (s.condOn fs snap).gnss = s.gnss := by unfold State.condOn; split <;> rfl
@[simp] theorem condOn_eth (fs snap : Nat) : (s.condOn fs snap).eth = s.eth := by unfold State.condOn; split <;> rfl
@[simp] theorem condOn_slate (fs snap : Nat) : (s.condOn fs snap).slate = s.slate := by unfold State.condOn; split <;> rfl
@[simp] theorem condOn_frank (fs snap : Nat) : (s.condOn fs snap).frank = s.frank := by unfold State.condOn; split <;> rfl
@[simp] theorem condOn_ptp (fs snap : Nat) : (s.condOn fs snap).ptp = s.ptp := by unfold State.condOn; split <;> rfl
@[simp] theorem condOn_pair (fs snap : Nat) : (s.condOn fs snap).pair = s.pair := by unfold State.condOn; split <;> rfl
@[simp] theorem condOn_pwr (fs snap : Nat) : (s.condOn fs snap).pwr = s.pwr := by unfold State.condOn; split <;> rfl
@[simp] theorem condOn_sort (fs snap : Nat) : (s.condOn fs snap).sort = s.sort := by unfold State.condOn; split <;> rfl

/-! ### `condOff` -/

@[simp] theorem condOff_pending (fs snap : Nat) : (s.condOff fs snap).pending = s.pending := rfl
@[simp] theorem condOff_regs (fs snap : Nat) : (s.condOff fs snap).regs = s.regs := rfl
@[simp] theorem condOff_mem (fs snap : Nat) : (s.condOff fs snap).mem = s.mem := rfl
@[simp] theorem condOff_free (fs snap : Nat) : (s.condOff fs snap).free = s.free := rfl
@[simp] theorem condOff_out (fs snap : Nat) : (s.condOff fs snap).out = s.out := rfl
@[simp] theorem condOff_nor (fs snap : Nat) : (s.condOff fs snap).nor = s.nor := rfl
@[simp] theorem condOff_bootCpl (fs snap : Nat) : (s.condOff fs snap).bootCpl = s.bootCpl := rfl
@[simp] theorem condOff_host (fs snap : Nat) : (s.condOff fs snap).host = s.host := rfl
@[simp] theorem condOff_pins (fs snap : Nat) : (s.condOff fs snap).pins = s.pins := rfl
@[simp] theorem condOff_once (fs snap : Nat) : (s.condOff fs snap).once = s.once := rfl
@[simp] theorem condOff_ridge (fs snap : Nat) : (s.condOff fs snap).ridge = s.ridge := rfl
@[simp] theorem condOff_tdc (fs snap : Nat) : (s.condOff fs snap).tdc = s.tdc := rfl
@[simp] theorem condOff_ens (fs snap : Nat) : (s.condOff fs snap).ens = s.ens := rfl
@[simp] theorem condOff_was (fs snap : Nat) : (s.condOff fs snap).was = s.was := rfl
@[simp] theorem condOff_eaves (fs snap : Nat) : (s.condOff fs snap).eaves = s.eaves := rfl
@[simp] theorem condOff_loop (fs snap : Nat) : (s.condOff fs snap).loop = s.loop := rfl
@[simp] theorem condOff_gnss (fs snap : Nat) : (s.condOff fs snap).gnss = s.gnss := rfl
@[simp] theorem condOff_eth (fs snap : Nat) : (s.condOff fs snap).eth = s.eth := rfl
@[simp] theorem condOff_slate (fs snap : Nat) : (s.condOff fs snap).slate = s.slate := rfl
@[simp] theorem condOff_frank (fs snap : Nat) : (s.condOff fs snap).frank = s.frank := rfl
@[simp] theorem condOff_ptp (fs snap : Nat) : (s.condOff fs snap).ptp = s.ptp := rfl
@[simp] theorem condOff_pair (fs snap : Nat) : (s.condOff fs snap).pair = s.pair := rfl
@[simp] theorem condOff_pwr (fs snap : Nat) : (s.condOff fs snap).pwr = s.pwr := rfl
@[simp] theorem condOff_sort (fs snap : Nat) : (s.condOff fs snap).sort = s.sort := rfl

/-! ### `condEnd` -/

@[simp] theorem condEnd_pending (fs : Nat) : (s.condEnd fs).pending = s.pending := rfl
@[simp] theorem condEnd_regs (fs : Nat) : (s.condEnd fs).regs = s.regs := rfl
@[simp] theorem condEnd_mem (fs : Nat) : (s.condEnd fs).mem = s.mem := rfl
@[simp] theorem condEnd_free (fs : Nat) : (s.condEnd fs).free = s.free := rfl
@[simp] theorem condEnd_out (fs : Nat) : (s.condEnd fs).out = s.out := rfl
@[simp] theorem condEnd_nor (fs : Nat) : (s.condEnd fs).nor = s.nor := rfl
@[simp] theorem condEnd_bootCpl (fs : Nat) : (s.condEnd fs).bootCpl = s.bootCpl := rfl
@[simp] theorem condEnd_host (fs : Nat) : (s.condEnd fs).host = s.host := rfl
@[simp] theorem condEnd_pins (fs : Nat) : (s.condEnd fs).pins = s.pins := rfl
@[simp] theorem condEnd_once (fs : Nat) : (s.condEnd fs).once = s.once := rfl
@[simp] theorem condEnd_ridge (fs : Nat) : (s.condEnd fs).ridge = s.ridge := rfl
@[simp] theorem condEnd_tdc (fs : Nat) : (s.condEnd fs).tdc = s.tdc := rfl
@[simp] theorem condEnd_ens (fs : Nat) : (s.condEnd fs).ens = s.ens := rfl
@[simp] theorem condEnd_was (fs : Nat) : (s.condEnd fs).was = s.was := rfl
@[simp] theorem condEnd_eaves (fs : Nat) : (s.condEnd fs).eaves = s.eaves := rfl
@[simp] theorem condEnd_loop (fs : Nat) : (s.condEnd fs).loop = s.loop := rfl
@[simp] theorem condEnd_gnss (fs : Nat) : (s.condEnd fs).gnss = s.gnss := rfl
@[simp] theorem condEnd_eth (fs : Nat) : (s.condEnd fs).eth = s.eth := rfl
@[simp] theorem condEnd_slate (fs : Nat) : (s.condEnd fs).slate = s.slate := rfl
@[simp] theorem condEnd_frank (fs : Nat) : (s.condEnd fs).frank = s.frank := rfl
@[simp] theorem condEnd_ptp (fs : Nat) : (s.condEnd fs).ptp = s.ptp := rfl
@[simp] theorem condEnd_pair (fs : Nat) : (s.condEnd fs).pair = s.pair := rfl
@[simp] theorem condEnd_pwr (fs : Nat) : (s.condEnd fs).pwr = s.pwr := rfl
@[simp] theorem condEnd_sort (fs : Nat) : (s.condEnd fs).sort = s.sort := rfl

end Sys2Proof.Machine.State
end

