-- ==== Sys2Proof/Laws/Store.lean ====
section
/-! SUPPORT. The laws of the two sparse stores: what a read after a write gives, and that each write keeps the canonical form. -/
namespace Sys2Proof.Machine

/-! ### Key and value lists -/

@[simp] theorem kvGet_nil (k : Nat) : kvGet [] k = none := rfl

theorem kvGet_kvPut_same (l : List (Nat × Nat)) (k v : Nat) : kvGet (kvPut l k v) k = some v := by
  induction l with
  | nil => simp [kvPut, kvGet]
  | cons p t ih => unfold kvPut; split_ifs <;> simp_all [kvGet]

theorem kvGet_kvPut_ne (l : List (Nat × Nat)) {k j : Nat} (h : j ≠ k) (v : Nat) : kvGet (kvPut l k v) j = kvGet l j := by
  induction l with
  | nil => simp [kvPut, kvGet, Ne.symm h]
  | cons p t ih =>
    have h' : k ≠ j := Ne.symm h
    unfold kvPut; split_ifs <;> simp_all [kvGet]

theorem kvGet_kvDel_same (l : List (Nat × Nat)) (k : Nat) : kvGet (kvDel l k) k = none := by
  induction l with
  | nil => rfl
  | cons p t ih => unfold kvDel; split_ifs <;> simp_all [kvGet]

theorem kvGet_kvDel_ne (l : List (Nat × Nat)) {k j : Nat} (h : j ≠ k) : kvGet (kvDel l k) j = kvGet l j := by
  induction l with
  | nil => rfl
  | cons p t ih => unfold kvDel; split_ifs <;> simp_all [kvGet]; omega

/-! ### Register fields -/

theorem State.rd_of_regs {s t : State} (h : s.regs = t.regs) (f : Fld) (i : Nat) : s.rd f i = t.rd f i := by
  simp [State.rd, h]

/-- A field reads what was written, reduced to its width. -/
@[simp] theorem State.rd_wr_same (s : State) (f : Fld) (v i : Nat) : (s.wr f v i).rd f i = v % 2 ^ f.w := by
  simp only [State.rd, State.wr, regsPut]
  split_ifs with h
  · simp [kvGet_kvDel_same, h]
  · simp [kvGet_kvPut_same]

/-- A write leaves every other field and index alone. -/
theorem State.rd_wr_ne (s : State) {f g : Fld} {i j : Nat} (h : g.key j ≠ f.key i) (v : Nat) :
    (s.wr f v i).rd g j = s.rd g j := by
  simp only [State.rd, State.wr, regsPut]
  split_ifs
  · rw [kvGet_kvDel_ne _ h]
  · rw [kvGet_kvPut_ne _ h]

/-- Two different fields lie under different keys, as do two indices of one field. -/
theorem Fld.key_ne {f g : Fld} (hf : f.no < 1024) (hg : g.no < 1024) {i j : Nat} (h : g.no ≠ f.no ∨ j ≠ i) :
    g.key j ≠ f.key i := by
  simp only [Fld.key]; omega

/-- A write of one field leaves every index of another field alone. -/
theorem State.rd_wr_other (s : State) {f g : Fld} (hf : f.no < 1024) (hg : g.no < 1024) (h : g.no ≠ f.no) (v i j : Nat) :
    (s.wr f v i).rd g j = s.rd g j := State.rd_wr_ne s (Fld.key_ne hf hg (.inl h)) v

/-- A write of a field at one index leaves its other indices alone. -/
theorem State.rd_wr_index (s : State) {f : Fld} (hf : f.no < 1024) {i j : Nat} (h : j ≠ i) (v : Nat) :
    (s.wr f v i).rd f j = s.rd f j := State.rd_wr_ne s (Fld.key_ne hf hf (.inr h)) v

@[simp] theorem State.rd_rst_same (s : State) (f : Fld) (i : Nat) : (s.rst f i).rd f i = f.rstAt i := by
  simp [State.rd, State.rst, kvGet_kvDel_same]

theorem State.rd_rst_ne (s : State) {f g : Fld} {i j : Nat} (h : g.key j ≠ f.key i) : (s.rst f i).rd g j = s.rd g j := by
  simp only [State.rd, State.rst]; rw [kvGet_kvDel_ne _ h]

@[simp] theorem State.rd_mwr (s : State) (a n v : Nat) (f : Fld) (i : Nat) : (s.mwr a n v).rd f i = s.rd f i := rfl
@[simp] theorem State.rd_emit (s : State) (o : Out) (f : Fld) (i : Nat) : (s.emit o).rd f i = s.rd f i := rfl
@[simp] theorem State.rd_emits (s : State) (os : List Out) (f : Fld) (i : Nat) : (s.emits os).rd f i = s.rd f i := rfl
@[simp] theorem State.rd_raise (s : State) (fs n : Nat) (f : Fld) (i : Nat) : (s.raise fs n).rd f i = s.rd f i := rfl
@[simp] theorem State.rd_condOff (s : State) (fs n : Nat) (f : Fld) (i : Nat) : (s.condOff fs n).rd f i = s.rd f i := rfl
@[simp] theorem State.rd_condEnd (s : State) (fs : Nat) (f : Fld) (i : Nat) : (s.condEnd fs).rd f i = s.rd f i := rfl
@[simp] theorem State.rd_condOn (s : State) (fs n : Nat) (f : Fld) (i : Nat) : (s.condOn fs n).rd f i = s.rd f i :=
  State.rd_of_regs (by simp) f i
@[simp] theorem State.rd_draw (s : State) (f : Fld) (i : Nat) : s.draw.2.rd f i = s.rd f i := rfl

/-! ### The canonical form of the register store -/

/-- The keys rise strictly from above `lo`. -/
def kvRises : Option Nat → List (Nat × Nat) → Bool
  | _, [] => true
  | lo, p :: t => (match lo with | none => true | some l => l < p.1) && kvRises (some p.1) t

theorem kvRises_mono {l : List (Nat × Nat)} {lo lo' : Nat} (h : lo' ≤ lo) (hl : kvRises (some lo) l) : kvRises (some lo') l := by
  cases l with
  | nil => rfl
  | cons p t => simp only [kvRises, Bool.and_eq_true, decide_eq_true_eq] at hl ⊢; exact ⟨by omega, hl.2⟩

theorem kvRises_none {l : List (Nat × Nat)} {lo : Nat} (hl : kvRises (some lo) l) : kvRises none l := by
  cases l with
  | nil => rfl
  | cons p t => simp only [kvRises, Bool.and_eq_true] at hl ⊢; exact ⟨trivial, hl.2⟩

theorem kvPut_rises_from {l : List (Nat × Nat)} {lo k v : Nat} (hl : kvRises (some lo) l) (hk : lo < k) :
    kvRises (some lo) (kvPut l k v) := by
  induction l generalizing lo with
  | nil => simp [kvPut, kvRises, hk]
  | cons p t ih =>
    simp only [kvRises, Bool.and_eq_true, decide_eq_true_eq] at hl
    unfold kvPut
    split_ifs with h1 h2
    · simp [kvRises, hk, h1, hl.2]
    · simp only [kvRises, Bool.and_eq_true, decide_eq_true_eq]; exact ⟨hk, h2 ▸ hl.2⟩
    · simp only [kvRises, Bool.and_eq_true, decide_eq_true_eq]; exact ⟨hl.1, ih hl.2 (by omega)⟩

theorem kvPut_rises {l : List (Nat × Nat)} (hl : kvRises none l) (k v : Nat) : kvRises none (kvPut l k v) := by
  cases l with
  | nil => rfl
  | cons p t =>
    simp only [kvRises, Bool.and_eq_true] at hl
    unfold kvPut
    split_ifs with h1 h2
    · simp [kvRises, h1, hl.2]
    · simp only [kvRises, Bool.and_eq_true]; exact ⟨trivial, h2 ▸ hl.2⟩
    · simp only [kvRises, Bool.and_eq_true]; exact ⟨trivial, kvPut_rises_from hl.2 (by omega)⟩

theorem kvDel_rises_from {l : List (Nat × Nat)} {lo : Nat} (hl : kvRises (some lo) l) (k : Nat) :
    kvRises (some lo) (kvDel l k) := by
  induction l generalizing lo with
  | nil => rfl
  | cons p t ih =>
    simp only [kvRises, Bool.and_eq_true, decide_eq_true_eq] at hl
    unfold kvDel
    split_ifs with h
    · exact kvRises_mono (by omega) (ih hl.2)
    · simp only [kvRises, Bool.and_eq_true, decide_eq_true_eq]; exact ⟨hl.1, ih hl.2⟩

theorem kvDel_rises {l : List (Nat × Nat)} (hl : kvRises none l) (k : Nat) : kvRises none (kvDel l k) := by
  cases l with
  | nil => rfl
  | cons p t =>
    simp only [kvRises, Bool.and_eq_true] at hl
    unfold kvDel
    split_ifs with h
    · exact kvRises_none (kvDel_rises_from hl.2 k)
    · simp only [kvRises, Bool.and_eq_true]; exact ⟨trivial, kvDel_rises_from hl.2 k⟩

/-- Writing a field keeps the register store's keys rising. -/
theorem State.wr_rises {s : State} (h : kvRises none s.regs) (f : Fld) (v i : Nat) : kvRises none (s.wr f v i).regs := by
  simp only [State.wr, regsPut]
  split_ifs
  · exact kvDel_rises h _
  · exact kvPut_rises h _ _

/-! ### The table windows' memory -/

theorem memWfFrom_mono {m : List Host.Cell} {lo lo' : Nat} (h : lo' ≤ lo) (hm : memWfFrom (some lo) m) :
    memWfFrom (some lo') m := by
  cases m with
  | nil => rfl
  | cons c t =>
    simp only [memWfFrom, Bool.and_eq_true, decide_eq_true_eq] at hm ⊢
    exact ⟨⟨by omega, hm.1.2⟩, hm.2⟩

theorem memWfFrom_none {m : List Host.Cell} {lo : Nat} (hm : memWfFrom (some lo) m) : memWfFrom none m := by
  cases m with
  | nil => rfl
  | cons c t => simp only [memWfFrom, Bool.and_eq_true] at hm ⊢; exact ⟨⟨trivial, hm.1.2⟩, hm.2⟩

/-- A byte that is not 0 passes the check of the canonical form. -/
theorem byte_listed {v : Byte} (h : ¬v = 0) : (v != 0) = true := by simpa using h

theorem memPut_wf_from {m : List Host.Cell} {lo : Nat} (hm : memWfFrom (some lo) m) {a : Nat} (ha : lo < a) (v : Byte) :
    memWfFrom (some lo) (memPut m a v) := by
  induction m generalizing lo with
  | nil => unfold memPut; split_ifs with h <;> simp only [memWfFrom, ha, decide_true, Bool.and_true, Bool.true_and]; exact byte_listed h
  | cons c t ih =>
    have hc := hm
    simp only [memWfFrom, Bool.and_eq_true, decide_eq_true_eq] at hm
    unfold memPut
    split_ifs with h1 h2 h3 h4
    · exact hc
    · simp only [memWfFrom, Bool.and_eq_true, decide_eq_true_eq]
      exact ⟨⟨ha, byte_listed h2⟩, ⟨h1, hm.1.2⟩, hm.2⟩
    · exact memWfFrom_mono (by omega) hm.2
    · subst h3
      simp only [memWfFrom, Bool.and_eq_true, decide_eq_true_eq]
      exact ⟨⟨ha, byte_listed h4⟩, hm.2⟩
    · simp only [memWfFrom, Bool.and_eq_true, decide_eq_true_eq]; exact ⟨hm.1, ih hm.2 (by omega)⟩

/-- Every memory operation keeps the canonical form: one byte. -/
theorem memPut_wf {m : List Host.Cell} (hm : Memory.wf m) (a : Nat) (v : Byte) : Memory.wf (memPut m a v) := by
  unfold Memory.wf at *
  cases m with
  | nil => unfold memPut; split_ifs with h <;> simp only [memWfFrom, Bool.and_true, Bool.true_and]; exact byte_listed h
  | cons c t =>
    have hc := hm
    simp only [memWfFrom, Bool.and_eq_true, true_and] at hm
    unfold memPut
    split_ifs with h1 h2 h3 h4
    · exact hc
    · simp only [memWfFrom, Bool.and_eq_true, decide_eq_true_eq, true_and]
      exact ⟨byte_listed h2, ⟨h1, hm.1⟩, hm.2⟩
    · exact memWfFrom_none hm.2
    · subst h3
      simp only [memWfFrom, Bool.and_eq_true, true_and]
      exact ⟨byte_listed h4, hm.2⟩
    · simp only [memWfFrom, Bool.and_eq_true, true_and]; exact ⟨hm.1, memPut_wf_from hm.2 (by omega) v⟩

/-- Every memory operation keeps the canonical form: several bytes. -/
theorem memWrite_wf {m : List Host.Cell} (hm : Memory.wf m) (a n v : Nat) : Memory.wf (memWrite m a n v) := by
  induction n generalizing a v with
  | zero => exact hm
  | succ n ih => exact memPut_wf (ih _ _) _ _

theorem State.mwr_wf {s : State} (h : Memory.wf s.mem) (a n v : Nat) : Memory.wf (s.mwr a n v).mem := memWrite_wf h a n v

theorem memGet_lt {m : List Host.Cell} {lo : Nat} (hm : memWfFrom (some lo) m) {a : Nat} (ha : a ≤ lo) : memGet m a = 0 := by
  induction m generalizing lo with
  | nil => rfl
  | cons c t ih =>
    simp only [memWfFrom, Bool.and_eq_true, decide_eq_true_eq] at hm
    unfold memGet
    rw [if_neg (by omega)]
    exact ih hm.2 (by omega)

/-- A byte of canonical memory reads what was written there. -/
theorem memGet_memPut_same {m : List Host.Cell} (hm : Memory.wf m) (a : Nat) (v : Byte) : memGet (memPut m a v) a = v := by
  unfold Memory.wf at hm
  induction m with
  | nil => unfold memPut; split_ifs with h <;> simp [memGet, h]
  | cons c t ih =>
    simp only [memWfFrom, Bool.and_eq_true, true_and] at hm
    unfold memPut
    split_ifs with h1 h2 h3 h4
    · subst h2; unfold memGet; rw [if_neg (by omega)]; exact memGet_lt hm.2 (by omega)
    · simp [memGet]
    · subst h3; rw [h4]; exact memGet_lt hm.2 (by omega)
    · simp [memGet]
    · unfold memGet; rw [if_neg h3]; exact ih (memWfFrom_none hm.2)

/-- A store leaves every other byte alone. -/
theorem memGet_memPut_ne (m : List Host.Cell) {a b : Nat} (h : b ≠ a) (v : Byte) : memGet (memPut m a v) b = memGet m b := by
  induction m with
  | nil => unfold memPut; split_ifs <;> simp [memGet, Ne.symm h]
  | cons c t ih =>
    have h' : a ≠ b := Ne.symm h
    unfold memPut; split_ifs <;> simp_all [memGet]

/-- A store of `n` bytes leaves every byte outside them alone. -/
theorem memGet_memWrite_ne (m : List Host.Cell) {a n b : Nat} (h : b < a ∨ a + n ≤ b) (v : Nat) :
    memGet (memWrite m a n v) b = memGet m b := by
  induction n generalizing a v with
  | zero => rfl
  | succ n ih => unfold memWrite; rw [memGet_memPut_ne _ (by omega), ih (by omega)]

end Sys2Proof.Machine
end

