-- ==== Sys2Proof/Laws/Answers.lean ====
section
/-! SUPPORT. What completing a command and raising an event can change: nothing but the rings, the mailbox, the Noryr ports, the outputs
and the staged fault occurrences. -/
namespace Sys2Proof.Machine

theorem Answered.refl (s : State) : Answered s s := ⟨rfl, fun _ _ _ _ => rfl⟩

theorem Answered.trans {s t u : State} (h : Answered s t) (k : Answered t u) : Answered s u := by
  refine ⟨?_, fun f i hf hn => (k.2 f i hf hn).trans (h.2 f i hf hn)⟩
  have e : { t with regs := u.regs, out := u.out, fcu := u.fcu, host := u.host, nor := u.nor, bootCpl := u.bootCpl } = u := k.1
  rw [← e, ← h.1]

/-- A write of one of the answering fields only answers. -/
theorem Answered.wr (s : State) {g : Fld} (hg : g ∈ answerFlds) (v i : Nat) : Answered s (s.wr g v i) := by
  refine ⟨rfl, fun f j hf hn => ?_⟩
  have hs : g.no < 1024 := by
    simp only [answerFlds, List.mem_cons, List.not_mem_nil, or_false] at hg
    rcases hg with h | h | h | h | h | h | h | h | h <;> subst h <;> decide
  exact State.rd_wr_other s hs hf (hn g hg) v i j

theorem Answered.emit (s : State) (o : Out) : Answered s (s.emit o) := ⟨rfl, fun _ _ _ _ => rfl⟩
theorem Answered.host (s : State) (x : HostSt) : Answered s { s with host := x } := ⟨rfl, fun _ _ _ _ => rfl⟩
theorem Answered.setNorPort (s : State) (q : Nat) (x : NorPort) : Answered s (s.setNorPort q x) := ⟨rfl, fun _ _ _ _ => rfl⟩
theorem Answered.raise (s : State) (fs n : Nat) : Answered s (s.raise fs n) := ⟨rfl, fun _ _ _ _ => rfl⟩
theorem Answered.boot (s : State) (l : List Cpl) : Answered s { s with bootCpl := l } := ⟨rfl, fun _ _ _ _ => rfl⟩

/-! ### Noryr sending -/

theorem Answered.norReturn (s : State) (q c n : Nat) : Answered s (s.norReturn q c n) := by
  unfold State.norReturn
  split
  · exact .refl s
  · dsimp only
    split
    · exact (Answered.setNorPort s q _).trans (.emit _ _)
    · exact .setNorPort s q _

theorem Answered.norOut (s : State) (q : Nat) (w : Nat × NorFrame) : Answered s (s.norOut q w) := by
  unfold State.norOut
  exact ((Answered.setNorPort s q _).trans (.emit _ _)).trans (.norReturn _ _ _ _)

theorem Answered.norPump (n : Nat) (s : State) (q : Nat) : Answered s (State.norPump n s q) := by
  induction n generalizing s with
  | zero => exact .refl s
  | succ n ih =>
    unfold State.norPump
    dsimp only
    split
    · exact .refl s
    · split
      · exact (Answered.norOut s q _).trans (ih _)
      · exact .refl s

theorem Answered.norQueue (s : State) (q src : Nat) (f : NorFrame) : Answered s (s.norQueue q src f) :=
  (Answered.setNorPort s q _).trans (.norPump _ _ _)

theorem Answered.norDrop (s : State) (q : Nat) : Answered s (s.norDrop q) :=
  (Answered.wr s (g := F.NOR_PORT_CNT2_DROPPED) (by simp [answerFlds]) _ q).trans (.raise _ _ _)

theorem Answered.norOwn (s : State) (t tag : Nat) (p : List Nat) : Answered s (s.norOwn t tag p) := by
  unfold State.norOwn State.norUpward
  split
  · exact .norQueue _ _ _ _
  · exact (Answered.norDrop s _).trans (.norReturn _ _ _ _)

/-! ### Events -/

theorem Answered.dropEvent (s : State) : Answered s s.dropEvent := by
  unfold State.dropEvent
  exact ((Answered.host s _).trans (.wr _ (g := F.HOST_EVT_LOST_COUNT) (by simp [answerFlds]) _ 0)).trans (.raise _ _ _)

theorem Answered.writeEvent (s : State) (dn code info count seq : Nat) (p : List Nat) :
    Answered s (s.writeEvent dn code info count seq p) := by
  unfold State.writeEvent
  dsimp only
  split
  · exact .dropEvent s
  · exact (((Answered.host s _).trans (.emit _ _)).trans (.wr _ (g := F.HOST_EVT_TAIL_PTR) (by simp [answerFlds]) _ 0)).trans
      (.emit _ _)

/-- Raising an event only answers. -/
theorem Answered.event (s : State) (code info count : Nat) (p : List Nat) : Answered s (s.event code info count p) := by
  unfold State.event
  dsimp only
  split
  · exact (Answered.host s _).trans (.norOwn _ _ _ _)
  · split
    · exact .host s _
    · split
      · exact (Answered.host s _).trans (.host _ _)
      · exact (Answered.host s _).trans (.writeEvent _ _ _ _ _ _ _)

theorem Answered.eventNow (s : State) (code info : Nat) (p : List Nat) : Answered s (s.eventNow code info p) := .event _ _ _ _ _

/-! ### Completions -/

theorem Answered.signalCpl (s : State) : Answered s s.signalCpl := by
  unfold State.signalCpl
  dsimp only
  split
  · exact (Answered.host s _).trans (.emit _ _)
  · exact .host s _

theorem Answered.writeCpl (s : State) (c : Cpl) : Answered s (s.writeCpl c) := by
  unfold State.writeCpl
  exact ((Answered.emit s _).trans (.wr _ (g := F.HOST_CPL_TAIL_PTR) (by simp [answerFlds]) _ 0)).trans (.signalCpl _)

theorem Answered.ringCpl (s : State) (c : Cpl) : Answered s (s.ringCpl c) := by
  unfold State.ringCpl
  dsimp only
  split
  · have h := (Answered.host s { s.host with held := s.host.held ++ [c] }).trans
      (.wr _ (g := F.HOST_STAT_CPL_HELD) (by simp [answerFlds]) 1 0)
    split
    · exact h.trans (.raise _ _ _)
    · exact h
  · exact .writeCpl s c

theorem Answered.mbxCpl (s : State) (c : Cpl) : Answered s (s.mbxCpl c) := by
  have hw : ∀ (l : List Nat) (s : State), Answered s
      (l.foldl (fun s j => s.wr F.HOST_MBX_CPL_WORD ((cplWords 0 c).getD j 0) j) s) := by
    intro l
    induction l with
    | nil => exact fun s => .refl s
    | cons a t ih => exact fun s => (Answered.wr s (g := F.HOST_MBX_CPL_WORD) (by simp [answerFlds]) _ _).trans (ih _)
  have h := ((hw (List.range 4) s).trans (.wr _ (g := F.HOST_MBX_CTL_BUSY) (by simp [answerFlds]) 0 0)).trans
    (.wr _ (g := F.HOST_MBX_CTL_DONE) (by simp [answerFlds]) 1 0)
  unfold State.mbxCpl
  dsimp only
  split
  · exact h
  · exact h.trans (.emit _ _)

theorem Answered.route (s : State) (c : Cpl) : Answered s
    (match c.ref.src with
    | .ring => s.ringCpl c
    | .mailbox => if c.interim then s else s.mbxCpl c
    | .noryr => s.norOwn NorT.cpl c.ref.tag (cplWords 0 c)
    | .boot => if c.interim then s else { s with bootCpl := s.bootCpl ++ [c] }
    | .mirror => s) := by
  cases c.ref.src with
  | ring => exact .ringCpl s c
  | mailbox => dsimp only; split; exacts [.refl s, .mbxCpl s c]
  | noryr => exact .norOwn _ _ _ _
  | boot => dsimp only; split; exacts [.refl s, .boot s _]
  | mirror => exact .refl s

theorem Answered.complete (s : State) (c : Cpl) : Answered s (s.complete c) := by
  have hi : ∀ b : Bool, Answered s (if b then s else
      ({ s with host := { s.host with inflight := s.host.inflight.filter (fun e => e.ref != c.ref) } }).showInflight) := by
    intro b
    split
    · exact .refl s
    · exact (Answered.host s _).trans (.wr _ (g := F.HOST_STAT_INFLIGHT) (by simp [answerFlds]) _ 0)
  unfold State.complete
  split
  · split
    · exact .refl s
    · exact .host s _
  · exact (hi _).trans (Answered.route _ c)

/-- Completing a command only answers. -/
theorem Answered.finish (s : State) (r : CmdRef) (code r0 r1 n : Nat) : Answered s (s.finish r code r0 r1 n) := by
  unfold State.finish
  split <;> exact .complete _ _

theorem Answered.finishAll (s : State) (rs : List CmdRef) (code : Nat) : Answered s (s.finishAll rs code) := by
  unfold State.finishAll
  induction rs generalizing s with
  | nil => exact .refl s
  | cons r t ih => exact (Answered.finish s r code 0 0 0).trans (ih _)

/-! ### What the lemmas say of single parts -/

theorem Answered.rd {s u : State} (h : Answered s u) {f : Fld} (hf : f.no < 1024) (hn : ∀ g ∈ answerFlds, f.no ≠ g.no) (i : Nat) :
    u.rd f i = s.rd f i := h.2 f i hf hn
theorem Answered.mem {s u : State} (h : Answered s u) : u.mem = s.mem := by rw [← h.1]
theorem Answered.ridge {s u : State} (h : Answered s u) : u.ridge = s.ridge := by rw [← h.1]
theorem Answered.tdc {s u : State} (h : Answered s u) : u.tdc = s.tdc := by rw [← h.1]
theorem Answered.ens {s u : State} (h : Answered s u) : u.ens = s.ens := by rw [← h.1]
theorem Answered.eaves {s u : State} (h : Answered s u) : u.eaves = s.eaves := by rw [← h.1]
theorem Answered.loop {s u : State} (h : Answered s u) : u.loop = s.loop := by rw [← h.1]
theorem Answered.gnss {s u : State} (h : Answered s u) : u.gnss = s.gnss := by rw [← h.1]
theorem Answered.eth {s u : State} (h : Answered s u) : u.eth = s.eth := by rw [← h.1]
theorem Answered.slate {s u : State} (h : Answered s u) : u.slate = s.slate := by rw [← h.1]
theorem Answered.frank {s u : State} (h : Answered s u) : u.frank = s.frank := by rw [← h.1]
theorem Answered.ptp {s u : State} (h : Answered s u) : u.ptp = s.ptp := by rw [← h.1]
theorem Answered.pair {s u : State} (h : Answered s u) : u.pair = s.pair := by rw [← h.1]
theorem Answered.pwr {s u : State} (h : Answered s u) : u.pwr = s.pwr := by rw [← h.1]
theorem Answered.sort {s u : State} (h : Answered s u) : u.sort = s.sort := by rw [← h.1]
theorem Answered.was {s u : State} (h : Answered s u) : u.was = s.was := by rw [← h.1]
theorem Answered.pending {s u : State} (h : Answered s u) : u.pending = s.pending := by rw [← h.1]

end Sys2Proof.Machine
end

