-- ==== Sys2Proof/Laws/Writes.lean ====
section
/-! SUPPORT. What a register write does: who may write, what an accepted word leaves in the fields, and which other fields it
leaves alone. -/
namespace Sys2Proof.Machine

/-- A write that R548 does not bar is judged and applied. -/
theorem State.put_of_not_barred {s : State} {a : Acs} (h : s.barred a = false) (f : State → Acs → State × Nat) :
    s.put a f = f s a := by
  unfold State.put; rw [h]; rfl

/-- An admitted requester's write is judged and applied (R548). -/
theorem State.put_admitted {s : State} {a : Acs} (h : Admitted s a.req) (f : State → Acs → State × Nat) : s.put a f = f s a := by
  unfold State.put State.barred
  split
  · rename_i hb
    simp only [Bool.and_eq_true, Bool.or_eq_true, beq_iff_eq, Bool.not_eq_true'] at hb
    have := h hb.1.1.2
    simp_all
  · rfl

/-- A write of the HOST block is never barred (R548). -/
theorem State.put_host {s : State} {a : Acs} (h : (0x18000 ≤ regOffset a.addr && regOffset a.addr < 0x19000) = true)
    (f : State → Acs → State × Nat) : s.put a f = f s a := by
  apply State.put_of_not_barred; simp [State.barred, h]

/-- An access that breaks no rule changes nothing more. -/
@[simp] theorem State.conclude_nil (s : State) (a : Acs) : s.conclude a [] = (s, Code.ok) := rfl

/-! ### The fields of a write -/

@[simp] theorem State.fieldWrite_nil (s : State) (lock : Fld → Bool) (ok : Fld → Nat → Bool) (i w : Nat) :
    s.fieldWrite lock ok [] i w = (s, []) := rfl

/-- One field of a write changes at most that field. -/
theorem State.fieldStep_frame (lock : Fld → Bool) (ok : Fld → Nat → Bool) (i w : Nat) (r : State × List Nat) (f : Fld) :
    (State.fieldStep lock ok i w r f).1 = r.1 ∨ (State.fieldStep lock ok i w r f).1 = r.1.wr f (bits w f.lo f.w) i := by
  unfold State.fieldStep
  split
  · dsimp only; split
    · exact .inl rfl
    · exact .inr rfl
  · exact .inl rfl

/-- A property that each single field write keeps is kept by a write of a register. -/
theorem State.foldl_fieldStep {P : State → Prop} (lock : Fld → Bool) (ok : Fld → Nat → Bool) (i w : Nat) (fs : List Fld)
    (hP : ∀ s f v, f ∈ fs → P s → P (s.wr f v i)) (r : State × List Nat) (h : P r.1) :
    P (fs.foldl (State.fieldStep lock ok i w) r).1 := by
  induction fs generalizing r with
  | nil => exact h
  | cons f t ih =>
    refine ih (fun s g v hg hs => hP s g v (List.mem_cons_of_mem _ hg) hs) _ ?_
    rcases State.fieldStep_frame lock ok i w r f with e | e <;> rw [e]
    · exact h
    · exact hP _ _ _ List.mem_cons_self h

/-- A register write changes register fields only. -/
theorem State.fieldWrite_regs (s : State) (lock : Fld → Bool) (ok : Fld → Nat → Bool) (fs : List Fld) (i w : Nat) :
    (s.fieldWrite lock ok fs i w).1 = { s with regs := (s.fieldWrite lock ok fs i w).1.regs } := by
  refine State.foldl_fieldStep (P := fun t => t = { s with regs := t.regs }) lock ok i w fs ?_ _ rfl
  intro t f v _ ht
  rw [ht]; rfl

/-- A register write leaves every field but its own alone. -/
theorem State.rd_fieldWrite_ne (s : State) (lock : Fld → Bool) (ok : Fld → Nat → Bool) {fs : List Fld} {i : Nat} {g : Fld} {j : Nat}
    (h : ∀ f ∈ fs, g.key j ≠ f.key i) (w : Nat) : (s.fieldWrite lock ok fs i w).1.rd g j = s.rd g j := by
  refine State.foldl_fieldStep (P := fun t => t.rd g j = s.rd g j) lock ok i w fs ?_ _ rfl
  intro t f v hf ht
  rw [State.rd_wr_ne t (h f hf), ht]

/-- A word whose every field is unlocked and in range breaks no rule, and the fields of the register that are RW are written in order. -/
theorem State.foldl_fieldStep_fits {lock : Fld → Bool} {fs : List Fld} {i w : Nat} (hl : ∀ f ∈ fs, lock f = false)
    (hf : Fits fs w = true) (r : State × List Nat) :
    fs.foldl (State.fieldStep lock inRange i w) r =
      ((fs.filter (fun f => f.acc == .rw)).foldl (fun s f => s.wr f (bits w f.lo f.w) i) r.1, r.2) := by
  induction fs generalizing r with
  | nil => rfl
  | cons f t ih =>
    have hl' : lock f = false := hl f List.mem_cons_self
    have ht := fun g hg => hl g (List.mem_cons_of_mem f hg)
    simp only [Fits, List.all_cons, Bool.and_eq_true] at hf
    rw [List.foldl_cons, ih ht hf.2]
    cases ha : f.acc <;> simp [State.fieldStep, ha, hl', List.filter_cons] <;> simp_all

theorem State.fieldWrite_fits {lock : Fld → Bool} {fs : List Fld} {i w : Nat} (hl : ∀ f ∈ fs, lock f = false)
    (hf : Fits fs w = true) (s : State) :
    s.fieldWrite lock inRange fs i w = ((fs.filter (fun f => f.acc == .rw)).foldl (fun s f => s.wr f (bits w f.lo f.w) i) s, []) :=
  State.foldl_fieldStep_fits hl hf (s, [])

theorem bits_lt (n lo w : Nat) : bits n lo w < 2 ^ w := Nat.mod_lt _ (Nat.pos_of_ne_zero (by simp))

theorem bits_mod (n lo w : Nat) : bits n lo w % 2 ^ w = bits n lo w := Nat.mod_eq_of_lt (bits_lt n lo w)

end Sys2Proof.Machine
end

