-- ==== Sys2Proof/Laws/Frames.lean ====
section
/-! SUPPORT. How the frame of a meaning is put together from the frames of the writes it makes. -/
namespace Sys2Proof.Machine

theorem RegsBut.refl (s : State) (l : List (Fld × Nat)) : RegsBut s s l := fun _ _ _ => rfl

/-- A write of a listed field keeps the frame. -/
theorem RegsBut.wr {s u : State} {l : List (Fld × Nat)} (h : RegsBut s u l) {g : Fld} {j : Nat} (hg : (g, j) ∈ l) (v : Nat) :
    RegsBut s (u.wr g v j) l := fun f i hn => (State.rd_wr_ne u (hn _ hg) v).trans (h f i hn)

theorem RegsBut.rst {s u : State} {l : List (Fld × Nat)} (h : RegsBut s u l) {g : Fld} {j : Nat} (hg : (g, j) ∈ l) :
    RegsBut s (u.rst g j) l := fun f i hn => (State.rd_rst_ne u (hn _ hg)).trans (h f i hn)

/-- A change of anything but the registers keeps the frame. -/
theorem RegsBut.same {s u t : State} {l : List (Fld × Nat)} (h : RegsBut s u l) (e : t.regs = u.regs) : RegsBut s t l :=
  fun f i hn => (State.rd_of_regs e f i).trans (h f i hn)

/-- A frame that holds for a list holds for a longer one. -/
theorem RegsBut.mono {s u : State} {l m : List (Fld × Nat)} (h : RegsBut s u l) (hl : ∀ p ∈ l, p ∈ m) : RegsBut s u m :=
  fun f i hn => h f i (fun p hp => hn p (hl p hp))

theorem RegsBut.trans {s t u : State} {l : List (Fld × Nat)} (h : RegsBut s t l) (k : RegsBut t u l) : RegsBut s u l :=
  fun f i hn => (k f i hn).trans (h f i hn)

/-- A register write of listed fields keeps the frame. -/
theorem RegsBut.fieldWrite {s u : State} {l : List (Fld × Nat)} (h : RegsBut s u l) {fs : List Fld} {i : Nat}
    (hl : ∀ f ∈ fs, (f, i) ∈ l) (lock : Fld → Bool) (ok : Fld → Nat → Bool) (w : Nat) :
    RegsBut s (u.fieldWrite lock ok fs i w).1 l :=
  State.foldl_fieldStep (P := fun t => RegsBut s t l) lock ok i w fs (fun _ _ v hf ht => ht.wr (hl _ hf) v) _ h

/-- The same frame holds after each member of a list has been treated. -/
theorem RegsBut.foldl {α : Type} {s : State} {l : List (Fld × Nat)} (xs : List α) (f : State → α → State)
    (hf : ∀ u x, x ∈ xs → RegsBut s u l → RegsBut s (f u x) l) {u : State} (h : RegsBut s u l) : RegsBut s (xs.foldl f u) l := by
  induction xs generalizing u with
  | nil => exact h
  | cons x t ih => exact ih (fun u y hy => hf u y (List.mem_cons_of_mem _ hy)) (hf u x List.mem_cons_self h)

end Sys2Proof.Machine
end

