-- ==== Sys2Proof/Laws/Mirror.lean ====
section
/-! SUPPORT. What sending a Noryr frame or a MIRROR frame changes: the Noryr ports, the outputs and the counters of the pair. -/
namespace Sys2Proof.Machine

/-- Only Noryr's ports and the outputs differ. -/
def NorOnly (s u : State) : Prop := { s with nor := u.nor, out := u.out } = u

theorem NorOnly.refl (s : State) : NorOnly s s := rfl

theorem NorOnly.trans {s t u : State} (h : NorOnly s t) (k : NorOnly t u) : NorOnly s u := by
  have e : { t with nor := u.nor, out := u.out } = u := k
  show { s with nor := u.nor, out := u.out } = u
  rw [← e, ← h]

theorem NorOnly.setNorPort (s : State) (q : Nat) (x : NorPort) : NorOnly s (s.setNorPort q x) := rfl
theorem NorOnly.emit (s : State) (o : Out) : NorOnly s (s.emit o) := rfl

theorem NorOnly.norReturn (s : State) (q c n : Nat) : NorOnly s (s.norReturn q c n) := by
  unfold State.norReturn
  split
  · exact .refl s
  · dsimp only
    split
    · exact (NorOnly.setNorPort s q _).trans (.emit _ _)
    · exact .setNorPort s q _

theorem NorOnly.norOut (s : State) (q : Nat) (w : Nat × NorFrame) : NorOnly s (s.norOut q w) := by
  unfold State.norOut
  exact ((NorOnly.setNorPort s q _).trans (.emit _ _)).trans (.norReturn _ _ _ _)

theorem NorOnly.norPump (n : Nat) (s : State) (q : Nat) : NorOnly s (State.norPump n s q) := by
  induction n generalizing s with
  | zero => exact .refl s
  | succ n ih =>
    unfold State.norPump
    dsimp only
    split
    · exact .refl s
    · split
      · exact (NorOnly.norOut s q _).trans (ih _)
      · exact .refl s

theorem NorOnly.norQueue (s : State) (q src : Nat) (f : NorFrame) : NorOnly s (s.norQueue q src f) :=
  (NorOnly.setNorPort s q _).trans (.norPump _ _ _)

/-- Only Noryr's ports, the outputs and the pair's own counters differ. -/
def MirrorOnly (s u : State) : Prop := { s with nor := u.nor, out := u.out, pair := u.pair } = u

theorem MirrorOnly.mirrorFrame (s : State) (kind : Nat) (body : List Nat) : MirrorOnly s (s.mirrorFrame kind body) := by
  unfold State.mirrorFrame
  split
  · rfl
  · dsimp only
    have h := NorOnly.norQueue { s with pair := { s.pair with ctr := s.pair.ctr + 1, sent := s.pair.sent + 1 } } portNP 6
      ⟨NorT.mirror, 0, 0, 0, [kind % 16 * 2 ^ 28 + s.rd F.RIDGE_BEAT_SEQ_SEQ % 2 ^ 20, s.pair.ctr % 2 ^ 32,
        s.pair.ctr / 2 ^ 32 % 2 ^ 32] ++ body ++ [0, 0, 0, 0]⟩
    show _ = _
    rw [← h]

/-- A mirrored command changes nothing but what is sent. -/
theorem MirrorOnly.mirrorCmd (s : State) (opcode edge : Nat) (p : List Nat) : MirrorOnly s (s.mirrorCmd opcode edge p) := by
  unfold State.mirrorCmd
  split
  · rfl
  · exact .mirrorFrame _ _ _

theorem MirrorOnly.mirrorSlate (s : State) (n : Nat) (inval : Bool) (edge attr : Nat) (key : List Nat) :
    MirrorOnly s (s.mirrorSlate n inval edge attr key) := by
  unfold State.mirrorSlate
  split
  · rfl
  · exact .mirrorFrame _ _ _

theorem MirrorOnly.regs {s u : State} (h : MirrorOnly s u) : u.regs = s.regs := by rw [← h]
theorem MirrorOnly.mem {s u : State} (h : MirrorOnly s u) : u.mem = s.mem := by rw [← h]
theorem MirrorOnly.host {s u : State} (h : MirrorOnly s u) : u.host = s.host := by rw [← h]
theorem MirrorOnly.ridge {s u : State} (h : MirrorOnly s u) : u.ridge = s.ridge := by rw [← h]
theorem MirrorOnly.slate {s u : State} (h : MirrorOnly s u) : u.slate = s.slate := by rw [← h]
theorem MirrorOnly.ptp {s u : State} (h : MirrorOnly s u) : u.ptp = s.ptp := by rw [← h]
theorem MirrorOnly.rd {s u : State} (h : MirrorOnly s u) (f : Fld) (i : Nat) : u.rd f i = s.rd f i := State.rd_of_regs h.regs f i

end Sys2Proof.Machine
end

