-- ==== Sys2Proof/Tests/Slice0.lean ====
section
/-! SUPPORT. The model's own tests: ill-formed operands are refused, the spec's worked examples come out, and a witness meets the
hypotheses of every obligation. Expected values are the spec's. -/
namespace Sys2Proof.Tests
open Sys2Proof Sys2Proof.Machine
set_option maxRecDepth 8000
set_option Elab.async false

/-! ### States that the witnesses and tests are built from -/
namespace W
def live : State := { State.reset with ridge := { State.reset.ridge with running := true } }.wr F.TOP_STAT_READY 1
def c : CmdRef := ⟨.ring, 0, 1, 0⟩
/-- Channel 3 alone runs, in STAMP mode on source 7, its last edge just accepted. -/
def oneChannel : State :=
  let s := (((live.wr F.TDC_CTL_EN 1).wr F.TDC_STAT_MEAS_LOCK 1).wr F.TDC_CH_STAT_STATE 2 3).wr F.TDC_CH_SRC_START_SRC 7 3
  s.setTch 3 { s.tch 3 with lastStart := some 0 }
/-- Domain A acquires on the traceable member slot 10, in phase and in frequency. -/
def traced : State :=
  let s := (((live.wr F.ENS_CTL_EN 1).wr F.ENS_DOM_STAT_A_STATE 1).wr F.ENS_SLOT_STAT_STATE 4 10).wr F.ENS_SLOT_CFG_KIND 1 10
  { s with ens := { s.ens with run := true } }
/-- Port 8 is UP. -/
def up8 : State := live.wr F.MAC_STAT_STATE 4 8
def frame (b : List Nat) : RxFrame := ⟨b, true, 0, 0, 0, 0⟩
/-- A PTP message over Ethernet to the group address. -/
def ptp (m : List Nat) : RxFrame := frame ([1, 0x1B, 0x19, 0, 0, 0] ++ List.replicate 6 2 ++ [0x88, 0xF7] ++ m)
/-- Instance 0 is MASTER on port 8, by multicast. -/
def master : State := (up8.wr F.PTE_PORT_STAT_STATE0 1 8).wr F.PTE_PORT_CTL_ROLE0 1 8
/-- Instance 0 runs with peer delay on port 8. -/
def peer : State := master.wr F.PTE_I_CTL_PROFILE 1 0
/-- Client 0 listens, to session 0 on port 8. -/
def client : State := (up8.mwr 0x800020 4 (2 ^ 31 + 2 ^ 19 + 8 * 2 ^ 22)).wr F.PTE_CLI_STAT_STATE 1 0
/-- Client 0 is an NTP client over IPv4 with a request outstanding, and the answer to it. -/
def ntpClient : State :=
  let s := ((up8.mwr 0x800020 4 (2 ^ 31 + 2 ^ 28 + 2 ^ 19 + 8 * 2 ^ 22)).wr F.PTE_CLI_STAT_STATE 1 0).wr F.PTE_CLI_CTL_PROTO 1 0
  s.setCli 0 { s.cli 0 with out := [(0, 9)] }
def ntpReply : RxFrame := frame (List.replicate 12 2 ++ [8, 0] ++ [0x45, 0, 0, 76, 0, 0, 0, 0, 64, 17, 0, 0] ++ List.replicate 8 0 ++
  [0, 123, 0, 123, 0, 56, 0, 0] ++ [0x24, 1] ++ List.replicate 46 0)
/-- Delay_Req, Pdelay_Req, Pdelay_Resp and Announce messages without TLV. -/
def msg (t n : Nat) : List Nat := [t, 2, 0, n] ++ List.replicate (n - 4) 0
/-- NTP is served on port 8 at the IPv4 address 0.0.0.0, and a client's request. -/
def ntpServer : State := ((up8.wr F.FRANK_NTP_CTL_EN 1).wr F.FRANK_NTP_PORTS_PORTS (2 ^ 8)).mwr (portAddr 8 + 20) 4 1
def ntpAsk : RxFrame := frame (List.replicate 12 2 ++ [8, 0] ++ [0x45, 0, 0, 76, 0, 0, 0, 0, 64, 17, 0x7A, 0xA2] ++ List.replicate 8 0 ++
  [0, 123, 0, 123, 0, 56, 0, 0] ++ [0x23] ++ List.replicate 47 0)
/-- An admitted request on port 8, alone. -/
def ans (kind : Nat) (f : RxFrame) : Answer := ⟨8, kind, 0, 0, f, 0, none, 0, [], none, []⟩
def ansReady (kind : Nat) (f : RxFrame) : State := { up8 with frank := { up8.frank with answers := [ans kind f] } }
/-- Slate 20 holds a new key in bank 1, with its tag, waiting for the edge. -/
def loaded : State :=
  let x : SlateChange := ⟨c, 20, false, 5, true, true, 0, 0, false⟩
  let s := { live with slate := { live.slate with changes := [x] } }
  s.setBank 20 1 ⟨0, 0, slateTag 20 (tagAttr 20 5 true true 0 0) (bytesOf 32 0)⟩
/-- The Letterbox runs with a record to fetch. -/
def box : State :=
  let s := (live.wr F.HOST_CTL_EN 1).wr F.HOST_CMD_TAIL_PTR 1
  { s with host := { s.host with running := true } }
/-- Noryr port `q` is in state `st`. -/
def nor (st q : Nat) : State := live.wr F.NOR_PORT_STAT_STATE st q
/-- A member in SEARCH with slate 0 as its usable pair slate and NP ACTIVE. -/
def keyed : State :=
  ((((live.wr F.SLATE_ATTR_VALID 1 0).wr F.SLATE_ATTR_USAGE Usage.pair 0).wr F.SLATE_ATTR_KLEN 1 0).wr F.NOR_PORT_STAT_STATE 5 5).wr F.PAIR_STAT_STATE 1
/-- An image with one REGS section, at byte 160: one entry. -/
def regsImage : List Nat :=
  [0x49, 0x58, 0x50, 0x52, 1, 0, 1, 0] ++ List.replicate 120 0 ++ [2, 0, 0, 0, 160, 0, 0, 0, 12, 0, 0, 0] ++ List.replicate 20 0 ++
  [0x14, 0, 0, 0, 7, 0, 0, 0, 0, 0, 0, 0]
def env : Env := ⟨[], [], [], 0, [], []⟩
end W

/-! ### Ill-formed operands are refused, one for each check of each command -/

/-- Operands at the low end of their ranges pass every check. -/
theorem test_operands_at_zero_are_well_formed_1 : ([
    .phaseSlip 1, .slewStart 0, .slewEnd 0, .timeStep (⟨.ring, 0, 0, 0⟩) 0 0, .timeStepApply 0, .timeSlew (⟨.ring, 0, 0, 0⟩) 0
    0 0, .timeMap (⟨.ring, 0, 0, 0⟩) 0, .classMapWrite 0 0, .timeSnap (⟨.ring, 0, 0, 0⟩) 0, .ridgeBEnable 0 0, .ridgeBDisable
    0 0, .addWrite 0 0 false 0, .addLoad 0 0, .cmpEnable 0 0 0, .cmpDisable 0 0 0, .cmpFire 0, .tdcEdge 0 false 0,
    .windowTimeout 0, .lockLost 0, .lockAcquired 0, .lockTimeout 0, .tdcChEnable 0 0 0, .tdcChDisable 0 0 0, .tdcStopDone 0,
    .tdcArrayEnable 0 0, .tdcCalDone 0 0 0, .substitute 0 0, .restore 0 0, .spareSwap 0 0, .spareWrite 0 0, .prescalerWrite 0
    0 0, .ringRdWrite 0 0 0, .slotEnable 0 0 0, .slotDisable 0 0 0, .rankWrite 0 0 0, .qualTimeDone 0, .holdoffDone 0,
    .rampEnd 0, .disputeEnd 0 0, .domainLocked 0, .refRequal (⟨.ring, 0, 0, 0⟩) 0, .ensSnap (⟨.ring, 0, 0, 0⟩) 0,
    .thatchEnable 0 0, .thatchDisable 0 0, .oscModeManual 0 0 0, .oscModeAuto 0 0 0, .oscModeOff 0 0 0, .oscSteerStep 0,
    .oscSteerApply 0, .oscCodeWrite 0 0 false 0, .uartSend 0, .oscPoll 0, .pollResponseEnd 0 [] false, .oscSend (⟨.ring, 0, 0,
    0⟩) 0 [], .probeRetry 0, .eavesSnap (⟨.ring, 0, 0, 0⟩) 0, .dpllEnable 0 0 0, .dpllDisable 0 0 0, .dpllStopDone 0,
    .dpllUpdate 0 [] 0] : List Instr).all (fun c => c.wf) = true := by decide +kernel

/-- Operands at the low end of their ranges pass every check. -/
theorem test_operands_at_zero_are_well_formed_2 : ([
    .inputValid 0 0 [], .revertSwitch 0 0 [], .dpllSwitch 0 0 0 [], .dpllLocked 0, .apllEnable 0 0 0 0, .apllDisable 0 0 0,
    .apllStopDone 0, .searchRetry 0, .apllLock 0, .apllLossOfLock 0 false, .apllRefReturn 0, .bypassReturn 0, .apllReturn
    (⟨.ring, 0, 0, 0⟩) 0, .outputEnable 0 0 0, .outputDisable 0 0 0, .fineSkewWrite 0 0 0, .ppsOfsWrite 0 0 0, .pulseStart 0,
    .pulseEnd 0, .outAlign (⟨.ring, 0, 0, 0⟩) 0 0, .alignSlewDone 0, .gnssEnable 0 0 [] 0, .gnssDisable 0 0, .gnssStopDone []
    0, .streamEnable 0 0 0, .sclkLoss 0, .sclkRestart 0, .jamSet 0 0, .jamClear 0 0, .channelPullInTimeout 0,
    .channelPhaseLock 0, .channelPhaseUnlock 0, .channelLost 0, .gnssChAssign (⟨.ring, 0, 0, 0⟩) 0, .epochLatch 0, .gnssSleep
    (⟨.ring, 0, 0, 0⟩) 0, .gnssWake (⟨.ring, 0, 0, 0⟩), .gnssSurvey (⟨.ring, 0, 0, 0⟩) 0, .gnssHintSave (⟨.ring, 0, 0, 0⟩),
    .gnssCold (⟨.ring, 0, 0, 0⟩), .groupEnable 0 0 0, .groupDisable 0 0 0, .moduleIdent 0 0 0, .portEnable 0 0 0, .portDisable
    0 0 0, .portStopDone false 0, .anResolved 0 0 0, .anTimeout 0, .trainingDone 0 [], .trainingTimeout 0, .alignLock 0 [],
    .alignTimeout 0, .linkFaultRx 0 false, .linkFaultClear 0, .linkDown 0, .adaptFreeze 0, .adaptResume 0, .eyeMeasure 0 0,
    .readapt 0 0 0, .readaptDone 0 0 0 0 0] : List Instr).all (fun c => c.wf) = true := by decide +kernel

/-- Operands at the low end of their ranges pass every check. -/
theorem test_operands_at_zero_are_well_formed_3 : ([
    .frameRx 0 (W.frame []) 0, .pauseRx 0 (W.frame []), .pauseExpire 0 0, .pauseRepeat 0, .esmcRx 0 (W.frame []), .esmcTimeout
    0, .esmcTx 0 false, .dozeEnter 0 0 0, .portWake 0 0 0 0, .corrReload 0 [], .pmRingEnable 0 0 0, .pmRingRdWrite 0 0 0,
    .launchArm 0 0 0 0, .launchCancel 0 0 0 0, .launchCommit 0 0 0 0 (⟨0, 0, 0, 0⟩), .launchSend 0 0, .launchEnd 0 0,
    .lqDisable 0 0 0, .lqStopDone 0, .pteEnable 0 0, .instanceEnable 0 0 0, .instanceDisable 0 0 0, .ptpMsgDue 0 0 0 0 (⟨0, 0,
    0, 0⟩) false, .followUpSend 0, .delayReqRx 0 (W.frame []) 0, .pdelayReqRx 0 (W.frame []) 0, .pdelayReqDue 0 (⟨0, 0, 0,
    0⟩), .pdelayRespRx 0 (W.frame []), .announceRx 0 (W.frame []), .foreignTimeout 0 0, .unicastRequestRx 0 (W.frame []),
    .cancelRx 0 (W.frame []), .sessAdd (⟨.ring, 0, 0, 0⟩) 0 [], .sessDel (⟨.ring, 0, 0, 0⟩) 0, .sessSa (⟨.ring, 0, 0, 0⟩) 0,
    .sessFlush (⟨.ring, 0, 0, 0⟩) 0, .clientEnable 0 0 0, .clientDreqDue 0 (⟨0, 0, 0, 0⟩), .clientMsgRx 0 (W.frame []),
    .ntpClientResponseRx 0 (W.frame []), .clientWindowEnd 0, .grantRenew 0, .clientAnnounceTimeout 0, .ntpRequestRx 0 (W.frame
    []) 0, .answerSend 0 (⟨0, 0, 0, 0⟩) false, .ntsRotate (⟨.ring, 0, 0, 0⟩) 0 0, .ntsCookieSeal (⟨.ring, 0, 0, 0⟩) 0 0 [] 0,
    .frankEnable 0 0, .ntpServeEnable 0 0, .ntsServeEnable 0 0, .pipeOosWrite 0 0, .kat 0 0, .katDone 0, .pipeParityError 0 0,
    .slateLoad (⟨.ring, 0, 0, 0⟩) 0 [], .slateDerive (⟨.ring, 0, 0, 0⟩) 0 0 [], .slateInvalidate (⟨.ring, 0, 0, 0⟩) 0,
    .slateKcv (⟨.ring, 0, 0, 0⟩) 0, .slateZeroise 0, .tamper 0] : List Instr).all (fun c => c.wf) = true := by decide +kernel

/-- Operands at the low end of their ranges pass every check. -/
theorem test_operands_at_zero_are_well_formed_4 : ([
    .persLockWrite 0 0, .loadLockWrite 0 0, .tampCfgWrite 0 0, .bar2Access false 0 0 [] (W.env), .cmdDoorbell 0 0, .cmdFetch
    [] [] false false none (W.env), .cplHeadWrite 0 0, .evtHeadWrite 0 0, .commandTimeout (⟨.ring, 0, 0, 0⟩) false, .regRd
    (⟨.ring, 0, 0, 0⟩) [] none (W.env), .regWr (⟨.ring, 0, 0, 0⟩) [] none (W.env), .regRmw (⟨.ring, 0, 0, 0⟩) [] (W.env),
    .tblRd (⟨.ring, 0, 0, 0⟩) [] 0, .tblWr (⟨.ring, 0, 0, 0⟩) [] [] (W.env), .sysNop (⟨.ring, 0, 0, 0⟩), .sysReset (⟨.ring, 0,
    0, 0⟩), .sysRelease (⟨.ring, 0, 0, 0⟩), .hostTxDescriptor 0 0 0 0 [] (⟨0, 0, 0, 0⟩) false, .hostRxPost 0 0 0 [],
    .letterboxEnable 0 0, .frameRingEnable 0 0 0, .mspiRead 0 0 (W.env), .mspiWrite 0 [] (W.env), .mailboxGo 0 0 (W.env),
    .norPortEnable 0 0 0, .norPortDisable 0 0 0, .norSignalDetect 0, .norTrained 0, .norTrainTimeout 0, .capRx 0 0 0,
    .speedLock 0, .speedTimeout 0, .norLinkDown 0, .norFrameRx 0 [] false false none (W.env), .norAckRx 0 0 0, .norNakRx 0 0
    0, .norReplayTimeout 0, .crdRx 0 0 0, .norAddrRx 0 0, .norLinkRx 0 0 0, .n1Enter 0, .n1Exit 0 false, .n2Request 0,
    .n2reqRx 0, .n2ackRx 0 false, .n2Exit 0, .tsExchangeDue 0 0, .tsqRx 0 0 0 0, .tsrRx 0 0 0, .tsRx 0 [], .pairEnable 0 0,
    .pairDisable 0 0, .mirrorRx [], .pairTake (⟨.ring, 0, 0, 0⟩) 0, .pairYield (⟨.ring, 0, 0, 0⟩), .pairTest (⟨.ring, 0, 0,
    0⟩) 0, .registerWrite 0 0 0 0 (W.env), .aliasWrite 0 0 0 0 (W.env), .crossingTimeout 0 0 0 false false 0 (W.env), .fcuAck
    0 0] : List Instr).all (fun c => c.wf) = true := by decide +kernel

/-- Operands at the low end of their ranges pass every check. -/
theorem test_operands_at_zero_are_well_formed_5 : ([
    .ackAll 0 0, .fcuCfgWrite 0 0 0, .cfgLockWrite 0 0, .fcuForce 0 0 0, .railFault 0, .fuseLoad 0 0 none 0, .imageVerify none
    none, .rtcWrite 0 0, .islandPowerWrite 0 0, .islandPowerDone 0, .maintRun (⟨.ring, 0, 0, 0⟩) 0, .activityStart 0,
    .activityEnd 0 false [], .waitMaxExceeded 0, .selftestStep 0 false none [] 0, .eccError 0 0 0, .dramOn 0 0, .dramOff 0 0,
    .channelPullInDone 0, .railReturn 0, .norPortStopDone 0, .outputStopDone 0, .pteStopDone 0, .frankStopDone 0,
    .dozeEntryDone 0, .eiRx 0] : List Instr).all (fun c => c.wf) = true := by decide +kernel

/-- An operand one past its range. -/
theorem test_wf_refuses_range_1 : ([
    .phaseSlip 5, .phaseSlip 0, .slewStart 2, .slewEnd 2, .timeStep (⟨.ring, 0, 0, 0⟩) 0 (2 ^ 64), .timeStepApply 2, .timeSlew
    (⟨.ring, 0, 0, 0⟩) 0 (2 ^ 64) 0, .addWrite 0 2 false 0, .addWrite 0 0 false (2 ^ 64), .cmpEnable 0 32 0, .cmpDisable 0 32
    0, .cmpFire 32, .tdcEdge 64 false 0, .tdcEdge 0 false 65536, .windowTimeout 48, .lockLost 48, .lockAcquired 48,
    .lockTimeout 48, .tdcChEnable 0 48 0, .tdcChDisable 0 48 0, .tdcStopDone 48, .tdcCalDone 48 0 0, .spareSwap 2 0,
    .prescalerWrite 0 64 0, .ringRdWrite 0 48 0, .slotEnable 0 24 0, .slotDisable 0 24 0, .rankWrite 0 24 0, .qualTimeDone 24,
    .holdoffDone 24, .rampEnd 24, .disputeEnd 24 0, .disputeEnd 0 24, .domainLocked 2, .oscModeManual 0 3 0, .oscModeAuto 0 3
    0, .oscModeOff 0 3 0, .oscSteerStep 3, .oscSteerApply 3, .oscCodeWrite 0 3 false 0, .uartSend 3, .oscPoll 3,
    .pollResponseEnd 3 [] false, .probeRetry 3, .dpllEnable 0 8 0, .dpllDisable 0 8 0, .dpllStopDone 8, .dpllUpdate 8 [] 0,
    .inputValid 8 0 [], .inputValid 0 4 [], .revertSwitch 8 0 [], .revertSwitch 0 4 [], .dpllSwitch 0 8 0 [], .dpllLocked 8,
    .apllEnable 0 6 0 0, .apllDisable 0 6 0, .apllStopDone 6, .searchRetry 6, .apllLock 6, .apllLossOfLock 6 false] : List Instr).all (fun c => !c.wf) = true := by decide +kernel

/-- An operand one past its range. -/
theorem test_wf_refuses_range_2 : ([
    .apllRefReturn 6, .bypassReturn 6, .outputEnable 0 24 0, .outputDisable 0 24 0, .fineSkewWrite 0 16 0, .ppsOfsWrite 0 8 0,
    .pulseStart 8, .pulseEnd 8, .alignSlewDone 24, .gnssEnable 0 0 [] 4, .gnssStopDone [] 4, .streamEnable 0 8 0, .sclkLoss 2,
    .sclkRestart 2, .jamSet 8 0, .jamClear 8 0, .channelPullInTimeout 384, .channelPhaseLock 384, .channelPhaseUnlock 384,
    .channelLost 384, .epochLatch 65536, .groupEnable 0 8 0, .groupDisable 0 8 0, .moduleIdent 8 0 0, .portEnable 0 32 0,
    .portDisable 0 32 0, .portStopDone false 32, .anResolved 32 0 0, .anTimeout 32, .trainingDone 32 [], .trainingTimeout 32,
    .alignLock 32 [], .alignTimeout 32, .linkFaultRx 32 false, .linkFaultClear 32, .linkDown 32, .adaptFreeze 32, .adaptResume
    32, .eyeMeasure 32 0, .readapt 0 32 0, .readaptDone 32 0 0 0 0, .frameRx 32 (W.frame []) 0, .pauseRx 32 (W.frame []),
    .pauseExpire 32 0, .pauseExpire 0 8, .pauseRepeat 32, .esmcRx 32 (W.frame []), .esmcTimeout 8, .esmcTx 8 false, .dozeEnter
    0 32 0, .portWake 0 32 0 0, .portWake 0 0 3 0, .corrReload 32 [], .pmRingEnable 0 8 0, .pmRingRdWrite 0 8 0, .launchArm 0
    8 0 0, .launchArm 0 0 2048 0, .launchCancel 0 8 0 0, .launchCancel 0 0 2048 0, .launchCommit 8 0 0 0 (⟨0, 0, 0, 0⟩)] : List Instr).all (fun c => !c.wf) = true := by decide +kernel

/-- An operand one past its range. -/
theorem test_wf_refuses_range_3 : ([
    .launchCommit 0 2048 0 0 (⟨0, 0, 0, 0⟩), .launchSend 8 0, .launchSend 0 2048, .launchEnd 8 0, .launchEnd 0 2048,
    .lqDisable 0 8 0, .lqStopDone 8, .instanceEnable 0 2 0, .instanceDisable 0 2 0, .ptpMsgDue 2 0 0 0 (⟨0, 0, 0, 0⟩) false,
    .ptpMsgDue 0 32 0 0 (⟨0, 0, 0, 0⟩) false, .ptpMsgDue 0 0 2 0 (⟨0, 0, 0, 0⟩) false, .ptpMsgDue 0 0 0 8193 (⟨0, 0, 0, 0⟩)
    false, .followUpSend 32, .delayReqRx 32 (W.frame []) 0, .pdelayReqRx 32 (W.frame []) 0, .pdelayReqDue 32 (⟨0, 0, 0, 0⟩),
    .pdelayRespRx 32 (W.frame []), .announceRx 32 (W.frame []), .foreignTimeout 2 0, .foreignTimeout 0 32, .unicastRequestRx
    32 (W.frame []), .cancelRx 32 (W.frame []), .clientEnable 0 4 0, .clientDreqDue 4 (⟨0, 0, 0, 0⟩), .clientMsgRx 32 (W.frame
    []), .ntpClientResponseRx 32 (W.frame []), .clientWindowEnd 4, .grantRenew 4, .clientAnnounceTimeout 4, .ntpRequestRx 32
    (W.frame []) 0, .answerSend 32 (⟨0, 0, 0, 0⟩) false, .katDone (2 ^ 12), .pipeParityError 12 0, .pipeParityError 0 32,
    .slateZeroise 256, .tamper 2, .bar2Access false (2 ^ 24) 0 [] (W.env), .hostTxDescriptor 8 0 0 0 [] (⟨0, 0, 0, 0⟩) false,
    .hostRxPost 0 8 0 [], .frameRingEnable 0 8 0, .mspiRead (2 ^ 24) 0 (W.env), .mspiWrite (2 ^ 24) [] (W.env), .norPortEnable
    0 6 0, .norPortDisable 0 6 0, .norSignalDetect 6, .norTrained 6, .norTrainTimeout 6, .capRx 6 0 0, .capRx 0 256 0, .capRx
    0 0 256, .speedLock 6, .speedTimeout 6, .norLinkDown 6, .norFrameRx 6 [] false false none (W.env), .norAckRx 6 0 0,
    .norAckRx 0 256 0, .norAckRx 0 0 256, .norNakRx 6 0 0, .norNakRx 0 256 0] : List Instr).all (fun c => !c.wf) = true := by decide +kernel

/-- An operand one past its range. -/
theorem test_wf_refuses_range_4 : ([
    .norNakRx 0 0 256, .norReplayTimeout 6, .crdRx 6 0 0, .crdRx 0 256 0, .crdRx 0 0 256, .norLinkRx 4 0 0, .n1Enter 6,
    .n1Exit 6 false, .n2Request 6, .n2reqRx 6, .n2ackRx 6 false, .n2Exit 6, .tsExchangeDue 6 0, .tsExchangeDue 0 (2 ^ 64),
    .tsqRx 6 0 0 0, .tsqRx 0 65536 0 0, .tsqRx 0 0 (2 ^ 64) 0, .tsqRx 0 0 0 (2 ^ 64), .tsrRx 6 0 0, .tsrRx 0 65536 0, .tsrRx 0
    0 (2 ^ 64), .tsRx 6 [], .registerWrite 0 (2 ^ 24) 0 0 (W.env), .registerWrite 0 0 4 0 (W.env), .registerWrite 0 0 0 (2 ^
    64) (W.env), .aliasWrite 0 (2 ^ 17) 0 0 (W.env), .aliasWrite 0 0 32 0 (W.env), .crossingTimeout 0 (2 ^ 24) 0 false false 0
    (W.env), .crossingTimeout 0 0 4 false false 0 (W.env), .crossingTimeout 0 0 0 false false (2 ^ 64) (W.env), .fcuCfgWrite 0
    100 0, .fcuForce 0 13 0, .railFault 9, .fuseLoad 0 3 none 0, .rtcWrite 0 (2 ^ 64), .islandPowerDone 16, .activityStart 11,
    .activityEnd 11 false [], .waitMaxExceeded 11, .selftestStep 256 false none [] 0, .selftestStep 0 false none [] 4,
    .eccError 4 0 0, .channelPullInDone 384, .railReturn 9, .norPortStopDone 6, .outputStopDone 24, .pteStopDone 7,
    .frankStopDone 3, .dozeEntryDone 32, .eiRx 6] : List Instr).all (fun c => !c.wf) = true := by decide +kernel

/-- A device number has 6 bits and a tag 10. -/
theorem test_wf_refuses_command_1 : ([
    .timeStep (⟨.ring, 0, 1024, 0⟩) 0 0, .timeStep (⟨.ring, 64, 0, 0⟩) 0 0, .timeSlew (⟨.ring, 0, 1024, 0⟩) 0 0 0, .timeSlew
    (⟨.ring, 64, 0, 0⟩) 0 0 0, .timeMap (⟨.ring, 0, 1024, 0⟩) 0, .timeMap (⟨.ring, 64, 0, 0⟩) 0, .timeSnap (⟨.ring, 0, 1024,
    0⟩) 0, .timeSnap (⟨.ring, 64, 0, 0⟩) 0, .refRequal (⟨.ring, 0, 1024, 0⟩) 0, .refRequal (⟨.ring, 64, 0, 0⟩) 0, .ensSnap
    (⟨.ring, 0, 1024, 0⟩) 0, .ensSnap (⟨.ring, 64, 0, 0⟩) 0, .oscSend (⟨.ring, 0, 1024, 0⟩) 0 [], .oscSend (⟨.ring, 64, 0, 0⟩)
    0 [], .eavesSnap (⟨.ring, 0, 1024, 0⟩) 0, .eavesSnap (⟨.ring, 64, 0, 0⟩) 0, .apllReturn (⟨.ring, 0, 1024, 0⟩) 0,
    .apllReturn (⟨.ring, 64, 0, 0⟩) 0, .outAlign (⟨.ring, 0, 1024, 0⟩) 0 0, .outAlign (⟨.ring, 64, 0, 0⟩) 0 0, .gnssChAssign
    (⟨.ring, 0, 1024, 0⟩) 0, .gnssChAssign (⟨.ring, 64, 0, 0⟩) 0, .gnssSleep (⟨.ring, 0, 1024, 0⟩) 0, .gnssSleep (⟨.ring, 64,
    0, 0⟩) 0, .gnssWake (⟨.ring, 0, 1024, 0⟩), .gnssWake (⟨.ring, 64, 0, 0⟩), .gnssSurvey (⟨.ring, 0, 1024, 0⟩) 0, .gnssSurvey
    (⟨.ring, 64, 0, 0⟩) 0, .gnssHintSave (⟨.ring, 0, 1024, 0⟩), .gnssHintSave (⟨.ring, 64, 0, 0⟩), .gnssCold (⟨.ring, 0, 1024,
    0⟩), .gnssCold (⟨.ring, 64, 0, 0⟩), .sessAdd (⟨.ring, 0, 1024, 0⟩) 0 [], .sessAdd (⟨.ring, 64, 0, 0⟩) 0 [], .sessDel
    (⟨.ring, 0, 1024, 0⟩) 0, .sessDel (⟨.ring, 64, 0, 0⟩) 0, .sessSa (⟨.ring, 0, 1024, 0⟩) 0, .sessSa (⟨.ring, 64, 0, 0⟩) 0,
    .sessFlush (⟨.ring, 0, 1024, 0⟩) 0, .sessFlush (⟨.ring, 64, 0, 0⟩) 0, .ntsRotate (⟨.ring, 0, 1024, 0⟩) 0 0, .ntsRotate
    (⟨.ring, 64, 0, 0⟩) 0 0, .ntsCookieSeal (⟨.ring, 0, 1024, 0⟩) 0 0 [] 0, .ntsCookieSeal (⟨.ring, 64, 0, 0⟩) 0 0 [] 0,
    .slateLoad (⟨.ring, 0, 1024, 0⟩) 0 [], .slateLoad (⟨.ring, 64, 0, 0⟩) 0 [], .slateDerive (⟨.ring, 0, 1024, 0⟩) 0 0 [],
    .slateDerive (⟨.ring, 64, 0, 0⟩) 0 0 [], .slateInvalidate (⟨.ring, 0, 1024, 0⟩) 0, .slateInvalidate (⟨.ring, 64, 0, 0⟩) 0,
    .slateKcv (⟨.ring, 0, 1024, 0⟩) 0, .slateKcv (⟨.ring, 64, 0, 0⟩) 0, .commandTimeout (⟨.ring, 0, 1024, 0⟩) false,
    .commandTimeout (⟨.ring, 64, 0, 0⟩) false, .regRd (⟨.ring, 0, 1024, 0⟩) [] none (W.env), .regRd (⟨.ring, 64, 0, 0⟩) []
    none (W.env), .regWr (⟨.ring, 0, 1024, 0⟩) [] none (W.env), .regWr (⟨.ring, 64, 0, 0⟩) [] none (W.env), .regRmw (⟨.ring,
    0, 1024, 0⟩) [] (W.env), .regRmw (⟨.ring, 64, 0, 0⟩) [] (W.env)] : List Instr).all (fun c => !c.wf) = true := by decide +kernel

/-- A device number has 6 bits and a tag 10. -/
theorem test_wf_refuses_command_2 : ([
    .tblRd (⟨.ring, 0, 1024, 0⟩) [] 0, .tblRd (⟨.ring, 64, 0, 0⟩) [] 0, .tblWr (⟨.ring, 0, 1024, 0⟩) [] [] (W.env), .tblWr
    (⟨.ring, 64, 0, 0⟩) [] [] (W.env), .sysNop (⟨.ring, 0, 1024, 0⟩), .sysNop (⟨.ring, 64, 0, 0⟩), .sysReset (⟨.ring, 0, 1024,
    0⟩), .sysReset (⟨.ring, 64, 0, 0⟩), .sysRelease (⟨.ring, 0, 1024, 0⟩), .sysRelease (⟨.ring, 64, 0, 0⟩), .pairTake (⟨.ring,
    0, 1024, 0⟩) 0, .pairTake (⟨.ring, 64, 0, 0⟩) 0, .pairYield (⟨.ring, 0, 1024, 0⟩), .pairYield (⟨.ring, 64, 0, 0⟩),
    .pairTest (⟨.ring, 0, 1024, 0⟩) 0, .pairTest (⟨.ring, 64, 0, 0⟩) 0, .maintRun (⟨.ring, 0, 1024, 0⟩) 0, .maintRun (⟨.ring,
    64, 0, 0⟩) 0] : List Instr).all (fun c => !c.wf) = true := by decide +kernel

/-- A word has 32 bits. -/
theorem test_wf_refuses_word_1 : ([
    .timeStep (⟨.ring, 0, 0, 0⟩) 4294967296 0, .timeSlew (⟨.ring, 0, 0, 0⟩) 4294967296 0 0, .timeSlew (⟨.ring, 0, 0, 0⟩) 0 0
    4294967296, .timeMap (⟨.ring, 0, 0, 0⟩) 4294967296, .classMapWrite 0 4294967296, .ridgeBEnable 0 4294967296,
    .ridgeBDisable 0 4294967296, .addLoad 0 4294967296, .cmpEnable 0 0 4294967296, .cmpDisable 0 0 4294967296, .tdcChEnable 0
    0 4294967296, .tdcChDisable 0 0 4294967296, .tdcArrayEnable 0 4294967296, .substitute 0 4294967296, .restore 0 4294967296,
    .spareWrite 0 4294967296, .prescalerWrite 0 0 4294967296, .ringRdWrite 0 0 4294967296, .slotEnable 0 0 4294967296,
    .slotDisable 0 0 4294967296, .rankWrite 0 0 4294967296, .refRequal (⟨.ring, 0, 0, 0⟩) 4294967296, .thatchEnable 0
    4294967296, .thatchDisable 0 4294967296, .oscModeManual 0 0 4294967296, .oscModeAuto 0 0 4294967296, .oscModeOff 0 0
    4294967296, .oscCodeWrite 0 0 false 4294967296, .oscSend (⟨.ring, 0, 0, 0⟩) 4294967296 [], .oscSend (⟨.ring, 0, 0, 0⟩) 0
    [4294967296], .dpllEnable 0 0 4294967296, .dpllDisable 0 0 4294967296, .dpllSwitch 0 0 4294967296 [], .apllEnable 0 0
    4294967296 0, .apllDisable 0 0 4294967296, .apllReturn (⟨.ring, 0, 0, 0⟩) 4294967296, .outputEnable 0 0 4294967296,
    .outputDisable 0 0 4294967296, .fineSkewWrite 0 0 4294967296, .ppsOfsWrite 0 0 4294967296, .outAlign (⟨.ring, 0, 0, 0⟩)
    4294967296 0, .outAlign (⟨.ring, 0, 0, 0⟩) 0 4294967296, .gnssEnable 0 4294967296 [] 0, .gnssDisable 0 4294967296,
    .streamEnable 0 0 4294967296, .gnssChAssign (⟨.ring, 0, 0, 0⟩) 4294967296, .gnssSleep (⟨.ring, 0, 0, 0⟩) 4294967296,
    .gnssSurvey (⟨.ring, 0, 0, 0⟩) 4294967296, .groupEnable 0 0 4294967296, .groupDisable 0 0 4294967296, .portEnable 0 0
    4294967296, .portDisable 0 0 4294967296, .readapt 0 0 4294967296, .dozeEnter 0 0 4294967296, .portWake 0 0 0 4294967296,
    .pmRingEnable 0 0 4294967296, .pmRingRdWrite 0 0 4294967296, .launchArm 0 0 0 4294967296, .launchCancel 0 0 0 4294967296,
    .lqDisable 0 0 4294967296] : List Instr).all (fun c => !c.wf) = true := by decide +kernel

/-- A word has 32 bits. -/
theorem test_wf_refuses_word_2 : ([
    .pteEnable 0 4294967296, .instanceEnable 0 0 4294967296, .instanceDisable 0 0 4294967296, .sessAdd (⟨.ring, 0, 0, 0⟩)
    4294967296 [], .sessDel (⟨.ring, 0, 0, 0⟩) 4294967296, .sessSa (⟨.ring, 0, 0, 0⟩) 4294967296, .sessFlush (⟨.ring, 0, 0,
    0⟩) 4294967296, .clientEnable 0 0 4294967296, .ntsRotate (⟨.ring, 0, 0, 0⟩) 4294967296 0, .ntsRotate (⟨.ring, 0, 0, 0⟩) 0
    4294967296, .ntsCookieSeal (⟨.ring, 0, 0, 0⟩) 4294967296 0 [] 0, .ntsCookieSeal (⟨.ring, 0, 0, 0⟩) 0 4294967296 [] 0,
    .frankEnable 0 4294967296, .ntpServeEnable 0 4294967296, .ntsServeEnable 0 4294967296, .pipeOosWrite 0 4294967296, .kat 0
    4294967296, .slateLoad (⟨.ring, 0, 0, 0⟩) 4294967296 [], .slateDerive (⟨.ring, 0, 0, 0⟩) 4294967296 0 [], .slateDerive
    (⟨.ring, 0, 0, 0⟩) 0 4294967296 [], .slateInvalidate (⟨.ring, 0, 0, 0⟩) 4294967296, .slateKcv (⟨.ring, 0, 0, 0⟩)
    4294967296, .persLockWrite 0 4294967296, .loadLockWrite 0 4294967296, .tampCfgWrite 0 4294967296, .bar2Access false 0 0
    [4294967296] (W.env), .cmdDoorbell 0 4294967296, .cmdFetch [4294967296] [] false false none (W.env), .cplHeadWrite 0
    4294967296, .evtHeadWrite 0 4294967296, .regRd (⟨.ring, 0, 0, 0⟩) [4294967296] none (W.env), .regWr (⟨.ring, 0, 0, 0⟩)
    [4294967296] none (W.env), .regRmw (⟨.ring, 0, 0, 0⟩) [4294967296] (W.env), .tblRd (⟨.ring, 0, 0, 0⟩) [4294967296] 0,
    .tblWr (⟨.ring, 0, 0, 0⟩) [4294967296] [] (W.env), .hostTxDescriptor 0 4294967296 0 0 [] (⟨0, 0, 0, 0⟩) false,
    .hostTxDescriptor 0 0 4294967296 0 [] (⟨0, 0, 0, 0⟩) false, .hostTxDescriptor 0 0 0 4294967296 [] (⟨0, 0, 0, 0⟩) false,
    .hostRxPost 0 0 4294967296 [], .letterboxEnable 0 4294967296, .frameRingEnable 0 0 4294967296, .mailboxGo 0 4294967296
    (W.env), .norPortEnable 0 0 4294967296, .norPortDisable 0 0 4294967296, .norFrameRx 0 [4294967296] false false none
    (W.env), .norAddrRx 4294967296 0, .norAddrRx 0 4294967296, .norLinkRx 0 4294967296 0, .norLinkRx 0 0 4294967296, .tsRx 0
    [4294967296], .pairEnable 0 4294967296, .pairDisable 0 4294967296, .mirrorRx [4294967296], .pairTake (⟨.ring, 0, 0, 0⟩)
    4294967296, .pairTest (⟨.ring, 0, 0, 0⟩) 4294967296, .aliasWrite 0 0 0 4294967296 (W.env), .fcuAck 0 4294967296, .ackAll 0
    4294967296, .fcuCfgWrite 0 0 4294967296, .cfgLockWrite 0 4294967296] : List Instr).all (fun c => !c.wf) = true := by decide +kernel

/-- A word has 32 bits. -/
theorem test_wf_refuses_word_3 : ([
    .fcuForce 0 0 4294967296, .islandPowerWrite 0 4294967296, .maintRun (⟨.ring, 0, 0, 0⟩) 4294967296, .dramOn 0 4294967296,
    .dramOff 0 4294967296] : List Instr).all (fun c => !c.wf) = true := by decide +kernel

/-- Requester 6 does not exist (Table REG-7). -/
theorem test_wf_refuses_requester_1 : ([
    .classMapWrite 6 0, .ridgeBEnable 6 0, .ridgeBDisable 6 0, .addWrite 6 0 false 0, .addLoad 6 0, .cmpEnable 6 0 0,
    .cmpDisable 6 0 0, .tdcChEnable 6 0 0, .tdcChDisable 6 0 0, .tdcArrayEnable 6 0, .substitute 6 0, .restore 6 0,
    .spareWrite 6 0, .prescalerWrite 6 0 0, .ringRdWrite 6 0 0, .slotEnable 6 0 0, .slotDisable 6 0 0, .rankWrite 6 0 0,
    .thatchEnable 6 0, .thatchDisable 6 0, .oscModeManual 6 0 0, .oscModeAuto 6 0 0, .oscModeOff 6 0 0, .oscCodeWrite 6 0
    false 0, .dpllEnable 6 0 0, .dpllDisable 6 0 0, .dpllSwitch 6 0 0 [], .apllEnable 6 0 0 0, .apllDisable 6 0 0,
    .outputEnable 6 0 0, .outputDisable 6 0 0, .fineSkewWrite 6 0 0, .ppsOfsWrite 6 0 0, .gnssEnable 6 0 [] 0, .gnssDisable 6
    0, .streamEnable 6 0 0, .groupEnable 6 0 0, .groupDisable 6 0 0, .portEnable 6 0 0, .portDisable 6 0 0, .readapt 6 0 0,
    .dozeEnter 6 0 0, .portWake 6 0 0 0, .pmRingEnable 6 0 0, .pmRingRdWrite 6 0 0, .launchArm 6 0 0 0, .launchCancel 6 0 0 0,
    .lqDisable 6 0 0, .pteEnable 6 0, .instanceEnable 6 0 0, .instanceDisable 6 0 0, .clientEnable 6 0 0, .frankEnable 6 0,
    .ntpServeEnable 6 0, .ntsServeEnable 6 0, .pipeOosWrite 6 0, .kat 6 0, .persLockWrite 6 0, .loadLockWrite 6 0,
    .tampCfgWrite 6 0] : List Instr).all (fun c => !c.wf) = true := by decide +kernel

/-- Requester 6 does not exist (Table REG-7). -/
theorem test_wf_refuses_requester_2 : ([
    .cmdDoorbell 6 0, .cplHeadWrite 6 0, .evtHeadWrite 6 0, .hostRxPost 6 0 0 [], .letterboxEnable 6 0, .frameRingEnable 6 0
    0, .mailboxGo 6 0 (W.env), .norPortEnable 6 0 0, .norPortDisable 6 0 0, .pairEnable 6 0, .pairDisable 6 0, .registerWrite
    6 0 0 0 (W.env), .aliasWrite 6 0 0 0 (W.env), .crossingTimeout 6 0 0 false false 0 (W.env), .fcuAck 6 0, .ackAll 6 0,
    .fcuCfgWrite 6 0 0, .cfgLockWrite 6 0, .fcuForce 6 0 0, .rtcWrite 6 0, .islandPowerWrite 6 0, .dramOn 6 0, .dramOff 6 0] : List Instr).all (fun c => !c.wf) = true := by decide +kernel

/-- A byte has 8 bits. -/
theorem test_wf_refuses_bytes_1 : ([
    .pollResponseEnd 0 [256] false, .frameRx 0 (W.frame [256]) 0, .pauseRx 0 (W.frame [256]), .esmcRx 0 (W.frame [256]),
    .delayReqRx 0 (W.frame [256]) 0, .pdelayReqRx 0 (W.frame [256]) 0, .pdelayRespRx 0 (W.frame [256]), .announceRx 0 (W.frame
    [256]), .unicastRequestRx 0 (W.frame [256]), .cancelRx 0 (W.frame [256]), .sessAdd (⟨.ring, 0, 0, 0⟩) 0 [256],
    .clientMsgRx 0 (W.frame [256]), .ntpClientResponseRx 0 (W.frame [256]), .ntpRequestRx 0 (W.frame [256]) 0, .ntsCookieSeal
    (⟨.ring, 0, 0, 0⟩) 0 0 [256] 0, .slateLoad (⟨.ring, 0, 0, 0⟩) 0 [256], .slateDerive (⟨.ring, 0, 0, 0⟩) 0 0 [256],
    .cmdFetch [] [256] false false none (W.env), .regWr (⟨.ring, 0, 0, 0⟩) [] (some [256]) (W.env), .tblWr (⟨.ring, 0, 0, 0⟩)
    [] [256] (W.env), .hostTxDescriptor 0 0 0 0 [256] (⟨0, 0, 0, 0⟩) false, .mspiWrite 0 [256] (W.env), .imageVerify (some
    [256]) none, .imageVerify none (some [256])] : List Instr).all (fun c => !c.wf) = true := by decide +kernel

/-- Only eight groups stop. -/
theorem test_wf_refuses_group : (Instr.portStopDone true 8).wf = false := by decide

/-! ### The spec's own worked examples -/

/-- R13's example: the target across the wrap lies 5 ms ahead. -/
theorem test_distance_across_the_wrap : ridgeDist 0x3C4B400000 0xFFFFFFF000000000 = 0x4C4B400000 := by decide

/-- 50 ns/s is 0.00262144 ru per tick (the slew example of spec/01_ridge_time.md). -/
theorem test_slew_offset : slewOffset 50 = 2882303762 := by decide

/-- JUMP_LIMIT 100 ns with 60 ns pending: +50 ns less what has run, 85 ns in all, is accepted and +80 ns is refused. -/
def slewing (ns : Nat) : State :=
  { W.live with ridge := { W.live.ridge with a := { W.live.ridge.a with limit := 100, pend := (ns * 65536 : Nat) * two40 } } }
theorem test_slew_accepted : (slewing 35).withinLimit 0 (50 * 65536) = true := by decide
theorem test_slew_refused : (slewing 60).withinLimit 0 (80 * 65536) = false := by decide

/-- The alias examples of R489: TDC_CH_CTL[5].OOS, bit 63 of RIDGE_A_COUNT, and B_FORCE_FREE. -/
theorem test_alias_words :
    aliasOf 0x2C9400 = some (0x64A0, 0) ∧ aliasOf 0x2C9414 = some (0x64A0, 5) ∧ aliasOf 0x2802FC = some (0x4014, 31) ∧
    aliasOf 0x300904 = some (0x8048, 1) := by decide

/-- The band search example of spec/05_loops_synthesis_outputs.md: the bands tried, and band 57 chosen. -/
def bandCounts : List (Nat × Nat) :=
  [(128, 8960), (64, 8320), (32, 8000), (48, 8160), (56, 8240), (60, 8280), (58, 8256), (57, 8246)]
theorem test_band_search_tries : trialBands bandCounts 8250 8 0 = [128, 64, 32, 48, 56, 60, 58, 57] := by decide +kernel
theorem test_band_search_chooses : chosenBand bandCounts 8250 = 57 := by decide +kernel

/-- Beat 100 of the weights example of spec/03_thatch_ensemble.md: 0.5, 0.4808 and 0.0192. -/
theorem test_weights_are_capped :
    normalise (capWeights (1 / 2) 24 (normalise [(8, 1 / 4), (10, 1 / 16), (12, 1 / 400)])) =
      [(8, 1 / 2), (10, 25 / 52), (12, 1 / 52)] := by decide +kernel

/-- The completion example of spec/12_host_letterbox.md: slot 62 of a ring of 64 on the first pass carries PHASE 1 and tag 0x022, and
slot 0 after the wrap PHASE 0 and tag 0x021. -/
theorem test_completion_phase_turns_at_the_wrap :
    cplWords (ptrPhase 62) ⟨⟨.ring, 0, 0x22, 0⟩, 0, false, false, false, 0, 0, 0⟩ = [0x80000022, 0, 0, 0] ∧
    ptrNext 6 12 63 = 0x1000 ∧ cplWords (ptrPhase 0x1000) ⟨⟨.ring, 0, 0x21, 0⟩, 0, false, false, false, 0, 0, 0⟩ = [0x21, 0, 0, 0] := by
  decide

/-- As in the example of spec/16_faults.md, an S2 source becomes live with slots 0 to 2 in use and FCU_SEQ at 0x40; its EVT is 0 here. -/
def threeRecords : State :=
  let s := forN 3 W.live (fun s k => (s.wr F.FCU_REC_W0_VALID 1 k).wr F.FCU_REC_SEQ_SEQ (0x3E + k) k)
  (((s.wr F.FCU_SEQ_SEQ 0x40).wr F.FCU_CFG_EVT 0 96).wr F.FCU_CFG_SEV 2 96).condOn 96 5
theorem test_fault_example :
    let t := threeRecords.close
    t.rd F.FCU_REC_W0_SRC 3 = 96 ∧ t.rd F.FCU_REC_W0_SEV 3 = 2 ∧ t.rd F.FCU_REC_SEQ_SEQ 3 = 0x41 ∧
      t.rd F.FCU_REC_PRIOR_PRIOR 3 = 0x40 ∧ t.on F.FCU_PEND_BIT 96 = true ∧ t.rd F.FCU_CNT_COUNT 96 = 1 ∧ t.pins.faultLow = true := by
  decide +kernel

/-- With no slot free an occurrence is only counted (R513). -/
theorem test_no_free_slot :
    let t := ((forN 64 W.live (fun s k => s.wr F.FCU_REC_W0_VALID 1 k)).raise 96 5).close
    t.rd F.FCU_OVF_NOREC = 1 ∧ t.rd F.FCU_CNT_COUNT 96 = 1 ∧ t.rd F.FCU_SEQ_SEQ = 0 := by decide +kernel

/-- With the pending bit set an occurrence is only counted (R513). -/
theorem test_pending_source_is_only_counted :
    let t := ((W.live.wr F.FCU_PEND_BIT 1 96).raise 96 5).close
    t.rd F.FCU_OVF_NOREC = 0 ∧ t.rd F.FCU_CNT_COUNT 96 = 1 ∧ t.rd F.FCU_SEQ_SEQ = 0 := by decide +kernel

/-- The pins of a running device with nothing live show what they must. -/
def quiet : State := { W.live with pins := { W.live.pins with faultLow := false } }
theorem test_quiet_shows_its_pins : quiet.PinsShown := by
  have h : ∀ fs, quiet.severe fs = false := fun fs => rfl
  refine ⟨fun _ => Iff.intro (fun x => ?_) (fun x => ?_), fun _ => Iff.intro (fun x => ?_) (fun x => ?_)⟩
  · exact absurd x (by decide)
  · rcases x with x | ⟨fs, x⟩
    · exact absurd x (by decide)
    · rw [h] at x
      exact absurd x (by decide)
  · exact absurd x (by decide)
  · rcases x.2 with ⟨k, hk, v, -⟩ | y
    · exact absurd v (by revert k; decide)
    · exact absurd y.1 (by decide)

/-! ### Witnesses: the hypotheses of each statement, clause by clause, are met together -/

/-- The hypotheses of BeatsRunTheirPhases are met. -/
theorem witness_BeatsRunTheirPhases_1 :
    (∃ (s : State) (fec : List (Nat × Nat × Nat)) (prbs : List (Nat × Nat)) (load : Nat), (s.ridge.running = true) ∧ (s.on
    F.TOP_STAT_SAFE = false)) ∧
    (∃ (s : State) (endAt : Nat) (epoch : List (List Nat)), (s.phaseFree 1 = true)) ∧
    (∃ (s : State) (endAt : Nat), (s.phaseFree 2 = true)) ∧
    (∃ (s : State) (endAt : Nat) (temp : Int), (s.phaseFree 3 = true)) ∧
    (∃ (s : State) (endAt : Nat) (checks : List (Nat × Nat)), (s.phaseFree 4 = true)) ∧
    (∃ (s : State) (p : Nat), (1 ≤ p ∧ p ≤ 4)) :=
  ⟨⟨W.live, [], [], 0, by decide +kernel⟩,
   ⟨W.live, 9000, [], by decide +kernel⟩,
   ⟨{ W.live with ridge := { W.live.ridge with done := [1] } }, 20000, by decide +kernel⟩,
   ⟨{ W.live with ridge := { W.live.ridge with done := [1, 2] } }, 30000, 100, by decide +kernel⟩,
   ⟨{ W.live with ridge := { W.live.ridge with done := [1, 2, 3] } }, 40000, [], by decide +kernel⟩,
   ⟨W.live, 3, by decide +kernel⟩⟩

/-- The hypotheses of BeatsRunTheirPhases are met. -/
theorem witness_BeatsRunTheirPhases_2 :
    ∃ (s : State) , (s.ridge.running = true) ∧ (s.ridge.overrun = false) ∧ (s.ridge.done = []) :=
  ⟨W.live, by decide +kernel⟩

/-- The hypotheses of SlewCommandsAnswer are met. -/
theorem witness_SlewCommandsAnswer :
    (∃ (s : State) (c : CmdRef) (w0 corr w3 : Nat), (s.notHolder = false) ∧ ((bits w0 0 1 = 1 → s.on F.RIDGE_CTL_B_EN = true))
    ∧ (s.withinLimit (bits w0 0 1) (toS 64 corr) = true)) ∧
    (∃ (s : State) (c : CmdRef) (w0 corr w3 : Nat), (s.notHolder = true)) ∧
    (∃ (s : State) (c : CmdRef) (w0 corr w3 : Nat), (s.notHolder = false) ∧ (bits w0 0 1 = 1) ∧ (s.on F.RIDGE_CTL_B_EN =
    false)) ∧
    (∃ (s : State) (dom : Nat), (dom < 2) ∧ ((s.dom dom).pend ≠ 0) ∧ (s.domRuns dom = true)) ∧
    (∃ (s : State) (dom : Nat), (dom < 2) ∧ ((s.dom dom).slewing = true) ∧ (s.domRuns dom = true) ∧ (0 < slewOffset (s.dom
    dom).rate)) :=
  ⟨⟨W.live, W.c, 0, 1, 0, by decide +kernel⟩,
   ⟨W.live.wr F.PAIR_STAT_STATE 3, W.c, 0, 1, 0, by decide +kernel⟩,
   ⟨W.live, W.c, 1, 1, 0, by decide +kernel⟩,
   ⟨{ W.live with ridge := { W.live.ridge with a := { W.live.ridge.a with pend := 5 } } }, 0, by decide +kernel⟩,
   ⟨{ W.live with ridge := { W.live.ridge with a := { W.live.ridge.a with pend := 5, slewing := true, slewMax := 100 } } }, 0, by decide +kernel⟩⟩

/-- The hypotheses of TimeSlewRefusedChangesNothing are met. -/
theorem witness_TimeSlewRefusedChangesNothing :
    ∃ (s : State) (c : CmdRef) (w0 corr w3 : Nat), (s.notHolder = false) ∧ ((bits w0 0 1 = 1 → s.on F.RIDGE_CTL_B_EN = true))
    ∧ (s.withinLimit (bits w0 0 1) (toS 64 corr) = false) :=
  ⟨W.live, W.c, 0, 2 ^ 60, 0, by decide +kernel⟩

/-- The hypotheses of TimeStepIsLimitedByItsMagnitudeAlone are met. -/
theorem witness_TimeStepIsLimitedByItsMagnitudeAlone :
    (∃ (s : State) (c : CmdRef) (w0 step : Nat), (s.notHolder = false) ∧ ((bits w0 0 1 = 1 → s.on F.RIDGE_CTL_B_EN = true)) ∧
    (bit w0 2 = false) ∧ ((toS 64 step).natAbs < 2 ^ 63)) ∧
    (∃ (s : State) (c : CmdRef) (w0 step : Nat), (s.notHolder = false) ∧ ((bits w0 0 1 = 1 → s.on F.RIDGE_CTL_B_EN = true)) ∧
    (bit w0 2 = false) ∧ (2 ^ 63 ≤ (toS 64 step).natAbs)) :=
  ⟨⟨W.live, W.c, 0, 5, by decide +kernel⟩,
   ⟨W.live, W.c, 0, 2 ^ 63, by decide +kernel⟩⟩

/-- The hypotheses of TimeStepsQueueAndApply are met. -/
theorem witness_TimeStepsQueueAndApply :
    (∃ (s : State) (c : CmdRef) (w0 step : Nat), (s.notHolder = false) ∧ ((bits w0 0 1 = 1 → s.on F.RIDGE_CTL_B_EN = true)) ∧
    (bit w0 2 = true) ∧ (s.stepNeeded (bits w0 0 1) = true)) ∧
    (∃ (s : State) (c : CmdRef) (w0 step : Nat), (s.notHolder = false) ∧ ((bits w0 0 1 = 1 → s.on F.RIDGE_CTL_B_EN = true)) ∧
    (bit w0 2 = true) ∧ (s.stepNeeded (bits w0 0 1) = false)) ∧
    (∃ (s : State) (q : StepReq), (s.domRuns 0 = true) ∧ (s.dueSteps 0 = [q]) ∧ (s.ridge.autoA = none) ∧ (q.useReq = false) ∧
    (q.step.natAbs < 2 ^ 63)) ∧
    (∃ (s : State) (x : Int), (s.domRuns 1 = true) ∧ (s.ridge.autoB = some x) ∧ (s.dueSteps 1 = [])) :=
  ⟨⟨W.live.wr F.RIDGE_STAT_A_STEP_NEEDED 1, W.c, 4, 5, by decide +kernel⟩,
   ⟨W.live, W.c, 4, 0, by decide +kernel⟩,
   ⟨{ W.live with ridge := { W.live.ridge with steps := [{ ref := W.c, dom := 0, applySec := false, useReq := false, step := 7 }] } }, { ref := W.c, dom := 0, applySec := false, useReq := false, step := 7 }, by decide +kernel⟩,
   ⟨{ (W.live.wr F.RIDGE_CTL_B_EN 1) with ridge := { W.live.ridge with autoB := some 9 } }, 9, by decide +kernel⟩⟩

/-- The hypotheses of RidgeRegistersAndMaps are met. -/
theorem witness_RidgeRegistersAndMaps_1 :
    (∃ (s : State) (req w : Nat), (Admitted s req)) ∧
    (∃ (s : State) , (s.ridge.mapStaged = true)) ∧
    (∃ (s : State) (c : CmdRef) (buf : Nat), (c.src = .ring) ∧ (s.host.outFail = none)) ∧
    (∃ (s : State) (req w : Nat), (Admitted s req) ∧ (s.on F.RIDGE_CTL_B_EN = false)) ∧
    (∃ (s : State) (req w : Nat), (Admitted s req) ∧ (s.on F.RIDGE_CTL_B_EN = true) ∧ (s.ridge.steps = [])) ∧
    (∃ (s : State) (req dom v : Nat), (Admitted s req) ∧ (dom < 2) ∧ (s.addendOpen dom = true)) :=
  ⟨⟨W.live, 3, 5, by decide +kernel⟩,
   ⟨{ W.live with ridge := { W.live.ridge with mapStaged := true } }, by decide +kernel⟩,
   ⟨W.live, W.c, 4096, by decide +kernel⟩,
   ⟨W.live, 3, 0, by decide +kernel⟩,
   ⟨W.live.wr F.RIDGE_CTL_B_EN 1, 3, 0, by decide +kernel⟩,
   ⟨W.live, 3, 1, 5, by decide +kernel⟩⟩

/-- The hypotheses of RidgeRegistersAndMaps are met. -/
theorem witness_RidgeRegistersAndMaps_2 :
    (∃ (s : State) (req dom v : Nat), (Admitted s req) ∧ (dom < 2) ∧ (s.addendOpen dom = true)) ∧
    (∃ (s : State) (req : Nat), (Admitted s req) ∧ (s.addendOpen 0 = true)) ∧
    (∃ (s : State) (req : Nat), (Admitted s req) ∧ (s.addendOpen 0 = false)) :=
  ⟨⟨W.live, 3, 1, 5, by decide +kernel⟩,
   ⟨W.live, 3, by decide +kernel⟩,
   ⟨W.live.wr F.DPLL_STAT_STATE 3, 3, by decide +kernel⟩⟩

/-- The hypotheses of ComparatorsArmFireAndDisarm are met. -/
theorem witness_ComparatorsArmFireAndDisarm :
    (∃ (s : State) (req n w : Nat), (Admitted s req) ∧ (n < 32) ∧ (s.on F.RIDGE_CMP_CTL_EN n = false) ∧ (bit w 31 = false) ∧
    (bits w 2 1 = 0) ∧ (0 < ridgeDist (s.rd F.RIDGE_CMP_TGT_VALUE n) (s.count (bits w 1 1)))) ∧
    (∃ (s : State) (req n w : Nat), (Admitted s req) ∧ (n < 32) ∧ (s.on F.RIDGE_CMP_CTL_EN n = false) ∧ (bit w 31 = false) ∧
    (bits w 2 1 = 0) ∧ (bits w 7 1 = 0) ∧ (ridgeDist (s.rd F.RIDGE_CMP_TGT_VALUE n) (s.count (bits w 1 1)) < 0)) ∧
    (∃ (s : State) (req n w : Nat), (Admitted s req) ∧ (n < 32) ∧ (s.on F.RIDGE_CMP_CTL_EN n = true) ∧ (bit w 31 = false) ∧
    (cmpCtlFlds.all (fun f => f.among [F.RIDGE_CMP_CTL_EN] || bits w f.lo f.w == s.rd f n) = true)) ∧
    (∃ (s : State) (n : Nat), (n < 32) ∧ (s.on F.RIDGE_CMP_STAT_ARMED n = true) ∧ (s.domRuns (s.rd F.RIDGE_CMP_CTL_DOM n) =
    true) ∧ (s.ridge.skipped.getD n false = false) ∧ (s.on F.RIDGE_CMP_CTL_EVT n = false) ∧ (s.on F.RIDGE_CMP_CTL_TRIG n =
    false) ∧ (s.on F.RIDGE_CMP_CTL_SNAP n = false) ∧ (s.on F.RIDGE_CMP_CTL_MODE n = false)) :=
  ⟨⟨W.live.wr F.RIDGE_CMP_TGT_VALUE 1000 2, 3, 2, 0, by decide +kernel⟩,
   ⟨W.live.wr F.RIDGE_CMP_TGT_VALUE (2 ^ 64 - 1) 2, 3, 2, 0, by decide +kernel⟩,
   ⟨W.live.wr F.RIDGE_CMP_CTL_EN 1 5, 3, 5, 0, by decide +kernel⟩,
   ⟨(W.live.wr F.RIDGE_CMP_STAT_ARMED 1 3).wr F.RIDGE_CMP_TGT_VALUE 500 3, 3, by decide +kernel⟩⟩

/-- The hypotheses of EdgesPassThePrescaler are met. -/
theorem witness_EdgesPassThePrescaler :
    (∃ (s : State) (src pos : Nat), (src < 64) ∧ (s.tdc.preRise.getD src 0 ≠ 0)) ∧
    (∃ (s : State) (src n pos : Nat), (src < 64) ∧ (n < 48) ∧ (s.tdc.ch.length = 48) ∧ (s.tdc.preRise.getD src 0 = 0) ∧
    (s.measOk = true) ∧ ((∀ m, m < 48 → m ≠ n → s.tdcState m = 0)) ∧ (s.tdcState n = 2) ∧ (s.on F.TDC_CH_CTL_MODE n = false) ∧
    (s.on F.TDC_CH_CTL_START_FALL n = false) ∧ (s.rd F.TDC_CH_SRC_START_SRC n = src) ∧ (inDeadTime (s.tch n).lastStart
    (s.rawTime pos) = true)) ∧
    (∃ (s : State) (n : Nat), (s.rd F.TDC_CH_STAT_WINDOW n = 2) ∧ (s.on F.TDC_CH_CTL_RING_EN n = false)) :=
  ⟨⟨{ W.live with tdc := { W.live.tdc with preRise := List.replicate 64 3 } }, 5, 0, by decide +kernel⟩,
   ⟨W.oneChannel, 7, 3, 0, by decide +kernel⟩,
   ⟨W.live.wr F.TDC_CH_STAT_WINDOW 2 4, 4, by decide +kernel⟩⟩

/-- The hypotheses of ChannelsLockStartAndStop are met. -/
theorem witness_ChannelsLockStartAndStop_1 :
    (∃ (s : State) (req n w : Nat), (Admitted s req) ∧ (n < 48) ∧ (s.tdcState n = 0) ∧ (s.on F.TDC_CH_CTL_EN n = false) ∧
    (s.on F.TDC_CH_CTL_OOS n = false) ∧ (s.isSpare n = false) ∧ (s.testing n = false) ∧ (s.tdcFine n = true) ∧ (Fits
    tdcCtlFlds (setBit w 0 true) = true) ∧ (bits w 5 1 = 0)) ∧
    (∃ (s : State) (n : Nat), (s.tdcFine n = true) ∧ (s.measOk = true) ∧ (s.tdcState n = 1)) ∧
    (∃ (s : State) (n : Nat), (s.tdcFine n = true) ∧ (s.on F.TDC_CH_STAT_LOCKED n = true)) ∧
    (∃ (s : State) (n : Nat), (s.tdcFine n = true) ∧ (s.on F.TDC_CH_STAT_LOCKED n = false) ∧ (s.tdcState n = 1)) ∧
    (∃ (s : State) (req n w : Nat), (Admitted s req) ∧ (n < 48) ∧ (s.tdcState n = 2) ∧ (s.on F.TDC_CH_CTL_EN n = true) ∧ (s.on
    F.TDC_CH_CTL_OOS n = false) ∧ (s.isSpare n = false) ∧ (s.testing n = false)) ∧
    (∃ (s : State) (n : Nat), (s.tdcState n = 7) ∧ (s.isRunning Act.tdcCal n = false) ∧ (s.on F.TDC_CH_STAT_PENDING_ENABLE n =
    false)) :=
  ⟨⟨W.live, 3, 2, 2 ^ 24, by decide +kernel⟩,
   ⟨((W.live.wr F.TDC_CTL_EN 1).wr F.TDC_STAT_MEAS_LOCK 1).wr F.TDC_CH_STAT_STATE 1 3, 3, by decide +kernel⟩,
   ⟨W.live.wr F.TDC_CH_STAT_LOCKED 1 3, 3, by decide +kernel⟩,
   ⟨W.live.wr F.TDC_CH_STAT_STATE 1 3, 3, by decide +kernel⟩,
   ⟨(W.live.wr F.TDC_CH_STAT_STATE 2 3).wr F.TDC_CH_CTL_EN 1 3, 3, 3, 2 ^ 24, by decide +kernel⟩,
   ⟨W.live.wr F.TDC_CH_STAT_STATE 7 3, 3, by decide +kernel⟩⟩

/-- The hypotheses of ChannelsLockStartAndStop are met. -/
theorem witness_ChannelsLockStartAndStop_2 :
    ∃ (s : State) (n : Nat), (s.tdcState n = 7) ∧ (s.isRunning Act.tdcCal n = false) ∧ (s.on F.TDC_CH_STAT_PENDING_ENABLE n =
    true) ∧ (s.tdcFine n = true) :=
  ⟨(W.live.wr F.TDC_CH_STAT_STATE 7 3).wr F.TDC_CH_STAT_PENDING_ENABLE 1 3, 3, by decide +kernel⟩

/-- The hypotheses of MeasurementClockAndCrossbar are met. -/
theorem witness_MeasurementClockAndCrossbar_1 :
    (∃ (s : State) , (s.measOk = true)) ∧
    (∃ (s : State) , (s.on F.TDC_CTL_EN = true) ∧ (s.on F.TDC_STAT_MEAS_LOCK = false)) ∧
    (∃ (s : State) (req w : Nat), (Admitted s req) ∧ (bit w 0 = true)) ∧
    (∃ (s : State) (req w : Nat), (Admitted s req) ∧ (s.on F.TDC_CTL_EN = true) ∧ (bit w 0 = false)) ∧
    (∃ (s : State) (req src w : Nat), (Admitted s req) ∧ (src < 64) ∧ (s.srcInUse src = false) ∧ (Fits [F.TDC_XB_PRE_DIV] w =
    true)) ∧
    (∃ (s : State) (req src w : Nat), (Admitted s req) ∧ (src < 64) ∧ (s.srcInUse src = true) ∧ (bits w 0 17 ≠ s.rd
    F.TDC_XB_PRE_DIV src)) :=
  ⟨⟨(W.live.wr F.TDC_CTL_EN 1).wr F.TDC_STAT_MEAS_LOCK 1, by decide +kernel⟩,
   ⟨W.live.wr F.TDC_CTL_EN 1, by decide +kernel⟩,
   ⟨W.live, 3, 1, by decide +kernel⟩,
   ⟨W.live.wr F.TDC_CTL_EN 1, 3, 0, by decide +kernel⟩,
   ⟨W.live, 3, 5, 10, by decide +kernel⟩,
   ⟨(W.oneChannel.wr F.TDC_CH_CTL_EN 1 3), 3, 7, 10, by decide +kernel⟩⟩

/-- The hypotheses of MeasurementClockAndCrossbar are met. -/
theorem witness_MeasurementClockAndCrossbar_2 :
    ∃ (s : State) (req n w : Nat), (Admitted s req) ∧ (n < 48) ∧ ((s.tch n).ringLost = 0) :=
  ⟨W.live, 3, 5, 10, by decide +kernel⟩

/-- The hypotheses of SparesShadowSwapAndReturn are met. -/
theorem witness_SparesShadowSwapAndReturn :
    (∃ (s : State) (req w : Nat), (Admitted s req) ∧ (s.spareCh 0 = 0x3F) ∧ (s.spareCh 1 = 0x3F) ∧ (bits w 0 6 < 8) ∧ (bits w
    8 6 = 0x3F) ∧ (s.on F.TDC_CH_CTL_EN (bits w 0 6) = false) ∧ (s.tdcState (bits w 0 6) = 0)) ∧
    (∃ (s : State) (req w : Nat), (Admitted s req) ∧ (s.spareCh (bits w 8 1) < 8) ∧ (bits w 0 6 < 48) ∧ (s.tdcState (s.spareCh
    (bits w 8 1)) = 4) ∧ (s.tdcState (bits w 0 6) = 2) ∧ (s.on F.TDC_CH_CTL_MODE (bits w 0 6) = false) ∧ (s.tdcPhys (bits w 0
    6) = bits w 0 6)) ∧
    (∃ (s : State) (req w : Nat), (Admitted s req) ∧ (8 ≤ s.spareCh (bits w 8 1))) ∧
    (∃ (s : State) (req w : Nat), (Admitted s req) ∧ (s.spareFor (bits w 8 1) = bits w 0 6) ∧ (bits w 0 6 < 48) ∧ (s.tdcState
    (bits w 0 6) = 2) ∧ (s.on F.TDC_CH_CTL_MODE (bits w 0 6) = false) ∧ (s.tdc.subs = [])) ∧
    (∃ (s : State) (sel : Nat) (diff : Int) (q : SubReq), (s.tdc.subs.find? (fun q => q.sel == sel) = some q) ∧ (q.restore =
    false)) ∧
    (∃ (s : State) (sel : Nat) (diff : Int) (q : SubReq), (s.tdc.subs.find? (fun q => q.sel == sel) = some q) ∧ (q.restore =
    true)) :=
  ⟨⟨W.live, 3, 0x3F02, by decide +kernel⟩,
   ⟨((W.live.wr F.TDC_SPARE_SPARE0 2).wr F.TDC_CH_STAT_STATE 4 2).wr F.TDC_CH_STAT_STATE 2 5, 3, 5, by decide +kernel⟩,
   ⟨W.live, 3, 5, by decide +kernel⟩,
   ⟨(W.live.wr F.TDC_SUB_STAT_SPARE0_FOR 5).wr F.TDC_CH_STAT_STATE 2 5, 3, 5, by decide +kernel⟩,
   ⟨{ (W.live.wr F.TDC_SPARE_SPARE0 2) with tdc := { W.live.tdc with subs := [⟨0, 5, false⟩] } }, 0, 4, ⟨0, 5, false⟩, by decide +kernel⟩,
   ⟨{ (W.live.wr F.TDC_SPARE_SPARE0 2) with tdc := { W.live.tdc with subs := [⟨0, 5, true⟩] } }, 0, 4, ⟨0, 5, true⟩, by decide +kernel⟩⟩

/-- The hypotheses of SlotsQualifyAndRetire are met. -/
theorem witness_SlotsQualifyAndRetire_1 :
    (∃ (s : State) (req n w : Nat), (Admitted s req) ∧ (n < 24) ∧ (s.ens.run = false) ∧ (Fits [F.ENS_SLOT_CFG_QUAL_TIME] w =
    true) ∧ (s.on F.ENS_SLOT_CFG_EN n = false)) ∧
    (∃ (s : State) (req n w : Nat), (Admitted s req) ∧ ((n = 10 ∨ n = 11)) ∧ (s.ens.run = true) ∧ (s.on F.ENS_SLOT_CFG_EN n =
    false) ∧ (s.slotState n = 0) ∧ (s.rank n ≠ 0)) ∧
    (∃ (s : State) (req n w : Nat), (Admitted s req) ∧ (n < 24) ∧ (s.ens.run = true) ∧ (s.on F.ENS_SLOT_CFG_EN n = true)) ∧
    (∃ (s : State) (req n w : Nat), (Admitted s req) ∧ (n < 24)) ∧
    (∃ (s : State) (n : Nat), (n < 24) ∧ (s.slotState n = 2) ∧ (s.rank n ≠ 0)) ∧
    (∃ (s : State) (n : Nat), (n < 24) ∧ (s.slotState n = 6) ∧ (s.rd F.ENS_SLOT_STAT_CAUSE n ≠ 7) ∧ (s.rank n ≠ 0)) :=
  ⟨⟨W.live, 3, 5, 2 ^ 20, by decide +kernel⟩,
   ⟨{ (W.live.wr F.ENS_SLOT_RANK_RANK 3 10) with ens := { W.live.ens with run := true } }, 3, 10, 2 ^ 20, by decide +kernel⟩,
   ⟨{ (W.live.wr F.ENS_SLOT_CFG_EN 1 10) with ens := { W.live.ens with run := true } }, 3, 10, 2 ^ 20, by decide +kernel⟩,
   ⟨W.live, 3, 10, 5, by decide +kernel⟩,
   ⟨(W.live.wr F.ENS_SLOT_RANK_RANK 3 10).wr F.ENS_SLOT_STAT_STATE 2 10, 10, by decide +kernel⟩,
   ⟨(W.live.wr F.ENS_SLOT_RANK_RANK 3 10).wr F.ENS_SLOT_STAT_STATE 6 10, 10, by decide +kernel⟩⟩

/-- The hypotheses of SlotsQualifyAndRetire are met. -/
theorem witness_SlotsQualifyAndRetire_2 :
    (∃ (s : State) (n : Nat), (n < 24) ∧ (s.slotState n = 4) ∧ (s.rank n ≠ 0) ∧ ((s.slot n).exit.isSome = true)) ∧
    (∃ (s : State) (n : Nat), (n < 24) ∧ (s.slotState n = 4) ∧ ((s.slot n).exit = none)) ∧
    (∃ (s : State) (req w : Nat), (Admitted s req) ∧ (s.on F.ENS_CTL_EN = false) ∧ (s.ens.stopping = false)) ∧
    (∃ (s : State) (req w : Nat), (Admitted s req) ∧ (s.on F.ENS_CTL_EN = true) ∧ (s.ens.stopping = false)) :=
  ⟨⟨((W.live.wr F.ENS_SLOT_RANK_RANK 3 10).wr F.ENS_SLOT_STAT_STATE 4 10).setSlot 10 { W.live.slot 10 with exit := some 0 }, 10, by decide +kernel⟩,
   ⟨W.live.wr F.ENS_SLOT_STAT_STATE 4 10, 10, by decide +kernel⟩,
   ⟨W.live, 3, 0, by decide +kernel⟩,
   ⟨W.live.wr F.ENS_CTL_EN 1, 3, 0, by decide +kernel⟩⟩

/-- The hypotheses of DisputesLocksAndRequalification are met. -/
theorem witness_DisputesLocksAndRequalification :
    (∃ (s : State) (n m : Nat), (s.ens.disputes.any (fun d => d.i == n && d.j == m) = true) ∧ (s.slotState n = 5) ∧ (s.rank n
    ≠ 0)) ∧
    (∃ (s : State) (dom : Nat), (dom < 2) ∧ (s.domState dom = 1) ∧ (s.domEnabled dom = true) ∧ (s.hasTrace dom = true) ∧
    (s.lockWithin dom 1 = true)) ∧
    (∃ (s : State) (c : CmdRef) (w0 : Nat), (s.notHolder = false) ∧ (s.requalifiable (bits w0 0 5) = true)) ∧
    (∃ (s : State) (c : CmdRef) (w0 : Nat), (s.notHolder = false) ∧ (s.requalifiable (bits w0 0 5) = false)) ∧
    (∃ (s : State) (c : CmdRef) (w0 : Nat), (s.notHolder = true)) ∧
    (∃ (s : State) (c : CmdRef) (n : Nat), (s.ens.requal = [(c, n)]) ∧ (s.slotState n = 6) ∧ (n < 24) ∧ (s.rd
    F.ENS_SLOT_STAT_CAUSE n ≠ 7) ∧ (s.rank n ≠ 0)) :=
  ⟨⟨{ ((W.live.wr F.ENS_SLOT_RANK_RANK 3 10).wr F.ENS_SLOT_STAT_STATE 5 10) with ens := { W.live.ens with disputes := [{ i := 10, j := 11, agree := 0 }] } }, 10, 11, by decide +kernel⟩,
   ⟨W.traced, 0, by decide +kernel⟩,
   ⟨W.live.wr F.ENS_SLOT_STAT_STATE 6 10, W.c, 10, by decide +kernel⟩,
   ⟨W.live, W.c, 10, by decide +kernel⟩,
   ⟨W.live.wr F.PAIR_STAT_STATE 3, W.c, 10, by decide +kernel⟩,
   ⟨{ ((W.live.wr F.ENS_SLOT_RANK_RANK 3 10).wr F.ENS_SLOT_STAT_STATE 6 10) with ens := { W.live.ens with requal := [(W.c, 10)] } }, W.c, 10, by decide +kernel⟩⟩

/-- The hypotheses of OscillatorsSteerAndChange are met. -/
theorem witness_OscillatorsSteerAndChange_1 :
    (∃ (s : State) (req k w : Nat), (Admitted s req) ∧ (k < 3) ∧ (s.rd F.OSC_CTL_MODE k = 0) ∧ (s.oscState k = 0)) ∧
    (∃ (s : State) (req k w : Nat), (Admitted s req) ∧ (k < 3) ∧ (s.rd F.OSC_CTL_MODE k = 0) ∧ (s.oscState k = 0)) ∧
    (∃ (s : State) (req k w : Nat), (Admitted s req) ∧ (k < 3) ∧ (s.eaves.osc.length = 3) ∧ (s.rd F.OSC_CTL_MODE k ≠ 0) ∧
    (s.oscState k ≠ 0)) ∧
    (∃ (s : State) (req k w : Nat), (Admitted s req) ∧ (k < 3) ∧ (s.oscState k = 1)) ∧
    (∃ (s : State) (req k w : Nat), (Admitted s req) ∧ (k < 3) ∧ (s.oscState k = 1) ∧ (s.oscUart k = false)) ∧
    (∃ (s : State) (req k w : Nat), (Admitted s req) ∧ (k < 3) ∧ (s.oscState k ≠ 1) ∧ (bits w 0 20 ≠ s.rd F.OSC_CODE_CODE k)) :=
  ⟨⟨W.live, 3, 1, 2 ^ 16, by decide +kernel⟩,
   ⟨W.live, 3, 1, 2 ^ 16, by decide +kernel⟩,
   ⟨(W.live.wr F.OSC_CTL_MODE 1 1).wr F.OSC_STAT_STATE 1 1, 3, 1, 2 ^ 16, by decide +kernel⟩,
   ⟨W.live.wr F.OSC_STAT_STATE 1 1, 3, 1, 77, by decide +kernel⟩,
   ⟨W.live.wr F.OSC_STAT_STATE 1 1, 3, 1, 77, by decide +kernel⟩,
   ⟨W.live, 3, 1, 77, by decide +kernel⟩⟩

/-- The hypotheses of OscillatorsSteerAndChange are met. -/
theorem witness_OscillatorsSteerAndChange_2 :
    (∃ (s : State) (k : Nat), (k < 3) ∧ (s.oscState k = 3) ∧ (s.oscUart k = false)) ∧
    (∃ (s : State) (k : Nat) (d : Int), (k < 3) ∧ (s.oscUart k = false) ∧ ((s.osc k).step = some d)) :=
  ⟨⟨W.live.wr F.OSC_STAT_STATE 3 1, 1, by decide +kernel⟩,
   ⟨W.live.setOsc 1 { W.live.osc 1 with step := some 4 }, 1, 4, by decide +kernel⟩⟩

/-- The hypotheses of UartMessagesGoOut are met. -/
theorem witness_UartMessagesGoOut_1 :
    (∃ (s : State) (k : Nat) (c : CmdRef) (bs : List Nat), ((k = 1 ∨ k = 2)) ∧ (nextMsg (s.osc k).queue = some (.raw c bs)) ∧
    (s.oscBarred k = false)) ∧
    (∃ (s : State) (k : Nat), ((k = 1 ∨ k = 2)) ∧ (s.on F.OSC_UCFG_POLL_PERIOD k = true) ∧ (s.oscState k ≠ 0) ∧ (s.tplOn k 1 =
    true) ∧ (s.oscBarred k = false)) ∧
    (∃ (s : State) (k : Nat) (bytes : List Nat), ((k = 1 ∨ k = 2)) ∧ (s.eaves.osc.length = 3) ∧ ((s.osc k).await = 1) ∧
    (s.respPasses k bytes = true)) ∧
    (∃ (s : State) (k : Nat), ((k = 1 ∨ k = 2)) ∧ (s.eaves.osc.length = 3) ∧ ((s.osc k).retry = true) ∧ (s.on F.OSC_CTL_MODE k
    = true) ∧ (s.oscBarred k = false)) ∧
    (∃ (s : State) (c : CmdRef) (w0 : Nat) (msg : List Nat), ((bits w0 0 2 = 1 ∨ bits w0 0 2 = 2)) ∧ (s.oscBarred (bits w0 0
    2) = false) ∧ (bit w0 2 = false) ∧ (bits w0 8 5 ≠ 0)) ∧
    (∃ (s : State) (c : CmdRef) (w0 : Nat) (msg : List Nat), ((bits w0 0 2 = 1 ∨ bits w0 0 2 = 2)) ∧ (s.oscBarred (bits w0 0
    2) = false) ∧ (bit w0 2 = true) ∧ (s.tplOn (bits w0 0 2) 2 = true)) :=
  ⟨⟨W.live.setOsc 1 { W.live.osc 1 with queue := [.raw W.c [1, 2]] }, 1, W.c, [1, 2], by decide +kernel⟩,
   ⟨((W.live.wr F.OSC_UCFG_POLL_PERIOD 10 1).wr F.OSC_STAT_STATE 3 1).wr F.OSC_TPL_EN 1 4, 1, by decide +kernel⟩,
   ⟨W.live.setOsc 1 { W.live.osc 1 with await := 1 }, 1, [], by decide +kernel⟩,
   ⟨(W.live.wr F.OSC_CTL_MODE 2 1).setOsc 1 { W.live.osc 1 with retry := true }, 1, by decide +kernel⟩,
   ⟨W.live, W.c, 0x301, [5], by decide +kernel⟩,
   ⟨W.live.wr F.OSC_TPL_EN 1 5, W.c, 5, [], by decide +kernel⟩⟩

/-- The hypotheses of UartMessagesGoOut are met. -/
theorem witness_UartMessagesGoOut_2 :
    ∃ (s : State) (c : CmdRef) (w0 : Nat) (msg : List Nat), ((bits w0 0 2 = 0 ∨ bits w0 0 2 = 3)) :=
  ⟨W.live, W.c, 4, [], by decide +kernel⟩

/-- The hypotheses of SharedOscillatorIsRefusedOnTheStandby are met. -/
theorem witness_SharedOscillatorIsRefusedOnTheStandby :
    ∃ (s : State) (c : CmdRef) (w0 : Nat) (msg : List Nat), ((bits w0 0 2 = 1 ∨ bits w0 0 2 = 2)) ∧ (s.oscBarred (bits w0 0 2)
    = true) :=
  ⟨(W.live.wr F.PAIR_STAT_STATE 3).wr F.OSC_CTL_SHARED 1 1, W.c, 5, [], by decide +kernel⟩

/-- The hypotheses of DigitalLoopsFollowTheirEntries are met. -/
theorem witness_DigitalLoopsFollowTheirEntries_1 :
    (∃ (s : State) (req n w : Nat), (Admitted s req) ∧ (2 ≤ n) ∧ (n < 8) ∧ (s.on F.DPLL_CTL_EN n = false) ∧ (s.dpllState n =
    0) ∧ (s.dpllCheck n = true)) ∧
    (∃ (s : State) (req n w : Nat), (Admitted s req) ∧ (2 ≤ n) ∧ (n < 8) ∧ (s.on F.DPLL_CTL_EN n = false) ∧ (s.dpllState n =
    0) ∧ (s.dpllCheck n = false)) ∧
    (∃ (s : State) (req n w : Nat), (Admitted s req) ∧ (n < 2) ∧ (s.on F.DPLL_CTL_EN n = false) ∧ (s.dpllState n = 0) ∧ ((bits
    w 1 2 = 2 ∨ bits w 1 2 = 3)) ∧ (s.bwOk n (s.rd F.DPLL_LOOP_BW n) = true) ∧ (s.bwOk n (s.rd F.DPLL_LOOP_ACQ_BW n) = true)) ∧
    (∃ (s : State) (req n w : Nat), (Admitted s req) ∧ (n < 8) ∧ (s.on F.DPLL_CTL_EN n = true) ∧ (s.dpllState n = 3)) ∧
    (∃ (s : State) (n : Nat), (n < 8) ∧ (s.dpllState n = 5) ∧ (s.on F.DPLL_STAT_PENDING_ENABLE n = false)) ∧
    (∃ (s : State) (n : Nat) (meas : List Int), (2 ≤ n) ∧ (n < 8) ∧ ((s.dpllState n = 2 ∨ s.dpllState n = 3)) ∧ ((∀ e, e < 4 →
    isDomainCode (s.entrySrc n e) = false))) :=
  ⟨⟨W.live, 3, 4, 4, by decide +kernel⟩,
   ⟨((W.live.wr F.DPLL_IN_EN1 1 4).wr F.DPLL_IN_SRC1 1 4).wr F.DPLL_PD_PER_VALUE 0 4, 3, 4, 4, by decide +kernel⟩,
   ⟨W.live, 3, 0, 4, by decide +kernel⟩,
   ⟨(W.live.wr F.DPLL_CTL_EN 1 4).wr F.DPLL_STAT_STATE 3 4, 3, 4, 4, by decide +kernel⟩,
   ⟨W.live.wr F.DPLL_STAT_STATE 5 4, 4, by decide +kernel⟩,
   ⟨((((W.live.wr F.DPLL_STAT_STATE 3 4).wr F.DPLL_IN_SRC0 1 4).wr F.DPLL_IN_SRC1 1 4).wr F.DPLL_IN_SRC2 1 4).wr
   F.DPLL_IN_SRC3 1 4, 4, [], by decide +kernel⟩⟩

/-- The hypotheses of DigitalLoopsFollowTheirEntries are met. -/
theorem witness_DigitalLoopsFollowTheirEntries_2 :
    (∃ (s : State) (n e : Nat) (meas : List Int), (2 ≤ n) ∧ (n < 8) ∧ (e < 4) ∧ (s.dpllState n = 1) ∧ (s.entryOn n e = true) ∧
    (isDomainCode (s.entrySrc n e) = false) ∧ ((∀ k, k < 4 → k ≠ e → s.entryValid n k = false))) ∧
    (∃ (s : State) (n e : Nat) (meas : List Int), (2 ≤ n) ∧ (n < 8) ∧ (s.on F.DPLL_CTL_REVERT n = true) ∧ (s.entryValid n e =
    true) ∧ (e < s.rd F.DPLL_STAT_ACTIVE n) ∧ (e < 4) ∧ (s.dpllState n = 3)) ∧
    (∃ (s : State) (req n w : Nat) (meas : List Int), (Admitted s req) ∧ (2 ≤ n) ∧ (n < 8) ∧ (s.dpllState n = 3) ∧
    (s.entryValid n (bits w 0 2) = true)) ∧
    (∃ (s : State) (n : Nat), (2 ≤ n) ∧ (n < 8) ∧ (s.dpllState n = 2)) :=
  ⟨⟨((W.live.wr F.DPLL_STAT_STATE 1 4).wr F.DPLL_IN_SRC1 1 4).wr F.DPLL_IN_EN1 1 4, 4, 1, [], by decide +kernel⟩,
   ⟨(((((W.live.wr F.DPLL_STAT_STATE 3 4).wr F.DPLL_IN_SRC0 1 4).wr F.DPLL_IN_EN0 1 4).wr F.DPLL_CTL_REVERT 1 4).wr
   F.DPLL_STAT_VALID 1 4).wr F.DPLL_STAT_ACTIVE 2 4, 4, 0, [], by decide +kernel⟩,
   ⟨(((W.live.wr F.DPLL_STAT_STATE 3 4).wr F.DPLL_IN_SRC1 1 4).wr F.DPLL_IN_EN1 1 4).wr F.DPLL_STAT_VALID 2 4, 3, 4, 1, [],
   by decide +kernel⟩,
   ⟨W.live.wr F.DPLL_STAT_STATE 2 4, 4, by decide +kernel⟩⟩

/-- The hypotheses of AnalogueLoopsSearchLockAndBypass are met. -/
theorem witness_AnalogueLoopsSearchLockAndBypass_1 :
    (∃ (s : State) (req m w fref : Nat), (Admitted s req) ∧ (m < 6) ∧ (s.on F.APLL_CTL_EN m = false) ∧ (s.apllState m = 0) ∧
    (s.testing (0x60 + m) = false) ∧ (s.islandOn (10 + m) = false)) ∧
    (∃ (s : State) (req m w fref : Nat), (Admitted s req) ∧ (m < 6) ∧ (s.on F.APLL_CTL_EN m = false) ∧ (s.apllState m = 0) ∧
    (s.testing (0x60 + m) = false) ∧ (s.islandOn (10 + m) = true) ∧ (s.on F.APLL_BAND_MAN m = true) ∧ (((((s.fieldWrite noLock
    inRange [F.APLL_CTL_AUTO_RET, F.APLL_CTL_LBW, F.APLL_CTL_DPLL_SEL, F.APLL_CTL_RDIV, F.APLL_CTL_RDBL, F.APLL_CTL_REF,
    F.APLL_CTL_EN] m (setBit w 0 true)).1).setApl m { s.apl m with fref := fref }).apllCheck m) = true)) ∧
    (∃ (s : State) (req m w : Nat), (Admitted s req) ∧ (m < 6) ∧ (s.on F.APLL_CTL_EN m = true) ∧ (s.apllState m = 4) ∧
    (s.testing (0x60 + m) = false)) ∧
    (∃ (s : State) (m : Nat), (m < 6) ∧ (s.apllState m = 6) ∧ (s.isRunning Act.apllSearch m = false) ∧ (s.on
    F.APLL_STAT_PENDING_ENABLE m = false)) ∧
    (∃ (s : State) (e : SortEntry), (s.startable 0 = some e) ∧ (e.act = Act.apllSearch) ∧ (s.apllState e.tgt = 1)) ∧
    (∃ (s : State) (cnt : List (Nat × Nat)) (e : SortEntry), (s.sort.running.length = 11) ∧ (s.quietRun 0 = some e) ∧ (e.act =
    Act.apllSearch) ∧ (e.tgt < 6) ∧ (s.apllState e.tgt = 2)) :=
  ⟨⟨W.live.wr F.TOP_PWR_STAT_STATE 0 11, 3, 1, 0, 10000000, by decide +kernel⟩,
   ⟨((W.live.wr F.TOP_PWR_STAT_STATE 2 11).wr F.APLL_BAND_MAN 1 1).wr F.APLL_N_N 200 1, 3, 1, 0x100, 50000000,
   by decide +kernel⟩,
   ⟨(W.live.wr F.APLL_CTL_EN 1 1).wr F.APLL_STAT_STATE 4 1, 3, 1, 0, by decide +kernel⟩,
   ⟨W.live.wr F.APLL_STAT_STATE 6 1, 1, by decide +kernel⟩,
   ⟨(W.live.wr F.APLL_STAT_STATE 1 1).setQueue 0 [⟨2, 1, false, [], 0, false⟩], ⟨2, 1, false, [], 0, false⟩,
   by decide +kernel⟩,
   ⟨(W.live.wr F.APLL_STAT_STATE 2 1).setRun 0 (some ⟨2, 1, false, [], 0, false⟩), [], ⟨2, 1, false, [], 0, false⟩,
   by decide +kernel⟩⟩

/-- The hypotheses of AnalogueLoopsSearchLockAndBypass are met. -/
theorem witness_AnalogueLoopsSearchLockAndBypass_2 :
    (∃ (s : State) (m : Nat), (m < 6) ∧ (s.apllState m = 1) ∧ ((s.apl m).waiting = true) ∧ (s.on F.APLL_BAND_MAN m = true)) ∧
    (∃ (s : State) (m : Nat), (m < 6) ∧ (s.apllState m = 3) ∧ ((s.apl m).cmds = [])) ∧
    (∃ (s : State) (m : Nat) (refLost : Bool), (m < 6) ∧ (s.apllState m = 4)) ∧
    (∃ (s : State) (m : Nat), (m < 6) ∧ (s.apllState m = 5) ∧ (s.on F.APLL_BAND_MAN m = true)) ∧
    (∃ (s : State) (m : Nat), (m < 6) ∧ (s.apllState m = 4) ∧ (s.on F.APLL_STAT_BYPASS m = true) ∧ (s.on F.APLL_CTL_AUTO_RET m
    = true)) ∧
    (∃ (s : State) (c : CmdRef) (w0 : Nat), (bits w0 0 3 < 6) ∧ (s.apllState (bits w0 0 3) = 4) ∧ (s.on F.APLL_STAT_BYPASS
    (bits w0 0 3) = true)) :=
  ⟨⟨((W.live.wr F.APLL_STAT_STATE 1 1).wr F.APLL_BAND_MAN 1 1).setApl 1 { W.live.apl 1 with waiting := true }, 1, by decide +kernel⟩,
   ⟨W.live.wr F.APLL_STAT_STATE 3 1, 1, by decide +kernel⟩,
   ⟨W.live.wr F.APLL_STAT_STATE 4 1, 1, true, by decide +kernel⟩,
   ⟨(W.live.wr F.APLL_STAT_STATE 5 1).wr F.APLL_BAND_MAN 1 1, 1, by decide +kernel⟩,
   ⟨((W.live.wr F.APLL_STAT_STATE 4 1).wr F.APLL_STAT_BYPASS 1 1).wr F.APLL_CTL_AUTO_RET 1 1, 1, by decide +kernel⟩,
   ⟨((W.live.wr F.APLL_STAT_STATE 4 1).wr F.APLL_STAT_BYPASS 1 1), W.c, 1, by decide +kernel⟩⟩

/-- The hypotheses of AnalogueLoopsSearchLockAndBypass are met. -/
theorem witness_AnalogueLoopsSearchLockAndBypass_3 :
    ∃ (s : State) (c : CmdRef) (w0 : Nat), (s.apllState (bits w0 0 3) ≠ 4) :=
  ⟨W.live, W.c, 1, by decide +kernel⟩

/-- The hypotheses of OutputsRunAlignAndPulse are met. -/
theorem witness_OutputsRunAlignAndPulse_1 :
    (∃ (s : State) (req o w : Nat), (Admitted s req) ∧ (o < 16) ∧ (s.on F.OUT_CLK_CTL_EN o = false) ∧
    (s.loop.stopping.contains o = false) ∧ (bits w 1 3 = 7) ∧ (bits w 4 3 ≤ 2) ∧ (s.rd F.OUT_CLK_DIV_DIV o = 1) ∧ (s.rd
    F.TOP_BOOT_STAT_XO_FREQ = 1)) ∧
    (∃ (s : State) (req o w : Nat), (Admitted s req) ∧ (o < 16) ∧ (s.on F.OUT_CLK_CTL_EN o = true) ∧ (s.loop.stopping.contains
    o = false) ∧ (s.slewing o = false)) ∧
    (∃ (s : State) (o : Nat), (o < 16) ∧ (s.loop.stopping.contains o = true) ∧ (s.on F.OUT_CLK_STAT_PENDING_ENABLE o = false)) ∧
    (∃ (s : State) (req o w : Nat), (Admitted s req) ∧ (o < 16) ∧ (s.on F.OUT_CLK_CTL_EN o = true) ∧ (bits w
    F.OUT_CLK_DLY_COARSE.lo F.OUT_CLK_DLY_COARSE.w = s.rd F.OUT_CLK_DLY_COARSE o) ∧ (inRange F.OUT_CLK_DLY_FINE (bits w
    F.OUT_CLK_DLY_FINE.lo F.OUT_CLK_DLY_FINE.w) = true)) ∧
    (∃ (s : State) (req j w : Nat), (Admitted s req) ∧ (j < 8) ∧ (s.outRuns (16 + j) = true)) ∧
    (∃ (s : State) (j : Nat), (j < 8) ∧ (s.loop.pps.length = 8) ∧ ((s.pps j).slew = none) ∧ (s.outRuns (16 + j) = true) ∧
    (s.outSq (16 + j) = false) ∧ ((s.pps j).high = false)) :=
  ⟨⟨(W.live.wr F.OUT_CLK_DIV_DIV 1 3).wr F.TOP_BOOT_STAT_XO_FREQ 1, 3, 3, 0x1000E, by decide +kernel⟩,
   ⟨W.live.wr F.OUT_CLK_CTL_EN 1 3, 3, 3, 0x1000070, by decide +kernel⟩,
   ⟨{ W.live with loop := { W.live.loop with stopping := [3] } }, 3, by decide +kernel⟩,
   ⟨W.live.wr F.OUT_CLK_CTL_EN 1 3, 3, 3, 5, by decide +kernel⟩,
   ⟨W.live.wr F.OUT_PPS_STAT_RUNNING 1 3, 3, 3, 5, by decide +kernel⟩,
   ⟨W.live.wr F.OUT_PPS_STAT_RUNNING 1 3, 3, by decide +kernel⟩⟩

/-- The hypotheses of OutputsRunAlignAndPulse are met. -/
theorem witness_OutputsRunAlignAndPulse_2 :
    (∃ (s : State) (j : Nat), (j < 8) ∧ (s.loop.pps.length = 8) ∧ ((s.pps j).slew = none) ∧ ((s.pps j).high = true)) ∧
    (∃ (s : State) (c : CmdRef) (w0 w1 : Nat), (s.notHolder = false) ∧ (s.alignBad (namedOutputs w0) = false) ∧ ((namedOutputs
    w0).any s.slewing = false)) ∧
    (∃ (s : State) (c : CmdRef) (w0 w1 : Nat), (s.notHolder = false) ∧ ((namedOutputs w0).any (fun o => !s.outOn o) = true)) ∧
    (∃ (s : State) (c : CmdRef) (w0 w1 : Nat), (s.notHolder = true) ∧ (s.rd F.PAIR_STAT_STATE ≠ 2) ∧ (c.src ≠ .mirror)) ∧
    (∃ (s : State) (c : CmdRef) (slew : Bool) (rate : Nat), (s.loop.aligns =
    [{ ref := c, outs := [], left := [], slew := slew, rate := rate }])) ∧
    (∃ (s : State) (j : Nat), (j < 8) ∧ (s.slewing (16 + j) = true)) :=
  ⟨⟨W.live.setPps 3 { W.live.pps 3 with high := true }, 3, by decide +kernel⟩,
   ⟨W.live, W.c, 0, 0, by decide +kernel⟩,
   ⟨W.live, W.c, 1, 0, by decide +kernel⟩,
   ⟨W.live.wr F.PAIR_STAT_STATE 3, W.c, 1, 0, by decide +kernel⟩,
   ⟨{ W.live with loop := { W.live.loop with aligns := [{ ref := W.c, outs := [], left := [], slew := false, rate := 0 }] } }, W.c, false, 0, by decide +kernel⟩,
   ⟨{ W.live with loop := { W.live.loop with aligns := [{ ref := W.c, outs := [19], left := [19], slew := true, rate := 0, applied := true }] } }, 3, by decide +kernel⟩⟩

/-- The hypotheses of TrackingChannelsSearchPullInAndLock are met. -/
theorem witness_TrackingChannelsSearchPullInAndLock_1 :
    (∃ (s : State) (g : GnssCh), (s.nextSearch = some g)) ∧
    (∃ (s : State) (g : GnssCh), (s.nextSearch = some g)) ∧
    (∃ (s : State) (no : Nat) (g : GnssCh), (s.gch no = some g) ∧ (g.st = 2)) ∧
    (∃ (s : State) (no : Nat) (g : GnssCh), (s.gch no = some g) ∧ (g.st = 2)) ∧
    (∃ (s : State) (no : Nat) (g : GnssCh), (s.gch no = some g) ∧ (g.st = 3)) ∧
    (∃ (s : State) (no : Nat) (g : GnssCh), (s.gch no = some g) ∧ (g.st = 4)) :=
  ⟨⟨{ W.live with gnss := { W.live.gnss with ch := [⟨5, 0, 0, 0, 7, false, 1, 0, 0, false⟩], queue := [5], run := [true, false, false, false, false, false, false, false] } }, ⟨5, 0, 0, 0, 7, false, 1, 0, 0, false⟩, by decide +kernel⟩,
   ⟨{ W.live with gnss := { W.live.gnss with ch := [⟨5, 0, 0, 0, 7, false, 1, 0, 0, false⟩], queue := [5], run := [true, false, false, false, false, false, false, false] } }, ⟨5, 0, 0, 0, 7, false, 1, 0, 0, false⟩, by decide +kernel⟩,
   ⟨{ W.live with gnss := { W.live.gnss with ch := [⟨5, 0, 0, 0, 7, false, 2, 0, 0, false⟩] } }, 5, ⟨5, 0, 0, 0, 7, false, 2, 0, 0, false⟩, by decide +kernel⟩,
   ⟨{ W.live with gnss := { W.live.gnss with ch := [⟨5, 0, 0, 0, 7, false, 2, 0, 0, false⟩] } }, 5, ⟨5, 0, 0, 0, 7, false, 2, 0, 0, false⟩, by decide +kernel⟩,
   ⟨{ W.live with gnss := { W.live.gnss with ch := [⟨5, 0, 0, 0, 7, false, 3, 0, 0, false⟩] } }, 5, ⟨5, 0, 0, 0, 7, false, 3, 0, 0, false⟩, by decide +kernel⟩,
   ⟨{ W.live with gnss := { W.live.gnss with ch := [⟨5, 0, 0, 0, 7, false, 4, 0, 0, false⟩] } }, 5, ⟨5, 0, 0, 0, 7, false, 4, 0, 0, false⟩, by decide +kernel⟩⟩

/-- The hypotheses of TrackingChannelsSearchPullInAndLock are met. -/
theorem witness_TrackingChannelsSearchPullInAndLock_2 :
    (∃ (s : State) (no : Nat) (g : GnssCh), (s.gch no = some g) ∧ (g.st = 3 ∨ g.st = 4)) ∧
    (∃ (s : State) (c : CmdRef) (w0 : Nat), (bits w0 0 9 < 384) ∧ (bits w0 12 4 = 15 ∨ s.sigOn (bits w0 9 1) (bits w0 10 2)
    (bits w0 12 4) = true)) ∧
    (∃ (s : State) (c : CmdRef) (w0 : Nat), (384 ≤ bits w0 0 9)) ∧
    (∃ (s : State) (vis : List (Nat × Nat × Nat)), (s.rxActive = true) ∧ (s.on F.GNSS_CTL_AUTO_CH = true)) :=
  ⟨⟨{ W.live with gnss := { W.live.gnss with ch := [⟨5, 0, 0, 0, 7, false, 4, 0, 0, false⟩] } }, 5, ⟨5, 0, 0, 0, 7, false, 4, 0, 0, false⟩, by decide +kernel⟩,
   ⟨W.live, W.c, 0xF005, by decide +kernel⟩,
   ⟨W.live, W.c, 400, by decide +kernel⟩,
   ⟨(W.live.wr F.GNSS_STAT_STATE 2).wr F.GNSS_CTL_AUTO_CH 1, [(0, 7, 40)], by decide +kernel⟩⟩

/-- The hypotheses of ReceiverStartsStopsSleepsAndWakes are met. -/
theorem witness_ReceiverStartsStopsSleepsAndWakes_1 :
    (∃ (s : State) (req w : Nat) (fe : List Nat) (sclk : Nat), (Admitted s req) ∧ (s.on F.GNSS_CTL_EN = false) ∧ (s.rx = 0) ∧
    (s.testing 0x70 = false) ∧ (s.islandOn 0 = true) ∧ (((s.fieldWrite noLock inRange [F.GNSS_CTL_TIME_SYS,
    F.GNSS_CTL_UTC_CORR, F.GNSS_CTL_SPOOF_REQ, F.GNSS_CTL_BASE_LEARN, F.GNSS_CTL_MODE, F.GNSS_CTL_EPOCH_RATE,
    F.GNSS_CTL_AUTO_CH, F.GNSS_CTL_ANT1_EN, F.GNSS_CTL_EN] 0 (setBit w 0 true)).1).gnssCheck = true)) ∧
    (∃ (s : State) (req w : Nat) (fe : List Nat) (sclk : Nat), (Admitted s req) ∧ (s.on F.GNSS_CTL_EN = false) ∧ (s.rx = 0) ∧
    (s.testing 0x70 = false) ∧ (s.islandOn 0 = false)) ∧
    (∃ (s : State) (req w : Nat), (Admitted s req) ∧ (s.on F.GNSS_CTL_EN = true) ∧ (s.rx = 2) ∧ (s.testing 0x70 = false)) ∧
    (∃ (s : State) (fe : List Nat) (sclk : Nat), (s.rx = 6) ∧ (s.on F.GNSS_STAT_PENDING_ENABLE = false)) ∧
    (∃ (s : State) (req t w : Nat), (Admitted s req) ∧ (t < 8) ∧ (s.streamOn t = false) ∧ (s.on F.GNSS_CTL_EN = false)) ∧
    (∃ (s : State) (a : Nat), (a < 2) ∧ (s.gnss.sclk.getD a false = true)) :=
  ⟨⟨W.live.wr F.TOP_PWR_STAT_STATE 2 0, 3, 0, [], 3, by decide +kernel⟩,
   ⟨W.live.wr F.TOP_PWR_STAT_STATE 0 0, 3, 0, [], 3, by decide +kernel⟩,
   ⟨(W.live.wr F.GNSS_CTL_EN 1).wr F.GNSS_STAT_STATE 2, 3, 0, by decide +kernel⟩,
   ⟨W.live.wr F.GNSS_STAT_STATE 6, [], 0, by decide +kernel⟩,
   ⟨W.live, 3, 2, 0, by decide +kernel⟩,
   ⟨{ W.live with gnss := { W.live.gnss with sclk := [true, true] } }, 1, by decide +kernel⟩⟩

/-- The hypotheses of ReceiverStartsStopsSleepsAndWakes are met. -/
theorem witness_ReceiverStartsStopsSleepsAndWakes_2 :
    (∃ (s : State) (a : Nat), (a < 2) ∧ (s.gnss.sclk.length = 2)) ∧
    (∃ (s : State) (c : CmdRef) (w0 : Nat), (s.rx = 2)) ∧
    (∃ (s : State) (c : CmdRef) (w0 : Nat), (s.rx = 0 ∨ s.rx = 6)) ∧
    (∃ (s : State) , (s.rx = 3) ∧ (s.gnss.sleeps = []) ∧ (s.on F.GNSS_STAT_PENDING_ENABLE = false)) ∧
    (∃ (s : State) (c : CmdRef), (s.rx = 4)) ∧
    (∃ (s : State) (c : CmdRef), (s.rx = 2)) :=
  ⟨⟨W.live, 1, by decide +kernel⟩,
   ⟨W.live.wr F.GNSS_STAT_STATE 2, W.c, 0, by decide +kernel⟩,
   ⟨W.live, W.c, 0, by decide +kernel⟩,
   ⟨W.live.wr F.GNSS_STAT_STATE 3, by decide +kernel⟩,
   ⟨W.live.wr F.GNSS_STAT_STATE 4, W.c, by decide +kernel⟩,
   ⟨W.live.wr F.GNSS_STAT_STATE 2, W.c, by decide +kernel⟩⟩

/-- The hypotheses of ReceiverEpochsSolutionsAndHints are met. -/
theorem witness_ReceiverEpochsSolutionsAndHints_1 :
    (∃ (s : State) (t jn : Nat), (t < 8) ∧ (s.streamRuns t = true)) ∧
    (∃ (s : State) (t jn : Nat), (t < 8)) ∧
    (∃ (s : State) (pos : Nat), (s.epochBeat = true) ∧ ((List.range 8).any s.streamRuns = true)) ∧
    (∃ (s : State) (x : GnssFix) (ep : EpochSt), (s.gnss.epoch = some ep) ∧ (s.rxActive = true)) ∧
    (∃ (s : State) (q : GnssSol), (s.gnss.sol = some q) ∧ (8 ≤ s.solAge q) ∧ (s.rxActive = true) ∧ (s.rd
    F.GNSS_VERDICT_VERDICT ≠ 4)) ∧
    (∃ (s : State) , (s.gnss.survey = true)) :=
  ⟨⟨{ W.live with gnss := { W.live.gnss with run := [false, true, false, false, false, false, false, false] } }, 1, 90, by decide +kernel⟩,
   ⟨W.live, 1, 10, by decide +kernel⟩,
   ⟨{ W.live.wr F.GNSS_STAT_STATE 2 with gnss := { W.live.gnss with run := [false, true, false, false, false, false, false, false] } }, 0, by decide +kernel⟩,
   ⟨{ W.live.wr F.GNSS_STAT_STATE 2 with gnss := { W.live.gnss with epoch := some ⟨0, 0, 0⟩ } }, ⟨[], [0, 0, 0], 0, [0, 0, 0], 0, 0, 0, [0, 0, 0], [], 37, 37, false, 0⟩, ⟨0, 0, 0⟩, by decide +kernel⟩,
   ⟨{ (W.live.wr F.GNSS_STAT_STATE 2).wr F.RIDGE_BEAT_SEQ_SEQ 9 with gnss := { W.live.gnss with sol := some ⟨100, 0, 5, true, false, ⟨0, 0, 0⟩⟩ } }, ⟨100, 0, 5, true, false, ⟨0, 0, 0⟩⟩, by decide +kernel⟩,
   ⟨{ W.live with gnss := { W.live.gnss with survey := true } }, by decide +kernel⟩⟩

/-- The hypotheses of ReceiverEpochsSolutionsAndHints are met. -/
theorem witness_ReceiverEpochsSolutionsAndHints_2 :
    (∃ (s : State) (c : CmdRef) (w0 : Nat), (s.rxActive = true)) ∧
    (∃ (s : State) (c : CmdRef) (w0 : Nat), (s.rxActive = false)) ∧
    (∃ (s : State) (c : CmdRef), (s.on F.GNSS_STAT_SOL_VALID = true) ∧ (s.gnss.hints = [none, none])) ∧
    (∃ (s : State) (c : CmdRef), (s.on F.GNSS_STAT_SOL_VALID = false)) ∧
    (∃ (s : State) , (s.on F.GNSS_STAT_SOL_VALID = true) ∧ (s.inG F.GNSS_HINT_HINT_PERIOD ≠ 0) ∧ (s.gnss.hints = [none,
    none])) :=
  ⟨⟨W.live.wr F.GNSS_STAT_STATE 2, W.c, 2, by decide +kernel⟩,
   ⟨W.live, W.c, 0, by decide +kernel⟩,
   ⟨W.live.wr F.GNSS_STAT_SOL_VALID 1, W.c, by decide +kernel⟩,
   ⟨W.live, W.c, by decide +kernel⟩,
   ⟨(W.live.wr F.GNSS_STAT_SOL_VALID 1).wr F.GNSS_HINT_HINT_PERIOD 1, by decide +kernel⟩⟩

/-- The hypotheses of EthernetGroupsAndPortsStartAndStop are met. -/
theorem witness_EthernetGroupsAndPortsStartAndStop_1 :
    (∃ (s : State) (req g w : Nat), (Admitted s req) ∧ (g < 8) ∧ (s.on F.SDS_GRP_CTL_EN g = false) ∧ (s.on F.SDS_GRP_CTL_OOS g
    = false) ∧ (s.grpState g = 0) ∧ (s.testing (0x40 + g) = false) ∧ (s.islandOn (1 + g) = true) ∧ (((s.fieldWrite noLock
    inRange [F.SDS_GRP_CTL_FEC, F.SDS_GRP_CTL_PMD, F.SDS_GRP_CTL_TX_REF, F.SDS_GRP_CTL_OOS, F.SDS_GRP_CTL_RCLK_LANE,
    F.SDS_GRP_CTL_RCLK_DIV, F.SDS_GRP_CTL_LB_TXON, F.SDS_GRP_CTL_LB, F.SDS_GRP_CTL_MODE, F.SDS_GRP_CTL_EN] g (setBit w 0
    true)).1).grpCheck g = true)) ∧
    (∃ (s : State) (req g w : Nat), (Admitted s req) ∧ (g < 8) ∧ (s.on F.SDS_GRP_CTL_EN g = false) ∧ (s.on F.SDS_GRP_CTL_OOS g
    = false) ∧ (s.grpState g = 0) ∧ (s.testing (0x40 + g) = false) ∧ (s.islandOn (1 + g) = false)) ∧
    (∃ (s : State) (req g w : Nat), (Admitted s req) ∧ (g < 8) ∧ (s.on F.SDS_GRP_CTL_EN g = true) ∧ (s.on F.SDS_GRP_CTL_OOS g
    = false) ∧ (s.grpState g = 2) ∧ (s.testing (0x40 + g) = false)) ∧
    (∃ (s : State) (p : Nat), (p < 32) ∧ (s.portState p = 7) ∧ (s.on F.MAC_CTL_EN p = false)) ∧
    (∃ (s : State) (g : Nat), (g < 8) ∧ (s.grpState g = 4) ∧ (s.on F.SDS_GRP_STAT_PENDING_ENABLE g = false)) ∧
    (∃ (s : State) (g mode fec : Nat), (g < 8) ∧ (s.grpState g = 1) ∧ (s.rd F.SDS_GRP_CTL_MODE g = 4) ∧ (mode < 4)) :=
  ⟨⟨W.live.wr F.TOP_PWR_STAT_STATE 2 3, 3, 2, 0xC0001908, by decide +kernel⟩,
   ⟨W.live.wr F.TOP_PWR_STAT_STATE 0 3, 3, 2, 0, by decide +kernel⟩,
   ⟨(W.live.wr F.SDS_GRP_CTL_EN 1 2).wr F.SDS_GRP_STAT_STATE 2 2, 3, 2, 0, by decide +kernel⟩,
   ⟨W.live.wr F.MAC_STAT_STATE 7 9, 9, by decide +kernel⟩,
   ⟨W.live.wr F.SDS_GRP_STAT_STATE 4 2, 2, by decide +kernel⟩,
   ⟨(W.live.wr F.SDS_GRP_STAT_STATE 1 2).wr F.SDS_GRP_CTL_MODE 4 2, 2, 1, 2, by decide +kernel⟩⟩

/-- The hypotheses of EthernetGroupsAndPortsStartAndStop are met. -/
theorem witness_EthernetGroupsAndPortsStartAndStop_2 :
    (∃ (s : State) (g mode fec : Nat), (g < 8) ∧ (s.grpState g = 1) ∧ (4 ≤ mode)) ∧
    (∃ (s : State) (req p w : Nat), (Admitted s req) ∧ (p < 32) ∧ (s.portAbsent p = false) ∧ (s.on F.MAC_CTL_EN p = false) ∧
    (s.on F.MAC_CTL_DOZE p = false) ∧ (bit w 1 = false) ∧ (s.portState p = 0) ∧ (s.grpState (p / 4) = 2)) ∧
    (∃ (s : State) (req p w : Nat), (Admitted s req) ∧ (p < 32) ∧ (s.portAbsent p = false) ∧ (s.on F.MAC_CTL_EN p = true) ∧
    (s.on F.MAC_CTL_DOZE p = false) ∧ (bit w 1 = false) ∧ (s.portState p = 4) ∧ (s.eth.port.length = 32)) ∧
    (∃ (s : State) (req p w : Nat), (Admitted s req) ∧ (p < 32) ∧ (s.portAbsent p = false) ∧ (s.on F.MAC_CTL_EN p = true) ∧
    (bit w 0 = true) ∧ (s.on F.MAC_CTL_DOZE p = false) ∧ (s.portState p = 4) ∧ (s.eth.port.length = 32)) ∧
    (∃ (s : State) (p : Nat), (p < 32) ∧ (s.eth.port.length = 32) ∧ ((s.prt p).dozing = true) ∧ (s.on
    F.MAC_STAT_PENDING_ENABLE p = false)) ∧
    (∃ (s : State) (req p cause w : Nat), (p < 32) ∧ (cause < 2) ∧ (s.portState p = 6) ∧ ((s.prt p).dozing = false) ∧ (s.rd
    F.MAC_CTL_WAKE_SEL p = cause) ∧ (s.on F.MAC_CTL_EN p = true) ∧ (s.grpState (p / 4) = 2) ∧ (s.portAbsent p = false)) :=
  ⟨⟨W.live.wr F.SDS_GRP_STAT_STATE 1 2, 2, 4, 2, by decide +kernel⟩,
   ⟨W.live.wr F.SDS_GRP_STAT_STATE 2 2, 3, 8, 0, by decide +kernel⟩,
   ⟨((W.live.wr F.SDS_GRP_STAT_STATE 2 2).wr F.MAC_CTL_EN 1 8).wr F.MAC_STAT_STATE 4 8, 3, 8, 0, by decide +kernel⟩,
   ⟨((W.live.wr F.SDS_GRP_STAT_STATE 2 2).wr F.MAC_CTL_EN 1 8).wr F.MAC_STAT_STATE 4 8, 3, 8, 1, by decide +kernel⟩,
   ⟨W.live.setPrt 8 { W.live.prt 8 with dozing := true }, 8, by decide +kernel⟩,
   ⟨((W.live.wr F.SDS_GRP_STAT_STATE 2 2).wr F.MAC_CTL_EN 1 8).wr F.MAC_STAT_STATE 6 8, 3, 8, 0, 0, by decide +kernel⟩⟩

/-- The hypotheses of EthernetGroupsAndPortsStartAndStop are met. -/
theorem witness_EthernetGroupsAndPortsStartAndStop_3 :
    ∃ (s : State) (req p cause w : Nat), (Admitted s req) ∧ (p < 32) ∧ (2 ≤ cause) ∧ (s.portState p = 6) ∧ ((s.prt p).dozing =
    false) ∧ (s.on F.MAC_CTL_EN p = true) ∧ (bit w 0 = true) ∧ (s.on F.MAC_CTL_DOZE p = true) ∧ (s.grpState (p / 4) = 2) ∧
    (s.portAbsent p = false) :=
  ⟨(((W.live.wr F.SDS_GRP_STAT_STATE 2 2).wr F.MAC_CTL_EN 1 8).wr F.MAC_STAT_STATE 6 8).wr F.MAC_CTL_DOZE 1 8, 3, 8, 2, 1,
  by decide +kernel⟩

/-- The hypotheses of EthernetLinksComeUpAndGoDown are met. -/
theorem witness_EthernetLinksComeUpAndGoDown_1 :
    (∃ (s : State) (p mode fec : Nat), (p < 32) ∧ (s.portState p = 1)) ∧
    (∃ (s : State) (p : Nat), (p < 32) ∧ (s.portState p = 1)) ∧
    (∃ (s : State) (p : Nat) (eq : List (List Nat)), (p < 32) ∧ (s.portState p = 2)) ∧
    (∃ (s : State) (p : Nat), (p < 32) ∧ (s.portState p = 2)) ∧
    (∃ (s : State) (p : Nat) (corr : List (Int × Int)), (p < 32) ∧ (s.portState p = 3)) ∧
    (∃ (s : State) (p : Nat), (p < 32) ∧ (s.portState p = 3)) :=
  ⟨⟨W.live.wr F.MAC_STAT_STATE 1 8, 8, 1, 2, by decide +kernel⟩,
   ⟨W.live.wr F.MAC_STAT_STATE 1 8, 8, by decide +kernel⟩,
   ⟨W.live.wr F.MAC_STAT_STATE 2 8, 8, [], by decide +kernel⟩,
   ⟨W.live.wr F.MAC_STAT_STATE 2 8, 8, by decide +kernel⟩,
   ⟨W.live.wr F.MAC_STAT_STATE 3 8, 8, [], by decide +kernel⟩,
   ⟨W.live.wr F.MAC_STAT_STATE 3 8, 8, by decide +kernel⟩⟩

/-- The hypotheses of EthernetLinksComeUpAndGoDown are met. -/
theorem witness_EthernetLinksComeUpAndGoDown_2 :
    (∃ (s : State) (p : Nat) (remote : Bool), (p < 32) ∧ (s.portState p = 4)) ∧
    (∃ (s : State) (p : Nat), (p < 32) ∧ (s.portState p = 5)) ∧
    (∃ (s : State) (p : Nat), (p < 32) ∧ (s.portState p = 4 ∨ s.portState p = 5)) ∧
    (∃ (s : State) (p : Nat) (sk cdr : Int), (p < 32) ∧ (s.portState p = 4) ∧ (s.rd F.SDS_GRP_STAT_MODE_RES (p / 4) ≠ 0)) ∧
    (∃ (s : State) (p : Nat) (f : RxFrame) (pred : Nat), (p < 32) ∧ (s.portState p = 4) ∧ (s.rxGood p f = false)) ∧
    (∃ (s : State) (p : Nat) (f : RxFrame) (pred : Nat), (p < 32) ∧ (s.portState p = 4) ∧ (s.rxGood p f = true)) :=
  ⟨⟨W.live.wr F.MAC_STAT_STATE 4 8, 8, true, by decide +kernel⟩,
   ⟨W.live.wr F.MAC_STAT_STATE 5 8, 8, by decide +kernel⟩,
   ⟨W.live.wr F.MAC_STAT_STATE 4 8, 8, by decide +kernel⟩,
   ⟨(W.live.wr F.MAC_STAT_STATE 4 8).wr F.SDS_GRP_STAT_MODE_RES 1 2, 8, 5, 7, by decide +kernel⟩,
   ⟨W.live.wr F.MAC_STAT_STATE 4 8, 8, ⟨[], true, 0, 0, 0, 0⟩, 0, by decide +kernel⟩,
   ⟨W.live.wr F.MAC_STAT_STATE 4 8, 8, ⟨List.replicate 60 0, true, 0, 0, 0, 0⟩, 0, by decide +kernel⟩⟩

/-- The hypotheses of LanesAdaptAndPausesHold are met. -/
theorem witness_LanesAdaptAndPausesHold_1 :
    (∃ (s : State) (l : Nat), (l < 32) ∧ (s.on F.SDS_LN_STAT_FROZEN l = false)) ∧
    (∃ (s : State) (l : Nat), (l < 32) ∧ (s.on F.SDS_LN_CTL_ADAPT_HOLD l = false)) ∧
    (∃ (s : State) (l eye : Nat), (l < 32) ∧ (s.on F.SDS_LN_STAT_FROZEN l = false) ∧ (s.on F.SDS_LN_STAT_ADAPTING l = false) ∧
    ((s.lane l).first = false) ∧ (s.eth.lane.length = 32) ∧ (s.rd F.SDS_LN_CTL_EYE_THR l ≤ satU F.SDS_LN_STAT_EYE.w eye)) ∧
    (∃ (s : State) (l eye : Nat), (l < 32) ∧ (s.on F.SDS_LN_STAT_FROZEN l = false) ∧ (s.on F.SDS_LN_STAT_ADAPTING l = false) ∧
    ((s.lane l).first = false) ∧ ((s.lane l).low = 3) ∧ ((s.lane l).quiet = none) ∧ (satU F.SDS_LN_STAT_EYE.w eye < s.rd
    F.SDS_LN_CTL_EYE_THR l) ∧ (s.sort.queues.length = 11) ∧ (s.quietQueue (2 + l / 4) = [])) ∧
    (∃ (s : State) (req l w : Nat), (Admitted s req) ∧ (l < 32) ∧ (s.sort.queues.length = 11) ∧ (s.quietQueue (2 + l / 4) =
    [])) ∧
    (∃ (s : State) (l : Nat) (sk cdr : Int) (ctle dfe : Nat), (l < 32) ∧ (s.isRunning 5 l = true) ∧ (s.eth.lane.length = 32)) :=
  ⟨⟨W.live, 3, by decide +kernel⟩,
   ⟨W.live, 3, by decide +kernel⟩,
   ⟨W.live, 3, 60, by decide +kernel⟩,
   ⟨(W.live.wr F.SDS_LN_CTL_EYE_THR 30 3).setLane 3 { W.live.lane 3 with low := 3 }, 3, 20, by decide +kernel⟩,
   ⟨W.live, 3, 3, 0, by decide +kernel⟩,
   ⟨{ W.live with sort := { W.live.sort with running := [none, none, some ⟨5, 3, false, [], 0, false⟩, none, none, none, none, none, none, none, none] } }, 3, 5, 7, 1, 2, by decide +kernel⟩⟩

/-- The hypotheses of LanesAdaptAndPausesHold are met. -/
theorem witness_LanesAdaptAndPausesHold_2 :
    (∃ (s : State) (p : Nat) (f : RxFrame), (p < 32) ∧ (s.portState p = 4) ∧ (f.fcsOk = true) ∧ (isMacControl f.bytes 1 =
    true) ∧ (s.on F.MAC_CTL_PFC_EN p = false) ∧ (s.on F.MAC_CTL_FC_IGN p = false) ∧ (s.eth.port.length = 32)) ∧
    (∃ (s : State) (p : Nat) (f : RxFrame), (p < 32) ∧ (s.portState p = 4) ∧ (f.fcsOk = true) ∧ (isMacControl f.bytes 1 =
    true) ∧ (s.on F.MAC_CTL_PFC_EN p = true ∨ s.on F.MAC_CTL_FC_IGN p = true)) ∧
    (∃ (s : State) (p : Nat) (f : RxFrame), (p < 32) ∧ (s.portState p = 4) ∧ (f.fcsOk = true) ∧ (isMacControl f.bytes 1 =
    false) ∧ (isMacControl f.bytes 0x101 = true) ∧ (s.on F.MAC_CTL_PFC_EN p = true) ∧ (s.on F.MAC_CTL_PFC_IGN p = false) ∧
    (s.eth.port.length = 32) ∧ ((s.prt p).pfc.length = 8)) ∧
    (∃ (s : State) (p prio : Nat), (p < 32) ∧ (8 ≤ prio) ∧ (s.eth.port.length = 32)) ∧
    (∃ (s : State) (p prio : Nat), (p < 32) ∧ (prio < 8) ∧ (s.eth.port.length = 32)) ∧
    (∃ (s : State) (p : Nat), (p < 32) ∧ ((s.prt p).xoff = true) ∧ (s.portSends p = true)) :=
  ⟨⟨W.live.wr F.MAC_STAT_STATE 4 8, 8, ⟨List.replicate 12 0 ++ [0x88, 0x08, 0, 1, 0, 9], true, 0, 0, 0, 0⟩, by decide +kernel⟩,
   ⟨(W.live.wr F.MAC_STAT_STATE 4 8).wr F.MAC_CTL_FC_IGN 1 8, 8, ⟨List.replicate 12 0 ++ [0x88, 0x08, 0, 1, 0, 9], true, 0, 0,
   0, 0⟩, by decide +kernel⟩,
   ⟨(W.live.wr F.MAC_STAT_STATE 4 8).wr F.MAC_CTL_PFC_EN 1 8, 8, ⟨List.replicate 12 0 ++ [0x88, 0x08, 1, 1, 0, 9], true, 0, 0,
   0, 0⟩, by decide +kernel⟩,
   ⟨W.live, 8, 8, by decide +kernel⟩,
   ⟨W.live, 8, 3, by decide +kernel⟩,
   ⟨(W.live.wr F.MAC_STAT_STATE 4 8).setPrt 8 { W.live.prt 8 with xoff := true }, 8, by decide +kernel⟩⟩

/-- The hypotheses of LanesAdaptAndPausesHold are met. -/
theorem witness_LanesAdaptAndPausesHold_3 :
    (∃ (s : State) (p : Nat) (f : RxFrame), (p < 32) ∧ (s.portState p = 4) ∧ (f.fcsOk = true) ∧ (isEsmc f.bytes = true) ∧
    (s.rclkPort (p / 4) = p) ∧ (be f.bytes 24 1 = 1)) ∧
    (∃ (s : State) (g : Nat), (g < 8)) ∧
    (∃ (s : State) (g : Nat) (event : Bool) (c e : Nat), (g < 8) ∧ (s.rd F.SDS_GRP_QL_TX_MODE g ≠ 0) ∧ (qlCode (s.on
    F.SDS_GRP_QL_OPT_II g) (s.qlTx g) = some (c, e))) :=
  ⟨⟨W.live.wr F.MAC_STAT_STATE 4 8, 8, ⟨List.replicate 12 0 ++ [0x88, 0x09, 0x0A, 0, 0x19, 0xA7, 0, 1, 0x10, 0, 0, 0, 1, 0, 4,
   2], true, 0, 0, 0, 0⟩, by decide +kernel⟩,
   ⟨W.live, 2, by decide +kernel⟩,
   ⟨(W.live.wr F.SDS_GRP_QL_TX_MODE 1 2).wr F.SDS_GRP_QL_QL_FIXED 4 2, 2, true, 8, 0xFF, by decide +kernel⟩⟩

/-- The hypotheses of PostmarksAndTimedLaunches are met. -/
theorem witness_PostmarksAndTimedLaunches_1 :
    (∃ (s : State) (req g w : Nat), (Admitted s req) ∧ (g < 8) ∧ (s.on F.PM_CTL_EN g = false)) ∧
    (∃ (s : State) (req g w : Nat), (Admitted s req) ∧ (g < 8)) ∧
    (∃ (s : State) (req g k w : Nat), (Admitted s req) ∧ (g < 8) ∧ (k < 2048) ∧ (s.isCommitted g k = false) ∧ ((s.setLqCtl g k
    (bits w 29 2 * 2 ^ 29)).lqAccepts g k = true)) ∧
    (∃ (s : State) (req g k w : Nat), (Admitted s req) ∧ (g < 8) ∧ (k < 2048) ∧ (s.isArmed g k = true) ∧ (s.isCommitted g k =
    false)) ∧
    (∃ (s : State) (req g k w : Nat), (Admitted s req) ∧ (g < 8) ∧ (k < 2048) ∧ (s.isArmed g k = false) ∧ (s.isCommitted g k =
    false)) ∧
    (∃ (s : State) (g k : Nat) (delta early : Int) (place : TxPlace), (s.isArmed g k = true) ∧ (s.isCommitted g k = false) ∧
    (s.lqOnTime (s.lqPort g k) (s.lqDom g k) (s.lqTarget g k + delta) = true)) :=
  ⟨⟨W.live, 3, 2, 0, by decide +kernel⟩,
   ⟨W.live, 3, 2, 7, by decide +kernel⟩,
   ⟨((W.live.wr F.LQ_STAT_STATE 1 0).mwr 0xD0002C 4 64).wr F.RIDGE_x_COUNT_COUNT 0, 3, 0, 1, 0, by decide +kernel⟩,
   ⟨{ W.live with eth := { W.live.eth with armed := [(0, 1)] } }, 3, 0, 1, 0, by decide +kernel⟩,
   ⟨W.live, 3, 0, 1, 0, by decide +kernel⟩,
   ⟨{ W.live.mwr 0xD00020 8 1000000000 with eth := { W.live.eth with armed := [(0, 1)] } }, 0, 1, 0, 0, ⟨0, 0, 0, 0⟩, by decide +kernel⟩⟩

/-- The hypotheses of PostmarksAndTimedLaunches are met. -/
theorem witness_PostmarksAndTimedLaunches_2 :
    (∃ (s : State) (g k : Nat) (delta early : Int) (place : TxPlace), (s.isArmed g k = true) ∧ (s.isCommitted g k = false) ∧
    (s.lqOnTime (s.lqPort g k) (s.lqDom g k) (s.lqTarget g k + delta) = false) ∧ (bit (s.lqCtl g k) 30 = false)) ∧
    (∃ (s : State) (g k : Nat) (x : Launch), (s.lqCommit g k = some x) ∧ (x.started = false) ∧ (s.portSends (s.lqPort g k) =
    true)) ∧
    (∃ (s : State) (g k : Nat) (x : Launch), (s.lqCommit g k = some x) ∧ (x.started = false) ∧ (s.portSends (s.lqPort g k) =
    false)) ∧
    (∃ (s : State) (g k : Nat) (x : Launch), (g < 8) ∧ (k < 2048) ∧ (s.lqCommit g k = some x) ∧ (x.started = true) ∧ (x.late =
    false) ∧ (s.lqMarked g k = false)) ∧
    (∃ (s : State) (g k : Nat) (x : Launch), (g < 8) ∧ (k < 2048) ∧ (s.lqCommit g k = some x) ∧ (x.started = true) ∧ (x.late =
    true) ∧ (s.lqMarked g k = true) ∧ (s.on F.PM_CTL_EN g = true) ∧ (s.pmFull g = false)) ∧
    (∃ (s : State) (req g w : Nat), (Admitted s req) ∧ (g < 8) ∧ (s.on F.LQ_CTL_EN g = true) ∧ (s.rd F.LQ_STAT_STATE g = 1)) :=
  ⟨⟨{ W.live with eth := { W.live.eth with armed := [(0, 1)] } }, 0, 1, 0, 0, ⟨0, 0, 0, 0⟩, by decide +kernel⟩,
   ⟨{ W.live.wr F.MAC_STAT_STATE 4 0 with eth := { W.live.eth with armed := [(0, 1)], commits := [⟨0, 1, [1, 2], 5, ⟨0, 0, 0, 0⟩, false, false, false⟩] } }, 0, 1, ⟨0, 1, [1, 2], 5, ⟨0, 0, 0, 0⟩, false, false, false⟩, by decide +kernel⟩,
   ⟨{ W.live with eth := { W.live.eth with armed := [(0, 1)], commits := [⟨0, 1, [1, 2], 5, ⟨0, 0, 0, 0⟩, false, false, false⟩] } }, 0, 1, ⟨0, 1, [1, 2], 5, ⟨0, 0, 0, 0⟩, false, false, false⟩, by decide +kernel⟩,
   ⟨{ W.live with eth := { W.live.eth with armed := [(0, 1)], commits := [⟨0, 1, [1, 2], 5, ⟨0, 0, 0, 0⟩, false, true, false⟩] } }, 0, 1, ⟨0, 1, [1, 2], 5, ⟨0, 0, 0, 0⟩, false, true, false⟩, by decide +kernel⟩,
   ⟨{ (W.live.wr F.PM_CTL_EN 1 0).wr F.PM_CTL_LQ_PM 1 0 with eth := { W.live.eth with armed := [(0, 1)], commits := [⟨0, 1, [1, 2], 5, ⟨0, 0, 0, 0⟩, false, true, true⟩] } }, 0, 1, ⟨0, 1, [1, 2], 5, ⟨0, 0, 0, 0⟩, false, true, true⟩, by decide +kernel⟩,
   ⟨(W.live.wr F.LQ_CTL_EN 1 2).wr F.LQ_STAT_STATE 1 2, 3, 2, 0, by decide +kernel⟩⟩

/-- The hypotheses of PostmarksAndTimedLaunches are met. -/
theorem witness_PostmarksAndTimedLaunches_3 :
    ∃ (s : State) (g : Nat), (g < 8) ∧ (s.rd F.LQ_STAT_STATE g = 2) ∧ (s.eth.commits.any (fun x => x.group == g) = false) ∧
    (s.on F.LQ_STAT_PENDING_ENABLE g = false) :=
  ⟨W.live.wr F.LQ_STAT_STATE 2 2, 2, by decide +kernel⟩

/-- The hypotheses of PacketTimingEngineStartsAndStops are met. -/
theorem witness_PacketTimingEngineStartsAndStops_1 :
    (∃ (s : State) (req w : Nat), (Admitted s req) ∧ (s.on F.PTE_CTL_EN = false) ∧ (s.ptpStopping 0 = false) ∧ (bit w 0 =
    true)) ∧
    (∃ (s : State) (req w : Nat), (Admitted s req) ∧ (s.on F.PTE_CTL_EN = true) ∧ (s.ptpStopping 0 = false) ∧
    (s.ptp.stopping.length = 7) ∧ (bit w 0 = false)) ∧
    (∃ (s : State) (req k w : Nat), (Admitted s req) ∧ (k < 2) ∧ (s.on F.PTE_I_CTL_EN k = false) ∧ (s.ptpStopping (1 + k) =
    false) ∧ (((s.stagedWrite noLock inRange [F.PTE_I_CTL_MINOR_SDO, F.PTE_I_CTL_MAJOR_SDO, F.PTE_I_CTL_AUTH_REQ,
    F.PTE_I_CTL_ANN_STOP, F.PTE_I_CTL_ACC_DERIVE, F.PTE_I_CTL_PROFILE, F.PTE_I_CTL_EN] k (setBit w 0 true)).1).instCheck k =
    none)) ∧
    (∃ (s : State) (req k w n : Nat), (Admitted s req) ∧ (k < 2) ∧ (s.on F.PTE_I_CTL_EN k = false) ∧ (s.ptpStopping (1 + k) =
    false) ∧ (((s.stagedWrite noLock inRange [F.PTE_I_CTL_MINOR_SDO, F.PTE_I_CTL_MAJOR_SDO, F.PTE_I_CTL_AUTH_REQ,
    F.PTE_I_CTL_ANN_STOP, F.PTE_I_CTL_ACC_DERIVE, F.PTE_I_CTL_PROFILE, F.PTE_I_CTL_EN] k (setBit w 0 true)).1).instCheck k =
    some n)) ∧
    (∃ (s : State) (req k w : Nat), (Admitted s req) ∧ (k < 2) ∧ (s.on F.PTE_I_CTL_EN k = true) ∧ (s.ptpStopping (1 + k) =
    false) ∧ (s.ptp.stopping.length = 7)) ∧
    (∃ (s : State) (b : Nat), (b < 7) ∧ (s.ptpStopping b = true) ∧ (s.frank.answers = []) ∧ (s.ptp.pend.getD b false = false)) :=
  ⟨⟨W.live, 3, 1, by decide +kernel⟩,
   ⟨W.live.wr F.PTE_CTL_EN 1, 3, 0, by decide +kernel⟩,
   ⟨W.live.wr F.PTE_CLKID_CLKID 5, 3, 1, 0, by decide +kernel⟩,
   ⟨W.live, 3, 1, 0, 0, by decide +kernel⟩,
   ⟨W.live.wr F.PTE_I_CTL_EN 1 1, 3, 1, 0, by decide +kernel⟩,
   ⟨W.live.setPtpStop 4 true false, 4, by decide +kernel⟩⟩

/-- The hypotheses of PacketTimingEngineStartsAndStops are met. -/
theorem witness_PacketTimingEngineStartsAndStops_2 :
    (∃ (s : State) (req k w : Nat), (Admitted s req) ∧ (k < 4) ∧ (s.on F.PTE_CLI_CTL_EN k = false) ∧ (s.ptpStopping (3 + k) =
    false) ∧ (bit w 0 = true) ∧ (bit w 2 = false) ∧ (((s.fieldWrite noLock inRange [F.PTE_CLI_CTL_SESS,
    F.PTE_CLI_CTL_DOMAIN_NUM, F.PTE_CLI_CTL_AUTH_REQ, F.PTE_CLI_CTL_NEG, F.PTE_CLI_CTL_PROTO, F.PTE_CLI_CTL_EN] k
    w).1).cliCheck k = true)) ∧
    (∃ (s : State) (req k w : Nat), (Admitted s req) ∧ (k < 4) ∧ (s.on F.PTE_CLI_CTL_EN k = false) ∧ (s.ptpStopping (3 + k) =
    false) ∧ (bit w 0 = true) ∧ (((s.fieldWrite noLock inRange [F.PTE_CLI_CTL_SESS, F.PTE_CLI_CTL_DOMAIN_NUM,
    F.PTE_CLI_CTL_AUTH_REQ, F.PTE_CLI_CTL_NEG, F.PTE_CLI_CTL_PROTO, F.PTE_CLI_CTL_EN] k w).1).cliCheck k = false)) ∧
    (∃ (s : State) (req k w : Nat), (Admitted s req) ∧ (k < 4) ∧ (s.on F.PTE_CLI_CTL_EN k = true) ∧ (s.ptpStopping (3 + k) =
    false) ∧ (s.ptp.stopping.length = 7) ∧ (s.on F.PTE_CLI_CTL_NEG k = false) ∧ (bit w 0 = false)) :=
  ⟨⟨W.live.mwr 0x800020 4 (2 ^ 31 + 2 ^ 19), 3, 1, 1, by decide +kernel⟩,
   ⟨W.live, 3, 1, 1, by decide +kernel⟩,
   ⟨W.live.wr F.PTE_CLI_CTL_EN 1 1, 3, 1, 0, by decide +kernel⟩⟩

/-- The hypotheses of PtpMessagesAreSentAndAnswered are met. -/
theorem witness_PtpMessagesAreSentAndAnswered_1 :
    (∃ (s : State) (k p : Nat) (place : TxPlace), (k < 2) ∧ (p < 32) ∧ (s.msgAllowed k p 0 none = true) ∧ (s.withheld
    (s.ptpDom k) = false) ∧ (s.saSends (s.msgSa p none) = false) ∧ (s.ptp.seqAnn.length = 64)) ∧
    (∃ (s : State) (k p : Nat) (place : TxPlace), (k < 2) ∧ (p < 32) ∧ (s.msgAllowed k p 1 none = true) ∧ (s.withheld
    (s.ptpDom k) = false) ∧ (s.saSends (s.msgSa p none) = false) ∧ (s.oneStepOn k p = false) ∧ (s.ptp.seqSync.length = 64)) ∧
    (∃ (s : State) (p : Nat) (x : FollowUp), (s.ptp.fups.find? (fun y => y.port == p) = some x) ∧ (s.serves = true) ∧
    (s.portSends p = true) ∧ (s.ptpState x.inst p = 1) ∧ (s.withheld (s.ptpDom x.inst) = false) ∧ (s.saSends (s.msgSa p
    x.sess) = false)) ∧
    (∃ (s : State) (p : Nat) (f : RxFrame) (pred tr k : Nat) (m : List Nat), (ptpMsg f.bytes = some (tr, m)) ∧ (s.rxGood p f =
    true) ∧ (msgType m = 1) ∧ (s.instOf p tr m = some k) ∧ (isP2p (s.profile k) = false) ∧ ((tagsOf f.bytes).length ≤ 2) ∧
    (s.ptpState k p = 1) ∧ (s.serves = true) ∧ (isUnicast f.bytes = false) ∧ (s.ptpRole k p = 1) ∧ (s.on F.PTE_I_CTL_AUTH_REQ
    k = false) ∧ (s.verify m = none) ∧ (s.withheld (s.ptpDom k) = false) ∧ (s.admits pred = true)) ∧
    (∃ (s : State) (p : Nat) (f : RxFrame) (pred tr k : Nat) (m : List Nat), (ptpMsg f.bytes = some (tr, m)) ∧ (s.rxGood p f =
    true) ∧ (msgType m = 2) ∧ (s.instOf p tr m = some k) ∧ (isP2p (s.profile k) = true) ∧ ((tagsOf f.bytes).length ≤ 2) ∧
    (s.ptpState k p = 1) ∧ (s.serves = true) ∧ (s.on F.PTE_I_CTL_AUTH_REQ k = false) ∧ (s.verify m = none) ∧ (s.admits pred =
    true)) ∧
    (∃ (s : State) (p k : Nat) (place : TxPlace), (s.p2pInst p = some k) ∧ (p < 32) ∧ (s.serves = true) ∧ (s.portSends p =
    true) ∧ ((s.pdl p).out = none) ∧ (s.saSends (s.msgSa p none) = false) ∧ (s.ptp.pdelay.length = 32)) :=
  ⟨⟨W.master, 0, 8, ⟨0, 0, 0, 0⟩, by decide +kernel⟩,
   ⟨W.master.wr F.PTE_PORT_CTL_ONE_STEP0 0 8, 0, 8, ⟨0, 0, 0, 0⟩, by decide +kernel⟩,
   ⟨{ W.master with ptp := { W.master.ptp with fups := [⟨0, 8, none, 1, 2, 3, 0⟩] } }, 8, ⟨0, 8, none, 1, 2, 3, 0⟩, by decide +kernel⟩,
   ⟨W.master, 8, W.ptp (W.msg 1 44 ++ [0, 0]), 0, 0, 0, W.msg 1 44, by decide +kernel⟩,
   ⟨W.peer, 8, W.ptp (W.msg 2 54), 0, 0, 0, W.msg 2 54, by decide +kernel⟩,
   ⟨W.peer, 8, 0, ⟨0, 0, 0, 0⟩, by decide +kernel⟩⟩

/-- The hypotheses of PtpMessagesAreSentAndAnswered are met. -/
theorem witness_PtpMessagesAreSentAndAnswered_2 :
    (∃ (s : State) (p : Nat) (f : RxFrame) (tr k d t1 : Nat) (m : List Nat), (ptpMsg f.bytes = some (tr, m)) ∧ (s.rxGood p f =
    true) ∧ (msgType m = 3) ∧ ((s.pdl p).out = some (msgSeq m, k, d, t1)) ∧ (be m 44 10 = s.clkId * 2 ^ 16 + (p + 1)) ∧
    (s.serves = true) ∧ (s.on F.PTE_I_CTL_AUTH_REQ k = false) ∧ (s.verify m = none) ∧ (msgTwoStep m = false) ∧
    (s.ptp.pdelay.length = 32) ∧ (p < 32)) ∧
    (∃ (s : State) (p : Nat) (f : RxFrame) (tr k : Nat) (m : List Nat), (ptpMsg f.bytes = some (tr, m)) ∧ (s.rxGood p f =
    true) ∧ (msgType m = 11) ∧ (s.cliOf p tr f m = none) ∧ (s.instOf p tr m = some k) ∧ (msgPort m / 2 ^ 16 ≠ s.clkId) ∧ (s.on
    F.PTE_I_CTL_AUTH_REQ k = false) ∧ (s.verify m = none) ∧ (s.on F.PTE_PORT_CTL_FOREIGN_ACT p = false)) ∧
    (∃ (s : State) (k p : Nat), (k < 2) ∧ (p < 32) ∧ (s.ptpState k p = 2)) :=
  ⟨⟨W.peer.setPdl 8 { W.peer.pdl 8 with out := some (0, 0, 0, 77) }, 8, W.ptp ((W.msg 3 54).take 44 ++ [0, 0, 0, 0, 0, 0, 0, 0, 0, 9]), 0, 0, 0, 77, (W.msg 3 54).take 44 ++ [0, 0, 0, 0, 0, 0, 0, 0, 0, 9], by decide +kernel⟩,
   ⟨W.master.wr F.PTE_CLKID_CLKID 7, 8, W.ptp (W.msg 11 64), 0, 0, W.msg 11 64, by decide +kernel⟩,
   ⟨W.live.wr F.PTE_PORT_STAT_STATE1 2 8, 1, 8, by decide +kernel⟩⟩

/-- The hypotheses of SessionsAreGrantedAddedAndChanged are met. -/
theorem witness_SessionsAreGrantedAddedAndChanged_1 :
    (∃ (s : State) (p : Nat) (f : RxFrame) (tr k : Nat) (m : List Nat), (ptpMsg f.bytes = some (tr, m)) ∧ (s.rxGood p f =
    true) ∧ (msgType m = 12) ∧ (s.sigInst tr m = some k) ∧ (s.serves = true) ∧ (sigTlvs m 4 ≠ []) ∧ (s.on F.PTE_I_CTL_AUTH_REQ
    k = false) ∧ (s.verify m = none)) ∧
    (∃ (s : State) (x : Negotiation) (l : List Negotiation) (q : Nat × Int × Nat), (s.ptp.reqs = x :: l) ∧ (s.serves = true) ∧
    (x.items = [q]) ∧ ({ s with ptp := { s.ptp with reqs := l } }.grantable x
    ({ s with ptp := { s.ptp with reqs := l } }.sessFind x.port x.inst x.tr (srcAddr x.frame.bytes x.tr)) q = none)) ∧
    (∃ (s : State) (x : Negotiation) (l : List Negotiation) (q : Nat × Int × Nat) (t : Nat), (s.ptp.reqs = x :: l) ∧ (s.serves
    = true) ∧ (x.items = [q]) ∧ ({ s with ptp := { s.ptp with reqs := l } }.grantable x
    ({ s with ptp := { s.ptp with reqs := l } }.sessFind x.port x.inst x.tr (srcAddr x.frame.bytes x.tr)) q = some t)) ∧
    (∃ (s : State) (n t : Nat), (s.ptp.grants = []) ∧ (n < 8192) ∧ (t < 3) ∧ (s.sessValid n = true) ∧ (s.grantOn n t = true) ∧
    (1 < s.grantLeft n t) ∧ (s.grantLeft n t ≠ 0xFFFF)) ∧
    (∃ (s : State) (p : Nat) (f : RxFrame) (tr k : Nat) (m : List Nat), (ptpMsg f.bytes = some (tr, m)) ∧ (s.rxGood p f =
    true) ∧ (s.portSends p = true) ∧ (msgType m = 12) ∧ (s.sigInst tr m = some k) ∧ (s.serves = true) ∧ (sigTlvs m 6 ≠ []) ∧
    (s.on F.PTE_I_CTL_AUTH_REQ k = false) ∧ (s.verify m = none) ∧ (s.sessFind p k tr (srcAddr f.bytes tr) = none)) ∧
    (∃ (s : State) (c : CmdRef) (w0 : Nat) (buf : List Nat), (s.notHolder = false) ∧ (recordOk (buf.map (fun b => b % 256)) =
    true) ∧ (bit w0 13 = false) ∧ (s.sessTaken (bits w0 0 13) = false)) :=
  ⟨⟨W.master.wr F.PTE_I_STAT_RUNNING 1 0 |>.wr F.PTE_STAT_RUNNING 1, 8, W.ptp (W.msg 12 54 |>.take 44 |> (· ++ [0, 4, 0, 6,
   0xB0, 0, 0, 0, 0, 60])), 0, 0, (W.msg 12 54).take 44 ++ [0, 4, 0, 6, 0xB0, 0, 0, 0, 0, 60], by decide +kernel⟩,
   ⟨{ W.live with ptp := { W.live.ptp with reqs := [⟨W.frame [], 8, 0, 0, [(0, 0, 60)]⟩] } }, ⟨W.frame [], 8, 0, 0, [(0, 0, 60)]⟩, [], (0, 0, 60), by decide +kernel⟩,
   ⟨{ W.master with ptp := { W.master.ptp with reqs := [⟨W.frame [], 8, 0, 0, [(0, 0, 60)]⟩] } }, ⟨W.frame [], 8, 0, 0, [(0, 0, 60)]⟩, [], (0, 0, 60), 1, by decide +kernel⟩,
   ⟨((W.live.mwr 0x800020 4 (2 ^ 31)).mwr 0x800028 4 (2 ^ 19)).mwr 0x80002C 2 5, 0, 0, by decide +kernel⟩,
   ⟨W.master.wr F.PTE_I_STAT_RUNNING 1 0 |>.wr F.PTE_STAT_RUNNING 1, 8, W.ptp ((W.msg 12 50).take 44 ++ [0, 6, 0, 2, 0xB0,
   0]), 0, 0, (W.msg 12 50).take 44 ++ [0, 6, 0, 2, 0xB0, 0], by decide +kernel⟩,
   ⟨W.live, W.c, 5, List.replicate 50 0, by decide +kernel⟩⟩

/-- The hypotheses of SessionsAreGrantedAddedAndChanged are met. -/
theorem witness_SessionsAreGrantedAddedAndChanged_2 :
    (∃ (s : State) (c : CmdRef) (w0 : Nat) (buf : List Nat) (n : Nat), (s.notHolder = false) ∧ (recordOk (buf.map (fun b => b
    % 256)) = true) ∧ (bit w0 13 = true) ∧ (s.sessFree = some n)) ∧
    (∃ (s : State) (c : CmdRef) (w0 : Nat) (buf : List Nat), (s.notHolder = false) ∧ (recordOk (buf.map (fun b => b % 256)) =
    false ∨ (bit w0 13 = false ∧ s.sessTaken (bits w0 0 13) = true))) ∧
    (∃ (s : State) (c : CmdRef) (w0 : Nat) (buf : List Nat), (s.notHolder = true)) ∧
    (∃ (s : State) (c : CmdRef) (w0 : Nat), (s.notHolder = false) ∧ (s.sessValid (bits w0 0 13) = true)) ∧
    (∃ (s : State) (c : CmdRef) (w0 : Nat), (s.notHolder = false) ∧ (s.sessValid (bits w0 0 13) = false)) ∧
    (∃ (s : State) (c : CmdRef) (w0 : Nat), (s.notHolder = false) ∧ (s.sessValid (bits w0 0 13) = true) ∧ (bits w0 16 6 = 0x3F
    ∨ (s.saSends (bits w0 16 6) = true ∧ s.saUsable (s.saCtl (bits w0 16 6)) = true))) :=
  ⟨⟨W.live, W.c, 2 ^ 13, List.replicate 50 0, 0, by decide +kernel⟩,
   ⟨W.live, W.c, 5, [], by decide +kernel⟩,
   ⟨W.live.wr F.PAIR_STAT_STATE 2, W.c, 5, [], by decide +kernel⟩,
   ⟨W.live.mwr 0x800020 4 (2 ^ 31), W.c, 0, by decide +kernel⟩,
   ⟨W.live, W.c, 0, by decide +kernel⟩,
   ⟨W.live.mwr 0x800020 4 (2 ^ 31), W.c, 0x3F0000, by decide +kernel⟩⟩

/-- The hypotheses of SessionsAreGrantedAddedAndChanged are met. -/
theorem witness_SessionsAreGrantedAddedAndChanged_3 :
    (∃ (s : State) (c : CmdRef) (w0 : Nat), (s.notHolder = false) ∧ (s.sessValid (bits w0 0 13) = true) ∧ (bits w0 16 6 ≠
    0x3F) ∧ (s.saSends (bits w0 16 6) = false)) ∧
    (∃ (s : State) (c : CmdRef) (w0 : Nat), (s.notHolder = false)) ∧
    (∃ (s : State) (c : CmdRef) (w0 : Nat), (s.notHolder = true)) ∧
    (∃ (s : State) (c : CmdRef) (n k : Nat), (s.ptp.grants = []) ∧ (s.ptp.changes = [.setSa c n k]) ∧ (n < 8192) ∧
    (s.sessValid n = true)) ∧
    (∃ (s : State) (c : CmdRef) (n : Nat) (l : List Nat), (s.ptp.grants = []) ∧ (s.ptp.changes = [.add c n l]) ∧ (n < 8192) ∧
    (l.length = 64)) :=
  ⟨⟨W.live.mwr 0x800020 4 (2 ^ 31), W.c, 0, by decide +kernel⟩,
   ⟨W.live, W.c, 0, by decide +kernel⟩,
   ⟨W.live.wr F.PAIR_STAT_STATE 2, W.c, 0, by decide +kernel⟩,
   ⟨{ W.live.mwr 0x800020 4 (2 ^ 31) with ptp := { W.live.ptp with changes := [.setSa W.c 0 5] } }, W.c, 0, 5, by decide +kernel⟩,
   ⟨{ W.live with ptp := { W.live.ptp with changes := [.add W.c 0 (List.replicate 64 3)] } }, W.c, 0, List.replicate 64 3, by decide +kernel⟩⟩

/-- The hypotheses of PacketClientsMeasure are met. -/
theorem witness_PacketClientsMeasure_1 :
    (∃ (s : State) (k : Nat) (place : TxPlace), (s.cliRuns k = true) ∧ (s.cliNtp k = false) ∧ (2 ≤ s.cliState k) ∧
    (s.portSends (s.cliPort k) = true) ∧ (s.saSends (s.msgSa (s.cliPort k) (some (s.cliSess k))) = false) ∧
    (s.ptp.client.length = 4)) ∧
    (∃ (s : State) (k : Nat) (place : TxPlace), (s.cliRuns k = true) ∧ (s.cliNtp k = true) ∧ (s.portSends (s.cliPort k) =
    true) ∧ (s.ptp.client.length = 4)) ∧
    (∃ (s : State) (p : Nat) (f : RxFrame) (tr k : Nat) (m : List Nat), (ptpMsg f.bytes = some (tr, m)) ∧ (s.rxGood p f =
    true) ∧ (msgType m = 0) ∧ (s.cliOf p tr f m = some k) ∧ (s.on F.PTE_CLI_CTL_AUTH_REQ k = false) ∧ (s.verify m = none) ∧ (2
    ≤ s.cliState k) ∧ (msgTwoStep m = false) ∧ (s.ptp.client.length = 4)) ∧
    (∃ (s : State) (p : Nat) (f : RxFrame) (v : Udp) (k : Nat) (q : Nat × Int), (udpOf f.bytes = some v) ∧ (s.ntpClientOf p
    f.bytes v = some k) ∧ (s.rxGood p f = true) ∧ (v.src = 123) ∧ (udpSumOk f.bytes v = true) ∧ ((s.cli k).out.find? (fun q =>
    q.1 == be (udpData f.bytes v) 24 8) = some q) ∧ (48 ≤ (udpData f.bytes v).length) ∧ (bits (be (udpData f.bytes v) 0 1) 0 3
    = 4 ∧ bits (be (udpData f.bytes v) 0 1) 3 3 = 4 ∧ bits (be (udpData f.bytes v) 0 1) 6 2 ≠ 3) ∧ (0 < be (udpData f.bytes v)
    1 1 ∧ be (udpData f.bytes v) 1 1 ≤ s.rd F.PTE_CLI_RATE_CLASS_MAX k) ∧ (s.ptp.client.length = 4) ∧ (s.cliState k = 1)) ∧
    (∃ (s : State) (k : Nat), (s.cliRuns k = true) ∧ (s.cliState k = 1) ∧ (s.ptp.client.length = 4)) ∧
    (∃ (s : State) (k : Nat), (s.cliRuns k = true) ∧ (s.cliState k = 3) ∧ (s.cliUp k = none) ∧ (s.ptp.client.length = 4)) :=
  ⟨⟨W.client.wr F.PTE_CLI_STAT_STATE 2 0, 0, ⟨0, 0, 0, 0⟩, by decide +kernel⟩,
   ⟨W.client.wr F.PTE_CLI_CTL_PROTO 1 0, 0, ⟨0, 0, 0, 0⟩, by decide +kernel⟩,
   ⟨(W.client.wr F.PTE_CLI_STAT_STATE 2 0).mwr 0x800000 6 0x020202020202, 8, W.ptp (W.msg 0 44 ++ [0, 0]), 0, 0, W.msg 0 44,
   by decide +kernel⟩,
   ⟨W.ntpClient, 8, W.ntpReply, ⟨false, 14, 42, 123, 123⟩, 0, (0, 9), by decide +kernel⟩,
   ⟨W.client, 0, by decide +kernel⟩,
   ⟨W.client.wr F.PTE_CLI_STAT_STATE 3 0, 0, by decide +kernel⟩⟩

/-- The hypotheses of PacketClientsMeasure are met. -/
theorem witness_PacketClientsMeasure_2 :
    (∃ (s : State) (k up : Nat) (e : Exchange), (s.cliRuns k = true) ∧ (s.cliState k = 2) ∧ (s.cliUp k = some up) ∧
    (s.ptp.client.length = 4) ∧ ((s.cli k).authFail = false) ∧ ((s.cli k).exch = [e]) ∧ (s.rd F.PTE_CLI_FILT_MIN_EXCH k ≤ 1)) ∧
    (∃ (s : State) (k : Nat), (s.cliRuns k = true) ∧ (s.on F.PTE_CLI_CTL_NEG k = true) ∧ (s.grantOn (s.cliSess k) 0 = true) ∧
    (2 * s.grantLeft (s.cliSess k) 0 ≤ (s.cli k).granted.getD 0 0) ∧ (s.portSends (s.cliPort k) = true) ∧ (s.saSends (s.msgSa
    (s.cliPort k) (some (s.cliSess k))) = false) ∧ (s.ptp.client.length = 4)) ∧
    (∃ (s : State) (k : Nat), (s.cliRuns k = true) ∧ (2 ≤ s.cliState k)) :=
  ⟨⟨((W.client.wr F.PTE_CLI_STAT_STATE 2 0).wr F.PTE_CLI_FILT_MIN_EXCH 1 0).setCli 0 { W.client.cli 0 with up := some 5, exch := [⟨10, 20, 30⟩] }, 0, 5, ⟨10, 20, 30⟩, by decide +kernel⟩,
   ⟨(((W.client.wr F.PTE_CLI_CTL_NEG 1 0).mwr 0x800028 4 (2 ^ 19)).mwr 0x80002C 2 5).setCli 0 { W.client.cli 0 with granted := [60, 0, 0] }, 0, by decide +kernel⟩,
   ⟨W.client.wr F.PTE_CLI_STAT_STATE 3 0, 0, by decide +kernel⟩⟩

/-- The hypotheses of FrankingAdmitsAndAnswers are met. -/
theorem witness_FrankingAdmitsAndAnswers :
    (∃ (s : State) (p : Nat) (f : RxFrame) (pred : Nat) (v : Udp), (s.rxGood p f = true) ∧ (udpOf f.bytes = some v) ∧ (v.dst =
    123) ∧ (s.ntpOn p = true) ∧ (s.ntpIpOk p f.bytes v = true) ∧ (v.src ≠ 0) ∧ (udpSumOk f.bytes v = true) ∧ ((udpData f.bytes
    v).length = 48) ∧ (bits (be (udpData f.bytes v) 0 1) 3 3 = 3 ∨ bits (be (udpData f.bytes v) 0 1) 3 3 = 4) ∧ (bits (be
    (udpData f.bytes v) 0 1) 0 3 = 3) ∧ (s.serves = true) ∧ (s.withheld (s.classDom Cls.ntp) = false) ∧ (s.admits pred =
    true)) ∧
    (∃ (s : State) (p : Nat) (f : RxFrame) (pred : Nat) (v : Udp), (s.rxGood p f = true) ∧ (udpOf f.bytes = some v) ∧ (v.dst =
    123) ∧ (s.ntpOn p = true) ∧ (s.ntpIpOk p f.bytes v = true) ∧ (v.src ≠ 0) ∧ (udpSumOk f.bytes v = true) ∧ ((udpData f.bytes
    v).length = 48) ∧ (bits (be (udpData f.bytes v) 0 1) 3 3 = 3 ∨ bits (be (udpData f.bytes v) 0 1) 3 3 = 4) ∧ (bits (be
    (udpData f.bytes v) 0 1) 0 3 = 3) ∧ (s.serves = true) ∧ (s.withheld (s.classDom Cls.ntp) = false) ∧ (s.admits pred =
    false)) ∧
    (∃ (s : State) (p : Nat) (place : TxPlace) (x : Answer) (tr : Nat) (m : List Nat), (s.frank.answers.find? (fun a => a.port
    == p) = some x) ∧ (s.portSends p = true) ∧ (x.kind = 3) ∧ (ptpMsg x.req.bytes = some (tr, m)) ∧ (s.saSends (x.sa.getD
    0x3F) = false)) ∧
    (∃ (s : State) (p : Nat) (place : TxPlace) (x : Answer) (v : Udp), (s.frank.answers.find? (fun a => a.port == p) = some x)
    ∧ (s.portSends p = true) ∧ (x.kind = 0) ∧ (udpOf x.req.bytes = some v)) ∧
    (∃ (s : State) (p : Nat) (place : TxPlace) (late : Bool) (x : Answer), (s.frank.answers = [x]) ∧ (x.port = p) ∧
    (s.portSends p = false)) :=
  ⟨⟨W.ntpServer, 8, W.ntpAsk, 0, ⟨false, 14, 42, 123, 123⟩, by decide +kernel⟩,
   ⟨W.ntpServer, 8, W.ntpAsk, 9000, ⟨false, 14, 42, 123, 123⟩, by decide +kernel⟩,
   ⟨W.ansReady 3 (W.ptp (W.msg 1 44 ++ [0, 0])), 8, ⟨0, 0, 0, 0⟩, W.ans 3 (W.ptp (W.msg 1 44 ++ [0, 0])), 0, W.msg 1 44,
   by decide +kernel⟩,
   ⟨W.ansReady 0 W.ntpAsk, 8, ⟨0, 0, 0, 0⟩, W.ans 0 W.ntpAsk, ⟨false, 14, 42, 123, 123⟩, by decide +kernel⟩,
   ⟨{ W.live with frank := { W.live.frank with answers := [W.ans 0 W.ntpAsk] } }, 8, ⟨0, 0, 0, 0⟩, false, W.ans 0 W.ntpAsk, by decide +kernel⟩⟩

/-- The hypotheses of FrankingUnitsRotateTestAndFail are met. -/
theorem witness_FrankingUnitsRotateTestAndFail_1 :
    (∃ (s : State) (c : CmdRef) (w0 w1 : Nat), (s.notHolder = false) ∧ (w1 % 2 ^ 32 ≠ 0) ∧ (s.keyIdUsed (w1 % 2 ^ 32) = false)
    ∧ (s.slateAvail (bits w0 0 8) = true) ∧ (s.slateUse (bits w0 0 8) Usage.cookie true = Code.ok) ∧ ((s.quietQueue 1).length
    < 64) ∧ (s.sort.queues.length = 11)) ∧
    (∃ (s : State) (c : CmdRef) (w0 w1 : Nat), (s.notHolder = false) ∧ (w1 % 2 ^ 32 = 0 ∨ s.keyIdUsed (w1 % 2 ^ 32) = true)) ∧
    (∃ (s : State) (c : CmdRef) (w0 w1 : Nat), (s.notHolder = true)) ∧
    (∃ (s : State) (x : Rotation) (l : List Rotation) (e : SortEntry), (s.frank.rots = x :: l) ∧ ((s.quietQueue 1).find? (fun
    e => e.act == 4) = some e) ∧ (s.quietRun 1 = none) ∧ (s.on F.TOP_STAT_SAFE = false)) ∧
    (∃ (s : State) (c : CmdRef) (w0 w1 : Nat) (keys : List Nat) (buf : Nat), (1 ≤ bits w0 0 4 ∧ bits w0 0 4 ≤ 8) ∧ (w1 = 15) ∧
    (keys.length = 64) ∧ (s.mkeyUsable 1 = true) ∧ (s.on F.FRANK_STAT_DRBG_OK = true) ∧ (c.src = .ring) ∧ (s.host.outFail =
    none)) ∧
    (∃ (s : State) (c : CmdRef) (w0 w1 : Nat) (keys : List Nat) (buf : Nat), (bits w0 0 4 = 0 ∨ 8 < bits w0 0 4 ∨ w1 ≠ 15 ∨
    keys.length ≠ 64)) :=
  ⟨⟨((W.live.wr F.SLATE_ATTR_VALID 1 20).wr F.SLATE_ATTR_USAGE 1 20).wr F.SLATE_ATTR_KLEN 1 20, W.c, 20, 7, by decide +kernel⟩,
   ⟨W.live, W.c, 20, 0, by decide +kernel⟩,
   ⟨W.live.wr F.PAIR_STAT_STATE 2, W.c, 20, 7, by decide +kernel⟩,
   ⟨{ W.live with frank := { W.live.frank with rots := [⟨W.c, 20, 7⟩] }, sort := { W.live.sort with queues := [[], [⟨4, 0, false, [W.c], 0, false⟩], [], [], [], [], [], [], [], [], []] } }, ⟨W.c, 20, 7⟩, [], ⟨4, 0, false, [W.c], 0, false⟩, by decide +kernel⟩,
   ⟨((((W.live.wr F.SLATE_ATTR_VALID 1 20).wr F.SLATE_ATTR_USAGE 1 20).wr F.SLATE_ATTR_KLEN 1 20).wr
   F.FRANK_NTS_MKEY_CTL_VALID 1 1).wr F.FRANK_NTS_MKEY_CTL_SLATE 20 1 |>.wr F.FRANK_STAT_DRBG_OK 1, W.c, 2, 15, List.replicate
   64 0, 4096, by decide +kernel⟩,
   ⟨W.live, W.c, 0, 15, [], 0, by decide +kernel⟩⟩

/-- The hypotheses of FrankingUnitsRotateTestAndFail are met. -/
theorem witness_FrankingUnitsRotateTestAndFail_2 :
    (∃ (s : State) (req w : Nat), (Admitted s req) ∧ (s.on F.FRANK_CTL_EN = false) ∧ (s.frankStopping 0 = false) ∧ (bit w 0 =
    true)) ∧
    (∃ (s : State) (req w : Nat), (Admitted s req) ∧ (s.on F.FRANK_CTL_EN = true) ∧ (s.on F.FRANK_NTS_CTL_EN = false) ∧
    (s.frankStopping 0 = false) ∧ (s.frank.stopping.length = 3) ∧ (bit w 0 = false)) ∧
    (∃ (s : State) (req w : Nat), (Admitted s req) ∧ (s.on F.FRANK_CTL_EN = true) ∧ (s.on F.FRANK_NTS_CTL_EN = true) ∧ (bit w
    0 = false)) ∧
    (∃ (s : State) (req w : Nat), (Admitted s req) ∧ (s.on F.FRANK_NTP_CTL_EN = false) ∧ (s.frankStopping 1 = false) ∧ (bit w
    0 = true)) ∧
    (∃ (s : State) (req w : Nat), (Admitted s req) ∧ (s.on F.FRANK_NTS_CTL_EN = false) ∧ (s.frankStopping 2 = false) ∧ (bit w
    0 = true) ∧ (s.on F.FRANK_CTL_EN = true) ∧ (s.mkeyUsable 1 = true)) ∧
    (∃ (s : State) (req w : Nat), (Admitted s req) ∧ (s.on F.FRANK_NTS_CTL_EN = false) ∧ (s.frankStopping 2 = false) ∧ (bit w
    0 = true) ∧ (s.on F.FRANK_CTL_EN = false)) :=
  ⟨⟨W.live, 3, 1, by decide +kernel⟩,
   ⟨W.live.wr F.FRANK_CTL_EN 1, 3, 0, by decide +kernel⟩,
   ⟨(W.live.wr F.FRANK_CTL_EN 1).wr F.FRANK_NTS_CTL_EN 1, 3, 0, by decide +kernel⟩,
   ⟨W.live, 3, 1, by decide +kernel⟩,
   ⟨((((W.live.wr F.SLATE_ATTR_VALID 1 20).wr F.SLATE_ATTR_USAGE 1 20).wr F.SLATE_ATTR_KLEN 1 20).wr
   F.FRANK_NTS_MKEY_CTL_VALID 1 1).wr F.FRANK_NTS_MKEY_CTL_SLATE 20 1 |>.wr F.FRANK_CTL_EN 1, 3, 1, by decide +kernel⟩,
   ⟨W.live, 3, 1, by decide +kernel⟩⟩

/-- The hypotheses of FrankingUnitsRotateTestAndFail are met. -/
theorem witness_FrankingUnitsRotateTestAndFail_3 :
    (∃ (s : State) (b : Nat), (b < 3) ∧ (s.frankStopping b = true) ∧ (s.frank.answers = []) ∧ (s.frank.pend.getD b false =
    false)) ∧
    (∃ (s : State) (req w : Nat), (Admitted s req) ∧ (s.sort.tests = []) ∧ ((idxs 12 (bit w)).length ≤ 4)) ∧
    (∃ (s : State) (req w : Nat), (Admitted s req) ∧ (s.sort.tests = []) ∧ (4 < (idxs 12 (bit w)).length)) ∧
    (∃ (s : State) (req w : Nat), (Admitted s req)) ∧
    (∃ (s : State) (fail : Nat), (s.frank.katEn = true)) ∧
    (∃ (s : State) (k p : Nat), (k < 12) ∧ (s.frank.answers = [])) :=
  ⟨⟨{ W.live with frank := { W.live.frank with stopping := [false, true, false] } }, 1, by decide +kernel⟩,
   ⟨W.live, 3, 0x13, by decide +kernel⟩,
   ⟨W.live, 3, 0x1F, by decide +kernel⟩,
   ⟨W.live, 3, 0, by decide +kernel⟩,
   ⟨{ W.live with frank := { W.live.frank with katEn := true } }, 5, by decide +kernel⟩,
   ⟨W.live, 3, 8, by decide +kernel⟩⟩

/-- The hypotheses of FrankingUnitsRotateTestAndFail are met. -/
theorem witness_FrankingUnitsRotateTestAndFail_4 :
    ∃ (s : State) (k p : Nat) (x : Answer), (k < 12) ∧ (s.frank.answers.find? (fun a => a.port == p && !a.uses.isEmpty) = some
    x) :=
  ⟨{ W.live with frank := { W.live.frank with answers := [{ W.ans 1 W.ntpAsk with uses := [(20, 0)] }] } }, 3, 8, { W.ans 1 W.ntpAsk with uses := [(20, 0)] }, by decide +kernel⟩

/-- The hypotheses of SlatesTakeAndLoseKeys are met. -/
theorem witness_SlatesTakeAndLoseKeys_1 :
    (∃ (s : State) (c : CmdRef) (w0 : Nat) (buf : List Nat), (usageOk (bits w0 8 3) (bit w0 11) = true) ∧ (buf.length = keyLen
    (bit w0 11)) ∧ (s.keyBarred (bits w0 0 8) 1 (s.mirrored (bits w0 0 8) || (16 ≤ bits w0 0 8 && !bit w0 12)) = none) ∧
    (s.slatePending (bits w0 0 8) = false) ∧ (16 ≤ bits w0 0 8 ∨ s.on F.SLATE_STAT_ROOT_OK = true)) ∧
    (∃ (s : State) (c : CmdRef) (w0 : Nat) (buf : List Nat), (usageOk (bits w0 8 3) (bit w0 11) = false ∨ buf.length ≠ keyLen
    (bit w0 11))) ∧
    (∃ (s : State) (c : CmdRef) (w0 : Nat) (buf : List Nat), (usageOk (bits w0 8 3) (bit w0 11) = true) ∧ (buf.length = keyLen
    (bit w0 11)) ∧ (s.on F.SLATE_LOAD_LOCK_LOAD_LOCK = true)) ∧
    (∃ (s : State) (c : CmdRef) (w0 w1 : Nat) (buf : List Nat), (usageOk (bits w0 17 3) (bit w0 20) = true) ∧ (1 ≤ bits w1 0 6
    ∧ bits w1 0 6 ≤ 32 ∧ bits w1 8 6 ≤ 32 ∧ buf.length = bits w1 0 6 + bits w1 8 6) ∧ (bit w0 16 = true) ∧ (s.keyBarred (bits
    w0 0 8) 2 (s.mirrored (bits w0 0 8) || (16 ≤ bits w0 0 8 && !bit w0 21)) = none) ∧ (s.slatePending (bits w0 0 8) = false)
    ∧ (s.on F.SLATE_STAT_ROOT_OK = true)) ∧
    (∃ (s : State) (c : CmdRef) (w0 w1 : Nat) (buf : List Nat), (usageOk (bits w0 17 3) (bit w0 20) = true) ∧ (1 ≤ bits w1 0 6
    ∧ bits w1 0 6 ≤ 32 ∧ bits w1 8 6 ≤ 32 ∧ buf.length = bits w1 0 6 + bits w1 8 6) ∧ (bit w0 16 = false) ∧ (s.keyBarred (bits
    w0 0 8) 2 (s.mirrored (bits w0 0 8) || (16 ≤ bits w0 0 8 && !bit w0 21) || s.mirrored (bits w0 8 8)) = none) ∧
    (s.slatePending (bits w0 0 8) = false) ∧ (s.slatePending (bits w0 8 8) = false) ∧ (16 ≤ bits w0 0 8 ∨ s.on
    F.SLATE_STAT_ROOT_OK = true) ∧ (s.slateAvail (bits w0 8 8) = true) ∧ (bits w0 8 8 ≠ bits w0 0 8) ∧ (s.rd
    F.SLATE_ATTR_USAGE (bits w0 8 8) = Usage.derive)) ∧
    (∃ (s : State) (c : CmdRef) (w0 w1 : Nat) (buf : List Nat), (usageOk (bits w0 17 3) (bit w0 20) = false ∨ bits w1 0 6 = 0
    ∨ 32 < bits w1 0 6 ∨ 32 < bits w1 8 6 ∨ buf.length ≠ bits w1 0 6 + bits w1 8 6)) :=
  ⟨⟨W.live, W.c, 20 + 5 * 256 + 2 ^ 11 + 2 ^ 12, List.replicate 32 7, by decide +kernel⟩,
   ⟨W.live, W.c, 20, [], by decide +kernel⟩,
   ⟨W.live.wr F.SLATE_LOAD_LOCK_LOAD_LOCK 1, W.c, 20 + 5 * 256 + 2 ^ 11 + 2 ^ 12, List.replicate 32 7, by decide +kernel⟩,
   ⟨W.live.wr F.SLATE_STAT_ROOT_OK 1, W.c, 20 + 2 ^ 16 + 5 * 2 ^ 17 + 2 ^ 20 + 2 ^ 21, 1, [9], by decide +kernel⟩,
   ⟨(W.live.wr F.SLATE_ATTR_VALID 1 21).wr F.SLATE_ATTR_USAGE 5 21, W.c, 20 + 21 * 256 + 5 * 2 ^ 17 + 2 ^ 20 + 2 ^ 21, 1, [9],
   by decide +kernel⟩,
   ⟨W.live, W.c, 20, 0, [], by decide +kernel⟩⟩

/-- The hypotheses of SlatesTakeAndLoseKeys are met. -/
theorem witness_SlatesTakeAndLoseKeys_2 :
    (∃ (s : State) (c : CmdRef) (w0 : Nat), (s.keyBarred (bits w0 0 8) 3 (s.mirrored (bits w0 0 8)) = none) ∧ (s.slatePending
    (bits w0 0 8) = false)) ∧
    (∃ (s : State) (c : CmdRef) (w0 : Nat), (s.keyBarred (bits w0 0 8) 3 (s.mirrored (bits w0 0 8)) = none) ∧ (s.slatePending
    (bits w0 0 8) = true)) ∧
    (∃ (s : State) (c : CmdRef) (w0 : Nat), (s.slateAvail (bits w0 0 8) = true)) ∧
    (∃ (s : State) (c : CmdRef) (w0 : Nat), (s.slateAvail (bits w0 0 8) = false)) ∧
    (∃ (s : State) (x : SlateChange), (s.slate.changes = [x]) ∧ (x.late = false) ∧ (x.inval = true) ∧ (x.slate < 256)) ∧
    (∃ (s : State) (x : SlateChange), (s.slate.changes = [x]) ∧ (s.slate.failed = []) ∧ (x.late = false) ∧ (x.inval = false) ∧
    (x.slate < 256) ∧ (s.on F.SLATE_ATTR_VALID x.slate = false) ∧ (s.changeTagOk x = true)) :=
  ⟨⟨W.live, W.c, 20, by decide +kernel⟩,
   ⟨{ W.live with slate := { W.live.slate with changes := [⟨W.c, 20, true, 0, false, false, 0, 0, false⟩] } }, W.c, 20, by decide +kernel⟩,
   ⟨W.live.wr F.SLATE_ATTR_VALID 1 20, W.c, 20, by decide +kernel⟩,
   ⟨W.live, W.c, 20, by decide +kernel⟩,
   ⟨{ W.live with slate := { W.live.slate with changes := [⟨W.c, 20, true, 0, false, false, 0, 0, false⟩] } }, ⟨W.c, 20, true, 0, false, false, 0, 0, false⟩, by decide +kernel⟩,
   ⟨W.loaded, ⟨W.c, 20, false, 5, true, true, 0, 0, false⟩, ⟨by decide +kernel, by decide +kernel, by decide +kernel,
   by decide +kernel, by decide +kernel, by decide +kernel, beq_self_eq_true (slateTag 20 (tagAttr 20 5 true true 0 0)
   (bytesOf 32 0))⟩⟩⟩

/-- The hypotheses of SlatesTakeAndLoseKeys are met. -/
theorem witness_SlatesTakeAndLoseKeys_3 :
    (∃ (s : State) (n : Nat) (c : CmdRef), (s.slate.zero = [⟨n, 2, some c⟩]) ∧ (s.frank.answers = []) ∧ (n < 256) ∧
    (s.slate.cells.length = 256)) ∧
    (∃ (s : State) (bad : List Nat) (us : Nat), (s.isRunning 3 0 = true) ∧ (s.sort.running.length = 11)) ∧
    (∃ (s : State) (bad : List Nat) (us : Nat), (s.isRunning 3 0 = false) ∧ (s.pins.ready = true) ∧ (s.on F.FRANK_STAT_DRBG_OK
    = false)) ∧
    (∃ (s : State) (k : Nat), (k = 0) ∧ (s.on F.SLATE_TAMP_CFG_EN0 = true) ∧ (s.on F.SLATE_TAMP_STAT_T0 = false) ∧ (s.on
    F.SLATE_TAMP_STAT_T1 = false) ∧ (s.pwr.main = true) ∧ (s.slate.cells.length = 256)) ∧
    (∃ (s : State) (k : Nat), (k = 1) ∧ (s.on F.SLATE_TAMP_CFG_EN1 = true) ∧ (s.on F.SLATE_TAMP_STAT_T0 = false) ∧ (s.on
    F.SLATE_TAMP_STAT_T1 = false) ∧ (s.pwr.main = false) ∧ (s.slate.cells.length = 256)) ∧
    (∃ (s : State) (req w : Nat), (Admitted s req) ∧ (s.once.contains 0x2004 = false)) :=
  ⟨⟨{ W.live with slate := { W.live.slate with zero := [⟨20, 2, some W.c⟩] } }, 20, W.c, by decide +kernel⟩,
   ⟨{ W.live with sort := { W.live.sort with running := [none, some ⟨3, 0, true, [], 0, false⟩, none, none, none, none, none, none, none, none, none] } }, [], 5, by decide +kernel⟩,
   ⟨{ W.live with pins := { W.live.pins with ready := true } }, [], 5, by decide +kernel⟩,
   ⟨{ W.live.wr F.SLATE_TAMP_CFG_EN0 1 with pwr := { W.live.pwr with main := true } }, 0, by decide +kernel⟩,
   ⟨W.live.wr F.SLATE_TAMP_CFG_EN1 1, 1, by decide +kernel⟩,
   ⟨W.live, 3, 1, by decide +kernel⟩⟩

/-- The hypotheses of SlatesTakeAndLoseKeys are met. -/
theorem witness_SlatesTakeAndLoseKeys_4 :
    (∃ (s : State) (req w : Nat), (Admitted s req) ∧ (s.once.contains 0x2004 = true)) ∧
    (∃ (s : State) (req w : Nat), (Admitted s req) ∧ (s.once.contains 0x2010 = false)) ∧
    (∃ (s : State) (req w : Nat), (Admitted s req) ∧ (s.once.contains 0x2100 = false)) :=
  ⟨⟨{ W.live with once := [0x2004] }, 3, 1, by decide +kernel⟩,
   ⟨W.live, 3, 1, by decide +kernel⟩,
   ⟨W.live, 3, 1, by decide +kernel⟩⟩

/-- The hypotheses of LetterboxStartsStopsAndKeepsItsRings are met. -/
theorem witness_LetterboxStartsStopsAndKeepsItsRings_1 :
    (∃ (s : State) (req w : Nat), (s.on F.HOST_CTL_EN = false) ∧ (bit w 0 = true) ∧ (s.host.stopping = false)) ∧
    (∃ (s : State) (req w : Nat), (s.on F.HOST_CTL_EN = true) ∧ (bit w 0 = false) ∧ (s.host.stopping = false)) ∧
    (∃ (s : State) , (s.host.stopping = true) ∧ (s.ringBusy = false) ∧ (s.on F.HOST_STAT_PENDING_ENABLE = false)) ∧
    (∃ (s : State) , (s.host.stopping = true) ∧ (s.ringBusy = false) ∧ (s.on F.HOST_STAT_PENDING_ENABLE = true)) ∧
    (∃ (s : State) (req w : Nat), (ptrOk (s.rd F.HOST_RING_SIZE_CMD) 12 (s.rd F.HOST_CMD_HEAD_PTR) (bits w 0 13) = true)) ∧
    (∃ (s : State) (req w : Nat), (ptrOk (s.rd F.HOST_RING_SIZE_CMD) 12 (s.rd F.HOST_CMD_HEAD_PTR) (bits w 0 13) = false)) :=
  ⟨⟨W.live, 3, 3, by decide +kernel⟩,
   ⟨W.live.wr F.HOST_CTL_EN 1, 3, 0, by decide +kernel⟩,
   ⟨{ W.live with host := { W.live.host with stopping := true } }, by decide +kernel⟩,
   ⟨{ W.live.wr F.HOST_STAT_PENDING_ENABLE 1 with host := { W.live.host with stopping := true } }, by decide +kernel⟩,
   ⟨W.live, 3, 13, by decide +kernel⟩,
   ⟨W.live.wr F.HOST_RING_SIZE_CMD 6, 3, 65, by decide +kernel⟩⟩

/-- The hypotheses of LetterboxStartsStopsAndKeepsItsRings are met. -/
theorem witness_LetterboxStartsStopsAndKeepsItsRings_2 :
    (∃ (s : State) (req w : Nat), (s.host.held = []) ∧ (bits w 0 13 % 2 ^ 12 < 2 ^ s.rd F.HOST_RING_SIZE_CPL) ∧ (ptrOk (s.rd
    F.HOST_RING_SIZE_CPL) 12 (bits w 0 13) (s.rd F.HOST_CPL_TAIL_PTR) = true)) ∧
    (∃ (s : State) (req w : Nat) (x : Cpl), (s.host.held = [x]) ∧ (s.on F.HOST_STAT_D3HOT = false) ∧ (bits w 0 13 % 2 ^ 12 < 2
    ^ s.rd F.HOST_RING_SIZE_CPL) ∧ (ptrOk (s.rd F.HOST_RING_SIZE_CPL) 12 (bits w 0 13) (s.rd F.HOST_CPL_TAIL_PTR) = true) ∧
    (ptrUsed (s.rd F.HOST_RING_SIZE_CPL) 12 (bits w 0 13) (s.rd F.HOST_CPL_TAIL_PTR) < 2 ^ s.rd F.HOST_RING_SIZE_CPL)) ∧
    (∃ (s : State) (req w : Nat), (bits w 0 13 % 2 ^ 12 < 2 ^ s.rd F.HOST_RING_SIZE_EVT) ∧ (ptrOk (s.rd F.HOST_RING_SIZE_EVT)
    12 (bits w 0 13) (s.rd F.HOST_EVT_TAIL_PTR) = true)) ∧
    (∃ (s : State) , (s.host.unsig ≠ 0) ∧ (s.on F.HOST_STAT_D3HOT = false)) ∧
    (∃ (s : State) (req g w : Nat), (g < 8) ∧ (s.on F.HOST_FR_CTL_TX_EN g = false) ∧ (s.on F.HOST_FR_CTL_RX_EN g = false) ∧ (6
    ≤ bits w 4 4 ∧ bits w 4 4 ≤ 12) ∧ (6 ≤ bits w 8 4 ∧ bits w 8 4 ≤ 12) ∧ (s.host.txRun.length = 8 ∧ s.host.rxRun.length =
    8)) ∧
    (∃ (s : State) (req g w : Nat), (g < 8) ∧ (s.on F.HOST_FR_CTL_TX_EN g = true) ∧ (bits w 4 4 ≠ s.rd F.HOST_FR_CTL_TX_SIZE
    g)) :=
  ⟨⟨W.live.wr F.HOST_CPL_TAIL_PTR 5, 3, 2, by decide +kernel⟩,
   ⟨{ W.live.wr F.HOST_CPL_TAIL_PTR 5 with host := { W.live.host with held := [⟨W.c, 0, false, false, false, 0, 0, 0⟩] } }, 3, 2, ⟨W.c, 0, false, false, false, 0, 0, 0⟩, by decide +kernel⟩,
   ⟨W.live.wr F.HOST_EVT_TAIL_PTR 5, 3, 2, by decide +kernel⟩,
   ⟨{ W.live with host := { W.live.host with unsig := 2 } }, by decide +kernel⟩,
   ⟨W.live, 3, 7, 3 + 6 * 16 + 12 * 256, by decide +kernel⟩,
   ⟨W.live.wr F.HOST_FR_CTL_TX_EN 1 7, 3, 7, 1 + 7 * 16 + 12 * 256, by decide +kernel⟩⟩

/-- The hypotheses of LetterboxStartsStopsAndKeepsItsRings are met. -/
theorem witness_LetterboxStartsStopsAndKeepsItsRings_3 :
    ∃ (s : State) (req g w : Nat) (bufs : List (Nat × Nat)), (g < 8) ∧ (ptrOk (s.rd F.HOST_FR_CTL_RX_SIZE g) 12 (s.rd
    F.HOST_RXR_HEAD_PTR g) (bits w 0 13) = true) ∧ (s.rxWaiting g = none) ∧ (s.host.posted.length = 8) :=
  ⟨W.live, 3, 7, 1, [(4096, 1600)], by decide +kernel⟩

/-- The hypotheses of CommandRecordsAreTakenRunAndWatched are met. -/
theorem witness_CommandRecordsAreTakenRunAndWatched_1 :
    (∃ (s : State) (ws buf : List Nat) (rdFail : Bool) (wrFail : Option Nat) (e : Env), (ws ≠ []) ∧ (s.mayFetch (recDn ws) =
    true) ∧ ((recOp ws) ∉ opcodes) ∧ (s.host.dropped = []) ∧ (s.host.outFail = none) ∧ (s.cplFull = false)) ∧
    (∃ (s : State) (ws buf : List Nat) (rdFail : Bool) (wrFail : Option Nat) (e : Env), (ws ≠ []) ∧ (s.mayFetch (recDn ws) =
    true) ∧ ((recOp ws) ∈ opcodes) ∧ (s.dnThere (recDn ws) = true) ∧ (s.host.inflight = []) ∧ (headerCode ws = Code.ok) ∧
    (s.on F.TOP_STAT_READY = false) ∧ (s.host.mbxGo = false)) ∧
    (∃ (s : State) (ws buf : List Nat) (rdFail : Bool) (wrFail : Option Nat) (e : Env), (ws ≠ []) ∧ (s.mayFetch (recDn ws) =
    true) ∧ (recOp ws = 0x0F00) ∧ (recDn ws = s.rd F.NOR_STAT_DN) ∧ (s.host.inflight = []) ∧ (headerCode ws = Code.ok) ∧ (s.on
    F.TOP_STAT_READY = true) ∧ (s.host.dropped = []) ∧ (s.cplFull = false) ∧ (s.host.mbxGo = false)) ∧
    (∃ (s : State) (ws buf : List Nat) (rdFail : Bool) (wrFail : Option Nat) (e : Env), (s.mayFetch 0 = true)) ∧
    (∃ (s : State) (c : CmdRef) (lost : Bool), (c.src = .ring) ∧ (lost = true ∨ s.on F.HOST_TMO_TMO = true) ∧
    (s.host.inflight.any (fun x => x.ref == c) = true) ∧ (s.host.dropped = []) ∧ (s.host.outFail = none) ∧ (s.host.held = [])
    ∧ (s.on F.HOST_STAT_D3HOT = false) ∧ (s.cplFull = false)) ∧
    (∃ (s : State) (req w : Nat) (e : Env), (s.on F.HOST_MBX_CTL_BUSY = true) ∧ (s.host.mbxGo = false)) :=
  ⟨⟨W.box, [0xFFFF], [], false, none, W.env, by decide +kernel⟩,
   ⟨W.box.wr F.TOP_STAT_READY 0, [0x0F00], [], false, none, W.env, by decide +kernel⟩,
   ⟨W.box, [0x0F00], [], false, none, W.env, by decide +kernel⟩,
   ⟨W.box, [], [], false, none, W.env, by decide +kernel⟩,
   ⟨{ W.box with host := { W.box.host with inflight := [⟨W.c, [], true, none⟩] } }, W.c, false, by decide +kernel⟩,
   ⟨W.live.wr F.HOST_MBX_CTL_BUSY 1, 3, 0, W.env, by decide +kernel⟩⟩

/-- The hypotheses of CommandRecordsAreTakenRunAndWatched are met. -/
theorem witness_CommandRecordsAreTakenRunAndWatched_2 :
    (∃ (s : State) (req w : Nat) (e : Env), (s.on F.HOST_MBX_CTL_BUSY = false) ∧ (1024 ≤ s.flightCnt (recDn [s.rd
    F.HOST_MBX_CMD_WORD]))) ∧
    (∃ (s : State) (req w : Nat) (e : Env), (s.on F.HOST_MBX_CTL_BUSY = false) ∧ (s.flightCnt (recDn [s.rd
    F.HOST_MBX_CMD_WORD]) < 1024) ∧ (recOp [s.rd F.HOST_MBX_CMD_WORD] ∉ opcodes) ∧ (s.host.dropped = []) ∧ (s.host.outFail =
    none)) :=
  ⟨⟨{ W.box with host := { W.box.host with inflight := List.replicate 1024 ⟨W.c, [], true, none⟩ } }, 3, 0, W.env, by decide +kernel⟩,
   ⟨W.box, 3, 0, W.env, by decide +kernel⟩⟩

/-- The hypotheses of RegisterTableAndSnapshotCommands are met. -/
theorem witness_RegisterTableAndSnapshotCommands_1 :
    (∃ (s : State) (c : CmdRef) (p : List Nat) (e : Env), (regCount p = 1) ∧ (bit (p.getD 1 0) 16 = false) ∧ (bits (p.getD 0
    0) 0 24 % 4 = 0) ∧ (isPaired (bits (p.getD 0 0) 0 24) = false) ∧ (e.late = [])) ∧
    (∃ (s : State) (c : CmdRef) (p : List Nat) (out : Option Nat) (e : Env), (regCount p = 0)) ∧
    (∃ (s : State) (c : CmdRef) (p : List Nat) (out : Option Nat) (e : Env), (regCount p ≠ 0) ∧ (bits (p.getD 0 0) 0 24 + 4 *
    regCount p ≤ 2 ^ 24) ∧ (bit (p.getD 1 0) 16 = true) ∧ (regCount p % 2 = 1 ∨ bits (p.getD 0 0) 0 24 % 8 ≠ 0)) ∧
    (∃ (s : State) (c : CmdRef) (p : List Nat) (e : Env) (k : Nat), (k < 4) ∧ (regCount p = 1) ∧ (bit (p.getD 1 0) 16 = false)
    ∧ (bits (p.getD 0 0) 0 24 = 0x10 + 4 * k) ∧ (e.late = []) ∧ (s.on F.TOP_STAT_READY = true) ∧ (s.host.mbxGo = false)) ∧
    (∃ (s : State) (c : CmdRef) (p : List Nat) (e : Env) (k : Nat), (k < 4) ∧ (bits (p.getD 0 0) 0 24 = 0x10 + 4 * k) ∧
    (e.late = []) ∧ (s.on F.TOP_STAT_READY = true) ∧ (s.host.mbxGo = false)) ∧
    (∃ (s : State) (c : CmdRef) (p : List Nat) (buf : Nat), (tblOk p = true) ∧ (c.src = .ring) ∧ (s.host.outFail = none)) :=
  ⟨⟨W.live, W.c, [0x4004, 1], W.env, by decide +kernel⟩,
   ⟨W.live, W.c, [0x4004, 4097], none, W.env, by decide +kernel⟩,
   ⟨W.live, W.c, [0x4004, 0x10002], none, W.env, by decide +kernel⟩,
   ⟨W.live, W.c, [0x1C, 1, 77], W.env, 3, by decide +kernel⟩,
   ⟨W.live.wr F.TOP_SCRATCH_DATA 0xFF 2, W.c, [0x18, 0xF, 5], W.env, 2, by decide +kernel⟩,
   ⟨W.live, W.c, [0x800000, 8], 4096, by decide +kernel⟩⟩

/-- The hypotheses of RegisterTableAndSnapshotCommands are met. -/
theorem witness_RegisterTableAndSnapshotCommands_2 :
    (∃ (s : State) (c : CmdRef) (p : List Nat) (buf : Nat), (tblOk p = false)) ∧
    (∃ (s : State) (c : CmdRef) (p input : List Nat) (e : Env), (tblOk p = true) ∧ (tblBytes p = 4) ∧ (0xF80000 ≤ bits (p.getD
    0 0) 0 24 ∧ bits (p.getD 0 0) 0 24 < 0xF90000) ∧ (e.late = []) ∧ (s.on F.TOP_STAT_READY = true)) ∧
    (∃ (s : State) (c : CmdRef) (p input : List Nat) (e : Env), (tblOk p = false)) ∧
    (∃ (s : State) (c : CmdRef) (buf : Nat), (c.src = .ring) ∧ (s.host.outFail = none)) ∧
    (∃ (s : State) (c : CmdRef) (buf : Nat), (c.src = .ring) ∧ (s.host.outFail = none)) ∧
    (∃ (s : State) (c : CmdRef), (s.on F.OUT_STAT_RELEASED = true)) :=
  ⟨⟨W.live, W.c, [0x7FFFFC, 8], 4096, by decide +kernel⟩,
   ⟨W.live, W.c, [0xF80000, 4], [1, 2, 3, 4], W.env, by decide +kernel⟩,
   ⟨W.live, W.c, [0x7FFFFC, 8], [], W.env, by decide +kernel⟩,
   ⟨W.live, W.c, 4096, by decide +kernel⟩,
   ⟨W.live, W.c, 4096, by decide +kernel⟩,
   ⟨W.live.wr F.OUT_STAT_RELEASED 1, W.c, by decide +kernel⟩⟩

/-- The hypotheses of RegisterTableAndSnapshotCommands are met. -/
theorem witness_RegisterTableAndSnapshotCommands_3 :
    (∃ (s : State) (c : CmdRef), (s.on F.OUT_STAT_RELEASED = false) ∧ (s.on F.TOP_STAT_READY = true) ∧ (s.pwr.release = [])) ∧
    (∃ (s : State) (c : CmdRef), (s.on F.OUT_STAT_RELEASED = false) ∧ (s.on F.TOP_STAT_READY = false)) :=
  ⟨⟨W.live, W.c, by decide +kernel⟩,
   ⟨State.reset, W.c, by decide +kernel⟩⟩

/-- The hypotheses of FramesLeaveByTheRingsAndTheLinkComesAndGoes are met. -/
theorem witness_FramesLeaveByTheRingsAndTheLinkComesAndGoes_1 :
    (∃ (s : State) (g w8 w12 id : Nat) (frame : List Nat) (place : TxPlace), (g < 8) ∧ (s.host.txRun.getD g false = true) ∧
    (s.on F.HOST_STAT_D3HOT = false) ∧ (ptrUsed (s.rd F.HOST_FR_CTL_TX_SIZE g) 12 (s.rd F.HOST_TXR_HEAD_PTR g) (s.rd
    F.HOST_TXR_TAIL_PTR g) ≠ 0)) ∧
    (∃ (s : State) (g w8 w12 id : Nat) (frame : List Nat) (place : TxPlace), (g < 8) ∧ (s.host.txRun.getD g false = true) ∧
    (s.on F.HOST_STAT_D3HOT = false) ∧ (ptrUsed (s.rd F.HOST_FR_CTL_TX_SIZE g) 12 (s.rd F.HOST_TXR_HEAD_PTR g) (s.rd
    F.HOST_TXR_TAIL_PTR g) ≠ 0) ∧ (bits w8 0 14 < 60 ∨ 9596 < bits w8 0 14 ∨ bits w8 18 2 = 3)) ∧
    (∃ (s : State) (g w8 w12 id : Nat) (frame : List Nat) (place : TxPlace), (g < 8) ∧ (s.host.txRun.getD g false = true) ∧
    (s.on F.HOST_STAT_D3HOT = false) ∧ (ptrUsed (s.rd F.HOST_FR_CTL_TX_SIZE g) 12 (s.rd F.HOST_TXR_HEAD_PTR g) (s.rd
    F.HOST_TXR_TAIL_PTR g) ≠ 0) ∧ (s.portSends (4 * g + bits w8 14 2) = true) ∧ (s.on F.MAC_CTL_TAG_INS (4 * g + bits w8 14 2)
    = false) ∧ (bits w8 16 4 = 0 ∧ bits w8 20 2 = 0) ∧ (60 ≤ bits w8 0 14 ∧ bits w8 0 14 ≤ 9596 ∧ frame.length = bits w8 0 14
    ∧ frame.length + 4 ≤ s.rd F.MAC_CTL_MAXF (4 * g + bits w8 14 2)) ∧ (s.unpaused (4 * g + bits w8 14 2) (s.framePrio (4 * g
    + bits w8 14 2) (frame.map (fun b => b % 256))) = true)) ∧
    (∃ (s : State) (speed width : Nat), (1 ≤ speed ∧ speed ≤ 4) ∧ (width = 1 ∨ width = 2 ∨ width = 4)) ∧
    (∃ (s : State) , (s.host.held = []) ∧ (s.host.heldEvents = []) ∧ (∀ g, g < 8 → s.rxWaiting g = none)) ∧
    (∃ (s : State) (x : Cpl), (s.host.held = [x]) ∧ (s.host.heldEvents = []) ∧ (∀ g, g < 8 → s.rxWaiting g = none) ∧
    (s.cplFull = false)) :=
  ⟨⟨{ W.live.wr F.HOST_TXR_TAIL_PTR 1 7 with host := { W.live.host with txRun := List.replicate 8 true } }, 7, 0, 0, 0, [], ⟨0, 0, 0, 0⟩, by decide +kernel⟩,
   ⟨{ W.live.wr F.HOST_TXR_TAIL_PTR 1 7 with host := { W.live.host with txRun := List.replicate 8 true } }, 7, 59, 0, 0, [], ⟨0, 0, 0, 0⟩, by decide +kernel⟩,
   ⟨{ W.up8.wr F.HOST_TXR_TAIL_PTR 1 2 with host := { W.live.host with txRun := List.replicate 8 true } }, 2, 60, 0, 0, List.replicate 60 2, ⟨0, 0, 0, 0⟩, by decide +kernel⟩,
   ⟨W.live, 4, 4, by decide +kernel⟩,
   ⟨W.live.wr F.HOST_STAT_D3HOT 1, by decide +kernel⟩,
   ⟨{ W.live.wr F.HOST_STAT_D3HOT 1 with host := { W.live.host with held := [⟨W.c, 0, false, false, false, 0, 0, 0⟩] } }, ⟨W.c, 0, false, false, false, 0, 0, 0⟩, by decide +kernel⟩⟩

/-- The hypotheses of FramesLeaveByTheRingsAndTheLinkComesAndGoes are met. -/
theorem witness_FramesLeaveByTheRingsAndTheLinkComesAndGoes_2 :
    (∃ (s : State) (write : Bool) (addr dw : Nat) (data : List Nat) (e : Env), (16 < dw)) ∧
    (∃ (s : State) (addr : Nat) (data : List Nat) (e : Env), (isPaired (addr % 2 ^ 24 / 4 * 4) = false) ∧ (e.late = [])) ∧
    (∃ (s : State) (k v : Nat) (e : Env), (k < 4) ∧ (e.late = []) ∧ (s.on F.TOP_STAT_READY = true) ∧ (s.host.mbxGo = false)) ∧
    (∃ (s : State) (addr : Nat) (e : Env), (addr % 4 = 0) ∧ (isPaired (addr % 2 ^ 24) = false) ∧ (e.late = [])) ∧
    (∃ (s : State) (addr n : Nat) (e : Env), (n ≠ 0) ∧ (addr % 4 ≠ 0)) ∧
    (∃ (s : State) (k : Nat) (data : List Nat) (e : Env), (k < 4) ∧ (data.length = 4) ∧ (e.late = []) ∧ (s.on F.TOP_STAT_READY
    = true) ∧ (s.host.mbxGo = false)) :=
  ⟨⟨W.live, false, 0, 17, [], W.env, by decide +kernel⟩,
   ⟨W.live, 0x4004, [], W.env, by decide +kernel⟩,
   ⟨W.live, 3, 77, W.env, by decide +kernel⟩,
   ⟨W.live, 0x4004, W.env, by decide +kernel⟩,
   ⟨W.live, 0x4005, 2, W.env, by decide +kernel⟩,
   ⟨W.live, 3, [1, 2, 3, 4], W.env, by decide +kernel⟩⟩

/-- The hypotheses of FramesLeaveByTheRingsAndTheLinkComesAndGoes are met. -/
theorem witness_FramesLeaveByTheRingsAndTheLinkComesAndGoes_3 :
    ∃ (s : State) (addr : Nat) (data : List Nat) (e : Env), (1 ≤ data.length ∧ data.length ≤ 3) ∧ (addr % 4 = 0) ∧
    (s.host.mbxGo = false) :=
  ⟨W.live, 16, [1, 2, 3], W.env, by decide +kernel⟩

/-- The hypotheses of NoryrPortsTrainActivateAndFall are met. -/
theorem witness_NoryrPortsTrainActivateAndFall_1 :
    (∃ (s : State) (req q w : Nat), (q < 6) ∧ (Admitted s req) ∧ (s.norState q = NorS.disabled) ∧ (s.on F.NOR_PORT_CTL_EN q =
    false) ∧ (s.on F.NOR_CTL_EN = true) ∧ (s.norDeep q = false)) ∧
    (∃ (s : State) (req q w : Nat), (q < 6) ∧ (Admitted s req) ∧ (s.on F.NOR_PORT_CTL_EN q = true) ∧ (s.norState q ≠
    NorS.disabled) ∧ (s.norState q ≠ NorS.stopping)) ∧
    (∃ (s : State) (q : Nat), (q < 6) ∧ (s.norState q = NorS.stopping) ∧ (s.on F.NOR_PORT_STAT_PENDING_ENABLE q = false) ∧
    (s.on F.NOR_STAT_PENDING_ENABLE = false)) ∧
    (∃ (s : State) (q : Nat), (q < 6) ∧ (s.norState q = NorS.detect) ∧ (s.norDeep q = false)) ∧
    (∃ (s : State) (q : Nat), (q < 6) ∧ (s.norState q = NorS.train)) ∧
    (∃ (s : State) (q : Nat), (q < 6) ∧ (s.norState q = NorS.train)) :=
  ⟨⟨W.live.wr F.NOR_CTL_EN 1, 3, 2, 6, by decide +kernel⟩,
   ⟨(W.nor 1 2).wr F.NOR_PORT_CTL_EN 1 2, 3, 2, 6, by decide +kernel⟩,
   ⟨W.nor 7 2, 2, by decide +kernel⟩,
   ⟨W.nor 1 2, 2, by decide +kernel⟩,
   ⟨W.nor 2 2, 2, by decide +kernel⟩,
   ⟨W.nor 2 2, 2, by decide +kernel⟩⟩

/-- The hypotheses of NoryrPortsTrainActivateAndFall are met. -/
theorem witness_NoryrPortsTrainActivateAndFall_2 :
    (∃ (s : State) (q a0 a1 : Nat), (q < 6) ∧ (s.norState q = NorS.cap) ∧ (s.norCompatible q (bits a0 4 2) = false)) ∧
    (∃ (s : State) (q a0 a1 : Nat), (q < 6) ∧ (s.norState q = NorS.cap) ∧ (s.norCompatible q (bits a0 4 2) = true) ∧ (min
    (bits a0 0 2) (s.rd F.NOR_PORT_CTL_MAX_RATE q) ≠ 0) ∧ (s.nor.port.length = 6)) ∧
    (∃ (s : State) (q : Nat), (q < 6) ∧ (s.norState q = NorS.speed)) ∧
    (∃ (s : State) (q : Nat), (q < 6) ∧ (s.norState q = NorS.speed) ∧ (2 ≤ s.rd F.NOR_PORT_STAT_RATE q ∧ s.rd
    F.NOR_PORT_STAT_RATE q ≤ 3)) ∧
    (∃ (s : State) (q : Nat), (q < 6) ∧ (s.norState q = NorS.speed) ∧ (s.rd F.NOR_PORT_STAT_RATE q = 1)) ∧
    (∃ (s : State) (q : Nat), (q < 6) ∧ (s.norUp q = true)) :=
  ⟨⟨W.nor 3 2, 2, 16, 0, by decide +kernel⟩,
   ⟨W.nor 3 2, 2, 15, 0, by decide +kernel⟩,
   ⟨W.nor 4 2, 2, by decide +kernel⟩,
   ⟨(W.nor 4 2).wr F.NOR_PORT_STAT_RATE 3 2, 2, by decide +kernel⟩,
   ⟨(W.nor 4 2).wr F.NOR_PORT_STAT_RATE 1 2, 2, by decide +kernel⟩,
   ⟨W.nor 5 2, 2, by decide +kernel⟩⟩

/-- The hypotheses of NoryrPortsTrainActivateAndFall are met. -/
theorem witness_NoryrPortsTrainActivateAndFall_3 :
    (∃ (s : State) (q : Nat) (words : List Nat) (fail : Option Nat) (e : Env), (q < 6) ∧ (s.norState q = NorS.active) ∧
    (frameGood (words.map (fun w => w % 2 ^ 32)) = false)) ∧
    (∃ (s : State) (words : List Nat) (fail : Option Nat) (e : Env) (f : NorFrame), (s.norState 4 = NorS.active) ∧ (frameGood
    (words.map (fun w => w % 2 ^ 32)) = true) ∧ (frameOf (words.map (fun w => w % 2 ^ 32)) = f) ∧ (f.ftype = NorT.bufIn) ∧
    (f.dst = s.rd F.NOR_STAT_DN) ∧ (s.on F.NOR_STAT_NUMBERED = true) ∧ (bits (words.getD 1 0 % 2 ^ 32) 20 12 = (s.norPort
    4).expect) ∧ (s.nor.port.length = 6) ∧ (s.host.mbxGo = false)) ∧
    (∃ (s : State) (q a0 a1 : Nat) (f : NorFrame), (q < 6) ∧ (s.norUp q = true) ∧ ((s.norPort q).replay = [(ackSeq a0 a1, f)])
    ∧ ((s.norPort q).waiting = [])) ∧
    (∃ (s : State) (q a0 a1 : Nat), (q < 6) ∧ (s.norUp q = true) ∧ ((s.norPort q).replay ≠ []) ∧ ((s.norPort q).replay.any
    (fun x => x.1 == ackSeq a0 a1) = false) ∧ ((s.norPort q).noProg < 4) ∧ (s.nor.port.length = 6)) ∧
    (∃ (s : State) (q : Nat), (q < 6) ∧ (s.norUp q = true) ∧ ((s.norPort q).replay ≠ []) ∧ ((s.norPort q).noProg < 4)) ∧
    (∃ (s : State) (q : Nat), (q < 6) ∧ (s.norUp q = true) ∧ ((s.norPort q).replay ≠ []) ∧ (4 ≤ (s.norPort q).noProg)) :=
  ⟨⟨W.nor 5 2, 2, [0, 0, 0], none, W.env, by decide +kernel⟩,
   ⟨((W.nor 5 4).wr F.NOR_STAT_NUMBERED 1).wr F.NOR_STAT_DN 5, (NorFrame.mk 3 5 0 9 [0, 7]).words 0, none, W.env, ⟨3, 5, 0, 9,
   [0, 7]⟩, by decide +kernel⟩,
   ⟨(W.nor 5 2).setNorPort 2 { seq := 1, replay := [(0, ⟨3, 5, 0, 9, [0, 7]⟩)] }, 2, 0, 0, ⟨3, 5, 0, 9, [0, 7]⟩,
   by decide +kernel⟩,
   ⟨(W.nor 5 2).setNorPort 2 { seq := 1, replay := [(0, ⟨3, 5, 0, 9, [0, 7]⟩)] }, 2, 255, 240, by decide +kernel⟩,
   ⟨(W.nor 5 2).setNorPort 2 { seq := 1, replay := [(0, ⟨3, 5, 0, 9, [0, 7]⟩)] }, 2, by decide +kernel⟩,
   ⟨(W.nor 5 2).setNorPort 2 { seq := 1, noProg := 4, replay := [(0, ⟨3, 5, 0, 9, [0, 7]⟩)] }, 2, by decide +kernel⟩⟩

/-- The hypotheses of NoryrPortsTrainActivateAndFall are met. -/
theorem witness_NoryrPortsTrainActivateAndFall_4 :
    ∃ (s : State) (q a0 a1 : Nat), (q < 6) ∧ (s.norUp q = true) ∧ ((s.norPort q).waiting = []) :=
  ⟨W.nor 5 2, 2, 2, 0, by decide +kernel⟩

/-- The hypotheses of NoryrNumbersSleepAndTime are met. -/
theorem witness_NoryrNumbersSleepAndTime_1 :
    (∃ (s : State) (w0 w1 : Nat), (s.norUp portNU = true) ∧ (s.norRoot = false) ∧ (s.on F.NOR_STAT_NUMBERED = false) ∧ (bit w0
    8 = false) ∧ (bits w0 6 2 < 3)) ∧
    (∃ (s : State) (w0 w1 : Nat), (s.norUp portNU = true) ∧ (s.norRoot = false) ∧ (s.on F.NOR_STAT_NUMBERED = false) ∧ (bit w0
    8 = true)) ∧
    (∃ (s : State) (j w0 w1 : Nat), (j < 4) ∧ (s.norUp j = true) ∧ (s.norRoot = true) ∧ (bits w0 0 4 = 2) ∧ (bits w0 4 3 < 4)
    ∧ (bits w0 14 2 = 1)) ∧
    (∃ (s : State) , (s.norRoot = true)) ∧
    (∃ (s : State) (q : Nat), (q < 6) ∧ (s.norState q = NorS.active) ∧ ((s.norPort q).n1 = true) ∧ (s.on F.NOR_PORT_STAT_TX_N1
    q = false) ∧ ((s.norPort q).waiting = [])) ∧
    (∃ (s : State) (q : Nat), (q < 6) ∧ (s.norState q = NorS.active) ∧ (s.on F.NOR_PORT_STAT_TX_N1 q = true) ∧ ((s.norPort
    q).waiting = [])) :=
  ⟨⟨W.nor 5 4, 64 + 2, 1, by decide +kernel⟩,
   ⟨W.nor 5 4, 256 + 192, 1, by decide +kernel⟩,
   ⟨(W.nor 5 2).wr F.NOR_CTL_ROOT 1, 2, 2 + 16 + 3 * 256 + 2 ^ 14, 2, by decide +kernel⟩,
   ⟨W.live.wr F.NOR_CTL_ROOT 1, by decide +kernel⟩,
   ⟨(W.nor 5 2).setNorPort 2 { n1 := true }, 2, by decide +kernel⟩,
   ⟨(W.nor 5 2).wr F.NOR_PORT_STAT_TX_N1 1 2, 2, by decide +kernel⟩⟩

/-- The hypotheses of NoryrNumbersSleepAndTime are met. -/
theorem witness_NoryrNumbersSleepAndTime_2 :
    (∃ (s : State) (q : Nat), (q < 6) ∧ (s.norState q = NorS.active)) ∧
    (∃ (s : State) (q : Nat), (q < 6) ∧ (s.norState q = NorS.active) ∧ ((s.norPort q).n1 = true)) ∧
    (∃ (s : State) (q : Nat), (q < 6) ∧ (s.norState q = NorS.active) ∧ (s.on F.NOR_PORT_STAT_N2_AGREED q = true) ∧ (s.norUpper
    q = true) ∧ (s.norIdle q = true) ∧ (s.pair.clash = false)) ∧
    (∃ (s : State) (q : Nat), (q < 6) ∧ (s.norState q = NorS.active) ∧ (s.on F.NOR_PORT_STAT_N2_AGREED q = true) ∧ (s.norIdle
    q = true)) ∧
    (∃ (s : State) (q : Nat), (q < 6) ∧ (s.norState q = NorS.active) ∧ (s.norIdle q = false)) ∧
    (∃ (s : State) (q : Nat), (q < 6) ∧ (s.norState q = NorS.active) ∧ ((s.norPort q).n2req = true) ∧ (s.nor.port.length = 6)) :=
  ⟨⟨(W.nor 5 2).wr F.NOR_PORT_STAT_RX_N1 1 2, 2, by decide +kernel⟩,
   ⟨(W.nor 5 2).setNorPort 2 { n1 := true }, 2, by decide +kernel⟩,
   ⟨(W.nor 5 2).wr F.NOR_PORT_STAT_N2_AGREED 1 2, 2, by decide +kernel⟩,
   ⟨(W.nor 5 2).wr F.NOR_PORT_STAT_N2_AGREED 1 2, 2, by decide +kernel⟩,
   ⟨(W.nor 5 2).setNorPort 2 { seq := 1, replay := [(0, ⟨3, 5, 0, 9, [0, 7]⟩)] }, 2, by decide +kernel⟩,
   ⟨(W.nor 5 2).setNorPort 2 { n2req := true }, 2, by decide +kernel⟩⟩

/-- The hypotheses of NoryrNumbersSleepAndTime are met. -/
theorem witness_NoryrNumbersSleepAndTime_3 :
    (∃ (s : State) (q : Nat), (q < 6) ∧ (s.norState q = NorS.active) ∧ ((s.norPort q).n2req = true) ∧ ((s.norPort q).waiting =
    [])) ∧
    (∃ (s : State) (q : Nat), (q < 6) ∧ (s.norState q = NorS.n2) ∧ (s.on F.NOR_PORT_STAT_TX_N1 q = false) ∧ ((s.norPort
    q).waiting = [])) ∧
    (∃ (s : State) (q t1 : Nat), (q < 4) ∧ (s.norState q = NorS.active) ∧ (s.on F.NOR_PORT_STAT_TX_N1 q = false) ∧ ((s.norPort
    q).waiting = [])) ∧
    (∃ (s : State) (xch t2 t3 : Nat), (s.norState portNU = NorS.active) ∧ (s.on F.NOR_PORT_STAT_TX_N1 portNU = false) ∧
    ((s.norPort portNU).waiting = [])) ∧
    (∃ (s : State) (q xch t4 t1 : Nat), (q < 4) ∧ (s.norState q = NorS.active) ∧ (s.on F.NOR_PORT_STAT_TX_N1 q = false) ∧
    ((s.norPort q).ask = some (xch % 256, t1)) ∧ ((s.norPort q).waiting = []) ∧ ((s.norPort q).replay = []) ∧ (1 ≤ (s.norPort
    q).credit 3) ∧ (s.nor.port.length = 6)) ∧
    (∃ (s : State) (q : Nat) (ws : List Nat) (t2 t3 : Nat), (q = portNU ∨ q = portNP) ∧ (s.norUp q = true) ∧ (s.norUpper q =
    false) ∧ ((s.norPort q).ans = some (ws.getD 0 0 % 2 ^ 32 % 256, t2, t3)) ∧ ((s.norPort q).kept = []) ∧ (s.inF
    F.NOR_CTL_TS_AVG ≠ 0) ∧ (s.nor.port.length = 6)) :=
  ⟨⟨(W.nor 5 2).setNorPort 2 { n2req := true }, 2, by decide +kernel⟩,
   ⟨W.nor 6 2, 2, by decide +kernel⟩,
   ⟨W.nor 5 2, 2, 1000, by decide +kernel⟩,
   ⟨W.nor 5 4, 0, 1000, 2000, by decide +kernel⟩,
   ⟨(W.nor 5 2).setNorPort 2 { ask := some (0, 1000), grant := [0, 0, 0, 32] }, 2, 0, 4000, 1000, by decide +kernel⟩,
   ⟨(W.nor 5 4).setNorPort 4 { ans := some (0, 1000, 2000) }, 4, [256, 900, 0, 2100, 0, 0, 0], 1000, 2000, by decide +kernel⟩⟩

/-- The hypotheses of NoryrNumbersSleepAndTime are met. -/
theorem witness_NoryrNumbersSleepAndTime_4 :
    ∃ (s : State) , (s.norRoot = false) ∧ (s.on F.NOR_STAT_TREE_VALID = true) ∧ (s.nor.port.length = 6) :=
  ⟨W.live.wr F.NOR_STAT_TREE_VALID 1, by decide +kernel⟩

/-- The hypotheses of MembersTakeAndReleaseTheToken are met. -/
theorem witness_MembersTakeAndReleaseTheToken_1 :
    (∃ (s : State) (req w : Nat), (Admitted s req) ∧ (s.on F.PAIR_CTL_EN = false) ∧ (s.pairState = PairS.disabled) ∧ (bits w
    16 16 ≠ 0) ∧ (s.slateUse (bits w 8 8) Usage.pair true = Code.ok) ∧ (bits w 8 8 < 16 ∨ s.on F.SLATE_ATTR_NO_EXPORT (bits w
    8 8) = true) ∧ (s.on F.NOR_PORT_CTL_EN portNP = true)) ∧
    (∃ (s : State) (req w : Nat), (Admitted s req) ∧ (s.on F.PAIR_CTL_EN = false) ∧ (s.pairState = PairS.disabled) ∧ (s.on
    F.NOR_PORT_CTL_EN portNP = false)) ∧
    (∃ (s : State) (req w : Nat), (Admitted s req) ∧ (s.on F.PAIR_CTL_EN = true) ∧ (s.pairState ≠ PairS.stopping) ∧ (s.holds =
    false) ∧ (s.pair.ho = none) ∧ (s.pair.force = [])) ∧
    (∃ (s : State) , (s.pairState = PairS.stopping) ∧ (s.on F.PAIR_STAT_PENDING_ENABLE = false)) ∧
    (∃ (s : State) , (s.holds = true) ∧ (s.rd F.PAIR_LEASE_OWN_LEFT = 0)) ∧
    (∃ (s : State) , (s.pairState = PairS.sync ∨ s.pairState = PairS.standby) ∧ (s.rd F.PAIR_LEASE_PARTNER_LEFT = 0) ∧ (s.on
    F.PAIR_STAT_TOKEN_IN = false) ∧ (s.on F.TOP_STAT_SAFE = false)) :=
  ⟨⟨(W.keyed.wr F.PAIR_STAT_STATE 0).wr F.NOR_PORT_CTL_EN 1 5, 3, 120 * 2 ^ 16, by decide +kernel⟩,
   ⟨W.live, 3, 120 * 2 ^ 16, by decide +kernel⟩,
   ⟨(W.live.wr F.PAIR_CTL_EN 1).wr F.PAIR_STAT_STATE 1, 3, 120 * 2 ^ 16, by decide +kernel⟩,
   ⟨W.live.wr F.PAIR_STAT_STATE 6, by decide +kernel⟩,
   ⟨(W.live.wr F.PAIR_STAT_HOLDER 1).wr F.PAIR_STAT_STATE 4, by decide +kernel⟩,
   ⟨W.live.wr F.PAIR_STAT_STATE 3, by decide +kernel⟩⟩

/-- The hypotheses of MembersTakeAndReleaseTheToken are met. -/
theorem witness_MembersTakeAndReleaseTheToken_2 :
    (∃ (s : State) , (s.pairState = PairS.test) ∧ (s.sort.tests ≠ []) ∧ (s.rd F.PAIR_LEASE_PARTNER_LEFT = 0) ∧ (s.on
    F.PAIR_STAT_TOKEN_IN = false) ∧ (s.on F.TOP_STAT_SAFE = false)) ∧
    (∃ (s : State) , (s.pairState = PairS.search) ∧ (18 ≤ s.pair.join) ∧ (s.on F.PAIR_STAT_TOKEN_IN = false) ∧ (s.on
    F.TOP_STAT_SAFE = false)) ∧
    (∃ (s : State) , (s.pair.double = some true) ∧ (s.holds = true) ∧ (diff16 (s.rd F.PAIR_EPOCH_EPOCH) (s.rd
    F.PAIR_EPOCH_PARTNER_EPOCH) < 0)) ∧
    (∃ (s : State) , (s.pair.double = some true) ∧ (0 < diff16 (s.rd F.PAIR_EPOCH_EPOCH) (s.rd F.PAIR_EPOCH_PARTNER_EPOCH))) ∧
    (∃ (s : State) (seq cause : Nat) (mine : Bool), (s.pair.ho = some ⟨seq, mine, true, cause, none⟩) ∧ (seq = s.holderBeat) ∧
    (s.holds = true)) ∧
    (∃ (s : State) (seq cause : Nat) (c : CmdRef), (s.pair.ho = some ⟨seq, true, true, cause, some c⟩) ∧ (seq = s.holderBeat)
    ∧ (s.holds = false) ∧ (s.pairState = PairS.standby) ∧ (s.on F.TOP_STAT_SAFE = false)) :=
  ⟨⟨{ W.live.wr F.PAIR_STAT_STATE 5 with sort := { W.live.sort with tests := [⟨1, W.c, 0, false⟩] } }, by decide +kernel⟩,
   ⟨{ W.live.wr F.PAIR_STAT_STATE 1 with pair := { W.live.pair with join := 18 } }, by decide +kernel⟩,
   ⟨{ (W.live.wr F.PAIR_STAT_HOLDER 1).wr F.PAIR_EPOCH_PARTNER_EPOCH 3 with pair := { W.live.pair with double := some true } }, by decide +kernel⟩,
   ⟨{ (W.live.wr F.PAIR_STAT_HOLDER 1).wr F.PAIR_EPOCH_EPOCH 3 with pair := { W.live.pair with double := some true } }, by decide +kernel⟩,
   ⟨{ W.live.wr F.PAIR_STAT_HOLDER 1 with pair := { W.live.pair with ho := some ⟨0, false, true, 2, none⟩ } }, 0, 2, false, by decide +kernel⟩,
   ⟨{ W.live.wr F.PAIR_STAT_STATE 3 with pair := { W.live.pair with ho := some ⟨0, true, true, 2, some W.c⟩ } }, 0, 2, W.c, by decide +kernel⟩⟩

/-- The hypotheses of MembersTakeAndReleaseTheToken are met. -/
theorem witness_MembersTakeAndReleaseTheToken_3 :
    (∃ (s : State) (seq cause : Nat) (c : CmdRef), (s.pair.ho = some ⟨seq, true, false, cause, some c⟩) ∧ (seq =
    s.holderBeat)) ∧
    (∃ (s : State) , (s.pairState = PairS.standby) ∧ (s.inF F.PAIR_CTL_REVERT = 1) ∧ (s.rd F.PAIR_CTL_MEMBER = s.rd
    F.PAIR_CTL_PREF_MEMBER) ∧ (s.rd F.PAIR_STAT_WTR_LEFT = 0) ∧ (s.on F.PAIR_STAT_PARTNER_HOLDER = true) ∧ (s.pair.ho = none)) ∧
    (∃ (s : State) (c : CmdRef) (w0 : Nat), (s.on F.PAIR_CTL_EN = false ∨ s.holds = true)) ∧
    (∃ (s : State) (c : CmdRef) (w0 : Nat), (s.on F.PAIR_CTL_EN = true) ∧ (s.holds = false) ∧ (bit w0 0 = false) ∧
    (s.pairState = PairS.standby) ∧ (s.pair.ho = none)) ∧
    (∃ (s : State) (c : CmdRef) (w0 : Nat), (s.on F.PAIR_CTL_EN = true) ∧ (s.holds = false) ∧ (bit w0 0 = true) ∧ (s.norUp
    portNP = true ∨ s.pins.tokenIn = false)) ∧
    (∃ (s : State) (c : CmdRef), (s.holds = false)) :=
  ⟨⟨{ W.live with pair := { W.live.pair with ho := some ⟨0, true, false, 2, some W.c⟩ } }, 0, 2, W.c, by decide +kernel⟩,
   ⟨(W.live.wr F.PAIR_STAT_STATE 3).wr F.PAIR_STAT_PARTNER_HOLDER 1, by decide +kernel⟩,
   ⟨W.live, W.c, 0, by decide +kernel⟩,
   ⟨(W.live.wr F.PAIR_CTL_EN 1).wr F.PAIR_STAT_STATE 3, W.c, 0, by decide +kernel⟩,
   ⟨W.live.wr F.PAIR_CTL_EN 1, W.c, 1, by decide +kernel⟩,
   ⟨W.live, W.c, by decide +kernel⟩⟩

/-- The hypotheses of MembersTakeAndReleaseTheToken are met. -/
theorem witness_MembersTakeAndReleaseTheToken_4 :
    (∃ (s : State) (c : CmdRef), (s.holds = true) ∧ (s.on F.PAIR_STAT_PARTNER_READY = false)) ∧
    (∃ (s : State) (c : CmdRef), (s.holds = true) ∧ (s.on F.PAIR_STAT_PARTNER_READY = true) ∧ (s.pair.ho = none)) ∧
    (∃ (s : State) (c : CmdRef) (w0 : Nat), (bit w0 0 = true) ∧ (s.pairState = PairS.standby)) ∧
    (∃ (s : State) (c : CmdRef) (w0 : Nat), (bit w0 0 = false) ∧ (s.pairState = PairS.test)) ∧
    (∃ (s : State) (c : CmdRef) (w0 : Nat), (s.pairState ≠ PairS.standby) ∧ (s.pairState ≠ PairS.test)) :=
  ⟨⟨W.live.wr F.PAIR_STAT_HOLDER 1, W.c, by decide +kernel⟩,
   ⟨(W.live.wr F.PAIR_STAT_HOLDER 1).wr F.PAIR_STAT_PARTNER_READY 1, W.c, by decide +kernel⟩,
   ⟨W.live.wr F.PAIR_STAT_STATE 3, W.c, 1, by decide +kernel⟩,
   ⟨W.live.wr F.PAIR_STAT_STATE 5, W.c, 0, by decide +kernel⟩,
   ⟨W.live, W.c, 0, by decide +kernel⟩⟩

/-- The hypotheses of StandbysFollowTheMirrorAndBecomeReady are met. -/
theorem witness_StandbysFollowTheMirrorAndBecomeReady :
    (∃ (s : State) (hd body tag : List Nat) (b c0 c1 : Nat), (s.norUp portNP = true) ∧ (s.pairState ≠ PairS.disabled) ∧
    (s.pairState ≠ PairS.stopping) ∧ (s.pairKeyed = true) ∧ (hd.length = 2) ∧ (body.length = 10) ∧ (tag.length = 4) ∧ (∀ w ∈
    hd ++ [b, c0, c1] ++ body ++ tag, w < 2 ^ 32) ∧ (bits b 28 4 = 0) ∧ (s.pair.rxIv = none) ∧ (s.pair.expB = none) ∧
    (s.mirrorTag (body.getD 3 0) hd ([b, c0, c1] ++ body) = wordBytes tag) ∧ (s.holds = false) ∧ (bits (body.getD 0 0) 25 1 ≠
    s.rd F.PAIR_CTL_MEMBER)) ∧
    (∃ (s : State) (ws : List Nat), (s.norUp portNP = true) ∧ (s.pairState ≠ PairS.disabled) ∧ (s.pairState ≠ PairS.stopping)
    ∧ (s.pairKeyed = true) ∧ (bits (ws.getD 2 0 % 2 ^ 32) 28 4 ≠ 0) ∧ (s.pair.rxIv = none) ∧ (s.pair.said.contains 171 =
    false)) ∧
    (∃ (s : State) (edge : Nat) (p : List Nat), (s.holds = false) ∧ (s.pair.entries = [.cmd 0x0301 edge p]) ∧ (diff20 edge
    s.pair.holdB ≤ 0)) ∧
    (∃ (s : State) (edge op : Nat) (p : List Nat), (s.pair.entries = [.cmd op edge p]) ∧ (0 < diff20 edge s.pair.holdB)) ∧
    (∃ (s : State) , (s.pairFit = true) ∧ (s.on F.PAIR_CTL_SYNC_ALIGN = true) ∧ (s.pair.align = 0) ∧ (∀ o, o < 24 →
    s.alignable o = false)) ∧
    (∃ (s : State) , (s.pairFit = true) ∧ (s.on F.PAIR_CTL_SYNC_ALIGN = true → s.alignDone = true)) :=
  ⟨⟨W.keyed, [1, 2], (2 ^ 27 + 2 ^ 25) :: List.replicate 9 0, [2562738626, 3196653790, 2688066485, 2344633293], 0, 1, 0,
   by decide +kernel⟩,
   ⟨W.keyed, [0, 0, 2 ^ 28, 0, 0, 0, 0, 0, 0], by decide +kernel⟩,
   ⟨{ W.live with pair := { W.live.pair with entries := [.cmd 0x0301 0 [0, 5, 0]] } }, 0, [0, 5, 0], by decide +kernel⟩,
   ⟨{ W.live with pair := { W.live.pair with entries := [.cmd 0x0301 5 [0, 5, 0]] } }, 5, 0x0301, [0, 5, 0], by decide +kernel⟩,
   ⟨{ ((W.live.wr F.PAIR_STAT_STATE 2).wr F.PAIR_STAT_CFG_MATCH 1) with pair := { W.live.pair with good := 16 } }, by decide +kernel⟩,
   ⟨{ ((W.live.wr F.PAIR_STAT_STATE 2).wr F.PAIR_STAT_CFG_MATCH 1) with pair := { W.live.pair with good := 16, align := 2 } }, by decide +kernel⟩⟩

/-- The hypotheses of RegisterAccessesAreJudgedAndApplied are met. -/
theorem witness_RegisterAccessesAreJudgedAndApplied_1 :
    (∃ (s : State) (req k data : Nat) (e : Env), (k < 4) ∧ (Admitted s req) ∧ (e.late = []) ∧ (s.host.mbxGo = false)) ∧
    (∃ (s : State) (req k data : Nat) (e : Env), (k < 32) ∧ (Admitted s req) ∧ (s.on F.RIDGE_CMP_CTL_EN k = false) ∧ (e.late =
    []) ∧ (s.host.mbxGo = false)) ∧
    (∃ (s : State) (req addr size data : Nat) (e : Env), (size < 2) ∧ (addr % 2 ^ size = 0) ∧ (s.on F.TOP_ACC_ERR_CODE =
    false) ∧ (s.host.mbxGo = false)) ∧
    (∃ (s : State) (req addr data : Nat) (e : Env), (addr % 4 ≠ 0) ∧ (s.on F.TOP_ACC_ERR_CODE = true) ∧ (s.host.mbxGo =
    false)) ∧
    (∃ (s : State) (req addr data : Nat) (e : Env), (addr % 4 = 0) ∧ (isPaired addr = true) ∧ (s.host.mbxGo = false)) ∧
    (∃ (s : State) (req addr data : Nat) (e : Env), (addr % 4 = 0) ∧ (0x20000 ≤ addr ∧ addr < 0x200000) ∧ (isPaired addr =
    false) ∧ (Admitted s req) ∧ (e.late = []) ∧ (s.host.mbxGo = false)) :=
  ⟨⟨W.live, 3, 3, 2 ^ 32 + 5, W.env, by decide +kernel⟩,
   ⟨W.live, 3, 31, 2 ^ 40 + 5, W.env, by decide +kernel⟩,
   ⟨W.live, 3, 0x12, 1, 5, W.env, by decide +kernel⟩,
   ⟨W.live.wr F.TOP_ACC_ERR_CODE 0x13, 3, 0x12, 5, W.env, by decide +kernel⟩,
   ⟨W.live, 3, 0x420C, 5, W.env, by decide +kernel⟩,
   ⟨W.live, 3, 0x20000, 5, W.env, by decide +kernel⟩⟩

/-- The hypotheses of RegisterAccessesAreJudgedAndApplied are met. -/
theorem witness_RegisterAccessesAreJudgedAndApplied_2 :
    (∃ (s : State) (req addr data : Nat) (e : Env), (addr % 4 = 0) ∧ (addr < 0x18000) ∧ (isPaired addr = false) ∧ (req = 3 ∨
    req = 4) ∧ (s.on F.TOP_STAT_READY = false) ∧ (s.host.mbxGo = false)) ∧
    (∃ (s : State) (req k b v : Nat) (e : Env), (k < 4) ∧ (b < 32) ∧ (Admitted s req) ∧ (e.late = []) ∧ (s.host.mbxGo =
    false)) ∧
    (∃ (s : State) (k data : Nat) (applied : Bool) (e : Env), (k < 4) ∧ (s.on F.TOP_STAT_READY = true) ∧ (s.on
    F.TOP_ACC_ERR_CODE = false) ∧ (s.host.mbxGo = false)) ∧
    (∃ (s : State) (addr data : Nat) (applied : Bool) (e : Env), (addr % 4 = 0) ∧ (isPaired addr = false) ∧ (s.on
    F.TOP_ACC_ERR_CODE = false) ∧ (s.host.mbxGo = false)) :=
  ⟨⟨State.reset, 3, 0x10, 5, W.env, by decide +kernel⟩,
   ⟨W.live.wr F.TOP_SCRATCH_DATA 0xF0 1, 3, 1, 31, 1, W.env, by decide +kernel⟩,
   ⟨W.live, 1, 5, true, W.env, by decide +kernel⟩,
   ⟨W.live, 0x10000, 5, false, W.env, by decide +kernel⟩⟩

/-- The hypotheses of FaultsAreAcknowledgedConfiguredAndForced are met. -/
theorem witness_FaultsAreAcknowledgedConfiguredAndForced_1 :
    (∃ (s : State) (req w k : Nat), (Admitted s req) ∧ (w % 2 ^ 32 ≠ 0) ∧ (s.recOf (w % 2 ^ 32) = some k)) ∧
    (∃ (s : State) (req w : Nat), (Admitted s req) ∧ (w % 2 ^ 32 = 0 ∨ s.recOf (w % 2 ^ 32) = none)) ∧
    (∃ (s : State) (req w : Nat), (Admitted s req)) ∧
    (∃ (s : State) (req i w b : Nat), (Admitted s req) ∧ (i < 100) ∧ (b < 4) ∧ (cfgFixed (4 * i + b) = false) ∧ (s.on
    F.FCU_LOCK_CFG_LOCK = false)) ∧
    (∃ (s : State) (req i w b : Nat), (Admitted s req) ∧ (i < 100) ∧ (b < 4) ∧ (cfgFixed (4 * i + b) = true)) ∧
    (∃ (s : State) (req i w b : Nat), (Admitted s req) ∧ (i < 100) ∧ (b < 4) ∧ (cfgFixed (4 * i + b) = false) ∧ (s.on
    F.FCU_LOCK_CFG_LOCK = true) ∧ (bits w (8 * b) 2 ≠ s.rd F.FCU_CFG_SEV (4 * i + b))) :=
  ⟨⟨(W.live.wr F.FCU_REC_W0_VALID 1 3).wr F.FCU_REC_SEQ_SEQ 7 3, 3, 7, 3, by decide +kernel⟩,
   ⟨W.live, 3, 7, by decide +kernel⟩,
   ⟨(W.live.wr F.FCU_REC_W0_VALID 1 3).wr F.FCU_OVF_NOREC 2, 3, 0, by decide +kernel⟩,
   ⟨W.live.raise 1, 3, 0, 0x0E000D00, 1, by decide +kernel⟩,
   ⟨W.live, 3, 58, 0, 1, by decide +kernel⟩,
   ⟨W.live.wr F.FCU_LOCK_CFG_LOCK 1, 3, 0, 3, 0, by decide +kernel⟩⟩

/-- The hypotheses of FaultsAreAcknowledgedConfiguredAndForced are met. -/
theorem witness_FaultsAreAcknowledgedConfiguredAndForced_2 :
    (∃ (s : State) (req w : Nat), (Admitted s req) ∧ (s.once.contains 0x1010 = false)) ∧
    (∃ (s : State) (req w : Nat), (Admitted s req) ∧ (s.once.contains 0x1010 = true)) ∧
    (∃ (s : State) (req j b : Nat), (Admitted s req) ∧ (j < 13) ∧ (b < 32) ∧ (cfgFixed (32 * j + b) = false) ∧ (s.rd
    F.FCU_CFG_SEV (32 * j + b) ≠ 3 ∨ s.on F.FCU_CTL_FORCE_S3 = true)) ∧
    (∃ (s : State) (req j b : Nat), (Admitted s req) ∧ (j < 13) ∧ (b < 32) ∧ (cfgFixed (32 * j + b) = false) ∧ (s.rd
    F.FCU_CFG_SEV (32 * j + b) = 3) ∧ (s.on F.FCU_CTL_FORCE_S3 = false)) ∧
    (∃ (s : State) , (8 ≤ s.fcu.noMark)) :=
  ⟨⟨W.live, 3, 1, by decide +kernel⟩,
   ⟨{ W.live with once := [0x1010] }, 3, 0, by decide +kernel⟩,
   ⟨W.live, 3, 0, 1, by decide +kernel⟩,
   ⟨W.live.wr F.FCU_CFG_SEV 3 1, 3, 0, 1, by decide +kernel⟩,
   ⟨{ W.live with fcu := { W.live.fcu with noMark := 8 } }, by decide +kernel⟩⟩

/-- The hypotheses of SuppliesClocksAndIslandsAreShown are met. -/
theorem witness_SuppliesClocksAndIslandsAreShown_1 :
    (∃ (s : State) (b : Nat), (b < 9) ∧ (s.ridge.running = true)) ∧
    (∃ (s : State) (b : Nat), (b < 9) ∧ (s.ridge.running = false)) ∧
    (∃ (s : State) (b : Nat), (b < 9)) ∧
    (∃ (s : State) (low : Bool), (s.ridge.running = true)) ∧
    (∃ (s : State) (bad : Bool), (s.ridge.running = true)) ∧
    (∃ (s : State) (unlocked : Bool), (s.ridge.running = true)) :=
  ⟨⟨W.live, 8, by decide +kernel⟩,
   ⟨State.reset, 0, by decide +kernel⟩,
   ⟨W.live, 8, by decide +kernel⟩,
   ⟨W.live, true, by decide +kernel⟩,
   ⟨W.live, true, by decide +kernel⟩,
   ⟨W.live, true, by decide +kernel⟩⟩

/-- The hypotheses of SuppliesClocksAndIslandsAreShown are met. -/
theorem witness_SuppliesClocksAndIslandsAreShown_2 :
    (∃ (s : State) (stopped : Bool), (s.ridge.running = true)) ∧
    (∃ (s : State) (req w : Nat), (Admitted s req)) ∧
    (∃ (s : State) , (s.slate.cells.length = 256)) ∧
    (∃ (s : State) , (s.slate.cells.length = 256)) ∧
    (∃ (s : State) (req i : Nat), (Admitted s req) ∧ (i < 16) ∧ (bit (s.rd F.TOP_PWR_CTL_ON) i = false) ∧ (s.rd
    F.TOP_PWR_STAT_STATE i ≠ 3)) ∧
    (∃ (s : State) (req i : Nat), (Admitted s req) ∧ (i < 16) ∧ (bit (s.rd F.TOP_PWR_CTL_ON) i = true) ∧ (s.islandFree i =
    true)) :=
  ⟨⟨W.live, true, by decide +kernel⟩,
   ⟨W.live, 3, 1700000000, by decide +kernel⟩,
   ⟨W.live.wr F.TOP_RTC_STAT_VALID 1, by decide +kernel⟩,
   ⟨W.live.wr F.TOP_RTC_STAT_VALID 1, by decide +kernel⟩,
   ⟨(W.live.wr F.TOP_PWR_CTL_ON 0x7FFF).wr F.TOP_PWR_STAT_STATE 0 15, 3, 15, by decide +kernel⟩,
   ⟨W.live, 3, 15, by decide +kernel⟩⟩

/-- The hypotheses of SuppliesClocksAndIslandsAreShown are met. -/
theorem witness_SuppliesClocksAndIslandsAreShown_3 :
    (∃ (s : State) (req i : Nat), (Admitted s req) ∧ (i < 16) ∧ (bit (s.rd F.TOP_PWR_CTL_ON) i = true) ∧ (s.islandFree i =
    false)) ∧
    (∃ (s : State) (i : Nat), (i < 16) ∧ (s.rd F.TOP_PWR_STAT_STATE i = 1)) ∧
    (∃ (s : State) (i : Nat), (i < 16) ∧ (s.rd F.TOP_PWR_STAT_STATE i = 3) ∧ (bit (s.rd F.TOP_PWR_PEND_PENDING_ENABLE) i =
    false)) :=
  ⟨⟨W.live.wr F.GNSS_CTL_EN 1, 3, 0, by decide +kernel⟩,
   ⟨W.live.wr F.TOP_PWR_STAT_STATE 1 15, 15, by decide +kernel⟩,
   ⟨W.live.wr F.TOP_PWR_STAT_STATE 3 15, 15, by decide +kernel⟩⟩

/-- The hypotheses of StartUpRunsFromPowerOnToReady are met. -/
theorem witness_StartUpRunsFromPowerOnToReady_1 :
    (∃ (s : State) , (s.pwr.stage ≠ 0)) ∧
    (∃ (s : State) , (s.pwr.stage = 1)) ∧
    (∃ (s : State) , (s.pwr.stage = 2)) ∧
    (∃ (s : State) (xoHz err code nominal : Nat) (rtc : Option Nat) (temp : Int), (s.pwr.stage = 2) ∧ (xoPick xoHz = some
    (code, nominal))) ∧
    (∃ (s : State) (xoHz err : Nat) (rtc : Option Nat) (temp : Int), (s.pwr.stage = 2) ∧ (xoPick xoHz = none)) ∧
    (∃ (s : State) , (s.pwr.stage = 4) ∧ (s.on F.TOP_STAT_SAFE = false)) :=
  ⟨⟨{ W.live with pwr := { W.live.pwr with stage := 7 } }, by decide +kernel⟩,
   ⟨{ State.reset with pwr := { State.reset.pwr with stage := 1 } }, by decide +kernel⟩,
   ⟨{ State.reset with pwr := { State.reset.pwr with stage := 2 } }, by decide +kernel⟩,
   ⟨{ State.reset with pwr := { State.reset.pwr with stage := 2 } }, 24999000, 0, 3, 25000000, some 5, 100, by decide +kernel⟩,
   ⟨{ State.reset with pwr := { State.reset.pwr with stage := 2 } }, 15000000, 0, none, 100, by decide +kernel⟩,
   ⟨{ W.live with pwr := { W.live.pwr with stage := 4 } }, by decide +kernel⟩⟩

/-- The hypotheses of StartUpRunsFromPowerOnToReady are met. -/
theorem witness_StartUpRunsFromPowerOnToReady_2 :
    (∃ (s : State) (img : List Nat) (imgB : Option (List Nat)), (s.pwr.stage = 4) ∧ (s.on F.TOP_STAT_SAFE = false)) ∧
    (∃ (s : State) (e : Env), (s.on F.TOP_STAT_SAFE = false) ∧ (s.pwr.stage = 5) ∧ (∀ t, t < 6 → imgSection s.pwr.image t =
    []) ∧ (s.keysWait = false) ∧ (s.bootCpl = []) ∧ (s.host.mbxGo = false)) ∧
    (∃ (s : State) (e : Env) (b : List Nat) (k : Nat), (s.on F.TOP_STAT_SAFE = false) ∧ (s.pwr.stage = 6) ∧ (s.keysWait =
    false) ∧ (s.bootCpl = []) ∧ (s.fcu.occs = []) ∧ (e.late = []) ∧ (s.host.mbxGo = false) ∧ (imgSection s.pwr.image 2 = b) ∧
    (imgSection s.pwr.image 5 = []) ∧ (b.length = 12) ∧ (k < 4) ∧ (bits (imgWord b 0 4) 0 24 = 0x10 + 4 * k) ∧ (bit (imgWord b
    0 4) 31 = false)) ∧
    (∃ (s : State) (e : Env) (idx : Nat) (ws : List Nat), (s.pwr.stage = 7) ∧ (s.on F.TOP_STAT_SAFE = false) ∧ (s.pwr.cur =
    none) ∧ (s.pwr.cmds = [(idx, ws)]) ∧ (s.bootCpl = []) ∧ (s.host.dropped = []) ∧ (s.host.outFail = none) ∧ (s.host.mbxGo =
    false) ∧ (bits (ws.getD 0 0) 16 4 = 0) ∧ (recOp (ws.drop 1) = 0x0F00) ∧ (recDn (ws.drop 1) = 0) ∧ (headerCode (ws.drop 1)
    = Code.ok)) ∧
    (∃ (s : State) (e : Env) (idx : Nat) (ws : List Nat) (rest : List (Nat × List Nat)), (s.pwr.stage = 7) ∧ (s.on
    F.TOP_STAT_SAFE = false) ∧ (s.pwr.cur = none) ∧ (s.pwr.cmds = (idx, ws) :: rest) ∧ (bits (ws.getD 0 0) 16 4 = 0) ∧ (bit
    (ws.getD 0 0) 20 = false) ∧ (recOp (ws.drop 1) ∉ opcodes) ∧ (s.host.mbxGo = false)) ∧
    (∃ (s : State) (e : Env) (idx : Nat) (ws : List Nat) (rest : List (Nat × List Nat)), (s.pwr.cur = none) ∧ (s.pwr.cmds =
    (idx, ws) :: rest) ∧ (bits (ws.getD 0 0) 16 4 ≠ 0) ∧ (s.on F.TOP_STAT_READY = false)) :=
  ⟨⟨{ W.live with pwr := { W.live.pwr with stage := 4 } }, [1, 2, 3], none, by decide +kernel⟩,
   ⟨{ W.live with pwr := { W.live.pwr with stage := 5 } }, W.env, by decide +kernel⟩,
   ⟨{ W.live with pwr := { W.live.pwr with stage := 6, image := W.regsImage } }, W.env, [0x14, 0, 0, 0, 7, 0, 0, 0, 0, 0, 0, 0], 1, by decide +kernel⟩,
   ⟨{ W.live with pwr := { W.live.pwr with stage := 7, cmds := [(0, [0, 0x0F00])] } }, W.env, 0, [0, 0x0F00], by decide +kernel⟩,
   ⟨{ W.live with pwr := { W.live.pwr with stage := 7, cmds := [(0, [0, 0xFFFF])] } }, W.env, 0, [0, 0xFFFF], [], by decide +kernel⟩,
   ⟨{ State.reset with pwr := { State.reset.pwr with stage := 7, cmds := [(0, [2 ^ 16, 0x0F00])] } }, W.env, 0, [2 ^ 16, 0x0F00], [], by decide +kernel⟩⟩

/-- The hypotheses of StartUpRunsFromPowerOnToReady are met. -/
theorem witness_StartUpRunsFromPowerOnToReady_3 :
    (∃ (s : State) (ms : Nat), (s.pwr.stage = 7) ∧ (s.pwr.cur = none) ∧ (s.pwr.cmds = []) ∧ (s.pwr.release = []) ∧ (s.on
    F.TOP_STAT_READY = false) ∧ (s.on F.TOP_STAT_SAFE = false) ∧ (s.frank.katEn = false) ∧ (s.frank.katReq = false)) ∧
    (∃ (s : State) , (s.on F.TOP_STAT_READY = false) ∧ (s.ridge.running = true)) ∧
    (∃ (s : State) (dw : Nat), (s.pwr.cfgOpen = false) ∧ (s.on F.TOP_STAT_SAFE = false)) ∧
    (∃ (s : State) , (s.pwr.cfgOpen = true)) :=
  ⟨⟨{ W.live.wr F.TOP_STAT_READY 0 with pwr := { W.live.pwr with stage := 7 } }, 900, by decide +kernel⟩,
   ⟨W.live.wr F.TOP_STAT_READY 0, by decide +kernel⟩,
   ⟨State.reset, 0, by decide +kernel⟩,
   ⟨{ State.reset with pwr := { State.reset.pwr with cfgOpen := true } }, by decide +kernel⟩⟩

/-- The hypotheses of AnIslandWaitsForItsPowerDown are met. -/
theorem witness_AnIslandWaitsForItsPowerDown :
    (∃ (s : State) (req i : Nat), (Admitted s req) ∧ (i < 16) ∧ (bit (s.rd F.TOP_PWR_CTL_ON) i = false) ∧ (s.rd
    F.TOP_PWR_STAT_STATE i = 3)) ∧
    (∃ (s : State) (i : Nat), (i < 16) ∧ (s.rd F.TOP_PWR_STAT_STATE i = 3) ∧ (bit (s.rd F.TOP_PWR_PEND_PENDING_ENABLE) i =
    true)) :=
  ⟨⟨(W.live.wr F.TOP_PWR_CTL_ON 0x7FFF).wr F.TOP_PWR_STAT_STATE 3 15, 3, 15, by decide +kernel⟩,
   ⟨(W.live.wr F.TOP_PWR_STAT_STATE 3 15).wr F.TOP_PWR_PEND_PENDING_ENABLE 0x8000, 15, by decide +kernel⟩⟩

/-- The hypotheses of MaintenanceRunsInQuietGroups are met. -/
theorem witness_MaintenanceRunsInQuietGroups_1 :
    (∃ (s : State) (temp : Int), (s.calDue temp = true) ∧ (s.calTargets = [])) ∧
    (∃ (s : State) (temp : Int) (n : Nat), (s.calDue temp = true) ∧ (s.calTargets = [n]) ∧ (s.quietQueue 0 = []) ∧
    (s.sort.queues.length = 11)) ∧
    (∃ (s : State) (n worst binAvg : Nat), (n < 48) ∧ (s.isRunning 1 n = true) ∧ (s.tdc.cal.contains n = false) ∧
    (s.tdc.oos.contains n = true) ∧ (s.tdcState n = 5) ∧ (s.sort.running.length = 11) ∧ (worst ≤ 600)) ∧
    (∃ (s : State) (n worst binAvg : Nat), (n < 48) ∧ (s.isRunning 1 n = true) ∧ (s.tdc.cal.contains n = false) ∧
    (s.sort.running.length = 11) ∧ (800 < worst)) ∧
    (∃ (s : State) (c : CmdRef) (w0 : Nat), (bits w0 0 8 ≠ 3) ∧ (bits w0 0 8 ≠ 9) ∧ (s.maintOk (bits w0 0 8) (bits w0 8 8) =
    true) ∧ (s.quietQueue (quietGroup (bits w0 0 8) (bits w0 8 8)) = []) ∧ (s.quietRun (quietGroup (bits w0 0 8) (bits w0 8
    8)) = none) ∧ (s.sort.queues.length = 11)) ∧
    (∃ (s : State) (c : CmdRef) (w0 : Nat), (bits w0 0 8 = 3) ∧ (s.quietQueue 1 = []) ∧ (s.quietRun 1 = none) ∧
    (s.sort.queues.length = 11)) :=
  ⟨⟨W.live.wr F.TDC_CAL_CTL_TEMP_STEP 1, 40, by decide +kernel⟩,
   ⟨(W.live.wr F.TDC_CAL_CTL_TEMP_STEP 1).wr F.TDC_CH_STAT_STATE 2 5, 40, 5, by decide +kernel⟩,
   ⟨{ W.live.wr F.TDC_CH_STAT_STATE 5 5 with tdc := { W.live.tdc with oos := [5] }, sort := { W.live.sort with running := [some ⟨1, 5, true, [], 0, false⟩, none, none, none, none, none, none, none, none, none, none] } }, 5, 300, 40, by decide +kernel⟩,
   ⟨{ W.live with sort := { W.live.sort with running := [some ⟨1, 5, true, [], 0, false⟩, none, none, none, none, none, none, none, none, none, none] } }, 5, 900, 40, by decide +kernel⟩,
   ⟨W.live.wr F.TDC_CH_STAT_STATE 2 5, W.c, 0x0501, by decide +kernel⟩,
   ⟨W.live, W.c, 3, by decide +kernel⟩⟩

/-- The hypotheses of MaintenanceRunsInQuietGroups are met. -/
theorem witness_MaintenanceRunsInQuietGroups_2 :
    (∃ (s : State) (c : CmdRef) (w0 : Nat), (bits w0 0 8 = 9) ∧ (s.testReady (bits w0 8 8) = true)) ∧
    (∃ (s : State) (c : CmdRef) (w0 : Nat), (s.maintOk (bits w0 0 8) (if bits w0 0 8 = 3 then 0 else bits w0 8 8) = false)) ∧
    (∃ (s : State) (q : Nat) (e : SortEntry), (q < 11) ∧ (s.startable q = some e) ∧ (e.act = 6 ∨ e.act = 7) ∧
    (s.sort.queues.length = 11) ∧ (s.sort.running.length = 11)) ∧
    (∃ (s : State) (q : Nat) (e : SortEntry), (q < 11) ∧ (s.startable q = some e) ∧ (e.act = 5) ∧ (e.tgt < 32) ∧
    (s.sort.queues.length = 11) ∧ (s.sort.running.length = 11) ∧ (s.eth.lane.length = 32)) ∧
    (∃ (s : State) (ok : Bool) (learn : List (Nat × Nat × Nat)) (e : SortEntry), (s.quietRun 10 = some e) ∧ (e.act = 7) ∧
    (s.sort.running.length = 11)) ∧
    (∃ (s : State) (learn : List (Nat × Nat × Nat)) (e : SortEntry), (s.quietRun 10 = some e) ∧ (e.act = 8) ∧ (s.memState = 1)
    ∧ (s.sort.running.length = 11)) :=
  ⟨⟨W.live.wr F.TDC_CH_STAT_STATE 6 5, W.c, 0x0509, by decide +kernel⟩,
   ⟨W.live, W.c, 0x0501, by decide +kernel⟩,
   ⟨{ W.live with sort := { W.live.sort with queues := [[], [], [], [], [], [], [], [], [], [], [⟨6, 0, false, [], 0, false⟩]] } }, 10, ⟨6, 0, false, [], 0, false⟩, by decide +kernel⟩,
   ⟨{ W.live with sort := { W.live.sort with queues := [[], [], [⟨5, 3, false, [], 0, false⟩], [], [], [], [], [], [], [], []] } }, 2, ⟨5, 3, false, [], 0, false⟩, by decide +kernel⟩,
   ⟨{ W.live with sort := { W.live.sort with running := [none, none, none, none, none, none, none, none, none, none, some ⟨7, 0, true, [], 0, false⟩] } }, true, [], ⟨7, 0, true, [], 0, false⟩, by decide +kernel⟩,
   ⟨{ W.live.wr F.MEM_STAT_STATE 1 with sort := { W.live.sort with running := [none, none, none, none, none, none, none, none, none, none, some ⟨8, 0, true, [], 0, false⟩] } }, [], ⟨8, 0, true, [], 0, false⟩, by decide +kernel⟩⟩

/-- The hypotheses of MaintenanceRunsInQuietGroups are met. -/
theorem witness_MaintenanceRunsInQuietGroups_3 :
    (∃ (s : State) (q : Nat) (e : SortEntry), (q < 11) ∧ (s.quietQueue q = [e]) ∧ (e.warned = false) ∧ (s.rd
    F.SORT_CTL_WAIT_MAX * 1250000 < s.ridge.ticks - e.tick) ∧ (s.sort.queues.length = 11)) ∧
    (∃ (s : State) (tgt : Nat) (fe : List Nat) (sclk : Nat) (x : SelfTest), (s.sort.tests = [x]) ∧ (x.tgt = tgt) ∧ (x.cut =
    false) ∧ (tgt < 0x30) ∧ (s.on F.TDC_CH_STAT_PENDING_ENABLE tgt = false)) ∧
    (∃ (s : State) (tgt k : Nat) (fe : List Nat) (sclk : Nat) (x : SelfTest), (s.sort.tests = [x]) ∧ (x.tgt = tgt) ∧ (x.cut =
    false) ∧ (tgt < 0x30)) :=
  ⟨⟨{ W.live with ridge := { W.live.ridge with ticks := 1000000000000 }, sort := { W.live.sort with queues := [[⟨1, 3, false, [], 0, false⟩], [], [], [], [], [], [], [], [], [], []] } }, 0, ⟨1, 3, false, [], 0, false⟩, by decide +kernel⟩,
   ⟨{ W.live with sort := { W.live.sort with tests := [⟨5, W.c, 0, false⟩] } }, 5, [], 0, ⟨5, W.c, 0, false⟩, by decide +kernel⟩,
   ⟨{ W.live with sort := { W.live.sort with tests := [⟨5, W.c, 0, false⟩] } }, 5, 3, [], 0, ⟨5, W.c, 0, false⟩, by decide +kernel⟩⟩

/-- The hypotheses of MemoriesTrainCommitAndReportErrors are met. -/
theorem witness_MemoriesTrainCommitAndReportErrors_1 :
    (∃ (s : State) (req w : Nat), (Admitted s req) ∧ (s.on F.MEM_CTL_DRAM_EN = false) ∧ (s.memState = 0) ∧ (s.sort.tests = [])
    ∧ (s.islandOn 9 = false)) ∧
    (∃ (s : State) (req w : Nat), (Admitted s req) ∧ (s.on F.MEM_CTL_DRAM_EN = false) ∧ (s.memState = 0) ∧ (s.sort.tests = [])
    ∧ (s.islandOn 9 = true) ∧ (((s.stagedWrite noLock inRange [F.MEM_CTL_ERR_MAX, F.MEM_CTL_HIST_PER, F.MEM_CTL_SIZE,
    F.MEM_CTL_STAMP_LOG, F.MEM_CTL_DRAM_EN] 0 (setBit w 0 true)).1).rd F.MEM_CTL_SIZE ≠ 0) ∧ (s.quietQueue 10 = []) ∧
    (s.sort.queues.length = 11)) ∧
    (∃ (s : State) (req w : Nat), (Admitted s req) ∧ (s.on F.MEM_CTL_DRAM_EN = true) ∧ (s.memState = 2) ∧ (s.sort.tests = [])
    ∧ (s.quietQueue 10 = []) ∧ (s.sort.queues.length = 11)) ∧
    (∃ (s : State) , (s.memState = 2) ∧ (s.quietQueue 10 = []) ∧ (s.sort.queues.length = 11)) ∧
    (∃ (s : State) , (s.memState = 2) ∧ (s.quietQueue 10 = []) ∧ (s.sort.queues.length = 11)) ∧
    (∃ (s : State) (addr lost : Nat), (s.memState = 2)) :=
  ⟨⟨W.live.wr F.TOP_PWR_STAT_STATE 0 9, 3, 0, by decide +kernel⟩,
   ⟨W.live.wr F.TOP_PWR_STAT_STATE 2 9, 3, 0x04400010, by decide +kernel⟩,
   ⟨(W.live.wr F.MEM_CTL_DRAM_EN 1).wr F.MEM_STAT_STATE 2, 3, 0, by decide +kernel⟩,
   ⟨W.live.wr F.MEM_STAT_STATE 2, by decide +kernel⟩,
   ⟨W.live.wr F.MEM_STAT_STATE 2, by decide +kernel⟩,
   ⟨W.live.wr F.MEM_STAT_STATE 2, 0, 0, by decide +kernel⟩⟩

/-- The hypotheses of MemoriesTrainCommitAndReportErrors are met. -/
theorem witness_MemoriesTrainCommitAndReportErrors_2 :
    ∃ (s : State) (kind addr lost : Nat), (3 ≤ kind) ∧ (s.memState = 2) ∧ (s.sort.dramErrs + 1 ≠ s.inF F.MEM_CTL_ERR_MAX + 1)
    :=
  ⟨(W.live.wr F.MEM_STAT_STATE 2).wr F.MEM_CTL_ERR_MAX 8, 3, 0, 0, by decide +kernel⟩

/-- The hypotheses of AnEmptyQueueLetsOneTickPass are met. -/
theorem witness_AnEmptyQueueLetsOneTickPass :
    (∃ (s : State) , (s.pending = [])) ∧
    (∃ (s : State) (d : Nat), (s.pending = []) ∧ (d < 2) ∧ (s.domRuns d = true) ∧ ((s.dom d).slewing = false)) ∧
    (∃ (s : State) (d : Nat), (s.pending = []) ∧ (d < 2) ∧ (s.domRuns d = true) ∧ ((s.dom d).slewing = true) ∧ (0 ≤ (s.dom
    d).pend)) ∧
    (∃ (s : State) (d : Nat), (s.pending = []) ∧ (d < 2) ∧ (s.domRuns d = false)) :=
  ⟨⟨W.live, by decide +kernel⟩,
   ⟨W.live, 0, by decide +kernel⟩,
   ⟨{ W.live with ridge := { W.live.ridge with a := { W.live.ridge.a with pend := 5, slewing := true, slewMax := 100 } } }, 0, by decide +kernel⟩,
   ⟨W.live, 1, by decide +kernel⟩⟩

/-- The hypotheses of SettlingAQuietTickOnlyShows are met. -/
theorem witness_SettlingAQuietTickOnlyShows :
    ∃ (s : State) , (s.evalSquelch.fcu.occs = []) ∧ (s.evalSquelch.evalSquelch.fcu.occs = []) :=
  ⟨W.live, by decide +kernel⟩

/-- The hypotheses of TheFaultCollectorShowsWhatIsLive are met. -/
theorem witness_TheFaultCollectorShowsWhatIsLive :
    ∃ (s : State) (fs : Nat), (s.close.ridge.running = true) :=
  ⟨W.live, 40, by decide +kernel⟩

/-- The hypotheses of AnOccurrenceIsCountedAndRecorded are met. -/
theorem witness_AnOccurrenceIsCountedAndRecorded :
    (∃ (s : State) (fs snap k : Nat), (s.ridge.running = true) ∧ (s.evalSquelch.fcu.occs = [Occ.mk fs snap false]) ∧
    (isReservedFS fs = false) ∧ ((fs < 232 ∨ 234 < fs)) ∧ (s.sevOf fs < 3) ∧ (s.on F.FCU_CFG_REC fs = true) ∧ (s.on
    F.FCU_PEND_BIT fs = false) ∧ (s.freeSlot (s.sevOf fs) = some k) ∧ (statedSnaps.contains fs = true)) ∧
    (∃ (s : State) (fs snap : Nat), (s.ridge.running = true) ∧ (s.evalSquelch.fcu.occs = [Occ.mk fs snap false]) ∧
    (isReservedFS fs = false) ∧ ((fs < 232 ∨ 234 < fs)) ∧ (s.sevOf fs < 3) ∧ (s.on F.FCU_CFG_REC fs = true) ∧ (s.on
    F.FCU_PEND_BIT fs = false) ∧ (s.freeSlot (s.sevOf fs) = none)) ∧
    (∃ (s : State) (fs snap : Nat), (s.ridge.running = true) ∧ (s.evalSquelch.fcu.occs = [Occ.mk fs snap false]) ∧
    (isReservedFS fs = false) ∧ ((fs < 232 ∨ 234 < fs)) ∧ (s.sevOf fs < 3) ∧ ((s.on F.FCU_CFG_REC fs = false ∨ s.on
    F.FCU_PEND_BIT fs = true))) :=
  ⟨⟨(W.live.wr F.FCU_REC_W0_VALID 1 0).raise 96 5, 96, 5, 1, by decide +kernel⟩,
   ⟨(forN 64 W.live (fun s k => s.wr F.FCU_REC_W0_VALID 1 k)).raise 96 5, 96, 5, by decide +kernel⟩,
   ⟨(W.live.wr F.FCU_PEND_BIT 1 96).raise 96 5, 96, 5, by decide +kernel⟩⟩

/-- The hypotheses of AnS3OccurrenceEntersSafeState are met. -/
theorem witness_AnS3OccurrenceEntersSafeState :
    (∃ (s : State) (o : Occ), (s.ridge.running = true) ∧ (s.evalSquelch.fcu.occs = [o]) ∧ (isReservedFS o.fs = false) ∧
    (s.sevOf o.fs = 3) ∧ (s.on F.TOP_STAT_SAFE = false)) ∧
    (∃ (s : State) (o : Occ), (s.ridge.running = true) ∧ (s.evalSquelch.fcu.occs = [o]) ∧ (isReservedFS o.fs = false) ∧ ((o.fs
    < 232 ∨ 234 < o.fs)) ∧ (s.sevOf o.fs = 3) ∧ (s.on F.TOP_STAT_SAFE = false) ∧ (s.on F.FCU_CFG_REC o.fs = true) ∧ (s.on
    F.FCU_PEND_BIT o.fs = false) ∧ (s.freeSlot 3 ≠ none) ∧ (s.rd F.FCU_SAFE_SEQ_SEQ = 0)) :=
  ⟨⟨W.live.raise 232, ⟨232, 0, false⟩, by decide +kernel⟩,
   ⟨W.live.raise 223, ⟨223, 0, false⟩, by decide +kernel⟩⟩

/-- The hypotheses of ResetShowsItsPins are met. -/
theorem witness_ResetShowsItsPins :
    ∃ (s : State) , (s = State.reset) :=
  ⟨State.reset, by decide +kernel⟩

/-- The hypotheses of EveryStepShowsFaultAndInterrupt are met. -/
theorem witness_EveryStepShowsFaultAndInterrupt :
    ∃ (s : State) (t : State), (s.PinsShown) ∧ (step s = .next t) :=
  ⟨quiet, quiet.runTicks 1, ⟨test_quiet_shows_its_pins, rfl⟩⟩

end Sys2Proof.Tests
end

/-! ## Ridge time: the rules of its state

What a domain's hidden state, the slew views and the passing of time change, each said once. -/

namespace Sys2Proof.Machine

theorem exec_timeSlew (c : CmdRef) (w0 corr w3 : Nat) (s : State) : exec (.timeSlew c w0 corr w3) s = execTimeSlew c w0 corr w3 s := rfl
theorem exec_timeStep (c : CmdRef) (w0 step : Nat) (s : State) : exec (.timeStep c w0 step) s = execTimeStep c w0 step s := rfl
theorem exec_slewStart (d : Nat) (s : State) : exec (.slewStart d) s = execSlewStart d s := rfl
theorem exec_slewEnd (d : Nat) (s : State) : exec (.slewEnd d) s = execSlewEnd d s := rfl

namespace State
variable (s : State)

/-! ### The hidden state of a domain -/

theorem setDom_eq (d : Nat) (r : RidgeDom) : { s with ridge := (s.setDom d r).ridge } = s.setDom d r := by
  unfold setDom; split <;> rfl

@[simp] theorem setDom_regs (d : Nat) (r : RidgeDom) : (s.setDom d r).regs = s.regs := by
  rw [← setDom_eq]

@[simp] theorem rd_setDom (d : Nat) (r : RidgeDom) (f : Fld) (i : Nat) : (s.setDom d r).rd f i = s.rd f i :=
  rd_of_regs (setDom_regs s d r) f i

@[simp] theorem dom_setDom (d : Nat) (r : RidgeDom) : (s.setDom d r).dom d = r := by
  unfold setDom dom; split <;> rfl

theorem dom_setDom_other {d e : Nat} (h : d = 0 ↔ e ≠ 0) (r : RidgeDom) : (s.setDom d r).dom e = s.dom e := by
  unfold setDom dom
  by_cases hd : d = 0
  · rw [if_pos hd, if_neg (h.1 hd), if_neg (h.1 hd)]
  · have he : e = 0 := not_not.1 fun c => hd (h.2 c)
    rw [if_neg hd, if_pos he, if_pos he]

theorem dom_of_ridge {s t : State} (h : t.ridge = s.ridge) (d : Nat) : t.dom d = s.dom d := by
  simp only [dom, h]

@[simp] theorem setDom_ticks (d : Nat) (r : RidgeDom) : (s.setDom d r).ridge.ticks = s.ridge.ticks := by
  unfold setDom; split <;> rfl

@[simp] theorem setDom_running (d : Nat) (r : RidgeDom) : (s.setDom d r).ridge.running = s.ridge.running := by
  unfold setDom; split <;> rfl

/-! ### The slew views -/

/-- The register fields that show the slews. -/
def slewFlds (d : Nat) : List (Fld × Nat) := [(F.RIDGE_x_SLEW_REM_VALUE, d), (F.RIDGE_STAT_A_SLEWING, 0), (F.RIDGE_STAT_B_SLEWING, 0)]

theorem showSlew_eq (d : Nat) : { s with regs := (s.showSlew d).regs } = s.showSlew d := by
  unfold showSlew; dsimp only; split <;> rfl

@[simp] theorem showSlew_ridge (d : Nat) : (s.showSlew d).ridge = s.ridge := by rw [← showSlew_eq]

@[simp] theorem dom_showSlew (d e : Nat) : (s.showSlew d).dom e = s.dom e := dom_of_ridge (showSlew_ridge s d) e

theorem regsBut_showSlew (d : Nat) : RegsBut s (s.showSlew d) (slewFlds d) := by
  unfold showSlew
  have h := (RegsBut.refl s (slewFlds d)).wr (g := F.RIDGE_x_SLEW_REM_VALUE) (j := d) (.head _)
    (ofS F.RIDGE_x_SLEW_REM_VALUE.w ((s.dom d).pend.tdiv two40))
  dsimp only
  split
  · exact h.wr (.tail _ (.head _)) _
  · exact h.wr (.tail _ (.tail _ (.head _))) _

theorem rd_showSlew {f : Fld} (hf : f.no < 1024) (h : ∀ p ∈ slewFlds 0, f.no ≠ p.1.no) (d i : Nat) :
    (s.showSlew d).rd f i = s.rd f i :=
  regsBut_showSlew s d f i fun p hp => by
    simp only [slewFlds, List.mem_cons, List.not_mem_nil, or_false, forall_eq_or_imp, forall_eq] at h hp
    obtain rfl | rfl | rfl := hp
    · exact Fld.key_ne (f := F.RIDGE_x_SLEW_REM_VALUE) (by decide) hf (.inl h.1)
    · exact Fld.key_ne (by decide) hf (.inl h.2.1)
    · exact Fld.key_ne (by decide) hf (.inl h.2.2)

/-- The view of a pending correction, rounded towards zero to whole ru (R596). -/
theorem rd_showSlew_rem (d : Nat) :
    (s.showSlew d).rd F.RIDGE_x_SLEW_REM_VALUE d = ofS 64 ((s.dom d).pend.tdiv two40) % 2 ^ 64 := by
  unfold showSlew
  dsimp only
  split <;> rw [wrB_eq, rd_wr_other _ (by decide) (by decide) (by decide), wrS_eq, rd_wr_same] <;> rfl

/-! ### Accepting and starting a slew -/

theorem acceptSlew_eq_showSlew (d : Nat) (x : Int) (named : Option Nat) :
    ∃ r : RidgeDom, r.pend = (s.dom d).pend + x * two40 ∧ s.acceptSlew d x named = (s.setDom d r).showSlew d := by
  unfold acceptSlew
  dsimp only
  refine ⟨_, ?_, rfl⟩
  split_ifs with h
  · exact h.symm
  · rfl

theorem startSlew_of_pending {d : Nat} (h : (s.dom d).pend ≠ 0) (k : s.domRuns d = true) :
    s.startSlew d = s.setDom d { s.dom d with slewing := true } := by
  unfold startSlew
  exact if_neg (by simp [h, k])

end State

/-! ### The passing of time (R10, R12, R542) -/

/-- The register fields that move as time passes: the counts, the slew views and the second of the RTC. -/
def tickFlds : List (Fld × Nat) :=
  [(F.RIDGE_x_COUNT_COUNT, 0), (F.RIDGE_x_COUNT_COUNT, 1), (F.RIDGE_x_SLEW_REM_VALUE, 0), (F.RIDGE_x_SLEW_REM_VALUE, 1),
   (F.RIDGE_STAT_A_SLEWING, 0), (F.RIDGE_STAT_B_SLEWING, 0), (F.TOP_RTC_SEC_SEC, 0)]

/-- Between `s` and `u` only time has passed. -/
def Ticked (s u : State) : Prop := { s with regs := u.regs, ridge := u.ridge, pwr := u.pwr } = u ∧ RegsBut s u tickFlds

theorem Ticked.refl (s : State) : Ticked s s := ⟨rfl, .refl s _⟩

theorem Ticked.trans {s t u : State} (h : Ticked s t) (k : Ticked t u) : Ticked s u := by
  refine ⟨?_, h.2.trans k.2⟩
  rw [← k.1, ← h.1]

theorem Ticked.rd {s u : State} (h : Ticked s u) {f : Fld} (hf : f.no < 1024) (hn : ∀ p ∈ tickFlds, p.1.no < 1024 ∧ f.no ≠ p.1.no)
    (i : Nat) : u.rd f i = s.rd f i := h.2 f i fun p hp => Fld.key_ne (hn p hp).1 hf (.inl (hn p hp).2)

theorem slewFlds_sub_tickFlds {d : Nat} (hd : d < 2) : ∀ p ∈ State.slewFlds d, p ∈ tickFlds := by
  obtain rfl | rfl : d = 0 ∨ d = 1 := by omega
  all_goals simp [State.slewFlds, tickFlds]

namespace State
variable (s : State)

/-- What domain `d` has after `n` ticks, in 2^-40 ru modulo 2^64 ru: the addend on each, and the slew (R10, R596). -/
def ranTo (d n : Nat) : Nat :=
  (((s.count d : Int) * two40 + (s.dom d).frac + (n * (s.dom d).addend : Nat) + (s.dom d).slewOver n)
    % ((two64 * two40 : Nat) : Int)).toNat

theorem runDom_of_stopped {d : Nat} (h : s.domRuns d = false) (n : Nat) : s.runDom d n = s := by
  unfold runDom; rw [h]; rfl

theorem runDom_of_running {d : Nat} (h : s.domRuns d = true) (n : Nat) :
    s.runDom d n = ((s.setDom d { (s.dom d).applied ((s.dom d).slewOver n) with frac := s.ranTo d n % two40 }).wr
      F.RIDGE_x_COUNT_COUNT (s.ranTo d n / two40) d).showSlew d := by
  unfold runDom; rw [h]; rfl

theorem ticked_runDom {d : Nat} (hd : d < 2) (n : Nat) : Ticked s (s.runDom d n) := by
  cases h : s.domRuns d
  · rw [runDom_of_stopped s h]
    exact .refl s
  · rw [runDom_of_running s h]
    refine ⟨?_, ?_⟩
    · rw [← showSlew_eq, ← setDom_eq]
      rfl
    · refine RegsBut.trans (RegsBut.wr (RegsBut.same (.refl s _) (setDom_regs s d _)) ?_ _)
        ((regsBut_showSlew _ d).mono (slewFlds_sub_tickFlds hd))
      obtain rfl | rfl : d = 0 ∨ d = 1 := by omega
      all_goals simp [tickFlds]

theorem runDom_ticks (d n : Nat) : (s.runDom d n).ridge.ticks = s.ridge.ticks := by
  cases h : s.domRuns d
  · rw [runDom_of_stopped s h]
  · rw [runDom_of_running s h, showSlew_ridge, wr_ridge, setDom_ticks]

theorem runDom_running (d n : Nat) : (s.runDom d n).ridge.running = s.ridge.running := by
  cases h : s.domRuns d
  · rw [runDom_of_stopped s h]
  · rw [runDom_of_running s h, showSlew_ridge, wr_ridge, setDom_running]

theorem dom_runDom {d : Nat} (h : s.domRuns d = true) (n : Nat) :
    (s.runDom d n).dom d = { (s.dom d).applied ((s.dom d).slewOver n) with frac := s.ranTo d n % two40 } := by
  rw [runDom_of_running s h, dom_showSlew, dom_of_ridge (wr_ridge _ _ _ _), dom_setDom]

theorem count_runDom {d : Nat} (h : s.domRuns d = true) (n : Nat) : (s.runDom d n).count d = s.ranTo d n / two40 := by
  have hlt : s.ranTo d n / two40 < 2 ^ F.RIDGE_x_COUNT_COUNT.w := by
    have hm : s.ranTo d n < two64 * two40 := by
      unfold ranTo
      have : (0 : Int) < ((two64 * two40 : Nat) : Int) := by decide
      have := Int.emod_lt_of_pos ((s.count d : Int) * two40 + (s.dom d).frac + (n * (s.dom d).addend : Nat) + (s.dom d).slewOver n) this
      omega
    exact Nat.div_lt_of_lt_mul (by rwa [Nat.mul_comm] at hm)
  rw [count, runDom_of_running s h, rd_showSlew _ (by decide) (by decide), rd_wr_same, Nat.mod_eq_of_lt hlt]

/-- Running one domain leaves the other alone. -/
theorem dom_runDom_other {d e : Nat} (h : d = 0 ↔ e ≠ 0) (n : Nat) : (s.runDom d n).dom e = s.dom e := by
  cases hr : s.domRuns d
  · rw [runDom_of_stopped s hr]
  · rw [runDom_of_running s hr, dom_showSlew, dom_of_ridge (wr_ridge _ _ _ _), dom_setDom_other s h]

theorem count_runDom_other {d e : Nat} (h : e ≠ d) (n : Nat) : (s.runDom d n).count e = s.count e := by
  cases hr : s.domRuns d
  · rw [runDom_of_stopped s hr]
  · rw [count, runDom_of_running s hr, rd_showSlew _ (by decide) (by decide), rd_wr_index _ (by decide) h, rd_setDom, count]

theorem domRuns_runDom {d : Nat} (hd : d < 2) (e n : Nat) : (s.runDom d n).domRuns e = s.domRuns e := by
  simp only [domRuns, State.on, runDom_running, (ticked_runDom s hd n).rd (f := F.RIDGE_CTL_B_EN) (by decide) (by decide)]

theorem runRtc_eq (n : Nat) : { s with regs := (s.runRtc n).regs, pwr := (s.runRtc n).pwr } = s.runRtc n := by
  unfold runRtc; dsimp only; split_ifs <;> rfl

@[simp] theorem runRtc_ridge (n : Nat) : (s.runRtc n).ridge = s.ridge := by rw [← runRtc_eq]

theorem regsBut_runRtc (n : Nat) : RegsBut s (s.runRtc n) [(F.TOP_RTC_SEC_SEC, 0)] := by
  unfold runRtc
  dsimp only
  split_ifs
  · exact .refl s _
  · exact .same (.refl s _) rfl
  · exact RegsBut.wr (.same (.refl s _) rfl) (.head _) _

theorem count_runRtc (n d : Nat) : (s.runRtc n).count d = s.count d :=
  regsBut_runRtc s n _ _ (by simpa using Fld.key_ne (by decide) (by decide) (.inl (by decide)))

theorem ticked_runRtc (n : Nat) : Ticked s (s.runRtc n) :=
  ⟨by rw [← runRtc_eq], (regsBut_runRtc s n).mono (by simp [tickFlds])⟩

theorem ticked_runTicks (n : Nat) : Ticked s (s.runTicks n) :=
  have h := ((ticked_runDom s (d := 0) (by decide) n).trans (ticked_runDom _ (d := 1) (by decide) n)).trans (ticked_runRtc _ n)
  ⟨by simp only [runTicks]; rw [← h.1], h.2.same rfl⟩

theorem runTicks_ticks (n : Nat) : (s.runTicks n).ridge.ticks = s.ridge.ticks + n := by
  simp only [runTicks, runRtc_ridge, runDom_ticks]

theorem dom_runTicks_eq (n e : Nat) : (s.runTicks n).dom e = ((s.runDom 0 n).runDom 1 n).dom e := by
  simp only [runTicks, dom, runRtc_ridge]

theorem count_runTicks_eq (n e : Nat) : (s.runTicks n).count e = ((s.runDom 0 n).runDom 1 n).count e :=
  count_runRtc ((s.runDom 0 n).runDom 1 n) n e

theorem ranTo_runDom_zero (n m : Nat) : (s.runDom 0 n).ranTo 1 m = s.ranTo 1 m := by
  simp only [ranTo, dom_runDom_other s (d := 0) (e := 1) (by decide), count_runDom_other s (d := 0) (e := 1) (by decide)]

/-- As time passes each domain that runs moves by itself alone. -/
theorem dom_runTicks {d : Nat} (hd : d < 2) (h : s.domRuns d = true) (n : Nat) :
    (s.runTicks n).dom d = { (s.dom d).applied ((s.dom d).slewOver n) with frac := s.ranTo d n % two40 } := by
  rw [dom_runTicks_eq]
  obtain rfl | rfl : d = 0 ∨ d = 1 := by omega
  · rw [dom_runDom_other _ (d := 1) (e := 0) (by decide), dom_runDom s h]
  · rw [dom_runDom _ (by rwa [domRuns_runDom s (by decide)]), ranTo_runDom_zero, dom_runDom_other s (d := 0) (e := 1) (by decide)]

theorem count_runTicks {d : Nat} (hd : d < 2) (h : s.domRuns d = true) (n : Nat) : (s.runTicks n).count d = s.ranTo d n / two40 := by
  rw [count_runTicks_eq]
  obtain rfl | rfl : d = 0 ∨ d = 1 := by omega
  · rw [count_runDom_other _ (d := 1) (e := 0) (by decide), count_runDom s h]
  · rw [count_runDom _ (by rwa [domRuns_runDom s (by decide)]), ranTo_runDom_zero]

theorem dom_runTicks_stopped {d : Nat} (hd : d < 2) (h : s.domRuns d = false) (n : Nat) : (s.runTicks n).dom d = s.dom d := by
  rw [dom_runTicks_eq]
  obtain rfl | rfl : d = 0 ∨ d = 1 := by omega
  · rw [dom_runDom_other _ (d := 1) (e := 0) (by decide), runDom_of_stopped s h]
  · rw [runDom_of_stopped _ (by rwa [domRuns_runDom s (by decide)]), dom_runDom_other s (d := 0) (e := 1) (by decide)]

theorem count_runTicks_stopped {d : Nat} (hd : d < 2) (h : s.domRuns d = false) (n : Nat) : (s.runTicks n).count d = s.count d := by
  rw [count_runTicks_eq]
  obtain rfl | rfl : d = 0 ∨ d = 1 := by omega
  · rw [count_runDom_other _ (d := 1) (e := 0) (by decide), runDom_of_stopped s h]
  · rw [runDom_of_stopped _ (by rwa [domRuns_runDom s (by decide)]), count_runDom_other s (d := 0) (e := 1) (by decide)]

/-- The count with its fraction after `n` ticks. -/
theorem count_frac_runTicks {d : Nat} (hd : d < 2) (h : s.domRuns d = true) (n : Nat) :
    (s.runTicks n).count d * two40 + ((s.runTicks n).dom d).frac = s.ranTo d n := by
  rw [count_runTicks s hd h, dom_runTicks s hd h]
  exact Nat.div_add_mod' _ _

end State

/-! ### What a slew adds (R596) -/

theorem RidgeDom.slewOver_idle {r : RidgeDom} (h : r.slewing = false) (n : Nat) : r.slewOver n = 0 := by
  unfold RidgeDom.slewOver; rw [h]; rfl

theorem RidgeDom.slewOver_up {r : RidgeDom} (h : r.slewing = true) (hp : 0 ≤ r.pend) (n : Nat) :
    r.slewOver n = (min (n * slewOffset r.rate) r.pend.toNat : Nat) := by
  have e : r.pend.natAbs = r.pend.toNat := by omega
  simp only [RidgeDom.slewOver, h, e, Bool.not_true, Bool.false_eq_true, if_false, if_neg (not_lt.2 hp)]

/-- A slew that has had time for the whole pending value adds just that. -/
theorem RidgeDom.slewOver_all {r : RidgeDom} (h : r.slewing = true) {n : Nat} (hn : r.pend.natAbs ≤ n * slewOffset r.rate) :
    r.slewOver n = r.pend := by
  simp only [RidgeDom.slewOver, h, Bool.not_true, Bool.false_eq_true, if_false, Nat.min_eq_right hn]
  split_ifs <;> omega

/-- A correction of the whole pending value ends the slew. -/
theorem RidgeDom.applied_pend (r : RidgeDom) :
    r.applied r.pend = { r with total := r.total + r.pend, pend := 0, slewing := false, named := none } := by
  simp [RidgeDom.applied]

theorem le_ceilDiv_mul (n : Nat) {d : Nat} (h : 0 < d) : n ≤ ceilDiv n d * d := by
  have e := Nat.div_add_mod (n + (d - 1)) d
  have l := Nat.mod_lt (n + (d - 1)) h
  rw [ceilDiv, Nat.mul_comm]
  omega

theorem State.slewOver_slewTicks (s : State) {d : Nat} (h : (s.dom d).slewing = true) (k : 0 < slewOffset (s.dom d).rate) :
    (s.dom d).slewOver (s.slewTicks d) = (s.dom d).pend :=
  RidgeDom.slewOver_all h (le_ceilDiv_mul _ k)

/-! ## The obligations on slews, steps by request and the idle tick -/

theorem execTimeSlew_checked {s : State} {w0 : Nat} (c : CmdRef) (corr w3 : Nat) (h : s.notHolder = false)
    (k : bits w0 0 1 = 1 → s.on F.RIDGE_CTL_B_EN = true) :
    execTimeSlew c w0 corr w3 s = if s.withinLimit (bits w0 0 1) (toS 64 corr) then
        done ((s.acceptSlew (bits w0 0 1) (toS 64 corr)
          (if bits w3 0 14 = 0 then none else some (min (bits w3 0 14) (s.dom (bits w0 0 1)).slewMax))).finish c Code.ok)
      else done (s.finish c Code.badParam) := by
  unfold execTimeSlew
  dsimp only
  rw [h, if_neg (by decide), if_neg (by simpa using k)]

/-- Settles O3: the checks before the jump limit pass, and that one refuses. -/
theorem timeSlewRefusedChangesNothing : Obligations.TimeSlewRefusedChangesNothing := by
  intro s c w0 corr w3 h k hl
  rw [Refuses, exec_timeSlew, execTimeSlew_checked c corr w3 h k, hl]
  rfl

/-- Step `q` waits, after those already accepted, for its beat edge. -/
def State.queueStep (s : State) (q : StepReq) : State := { s with ridge := { s.ridge with steps := s.ridge.steps ++ [q] } }

section
variable {s : State} {w0 : Nat} (c : CmdRef) (step : Nat) (h : s.notHolder = false)
  (k : bits w0 0 1 = 1 → s.on F.RIDGE_CTL_B_EN = true)
  (hr : bit w0 2 = true → s.stepNeeded (bits w0 0 1) = true) (hs : bit w0 2 = false → belowStepLimit (toS 64 step) = true)
include h k hr hs

/-- A checked TIME_STEP is queued and mirrored (R30). -/
theorem execTimeStep_checked : ∃ op edge p, execTimeStep c w0 step s = done ((s.queueStep
    { ref := c, dom := bits w0 0 1, applySec := bit w0 1, useReq := bit w0 2, step := toS 64 step }).mirrorCmd op edge p) := by
  unfold execTimeStep
  dsimp only
  rw [h, if_neg (by decide), if_neg (by simpa using k), if_neg (by simpa using hr), if_neg (by simpa using hs)]
  exact ⟨_, _, _, rfl⟩

theorem timeStep_settles :
    Settles (.timeStep c w0 step) s (fun u => u.ridge.steps = s.ridge.steps ++
      [{ ref := c, dom := bits w0 0 1, applySec := bit w0 1, useReq := bit w0 2, step := toS 64 step }] ∧
      (∀ f i, u.rd f i = s.rd f i) ∧ u.mem = s.mem ∧ u.host = s.host) := by
  obtain ⟨op, edge, p, e⟩ := execTimeStep_checked c step h k hr hs
  have m := MirrorOnly.mirrorCmd (s.queueStep
    { ref := c, dom := bits w0 0 1, applySec := bit w0 1, useReq := bit w0 2, step := toS 64 step }) op edge p
  exact ⟨_, e, congrArg RidgeSt.steps m.ridge, m.rd, m.mem, m.host⟩

end

/-- Settles O4: of the checks of a step of its own only that of its magnitude (R31) is open. -/
theorem timeStepIsLimitedByItsMagnitudeAlone : Obligations.TimeStepIsLimitedByItsMagnitudeAlone := by
  constructor
  · intro s c w0 step h k hu hs
    have q := timeStep_settles c step h k (fun hr => absurd hr (by simp [hu])) (fun _ => decide_eq_true hs)
    rwa [hu] at q
  · intro s c w0 step h k hu hs
    have hb : belowStepLimit (toS 64 step) = false := decide_eq_false (not_lt.2 hs)
    rw [Refuses, exec_timeStep]
    unfold execTimeStep
    dsimp only
    rw [h, if_neg (by decide), if_neg (by simpa using k), hu, hb]
    rfl

theorem toNat_sum_emod (a k b c x m : Nat) : (((a : Int) * k + b + c + x) % (m : Int)).toNat = (a * k + b + c + x) % m := by
  norm_cast

theorem State.ranTo_of_adds (s : State) {d n x : Nat} (h : (s.dom d).slewOver n = x) :
    s.ranTo d n = (s.count d * two40 + (s.dom d).frac + n * (s.dom d).addend + x) % (two64 * two40) := by
  rw [State.ranTo, h]
  exact toNat_sum_emod _ _ _ _ _ _

theorem step_idle {s : State} (h : s.pending = []) : step s = .next (s.runTicks 1) := by
  unfold step
  rw [h]

/-- Settles O50: each domain that runs has moved by itself alone, to what `ranTo` says of one tick. -/
theorem anEmptyQueueLetsOneTickPass : Obligations.AnEmptyQueueLetsOneTickPass := by
  refine ⟨fun s h => ?_, fun s d h hd hr hs => ?_, fun s d h hd hr hs hp => ?_, fun s d h hd hr => ?_⟩
  · obtain ⟨e, r⟩ := State.ticked_runTicks s 1
    exact ⟨_, step_idle h, e, State.runTicks_ticks s 1, r⟩
  · refine ⟨_, step_idle h, ?_⟩
    rw [State.count_frac_runTicks s hd hr, State.ranTo_of_adds s (x := 0) (RidgeDom.slewOver_idle hs 1), Nat.one_mul, Nat.add_zero]
  · refine ⟨_, step_idle h, ?_⟩
    rw [State.count_frac_runTicks s hd hr, State.ranTo_of_adds s (RidgeDom.slewOver_up hs hp 1), Nat.one_mul, Nat.one_mul]
  · exact ⟨_, step_idle h, State.count_runTicks_stopped s hd hr 1, State.dom_runTicks_stopped s hd hr 1⟩

/-! ### The slew commands -/

theorem State.regsBut_acceptSlew (s : State) (d : Nat) (x : Int) (named : Option Nat) :
    RegsBut s (s.acceptSlew d x named) (State.slewFlds d) := by
  obtain ⟨r, -, e⟩ := State.acceptSlew_eq_showSlew s d x named
  rw [e]
  exact (RegsBut.same (.refl s _) (State.setDom_regs s d r)).trans (State.regsBut_showSlew _ d)

theorem State.acceptSlew_eq (s : State) (d : Nat) (x : Int) (named : Option Nat) :
    { s with regs := (s.acceptSlew d x named).regs, ridge := (s.acceptSlew d x named).ridge } = s.acceptSlew d x named := by
  obtain ⟨r, -, e⟩ := State.acceptSlew_eq_showSlew s d x named
  rw [e, ← State.showSlew_eq, ← State.setDom_eq]

/-- An accepted slew adds its correction to what is pending in its domain, and shows it (R24, R29). -/
theorem State.pend_acceptSlew (s : State) (d : Nat) (x : Int) (named : Option Nat) :
    ((s.acceptSlew d x named).dom d).pend = (s.dom d).pend + x * two40 ∧
    (s.acceptSlew d x named).rd F.RIDGE_x_SLEW_REM_VALUE d = ofS 64 (((s.dom d).pend + x * two40).tdiv two40) % 2 ^ 64 := by
  obtain ⟨r, hr, e⟩ := State.acceptSlew_eq_showSlew s d x named
  rw [e, State.rd_showSlew_rem, State.dom_showSlew, State.dom_setDom, hr]
  exact ⟨rfl, rfl⟩

theorem State.dom_acceptSlew_other (s : State) {d e : Nat} (h : d = 0 ↔ e ≠ 0) (x : Int) (named : Option Nat) :
    (s.acceptSlew d x named).dom e = s.dom e := by
  obtain ⟨r, -, q⟩ := State.acceptSlew_eq_showSlew s d x named
  rw [q, State.dom_showSlew, State.dom_setDom_other s h]

/-- Settles O2: an accepted slew shows what is pending, and the ticks a slew still takes add just that. -/
theorem slewCommandsAnswer : Obligations.SlewCommandsAnswer := by
  refine ⟨fun s c w0 corr w3 h k hl => ?_, fun s c w0 corr w3 h => ?_, fun s c w0 corr w3 h hb hB => ?_,
    fun s d hd hp hr => ?_, fun s d hd hs hr ho => ?_⟩
  · have hd : bits w0 0 1 < 2 := bits_lt w0 0 1
    refine ⟨_, 0, 0, 0, by rw [exec_timeSlew, execTimeSlew_checked c corr w3 h k, if_pos hl]; rfl, ?_⟩
    exact ⟨(State.pend_acceptSlew s _ _ _).1, State.dom_acceptSlew_other s (by omega) _ _, (State.pend_acceptSlew s _ _ _).2,
      State.acceptSlew_eq s _ _ _, State.regsBut_acceptSlew s _ _ _⟩
  · rw [Refuses, exec_timeSlew, execTimeSlew, h]
    rfl
  · rw [Refuses, exec_timeSlew]
    unfold execTimeSlew
    dsimp only
    rw [h, if_neg (by decide), if_pos (by simp [hb, hB])]
    rfl
  · refine ⟨_, by rw [exec_slewStart, execSlewStart, Nat.mod_eq_of_lt hd, State.startSlew_of_pending s hp hr]; rfl, ?_⟩
    simp only [State.dom_setDom, State.dom_setDom_other s (d := d) (e := 1 - d) (by omega), State.setDom_eq, and_self]
  · refine ⟨s.runTicks (s.slewTicks d), ?_, ?_⟩
    · rw [exec_slewEnd, execSlewEnd, Nat.mod_eq_of_lt hd, if_pos hs]
      rfl
    · obtain ⟨e, r⟩ := State.ticked_runTicks s (s.slewTicks d)
      have hdom := State.dom_runTicks s hd hr (s.slewTicks d)
      rw [State.slewOver_slewTicks s hs ho, RidgeDom.applied_pend] at hdom
      exact ⟨by rw [hdom], by rw [hdom], State.runTicks_ticks s _, e, r⟩

end Sys2Proof.Machine

/-! ## What the block leaves of the Ridge

The Ridge is seen as its state without a register together with the entries of its register fields. Every operation outside the Ridge
leaves this view as it is; entering the safe state discards what waits there (R524); the loops change a domain's correction. -/

namespace Sys2Proof.Machine

/-- Field `f` lies outside the RIDGE block, whose fields are numbered 4 to 51. -/
def Fld.outside (f : Fld) : Bool := decide (f.no < 4) || decide (51 < f.no) && decide (f.no < 1024)

/-- The entries of the RIDGE block in a register store. -/
def ridgeRegs (l : List (Nat × Nat)) (k : Nat) : Option Nat := if 4 ≤ k % 1024 ∧ k % 1024 ≤ 51 then kvGet l k else none

/-- The Ridge: its state without a register, and the entries of its register fields. -/
structure RidgeView where
  ridge : RidgeSt
  reg : Nat → Option Nat

/-- The Ridge as it stands in `s`. -/
def State.ridgeView (s : State) : RidgeView := ⟨s.ridge, ridgeRegs s.regs⟩

theorem ridgeRegs_congr {l m : List (Nat × Nat)} (h : ∀ k, 4 ≤ k % 1024 → k % 1024 ≤ 51 → kvGet l k = kvGet m k) :
    ridgeRegs l = ridgeRegs m := by
  funext k
  unfold ridgeRegs
  split_ifs with hk
  · exact h k hk.1 hk.2
  · rfl

theorem kvGet_regsPut_ne (l : List (Nat × Nat)) {f : Fld} {i k : Nat} (h : k ≠ f.key i) (v : Nat) :
    kvGet (regsPut l f i v) k = kvGet l k := by
  simp only [regsPut]
  split_ifs
  · exact kvGet_kvDel_ne _ h
  · exact kvGet_kvPut_ne _ h _

theorem Fld.key_ne_of_outside {f : Fld} (hf : f.outside = true) {k : Nat} (h1 : 4 ≤ k % 1024) (h2 : k % 1024 ≤ 51) (i : Nat) :
    k ≠ f.key i := by
  simp only [Fld.outside, Bool.or_eq_true, Bool.and_eq_true, decide_eq_true_eq] at hf
  simp only [Fld.key]
  omega

/-- Two stores in which every field of the RIDGE block reads the same, whatever its reset value, hold the same entries for it. -/
theorem ridgeRegs_of_rd {s t : State} (h : ∀ f i, 4 ≤ f.no → f.no ≤ 51 → t.rd f i = s.rd f i) : ridgeRegs t.regs = ridgeRegs s.regs := by
  refine ridgeRegs_congr fun k h1 h2 => ?_
  have key : ∀ r, (Fld.mk (k % 1024) 0 0 .ro r []).key (k / 1024) = k := fun r => by simp only [Fld.key]; omega
  have e : ∀ r, (kvGet t.regs k).getD r = (kvGet s.regs k).getD r := fun r => by
    have := h ⟨k % 1024, 0, 0, .ro, r, []⟩ (k / 1024) h1 h2
    rwa [State.rd, State.rd, key] at this
  have e0 := e 0
  have e1 := e 1
  generalize kvGet t.regs k = x at e0 e1 ⊢
  generalize kvGet s.regs k = y at e0 e1 ⊢
  cases x <;> cases y <;> simp only [Option.getD_none, Option.getD_some] at e0 e1 <;> grind

namespace State
variable (s : State)

/-- A field of the RIDGE block reads what the view holds of it. -/
theorem rd_of_ridgeView {s t : State} (h : t.ridgeView = s.ridgeView) {f : Fld} (hf : f.outside = false) (h' : f.no < 1024) (i : Nat) :
    t.rd f i = s.rd f i := by
  have e := congrFun (congrArg RidgeView.reg h) (f.key i)
  simp only [Fld.outside, Bool.or_eq_false_iff, Bool.and_eq_false_iff, decide_eq_false_iff_not] at hf
  have hk : 4 ≤ f.key i % 1024 ∧ f.key i % 1024 ≤ 51 := by simp only [Fld.key]; omega
  simp only [ridgeView, ridgeRegs, if_pos hk] at e
  simp only [State.rd, e]

theorem ridgeView_congr {s t : State} (h : t.ridge = s.ridge) (k : t.regs = s.regs) : t.ridgeView = s.ridgeView := by
  simp only [ridgeView, h, k]

theorem ridge_of_ridgeView {s t : State} (h : t.ridgeView = s.ridgeView) : t.ridge = s.ridge := congrArg RidgeView.ridge h

/-- A state written out shows the Ridge of the two parts that hold it. -/
@[simp ↓] theorem ridgeView_mk (a b c d e f g h i j k l m n o p q r t u v w x y z) :
    (State.mk a b c d e f g h i j k l m n o p q r t u v w x y z).ridgeView = ⟨l, ridgeRegs b⟩ :=
  congrArg (RidgeView.mk l) rfl

theorem ridgeView_setEns (e : EnsSt) : { s with ens := e }.ridgeView = s.ridgeView := rfl
theorem ridgeView_setPair (e : PairSt) : { s with pair := e }.ridgeView = s.ridgeView := rfl

@[simp ↓] theorem mk_ridgeView : RidgeView.mk s.ridge (ridgeRegs s.regs) = s.ridgeView :=
  congrArg (RidgeView.mk s.ridge) rfl

@[simp ↓] theorem ridgeView_ite (c : Prop) [Decidable c] (s t : State) :
    (if c then s else t).ridgeView = if c then s.ridgeView else t.ridgeView := apply_ite _ _ _ _

/-- Of a choice between two views simp looks at the views alone: what decides it does not matter to them. -/
@[congr] theorem ite_ridgeView_congr {c : Prop} [Decidable c] {a a' b b' : RidgeView} (h : a = a') (k : b = b') :
    (if c then a else b) = if c then a' else b' := by rw [h, k]

theorem ridgeView_foldl_of_mem {α : Type} {f : State → α → State} {l : List α}
    (h : ∀ s, ∀ x ∈ l, (f s x).ridgeView = s.ridgeView) : (l.foldl f s).ridgeView = s.ridgeView := by
  induction l generalizing s with
  | nil => rfl
  | cons x t ih => exact (ih (f s x) fun s y hy => h s y (.tail _ hy)).trans (h s x (.head _))

theorem ridgeView_foldl {α : Type} {f : State → α → State} (h : ∀ s x, (f s x).ridgeView = s.ridgeView) (l : List α) :
    (l.foldl f s).ridgeView = s.ridgeView := ridgeView_foldl_of_mem s fun s x _ => h s x

theorem ridgeView_forN {f : State → Nat → State} (h : ∀ s i, (f s i).ridgeView = s.ridgeView) (n : Nat) :
    (forN n s f).ridgeView = s.ridgeView := ridgeView_foldl s h _

/-! ### Writes of fields outside the RIDGE block -/

section
variable {f : Fld} (hf : f.outside = true)
include hf

@[simp ↓] theorem ridgeView_wr (v i : Nat) : (s.wr f v i).ridgeView = s.ridgeView :=
  congrArg (RidgeView.mk s.ridge)
    (ridgeRegs_congr fun _ h1 h2 => kvGet_regsPut_ne _ (Fld.key_ne_of_outside hf h1 h2 i) v)

@[simp ↓] theorem ridgeView_rst (i : Nat) : (s.rst f i).ridgeView = s.ridgeView :=
  congrArg (RidgeView.mk s.ridge) (ridgeRegs_congr fun _ h1 h2 => kvGet_kvDel_ne _ (Fld.key_ne_of_outside hf h1 h2 i))

@[simp ↓] theorem ridgeView_wrS (v : Int) (i : Nat) : (s.wrS f v i).ridgeView = s.ridgeView := ridgeView_wr s hf _ i
@[simp ↓] theorem ridgeView_wrB (b : Bool) (i : Nat) : (s.wrB f b i).ridgeView = s.ridgeView := ridgeView_wr s hf _ i
@[simp ↓] theorem ridgeView_wrSat (v i : Nat) : (s.wrSat f v i).ridgeView = s.ridgeView := ridgeView_wr s hf _ i
@[simp ↓] theorem ridgeView_inc (i n : Nat) : (s.inc f i n).ridgeView = s.ridgeView := ridgeView_wr s hf _ i
@[simp ↓] theorem ridgeView_bump (i : Nat) : (s.bump f i).ridgeView = s.ridgeView := ridgeView_wr s hf _ i
@[simp ↓] theorem ridgeView_wrBit (b : Nat) (v : Bool) (i : Nat) : (s.wrBit f b v i).ridgeView = s.ridgeView := ridgeView_wr s hf _ i
@[simp ↓] theorem ridgeView_wrFree (i : Nat) : (s.wrFree f i).ridgeView = s.ridgeView := ridgeView_wr s.draw.2 hf _ i

@[simp ↓] theorem ridgeView_wrFit (q : Rat) (i : Nat) : (s.wrFit f q i).ridgeView = s.ridgeView := by
  unfold State.wrFit
  dsimp only
  split
  · exact ridgeView_wrS s hf _ i
  · exact ridgeView_wr s.draw.2 hf _ i

@[simp ↓] theorem ridgeView_rstAll (n : Nat) : (s.rstAll f n).ridgeView = s.ridgeView :=
  ridgeView_foldl s (fun s i => ridgeView_rst s hf i) _

end

@[simp ↓] theorem ridgeView_rstFlds {fs : List Fld} (h : fs.all Fld.outside = true) (i : Nat) :
    (s.rstFlds fs i).ridgeView = s.ridgeView := by
  induction fs generalizing s with
  | nil => rfl
  | cons f t ih =>
    simp only [List.all_cons, Bool.and_eq_true] at h
    exact (ih (s.rst f i) h.2).trans (ridgeView_rst s h.1 i)

/-! ### Memory, outputs and faults -/

@[simp ↓] theorem ridgeView_mwr (a n v : Nat) : (s.mwr a n v).ridgeView = s.ridgeView :=
  congrArg (RidgeView.mk s.ridge) rfl
@[simp ↓] theorem ridgeView_emit (o : Out) : (s.emit o).ridgeView = s.ridgeView := rfl
@[simp ↓] theorem ridgeView_draw : s.draw.2.ridgeView = s.ridgeView := rfl
@[simp ↓] theorem ridgeView_raise (fs n : Nat) : (s.raise fs n).ridgeView = s.ridgeView := rfl
@[simp ↓] theorem ridgeView_condOff (fs n : Nat) : (s.condOff fs n).ridgeView = s.ridgeView := rfl

@[simp ↓] theorem ridgeView_condOn (fs n : Nat) : (s.condOn fs n).ridgeView = s.ridgeView := by
  simp only [ridgeView, condOn_regs, condOn_ridge]

@[simp ↓] theorem ridgeView_cond (fs n : Nat) (b : Bool) : (s.cond fs b n).ridgeView = s.ridgeView := by
  cases b
  · exact ridgeView_condOff s fs n
  · exact ridgeView_condOn s fs n

/-! ### Answers and the mirror -/

theorem ridgeView_of_answered {s u : State} (h : Answered s u) : u.ridgeView = s.ridgeView := by
  have e : ridgeRegs u.regs = ridgeRegs s.regs := ridgeRegs_of_rd fun f i h1 h2 => h.rd (by omega) (fun g hg => by
    have : 51 < g.no := by revert g; decide
    omega) i
  simp only [ridgeView, e, h.ridge]

theorem ridgeView_of_mirrorOnly {s u : State} (h : MirrorOnly s u) : u.ridgeView = s.ridgeView := by
  simp only [ridgeView, h.regs, h.ridge]

@[simp ↓] theorem ridgeView_eventNow (code info : Nat) (p : List Nat) : (s.eventNow code info p).ridgeView = s.ridgeView :=
  ridgeView_of_answered (.eventNow s code info p)
@[simp ↓] theorem ridgeView_event (code info count : Nat) (p : List Nat) : (s.event code info count p).ridgeView = s.ridgeView :=
  ridgeView_of_answered (.event s code info count p)
@[simp ↓] theorem ridgeView_finish (r : CmdRef) (code r0 r1 n : Nat) : (s.finish r code r0 r1 n).ridgeView = s.ridgeView :=
  ridgeView_of_answered (.finish s r code r0 r1 n)
@[simp ↓] theorem ridgeView_finishAll (rs : List CmdRef) (code : Nat) : (s.finishAll rs code).ridgeView = s.ridgeView :=
  ridgeView_of_answered (.finishAll s rs code)
@[simp ↓] theorem ridgeView_mirrorCmd (op edge : Nat) (p : List Nat) : (s.mirrorCmd op edge p).ridgeView = s.ridgeView :=
  ridgeView_of_mirrorOnly (.mirrorCmd s op edge p)
@[simp ↓] theorem ridgeView_mirrorFrame (kind : Nat) (b : List Nat) : (s.mirrorFrame kind b).ridgeView = s.ridgeView :=
  ridgeView_of_mirrorOnly (.mirrorFrame s kind b)

/-! ### Launches, the token and the squelch -/

@[simp ↓] theorem ridgeView_setLqCtl (g k w : Nat) : (s.setLqCtl g k w).ridgeView = s.ridgeView := by
  unfold State.setLqCtl
  simp (disch := decide)

@[simp ↓] theorem ridgeView_showLq (g : Nat) : (s.showLq g).ridgeView = s.ridgeView := by
  unfold State.showLq
  dsimp only
  split <;> simp (disch := decide)

@[simp ↓] theorem ridgeView_lqEnd (g k result : Nat) (delta : Int) : (s.lqEnd g k result delta).ridgeView = s.ridgeView := by
  unfold State.lqEnd
  dsimp only
  simp (disch := decide)

@[simp ↓] theorem ridgeView_launchAbort : s.launchAbort.ridgeView = s.ridgeView := by
  unfold State.launchAbort
  dsimp only
  refine ridgeView_foldl _ (fun s x => ?_) _
  simp (disch := decide)

@[simp ↓] theorem ridgeView_pairMove (st : Nat) : (s.pairMove st).ridgeView = s.ridgeView := by
  unfold State.pairMove
  simp (disch := decide)

@[simp ↓] theorem ridgeView_pairEvent (old cause : Nat) : (s.pairEvent old cause).ridgeView = s.ridgeView := by
  unfold State.pairEvent
  simp (disch := decide)

@[simp ↓] theorem ridgeView_pairRelease (cause st : Nat) : (s.pairRelease cause st).ridgeView = s.ridgeView := by
  unfold State.pairRelease
  dsimp only
  simp (disch := decide)

@[simp ↓] theorem ridgeView_setSquelch (o : Nat) (b : Bool) : (s.setSquelch o b).ridgeView = s.ridgeView := by
  unfold State.setSquelch
  dsimp only
  simp (disch := decide)

@[simp ↓] theorem ridgeView_evalSquelch : s.evalSquelch.ridgeView = s.ridgeView :=
  ridgeView_forN s (fun s o => ridgeView_setSquelch s o _) 24

/-! ### What waits is dropped -/

@[simp ↓] theorem ridgeView_dropAnswers (f : Answer → Bool) : (s.dropAnswers f).ridgeView = s.ridgeView := by
  unfold State.dropAnswers
  dsimp only
  refine ridgeView_foldl _ (fun s x => ?_) _
  simp (disch := decide)

@[simp ↓] theorem ridgeView_showDropped : s.showDropped.ridgeView = s.ridgeView := by
  unfold State.showDropped
  dsimp only
  refine (ridgeView_forN _ (fun s q => ?_) 11).trans ?_ <;> simp (disch := decide)

/-! ### Fault collection -/

@[simp ↓] theorem ridgeView_snapWord (fs snap : Nat) (forced : Bool) : (s.snapWord fs snap forced).2.ridgeView = s.ridgeView := by
  unfold State.snapWord
  split <;> rfl

@[simp ↓] theorem ridgeView_writeRec (k fs sev snap : Nat) (forced escal : Bool) :
    (s.writeRec k fs sev snap forced escal).ridgeView = s.ridgeView := by
  unfold State.writeRec
  simp (disch := decide)

@[simp ↓] theorem ridgeView_tryRec (fs sev snap : Nat) (forced escal : Bool) : (s.tryRec fs sev snap forced escal).ridgeView = s.ridgeView := by
  unfold State.tryRec
  split <;> simp (disch := decide)

@[simp ↓] theorem ridgeView_countOcc (o : Occ) : (s.countOcc o).ridgeView = s.ridgeView := by
  unfold State.countOcc
  dsimp only
  simp (disch := decide)

@[simp ↓] theorem ridgeView_selfFault (fs : Nat) : (s.selfFault fs).ridgeView = s.ridgeView := by
  unfold State.selfFault
  simp (disch := decide)

@[simp ↓] theorem ridgeView_escalate (p : Nat × Nat) : (s.escalate p).ridgeView = s.ridgeView := by
  unfold State.escalate
  dsimp only
  simp (disch := decide)

@[simp ↓] theorem ridgeView_fcuPhase4 : s.fcuPhase4.ridgeView = s.ridgeView := by
  unfold State.fcuPhase4
  dsimp only
  refine ridgeView_foldl _ (fun s x => ?_) _
  simp (disch := decide)

@[simp ↓] theorem ridgeView_fcuSecond : s.fcuSecond.ridgeView = s.ridgeView := by
  unfold State.fcuSecond
  simp (disch := decide)

@[simp ↓] theorem ridgeView_countMark : s.countMark.ridgeView = s.ridgeView := by
  unfold State.countMark
  dsimp only
  simp (disch := decide)

/-! ### Edge measurement -/

@[simp ↓] theorem ridgeView_setTch (n : Nat) (c : TdcCh) : (s.setTch n c).ridgeView = s.ridgeView := by
  unfold State.setTch
  simp (disch := decide)

@[simp ↓] theorem ridgeView_publish (n : Nat) (c : ClosingGate) : (s.publish n c).ridgeView = s.ridgeView := by
  unfold State.publish
  dsimp only
  simp (disch := decide)

@[simp ↓] theorem ridgeView_endGate (n : Nat) (step : Bool) : (s.endGate n step).ridgeView = s.ridgeView := by
  unfold State.endGate
  dsimp only
  split <;> simp (disch := decide)

@[simp ↓] theorem ridgeView_endDueGates (k : Nat) : (s.endDueGates k).ridgeView = s.ridgeView := by
  refine ridgeView_forN s (fun s n => ?_) 48
  simp (disch := decide)

@[simp ↓] theorem ridgeView_publishAll : s.publishAll.ridgeView = s.ridgeView := by
  refine ridgeView_forN s (fun s n => ?_) 48
  dsimp only
  split <;> simp (disch := decide)

/-! ### Thatch -/

@[simp ↓] theorem ridgeView_setSlot (n : Nat) (e : EnsSlot) : (s.setSlot n e).ridgeView = s.ridgeView := by
  unfold State.setSlot
  simp (disch := decide)

@[simp ↓] theorem ridgeView_moveSlot (n st : Nat) : (s.moveSlot n st).ridgeView = s.ridgeView := by
  unfold State.moveSlot
  dsimp only
  simp (disch := decide)

@[simp ↓] theorem ridgeView_toCandidate (n : Nat) : (s.toCandidate n).ridgeView = s.ridgeView := by
  unfold State.toCandidate
  simp (disch := decide)

@[simp ↓] theorem ridgeView_dropMember (n : Nat) : (s.dropMember n).ridgeView = s.ridgeView := by
  unfold State.dropMember
  dsimp only
  simp (disch := decide)

@[simp ↓] theorem ridgeView_qualify (n : Nat) : (s.qualify n).ridgeView = s.ridgeView := by
  unfold State.qualify
  dsimp only
  simp (disch := decide)

@[simp ↓] theorem ridgeView_slotConfigFail (n : Nat) : (s.slotConfigFail n).ridgeView = s.ridgeView := by
  unfold State.slotConfigFail
  dsimp only
  simp (disch := decide)

@[simp ↓] theorem ridgeView_slotEnable (n : Nat) : (s.slotEnable n).ridgeView = s.ridgeView := by
  unfold State.slotEnable
  dsimp only
  simp (disch := decide)

@[simp ↓] theorem ridgeView_slotDisable (n : Nat) : (s.slotDisable n).ridgeView = s.ridgeView := by
  unfold State.slotDisable
  simp (disch := decide)

@[simp ↓] theorem ridgeView_disqualify (n cause : Nat) : (s.disqualify n cause).ridgeView = s.ridgeView := by
  unfold State.disqualify
  dsimp only
  simp (disch := decide)

@[simp ↓] theorem ridgeView_requalify (n : Nat) : (s.requalify n).ridgeView = s.ridgeView := by
  unfold State.requalify
  simp (disch := decide)

@[simp ↓] theorem ridgeView_readSlot (r : State × List Obs) (n : Nat) : (State.readSlot r n).1.ridgeView = r.1.ridgeView := by
  unfold State.readSlot
  extract_lets s₀ s₁ o e s₂ cause s₃
  have h₁ : s₁.ridgeView = r.1.ridgeView := by unfold s₁; split <;> simp (disch := decide) [s₀]
  have h₃ : s₃.ridgeView = r.1.ridgeView := by unfold s₃ s₂; simp (disch := decide) [h₁]
  split_ifs
  · rfl
  · exact h₃
  · exact (ridgeView_disqualify s₃ n cause).trans h₃
  · clear_value o
    split
    · exact h₃
    · exact (ridgeView_wrB s₃ (by decide) _ n).trans h₃

theorem ridgeView_readSlots (l : List Nat) (r : State × List Obs) : (l.foldl State.readSlot r).1.ridgeView = r.1.ridgeView := by
  induction l generalizing r with
  | nil => rfl
  | cons n t ih => exact (ih _).trans (ridgeView_readSlot r n)

@[simp ↓] theorem ridgeView_stepTarget (d : Nat) (v : Rat) : (s.stepTarget d v).ridgeView = s.ridgeView := by
  unfold State.stepTarget
  dsimp only
  simp (disch := decide)

@[simp ↓] theorem ridgeView_traceStep (d : Nat) : (s.traceStep d).ridgeView = s.ridgeView := by
  unfold State.traceStep
  dsimp only
  split <;> simp (disch := decide)

@[simp ↓] theorem ridgeView_advanceRamps : s.advanceRamps.ridgeView = s.ridgeView := by
  unfold State.advanceRamps
  dsimp only
  refine ridgeView_foldl _ (fun s x => ?_) _
  simp (disch := decide)

@[simp ↓] theorem ridgeView_noteOutlier (o : Obs) (out : Bool) : (s.noteOutlier o out).ridgeView = s.ridgeView := by
  unfold State.noteOutlier
  dsimp only
  simp (disch := decide)

@[simp ↓] theorem ridgeView_updateModels (dts : List Nat) (obs : List Obs) : (s.updateModels dts obs).ridgeView = s.ridgeView := by
  unfold State.updateModels
  extract_lets s₁ old new zp isMember rest c₁ z₁ k isOut c₂ w₂ z dz wt outs slots' nu₁₁ e₁ s₂ fz e₂ s₃ s₄ s₅ e₃ s₆ s₇ s₈ s₉ s₁₀ a e₄
  have h₂ : s₂.ridgeView = s.ridgeView := (ridgeView_setEns s₁ _).trans (ridgeView_advanceRamps s)
  have h₃ : s₃.ridgeView = s.ridgeView := (ridgeView_setEns s₂ _).trans h₂
  have h₅ : s₅.ridgeView = s₃.ridgeView := (ridgeView_traceStep s₄ 1).trans (ridgeView_traceStep s₃ 0)
  have h₆ : s₆.ridgeView = s.ridgeView := (ridgeView_setEns s₅ _).trans (h₅.trans h₃)
  have h₇ : s₇.ridgeView = s₆.ridgeView := ridgeView_foldl s₆ (fun s (o : Obs) => ridgeView_setSlot s o.n _) _
  have h₈ : s₈.ridgeView = s₇.ridgeView := ridgeView_foldl s₇ (fun s (o : Obs) => ridgeView_noteOutlier s o _) _
  have h₉ : s₉.ridgeView = s₈.ridgeView := ridgeView_foldl s₈ (fun s (o : Obs) => ridgeView_noteOutlier s o _) _
  have h₁₀ : s₁₀.ridgeView = s₉.ridgeView := ridgeView_forN s₉ (fun s n => ridgeView_wr s (by decide) _ n) 24
  exact (ridgeView_setEns s₁₀ _).trans <| h₁₀.trans (h₉.trans (h₈.trans (h₇.trans h₆)))

@[simp ↓] theorem ridgeView_lateTests (obs : List Obs) : (s.lateTests obs).ridgeView = s.ridgeView := by
  unfold State.lateTests
  dsimp only
  refine ridgeView_foldl _ (fun s x => ?_) _
  simp (disch := decide)

@[simp ↓] theorem ridgeView_loseVote (n : Nat) : (s.loseVote n).ridgeView = s.ridgeView := by
  unfold State.loseVote
  simp (disch := decide)

@[simp ↓] theorem ridgeView_bothDisputed (i j : Nat) : (s.bothDisputed i j).ridgeView = s.ridgeView := by
  unfold State.bothDisputed
  dsimp only
  simp (disch := decide)

@[simp ↓] theorem ridgeView_dropDispute (i j : Nat) : (s.dropDispute i j).ridgeView = s.ridgeView := by
  unfold State.dropDispute
  simp (disch := decide)

@[simp ↓] theorem ridgeView_leaveDispute (n : Nat) : (s.leaveDispute n).ridgeView = s.ridgeView := by
  unfold State.leaveDispute
  simp (disch := decide)

@[simp ↓] theorem ridgeView_settleOld (d : Dispute) : (s.settleOld d).ridgeView = s.ridgeView := by
  unfold State.settleOld
  dsimp only
  simp (disch := decide)

@[simp ↓] theorem ridgeView_settlePair (i j : Nat) : (s.settlePair i j).ridgeView = s.ridgeView := by
  unfold State.settlePair
  dsimp only
  split <;> simp (disch := decide)

@[simp ↓] theorem ridgeView_settleDisputes : s.settleDisputes.ridgeView = s.ridgeView := by
  refine ridgeView_forN s (fun s i => ridgeView_forN s (fun s j => ?_) 24) 24
  simp (disch := decide)

@[simp ↓] theorem ridgeView_qualified (n : Nat) : (s.qualified n).ridgeView = s.ridgeView := by
  unfold State.qualified
  dsimp only
  simp (disch := decide)

@[simp ↓] theorem ridgeView_advanceTimers : s.advanceTimers.ridgeView = s.ridgeView := by
  unfold State.advanceTimers
  dsimp only
  refine ridgeView_foldl _ (fun s x => ?_) _
  simp (disch := decide)

@[simp ↓] theorem ridgeView_fillPlaces (n : Nat) : (State.fillPlaces n s).ridgeView = s.ridgeView := by
  induction n generalizing s with
  | zero => rfl
  | succ n ih =>
    unfold State.fillPlaces
    split
    · rfl
    · split
      · rfl
      · exact (ih _).trans (by simp (disch := decide))

@[simp ↓] theorem ridgeView_startExit (n : Nat) : (s.startExit n).ridgeView = s.ridgeView := by
  unfold State.startExit
  dsimp only
  simp (disch := decide)

@[simp ↓] theorem ridgeView_startReplacement : s.startReplacement.ridgeView = s.ridgeView := by
  unfold State.startReplacement
  split
  · rfl
  · split
    · simp (disch := decide)
    · rfl

@[simp ↓] theorem ridgeView_endExit (n : Nat) : (s.endExit n).ridgeView = s.ridgeView := by
  unfold State.endExit
  dsimp only
  simp (disch := decide)

@[simp ↓] theorem ridgeView_selectMembers : s.selectMembers.ridgeView = s.ridgeView := by
  unfold State.selectMembers
  extract_lets s₁ s₂ s₃
  have h₁ : s₁.ridgeView = s.ridgeView := ridgeView_foldl s (fun s n => by simp (disch := decide)) _
  have h₃ : s₃.ridgeView = s₁.ridgeView := (ridgeView_startReplacement s₂).trans (ridgeView_fillPlaces s₁ 24)
  refine (ridgeView_foldl s₃ (fun s n => ?_) _).trans (h₃.trans h₁)
  split <;> simp (disch := decide)

@[simp ↓] theorem ridgeView_moveDom (d st : Nat) : (s.moveDom d st).ridgeView = s.ridgeView := by
  unfold State.moveDom
  by_cases h : d = 0 <;> simp (disch := decide) [h]

@[simp ↓] theorem ridgeView_setLockBeats (d n : Nat) : (s.setLockBeats d n).ridgeView = s.ridgeView := by
  unfold State.setLockBeats
  dsimp only
  simp (disch := decide)

@[simp ↓] theorem ridgeView_align (d : Nat) : (s.align d).ridgeView = s.ridgeView := by
  unfold State.align
  extract_lets s₁ e s₂
  have h₁ : s₁.ridgeView = s.ridgeView := by unfold s₁; split <;> simp (disch := decide)
  have h₂ : s₂.ridgeView = s₁.ridgeView := by unfold s₂; split <;> exact ridgeView_setEns s₁ _
  exact (ridgeView_moveDom _ d _).trans ((ridgeView_setLockBeats s₂ d 0).trans (h₂.trans h₁))

@[simp ↓] theorem ridgeView_loseTrace (d : Nat) : (s.loseTrace d).ridgeView = s.ridgeView := by
  unfold State.loseTrace
  simp (disch := decide)

@[simp ↓] theorem ridgeView_stepDom (d : Nat) : (s.stepDom d).ridgeView = s.ridgeView := by
  unfold State.stepDom
  dsimp only
  simp (disch := decide)

@[simp ↓] theorem ridgeView_showSlot (n : Nat) : (s.showSlot n).ridgeView = s.ridgeView := by
  unfold State.showSlot
  dsimp only
  simp (disch := decide)

@[simp ↓] theorem ridgeView_publishEns : s.publishEns.ridgeView = s.ridgeView := by
  unfold State.publishEns
  have h : ∀ t : State, (forN 24 t State.showSlot).ridgeView = t.ridgeView := fun t => ridgeView_forN t ridgeView_showSlot 24
  simp (disch := decide) [↓h]

@[simp ↓] theorem ridgeView_applyRanks : s.applyRanks.ridgeView = s.ridgeView := by
  unfold State.applyRanks
  dsimp only
  refine ridgeView_foldl _ (fun s x => ?_) _
  simp (disch := decide)

@[simp ↓] theorem ridgeView_thatchPhase2 : s.thatchPhase2.ridgeView = s.ridgeView := by
  unfold State.thatchPhase2
  simp (disch := decide) [↓ridgeView_readSlots]

@[simp ↓] theorem ridgeView_thatchStart : s.thatchStart.ridgeView = s.ridgeView := by
  unfold State.thatchStart
  dsimp only
  refine ridgeView_foldl _ (fun s x => ?_) _
  simp (disch := decide)

@[simp ↓] theorem ridgeView_thatchStop : s.thatchStop.ridgeView = s.ridgeView := by
  unfold State.thatchStop
  have h : ∀ t : State, (forN 24 t State.slotDisable).ridgeView = t.ridgeView := fun t => ridgeView_forN t ridgeView_slotDisable 24
  simp (disch := decide) [↓h]

@[simp ↓] theorem ridgeView_thatchEdge : s.thatchEdge.ridgeView = s.ridgeView := by
  unfold State.thatchEdge
  dsimp only
  simp (disch := decide)

/-! ### Eaves -/

@[simp ↓] theorem ridgeView_setEav (d : Nat) (e : EavesDom) : (s.setEav d e).ridgeView = s.ridgeView := by
  unfold State.setEav
  dsimp only
  simp (disch := decide)

@[simp ↓] theorem ridgeView_sourceTerms (d : Nat) : (s.sourceTerms d).ridgeView = s.ridgeView := by
  unfold State.sourceTerms
  dsimp only
  split <;> simp (disch := decide)

@[simp ↓] theorem ridgeView_uncharacterised (d : Nat) : (s.uncharacterised d).ridgeView = s.ridgeView := by
  unfold State.uncharacterised
  dsimp only
  refine ridgeView_foldl _ (fun s x => ?_) _
  simp (disch := decide)

@[simp ↓] theorem ridgeView_beginHoldover (d : Nat) : (s.beginHoldover d).ridgeView = s.ridgeView := by
  unfold State.beginHoldover
  dsimp only
  simp (disch := decide)

@[simp ↓] theorem ridgeView_endHoldover (d : Nat) : (s.endHoldover d).ridgeView = s.ridgeView := by
  unfold State.endHoldover
  dsimp only
  simp (disch := decide)

@[simp ↓] theorem ridgeView_ageHoldover (d : Nat) : (s.ageHoldover d).ridgeView = s.ridgeView := by
  unfold State.ageHoldover
  dsimp only
  simp (disch := decide)

@[simp ↓] theorem ridgeView_holdTerm (d : Nat) : (s.holdTerm d).ridgeView = s.ridgeView := by
  unfold State.holdTerm
  dsimp only
  simp (disch := decide)

@[simp ↓] theorem ridgeView_dropLearned : s.dropLearned.ridgeView = s.ridgeView := by
  unfold State.dropLearned
  dsimp only
  simp (disch := decide)

@[simp ↓] theorem ridgeView_eavesAligned (d : Nat) : (s.eavesAligned d).ridgeView = s.ridgeView := by
  unfold State.eavesAligned
  dsimp only
  simp (disch := decide)

@[simp ↓] theorem ridgeView_padBound (d raw : Nat) : (s.padBound d raw).ridgeView = s.ridgeView := by
  unfold State.padBound
  dsimp only
  simp (disch := decide)

@[simp ↓] theorem ridgeView_showWithheld (d : Nat) : (s.showWithheld d).ridgeView = s.ridgeView := by
  unfold State.showWithheld
  dsimp only
  simp (disch := decide)

@[simp ↓] theorem ridgeView_tracePath (d : Nat) : (s.tracePath d).ridgeView = s.ridgeView := by
  unfold State.tracePath
  dsimp only
  simp (disch := decide)

@[simp ↓] theorem ridgeView_domBound (d : Nat) : (s.domBound d).ridgeView = s.ridgeView := by
  unfold State.domBound
  dsimp only
  simp (disch := decide)

@[simp ↓] theorem ridgeView_eavesPhase3 (temp : Int) : (s.eavesPhase3 temp).ridgeView = s.ridgeView := by
  unfold State.eavesPhase3
  dsimp only
  simp (disch := decide)

@[simp ↓] theorem ridgeView_eavesMiss (d : Nat) : (s.eavesMiss d).ridgeView = s.ridgeView := by
  unfold State.eavesMiss
  dsimp only
  simp (disch := decide)

@[simp ↓] theorem ridgeView_expireRecords : s.expireRecords.ridgeView = s.ridgeView := by
  unfold State.expireRecords
  dsimp only
  refine ridgeView_foldl _ (fun s x => ?_) _
  simp (disch := decide)

/-! ### Loops and oscillators -/

@[simp ↓] theorem ridgeView_setDpl (n : Nat) (l : DpllSt) : (s.setDpl n l).ridgeView = s.ridgeView := by
  unfold State.setDpl
  simp (disch := decide)

@[simp ↓] theorem ridgeView_moveDpll (n st : Nat) : (s.moveDpll n st).ridgeView = s.ridgeView := by
  unfold State.moveDpll
  dsimp only
  simp (disch := decide)

@[simp ↓] theorem ridgeView_takeLaw (n : Nat) (o : LawOut) : (s.takeLaw n o).ridgeView = s.ridgeView := by
  unfold State.takeLaw
  dsimp only
  simp (disch := decide)

@[simp ↓] theorem ridgeView_showValid (n : Nat) : (s.showValid n).ridgeView = s.ridgeView := by
  refine ridgeView_forN s (fun s e => ?_) 4
  simp (disch := decide)

@[simp ↓] theorem ridgeView_loopMonitors : s.loopMonitors.ridgeView = s.ridgeView := by
  unfold State.loopMonitors
  dsimp only
  refine ridgeView_foldl _ (fun s x => ?_) _
  simp (disch := decide)

@[simp ↓] theorem ridgeView_loopRefused {en : Fld} (h : en.outside = true) (i block : Nat) :
    (s.loopRefused en i block).ridgeView = s.ridgeView := ridgeView_wr s h 0 i

@[simp ↓] theorem ridgeView_dpllStart (n : Nat) : (s.dpllStart n).ridgeView = s.ridgeView := by
  unfold State.dpllStart
  dsimp only
  simp (disch := decide)

@[simp ↓] theorem ridgeView_dpllStopped (n : Nat) : (s.dpllStopped n).ridgeView = s.ridgeView := by
  unfold State.dpllStopped
  dsimp only
  simp (disch := decide)

@[simp ↓] theorem ridgeView_oscPhase3 : s.oscPhase3.ridgeView = s.ridgeView := by
  unfold State.oscPhase3
  dsimp only
  refine ridgeView_foldl _ (fun s x => ?_) _
  simp (disch := decide)

/-! ### The receiver -/

@[simp ↓] theorem ridgeView_setGnss (g : GnssSt) : (s.setGnss g).ridgeView = s.ridgeView := by
  unfold State.setGnss
  simp (disch := decide)

@[simp ↓] theorem ridgeView_showCh : s.showCh.ridgeView = s.ridgeView := by
  unfold State.showCh
  simp (disch := decide)

@[simp ↓] theorem ridgeView_setCh (c : GnssCh) : (s.setCh c).ridgeView = s.ridgeView := by
  unfold State.setCh
  simp (disch := decide)

@[simp ↓] theorem ridgeView_writeRecord (ep : EpochSt) (seq : Nat) (m : List Nat) : (s.writeRecord ep seq m).ridgeView = s.ridgeView := by
  unfold State.writeRecord
  dsimp only
  split <;> simp (disch := decide)

@[simp ↓] theorem ridgeView_gnssRecords (ms : List (List Nat)) : (s.gnssRecords ms).ridgeView = s.ridgeView := by
  unfold State.gnssRecords
  split
  · rfl
  · next ep _ =>
    extract_lets s₁ s₂ eph g
    have h₂ : s₂.ridgeView = s₁.ridgeView := ridgeView_foldl s₁ (fun s m => ridgeView_writeRecord s ep _ m) _
    exact (ridgeView_setGnss s₂ _).trans (h₂.trans ((ridgeView_wr _ (by decide) _ 0).trans (ridgeView_bump s (by decide) 0)))

@[simp ↓] theorem ridgeView_gnssBeat0 : s.gnssBeat0.ridgeView = s.ridgeView := by
  unfold State.gnssBeat0
  simp (disch := decide)

/-! ### Ports and packet timing -/

@[simp ↓] theorem ridgeView_setPtpState (i p st : Nat) : (s.setPtpState i p st).ridgeView = s.ridgeView := by
  unfold State.setPtpState
  split <;> simp (disch := decide)

@[simp ↓] theorem ridgeView_showPtpPort (p : Nat) : (s.showPtpPort p).ridgeView = s.ridgeView := by
  unfold State.showPtpPort
  simp (disch := decide)

@[simp ↓] theorem ridgeView_fecBeat (q : Nat × Nat × Nat) : (s.fecBeat q).ridgeView = s.ridgeView := by
  unfold State.fecBeat
  dsimp only
  simp (disch := decide)

@[simp ↓] theorem ridgeView_prbsUnlock : s.prbsUnlock.ridgeView = s.ridgeView := by
  unfold State.prbsUnlock
  simp (disch := decide)

@[simp ↓] theorem ridgeView_prbsBeat (q : Nat × Nat) : (s.prbsBeat q).ridgeView = s.ridgeView := by
  unfold State.prbsBeat
  dsimp only
  simp (disch := decide)

@[simp ↓] theorem ridgeView_noteUtc : s.noteUtc.ridgeView = s.ridgeView := by
  unfold State.noteUtc
  dsimp only
  simp (disch := decide)

@[simp ↓] theorem ridgeView_showInst (i : Nat) : (s.showInst i).ridgeView = s.ridgeView := by
  unfold State.showInst
  dsimp only
  simp (disch := decide)

@[simp ↓] theorem ridgeView_showPtp : s.showPtp.ridgeView = s.ridgeView := by
  refine (ridgeView_forN _ ridgeView_showPtpPort 32).trans ?_
  simp (disch := decide)

@[simp ↓] theorem ridgeView_takeSequences : s.takeSequences.ridgeView = s.ridgeView := by
  unfold State.takeSequences
  dsimp only
  refine ridgeView_foldl _ (fun s x => ?_) _
  simp (disch := decide)

/-! ### Franking, upkeep, Noryr and outputs -/

@[simp ↓] theorem ridgeView_showFrank : s.showFrank.ridgeView = s.ridgeView := by
  unfold State.showFrank
  simp (disch := decide)

@[simp ↓] theorem ridgeView_scrubBeat : s.scrubBeat.ridgeView = s.ridgeView := by
  unfold State.scrubBeat
  dsimp only
  simp (disch := decide)

@[simp ↓] theorem ridgeView_cutTests : s.cutTests.ridgeView = s.ridgeView := by
  unfold State.cutTests
  simp (disch := decide)

@[simp ↓] theorem ridgeView_norBeat : s.norBeat.ridgeView = s.ridgeView := by
  unfold State.norBeat
  extract_lets s₁ s₂
  have h₁ : s₁.ridgeView = s.ridgeView := ridgeView_foldl s (fun s q => by split <;> simp (disch := decide)) _
  have h₂ : s₂.ridgeView = s₁.ridgeView := by unfold s₂; split <;> simp (disch := decide)
  exact h₂.trans h₁

@[simp ↓] theorem ridgeView_setPps (j : Nat) (p : PpsSt) : (s.setPps j p).ridgeView = s.ridgeView := by
  unfold State.setPps
  simp (disch := decide)

@[simp ↓] theorem ridgeView_alignChecks (l : List (Nat × Nat)) : (s.alignChecks l).ridgeView = s.ridgeView := by
  unfold State.alignChecks
  dsimp only
  refine ridgeView_foldl _ (fun s x => ?_) _
  simp (disch := decide)

/-! ### The pair -/

theorem ridgeView_loadReg (p : Fld → Bool) {r : RegDef} (h : r.flds.all Fld.outside = true) (i w : Nat) :
    (s.loadReg p r i w).ridgeView = s.ridgeView :=
  ridgeView_foldl_of_mem s (fun s _ hf => ridgeView_wr s (List.all_eq_true.mp h _ (List.mem_of_mem_filter hf)) _ i)

/-- The image of Thatch holds no register of the RIDGE block. -/
theorem outside_of_mem_imageRegs {p : RegDef × Nat} (h : p ∈ imageRegs) : p.1.flds.all Fld.outside = true := by
  have all : ∀ r ∈ mapENS0 ++ mapENS1 ++ mapENS2 ++ mapEAVES0 ++ mapEAVES1 ++ mapEAVES2, r.flds.all Fld.outside = true := by decide
  obtain ⟨r, hr, hp⟩ := List.mem_flatMap.mp (List.mem_of_mem_filter h)
  obtain ⟨i, -, rfl⟩ := List.mem_map.mp hp
  exact all r hr

@[simp ↓] theorem ridgeView_pairSync : s.pairSync.ridgeView = s.ridgeView := by
  unfold State.pairSync
  dsimp only
  simp (disch := decide)

@[simp ↓] theorem ridgeView_pairSearch : s.pairSearch.ridgeView = s.ridgeView := by
  unfold State.pairSearch
  simp (disch := decide)

@[simp ↓] theorem ridgeView_takeOfs : s.takeOfs.ridgeView = s.ridgeView := by
  unfold State.takeOfs
  dsimp only
  simp (disch := decide)

@[simp ↓] theorem ridgeView_pairPhase2 : s.pairPhase2.ridgeView = s.ridgeView := by
  unfold State.pairPhase2
  dsimp only
  split <;> simp (disch := decide)

@[simp ↓] theorem ridgeView_loadModels (img : List Nat) : (s.loadModels img).ridgeView = s.ridgeView := by
  unfold State.loadModels
  simp (disch := decide) only [↓ridgeView_mk, ↓mk_ridgeView]
  exact ridgeView_forN s (fun s n => ridgeView_setSlot s n _) 24

@[simp ↓] theorem ridgeView_loadImage (img : List Nat) : (s.loadImage img).ridgeView = s.ridgeView := by
  unfold State.loadImage
  dsimp only
  refine (ridgeView_loadModels _ _).trans ((ridgeView_forN _ (fun s k => ?_) 3).trans ?_)
  · simp (disch := decide)
  refine ridgeView_foldl_of_mem s (fun s p hp => ?_)
  rw [ridgeView_ite, ridgeView_loadReg _ _ (outside_of_mem_imageRegs hp), ite_self]

@[simp ↓] theorem ridgeView_carryModels (n : Nat) : (State.carryModels n s).ridgeView = s.ridgeView := by
  induction n generalizing s with
  | zero => rfl
  | succ n ih => exact ih _

@[simp ↓] theorem ridgeView_pairTake (cause : Nat) : (s.pairTake cause).ridgeView = s.ridgeView := by
  unfold State.pairTake
  extract_lets old own part age s₁ s₂ s₃ p s₄ q s₅ s₆ s₇ s₈ s₉
  have h₇ : s₇.ridgeView = s.ridgeView := by unfold s₇ s₆ s₅ s₄ s₃ s₂ s₁; simp (disch := decide)
  have h₈ : s₈.ridgeView = s₇.ridgeView := ridgeView_foldl s₇ (fun s _ => by simp (disch := decide)) _
  have h₉ : s₉.ridgeView = s₈.ridgeView := by unfold s₉; simp (disch := decide)
  simp (disch := decide) [h₇, h₈, h₉]

@[simp ↓] theorem ridgeView_mirrorMany (kind k n : Nat) (l : List (List Nat)) :
    (State.mirrorMany kind k n s l).ridgeView = s.ridgeView := by
  induction n generalizing s l with
  | zero => rfl
  | succ n ih =>
    unfold State.mirrorMany
    split
    · rfl
    · exact (ih _ _).trans (ridgeView_mirrorFrame s _ _)

@[simp ↓] theorem ridgeView_pairPhase4 : s.pairPhase4.ridgeView = s.ridgeView := by
  unfold State.pairPhase4
  have h : ∀ (t : State) (img : List Nat), (forN 10 t (fun s k =>
      s.mirrorFrame 1 ((k + 10 * 256) :: bytesWords 56 ((img.drop (224 * k)).take 224)))).ridgeView = t.ridgeView :=
    fun t img => ridgeView_forN t (fun s k => ridgeView_mirrorFrame s _ _) 10
  dsimp only
  simp (disch := decide) [↓h]

@[simp ↓] theorem ridgeView_doubleHold (status : Bool) : (s.doubleHold status).ridgeView = s.ridgeView := by
  unfold State.doubleHold
  dsimp only
  split <;> simp (disch := decide)

@[simp ↓] theorem ridgeView_mirrorEdge : s.mirrorEdge.ridgeView = s.ridgeView := by
  unfold State.mirrorEdge
  extract_lets s₁ s₂
  have h₁ : s₁.ridgeView = s.ridgeView := ridgeView_foldl s (fun s e => by simp (disch := decide)) _
  have h₂ : s₂.ridgeView = s.ridgeView := (ridgeView_wr s₁ (by decide) 0 0).trans h₁
  split
  · rfl
  · split
    · split <;> simp (disch := decide) [h₂]
    · simp (disch := decide) [h₁]

@[simp ↓] theorem ridgeView_showMatch : s.showMatch.ridgeView = s.ridgeView := by
  unfold State.showMatch
  dsimp only
  simp (disch := decide)

@[simp ↓] theorem ridgeView_pairTable : s.pairTable.ridgeView = s.ridgeView := by
  unfold State.pairTable
  dsimp only
  simp (disch := decide)

@[simp ↓] theorem ridgeView_wtrBeat : s.wtrBeat.ridgeView = s.ridgeView := by
  unfold State.wtrBeat
  dsimp only
  simp (disch := decide)

@[simp ↓] theorem ridgeView_pairEdge : s.pairEdge.ridgeView = s.ridgeView := by
  unfold State.pairEdge
  extract_lets st bma p₁ s₁ s₂ s₃ s₄ p₂ s₅ s₆ p₃ s₇ s₈ s₉ s₁₀ s₁₁ p₄ s₁₂ s₁₃ s₁₄ s₁₅ p₅
  have h₄ : s₄.ridgeView = s.ridgeView := by
    unfold s₄ s₃ s₂; simp (disch := decide) only [↓ridgeView_wr, ↓ridgeView_wrB]; exact ridgeView_setPair s _
  have h₆ : s₆.ridgeView = s₅.ridgeView := by unfold s₆; simp (disch := decide)
  have h₁₁ : s₁₁.ridgeView = s₇.ridgeView := by unfold s₁₁ s₁₀ s₉ s₈; simp (disch := decide)
  have h₁₃ : s₁₃.ridgeView = s₁₁.ridgeView := by
    unfold s₁₃; simp (disch := decide) only [↓ridgeView_ite, ↓ridgeView_pairTake, ite_self]; exact ridgeView_setPair s₁₁ _
  have h₁₄ : s₁₄.ridgeView = s₁₁.ridgeView := by
    unfold s₁₄
    split
    · rfl
    · exact (ridgeView_finishAll s₁₃ _ _).trans h₁₃
  split
  · exact ridgeView_setPair s _
  · exact (ridgeView_setPair s₁₅ _).trans <| (ridgeView_wr s₁₄ (by decide) 0 0).trans <| h₁₄.trans <| h₁₁.trans <|
      (ridgeView_setPair s₆ _).trans <| h₆.trans <| (ridgeView_setPair s₄ _).trans h₄

/-! ### Supplies, the RTC and the beat edge -/

@[simp ↓] theorem ridgeView_modPwr (f : PwrSt → PwrSt) : (s.modPwr f).ridgeView = s.ridgeView := by
  unfold State.modPwr
  simp (disch := decide)

@[simp ↓] theorem ridgeView_judgeTemp (t : Int) : (s.judgeTemp t).ridgeView = s.ridgeView := by
  unfold State.judgeTemp
  dsimp only
  simp (disch := decide)

@[simp ↓] theorem ridgeView_setRtc (sec : Nat) : (s.setRtc sec).ridgeView = s.ridgeView := by
  unfold State.setRtc
  simp (disch := decide)

@[simp ↓] theorem ridgeView_rtcSync : s.rtcSync.ridgeView = s.ridgeView := by
  unfold State.rtcSync
  dsimp only
  simp (disch := decide)

@[simp ↓] theorem ridgeView_releaseOutputs : s.releaseOutputs.ridgeView = s.ridgeView := by
  unfold State.releaseOutputs
  dsimp only
  simp (disch := decide)

@[simp ↓] theorem ridgeView_autoRelease : s.autoRelease.ridgeView = s.ridgeView := by
  unfold State.autoRelease
  simp (disch := decide)

@[simp ↓] theorem ridgeView_loopStopEdge (d : Nat) : (s.loopStopEdge d).ridgeView = s.ridgeView := by
  unfold State.loopStopEdge
  simp (disch := decide)

@[simp ↓] theorem ridgeView_beatEvent : s.beatEvent.ridgeView = s.ridgeView := by
  unfold State.beatEvent
  dsimp only
  simp (disch := decide)

@[simp ↓] theorem ridgeView_secondEdge : s.secondEdge.ridgeView = s.ridgeView := by
  unfold State.secondEdge
  dsimp only
  simp (disch := decide)

@[simp ↓] theorem ridgeView_withholdEdge : s.withholdEdge.ridgeView = s.ridgeView := by
  unfold State.withholdEdge
  dsimp only
  simp (disch := decide)

@[simp ↓] theorem ridgeView_noteRef (d : Nat) : (s.noteRef d).ridgeView = s.ridgeView := by
  unfold State.noteRef
  dsimp only
  simp (disch := decide)

@[simp ↓] theorem ridgeView_toggleAlive : s.toggleAlive.ridgeView = s.ridgeView := by
  unfold State.toggleAlive
  dsimp only
  simp (disch := decide)

@[simp ↓] theorem ridgeView_noteLoad (load : Nat) : (s.noteLoad load).ridgeView = s.ridgeView := by
  unfold State.noteLoad
  dsimp only
  simp (disch := decide)

@[simp ↓] theorem ridgeView_alignEdge (d : Nat) (aligned : Bool) : (s.alignEdge d aligned).ridgeView = s.ridgeView := by
  unfold State.alignEdge
  simp (disch := decide)

@[simp ↓] theorem ridgeView_dropSeen (n : Nat) : (s.dropSeen n).ridgeView = s.ridgeView := by
  unfold State.dropSeen
  simp (disch := decide)

@[simp ↓] theorem ridgeView_checkFailed (c : Nat × Nat) : (s.checkFailed c).ridgeView = s.ridgeView := by
  unfold State.checkFailed
  simp (disch := decide)

@[simp ↓] theorem ridgeView_dropPhase1 : s.dropPhase1.ridgeView = s.ridgeView := by
  unfold State.dropPhase1
  exact (ridgeView_setGnss _ _).trans (ridgeView_forN s (fun s n => ridgeView_setTch s n _) 48)
end State
end Sys2Proof.Machine

/-! ## Steps (R30 to R38) -/

namespace Sys2Proof.Machine

theorem exec_autoStepB (s : State) : exec .autoStepB s = execAutoStepB s := rfl

namespace State
variable (s : State)

/-! ### What follows a step outside the Ridge -/

@[simp ↓] theorem ridgeView_stepGates : s.stepGates.ridgeView = s.ridgeView :=
  ridgeView_forN s (fun s n => by simp (disch := decide)) 48

@[simp ↓] theorem ridgeView_rebaseGates : s.rebaseGates.ridgeView = s.ridgeView :=
  ridgeView_forN s (fun s n => by simp (disch := decide)) 48

@[simp ↓] theorem ridgeView_thatchStepped (d : Nat) (x : Int) : (s.thatchStepped d x).ridgeView = s.ridgeView := by
  unfold State.thatchStepped
  dsimp only
  simp (disch := decide)

@[simp ↓] theorem ridgeView_dpllStepped (d : Nat) (x : Int) : (s.dpllStepped d x).ridgeView = s.ridgeView :=
  ridgeView_forN s (fun s n => by simp (disch := decide)) 8

@[simp ↓] theorem ridgeView_ppsStepped (d : Nat) (x : Int) : (s.ppsStepped d x).ridgeView = s.ridgeView :=
  ridgeView_forN s (fun s n => by simp (disch := decide)) 8

@[simp ↓] theorem ridgeView_setPrt (p : Nat) (x : PortSt) : (s.setPrt p x).ridgeView = s.ridgeView := rfl

@[simp ↓] theorem ridgeView_launchReplan (d : Nat) : (s.launchReplan d).ridgeView = s.ridgeView := by
  unfold State.launchReplan
  extract_lets mine back s₁ s₂
  have h₁ : s₁.ridgeView = s.ridgeView := ridgeView_foldl s (fun s (c : Launch) => ridgeView_setLqCtl s c.group c.slot _) back
  have h₂ : s₂.ridgeView = s₁.ridgeView := ridgeView_foldl s₁ (fun s (c : Launch) => ridgeView_setPrt s _ _) back
  exact (ridgeView_congr (s := s₂) rfl rfl).trans (h₂.trans h₁)

@[simp ↓] theorem ridgeView_gmChange (i : Nat) (v : Int) : (s.gmChange i v).ridgeView = s.ridgeView := by
  unfold State.gmChange
  dsimp only
  simp (disch := decide)

@[simp ↓] theorem ridgeView_ptpStepped (d : Nat) (v : Int) : (s.ptpStepped d v).ridgeView = s.ridgeView :=
  ridgeView_foldl s (fun s i => by simp (disch := decide)) _

/-- The state but for the next beat edge and the comparators that a step has passed. -/
def reEdged (n : Nat) (l : List Bool) : State := { s with ridge := { s.ridge with nextEdge := n, skipped := l } }

theorem ridgeView_reEdged (n : Nat) (l : List Bool) :
    (s.reEdged n l).ridgeView = { s.ridgeView with ridge := { s.ridgeView.ridge with nextEdge := n, skipped := l } } := rfl

theorem ridgeView_markSkipped (d : Nat) : ∃ l, (s.markSkipped d).ridgeView = (s.reEdged s.ridge.nextEdge l).ridgeView := by
  unfold State.markSkipped forN
  induction List.range 32 generalizing s with
  | nil => exact ⟨s.ridge.skipped, rfl⟩
  | cons i t ih =>
    rw [List.foldl_cons]
    split
    · obtain ⟨l, h⟩ := ih { s with ridge := { s.ridge with skipped := s.ridge.skipped.set i true } }
      exact ⟨l, h⟩
    · exact ih s

/-- What follows a step of a domain (R71, R89, R43) marks the comparators it has passed, and leaves the rest of the Ridge alone. -/
theorem ridgeView_afterStep (d : Nat) (x : Int) : ∃ l, (s.afterStep d x).ridgeView = (s.reEdged s.ridge.nextEdge l).ridgeView := by
  unfold State.afterStep
  extract_lets s₁ s₂
  have h₂ : s₂.ridgeView = s.ridgeView := by unfold s₂ s₁; simp (disch := decide)
  obtain ⟨l, h⟩ := ridgeView_markSkipped s₂ d
  refine ⟨l, ((ridgeView_ptpStepped _ d x).trans (ridgeView_launchReplan _ d)).trans (h.trans ?_)⟩
  simp only [ridgeView_reEdged, h₂, ridge_of_ridgeView h₂]

/-! ### The step itself (R30) -/

theorem rd_setAnchor {f : Fld} (hf : f.no < 1024) (h : ∀ g ∈ [F.RIDGE_x_ANCHOR_COUNT_COUNT, F.RIDGE_x_ANCHOR_SEC_SEC,
    F.RIDGE_x_ANCHOR_NSF_NS, F.RIDGE_x_ANCHOR_NSF_FRAC], f.no ≠ g.no) (d : Nat) (e : Int) (i : Nat) :
    (s.setAnchor d e).rd f i = s.rd f i := by
  simp only [List.mem_cons, List.not_mem_nil, or_false, forall_eq_or_imp, forall_eq] at h
  obtain ⟨h₁, h₂, h₃, h₄⟩ := h
  unfold setAnchor
  dsimp only
  rw [rd_wr_other _ (by decide) hf h₄, rd_wr_other _ (by decide) hf h₃, rd_wr_other _ (by decide) hf h₂,
    rd_wr_other _ (by decide) hf h₁]

@[simp] theorem setAnchor_ridge (d : Nat) (e : Int) : (s.setAnchor d e).ridge = s.ridge := rfl

theorem rd_clearStepNeeded {f : Fld} (hf : f.no < 1024) (h : ∀ g ∈ [F.RIDGE_x_REQ_STEP_VALUE, F.RIDGE_STAT_A_STEP_NEEDED,
    F.RIDGE_STAT_B_STEP_NEEDED], f.no ≠ g.no) (d i : Nat) : (s.clearStepNeeded d).rd f i = s.rd f i := by
  simp only [List.mem_cons, List.not_mem_nil, or_false, forall_eq_or_imp, forall_eq] at h
  obtain ⟨h₁, h₂, h₃⟩ := h
  unfold clearStepNeeded
  dsimp only
  split
  · rw [rd_condOff, rd_wr_other _ (by decide) hf h₂, rd_wr_other _ (by decide) hf h₁]
  · rw [rd_condOff, rd_wr_other _ (by decide) hf h₃, rd_wr_other _ (by decide) hf h₁]

@[simp] theorem clearStepNeeded_ridge (d : Nat) : (s.clearStepNeeded d).ridge = s.ridge := by
  unfold clearStepNeeded; dsimp only; split <;> rfl

theorem stepNeeded_clearStepNeeded (d : Nat) : (s.clearStepNeeded d).stepNeeded d = false := by
  unfold clearStepNeeded stepNeeded
  dsimp only
  split <;> simp only [State.on, rd_condOff, rd_wr_same] <;> rfl

/-- Domain `d` with the count `c`, the hidden state `r` and an anchor at `e`, its slew views shown and no step needed: what a step leaves,
but for the beat edge that a step of Ridge A moves and the event. -/
def stepped (d c : Nat) (r : RidgeDom) (e : Int) : State :=
  ((((s.wr F.RIDGE_x_COUNT_COUNT c d).setDom d r).showSlew d).clearStepNeeded d).setAnchor d e

theorem reEdged_self : s.reEdged s.ridge.nextEdge s.ridge.skipped = s := rfl
theorem setNextEdge_eq (n : Nat) : { s with ridge := { s.ridge with nextEdge := n } } = s.reEdged n s.ridge.skipped := rfl

/-- A step of `x` ru discards what is pending and moves the count. -/
theorem ridgeView_stepDomain (d : Nat) (x : Int) (auto : Bool) : ∃ (r : RidgeDom) (e : Int) (n : Nat) (l : List Bool),
    r.pend = 0 ∧ r.slewing = false ∧
    (s.stepDomain d x auto).ridgeView = ((s.stepped d (stepCount (s.count d) x) r e).reEdged n l).ridgeView := by
  unfold State.stepDomain
  extract_lets discarded e s₁ r s₂ s₃ s₄ pos toEdge r₅ s₅
  have h : s₄ = s.stepped d (stepCount (s.count d) x)
    { r with pend := 0, slewing := false, named := none, total := r.total + x * two40 } (e + x) := rfl
  have h₅ : ∃ n, s₅.ridgeView = (s₄.reEdged n s₄.ridge.skipped).ridgeView := by
    unfold s₅
    split
    · exact ⟨_, congrArg ridgeView (setNextEdge_eq s₄ _)⟩
    · exact ⟨s₄.ridge.nextEdge, congrArg ridgeView (reEdged_self s₄).symm⟩
  obtain ⟨n, h₅⟩ := h₅
  exact ⟨{ r with pend := 0, slewing := false, named := none, total := r.total + x * two40 }, e + x, n, s₄.ridge.skipped, rfl, rfl,
    (ridgeView_eventNow s₅ _ _ _).trans (h ▸ h₅)⟩

theorem count_stepped (d c : Nat) (r : RidgeDom) (e : Int) : (s.stepped d c r e).count d = c % 2 ^ 64 := by
  rw [stepped, count, rd_setAnchor _ (by decide) (by decide), rd_clearStepNeeded _ (by decide) (by decide),
    rd_showSlew _ (by decide) (by decide), rd_setDom, rd_wr_same]
  rfl

theorem count_stepped_other {d i : Nat} (h : i ≠ d) (c : Nat) (r : RidgeDom) (e : Int) : (s.stepped d c r e).count i = s.count i := by
  rw [stepped, count, rd_setAnchor _ (by decide) (by decide), rd_clearStepNeeded _ (by decide) (by decide),
    rd_showSlew _ (by decide) (by decide), rd_setDom, rd_wr_index _ (by decide) h, count]

theorem stepped_ridge (d c : Nat) (r : RidgeDom) (e : Int) : (s.stepped d c r e).ridge = (s.setDom d r).ridge := by
  rw [stepped, setAnchor_ridge, clearStepNeeded_ridge, showSlew_ridge]
  unfold setDom
  split <;> rfl

theorem stepNeeded_setAnchor (d : Nat) (e : Int) : (s.setAnchor d e).stepNeeded d = s.stepNeeded d := by
  unfold stepNeeded
  simp only [State.on, rd_setAnchor s (f := F.RIDGE_STAT_A_STEP_NEEDED) (by decide) (by decide),
    rd_setAnchor s (f := F.RIDGE_STAT_B_STEP_NEEDED) (by decide) (by decide)]

theorem stepNeeded_stepped (d c : Nat) (r : RidgeDom) (e : Int) : (s.stepped d c r e).stepNeeded d = false :=
  (stepNeeded_setAnchor _ d e).trans (stepNeeded_clearStepNeeded _ d)

/-! ### The steps due at a beat edge (R38) -/

/-- The state without the steps of domain `d` that are due, and with the automatic steps `a` and `b`. -/
def undue (d : Nat) (a b : Option Int) : State := { s with ridge := { s.ridge with
  steps := s.ridge.steps.filter (fun q => !(s.dueSteps d).contains q), autoA := a, autoB := b } }

theorem dropDue_eq (d : Nat) : ∃ a b, s.dropDue d = s.undue d a b ∧ (d ≠ 0 → b = none) := by
  unfold dropDue
  dsimp only
  split
  · exact ⟨_, _, rfl, fun h => absurd ‹d = 0› h⟩
  · exact ⟨_, _, rfl, fun _ => rfl⟩

theorem ridgeView_finishes (l : List (CmdRef × Nat)) : (l.foldl (fun s q => s.finish q.1 q.2) s).ridgeView = s.ridgeView :=
  ridgeView_foldl s (fun s q => ridgeView_finish s q.1 q.2 0 0 0) l

/-- The state after a step with the count `c`, as it stands once what follows a step has been done. -/
def stepDone (d c : Nat) (r : RidgeDom) (e : Int) (n : Nat) (l : List Bool) : State := ((s.stepped d c r e).reEdged n l).latchCorr d

theorem ridgeView_latchCorr {s t : State} (h : t.ridgeView = s.ridgeView) (d : Nat) : (t.latchCorr d).ridgeView = (s.latchCorr d).ridgeView := by
  have hd : t.dom d = s.dom d := dom_of_ridge (ridge_of_ridgeView h) d
  have hq : t.rdS F.RIDGE_x_REQ_STEP_VALUE d = s.rdS F.RIDGE_x_REQ_STEP_VALUE d :=
    congrArg (toS _) (rd_of_ridgeView h (by decide) (by decide) d)
  have hr : ridgeRegs t.regs = ridgeRegs s.regs := congrArg RidgeView.reg h
  have hx : ∀ r, (t.setDom d r).ridge = (s.setDom d r).ridge := fun r => by
    unfold setDom; split <;> simp only [ridge_of_ridgeView h]
  unfold latchCorr
  simp only [ridgeView, setDom_regs, hd, hq, hr, hx]

/-- The due steps of a domain that runs, of which at least one is accepted or one is automatic, move its count by their sum. -/
theorem ridgeView_applySteps {d : Nat} (h : s.domRuns d = true) (hd : ¬((s.dueSteps d).isEmpty ∧ (s.autoStep d).isNone)) {x : Int}
    {out : List (CmdRef × Nat)}
    (hs : sumSteps (s.stepNeeded d) (s.rdS F.RIDGE_x_REQ_STEP_VALUE d) (s.dueSteps d) ((s.autoStep d).getD 0) false [] = (x, out))
    (ho : ¬((s.autoStep d).isNone ∧ out.all (fun q => q.2 != Code.ok))) :
    ∃ (t : State) (a b : Option Int) (r : RidgeDom) (e : Int) (n : Nat) (l : List Bool),
      t.ridgeView = (s.undue d a b).ridgeView ∧ (d ≠ 0 → b = none) ∧ r.pend = 0 ∧ r.slewing = false ∧
      (s.applySteps d).ridgeView = (t.stepDone d (stepCount (t.count d) x) r e n l).ridgeView := by
  obtain ⟨a, b, hu, hb⟩ := dropDue_eq s d
  have ht : (if d = 0 then (s.dropDue d).stepGates else s.dropDue d).ridgeView = (s.undue d a b).ridgeView := by
    rw [hu]
    simp only [↓ridgeView_ite, ↓ridgeView_stepGates, ite_self]
  obtain ⟨r, e, n, l, hp, hw, hv⟩ := ridgeView_stepDomain (if d = 0 then (s.dropDue d).stepGates else s.dropDue d) d x (s.autoStep d).isSome
  obtain ⟨l', hv'⟩ := ridgeView_afterStep ((if d = 0 then (s.dropDue d).stepGates else s.dropDue d).stepDomain d x (s.autoStep d).isSome) d x
  refine ⟨_, a, b, r, e, n, l', ht, hb, hp, hw, ?_⟩
  unfold applySteps
  dsimp only
  rw [if_neg (by simpa [h] using hd), hs, if_neg ho]
  refine (ridgeView_finishes _ _).trans (ridgeView_latchCorr (hv'.trans ?_) d)
  simp only [ridgeView_reEdged, hv, ridge_of_ridgeView hv]
  rfl

/-! ### What a step has done -/

section
variable {s t : State} {d c : Nat} {r : RidgeDom} {e : Int} {n : Nat} {l : List Bool}

theorem rd_latchCorr (f : Fld) (i : Nat) : (s.latchCorr d).rd f i = s.rd f i := rd_setDom s d _ f i

theorem count_of_ridgeView (h : t.ridgeView = s.ridgeView) (i : Nat) : t.count i = s.count i := rd_of_ridgeView h (by decide) (by decide) i

theorem count_stepDone : (s.stepDone d c r e n l).count d = c % 2 ^ 64 :=
  (rd_latchCorr _ _).trans (count_stepped s d c r e)

theorem count_stepDone_other {i : Nat} (h : i ≠ d) : (s.stepDone d c r e n l).count i = s.count i :=
  (rd_latchCorr _ _).trans (count_stepped_other s h c r e)

theorem dom_stepDone : ((s.stepDone d c r e n l).dom d).pend = r.pend ∧ ((s.stepDone d c r e n l).dom d).slewing = r.slewing := by
  have h : ((s.stepped d c r e).reEdged n l).dom d = (s.stepped d c r e).dom d := rfl
  rw [stepDone, latchCorr, dom_setDom, h, dom_of_ridge (stepped_ridge s d c r e), dom_setDom]
  exact ⟨rfl, rfl⟩

theorem stepNeeded_of_rd {s t : State} (h : ∀ f ∈ [F.RIDGE_STAT_A_STEP_NEEDED, F.RIDGE_STAT_B_STEP_NEEDED], t.rd f 0 = s.rd f 0) (i : Nat) :
    t.stepNeeded i = s.stepNeeded i := by
  simp only [List.mem_cons, List.not_mem_nil, or_false, forall_eq_or_imp, forall_eq] at h
  simp only [stepNeeded, State.on, h.1, h.2]

theorem stepNeeded_of_ridgeView (h : t.ridgeView = s.ridgeView) (i : Nat) : t.stepNeeded i = s.stepNeeded i := by
  refine stepNeeded_of_rd (fun f hf => ?_) i
  simp only [List.mem_cons, List.not_mem_nil, or_false] at hf
  obtain rfl | rfl := hf <;> exact rd_of_ridgeView h (by decide) (by decide) 0

theorem stepNeeded_stepDone : (s.stepDone d c r e n l).stepNeeded d = false :=
  (stepNeeded_of_rd (fun f _ => rd_latchCorr f 0) d).trans (stepNeeded_stepped s d c r e)

theorem setDom_waiting (d : Nat) (r : RidgeDom) : (s.setDom d r).ridge.steps = s.ridge.steps ∧ (s.setDom d r).ridge.autoB = s.ridge.autoB := by
  unfold setDom; split <;> exact ⟨rfl, rfl⟩

theorem waiting_stepDone : (s.stepDone d c r e n l).ridge.steps = s.ridge.steps ∧ (s.stepDone d c r e n l).ridge.autoB = s.ridge.autoB := by
  have h := setDom_waiting (s := s) d r
  rw [← stepped_ridge s d c r e] at h
  exact ⟨(setDom_waiting _ _).1.trans h.1, (setDom_waiting _ _).2.trans h.2⟩

end

/-- What R30 says of the due steps of a domain that runs, summed to `x`. -/
theorem applySteps_applies {s : State} {d : Nat} (h : s.domRuns d = true) (hd : ¬((s.dueSteps d).isEmpty ∧ (s.autoStep d).isNone)) {x : Int}
    {out : List (CmdRef × Nat)}
    (hs : sumSteps (s.stepNeeded d) (s.rdS F.RIDGE_x_REQ_STEP_VALUE d) (s.dueSteps d) ((s.autoStep d).getD 0) false [] = (x, out))
    (ho : ¬((s.autoStep d).isNone ∧ out.all (fun q => q.2 != Code.ok))) :
    (s.applySteps d).count d = stepCount (s.count d) x % 2 ^ 64 ∧ ((s.applySteps d).dom d).pend = 0 ∧
    ((s.applySteps d).dom d).slewing = false ∧ (s.applySteps d).stepNeeded d = false ∧
    (∀ i, i ≠ d → (s.applySteps d).count i = s.count i) ∧
    (∀ q ∈ s.dueSteps d, q ∉ (s.applySteps d).ridge.steps) ∧ (d ≠ 0 → (s.applySteps d).ridge.autoB = none) := by
  obtain ⟨t, a, b, r, e, n, l, ht, hb, hp, hw, hv⟩ := ridgeView_applySteps s h hd hs ho
  have hc : ∀ i, t.count i = s.count i := fun i => (count_of_ridgeView ht i).trans (rd_of_regs rfl _ i)
  have hr := ridge_of_ridgeView hv
  refine ⟨?_, ?_, ?_, ?_, fun i hi => ?_, fun q hq hm => ?_, fun h0 => ?_⟩
  · rw [count_of_ridgeView hv, count_stepDone, hc]
  · rw [dom_of_ridge hr, dom_stepDone.1, hp]
  · rw [dom_of_ridge hr, dom_stepDone.2, hw]
  · rw [stepNeeded_of_ridgeView hv, stepNeeded_stepDone]
  · rw [count_of_ridgeView hv, count_stepDone_other hi, hc]
  · rw [hr, waiting_stepDone.1, ridge_of_ridgeView ht] at hm
    simp [undue, hq] at hm
  · rw [hr, waiting_stepDone.2, ridge_of_ridgeView ht]
    exact hb h0

end State

/-! ### Steps by request, due steps and automatic steps -/

theorem timeStep_refuses_without_request {s : State} {w0 : Nat} (c : CmdRef) (step : Nat) (h : s.notHolder = false)
    (k : bits w0 0 1 = 1 → s.on F.RIDGE_CTL_B_EN = true) (hu : bit w0 2 = true) (hn : s.stepNeeded (bits w0 0 1) = false) :
    Refuses (.timeStep c w0 step) s c Code.badParam := by
  rw [Refuses, exec_timeStep]
  unfold execTimeStep
  dsimp only
  rw [h, if_neg (by decide), if_neg (by simpa using k), hu, hn]
  rfl

/-- One step of its own below 2^47 ns is its own sum (R38). -/
theorem sumSteps_single {needed : Bool} {v : Int} {q : StepReq} (h : q.useReq = false) (hs : q.step.natAbs < 2 ^ 63) :
    sumSteps needed v [q] 0 false [] = (q.step, [(q.ref, Code.ok)]) := by
  have hb : belowStepLimit q.step = true := decide_eq_true hs
  simp [sumSteps, h, hb]

/-- Settles O5: a due step and an automatic step are each their own sum, which the domain's count moves by. -/
theorem timeStepsQueueAndApply : Obligations.TimeStepsQueueAndApply := by
  refine ⟨fun s c w0 step h k hu hn => ?_, fun s c w0 step h k hu hn => timeStep_refuses_without_request c step h k hu hn,
    fun s q hr hd ha hu hs => ?_, fun s x hr hx hd => ?_⟩
  · have q := timeStep_settles c step h k (fun _ => hn) (fun hr => absurd hr (by simp [hu]))
    rwa [hu] at q
  · have ho : s.autoStep 0 = none := ha
    obtain ⟨hc, hp, hw, hn, hi, hq, -⟩ := State.applySteps_applies hr (by simp [hd]) (x := q.step) (out := [(q.ref, Code.ok)])
      (by rw [hd, ho]; exact sumSteps_single hu hs) (by simp)
    exact ⟨_, rfl, hc, hp, hw, hn, hq q (by simp [hd]), hi 1 (by decide)⟩
  · have ho : s.autoStep 1 = some x := hx
    obtain ⟨hc, hp, hw, hn, hi, -, hb⟩ := State.applySteps_applies hr (by simp [ho]) (x := x) (out := [])
      (by rw [hd, ho]; rfl) (by simp [ho])
    refine ⟨_, ?_, hc, hp, hb (by decide), hi 0 (by decide)⟩
    rw [exec_autoStepB, execAutoStepB, hx]
    rfl

end Sys2Proof.Machine

/-! ## What settling the faults of a tick leaves of the Ridge

Entering the safe state discards the steps and maps that wait, and takes back a staged map (R524); nothing else of the Ridge moves. -/

namespace Sys2Proof.Machine

/-- The Ridge but for what the safe state discards: the waiting steps and maps, and the staged map. -/
def RidgeView.settled (v : RidgeView) : RidgeView where
  ridge := { v.ridge with steps := [], maps := [], mapStaged := false }
  reg := fun k => if k % 1024 = F.RIDGE_CLASS_MAP_MAP.no then none else v.reg k

theorem kvGet_filter {l : List (Nat × Nat)} {p : Nat × Nat → Bool} {k : Nat} (h : ∀ v, p (k, v) = true) :
    kvGet (l.filter p) k = kvGet l k := by
  induction l with
  | nil => rfl
  | cons e t ih =>
    obtain ⟨j, v⟩ := e
    by_cases hj : j = k
    · subst hj
      simp [h, kvGet]
    · rw [kvGet, if_neg hj, ← ih, List.filter_cons]
      split
      · rw [kvGet, if_neg hj]
      · rfl

namespace State
variable (s : State)

theorem settled_of_ridgeView {s t : State} (h : t.ridgeView = s.ridgeView) : t.ridgeView.settled = s.ridgeView.settled :=
  congrArg RidgeView.settled h

theorem settled_foldl {α : Type} {f : State → α → State} (h : ∀ s x, (f s x).ridgeView.settled = s.ridgeView.settled) (l : List α) :
    (l.foldl f s).ridgeView.settled = s.ridgeView.settled := by
  induction l generalizing s with
  | nil => rfl
  | cons x t ih => exact (ih (f s x)).trans (h s x)

@[simp ↓] theorem settled_ite (c : Prop) [Decidable c] (v w : RidgeView) : (if c then v else w).settled = if c then v.settled else w.settled :=
  apply_ite _ _ _ _

theorem settled_undoMap : s.undoMap.ridgeView.settled = s.ridgeView.settled := by
  unfold undoMap
  split
  · rfl
  · refine congrArg (RidgeView.mk _) (funext fun k => ?_)
    split
    · rfl
    · next hk =>
      have hne : k ≠ F.RIDGE_CLASS_MAP_MAP.key 0 := fun e => hk (e ▸ by decide)
      simp only [ridgeView, ridgeRegs, State.wr, kvGet_regsPut_ne _ hne]

theorem settled_dropWaiting : s.dropWaiting.ridgeView.settled = s.ridgeView.settled := by
  have hr : s.dropWaiting.ridge =
      { s.ridge with steps := [], maps := [], mapStaged := s.ridge.mapStaged && s.ridge.maps.isEmpty } := rfl
  have hg : s.dropWaiting.regs = s.regs := rfl
  simp only [ridgeView, RidgeView.settled, hr, hg]

@[simp ↓] theorem settled_discardCommands (code : Nat) (keep : Option CmdRef) :
    (s.discardCommands code keep).ridgeView.settled = s.ridgeView.settled := by
  unfold State.discardCommands
  dsimp only
  refine (settled_of_ridgeView (ridgeView_foldl _ (fun s r => ?_) _)).trans ?_
  · simp (disch := decide)
  · exact (settled_of_ridgeView (ridgeView_showDropped _)).trans ((settled_dropWaiting _).trans (settled_undoMap s))

@[simp ↓] theorem settled_enterSafe (q : Nat) : (s.enterSafe q).ridgeView.settled = s.ridgeView.settled := by
  unfold State.enterSafe
  dsimp only
  split
  · rfl
  · refine (settled_discardCommands _ _ _).trans (settled_of_ridgeView ?_)
    simp (disch := decide)

@[simp ↓] theorem settled_recordOcc (f : Nat → Bool) (o : Occ) : (s.recordOcc f o).ridgeView.settled = s.ridgeView.settled := by
  unfold State.recordOcc
  dsimp only
  simp (disch := decide)

theorem settled_settle (n : Nat) : (s.settle n).ridgeView.settled = s.ridgeView.settled := by
  induction n generalizing s with
  | zero => rfl
  | succ n ih =>
    unfold State.settle
    dsimp only
    split
    · rfl
    · refine (ih _).trans ((settled_foldl _ (fun s o => settled_recordOcc s _ o) _).trans ?_)
      exact settled_of_ridgeView (ridgeView_foldl _ (fun s o => ridgeView_countOcc s o) _)

theorem ridgeView_showFcu : s.showFcu.ridgeView = s.ridgeView := by
  have hf : { s with regs := s.regs.filter (fun p => p.1 % 1024 != F.FCU_LIVE_BIT.no) }.ridgeView = s.ridgeView :=
    congrArg (RidgeView.mk s.ridge) (ridgeRegs_congr fun k _ hk => kvGet_filter fun v => by
      have : F.FCU_LIVE_BIT.no = 894 := rfl
      simp only [bne_iff_ne, ne_eq]
      omega)
  have h : ∀ (l : List Nat) (t : State), (l.foldl (fun s fs => s.wr F.FCU_LIVE_BIT 1 fs) t).ridgeView = t.ridgeView :=
    fun l t => ridgeView_foldl t (fun s fs => ridgeView_wr s (by decide) 1 fs) l
  unfold State.showFcu
  dsimp only
  simp (disch := decide) only [↓ridgeView_mk, ↓mk_ridgeView, ↓ridgeView_wr, ↓ridgeView_wrB, ↓h]
  exact hf

/-- Settling the faults of a tick leaves the Ridge alone, but for what the safe state discards. -/
theorem settled_close : s.close.ridgeView.settled = s.ridgeView.settled := by
  have h : ((s.evalSquelch.settle 4).evalSquelch).ridgeView.settled = s.ridgeView.settled :=
    (settled_of_ridgeView (ridgeView_evalSquelch _)).trans
      ((settled_settle _ 4).trans (settled_of_ridgeView (ridgeView_evalSquelch s)))
  unfold State.close
  dsimp only
  split
  · exact (settled_of_ridgeView (ridgeView_showFcu _)).trans h
  · exact h

@[simp ↓] theorem settled_rejudgeLive : s.rejudgeLive.ridgeView.settled = s.ridgeView.settled := by
  unfold State.rejudgeLive
  dsimp only
  simp (disch := decide)

end State

end Sys2Proof.Machine

/-! ## The beat (R45 to R49)

Of the Ridge a phase needs little: that it runs, which phases have ended, and the high-water marks. Everything a beat edge or a phase
does besides leaves that alone. -/

namespace Sys2Proof.Machine

theorem exec_beatEdge (fec : List (Nat × Nat × Nat)) (prbs : List (Nat × Nat)) (load : Nat) (s : State) :
    exec (.beatEdge fec prbs load) s = execBeatEdge fec prbs load s := rfl
theorem exec_phase1 (endAt : Nat) (epoch : List (List Nat)) (s : State) : exec (.phase1 endAt epoch) s = execPhase1 endAt epoch s := rfl
theorem exec_phase2 (endAt : Nat) (s : State) : exec (.phase2 endAt) s = execPhase2 endAt s := rfl
theorem exec_phase3 (endAt : Nat) (temp : Int) (s : State) : exec (.phase3 endAt temp) s = execPhase3 endAt temp s := rfl
theorem exec_phase4 (endAt : Nat) (checks : List (Nat × Nat)) (s : State) : exec (.phase4 endAt checks) s = execPhase4 endAt checks s := rfl
theorem exec_phaseSlip (p : Nat) (s : State) : exec (.phaseSlip p) s = execPhaseSlip p s := rfl
theorem exec_beatOverrun (s : State) : exec .beatOverrun s = execBeatOverrun s := rfl

/-- The beat as it stands: whether Ridge A runs, its next edge, the phases done, an overrun, and the entries of PHASE_HWM. -/
structure BeatView where
  running : Bool
  nextEdge : Nat
  overrun : Bool
  done : List Nat
  hwm : Nat → Option Nat

/-- The beat that a Ridge shows. -/
def RidgeView.beat (v : RidgeView) : BeatView :=
  ⟨v.ridge.running, v.ridge.nextEdge, v.ridge.overrun, v.ridge.done, fun i => v.reg (F.RIDGE_PHASE_HWM_HWM.key i)⟩

/-- The safe state discards nothing that the beat shows. -/
theorem RidgeView.beat_settled (v : RidgeView) : v.settled.beat = v.beat :=
  congrArg (BeatView.mk _ _ _ _) (funext fun i => if_neg (by
    have h₁ : F.RIDGE_PHASE_HWM_HWM.no = 36 := rfl
    have h₂ : F.RIDGE_CLASS_MAP_MAP.no = 23 := rfl
    simp only [Fld.key]
    omega))

/-- Field `f` is not PHASE_HWM. -/
def Fld.offBeat (f : Fld) : Bool := decide (f.no < 1024) && decide (f.no ≠ F.RIDGE_PHASE_HWM_HWM.no)

namespace State
variable (s : State)

theorem beat_of_settled {s t : State} (h : t.ridgeView.settled = s.ridgeView.settled) : t.ridgeView.beat = s.ridgeView.beat := by
  rw [← RidgeView.beat_settled, h, RidgeView.beat_settled]

theorem beat_of_ridgeView {s t : State} (h : t.ridgeView = s.ridgeView) : t.ridgeView.beat = s.ridgeView.beat := congrArg RidgeView.beat h

theorem ridge_of_beat {s t : State} (h : t.ridgeView.beat = s.ridgeView.beat) : t.ridge.running = s.ridge.running ∧
    t.ridge.nextEdge = s.ridge.nextEdge ∧ t.ridge.overrun = s.ridge.overrun ∧ t.ridge.done = s.ridge.done :=
  ⟨congrArg BeatView.running h, congrArg BeatView.nextEdge h, congrArg BeatView.overrun h, congrArg BeatView.done h⟩

theorem beat_congr {s t : State} (h : t.ridge.running = s.ridge.running) (hn : t.ridge.nextEdge = s.ridge.nextEdge)
    (ho : t.ridge.overrun = s.ridge.overrun) (hd : t.ridge.done = s.ridge.done)
    (hr : ∀ i, kvGet t.regs (F.RIDGE_PHASE_HWM_HWM.key i) = kvGet s.regs (F.RIDGE_PHASE_HWM_HWM.key i)) :
    t.ridgeView.beat = s.ridgeView.beat := by
  simp only [RidgeView.beat, ridgeView, ridgeRegs, h, hn, ho, hd, hr]

@[simp ↓] theorem beat_ite (c : Prop) [Decidable c] (v w : RidgeView) : (if c then v else w).beat = if c then v.beat else w.beat :=
  apply_ite _ _ _ _

/-- Of a choice between two views of the beat simp looks at the views alone. -/
@[congr] theorem ite_beat_congr {c : Prop} [Decidable c] {a a' b b' : BeatView} (h : a = a') (k : b = b') :
    (if c then a else b) = if c then a' else b' := by rw [h, k]

@[simp ↓] theorem beat_wr {f : Fld} (hf : f.offBeat = true) (v i : Nat) : (s.wr f v i).ridgeView.beat = s.ridgeView.beat :=
  beat_congr rfl rfl rfl rfl fun j => kvGet_regsPut_ne _ (by
    simp only [Fld.offBeat, Bool.and_eq_true, decide_eq_true_eq] at hf
    exact Fld.key_ne hf.1 (by decide) (.inl (Ne.symm hf.2))) v


@[simp ↓] theorem beat_setDom (d : Nat) (r : RidgeDom) : (s.setDom d r).ridgeView.beat = s.ridgeView.beat := by
  unfold setDom; split <;> rfl

/-! ### Corrections, addends and the passing of time -/

@[simp ↓] theorem beat_showSlew (d : Nat) : (s.showSlew d).ridgeView.beat = s.ridgeView.beat := by
  unfold State.showSlew
  dsimp only
  simp (disch := decide)

@[simp ↓] theorem beat_setAnchor (d : Nat) (e : Int) : (s.setAnchor d e).ridgeView.beat = s.ridgeView.beat := by
  unfold State.setAnchor
  dsimp only
  simp (disch := decide)

@[simp ↓] theorem beat_setStepNeeded (d : Nat) (v : Int) : (s.setStepNeeded d v).ridgeView.beat = s.ridgeView.beat := by
  unfold State.setStepNeeded
  dsimp only
  simp (disch := decide)

@[simp ↓] theorem beat_clearStepNeeded (d : Nat) : (s.clearStepNeeded d).ridgeView.beat = s.ridgeView.beat := by
  unfold State.clearStepNeeded
  dsimp only
  simp (disch := decide)

@[simp ↓] theorem beat_acceptSlew (d : Nat) (x : Int) (named : Option Nat) : (s.acceptSlew d x named).ridgeView.beat = s.ridgeView.beat :=
  (beat_showSlew _ d).trans (beat_setDom s d _)

@[simp ↓] theorem beat_loopRequest (d : Nat) (x : Int) : (s.loopRequest d x).ridgeView.beat = s.ridgeView.beat := by
  unfold State.loopRequest
  dsimp only
  split_ifs
  · simp (disch := decide)
  · exact beat_setDom s d _
  · simp (disch := decide)
  · exact (beat_of_ridgeView (ridgeView_mirrorCmd _ _ _ _)).trans (beat_setDom s d _)

@[simp ↓] theorem beat_loadAddend (d : Nat) : (s.loadAddend d).ridgeView.beat = s.ridgeView.beat := beat_setDom s d _

@[simp ↓] theorem beat_stageAddend (d v : Nat) : (s.stageAddend d v).ridgeView.beat = s.ridgeView.beat := by
  unfold State.stageAddend
  dsimp only
  simp (disch := decide)

@[simp ↓] theorem beat_latchAnchors : s.latchAnchors.ridgeView.beat = s.ridgeView.beat := by
  unfold State.latchAnchors State.latchAnchor
  dsimp only
  simp (disch := decide)

@[simp ↓] theorem beat_latchLimits : s.latchLimits.ridgeView.beat = s.ridgeView.beat := (beat_setDom _ 1 _).trans (beat_setDom s 0 _)

@[simp ↓] theorem beat_latchCorr (d : Nat) : (s.latchCorr d).ridgeView.beat = s.ridgeView.beat := beat_setDom s d _

@[simp ↓] theorem beat_loopEdge (d : Nat) : (s.loopEdge d).ridgeView.beat = s.ridgeView.beat := by
  unfold State.loopEdge
  simp (disch := decide)

@[simp ↓] theorem beat_steerPhase (d : Nat) : (s.steerPhase d).1.ridgeView.beat = s.ridgeView.beat := by
  unfold State.steerPhase
  dsimp only
  simp (disch := decide)

@[simp ↓] theorem beat_steerLoop (d : Nat) : (s.steerLoop d).ridgeView.beat = s.ridgeView.beat := by
  unfold State.steerLoop
  dsimp only
  simp (disch := decide)

@[simp ↓] theorem beat_steerPhase3 (temp : Int) : (s.steerPhase3 temp).ridgeView.beat = s.ridgeView.beat := by
  unfold State.steerPhase3
  dsimp only
  simp (disch := decide)

@[simp ↓] theorem beat_rejudgeLive : s.rejudgeLive.ridgeView.beat = s.ridgeView.beat := beat_of_settled (settled_rejudgeLive s)

theorem beat_runDom (d n : Nat) : (s.runDom d n).ridgeView.beat = s.ridgeView.beat := by
  cases h : s.domRuns d
  · rw [runDom_of_stopped s h]
  · rw [runDom_of_running s h]
    simp (disch := decide)

theorem beat_runRtc (n : Nat) : (s.runRtc n).ridgeView.beat = s.ridgeView.beat := by
  unfold State.runRtc
  dsimp only
  simp (disch := decide)

theorem beat_runTicks (n : Nat) : (s.runTicks n).ridgeView.beat = s.ridgeView.beat :=
  (beat_runRtc _ n).trans ((beat_runDom _ 1 n).trans (beat_runDom s 0 n))

end State


theorem satU_mod (w n : Nat) : satU w n % 2 ^ w = satU w n :=
  Nat.mod_eq_of_lt (by have := Nat.two_pow_pos w; unfold satU; omega)

namespace State
variable (s : State)

/-! ### A beat edge -/

/-- What a beat edge does after it has opened the beat leaves the beat alone. -/
theorem beat_beatEdge (fec : List (Nat × Nat × Nat)) (prbs : List (Nat × Nat)) (load : Nat) :
    (s.beatEdge fec prbs load).ridgeView.beat = s.newBeat.ridgeView.beat := by
  unfold State.beatEdge
  dsimp only
  refine (beat_of_ridgeView (ridgeView_foldl _ (fun s p => ridgeView_prbsBeat s p) prbs)).trans ?_
  refine (beat_of_ridgeView ((ridgeView_prbsUnlock _).trans (ridgeView_foldl _ (fun s p => ridgeView_fecBeat s p) fec))).trans ?_
  simp (disch := decide)

/-- The beat with its next edge at `n` and the phases `l` counted as done is open. -/
def openBeat (n : Nat) (l : List Nat) : State :=
  { s with
    was := []
    frank := { s.frank with raised := [] }
    ridge := { s.ridge with
      nextEdge := n
      done := l
      overrun := false } }

theorem openBeat_ridge (n : Nat) (l : List Nat) :
    (s.openBeat n l).ridge = { s.ridge with nextEdge := n, done := l, overrun := false } := rfl

theorem newBeat_eq : ∃ t : State, t.ridge = s.ridge ∧ t.on F.TOP_STAT_SAFE = s.on F.TOP_STAT_SAFE ∧
    s.newBeat = t.openBeat ((t.ridge.nextEdge + ruBeat) % two64) (if t.on F.TOP_STAT_SAFE then [2, 3, 4] else []) := by
  refine ⟨_, ?_, ?_, rfl⟩
  · rw [wr_ridge, wr_ridge, bump_eq, wr_ridge]
  · rw [State.on, rd_wr_other _ (by decide) (by decide) (by decide), rd_wr_other _ (by decide) (by decide) (by decide), bump_eq,
      rd_wr_other _ (by decide) (by decide) (by decide), State.on]

/-- A beat edge opens the next beat (R45, R46, R524). -/
theorem ridge_beatEdge (fec : List (Nat × Nat × Nat)) (prbs : List (Nat × Nat)) (load : Nat) :
    (s.beatEdge fec prbs load).ridge.running = s.ridge.running ∧ (s.beatEdge fec prbs load).ridge.overrun = false ∧
    (s.beatEdge fec prbs load).ridge.done = (if s.on F.TOP_STAT_SAFE then [2, 3, 4] else []) ∧
    (s.beatEdge fec prbs load).ridge.nextEdge = (s.ridge.nextEdge + ruBeat) % two64 := by
  obtain ⟨t, ht, hs, e⟩ := newBeat_eq s
  obtain ⟨hr, hn, ho, hd⟩ := ridge_of_beat (beat_beatEdge s fec prbs load)
  rw [hr, ho, hd, hn, e, openBeat_ridge, ht, hs]
  exact ⟨rfl, rfl, rfl, rfl⟩

/-! ### A phase (R46, R47) -/

/-- The latest end of phase `p`, at PHASE_HWM, and the phases done. -/
theorem phaseDone_of_beat {s t : State} (h : t.ridgeView.beat = s.ridgeView.beat) (p endAt : Nat) :
    (t.phaseDone p endAt).ridge.done = s.ridge.done ++ [p] ∧
    (t.phaseDone p endAt).rd F.RIDGE_PHASE_HWM_HWM (p - 1) = satU 16 (max (s.rd F.RIDGE_PHASE_HWM_HWM (p - 1)) endAt) := by
  have hd : t.ridge.done = s.ridge.done := congrArg BeatView.done h
  have hv : ∀ u : State, (u.ridgeView.beat.hwm (p - 1)).getD 0 = u.rd F.RIDGE_PHASE_HWM_HWM (p - 1) := fun u =>
    congrArg (Option.getD · 0) (if_pos (by
      have hn : F.RIDGE_PHASE_HWM_HWM.no = 36 := rfl
      simp only [Fld.key]
      omega))
  have hr : t.rd F.RIDGE_PHASE_HWM_HWM (p - 1) = s.rd F.RIDGE_PHASE_HWM_HWM (p - 1) := by rw [← hv, h, hv]
  refine ⟨congrArg (· ++ [p]) hd, ?_⟩
  rw [← hr, phaseDone, rd_wr_other _ (by decide) (by decide) (by decide)]
  exact (rd_wr_same t _ _ _).trans (satU_mod 16 _)

theorem phase_phaseDone (p endAt : Nat) : (s.phaseDone p endAt).rd F.RIDGE_STAT_PHASE =
    (if phaseDeadline p ≤ endAt ∧ p < 4 then p + 1 else 0) % 2 ^ 3 := rd_wr_same _ _ _ _

theorem phaseDone_fcu (p endAt : Nat) : (s.phaseDone p endAt).fcu = s.fcu := rfl

end State

/-- What a phase leaves of the beat: it is done, its high-water mark holds the latest end, and PHASE names the phase it makes late. -/
theorem phase_settles {s t : State} {c : Instr} {p endAt : Nat} (hp : p < 4) (hc : exec c s = done (t.phaseDone p endAt))
    (h : t.ridgeView.beat = s.ridgeView.beat) :
    Settles c s (fun u => u.ridge.done = s.ridge.done ++ [p] ∧
      u.rd F.RIDGE_PHASE_HWM_HWM (p - 1) = satU 16 (max (s.rd F.RIDGE_PHASE_HWM_HWM (p - 1)) endAt) ∧
      u.rd F.RIDGE_STAT_PHASE = if phaseDeadline p ≤ endAt then p + 1 else 0) := by
  obtain ⟨hd, hw⟩ := State.phaseDone_of_beat h p endAt
  refine ⟨_, hc, hd, hw, ?_⟩
  rw [State.phase_phaseDone]
  split <;> split <;> omega

namespace State
variable (s : State)

/-- A counter that saturates holds one more. -/
theorem rd_inc (f : Fld) (i : Nat) : (s.inc f i).rd f i = satU f.w (s.rd f i + 1) := by
  rw [inc_eq, rd_wr_same, satU_mod]

/-! ### A slip and an overrun (R47, R49) -/

theorem execPhaseSlip_eq {p : Nat} (hp : 1 ≤ p ∧ p ≤ 4) :
    execPhaseSlip p s = done (((s.inc F.RIDGE_BEAT_OVR_SLIP_CNT).raise 9).wr F.RIDGE_STAT_PHASE p) := by
  unfold execPhaseSlip
  dsimp only
  rw [if_pos hp]

theorem onlyRegsFcu_wr_raise_inc (f g : Fld) (i j fs v : Nat) :
    OnlyRegsFcu s (((s.inc f i).raise fs).wr g v j) [(f, i), (g, j)] :=
  ⟨rfl, ((RegsBut.refl s _).wr (g := f) (j := i) (.head _) _ |>.same (t := (s.inc f i).raise fs) rfl).wr (.tail _ (.head _)) v⟩

theorem raise_occs (fs n : Nat) : (s.raise fs n).fcu.occs = s.fcu.occs ++ [⟨fs, n, false⟩] := rfl

/-- Outside the Ridge `t` keeps the memory, the receiver and the faults raised in `s`. -/
structure Kept (s t : State) : Prop where
  mem : t.mem = s.mem
  gnss : t.gnss = s.gnss
  occs : ∀ o ∈ s.fcu.occs, o ∈ t.fcu.occs

theorem Kept.trans {s t u : State} (h : Kept s t) (k : Kept t u) : Kept s u :=
  ⟨k.mem.trans h.mem, k.gnss.trans h.gnss, fun o ho => k.occs o (h.occs o ho)⟩

theorem kept_wr (f : Fld) (v i : Nat) : Kept s (s.wr f v i) := ⟨rfl, rfl, fun _ ho => ho⟩

theorem kept_raise (fs n : Nat) : Kept s (s.raise fs n) := ⟨rfl, rfl, fun _ ho => List.mem_append_left _ ho⟩

theorem kept_condOn (fs n : Nat) : Kept s (s.condOn fs n) := by
  refine ⟨condOn_mem s fs n, condOn_gnss s fs n, fun o ho => ?_⟩
  unfold condOn
  split
  · exact ho
  · dsimp only
    split
    · exact ho
    · exact List.mem_append_left _ ho

theorem kept_eavesMiss (d : Nat) : Kept s (s.eavesMiss d) := by
  unfold eavesMiss
  have h : Kept s ((s.inc F.EAVES_x_FLAGS_MISSED d).raise 55 d) := (kept_wr s _ _ d).trans (kept_raise _ 55 d)
  dsimp only
  split_ifs
  · exact h
  · exact (h.trans (kept_wr _ _ _ d)).trans ((kept_wr _ _ 1 d).trans (kept_condOn _ 49 d))
  · exact h.trans (kept_wr _ _ _ d)

theorem dropPhase1_eq : ∃ x : TdcSt, s.dropPhase1 = { s with tdc := x, gnss := { s.gnss with latched := none } } := by
  have h : ∀ (l : List Nat) (s : State), ∃ x, l.foldl (fun s n => s.setTch n { s.tch n with closing := none }) s = { s with tdc := x } := by
    intro l
    induction l with
    | nil => exact fun s => ⟨s.tdc, rfl⟩
    | cons n t ih => exact fun s => ih (s.setTch n { s.tch n with closing := none })
  obtain ⟨x, e⟩ := h (List.range 48) s
  exact ⟨x, by rw [dropPhase1, forN, e]; rfl⟩

/-- An overrun is counted and raised, and what the phases have not done is dropped (R47). -/
def overrun (s : State) : State := (((({ s with ridge := { s.ridge with overrun := true } }).inc F.RIDGE_BEAT_OVR_OVR_CNT).raise 8).wr
  F.RIDGE_STAT_PHASE 0)

theorem overrun_facts : s.overrun.ridge = { s.ridge with overrun := true } ∧
    s.overrun.rd F.RIDGE_BEAT_OVR_OVR_CNT = satU 16 (s.rd F.RIDGE_BEAT_OVR_OVR_CNT + 1) ∧
    Occ.mk 8 0 false ∈ s.overrun.fcu.occs ∧ s.overrun.mem = s.mem := by
  refine ⟨?_, ?_, ?_, ?_⟩
  · rw [overrun, wr_ridge, raise_ridge, inc_eq, wr_ridge]
  · rw [overrun, rd_wr_other _ (by decide) (by decide) (by decide), rd_raise, rd_inc]
    rfl
  · rw [overrun, wr_fcu, raise_occs]
    exact List.mem_append_right _ (.head _)
  · rw [overrun, wr_mem, raise_mem, inc_eq, wr_mem]

theorem execBeatOverrun_eq {s : State} (hr : s.ridge.running = true) (ho : s.ridge.overrun = false) (hd : s.ridge.done = []) :
    execBeatOverrun s = done ((s.overrun.dropPhase1.eavesMiss 0).eavesMiss 1) := by
  unfold execBeatOverrun
  dsimp only
  rw [if_neg (by simp [hr, ho, hd]), if_neg (by simp [hd]), if_neg (by simp [hd])]
  rfl

theorem phaseFree_of_overrun {s : State} (h : s.ridge.overrun = true) (p : Nat) : s.phaseFree p = false := by
  simp [phaseFree, h]

end State

theorem State.ridgeView_setMarked (s : State) : { s with fcu := { s.fcu with marked := true } }.ridgeView = s.ridgeView := rfl

/-! ### The commands of the beat -/

theorem beatEdge_settles {s : State} (fec : List (Nat × Nat × Nat)) (prbs : List (Nat × Nat)) (load : Nat)
    (hr : s.ridge.running = true) (hs : s.on F.TOP_STAT_SAFE = false) : Settles (.beatEdge fec prbs load) s (fun u =>
    u.ridge.running = true ∧ u.ridge.overrun = false ∧ u.ridge.done = [] ∧ u.ridge.nextEdge = (s.ridge.nextEdge + ruBeat) % two64) := by
  have hc : exec (.beatEdge fec prbs load) s = done ((s.runTicks (s.ticksTo 0 s.ridge.nextEdge)).beatEdge fec prbs load) := by
    rw [exec_beatEdge, execBeatEdge, hr]
    rfl
  obtain ⟨kr, ko, kd, kn⟩ := State.ridge_beatEdge (s.runTicks (s.ticksTo 0 s.ridge.nextEdge)) fec prbs load
  obtain ⟨tr, tn, -, -⟩ := State.ridge_of_beat (State.beat_runTicks s (s.ticksTo 0 s.ridge.nextEdge))
  have ts : (s.runTicks (s.ticksTo 0 s.ridge.nextEdge)).on F.TOP_STAT_SAFE = false := by
    rw [State.on, (State.ticked_runTicks s _).rd (by decide) (by decide)]
    exact hs
  refine ⟨_, hc, kr.trans (tr.trans hr), ko, ?_, ?_⟩
  · rw [kd, ts]
    rfl
  · rw [kn, tn]

theorem phase1_settles {s : State} (endAt : Nat) (epoch : List (List Nat)) (h : s.phaseFree 1 = true) :
    Settles (.phase1 endAt epoch) s (fun u => u.ridge.done = s.ridge.done ++ [1] ∧
      u.rd F.RIDGE_PHASE_HWM_HWM 0 = satU 16 (max (s.rd F.RIDGE_PHASE_HWM_HWM 0) endAt) ∧
      u.rd F.RIDGE_STAT_PHASE = if 10000 ≤ endAt then 2 else 0) :=
  phase_settles (p := 1) (by decide) (t := (s.publishAll.alignChecks s.closingGates).gnssRecords epoch)
    (by rw [exec_phase1, execPhase1, h]; rfl) (State.beat_of_ridgeView (by simp (disch := decide)))

theorem phase2_settles {s : State} (endAt : Nat) (h : s.phaseFree 2 = true) :
    Settles (.phase2 endAt) s (fun u => u.ridge.done = s.ridge.done ++ [2] ∧
      u.rd F.RIDGE_PHASE_HWM_HWM 1 = satU 16 (max (s.rd F.RIDGE_PHASE_HWM_HWM 1) endAt) ∧
      u.rd F.RIDGE_STAT_PHASE = if 25000 ≤ endAt then 3 else 0) :=
  phase_settles (p := 2) (by decide)
    (t := (if s.pairSteered then s.pairPhase2 else
      (s.thatchPhase2.alignEdge 0 s.thatchPhase2.ens.alignA).alignEdge 1 s.thatchPhase2.ens.alignB).autoRelease)
    (by rw [exec_phase2, execPhase2, h]; rfl) (State.beat_of_ridgeView (by simp (disch := decide)))

theorem phase3_settles {s : State} (endAt : Nat) (temp : Int) (h : s.phaseFree 3 = true) :
    Settles (.phase3 endAt temp) s (fun u => u.ridge.done = s.ridge.done ++ [3] ∧
      u.rd F.RIDGE_PHASE_HWM_HWM 2 = satU 16 (max (s.rd F.RIDGE_PHASE_HWM_HWM 2) endAt) ∧
      u.rd F.RIDGE_STAT_PHASE = if 35000 ≤ endAt then 4 else 0) :=
  phase_settles (p := 3) (by decide)
    (t := ((((s.steerPhase3 temp).oscPhase3).loopMonitors).judgeTemp temp).dropSeen s.fcu.evts.length)
    (by rw [exec_phase3, execPhase3, h]; rfl) (by simp (disch := decide))

theorem phase4_settles {s : State} (endAt : Nat) (checks : List (Nat × Nat)) (h : s.phaseFree 4 = true) :
    Settles (.phase4 endAt checks) s (fun u => u.ridge.done = s.ridge.done ++ [4] ∧ u.fcu.marked = true ∧
      u.rd F.RIDGE_PHASE_HWM_HWM 3 = satU 16 (max (s.rd F.RIDGE_PHASE_HWM_HWM 3) endAt) ∧ u.rd F.RIDGE_STAT_PHASE = 0) := by
  have hv : (checks.foldl State.checkFailed s.pairPhase4).fcuPhase4.ridgeView = s.ridgeView :=
    (State.ridgeView_fcuPhase4 _).trans ((State.ridgeView_foldl _ State.ridgeView_checkFailed checks).trans (State.ridgeView_pairPhase4 s))
  obtain ⟨hd, hw⟩ := State.phaseDone_of_beat (State.beat_of_ridgeView
    ((State.ridgeView_setMarked (checks.foldl State.checkFailed s.pairPhase4).fcuPhase4).trans hv)) 4 endAt
  refine ⟨_, by rw [exec_phase4, execPhase4, h]; rfl, hd, ?_, hw, ?_⟩
  · exact congrArg FcuSt.marked (State.phaseDone_fcu _ 4 endAt)
  · exact (State.phase_phaseDone _ 4 endAt).trans (by simp)

theorem phaseSlip_settles {s : State} {p : Nat} (hp : 1 ≤ p ∧ p ≤ 4) :
    Settles (.phaseSlip p) s (fun u => u.rd F.RIDGE_BEAT_OVR_SLIP_CNT = satU 16 (s.rd F.RIDGE_BEAT_OVR_SLIP_CNT + 1) ∧
      u.rd F.RIDGE_STAT_PHASE = p ∧ Occ.mk 9 0 false ∈ u.fcu.occs ∧
      OnlyRegsFcu s u [(F.RIDGE_BEAT_OVR_SLIP_CNT, 0), (F.RIDGE_STAT_PHASE, 0)]) := by
  refine ⟨_, (exec_phaseSlip p s).trans (State.execPhaseSlip_eq s hp), ?_, ?_, ?_, State.onlyRegsFcu_wr_raise_inc s _ _ 0 0 9 p⟩
  · rw [State.rd_wr_other _ (by decide) (by decide) (by decide), State.rd_raise, State.rd_inc]
    rfl
  · rw [State.rd_wr_same]
    exact Nat.mod_eq_of_lt (Nat.lt_of_le_of_lt hp.2 (by decide))
  · rw [State.wr_fcu, State.raise_occs]
    exact List.mem_append_right _ (.head _)

theorem beatOverrun_settles {s : State} (hr : s.ridge.running = true) (ho : s.ridge.overrun = false) (hd : s.ridge.done = []) :
    Settles .beatOverrun s (fun u => u.rd F.RIDGE_BEAT_OVR_OVR_CNT = satU 16 (s.rd F.RIDGE_BEAT_OVR_OVR_CNT + 1) ∧
      u.ridge.overrun = true ∧ Occ.mk 8 0 false ∈ u.fcu.occs ∧ u.gnss.latched = none ∧ (∀ p, u.phaseFree p = false) ∧ u.mem = s.mem) := by
  obtain ⟨kr, kc, ko, km⟩ := State.overrun_facts s
  obtain ⟨x, e⟩ := State.dropPhase1_eq s.overrun
  have hv : ((s.overrun.dropPhase1.eavesMiss 0).eavesMiss 1).ridgeView = s.overrun.ridgeView := by simp (disch := decide)
  have hk := (State.kept_eavesMiss s.overrun.dropPhase1 0).trans (State.kept_eavesMiss _ 1)
  have hov : ((s.overrun.dropPhase1.eavesMiss 0).eavesMiss 1).ridge.overrun = true := by
    rw [State.ridge_of_ridgeView hv, kr]
  refine ⟨_, (exec_beatOverrun s).trans (State.execBeatOverrun_eq hr ho hd), ?_, hov, hk.occs _ ?_, ?_, State.phaseFree_of_overrun hov, ?_⟩
  · rw [State.rd_of_ridgeView hv (by decide) (by decide), kc]
  · rw [e]
    exact ko
  · rw [hk.gnss, e]
  · rw [hk.mem, e]
    exact km

/-- Settles O1: what an edge or a phase does besides leaves the beat alone, so each clause is what `newBeat` and `phaseDone` do. -/
theorem beatsRunTheirPhases : Obligations.BeatsRunTheirPhases :=
  ⟨fun _ fec prbs load => beatEdge_settles fec prbs load, fun _ endAt epoch => phase1_settles endAt epoch, fun _ endAt => phase2_settles endAt,
    fun _ endAt temp => phase3_settles endAt temp, fun _ endAt checks => phase4_settles endAt checks, fun _ _ => phaseSlip_settles,
    fun _ => beatOverrun_settles⟩

end Sys2Proof.Machine

/-! ## The two obligations that fail

Settling the faults of a tick leaves the Ridge alone, so the effect that an obligation speaks of shows the Ridge that the command makes. -/

namespace Sys2Proof.Machine

theorem exec_addLoad (req w : Nat) (s : State) : exec (.addLoad req w) s = execAddLoad req w s := rfl
theorem exec_cmpDisable (req n w : Nat) (s : State) : exec (.cmpDisable req n w) s = execCmpDisable req n w s := rfl

/-- Whatever effect a command settles with, its Ridge is that of the state the command makes. -/
theorem settled_of_settles {c : Instr} {s v : State} {P : State → Prop} (h : Settles c s P) (hv : exec c s = done v) :
    ∃ u, P u ∧ u.ridgeView.settled = v.ridgeView.settled := by
  obtain ⟨u, hu, hp⟩ := h
  have e : u.close = v.close := Host.Outcome.next.inj (hu.symm.trans hv)
  exact ⟨u, hp, by rw [← State.settled_close u, e, State.settled_close]⟩

theorem State.rd_of_settled {s t : State} (h : t.ridgeView.settled = s.ridgeView.settled) {f : Fld}
    (hf : (!f.outside && decide (f.no < 1024) && decide (f.no ≠ F.RIDGE_CLASS_MAP_MAP.no)) = true) (i : Nat) : t.rd f i = s.rd f i := by
  simp only [Fld.outside, Bool.and_eq_true, Bool.not_eq_true', Bool.or_eq_false_iff, Bool.and_eq_false_iff, decide_eq_false_iff_not,
    decide_eq_true_eq] at hf
  have e := congrFun (congrArg RidgeView.reg h) (f.key i)
  have hk : 4 ≤ f.key i % 1024 ∧ f.key i % 1024 ≤ 51 := by simp only [Fld.key]; omega
  have hm : f.key i % 1024 ≠ F.RIDGE_CLASS_MAP_MAP.no := by simp only [Fld.key]; omega
  simp only [RidgeView.settled, ridgeView, ridgeRegs, if_neg hm, if_pos hk] at e
  simp only [State.rd, e]

/-! ### The loaded addend and Ridge B -/

/-- Both Ridges run, nothing is pending in Ridge B, and a rate is named there. -/
def namedIdle : State :=
  { State.reset with
    ridge := { running := true, b := { named := some 5 } }
    regs := [(F.RIDGE_CTL_B_EN.key 0, 1)] }

/-- Refutes O6: the loading of Ridge A's addend lets both Ridges run, and a Ridge B with nothing pending then forgets the rates named for
it, so what Ridge B keeps without a register does not stay as it was. -/
theorem not_ridgeRegistersAndMaps : ¬ Obligations.RidgeRegistersAndMaps := by
  unfold Obligations.RidgeRegistersAndMaps
  rintro ⟨-, -, -, -, -, -, -, -, addLoad, -, -⟩
  have h := addLoad namedIdle 0 (by decide) (by decide +kernel)
  obtain ⟨u, ⟨-, hb, -⟩, hv⟩ := settled_of_settles h (exec_addLoad 0 1 namedIdle)
  have hu : u.ridge.b.named = (namedIdle.put ⟨0, 0x4038, 2, true⟩ (fun s a => s.addLoad a 1)).1.ridge.b.named :=
    congrArg (fun v => v.ridge.b.named) hv
  have hn : (namedIdle.put ⟨0, 0x4038, 2, true⟩ (fun s a => s.addLoad a 1)).1.ridge.b.named = none := by decide +kernel
  have hs : u.ridge.b.named = some 5 := congrArg RidgeDom.named hb
  rw [hu, hn] at hs
  exact Option.some_ne_none 5 hs.symm

/-! ### A comparator that is disabled -/

/-- Comparator 0 is enabled, and the store holds an entry for its MODE that equals the reset value. -/
def spelledOut : State := { State.reset with regs := [(F.RIDGE_CMP_CTL_MODE.key 0, 0), (F.RIDGE_CMP_CTL_EN.key 0, 1)] }

/-- A field at the place of MODE with another reset value. -/
def modeElse : Fld := { F.RIDGE_CMP_CTL_MODE with rst := 5 }

/-- Refutes O7: CMP_DISABLE writes the unchanged MODE again, and the store drops an entry that equals the field's reset value. The clause
speaks of every state and every field, also of one that reads another reset value where there is no entry. -/
theorem not_comparatorsArmFireAndDisarm : ¬ Obligations.ComparatorsArmFireAndDisarm := by
  unfold Obligations.ComparatorsArmFireAndDisarm
  rintro ⟨-, -, disable, -⟩
  have h := disable spelledOut 0 0 0 (by decide) (by decide) (by decide +kernel) (by decide) (by decide +kernel)
  obtain ⟨u, ⟨-, -, hf⟩, hv⟩ := settled_of_settles h (exec_cmpDisable 0 0 0 spelledOut)
  have hu := State.rd_of_settled hv (f := modeElse) (by decide) 0
  have h₀ : spelledOut.rd modeElse 0 = 0 := by decide +kernel
  have h₁ : (spelledOut.put (cmpAcs 0 0) (fun s a => s.cmpCtlWrite a 0 (setBit 0 0 false))).1.rd modeElse 0 = 5 := by decide +kernel
  rw [h₁, hf modeElse 0 (by decide), h₀] at hu
  exact absurd hu (by decide)

end Sys2Proof.Machine

/-! ## Edge measurement: the rules of its state

What a channel's hidden state, its edges, its lock and the writes of its registers change, each said once. -/

namespace Sys2Proof.Machine

/-! ### Frames -/

/-- Field `f` shares its key with no field of `l`, whatever the indices. -/
def Fld.off (f : Fld) (l : List Fld) : Bool :=
  decide (f.no < 1024) && l.all (fun g => decide (g.no < 1024) && decide (f.no ≠ g.no))

theorem Fld.off_append {f : Fld} {l m : List Fld} (h : f.off (l ++ m) = true) : f.off l = true ∧ f.off m = true := by
  simp only [Fld.off, List.all_append, Bool.and_eq_true] at h ⊢
  exact ⟨⟨h.1, h.2.1⟩, h.1, h.2.2⟩

theorem Fld.lt_of_off {f : Fld} {l : List Fld} (h : f.off l = true) : f.no < 1024 :=
  of_decide_eq_true (Bool.and_eq_true _ _ ▸ h).1

theorem Fld.ne_of_off {f g : Fld} {l : List Fld} (h : f.off l = true) (hg : g ∈ l) : g.no < 1024 ∧ f.no ≠ g.no := by
  simp only [Fld.off, Bool.and_eq_true, List.all_eq_true, decide_eq_true_eq] at h
  exact h.2 g hg

/-- A field whose number is not listed reads the same at every index. -/
theorem RegsBut.rd {s u : State} {l : List (Fld × Nat)} (h : RegsBut s u l) {f : Fld} (hf : f.off (l.map Prod.fst) = true) (i : Nat) :
    u.rd f i = s.rd f i :=
  h f i fun _ hp => have hg := Fld.ne_of_off hf (List.mem_map_of_mem hp); Fld.key_ne hg.1 (Fld.lt_of_off hf) (.inl hg.2)

theorem RegsBut.on {s u : State} {l : List (Fld × Nat)} (h : RegsBut s u l) {f : Fld} (hf : f.off (l.map Prod.fst) = true) (i : Nat) :
    u.on f i = s.on f i := congrArg (· != 0) (h.rd hf i)

theorem State.rd_wr_off (s : State) {f g : Fld} {l : List Fld} (hf : f.off l = true) (hg : g ∈ l) (v i j : Nat) :
    (s.wr g v j).rd f i = s.rd f i :=
  have h := Fld.ne_of_off hf hg; rd_wr_other s h.1 (Fld.lt_of_off hf) h.2 v j i

theorem OnlyRegs.refl (s : State) (l : List (Fld × Nat)) : OnlyRegs s s l := ⟨rfl, .refl s l⟩

theorem OnlyRegs.trans {s t u : State} {l : List (Fld × Nat)} (h : OnlyRegs s t l) (k : OnlyRegs t u l) : OnlyRegs s u l :=
  ⟨by rw [← k.1, ← h.1], h.2.trans k.2⟩

theorem OnlyRegs.wr {s u : State} {l : List (Fld × Nat)} (h : OnlyRegs s u l) {g : Fld} {j : Nat} (hg : (g, j) ∈ l) (v : Nat) :
    OnlyRegs s (u.wr g v j) l := ⟨by rw [← h.1]; rfl, h.2.wr hg v⟩

theorem OnlyRegs.rst {s u : State} {l : List (Fld × Nat)} (h : OnlyRegs s u l) {g : Fld} {j : Nat} (hg : (g, j) ∈ l) :
    OnlyRegs s (u.rst g j) l := ⟨by rw [← h.1]; rfl, h.2.rst hg⟩

/-- Only the register fields listed, what the edge measurement array keeps without a register, and the fault collector's own record of
occurrences and conditions differ. -/
def OnlyTdc (s u : State) (l : List (Fld × Nat)) : Prop :=
  { s with regs := u.regs, tdc := u.tdc, fcu := u.fcu } = u ∧ RegsBut s u l

theorem OnlyTdc.refl (s : State) (l : List (Fld × Nat)) : OnlyTdc s s l := ⟨rfl, .refl s l⟩

theorem OnlyTdc.trans {s t u : State} {l : List (Fld × Nat)} (h : OnlyTdc s t l) (k : OnlyTdc t u l) : OnlyTdc s u l :=
  ⟨by rw [← k.1, ← h.1], h.2.trans k.2⟩

theorem OnlyTdc.mono {s u : State} {l m : List (Fld × Nat)} (h : OnlyTdc s u l) (hl : ∀ p ∈ l, p ∈ m) : OnlyTdc s u m :=
  ⟨h.1, h.2.mono hl⟩

theorem OnlyTdc.wr {s u : State} {l : List (Fld × Nat)} (h : OnlyTdc s u l) {g : Fld} {j : Nat} (hg : (g, j) ∈ l) (v : Nat) :
    OnlyTdc s (u.wr g v j) l := ⟨by rw [← h.1]; rfl, h.2.wr hg v⟩

theorem OnlyRegs.onlyTdc {s u : State} {l : List (Fld × Nat)} (h : OnlyRegs s u l) : OnlyTdc s u l := ⟨by rw [← h.1], h.2⟩

theorem OnlyTdc.mem {s u : State} {l : List (Fld × Nat)} (h : OnlyTdc s u l) : u.mem = s.mem := by rw [← h.1]
theorem OnlyTdc.out {s u : State} {l : List (Fld × Nat)} (h : OnlyTdc s u l) : u.out = s.out := by rw [← h.1]
theorem OnlyTdc.ridge {s u : State} {l : List (Fld × Nat)} (h : OnlyTdc s u l) : u.ridge = s.ridge := by rw [← h.1]

theorem OnlyTdc.raise (s : State) (l : List (Fld × Nat)) (fs n : Nat) : OnlyTdc s (s.raise fs n) l := ⟨rfl, .same (.refl s l) rfl⟩
theorem OnlyTdc.condOff (s : State) (l : List (Fld × Nat)) (fs n : Nat) : OnlyTdc s (s.condOff fs n) l := ⟨rfl, .same (.refl s l) rfl⟩

theorem condOn_eq (s : State) (fs n : Nat) : { s with fcu := (s.condOn fs n).fcu } = s.condOn fs n := by
  unfold State.condOn
  split <;> rfl

theorem OnlyTdc.condOn (s : State) (l : List (Fld × Nat)) (fs n : Nat) : OnlyTdc s (s.condOn fs n) l :=
  ⟨by rw [← condOn_eq], .same (.refl s l) (State.condOn_regs s fs n)⟩

theorem OnlyTdc.setTch (s : State) (l : List (Fld × Nat)) (n : Nat) (c : TdcCh) : OnlyTdc s (s.setTch n c) l :=
  ⟨rfl, .same (.refl s l) rfl⟩

/-- What the edge measurement array keeps without a register becomes `x`. -/
def State.setTdc (s : State) (x : TdcSt) : State := { s with tdc := x }

theorem State.rd_setTdc (s : State) (x : TdcSt) (f : Fld) (i : Nat) : (s.setTdc x).rd f i = s.rd f i := rfl

theorem OnlyTdc.setTdc (s : State) (l : List (Fld × Nat)) (x : TdcSt) : OnlyTdc s (s.setTdc x) l := ⟨rfl, .same (.refl s l) rfl⟩

theorem OnlyTdc.foldl {α : Type} {l : List (Fld × Nat)} {f : State → α → State} (xs : List α) (s : State)
    (h : ∀ s, ∀ x ∈ xs, OnlyTdc s (f s x) l) : OnlyTdc s (xs.foldl f s) l := by
  induction xs generalizing s with
  | nil => exact .refl s l
  | cons x t ih => exact (h s x (.head _)).trans (ih (f s x) fun s y hy => h s y (.tail _ hy))

/-! ### Work done for each index -/

theorem forN_succ (k : Nat) (s : State) (f : State → Nat → State) : forN (k + 1) s f = f (forN k s f) k := by
  rw [forN, List.range_succ, List.foldl_append]
  rfl

/-- Where no index changes anything, nothing changes. -/
theorem forN_idle {s : State} {f : State → Nat → State} {k : Nat} (h : ∀ m < k, f s m = s) : forN k s f = s := by
  induction k with
  | zero => rfl
  | succ k ih => rw [forN_succ, ih fun m hm => h m (by omega), h k (by omega)]

/-- Where one index alone changes anything, the change is that index's. -/
theorem forN_single {s : State} {f : State → Nat → State} {n k : Nat} (hn : n < k)
    (h : ∀ m < k, m ≠ n → f s m = s ∧ f (f s n) m = f s n) : forN k s f = f s n := by
  induction k with
  | zero => omega
  | succ k ih =>
    rw [forN_succ]
    obtain rfl | hk : n = k ∨ n < k := by omega
    · rw [forN_idle fun m hm => (h m (by omega) (by omega)).1]
    · rw [ih hk fun m hm => h m (by omega), (h k (by omega) (by omega)).2]

namespace State
variable (s : State)

theorem setTch_regs (n : Nat) (c : TdcCh) : (s.setTch n c).regs = s.regs := rfl

theorem tch_setTch {n : Nat} (h : n < s.tdc.ch.length) (c : TdcCh) : (s.setTch n c).tch n = c := by
  simp [tch, setTch, h]

/-! ### Edges (R50 to R64) -/

/-- The state with `cnt` rising edges of source `src` left to drop. -/
def setPreRise (src cnt : Nat) : State := { s with tdc := { s.tdc with preRise := s.tdc.preRise.set src cnt } }

theorem onlyTdc_setPreRise (l : List (Fld × Nat)) (src cnt : Nat) : OnlyTdc s (s.setPreRise src cnt) l := ⟨rfl, .same (.refl s l) rfl⟩

variable {s}

/-- A rising edge counts on its prescaler, and goes on when the count has run out (R55). -/
theorem crossEdge_rise {src : Nat} (hs : src < 64) (pos : Nat) : s.crossEdge src false pos =
    if s.tdc.preRise.getD src 0 ≠ 0 ∨ !s.on F.TDC_CTL_EN then
      s.setPreRise src (if s.tdc.preRise.getD src 0 = 0 then s.rd F.TDC_XB_PRE_DIV src - 1 else s.tdc.preRise.getD src 0 - 1)
    else forN 48 (s.setPreRise src
      (if s.tdc.preRise.getD src 0 = 0 then s.rd F.TDC_XB_PRE_DIV src - 1 else s.tdc.preRise.getD src 0 - 1))
      (fun s n => s.channelEdge src false pos n) := by
  unfold crossEdge
  rw [if_neg (by omega)]
  rfl

theorem crossEdge_held {src : Nat} (hs : src < 64) (h : s.tdc.preRise.getD src 0 ≠ 0) (pos : Nat) :
    s.crossEdge src false pos = s.setPreRise src (s.tdc.preRise.getD src 0 - 1) := by
  rw [crossEdge_rise hs, if_pos (.inl h), if_neg h]

theorem crossEdge_passed {src : Nat} (hs : src < 64) (h : s.tdc.preRise.getD src 0 = 0) (he : s.on F.TDC_CTL_EN = true) (pos : Nat) :
    s.crossEdge src false pos =
      forN 48 (s.setPreRise src (s.rd F.TDC_XB_PRE_DIV src - 1)) (fun s n => s.channelEdge src false pos n) := by
  rw [crossEdge_rise hs, if_neg (by rw [h, he]; decide), if_pos h]

theorem channelEdge_disabled {n : Nat} (h : s.tdcState n = Tdc.disabled) (src : Nat) (fall : Bool) (pos : Nat) :
    s.channelEdge src fall pos n = s := by
  unfold channelEdge
  dsimp only
  rw [h, if_neg (by decide), if_neg (by decide), if_pos (by decide)]

theorem channelEdge_stamps {src n : Nat} (h : s.tdcState n = Tdc.running) (hm : s.on F.TDC_CH_CTL_MODE n = false)
    (hs : s.rd F.TDC_CH_SRC_START_SRC n = src) {fall : Bool} (hf : s.on F.TDC_CH_CTL_START_FALL n = fall) (pos : Nat) :
    s.channelEdge src fall pos n = s.stampEdge n src pos := by
  unfold channelEdge
  dsimp only
  rw [h, if_neg (by decide), if_neg (by decide), if_neg (by decide), hm, hs, hf, if_pos (by decide), if_pos (by simp)]

/-- The state in which channel `n` has counted one edge more (R58). -/
def nextIdx (s : State) (n : Nat) : State := s.setTch n { s.tch n with idx := ((s.tch n).idx + 1) % 2 ^ 32 }

theorem stampEdge_in_dead_time {n src pos : Nat} (h : s.measOk = true) (hd : inDeadTime (s.tch n).lastStart (s.rawTime pos) = true) :
    s.stampEdge n src pos = (s.nextIdx n).missEdge n := by
  unfold stampEdge
  dsimp only
  rw [h, if_neg (by decide), if_pos hd]
  rfl

theorem rd_missed_missEdge (n : Nat) : (s.missEdge n).rd F.TDC_CH_CNT_MISSED n =
    satU F.TDC_CH_CNT_MISSED.w (s.rd F.TDC_CH_CNT_MISSED n + 1) % 2 ^ F.TDC_CH_CNT_MISSED.w := by
  unfold missEdge
  rw [rd_raise, inc_eq, rd_wr_same]

theorem occ_missEdge (n : Nat) : Occ.mk 18 (s.tdcSnap n) false ∈ (s.missEdge n).fcu.occs := by
  unfold missEdge
  rw [raise_occs]
  exact List.mem_append_right _ (.head _)

theorem onlyTdc_missEdge (n : Nat) : OnlyTdc s (s.missEdge n) [(F.TDC_CH_CNT_MISSED, n)] :=
  ((OnlyTdc.refl s _).wr (.head _) _).trans (.raise _ _ 18 _)

theorem onlyTdc_nextIdx (l : List (Fld × Nat)) (n : Nat) : OnlyTdc s (s.nextIdx n) l := .setTch s l n _

theorem onlyTdc_missed (n : Nat) : OnlyTdc s ((s.nextIdx n).missEdge n) [(F.TDC_CH_CNT_MISSED, n)] :=
  (onlyTdc_nextIdx _ n).trans (onlyTdc_missEdge n)

/-- An edge in the dead time of the one channel that runs is missed there, and reaches no other (R53). -/
theorem channelEdges_missed {src n pos : Nat} (hn : n < 48) (hk : s.measOk = true) (ho : ∀ m, m < 48 → m ≠ n → s.tdcState m = 0)
    (hr : s.tdcState n = 2) (hm : s.on F.TDC_CH_CTL_MODE n = false) (hf : s.on F.TDC_CH_CTL_START_FALL n = false)
    (hc : s.rd F.TDC_CH_SRC_START_SRC n = src) (hd : inDeadTime (s.tch n).lastStart (s.rawTime pos) = true) :
    forN 48 s (fun s m => s.channelEdge src false pos m) = (s.nextIdx n).missEdge n := by
  have hx : s.channelEdge src false pos n = (s.nextIdx n).missEdge n :=
    (channelEdge_stamps hr hm hc hf pos).trans (stampEdge_in_dead_time hk hd)
  refine (forN_single hn fun m hm hne => ⟨channelEdge_disabled (ho m hm hne) .., ?_⟩).trans hx
  rw [hx]
  exact channelEdge_disabled (((onlyTdc_missed n).2.rd rfl m).trans (ho m hm hne)) ..

/-! ### Windows -/

theorem closeRec_without_ring {n : Nat} (h : s.on F.TDC_CH_CTL_RING_EN n = false) (restart timeout : Bool) :
    s.closeRec n restart timeout = s := by
  unfold closeRec ringRec
  dsimp only
  rw [h]
  rfl

theorem rd_window_rearm (n : Nat) : (s.rearm n).rd F.TDC_CH_STAT_WINDOW n = if s.on F.TDC_CH_CTL_ARM_SEL n then 0 else 1 := by
  unfold rearm
  rw [rd_wr_same]
  split <;> rfl

end State

theorem exec_tdcEdge (src : Nat) (fall : Bool) (pos : Nat) (s : State) : exec (.tdcEdge src fall pos) s = execTdcEdge src fall pos s := rfl
theorem exec_windowTimeout (n : Nat) (s : State) : exec (.windowTimeout n) s = execWindowTimeout n s := rfl

/-- Settles O8: an edge held back moves the prescaler alone, one in the dead time is missed by the one channel that runs, and a window
that times out is armed anew. -/
theorem edgesPassThePrescaler : Obligations.EdgesPassThePrescaler := by
  refine ⟨fun s src pos hs h => ?_, fun s src n pos hs hn hl hp hk ho hr hm hf hc hd => ?_, fun s n hw hr => ?_⟩
  · exact ⟨_, (exec_tdcEdge ..).trans (congrArg done (State.crossEdge_held hs h pos)), rfl⟩
  · have he : s.on F.TDC_CTL_EN = true := (Bool.and_eq_true _ _ ▸ hk).1
    let t := s.setPreRise src (s.rd F.TDC_XB_PRE_DIV src - 1)
    have hx : s.crossEdge src false pos = (t.nextIdx n).missEdge n :=
      (State.crossEdge_passed hs hp he pos).trans (State.channelEdges_missed (s := t) hn hk ho hr hm hf hc hd)
    have ht : ((t.nextIdx n).missEdge n).tch n = { s.tch n with idx := ((s.tch n).idx + 1) % 2 ^ 32 } :=
      State.tch_setTch t (hl.symm ▸ hn) _
    have h := (State.onlyTdc_setPreRise s _ src (s.rd F.TDC_XB_PRE_DIV src - 1)).trans (State.onlyTdc_missed (s := t) n)
    exact ⟨_, (exec_tdcEdge ..).trans (congrArg done hx), by rw [ht], by rw [ht], State.rd_missed_missEdge n,
      State.occ_missEdge n, h.mem, h.out, h.2⟩
  · have hx : execWindowTimeout n s = done (s.rearm n) := by
      rw [execWindowTimeout, if_pos hw, State.closeRec_without_ring hr]
    exact ⟨_, (exec_windowTimeout n s).trans hx, State.rd_window_rearm n, (OnlyRegs.refl s _).wr (.head _) _⟩

end Sys2Proof.Machine

/-! ## Locking, starting and stopping a channel (Table TDC-4) -/

namespace Sys2Proof.Machine

theorem exec_tdcChEnable (req n w : Nat) (s : State) : exec (.tdcChEnable req n w) s = execTdcChEnable req n w s := rfl
theorem exec_tdcChDisable (req n w : Nat) (s : State) : exec (.tdcChDisable req n w) s = execTdcChDisable req n w s := rfl
theorem exec_tdcStopDone (n : Nat) (s : State) : exec (.tdcStopDone n) s = execTdcStopDone n s := rfl
theorem exec_lockAcquired (n : Nat) (s : State) : exec (.lockAcquired n) s = execLockAcquired n s := rfl
theorem exec_lockLost (n : Nat) (s : State) : exec (.lockLost n) s = execLockLost n s := rfl
theorem exec_lockTimeout (n : Nat) (s : State) : exec (.lockTimeout n) s = execLockTimeout n s := rfl

/-! ### Words -/

theorem bits_setBit_zero (w : Nat) (b : Bool) : bits (setBit w 0 b) 0 1 = b.toNat := by
  have := b.toNat_lt
  simp only [setBit, setBits, bits, Nat.pow_zero, Nat.pow_one, Nat.div_one, Nat.mul_one]
  omega

/-- Bit 0 of a word is none of its higher bits. -/
theorem bits_setBit_zero_above (w : Nat) (b : Bool) (lo k : Nat) : bits (setBit w 0 b) (lo + 1) k = bits w (lo + 1) k := by
  have := b.toNat_lt
  have h : setBit w 0 b / 2 = w / 2 := by
    simp only [setBit, setBits, bits, Nat.pow_zero, Nat.pow_one, Nat.div_one, Nat.mul_one]
    omega
  rw [bits, bits, Nat.pow_succ', ← Nat.div_div_eq_div_mul, h, Nat.div_div_eq_div_mul]

namespace State
variable {s : State} {n : Nat}

/-! ### The fields of an accepted word -/

/-- The state after the fields `fs` at index `i` have taken their bits of `w`. -/
def takeFlds (s : State) (fs : List Fld) (i w : Nat) : State := fs.foldl (fun s f => s.wr f (bits w f.lo f.w) i) s

theorem onlyRegs_takeFlds (fs : List Fld) (i w : Nat) : OnlyRegs s (s.takeFlds fs i w) (fs.map (·, i)) := by
  have h : ∀ (l : List Fld) (t : State), (∀ f ∈ l, f ∈ fs) → OnlyRegs t (t.takeFlds l i w) (fs.map (·, i)) := by
    intro l
    induction l with
    | nil => exact fun t _ => .refl t _
    | cons f l ih =>
      intro t hl
      have hf : (f, i) ∈ fs.map (·, i) := List.mem_map_of_mem (hl f (.head _))
      exact ((OnlyRegs.refl t _).wr hf _).trans (ih _ fun g hg => hl g (.tail _ hg))
  exact h fs s fun _ hf => hf

/-- Of fields with numbers of their own each reads its bits of the word. -/
theorem rd_takeFlds {fs : List Fld} (hl : ∀ f ∈ fs, f.no < 1024) (hd : (fs.map Fld.no).Nodup) {g : Fld} (hg : g ∈ fs) (i w : Nat) :
    (s.takeFlds fs i w).rd g i = bits w g.lo g.w := by
  induction fs generalizing s with
  | nil => cases hg
  | cons f t ih =>
    rw [List.map_cons, List.nodup_cons] at hd
    obtain ⟨hf, hd⟩ := hd
    have ht : ∀ f ∈ t, f.no < 1024 := fun h hh => hl h (.tail _ hh)
    obtain rfl | hg := List.mem_cons.mp hg
    · refine ((onlyRegs_takeFlds (s := s.wr g _ i) t i w).2 g i fun p hp => ?_).trans ((rd_wr_same s g _ i).trans (bits_mod w _ _))
      obtain ⟨h, hh, rfl⟩ := List.mem_map.mp hp
      exact Fld.key_ne (ht h hh) (hl g (.head _)) (.inl fun e => hf (e ▸ List.mem_map_of_mem hh))
    · exact ih ht hd hg

/-- The last field of a write takes its bits when it is an RW field, not locked and in range. -/
theorem rd_fieldWrite_last {lock : Fld → Bool} {ok : Fld → Nat → Bool} {f : Fld} {w : Nat} (ha : f.acc = .rw) (hl : lock f = false)
    (hr : ok f (bits w f.lo f.w) = true) (fs : List Fld) (i : Nat) :
    (s.fieldWrite lock ok (fs ++ [f]) i w).1.rd f i = bits w f.lo f.w := by
  have h : ∀ r : State × List Nat, (State.fieldStep lock ok i w r f).1 = r.1.wr f (bits w f.lo f.w) i := fun r => by
    simp [fieldStep, ha, hl, hr]
  rw [fieldWrite, List.foldl_append, List.foldl_cons, List.foldl_nil, h, rd_wr_same, bits_mod]

/-! ### Conditions -/

theorem isLive_condOn (fs snap : Nat) : (s.condOn fs snap).isLive fs = true := by
  unfold condOn
  split
  · next h =>
    obtain ⟨c, hc, he⟩ := List.any_eq_true.mp h
    rw [isLive, Bool.or_eq_true]
    exact .inl (List.any_eq_true.mpr ⟨c, hc, (Bool.and_eq_true _ _ ▸ he).1⟩)
  · simp [isLive]

theorem isLive_of_fcu {s t : State} (h : t.fcu = s.fcu) (fs : Nat) : t.isLive fs = s.isLive fs := by simp only [isLive, h]

theorem conds_condOff (fs snap : Nat) : ∀ c ∈ (s.condOff fs snap).fcu.conds, ¬(c.fs = fs ∧ c.snap = snap) := by
  rintro c hc ⟨h₁, h₂⟩
  have h := (List.mem_filter.mp hc).2
  simp [h₁, h₂] at h

/-! ### Gates -/

theorem forN_tdc {f : State → Nat → State} (h : ∀ s n, { s with tdc := (f s n).tdc } = f s n) (k : Nat) :
    { s with tdc := (forN k s f).tdc } = forN k s f := by
  induction k with
  | zero => rfl
  | succ k ih => rw [forN_succ, ← h (forN k s f) k, ← ih]

theorem mapGates_eq (f : Gate → Gate) (p : Nat → Bool) : { s with tdc := (s.mapGates f p).tdc } = s.mapGates f p :=
  forN_tdc (fun s n => by split <;> rfl) 48

theorem onlyTdc_mapGates (l : List (Fld × Nat)) (f : Gate → Gate) (p : Nat → Bool) : OnlyTdc s (s.mapGates f p) l := by
  rw [← mapGates_eq]
  exact ⟨rfl, .same (.refl s l) rfl⟩

theorem mapGates_fcu (f : Gate → Gate) (p : Nat → Bool) : (s.mapGates f p).fcu = s.fcu := by rw [← mapGates_eq]

/-! ### The lock of a delay line (R73, R85) -/

theorem onlyRegs_setLocked (n : Nat) (b : Bool) :
    OnlyRegs s (s.setLocked n b) [(F.TDC_CH_STAT_LOCKED, n), (F.TDC_STAT_FINE_LOCKED, 0)] :=
  ((OnlyRegs.refl s _).wr (.head _) _).wr (.tail _ (.head _)) _

theorem on_locked_setLocked (n : Nat) (b : Bool) : (s.setLocked n b).on F.TDC_CH_STAT_LOCKED n = b := by
  rw [on, setLocked, wrBit_eq, rd_wr_other _ (by decide) (by decide) (by decide), wrB_eq, rd_wr_same]
  cases b <;> rfl

/-- The delay line of channel `n` has unlocked. -/
def unlock (s : State) (n : Nat) : State := (s.setLocked n false).condOn 16 (s.tdcSnap n)

theorem onlyTdc_unlock (n : Nat) : OnlyTdc s (s.unlock n) [(F.TDC_CH_STAT_LOCKED, n), (F.TDC_STAT_FINE_LOCKED, 0)] :=
  (onlyRegs_setLocked n false).onlyTdc.trans (.condOn _ _ 16 _)

/-- A channel that begins to run has its state and its window set; the rest is not in a register. -/
theorem chanRun_eq (n : Nat) : ∃ x v, s.chanRun n =
    ((s.wr F.TDC_CH_STAT_STATE Tdc.running n).setTdc x).wr F.TDC_CH_STAT_WINDOW v n := by
  unfold chanRun
  extract_lets s₁ c s₂ src s₃
  split
  · exact ⟨s₃.tdc, _, rfl⟩
  · exact ⟨s₃.tdc, _, rfl⟩

theorem onlyTdc_chanRun (n : Nat) : OnlyTdc s (s.chanRun n) [(F.TDC_CH_STAT_STATE, n), (F.TDC_CH_STAT_WINDOW, n)] := by
  obtain ⟨x, v, e⟩ := chanRun_eq (s := s) n
  rw [e]
  exact (((OnlyTdc.refl s _).wr (.head _) _).trans (.setTdc _ _ x)).wr (.tail _ (.head _)) v

theorem tdcState_chanRun (n : Nat) : (s.chanRun n).tdcState n = Tdc.running := by
  obtain ⟨x, v, e⟩ := chanRun_eq (s := s) n
  rw [e, tdcState, rd_wr_other _ (by decide) (by decide) (by decide), rd_setTdc, rd_wr_same]
  rfl

/-- A LOCKING channel whose delay line has locked is LOCKED and runs. -/
def locks (s : State) (n : Nat) : State := ((s.setLocked n true).condOff 16 (s.tdcSnap n)).chanRun n

theorem onlyTdc_locks (n : Nat) : OnlyTdc s (s.locks n) [(F.TDC_CH_STAT_LOCKED, n), (F.TDC_STAT_FINE_LOCKED, 0),
    (F.TDC_CH_STAT_STATE, n), (F.TDC_CH_STAT_WINDOW, n)] :=
  (((onlyRegs_setLocked n true).onlyTdc.mono (by simp)).trans (.condOff _ _ 16 _)).trans ((onlyTdc_chanRun n).mono (by simp))

theorem on_locked_locks (n : Nat) : (s.locks n).on F.TDC_CH_STAT_LOCKED n = true :=
  ((onlyTdc_chanRun n).2.on rfl n).trans (on_locked_setLocked (s := s) n true)

/-! ### Starting (R83, R84) -/

/-- The counters of a channel that clear when it starts. -/
def startFlds : List Fld :=
  [F.TDC_RING_LOST_LOST, F.TDC_CH_CNT_MISSED, F.TDC_CH_CNT_ORPHANS, F.TDC_CH_CNT_RESTARTS, F.TDC_RES_INFO_GATE_SEQ]

theorem onlyRegs_rstStart (n : Nat) : OnlyRegs s (s.rstFlds startFlds n) (startFlds.map (·, n)) :=
  (((((OnlyRegs.refl s _).rst (by simp [startFlds])).rst (by simp [startFlds])).rst (by simp [startFlds])).rst (by simp [startFlds])).rst
    (by simp [startFlds])

theorem chanStart_fine (h : s.tdcFine n = true) :
    s.chanStart n = (s.rstFlds startFlds n).wr F.TDC_CH_STAT_STATE Tdc.locking n := by
  have hf : (s.rstFlds startFlds n).tdcFine n = true := by
    rwa [tdcFine, tdcPhys, (onlyRegs_rstStart n).2.rd rfl n]
  exact if_pos hf

theorem onlyRegs_chanStart (h : s.tdcFine n = true) :
    OnlyRegs s (s.chanStart n) ((F.TDC_CH_STAT_STATE, n) :: startFlds.map (·, n)) := by
  rw [chanStart_fine h]
  have k := onlyRegs_rstStart (s := s) n
  exact OnlyRegs.wr ⟨k.1, k.2.mono fun _ hp => .tail _ hp⟩ (.head _) _

theorem tdcState_chanStart (h : s.tdcFine n = true) : (s.chanStart n).tdcState n = Tdc.locking := by
  rw [chanStart_fine h, tdcState, rd_wr_same]
  rfl

theorem rd_gateSeq_chanStart (h : s.tdcFine n = true) : (s.chanStart n).rd F.TDC_RES_INFO_GATE_SEQ n = 0 := by
  rw [chanStart_fine h, rd_wr_other _ (by decide) (by decide) (by decide)]
  exact rd_rst_same _ F.TDC_RES_INFO_GATE_SEQ n

/-! ### A write of TDC_CH_CTL (R84, R503) -/

/-- Whether field `f` of TDC_CH_CTL[n] is locked. -/
def tdcCtlLock (s : State) (n : Nat) (f : Fld) : Bool :=
  if f.among [F.TDC_CH_CTL_EN] then s.isSpare n
  else if s.testing n then true
  else if f.among [F.TDC_CH_CTL_OOS] then false
  else s.tdcState n != Tdc.disabled && s.tdcState n != Tdc.oos

/-- What follows when EN has been written, in a channel whose state was `st` and whose EN was `was`. -/
def followEn (s : State) (st : Nat) (was : Bool) (n : Nat) : State :=
  if s.on F.TDC_CH_CTL_EN n && !was then
    (if st = Tdc.disabled then s.chanStart n
     else if st = Tdc.stopping ∨ s.testing n then s.wr F.TDC_CH_STAT_PENDING_ENABLE 1 n else s)
  else if was && !s.on F.TDC_CH_CTL_EN n then
    (if st = Tdc.stopping ∨ s.testing n then s.wr F.TDC_CH_STAT_PENDING_ENABLE 0 n
     else if st = Tdc.locking ∨ st = Tdc.running ∨ st = Tdc.cal then s.chanStop n else s)
  else s

/-- What follows when OOS has been written, in a channel whose OOS was `was`. -/
def followOos (s : State) (was : Bool) (n : Nat) : State :=
  if s.on F.TDC_CH_CTL_OOS n && !was && s.tdcState n == Tdc.disabled then s.wr F.TDC_CH_STAT_STATE Tdc.oos n
  else if was && !s.on F.TDC_CH_CTL_OOS n && s.tdcState n == Tdc.oos then s.wr F.TDC_CH_STAT_STATE Tdc.disabled n
  else s

theorem tdcCtlWrite_eq (s : State) (a : Acs) (n w : Nat) : s.tdcCtlWrite a n w =
    ((((s.fieldWrite (s.tdcCtlLock n) inRange tdcCtlFlds n w).1.followEn (s.tdcState n) (s.on F.TDC_CH_CTL_EN n) n).followOos
      (s.on F.TDC_CH_CTL_OOS n) n).conclude a (s.fieldWrite (s.tdcCtlLock n) inRange tdcCtlFlds n w).2) := rfl

theorem followEn_starts (h : s.on F.TDC_CH_CTL_EN n = true) : s.followEn Tdc.disabled false n = s.chanStart n := by
  rw [followEn, h]
  rfl

theorem followEn_stops (h : s.on F.TDC_CH_CTL_EN n = false) (ht : s.testing n = false) :
    s.followEn Tdc.running true n = s.chanStop n := by
  rw [followEn, h, ht]
  rfl

theorem followOos_idle (h : s.on F.TDC_CH_CTL_OOS n = false ∨ s.tdcState n ≠ Tdc.disabled) : s.followOos false n = s := by
  have hn : (s.on F.TDC_CH_CTL_OOS n && !false && s.tdcState n == Tdc.disabled) = false := by
    obtain h | h := h
    · rw [h, Bool.false_and, Bool.false_and]
    · rw [beq_eq_false_iff_ne.mpr h, Bool.and_false]
  rw [followOos, hn]
  rfl

/-- The fields of TDC_CH_CTL are open in a disabled channel that is no spare and not under test. -/
theorem tdcCtlLock_open (hs : s.tdcState n = Tdc.disabled) (hp : s.isSpare n = false) (ht : s.testing n = false) (f : Fld) :
    s.tdcCtlLock n f = false := by
  simp [tdcCtlLock, hs, hp, ht]

theorem fieldWrite_tdcCtl {w : Nat} (hs : s.tdcState n = Tdc.disabled) (hp : s.isSpare n = false) (ht : s.testing n = false)
    (hw : Fits tdcCtlFlds w = true) : s.fieldWrite (s.tdcCtlLock n) inRange tdcCtlFlds n w = (s.takeFlds tdcCtlFlds n w, []) :=
  fieldWrite_fits (fun f _ => tdcCtlLock_open hs hp ht f) hw s

theorem rd_tdcCtl {g : Fld} (hg : g ∈ tdcCtlFlds) (n w : Nat) : (s.takeFlds tdcCtlFlds n w).rd g n = bits w g.lo g.w :=
  rd_takeFlds (by decide) (by decide) hg n w

section
variable {w : Nat} (hs : s.tdcState n = Tdc.disabled) (he : s.on F.TDC_CH_CTL_EN n = false) (ho : s.on F.TDC_CH_CTL_OOS n = false)
  (hp : s.isSpare n = false) (ht : s.testing n = false) (hf : s.tdcFine n = true)
include hf

theorem tdcFine_takeFlds : (s.takeFlds tdcCtlFlds n w).tdcFine n = true := by
  rwa [tdcFine, tdcPhys, (onlyRegs_takeFlds tdcCtlFlds n w).2.rd rfl n]

include hs he ho hp ht

/-- An enable starts a disabled channel, with the other fields as the word gives them. -/
theorem tdcCtlWrite_starts (hw : Fits tdcCtlFlds w = true) (h₀ : bits w 0 1 = 1) (h₅ : bits w 5 1 = 0) (a : Acs) :
    (s.tdcCtlWrite a n w).1 = (s.takeFlds tdcCtlFlds n w).chanStart n := by
  have hen : (s.takeFlds tdcCtlFlds n w).on F.TDC_CH_CTL_EN n = true := by
    rw [on, rd_tdcCtl (by decide), show bits w F.TDC_CH_CTL_EN.lo F.TDC_CH_CTL_EN.w = 1 from h₀]
    rfl
  have hoos : ((s.takeFlds tdcCtlFlds n w).chanStart n).on F.TDC_CH_CTL_OOS n = false := by
    rw [(onlyRegs_chanStart (tdcFine_takeFlds hf)).2.on rfl, on, rd_tdcCtl (by decide),
      show bits w F.TDC_CH_CTL_OOS.lo F.TDC_CH_CTL_OOS.w = 0 from h₅]
    rfl
  rw [tdcCtlWrite_eq, fieldWrite_tdcCtl hs hp ht hw, hs, he, ho, followEn_starts hen, followOos_idle (.inl hoos), conclude_nil]

end

/-! ### Stopping (Table TDC-4) -/

/-- The fields of a ring that its records move. -/
def ringFlds (n : Nat) : List (Fld × Nat) := [(F.TDC_RING_WR_PTR, n), (F.TDC_RING_LOST_LOST, n)]

theorem regsBut_ringStore (n value seq word : Nat) : RegsBut s (s.ringStore n value seq word) (ringFlds n) := by
  unfold ringStore
  exact ((RegsBut.refl s (ringFlds n)).same (mwr_regs s _ 16 _)).wr (.head _) _

theorem regsBut_ringReport (n : Nat) : RegsBut s (s.ringReport n) (ringFlds n) := by
  unfold ringReport
  dsimp only
  split
  · exact .same (regsBut_ringStore n _ _ _) (setTch_regs _ n _)
  · exact .refl s _

theorem regsBut_ringPut (n value seq word : Nat) : RegsBut s (s.ringPut n value seq word) (ringFlds n) := by
  refine (regsBut_ringReport n).trans ?_
  unfold ringPut
  extract_lets s₁ c s₂
  have h₂ : s₂.regs = s₁.regs := by unfold s₂; split <;> rfl
  have h₃ : RegsBut s₁ (s₂.setTch n { c with ringLost := c.ringLost + 1 }) (ringFlds n) := (RegsBut.refl s₁ _).same h₂
  split
  · exact regsBut_ringStore n value seq word
  · exact h₃.wr (g := F.TDC_RING_LOST_LOST) (.tail _ (.head _)) _

theorem regsBut_closeRec (n : Nat) (restart timeout : Bool) : RegsBut s (s.closeRec n restart timeout) (ringFlds n) := by
  unfold closeRec ringRec
  dsimp only
  split
  · exact .refl s _
  · exact regsBut_ringPut n _ _ _

/-- The fields that show a quiet group. -/
def quietFlds (q : Nat) : List (Fld × Nat) := [(F.SORT_STAT_BUSY, 0), (F.SORT_STAT_WAITING, 0), (F.SORT_GRP_DEPTH, q),
  (F.SORT_GRP_RUN_ACT, q), (F.SORT_GRP_RUN_TGT, q)]

theorem regsBut_showQuiet (q : Nat) : RegsBut s (s.showQuiet q) (quietFlds q) := by
  have h (b w : Bool) (k : Nat) : RegsBut s
      (((s.wrBit F.SORT_STAT_BUSY q b).wrBit F.SORT_STAT_WAITING q w).wr F.SORT_GRP_DEPTH k q) (quietFlds q) :=
    (((RegsBut.refl s (quietFlds q)).wr (.head _) _).wr (.tail _ (.head _)) _).wr (.tail _ (.tail _ (.head _))) k
  unfold showQuiet
  dsimp only
  cases s.quietRun q with
  | none => exact ((h _ _ _).wr (g := F.SORT_GRP_RUN_ACT) (by simp [quietFlds]) _).wr (g := F.SORT_GRP_RUN_TGT) (by simp [quietFlds]) _
  | some e => exact ((h _ _ _).wr (g := F.SORT_GRP_RUN_ACT) (by simp [quietFlds]) _).wr (g := F.SORT_GRP_RUN_TGT) (by simp [quietFlds]) _

theorem answered_finishes {α : Type} (l : List α) (f : α → List CmdRef) (code : Nat) :
    Answered s (l.foldl (fun s e => s.finishAll (f e) code) s) := by
  induction l generalizing s with
  | nil => exact .refl s
  | cons e t ih => exact (Answered.finishAll s (f e) code).trans ih

/-- The fields in which a request that is dropped, and the record of a window that is closed, show. -/
def stopFlds : List Fld := answerFlds ++ ((quietFlds 0).map Prod.fst ++ (ringFlds 0).map Prod.fst)

theorem rd_dequeue {f : Fld} (hf : f.off stopFlds = true) (act tgt i : Nat) : (s.dequeue act tgt).rd f i = s.rd f i := by
  obtain ⟨ha, hq⟩ := Fld.off_append hf
  unfold dequeue
  extract_lets q l out s₁
  have h₁ : s₁.rd f i = s.rd f i :=
    ((regsBut_showQuiet q).rd (Fld.off_append hq).1 i).trans rfl
  exact ((answered_finishes out _ _).rd (Fld.lt_of_off ha) (fun g hg => (Fld.ne_of_off ha hg).2) i).trans h₁

theorem wr_regs_congr {s t : State} (h : t.regs = s.regs) (f : Fld) (v i : Nat) : (t.wr f v i).regs = (s.wr f v i).regs :=
  congrArg (regsPut · f i v) h

/-- A stop sets the channel's state, its window and its lock; of the other registers only those in `stopFlds` show it. -/
theorem chanStop_regs (n : Nat) : ∃ t : State, (∀ f i, f.off stopFlds = true → t.rd f i = s.rd f i) ∧
    (s.chanStop n).regs = (((t.wr F.TDC_CH_STAT_WINDOW 0 n).setLocked n false).wr F.TDC_CH_STAT_STATE Tdc.stopping n).regs := by
  unfold chanStop
  extract_lets s₁ s₂ s₃ s₄
  have h₄ : (s₄.setTch n { s₄.tch n with gate := none, closing := none }).regs = s₃.regs := (setTch_regs s₄ n _).trans (condOff_regs s₃ 16 _)
  refine ⟨s₂, fun f i hf => ?_, wr_regs_congr h₄ _ _ n⟩
  have h₁ : s₁.rd f i = s.rd f i := rd_dequeue hf _ _ i
  unfold s₂
  split
  · exact ((regsBut_closeRec n false true).rd (Fld.off_append (Fld.off_append hf).2).2 i).trans h₁
  · exact h₁

/-- What Table TDC-4 says of a channel that is stopped. -/
theorem chanStop_facts (n : Nat) : (s.chanStop n).tdcState n = Tdc.stopping ∧ (s.chanStop n).rd F.TDC_CH_STAT_WINDOW n = 0 ∧
    (s.chanStop n).on F.TDC_CH_STAT_LOCKED n = false ∧ (s.chanStop n).on F.TDC_CH_CTL_EN n = s.on F.TDC_CH_CTL_EN n ∧
    ∀ m, m ≠ n → (s.chanStop n).tdcState m = s.tdcState m := by
  obtain ⟨t, ht, e⟩ := chanStop_regs (s := s) n
  have hl := onlyRegs_setLocked (s := t.wr F.TDC_CH_STAT_WINDOW 0 n) n false
  refine ⟨?_, ?_, ?_, ?_, fun m hm => ?_⟩
  · rw [tdcState, rd_of_regs e, rd_wr_same]
    rfl
  · rw [rd_of_regs e, rd_wr_other _ (by decide) (by decide) (by decide), hl.2.rd rfl, rd_wr_same]
    rfl
  · rw [on, rd_of_regs e, rd_wr_other _ (by decide) (by decide) (by decide)]
    exact on_locked_setLocked n false
  · rw [on, rd_of_regs e, rd_wr_other _ (by decide) (by decide) (by decide), hl.2.rd rfl,
      rd_wr_other _ (by decide) (by decide) (by decide), ht _ _ rfl, on]
  · rw [tdcState, rd_of_regs e, rd_wr_index _ (by decide) hm, hl.2.rd rfl, rd_wr_other _ (by decide) (by decide) (by decide), ht _ _ rfl,
      tdcState]

/-! ### The end of an access (R500) -/

/-- The fields in which a refused access shows. -/
def accFlds : List (Fld × Nat) := [(F.TOP_ACC_CNT0_LOCKED, 0), (F.TOP_ACC_CNT0_RANGE, 0), (F.TOP_ACC_CNT1_SIZE, 0), (F.TOP_ACC_CNT1_ALIGN, 0),
  (F.TOP_ACC_CNT1_ONCE, 0), (F.TOP_ACC_ERR_CODE, 0), (F.TOP_ACC_ERR_ADDR, 0), (F.TOP_ACC_INFO_REQ, 0), (F.TOP_ACC_INFO_SIZE, 0),
  (F.TOP_ACC_INFO_WRITE, 0)]

theorem onlyRegsFcu_wr_raise {l : List (Fld × Nat)} {f : Fld} {i : Nat} (h : (f, i) ∈ l) (v fs snap : Nat) :
    OnlyRegsFcu s ((s.wr f v i).raise fs snap) l := ⟨rfl, .same ((RegsBut.refl s l).wr h v) rfl⟩

theorem onlyRegsFcu_trans {s t u : State} {l : List (Fld × Nat)} (h : OnlyRegsFcu s t l) (k : OnlyRegsFcu t u l) : OnlyRegsFcu s u l :=
  ⟨by rw [← k.1, ← h.1], h.2.trans k.2⟩

theorem onlyRegsFcu_breakRule (a : Acs) (code : Nat) : OnlyRegsFcu s (s.breakRule a code) accFlds := by
  unfold breakRule
  split_ifs
  · exact onlyRegsFcu_wr_raise (by simp [accFlds]) _ 0 _
  · exact onlyRegsFcu_wr_raise (by simp [accFlds]) _ 1 _
  · exact onlyRegsFcu_wr_raise (by simp [accFlds]) _ 2 _
  · exact onlyRegsFcu_wr_raise (by simp [accFlds]) _ 3 _
  · exact onlyRegsFcu_wr_raise (by simp [accFlds]) _ 4 _
  · exact ⟨rfl, .refl s _⟩

theorem onlyRegs_noteErr (a : Acs) (code : Nat) : OnlyRegs s (s.noteErr a code) accFlds := by
  unfold noteErr
  split
  · exact .refl s _
  · exact (((((OnlyRegs.refl s accFlds).wr (g := F.TOP_ACC_ERR_CODE) (by simp [accFlds]) _).wr (g := F.TOP_ACC_ERR_ADDR)
      (by simp [accFlds]) _).wr (g := F.TOP_ACC_INFO_REQ) (by simp [accFlds]) _).wr (g := F.TOP_ACC_INFO_SIZE) (by simp [accFlds]) _).wr
      (g := F.TOP_ACC_INFO_WRITE) (by simp [accFlds]) _

theorem onlyRegsFcu_breakRules (a : Acs) (l : List Nat) : OnlyRegsFcu s (l.foldl (fun s c => s.breakRule a c) s) accFlds := by
  induction l generalizing s with
  | nil => exact ⟨rfl, .refl s _⟩
  | cons c t ih => exact onlyRegsFcu_trans (onlyRegsFcu_breakRule a c) ih

/-- The end of an access shows in the fields of refused accesses and raises their faults; nothing else changes. -/
theorem onlyRegsFcu_conclude (a : Acs) (codes : List Nat) : OnlyRegsFcu s (s.conclude a codes).1 accFlds := by
  unfold conclude
  extract_lets order s₁ code
  have h : OnlyRegsFcu s s₁ accFlds := onlyRegsFcu_breakRules a _
  dsimp only
  split
  · exact h
  · have k := onlyRegs_noteErr (s := s₁) a code
    exact onlyRegsFcu_trans h ⟨by rw [← k.1], k.2⟩

theorem conclude_tdc (a : Acs) (codes : List Nat) : (s.conclude a codes).1.tdc = s.tdc := by rw [← (onlyRegsFcu_conclude a codes).1]

/-! ### A disable (Table TDC-4) -/

/-- A disable of a running channel that is no spare and not under test stops it, whatever the word holds besides. -/
theorem tdcCtlWrite_stops {w : Nat} (hs : s.tdcState n = Tdc.running) (he : s.on F.TDC_CH_CTL_EN n = true)
    (ho : s.on F.TDC_CH_CTL_OOS n = false) (hp : s.isSpare n = false) (ht : s.testing n = false) (h₀ : bits w 0 1 = 0) (a : Acs) :
    ∃ (t : State) (codes : List Nat), (s.tdcCtlWrite a n w).1 = ((t.chanStop n).conclude a codes).1 ∧ t.on F.TDC_CH_CTL_EN n = false ∧
      ∀ m, t.tdcState m = s.tdcState m := by
  obtain ⟨r, hr⟩ : ∃ r, s.fieldWrite (s.tdcCtlLock n) inRange tdcCtlFlds n w = r := ⟨_, rfl⟩
  have hl : s.tdcCtlLock n F.TDC_CH_CTL_EN = false := hp
  have hen : r.1.on F.TDC_CH_CTL_EN n = false := by
    have h := rd_fieldWrite_last (s := s) (ok := inRange) (w := w) rfl hl rfl tdcCtlFlds.dropLast n
    rw [on, ← hr]
    exact (congrArg (· != 0) (h.trans h₀) :)
  have htest : r.1.testing n = false := by
    rw [← hr, fieldWrite_regs]
    exact ht
  have hst : ∀ m, r.1.tdcState m = s.tdcState m := fun m => by
    rw [← hr]
    exact rd_fieldWrite_ne s _ _ (fun f hf => Fld.key_ne (by revert f; decide) (by decide) (.inl (by revert f; decide))) w
  refine ⟨r.1, r.2, ?_, hen, hst⟩
  rw [tdcCtlWrite_eq, hr, hs, he, ho, followEn_stops hen htest,
    followOos_idle (.inr (by rw [(chanStop_facts n).1]; decide))]

end State

/-! ### The commands of a channel -/

theorem execTdcChEnable_admitted {s : State} {req n : Nat} (h : Admitted s req) (hn : n < 48) (w : Nat) :
    execTdcChEnable req n w s = done (s.tdcCtlWrite (tdcCtlAcs req n) n (setBit w 0 true)).1 := by
  rw [execTdcChEnable, if_pos hn, State.put_admitted h]

theorem execTdcChDisable_admitted {s : State} {req n : Nat} (h : Admitted s req) (hn : n < 48) (w : Nat) :
    execTdcChDisable req n w s = done (s.tdcCtlWrite (tdcCtlAcs req n) n (setBit w 0 false)).1 := by
  rw [execTdcChDisable, if_pos hn, State.put_admitted h]

theorem tdcChEnable_settles {s : State} {req n w : Nat} (ha : Admitted s req) (hn : n < 48) (hs : s.tdcState n = 0)
    (he : s.on F.TDC_CH_CTL_EN n = false) (ho : s.on F.TDC_CH_CTL_OOS n = false) (hp : s.isSpare n = false) (ht : s.testing n = false)
    (hf : s.tdcFine n = true) (hw : Fits tdcCtlFlds (setBit w 0 true) = true) (h₅ : bits w 5 1 = 0) :
    Settles (.tdcChEnable req n w) s (fun u => u.on F.TDC_CH_CTL_EN n = true ∧ u.rd F.TDC_CH_STAT_STATE n = 1 ∧
      u.rd F.TDC_CH_CTL_ARM_SEL n = bits w 16 6 ∧ u.rd F.TDC_CH_CTL_MAX_STOPS n = bits w 24 4 ∧ u.rd F.TDC_RES_INFO_GATE_SEQ n = 0 ∧
      { s with regs := u.regs } = u) := by
  have hx : exec (.tdcChEnable req n w) s = done ((s.takeFlds tdcCtlFlds n (setBit w 0 true)).chanStart n) := by
    rw [exec_tdcChEnable, execTdcChEnable_admitted ha hn, State.tdcCtlWrite_starts hs he ho hp ht hf hw (bits_setBit_zero w true)
      ((bits_setBit_zero_above w true 4 1).trans h₅)]
  have hk := State.onlyRegs_takeFlds (s := s) tdcCtlFlds n (setBit w 0 true)
  have hf' := State.tdcFine_takeFlds (w := setBit w 0 true) hf
  have hc := State.onlyRegs_chanStart hf'
  refine ⟨_, hx, ?_, State.tdcState_chanStart hf', ?_, ?_, State.rd_gateSeq_chanStart hf', ?_⟩
  · rw [hc.2.on rfl, State.on, State.rd_tdcCtl (by decide)]
    exact (congrArg (· != 0) (bits_setBit_zero w true) :)
  · rw [hc.2.rd rfl, State.rd_tdcCtl (by decide)]
    exact bits_setBit_zero_above w true 15 6
  · rw [hc.2.rd rfl, State.rd_tdcCtl (by decide)]
    exact bits_setBit_zero_above w true 23 4
  · rw [← hc.1, ← hk.1]

theorem lockAcquired_settles {s : State} {n : Nat} (hf : s.tdcFine n = true) (hm : s.measOk = true) (hs : s.tdcState n = 1) :
    Settles (.lockAcquired n) s (fun u => u.on F.TDC_CH_STAT_LOCKED n = true ∧ u.rd F.TDC_CH_STAT_STATE n = 2 ∧ u.mem = s.mem ∧
      u.out = s.out ∧ RegsBut s u [(F.TDC_CH_STAT_LOCKED, n), (F.TDC_STAT_FINE_LOCKED, 0), (F.TDC_CH_STAT_STATE, n),
        (F.TDC_CH_STAT_WINDOW, n)]) := by
  have hx : exec (.lockAcquired n) s = done (s.locks n) := by
    rw [exec_lockAcquired, execLockAcquired, hf, hm, hs]
    rfl
  have h := State.onlyTdc_locks (s := s) n
  exact ⟨_, hx, State.on_locked_locks n, State.tdcState_chanRun n, h.mem, h.out, h.2⟩

theorem lockLost_settles {s : State} {n : Nat} (hf : s.tdcFine n = true) (hl : s.on F.TDC_CH_STAT_LOCKED n = true) :
    Settles (.lockLost n) s (fun u => u.on F.TDC_CH_STAT_LOCKED n = false ∧ u.isLive 16 = true ∧
      OnlyTdc s u [(F.TDC_CH_STAT_LOCKED, n), (F.TDC_STAT_FINE_LOCKED, 0)]) := by
  have hx : exec (.lockLost n) s = done ((s.unlock n).mapGates (fun g => { g with unlocked := true }) (· == n)) := by
    rw [exec_lockLost, execLockLost, hf, hl]
    rfl
  refine ⟨_, hx, ?_, ?_, (State.onlyTdc_unlock n).trans (State.onlyTdc_mapGates _ _ _)⟩
  · rw [(State.onlyTdc_mapGates [] _ _).2.on rfl, State.unlock, State.on, State.rd_condOn]
    exact State.on_locked_setLocked n false
  · rw [State.isLive_of_fcu (State.mapGates_fcu _ _)]
    exact State.isLive_condOn 16 _

theorem lockTimeout_settles {s : State} {n : Nat} (hf : s.tdcFine n = true) (hl : s.on F.TDC_CH_STAT_LOCKED n = false)
    (hs : s.tdcState n = 1) : Settles (.lockTimeout n) s (fun u => u.isLive 16 = true ∧ { s with fcu := u.fcu } = u) := by
  have hx : exec (.lockTimeout n) s = done (s.condOn 16 (s.tdcSnap n)) := by
    rw [exec_lockTimeout, execLockTimeout, hf, hl, hs]
    rfl
  exact ⟨_, hx, State.isLive_condOn 16 _, condOn_eq s 16 _⟩

theorem tdcChDisable_settles {s : State} {req n w : Nat} (ha : Admitted s req) (hn : n < 48) (hs : s.tdcState n = 2)
    (he : s.on F.TDC_CH_CTL_EN n = true) (ho : s.on F.TDC_CH_CTL_OOS n = false) (hp : s.isSpare n = false) (ht : s.testing n = false) :
    Settles (.tdcChDisable req n w) s (fun u => u.on F.TDC_CH_CTL_EN n = false ∧ u.rd F.TDC_CH_STAT_STATE n = 7 ∧
      u.rd F.TDC_CH_STAT_WINDOW n = 0 ∧ u.on F.TDC_CH_STAT_LOCKED n = false ∧ (∀ m, m ≠ n → u.tdcState m = s.tdcState m)) := by
  obtain ⟨t, codes, hx, hen, hst⟩ := State.tdcCtlWrite_stops hs he ho hp ht (bits_setBit_zero w false) (tdcCtlAcs req n)
  obtain ⟨f₁, f₂, f₃, f₄, f₅⟩ := State.chanStop_facts (s := t) n
  have h := (State.onlyRegsFcu_conclude (s := t.chanStop n) (tdcCtlAcs req n) codes).2
  refine ⟨_, by rw [exec_tdcChDisable, execTdcChDisable_admitted ha hn, hx]; rfl, ?_, ?_, ?_, ?_, fun m hm => ?_⟩
  · rw [h.on rfl, f₄, hen]
  · exact (h.rd rfl n).trans f₁
  · exact (h.rd rfl n).trans f₂
  · rw [h.on rfl, f₃]
  · exact (h.rd rfl m).trans ((f₅ m hm).trans (hst m))

section
variable {s : State} {n : Nat} (hs : s.tdcState n = 7) (hr : s.isRunning Act.tdcCal n = false)
include hs hr

theorem execTdcStopDone_stopped : execTdcStopDone n s =
    if s.on F.TDC_CH_STAT_PENDING_ENABLE n then
      done (((s.wr F.TDC_CH_STAT_STATE Tdc.disabled n).wr F.TDC_CH_STAT_PENDING_ENABLE 0 n).chanStart n)
    else done (s.wr F.TDC_CH_STAT_STATE Tdc.disabled n) := by
  have hp : (s.wr F.TDC_CH_STAT_STATE Tdc.disabled n).on F.TDC_CH_STAT_PENDING_ENABLE n = s.on F.TDC_CH_STAT_PENDING_ENABLE n := by
    rw [State.on, State.rd_wr_other _ (by decide) (by decide) (by decide), State.on]
  rw [execTdcStopDone, if_pos ⟨hs, by rw [hr]; rfl⟩]
  dsimp only
  rw [hp]

theorem tdcStopDone_settles (hp : s.on F.TDC_CH_STAT_PENDING_ENABLE n = false) : Settles (.tdcStopDone n) s (fun u =>
    u.rd F.TDC_CH_STAT_STATE n = 0 ∧ OnlyRegs s u [(F.TDC_CH_STAT_STATE, n)]) := by
  refine ⟨s.wr F.TDC_CH_STAT_STATE Tdc.disabled n, ?_, State.rd_wr_same s _ _ n, (OnlyRegs.refl s _).wr (.head _) _⟩
  rw [exec_tdcStopDone, execTdcStopDone_stopped hs hr, hp]
  rfl

theorem tdcStopDone_restarts (hp : s.on F.TDC_CH_STAT_PENDING_ENABLE n = true) (hf : s.tdcFine n = true) :
    Settles (.tdcStopDone n) s (fun u => u.rd F.TDC_CH_STAT_STATE n = 1 ∧ u.on F.TDC_CH_STAT_PENDING_ENABLE n = false ∧
      { s with regs := u.regs } = u) := by
  have hf' : ((s.wr F.TDC_CH_STAT_STATE Tdc.disabled n).wr F.TDC_CH_STAT_PENDING_ENABLE 0 n).tdcFine n = true := by
    rw [State.tdcFine, State.tdcPhys, State.rd_wr_other _ (by decide) (by decide) (by decide),
      State.rd_wr_other _ (by decide) (by decide) (by decide)]
    exact hf
  have h := State.onlyRegs_chanStart hf'
  refine ⟨_, ?_, State.tdcState_chanStart hf', ?_, ?_⟩
  · rw [exec_tdcStopDone, execTdcStopDone_stopped hs hr, hp]
    rfl
  · rw [h.2.on rfl, State.on, State.rd_wr_same]
    rfl
  · rw [← h.1]
    rfl

end

/-- Settles O9: each command of a channel moves it as Table TDC-4 says; the lock of a delay line and the start and stop of a channel are
one lemma each. -/
theorem channelsLockStartAndStop : Obligations.ChannelsLockStartAndStop :=
  ⟨fun _ _ _ _ => tdcChEnable_settles, fun _ _ => lockAcquired_settles, fun _ _ => lockLost_settles, fun _ _ => lockTimeout_settles,
    fun _ _ _ _ => tdcChDisable_settles, fun _ _ => tdcStopDone_settles, fun _ _ => tdcStopDone_restarts⟩

end Sys2Proof.Machine

/-! ## The measurement PLL, the crossbar and the ring reader (R55, R56, R85, R87) -/

namespace Sys2Proof.Machine

theorem exec_measUnlock (s : State) : exec .measUnlock s = execMeasUnlock s := rfl
theorem exec_measRelock (s : State) : exec .measRelock s = execMeasRelock s := rfl
theorem exec_tdcArrayEnable (req w : Nat) (s : State) : exec (.tdcArrayEnable req w) s = execTdcArrayEnable req w s := rfl
theorem exec_prescalerWrite (req src w : Nat) (s : State) : exec (.prescalerWrite req src w) s = execPrescalerWrite req src w s := rfl
theorem exec_ringRdWrite (req n w : Nat) (s : State) : exec (.ringRdWrite req n w) s = execRingRdWrite req n w s := rfl

/-- Bit `b` of a word as its field of one bit. -/
theorem bits_one (w b : Nat) : bits w b 1 = (bit w b).toNat := by
  have := Nat.mod_two_eq_zero_or_one (w / 2 ^ b)
  rw [bits, bit, Nat.pow_one]
  obtain h | h := this <;> rw [h] <;> rfl

namespace State
variable {s : State}

/-! ### The measurement clock (R85) -/

/-- LOCKED of channel `n` clears with its FS 16. -/
def dropLock (s : State) (n : Nat) : State := (s.setLocked n false).condOff 16 (s.tdcSnap n)

/-- The fields that show the delay lines' locks. -/
def lockFlds : List (Fld × Nat) := (F.TDC_STAT_FINE_LOCKED, 0) :: (List.range 48).map (F.TDC_CH_STAT_LOCKED, ·)

theorem onlyTdc_dropLocks {l : List Nat} (h : ∀ n ∈ l, n < 48) : OnlyTdc s (l.foldl dropLock s) lockFlds := by
  refine .foldl l s fun s n hn => ?_
  have hm : (F.TDC_CH_STAT_LOCKED, n) ∈ lockFlds := .tail _ (List.mem_map_of_mem (List.mem_range.mpr (h n hn)))
  refine ((onlyRegs_setLocked n false).onlyTdc.mono fun p hp => ?_).trans (.condOff _ _ 16 _)
  simp only [List.mem_cons, List.not_mem_nil, or_false] at hp
  obtain rfl | rfl := hp
  · exact hm
  · exact .head _

theorem on_locked_dropLock_of {n : Nat} (m : Nat) (h : s.on F.TDC_CH_STAT_LOCKED n = false ∨ n = m) :
    (s.dropLock m).on F.TDC_CH_STAT_LOCKED n = false := by
  by_cases hn : n = m
  · subst hn
    exact on_locked_setLocked n false
  · rw [dropLock, on, rd_condOff, setLocked, wrBit_eq, rd_wr_other _ (by decide) (by decide) (by decide), wrB_eq,
      rd_wr_index _ (by decide) hn]
    exact h.resolve_right hn

/-- Every channel of the list is unlocked in the end, as is one that was so before. -/
theorem on_locked_dropLocks {n : Nat} (l : List Nat) (h : s.on F.TDC_CH_STAT_LOCKED n = false ∨ n ∈ l) :
    (l.foldl dropLock s).on F.TDC_CH_STAT_LOCKED n = false := by
  induction l generalizing s with
  | nil => exact h.resolve_right List.not_mem_nil
  | cons m t ih =>
    rw [List.mem_cons] at h
    refine ih ?_
    obtain h | h | h := h
    · exact .inl (on_locked_dropLock_of m (.inl h))
    · exact .inl (on_locked_dropLock_of m (.inr h))
    · exact .inr h

/-- The fine channels. -/
def fineChs (s : State) : List Nat := idxs 48 (fun n => s.tdcFine n)

theorem lt_of_mem_fineChs {n : Nat} (h : n ∈ s.fineChs) : n < 48 := List.mem_range.mp (List.mem_filter.mp h).1

theorem mem_fineChs {n : Nat} (hn : n < 48) (h : s.tdcFine n = true) : n ∈ s.fineChs :=
  List.mem_filter.mpr ⟨List.mem_range.mpr hn, h⟩

/-- When the measurement clock stops, MEAS_LOCK clears, gates are marked, and the fine channels lose their lock. -/
theorem measStop_eq : ∃ t, OnlyTdc (s.wr F.TDC_STAT_MEAS_LOCK 0) t [] ∧
    s.measStop = (s.wr F.TDC_STAT_MEAS_LOCK 0).fineChs.foldl dropLock t :=
  ⟨_, (onlyTdc_mapGates _ _ _).trans (onlyTdc_mapGates _ _ _), rfl⟩

theorem onlyTdc_measStop : OnlyTdc s s.measStop ((F.TDC_STAT_MEAS_LOCK, 0) :: lockFlds) := by
  obtain ⟨t, ht, e⟩ := measStop_eq (s := s)
  rw [e]
  have h := (OnlyRegs.refl s ((F.TDC_STAT_MEAS_LOCK, 0) :: lockFlds)).wr (.head _) 0
  exact (h.onlyTdc.trans (ht.mono (by simp))).trans ((onlyTdc_dropLocks fun n => lt_of_mem_fineChs).mono fun p => .tail _)

theorem on_measLock_measStop : s.measStop.on F.TDC_STAT_MEAS_LOCK = false := by
  obtain ⟨t, ht, e⟩ := measStop_eq (s := s)
  rw [e, (onlyTdc_dropLocks fun n => lt_of_mem_fineChs).2.on (by decide), ht.2.on rfl, on, rd_wr_same]
  rfl

theorem on_locked_measStop {n : Nat} (hn : n < 48) (hf : s.tdcFine n = true) : s.measStop.on F.TDC_CH_STAT_LOCKED n = false := by
  obtain ⟨t, ht, e⟩ := measStop_eq (s := s)
  have h : (s.wr F.TDC_STAT_MEAS_LOCK 0).tdcFine n = true := by
    rw [tdcFine, tdcPhys, rd_wr_other _ (by decide) (by decide) (by decide)]
    exact hf
  rw [e]
  exact on_locked_dropLocks _ (.inr (mem_fineChs hn h))

/-- Every channel that regresses starts a short gate. -/
def shortGates (s : State) : State :=
  forN 48 s (fun s n => if s.regresses n then s.setTch n { s.tch n with gate := some (s.newGate n true) } else s)

theorem shortGates_eq : { s with tdc := s.shortGates.tdc } = s.shortGates :=
  forN_tdc (fun s n => by split <;> rfl) 48

/-! ### The writes (R55, R56, R87) -/

/-- A locked field keeps its value, and a write of another one breaks CFG_LOCKED (R501). -/
theorem fieldStep_locked {lock : Fld → Bool} {ok : Fld → Nat → Bool} {f : Fld} {i w : Nat} {r : State × List Nat} (ha : f.acc = .rw)
    (hl : lock f = true) (hv : (bits w f.lo f.w != r.1.rd f i) = true) :
    ∃ codes, State.fieldStep lock ok i w r f = (r.1, codes) ∧ Code.cfgLocked ∈ codes :=
  ⟨r.2 ++ Code.cfgLocked :: if !ok f (bits w f.lo f.w) then [Code.badParam] else [], by simp [fieldStep, ha, hl, hv],
    List.mem_append_right _ (.head _)⟩

theorem tdcArrayWrite_on {w : Nat} (h : bit w 0 = true) (a : Acs) : (s.tdcArrayWrite a w).1 = s.wr F.TDC_CTL_EN 1 := by
  rw [tdcArrayWrite, h, bits_one, h]
  simp only [Bool.not_true, Bool.and_false, Bool.false_eq_true, if_false, conclude_nil]
  rfl

theorem tdcArrayWrite_off {w : Nat} (he : s.on F.TDC_CTL_EN = true) (h : bit w 0 = false) (a : Acs) :
    (s.tdcArrayWrite a w).1 = (s.wr F.TDC_CTL_EN 0).measStop.condOff 25 := by
  rw [tdcArrayWrite, h, bits_one, h, he]
  rfl

/-- The prescaler of source `src` counts from the next edge. -/
def resync (s : State) (src : Nat) : State :=
  { s with tdc := { s.tdc with preRise := s.tdc.preRise.set src 0, preFall := s.tdc.preFall.set src 0 } }

theorem prescalerWrite_open {src w : Nat} (h : s.srcInUse src = false) (hw : Fits [F.TDC_XB_PRE_DIV] w = true) (a : Acs) :
    (s.prescalerWrite a src w).1 = (s.wr F.TDC_XB_PRE_DIV (bits w 0 17) src).resync src := by
  unfold prescalerWrite
  dsimp only
  rw [h, fieldWrite_fits (fun _ _ => rfl) hw]
  rfl

/-- A locked prescaler refuses another DIV with CFG_LOCKED; the register keeps its value (R56, R501). -/
theorem prescalerWrite_locked {src w : Nat} (h : s.srcInUse src = true) (hw : bits w 0 17 ≠ s.rd F.TDC_XB_PRE_DIV src) (a : Acs) :
    ∃ codes, (s.prescalerWrite a src w).1 = (s.conclude a codes).1 ∧ Code.cfgLocked ∈ codes := by
  obtain ⟨codes, e, hc⟩ := fieldStep_locked (f := F.TDC_XB_PRE_DIV) (i := src) (lock := fun _ => s.srcInUse src)
    (ok := inRange) (r := (s, [])) rfl h (bne_iff_ne.mpr hw)
  refine ⟨codes, ?_, hc⟩
  unfold prescalerWrite fieldWrite
  dsimp only
  rw [List.foldl_cons, List.foldl_nil, e, h]
  rfl

theorem ringReport_none {n : Nat} (h : (s.tch n).ringLost = 0) : s.ringReport n = s := by
  unfold ringReport
  dsimp only
  rw [if_neg (fun k => k.1 h)]

theorem ringRdWrite_unlost {n : Nat} (h : (s.tch n).ringLost = 0) (a : Acs) (w : Nat) :
    (s.ringRdWrite a n w).1 = s.wr F.TDC_RING_RD_PTR (bits w 0 11) n := by
  have hw : s.fieldWrite noLock inRange [F.TDC_RING_RD_PTR] n w = (s.wr F.TDC_RING_RD_PTR (bits w 0 11) n, []) :=
    fieldWrite_fits (fun _ _ => rfl) rfl s
  unfold ringRdWrite
  dsimp only
  rw [hw, ringReport_none (s := s.wr F.TDC_RING_RD_PTR (bits w 0 11) n) h, conclude_nil]

theorem kept_breakRule (a : Acs) (code : Nat) : Kept s (s.breakRule a code) := by
  unfold breakRule
  split_ifs
  case neg => exact ⟨rfl, rfl, fun _ ho => ho⟩
  all_goals exact (kept_wr s _ _ 0).trans (kept_raise _ _ _)

theorem occ_breakRule_locked (a : Acs) : Occ.mk 0 a.snap false ∈ (s.breakRule a Code.cfgLocked).fcu.occs :=
  List.mem_append_right _ (.head _)

theorem occ_breakRules_locked {codes : List Nat} {a : Acs} (h : Code.cfgLocked ∈ codes ∨ Occ.mk 0 a.snap false ∈ s.fcu.occs) :
    Occ.mk 0 a.snap false ∈ (codes.foldl (fun s c => s.breakRule a c) s).fcu.occs := by
  induction codes generalizing s with
  | nil => exact h.resolve_left List.not_mem_nil
  | cons c t ih =>
    rw [List.mem_cons] at h
    refine ih ?_
    obtain (rfl | h) | h := h
    · exact .inr (occ_breakRule_locked a)
    · exact .inl h
    · exact .inr ((kept_breakRule a c).occs _ h)

theorem occ_conclude_locked {codes : List Nat} (h : Code.cfgLocked ∈ codes) (a : Acs) :
    Occ.mk 0 a.snap false ∈ (s.conclude a codes).1.fcu.occs := by
  unfold conclude
  extract_lets order s₁ code
  have h₁ : Occ.mk 0 a.snap false ∈ s₁.fcu.occs :=
    occ_breakRules_locked (.inl (List.mem_filter.mpr ⟨by simp [order], List.contains_iff_mem.mpr h⟩))
  dsimp only
  split
  · exact h₁
  · rw [← (onlyRegs_noteErr a code).1]
    exact h₁

end State

/-! ### The commands -/

theorem measUnlock_settles {s : State} (h : s.measOk = true) : Settles .measUnlock s (fun u => u.on F.TDC_STAT_MEAS_LOCK = false ∧
    u.isLive 25 = true ∧ (∀ n, n < 48 → s.tdcFine n = true → u.on F.TDC_CH_STAT_LOCKED n = false) ∧ u.mem = s.mem ∧ u.out = s.out ∧
    (∀ n, u.tdcState n = s.tdcState n)) := by
  have hx : exec .measUnlock s = done (s.measStop.condOn 25) := by
    rw [exec_measUnlock, execMeasUnlock, h]
    rfl
  have k := (State.onlyTdc_measStop (s := s)).trans (.condOn _ _ 25 0)
  refine ⟨_, hx, ?_, State.isLive_condOn 25 0, fun n hn hf => ?_, k.mem, k.out, fun n => k.2.rd (by decide) n⟩
  · rw [State.on, State.rd_condOn]
    exact State.on_measLock_measStop
  · rw [State.on, State.rd_condOn]
    exact State.on_locked_measStop hn hf

theorem measRelock_settles {s : State} (he : s.on F.TDC_CTL_EN = true) (hm : s.on F.TDC_STAT_MEAS_LOCK = false) :
    Settles .measRelock s (fun u => u.on F.TDC_STAT_MEAS_LOCK = true ∧ (∀ c ∈ u.fcu.conds, ¬(c.fs = 25 ∧ c.snap = 0)) ∧
      OnlyTdc s u [(F.TDC_STAT_MEAS_LOCK, 0)]) := by
  have hx : exec .measRelock s = done ((s.wr F.TDC_STAT_MEAS_LOCK 1).condOff 25).shortGates := by
    rw [exec_measRelock, execMeasRelock, he, hm]
    rfl
  have h : OnlyTdc s ((s.wr F.TDC_STAT_MEAS_LOCK 1).condOff 25) [(F.TDC_STAT_MEAS_LOCK, 0)] :=
    ((OnlyTdc.refl s _).wr (.head _) 1).trans (.condOff _ _ 25 0)
  refine ⟨_, hx, ?_, ?_, ?_⟩
  · rw [← State.shortGates_eq]
    exact congrArg (· != 0) (State.rd_wr_same s F.TDC_STAT_MEAS_LOCK 1 0)
  · rw [← State.shortGates_eq]
    exact State.conds_condOff 25 0
  · rw [← State.shortGates_eq]
    exact h.trans (.setTdc _ _ _)

theorem execTdcArrayEnable_admitted {s : State} {req : Nat} (h : Admitted s req) (w : Nat) :
    execTdcArrayEnable req w s = done (s.tdcArrayWrite ⟨req, 0x6000, 2, true⟩ w).1 := by
  rw [execTdcArrayEnable, State.put_admitted h]

theorem tdcArrayEnable_settles {s : State} {req w : Nat} (ha : Admitted s req) (hw : bit w 0 = true) : Settles (.tdcArrayEnable req w) s
    (fun u => u.on F.TDC_CTL_EN = true ∧ OnlyRegs s u [(F.TDC_CTL_EN, 0)]) :=
  ⟨s.wr F.TDC_CTL_EN 1, by rw [exec_tdcArrayEnable, execTdcArrayEnable_admitted ha, State.tdcArrayWrite_on hw]; rfl,
    congrArg (· != 0) (State.rd_wr_same s F.TDC_CTL_EN 1 0), (OnlyRegs.refl s _).wr (.head _) 1⟩

theorem tdcArrayDisable_settles {s : State} {req w : Nat} (ha : Admitted s req) (he : s.on F.TDC_CTL_EN = true) (hw : bit w 0 = false) :
    Settles (.tdcArrayEnable req w) s (fun u => u.on F.TDC_CTL_EN = false ∧ u.on F.TDC_STAT_MEAS_LOCK = false ∧
      (∀ c ∈ u.fcu.conds, ¬(c.fs = 25 ∧ c.snap = 0))) := by
  refine ⟨(s.wr F.TDC_CTL_EN 0).measStop.condOff 25, ?_, ?_, State.on_measLock_measStop, State.conds_condOff 25 0⟩
  · rw [exec_tdcArrayEnable, execTdcArrayEnable_admitted ha, State.tdcArrayWrite_off he hw]
    rfl
  · rw [State.on, State.rd_condOff, State.onlyTdc_measStop.2.rd (by decide), State.rd_wr_same]
    rfl

theorem execPrescalerWrite_admitted {s : State} {req src : Nat} (h : Admitted s req) (hs : src < 64) (w : Nat) :
    execPrescalerWrite req src w s = done (s.prescalerWrite ⟨req, 0x7800 + 4 * src, 2, true⟩ src w).1 := by
  rw [execPrescalerWrite, if_pos hs, State.put_admitted h]

theorem prescalerWrite_settles {s : State} {req src w : Nat} (ha : Admitted s req) (hs : src < 64) (hu : s.srcInUse src = false)
    (hw : Fits [F.TDC_XB_PRE_DIV] w = true) : Settles (.prescalerWrite req src w) s (fun u => u.rd F.TDC_XB_PRE_DIV src = bits w 0 17 ∧
      u.tdc.preRise = s.tdc.preRise.set src 0 ∧ u.tdc.preFall = s.tdc.preFall.set src 0 ∧
      { s with regs := u.regs, tdc := u.tdc } = u ∧ RegsBut s u [(F.TDC_XB_PRE_DIV, src)]) := by
  refine ⟨(s.wr F.TDC_XB_PRE_DIV (bits w 0 17) src).resync src, ?_, ?_, rfl, rfl, rfl, ?_⟩
  · rw [exec_prescalerWrite, execPrescalerWrite_admitted ha hs, State.prescalerWrite_open hu hw]
    rfl
  · exact (State.rd_wr_same s F.TDC_XB_PRE_DIV _ src).trans (bits_mod w 0 17)
  · exact ((RegsBut.refl s _).wr (.head _) (bits w 0 17)).same rfl

theorem prescalerWrite_refuses {s : State} {req src w : Nat} (ha : Admitted s req) (hs : src < 64) (hu : s.srcInUse src = true)
    (hw : bits w 0 17 ≠ s.rd F.TDC_XB_PRE_DIV src) : Settles (.prescalerWrite req src w) s (fun u =>
      u.rd F.TDC_XB_PRE_DIV src = s.rd F.TDC_XB_PRE_DIV src ∧ u.tdc = s.tdc ∧
      Occ.mk 0 (Acs.snap ⟨req, 0x7800 + 4 * src, 2, true⟩) false ∈ u.fcu.occs) := by
  obtain ⟨codes, e, hc⟩ := State.prescalerWrite_locked hu hw ⟨req, 0x7800 + 4 * src, 2, true⟩
  refine ⟨_, ?_, (State.onlyRegsFcu_conclude _ codes).2.rd rfl src, State.conclude_tdc _ codes, State.occ_conclude_locked hc _⟩
  rw [exec_prescalerWrite, execPrescalerWrite_admitted ha hs, e]
  rfl

theorem ringRdWrite_settles {s : State} {req n w : Nat} (ha : Admitted s req) (hn : n < 48) (hl : (s.tch n).ringLost = 0) :
    Settles (.ringRdWrite req n w) s (fun u => u.rd F.TDC_RING_RD_PTR n = bits w 0 11 ∧ OnlyRegs s u [(F.TDC_RING_RD_PTR, n)]) := by
  refine ⟨s.wr F.TDC_RING_RD_PTR (bits w 0 11) n, ?_, (State.rd_wr_same s _ _ n).trans (bits_mod w 0 11),
    (OnlyRegs.refl s _).wr (.head _) _⟩
  rw [exec_ringRdWrite, execRingRdWrite, if_pos hn, State.put_admitted ha, State.ringRdWrite_unlost hl]
  rfl

/-- Settles O10: the stop and the return of the measurement clock, and one lemma for each outcome of the three writes. -/
theorem measurementClockAndCrossbar : Obligations.MeasurementClockAndCrossbar :=
  ⟨fun _ => measUnlock_settles, fun _ => measRelock_settles, fun _ _ _ => tdcArrayEnable_settles, fun _ _ _ => tdcArrayDisable_settles,
    fun _ _ _ _ => prescalerWrite_settles, fun _ _ _ _ => prescalerWrite_refuses, fun _ _ _ _ => ringRdWrite_settles⟩

end Sys2Proof.Machine

/-! ## A substitution for a channel that the block does not have

Before fuse load the FCU does not run, and the end of a tick leaves every register but those of the squelch as the command made it. -/

namespace Sys2Proof.Machine

theorem exec_substitute (req w : Nat) (s : State) : exec (.substitute req w) s = execSubstitute req w s := rfl

namespace State
variable {s : State}

/-- The occurrences of the tick are dropped. -/
def dropOccs (s : State) : State := { s with fcu := { s.fcu with occs := [] } }

theorem rd_dropOccs (s : State) (f : Fld) (i : Nat) : s.dropOccs.rd f i = s.rd f i := rfl

theorem ridgeView_dropOccs (s : State) : s.dropOccs.ridgeView = s.ridgeView := rfl

/-- Before fuse load nothing is collected (R514). -/
theorem settle_stopped {n : Nat} (h : s.ridge.running = false) : s.settle (n + 1) = s.dropOccs := by
  unfold settle
  exact if_pos (by simp [h])

/-- The fields in which an output's squelch shows. -/
def squelchFlds : List Fld := [F.OUT_CLK_STAT_SQUELCHED, F.OUT_PPS_STAT_SQUELCHED, F.OUT_STAT_CLK_SQ, F.OUT_STAT_PPS_SQ,
  F.OUT_CLK_STAT_SQ_CNT, F.OUT_PPS_STAT_SQ_CNT]

section
variable {f : Fld} (hf : f.off squelchFlds = true)
include hf

theorem rd_setSquelch (o : Nat) (b : Bool) (i : Nat) : (s.setSquelch o b).rd f i = s.rd f i := by
  have h (t : State) {g : Fld} (hg : g ∈ squelchFlds) (v j : Nat) : (t.wr g v j).rd f i = t.rd f i := rd_wr_off t hf hg v i j
  unfold setSquelch
  extract_lets s₁ s₂ s₃
  have h₁ : s₁.rd f i = s.rd f i := by unfold s₁; split <;> exact h s (by simp [squelchFlds]) _ _
  have h₂ : s₂.rd f i = s₁.rd f i := by unfold s₂; split <;> exact h s₁ (by simp [squelchFlds]) _ _
  have h₃ : s₃.rd f i = s₂.rd f i := by unfold s₃; split <;> exact h s₂ (by simp [squelchFlds]) _ _
  split_ifs
  · rfl
  · exact h₂.trans h₁
  · exact h₃.trans (h₂.trans h₁)
  · exact h₃.trans (h₂.trans h₁)

theorem rd_evalSquelch (i : Nat) : s.evalSquelch.rd f i = s.rd f i := by
  have h : ∀ (l : List Nat) (p : State → Nat → Bool) (s : State), (l.foldl (fun s o => s.setSquelch o (p s o)) s).rd f i = s.rd f i := by
    intro l p
    induction l with
    | nil => exact fun _ => rfl
    | cons o t ih => exact fun s => (ih _).trans (rd_setSquelch hf o _ i)
  exact h _ _ s

theorem rd_close_stopped (h : s.ridge.running = false) (i : Nat) : s.close.rd f i = s.rd f i := by
  have h₁ : s.evalSquelch.ridge.running = false :=
    (congrArg RidgeSt.running (ridge_of_ridgeView (ridgeView_evalSquelch s))).trans h
  have h₂ : s.evalSquelch.dropOccs.evalSquelch.ridge.running = false :=
    (congrArg RidgeSt.running (ridge_of_ridgeView ((ridgeView_evalSquelch s.evalSquelch.dropOccs).trans (ridgeView_dropOccs _)))).trans h₁
  unfold close
  dsimp only
  rw [settle_stopped h₁, h₂, if_neg (by decide)]
  exact ((rd_evalSquelch hf i).trans (rd_dropOccs s.evalSquelch f i)).trans (rd_evalSquelch hf i)

end

end State

/-- Settling the faults of a tick does not start the Ridge. -/
theorem running_of_close {s t : State} (h : t.close = s.close) : t.ridge.running = s.ridge.running := by
  have e : t.ridgeView.settled = s.ridgeView.settled := by rw [← State.settled_close t, h, State.settled_close]
  exact congrArg (fun v => v.ridge.running) e

/-- Refutes O11: a substitution that names no idle spare, for a logical channel that the TE-864 does not implement (48), is refused for
its channel with BAD_PARAM and never reaches TDC_SUB_STAT (R2), so FAILED stays 0 where the clause says it is 1. -/
theorem not_sparesShadowSwapAndReturn : ¬ Obligations.SparesShadowSwapAndReturn := by
  unfold Obligations.SparesShadowSwapAndReturn
  rintro ⟨-, -, refused, -⟩
  obtain ⟨u, hu, hf, -⟩ := refused State.reset 0 48 (by decide) (by decide +kernel)
  have hx : exec (.substitute 0 48) State.reset = done (State.reset.put ⟨0, 0x600C, 2, true⟩ (fun s a => s.tdcSubWrite a (subWord 48 false))).1 :=
    exec_substitute 0 48 _
  have hc := Host.Outcome.next.inj (hu.symm.trans hx)
  generalize hv : (State.reset.put ⟨0, 0x600C, 2, true⟩ (fun s a => s.tdcSubWrite a (subWord 48 false))).1 = v at hc
  have hr : v.ridge.running = false := by rw [← hv]; decide +kernel
  have h₀ : v.rd F.TDC_SUB_STAT_FAILED = 0 := by rw [← hv]; decide +kernel
  have h₁ : u.rd F.TDC_SUB_STAT_FAILED = 0 := by
    rw [← State.rd_close_stopped rfl ((running_of_close hc).trans hr), hc, State.rd_close_stopped rfl hr, h₀]
  rw [State.on, h₁] at hf
  exact absurd hf (by decide)

end Sys2Proof.Machine

/-! ## The slots and domains of Thatch (spec/03_thatch_ensemble.md)

What the shared operations of the ensemble leave alone, and the state in which each leaves a slot or a domain, each said once. -/

namespace Sys2Proof.Machine

theorem bit_eq_testBit (n b : Nat) : bit n b = n.testBit b := by
  rw [bit, Nat.testBit_eq_decide_div_mod_eq]
  rfl

/-- A bit that is cleared in a word reads 0 in a field that reaches above it. -/
theorem bit_setBit_false {b k : Nat} (h : b < k) (w : Nat) : bit (setBit w b false % 2 ^ k) b = false := by
  have hd : setBit w b false / 2 ^ b = w / 2 ^ b - w / 2 ^ b % 2 := by
    rw [← Nat.sub_mul_div, Nat.mul_comm]
    simp [setBit, setBits, bits]
  rw [bit_eq_testBit, Nat.testBit_mod_two_pow, ← bit_eq_testBit, bit, hd, decide_eq_true h, Bool.true_and, beq_eq_false_iff_ne]
  omega

/-! ### Frames -/

/-- Between `s` and `u` only slots of Thatch and the register fields listed have changed, with the faults, events and completions that
come of it. -/
def ThatchOnly (s u : State) (l : List (Fld × Nat)) : Prop :=
  { s with regs := u.regs, ens := { s.ens with slots := u.ens.slots, repl := u.ens.repl }, out := u.out, fcu := u.fcu, host := u.host,
           nor := u.nor, bootCpl := u.bootCpl, free := u.free } = u ∧
  ∀ f i, f.off answerFlds = true → (∀ p ∈ l, f.key i ≠ p.1.key p.2) → u.rd f i = s.rd f i

namespace ThatchOnly
variable {s t u : State} {l m : List (Fld × Nat)}

theorem refl (s : State) (l : List (Fld × Nat)) : ThatchOnly s s l := ⟨rfl, fun _ _ _ _ => rfl⟩

theorem trans (h : ThatchOnly s t l) (k : ThatchOnly t u l) : ThatchOnly s u l :=
  ⟨by rw [← k.1, ← h.1], fun f i hf hn => (k.2 f i hf hn).trans (h.2 f i hf hn)⟩

theorem mono (h : ThatchOnly s u l) (hl : ∀ p ∈ l, p ∈ m) : ThatchOnly s u m :=
  ⟨h.1, fun f i hf hn => h.2 f i hf fun p hp => hn p (hl p hp)⟩

theorem wr (h : ThatchOnly s u l) {g : Fld} {j : Nat} (hg : (g, j) ∈ l) (v : Nat) : ThatchOnly s (u.wr g v j) l :=
  ⟨by rw [← h.1]; rfl, fun f i hf hn => (State.rd_wr_ne u (hn _ hg) v).trans (h.2 f i hf hn)⟩

theorem rst (h : ThatchOnly s u l) {g : Fld} {j : Nat} (hg : (g, j) ∈ l) : ThatchOnly s (u.rst g j) l :=
  ⟨by rw [← h.1]; rfl, fun f i hf hn => (State.rd_rst_ne u (hn _ hg)).trans (h.2 f i hf hn)⟩

theorem wrFit (h : ThatchOnly s u l) {g : Fld} {j : Nat} (hg : (g, j) ∈ l) (q : Rat) : ThatchOnly s (u.wrFit g q j) l := by
  unfold State.wrFit
  dsimp only
  split
  · exact h.wr hg _
  · exact (h.trans (u := u.draw.2) ⟨rfl, fun _ _ _ _ => rfl⟩).wr hg _

theorem raise (h : ThatchOnly s u l) (fs n : Nat) : ThatchOnly s (u.raise fs n) l := h.trans ⟨rfl, fun _ _ _ _ => rfl⟩

theorem setSlot (h : ThatchOnly s u l) (n : Nat) (e : EnsSlot) : ThatchOnly s (u.setSlot n e) l := h.trans ⟨rfl, fun _ _ _ _ => rfl⟩

theorem setRepl (h : ThatchOnly s u l) (r : List (Nat × Nat)) : ThatchOnly s { u with ens := { u.ens with repl := r } } l :=
  h.trans ⟨rfl, fun _ _ _ _ => rfl⟩

theorem answered (h : ThatchOnly s t l) (k : Answered t u) : ThatchOnly s u l :=
  h.trans ⟨by rw [← k.1], fun _ i hf _ => k.rd (Fld.lt_of_off hf) (fun _ hg => (Fld.ne_of_off hf hg).2) i⟩

theorem of_onlyRegs (h : OnlyRegs s u l) : ThatchOnly s u l := ⟨by rw [← h.1], fun f i _ hn => h.2 f i hn⟩

theorem of_onlyRegsFcu (h : OnlyRegsFcu s u l) : ThatchOnly s u l := ⟨by rw [← h.1], fun f i _ hn => h.2 f i hn⟩

theorem foldl {α : Type} {f : State → α → State} (h : ThatchOnly s u l) (xs : List α)
    (hf : ∀ t, ∀ x ∈ xs, ThatchOnly t (f t x) l) : ThatchOnly s (xs.foldl f u) l := by
  induction xs generalizing u with
  | nil => exact h
  | cons x xs ih => exact ih (h.trans (hf u x (.head _))) fun t y hy => hf t y (.tail _ hy)

/-- A field that is no answering one and not listed reads the same at every index. -/
theorem rd (h : ThatchOnly s u l) {f : Fld} (hf : f.off (answerFlds ++ l.map Prod.fst) = true) (i : Nat) : u.rd f i = s.rd f i :=
  have hf := Fld.off_append hf
  h.2 f i hf.1 fun _ hp => have hg := Fld.ne_of_off hf.2 (List.mem_map_of_mem hp); Fld.key_ne hg.1 (Fld.lt_of_off hf.2) (.inl hg.2)

theorem on (h : ThatchOnly s u l) {f : Fld} (hf : f.off (answerFlds ++ l.map Prod.fst) = true) (i : Nat) : u.on f i = s.on f i :=
  congrArg (· != 0) (h.rd hf i)

theorem mem (h : ThatchOnly s u l) : u.mem = s.mem := by rw [← h.1]
theorem ridge (h : ThatchOnly s u l) : u.ridge = s.ridge := by rw [← h.1]
theorem was (h : ThatchOnly s u l) : u.was = s.was := by rw [← h.1]
theorem run (h : ThatchOnly s u l) : u.ens.run = s.ens.run := by rw [← h.1]
theorem stopping (h : ThatchOnly s u l) : u.ens.stopping = s.ens.stopping := by rw [← h.1]
theorem disputes (h : ThatchOnly s u l) : u.ens.disputes = s.ens.disputes := by rw [← h.1]
theorem requal (h : ThatchOnly s u l) : u.ens.requal = s.ens.requal := by rw [← h.1]

/-- A rank in force stays in force where neither it nor its register is written. -/
theorem rank (h : ThatchOnly s u l) (hf : F.ENS_SLOT_RANK_RANK.off (answerFlds ++ l.map Prod.fst) = true) (n : Nat) :
    u.rank n = s.rank n := by
  rw [State.rank, State.inF, h.was, h.rd hf]
  rfl

end ThatchOnly

namespace State
variable {s : State} {n : Nat}

/-! ### The state of a slot -/

/-- The fields that a slot's change of state shows in. -/
def moveFlds (n : Nat) : List (Fld × Nat) := [(F.ENS_SLOT_STAT_STATE, n), (F.ENS_CHANGED_CHG, 0)]

/-- The fields in which it shows that a slot starts to qualify. -/
def qualFlds (n : Nat) : List (Fld × Nat) := (F.ENS_SLOT_STAT_STREAK, n) :: moveFlds n

/-- The fields in which it shows that a slot is enabled, disabled or disqualified. -/
def slotFlds (n : Nat) : List (Fld × Nat) :=
  (F.ENS_SLOT_STAT_CAUSE, n) :: (F.ENS_SLOT_CNT_DISPUTES, n) :: (F.ENS_SLOT_CNT_DISQ, n) :: (F.ENS_SLOT_CNT_OUTLIERS, n) :: qualFlds n

theorem moveFlds_sub_qualFlds : ∀ p ∈ moveFlds n, p ∈ qualFlds n := fun _ => .tail _
theorem qualFlds_sub_slotFlds : ∀ p ∈ qualFlds n, p ∈ slotFlds n := fun _ hp => .tail _ (.tail _ (.tail _ (.tail _ hp)))
theorem moveFlds_sub_slotFlds : ∀ p ∈ moveFlds n, p ∈ slotFlds n := fun p hp => qualFlds_sub_slotFlds p (moveFlds_sub_qualFlds p hp)

/-- Of these fields only the slot's own state is one that shows a slot's state. -/
theorem slotFlds_state {n : Nat} : ∀ p ∈ slotFlds n, p.1.no < 1024 ∧ (F.ENS_SLOT_STAT_STATE.no ≠ p.1.no ∨ p.2 = n) := by
  simp only [slotFlds, qualFlds, moveFlds, List.forall_mem_cons]
  exact ⟨⟨by decide, .inr trivial⟩, ⟨by decide, .inr trivial⟩, ⟨by decide, .inr trivial⟩, ⟨by decide, .inr trivial⟩,
    ⟨by decide, .inr trivial⟩, ⟨by decide, .inr trivial⟩, ⟨by decide, .inl (by decide)⟩, nofun⟩

/-- What is done to one slot leaves the states of the others. -/
theorem slotState_of_ne {s u : State} (h : ThatchOnly s u (slotFlds n)) {m : Nat} (hm : m ≠ n) : u.slotState m = s.slotState m :=
  h.2 _ m rfl fun p hp => have k := slotFlds_state p hp; Fld.key_ne k.1 (by decide) (k.2.imp_right fun e => by rwa [e])

/-- An event shows in no field of the ensemble. -/
theorem thatchOnly_eventNow (code info : Nat) (p : List Nat) : ThatchOnly s (s.eventNow code info p) [] :=
  (ThatchOnly.refl s []).answered (.eventNow s code info p)

theorem thatchOnly_moveSlot (st : Nat) : ThatchOnly s (s.moveSlot n st) (moveFlds n) := by
  unfold moveSlot
  dsimp only
  split
  · exact .refl s _
  · exact (((ThatchOnly.refl s _).wr (.head _) _).wr (.tail _ (.head _)) _).answered (.eventNow _ _ _ _)

theorem slotState_moveSlot {st : Nat} (h : st < 8) : (s.moveSlot n st).slotState n = st := by
  unfold moveSlot
  extract_lets old s₁
  split
  · assumption
  · rw [slotState, (thatchOnly_eventNow _ _ _).rd rfl]
    unfold s₁
    rw [wrBit_eq, rd_wr_other _ (by decide) (by decide) (by decide), rd_wr_same]
    exact Nat.mod_eq_of_lt h

theorem thatchOnly_toCandidate : ThatchOnly s (s.toCandidate n) (moveFlds n) := thatchOnly_moveSlot _

theorem slotState_toCandidate (h : s.rank n ≠ 0) : (s.toCandidate n).slotState n = Slot.candidate := by
  rw [toCandidate, if_neg h]
  exact slotState_moveSlot (by decide)

theorem thatchOnly_dropMember (l : List (Fld × Nat)) : ThatchOnly s (s.dropMember n) l :=
  ((ThatchOnly.refl s l).setSlot n _).setRepl _

/-! ### Qualifying (R96, R98, R99) -/

/-- A slot starts to qualify by a change of state alone, once its model is fresh and its streak is over. -/
theorem qualify_eq : ∃ t : State, ThatchOnly s t [(F.ENS_SLOT_STAT_STREAK, n)] ∧
    s.qualify n = t.moveSlot n (if s.rank n = 0 then Slot.monitor else Slot.qualifying) := by
  have h : ThatchOnly s (((s.dropMember n).setSlot n
      { s2 := (s.rd F.ENS_SLOT_SIG0_SIG0 n : Rat) * s.rd F.ENS_SLOT_SIG0_SIG0 n, timer := s.rd F.ENS_SLOT_CFG_QUAL_TIME n * 1024 }).wr
      F.ENS_SLOT_STAT_STREAK 0 n) [(F.ENS_SLOT_STAT_STREAK, n)] := ((thatchOnly_dropMember _).setSlot n _).wr (.head _) 0
  refine ⟨_, h, ?_⟩
  rw [← h.rank rfl]
  rfl

theorem thatchOnly_qualify : ThatchOnly s (s.qualify n) (qualFlds n) := by
  obtain ⟨t, h, e⟩ := qualify_eq (s := s) (n := n)
  rw [e]
  exact (h.mono (by simp [qualFlds])).trans ((thatchOnly_moveSlot _).mono moveFlds_sub_qualFlds)

theorem slotState_qualify (h : s.rank n ≠ 0) : (s.qualify n).slotState n = Slot.qualifying := by
  obtain ⟨t, -, e⟩ := qualify_eq (s := s) (n := n)
  rw [e, if_neg h]
  exact slotState_moveSlot (by decide)

/-- A slot that was not disqualified for its configuration is not checked again (R99). -/
theorem requalify_eq_qualify (h : s.rd F.ENS_SLOT_STAT_CAUSE n ≠ 7) : s.requalify n = s.qualify n := if_neg fun k => h k.2.1

theorem thatchOnly_qualified : ThatchOnly s (s.qualified n) (moveFlds n) := by
  unfold qualified
  extract_lets e s₁
  have h : ThatchOnly s s₁ (moveFlds n) := (ThatchOnly.refl s _).setSlot n _
  split
  · exact h.trans thatchOnly_toCandidate
  · exact h

theorem slotState_qualified (h : s.slotState n = Slot.qualifying) (hr : s.rank n ≠ 0) :
    (s.qualified n).slotState n = Slot.candidate := by
  have e : s.qualified n = (s.setSlot n { s.slot n with timer := 0 }).toCandidate n := if_pos h
  rw [e]
  exact slotState_toCandidate hr

/-! ### Enabling and disabling (R95, R96) -/

theorem thatchOnly_slotConfigFail : ThatchOnly s (s.slotConfigFail n) (slotFlds n) :=
  ((((thatchOnly_dropMember _).setSlot n _).wr (.head _) 7).trans ((thatchOnly_moveSlot _).mono moveFlds_sub_slotFlds)).raise 42 0

/-- What slot `n` shows of its past has been cleared. -/
def slotCleared (s : State) (n : Nat) : State :=
  (s.rstFlds [F.ENS_SLOT_CNT_DISPUTES, F.ENS_SLOT_CNT_DISQ, F.ENS_SLOT_CNT_OUTLIERS] n).wr F.ENS_SLOT_STAT_CAUSE 0 n

theorem slotEnable_eq : s.slotEnable n =
    if (s.slotCleared n).slotCheck n then (s.slotCleared n).qualify n else (s.slotCleared n).slotConfigFail n := rfl

theorem thatchOnly_slotCleared : ThatchOnly s (s.slotCleared n) (slotFlds n) :=
  ((((ThatchOnly.refl s (slotFlds n)).rst (g := F.ENS_SLOT_CNT_DISPUTES) (by simp [slotFlds])).rst (g := F.ENS_SLOT_CNT_DISQ)
    (by simp [slotFlds])).rst (g := F.ENS_SLOT_CNT_OUTLIERS) (by simp [slotFlds])).wr (.head _) 0

theorem thatchOnly_slotEnable : ThatchOnly s (s.slotEnable n) (slotFlds n) := by
  rw [slotEnable_eq]
  split
  · exact thatchOnly_slotCleared.trans (thatchOnly_qualify.mono qualFlds_sub_slotFlds)
  · exact thatchOnly_slotCleared.trans thatchOnly_slotConfigFail

/-- The XO slot and the GNSS slot need no source that the host names (R95). -/
theorem slotCheck_xo_gnss (h : n = 10 ∨ n = 11) : s.slotCheck n = true := by
  obtain rfl | rfl := h <;> rfl

theorem slotEnable_xo_gnss (h : n = 10 ∨ n = 11) : s.slotEnable n = (s.slotCleared n).qualify n := by
  rw [slotEnable_eq, slotCheck_xo_gnss h]
  rfl

theorem thatchOnly_slotDisable : ThatchOnly s (s.slotDisable n) (slotFlds n) :=
  ((thatchOnly_dropMember _).setSlot n {}).trans ((thatchOnly_moveSlot _).mono moveFlds_sub_slotFlds)

theorem slotState_slotDisable : (s.slotDisable n).slotState n = Slot.disabled := slotState_moveSlot (by decide)

/-! ### Publication -/

/-- The fields of a slot that a beat publishes. -/
def showFlds (n : Nat) : List (Fld × Nat) :=
  [(F.ENS_SLOT_SIG2_VALUE, n), (F.ENS_SLOT_X_VALUE, n), (F.ENS_SLOT_Y_VALUE, n), (F.ENS_SLOT_D_VALUE, n), (F.ENS_SLOT_STAT_TIMER, n),
   (F.ENS_SLOT_STAT_TRACE, n)]

theorem thatchOnly_showSlot : ThatchOnly s (s.showSlot n) (showFlds n) := by
  unfold showSlot
  extract_lets e s₁ s₂ s₃ s₄ st
  have h₁ : ThatchOnly s s₁ (showFlds n) := (ThatchOnly.refl s _).wr (.head _) _
  have h₂ : ThatchOnly s s₂ (showFlds n) := h₁.wrFit (by simp [showFlds]) _
  have h₃ : ThatchOnly s s₃ (showFlds n) := h₂.wrFit (by simp [showFlds]) _
  have h₄ : ThatchOnly s s₄ (showFlds n) := h₃.wrFit (by simp [showFlds]) _
  exact (h₄.wr (g := F.ENS_SLOT_STAT_TIMER) (by simp [showFlds]) _).wr (g := F.ENS_SLOT_STAT_TRACE) (by simp [showFlds]) _


/-! ### The state of a domain -/

/-- The field that shows the state of domain `d`. -/
def domFld (d : Nat) : Fld := if d = 0 then F.ENS_DOM_STAT_A_STATE else F.ENS_DOM_STAT_B_STATE

/-- The field that shows that domain `d` has been ACQUIRING. -/
def everFld (d : Nat) : Fld := if d = 0 then F.ENS_DOM_STAT_A_EVER else F.ENS_DOM_STAT_B_EVER

/-- The field that shows that domain `d` has been LOCKED. -/
def lockedFld (d : Nat) : Fld := if d = 0 then F.ENS_DOM_STAT_A_LOCKED_EVER else F.ENS_DOM_STAT_B_LOCKED_EVER

/-- The fields in which a change of state of domain `d` shows. -/
def domFlds (d : Nat) : List (Fld × Nat) := [(domFld d, 0), (everFld d, 0), (lockedFld d, 0)]

theorem domState_eq (d : Nat) : s.domState d = s.rd (domFld d) := by
  unfold domState domFld
  split <;> rfl

theorem domFld_spec (d : Nat) : (domFld d).off [everFld d, lockedFld d] = true ∧ (domFld d).w = 3 ∧ (lockedFld d).w = 1 := by
  unfold domFld everFld lockedFld
  split <;> decide

/-- The registers show domain `d` in state `st`, and that it has been in it. -/
def domShown (s : State) (d st : Nat) : State :=
  let s := s.wr (domFld d) st
  let s := if st = DomSt.acquiring then s.wr (everFld d) 1 else s
  if st = DomSt.locked then s.wr (lockedFld d) 1 else s

theorem moveDom_of_ne {d st : Nat} (h : s.domState d ≠ st) :
    s.moveDom d st = (s.domShown d st).eventNow 0x0005 d [s.domState d + st * 16] := if_neg h

theorem onlyRegs_domShown (d st : Nat) : OnlyRegs s (s.domShown d st) (domFlds d) := by
  unfold domShown
  extract_lets s₁ s₂
  have h₁ : OnlyRegs s s₁ (domFlds d) := (OnlyRegs.refl s _).wr (.head _) st
  have h₂ : OnlyRegs s s₂ (domFlds d) := by
    unfold s₂
    split
    · exact h₁.wr (.tail _ (.head _)) 1
    · exact h₁
  split
  · exact h₂.wr (.tail _ (.tail _ (.head _))) 1
  · exact h₂

theorem domState_domShown (d : Nat) {st : Nat} (h : st < 8) : (s.domShown d st).domState d = st := by
  obtain ⟨ho, hw, -⟩ := domFld_spec d
  rw [domState_eq]
  unfold domShown
  extract_lets s₁ s₂
  have h₁ : s₁.rd (domFld d) = st := by
    unfold s₁
    rw [rd_wr_same, hw]
    exact Nat.mod_eq_of_lt h
  have h₂ : s₂.rd (domFld d) = st := by
    unfold s₂
    split
    · rw [rd_wr_off _ ho (.head _), h₁]
    · exact h₁
  split
  · rw [rd_wr_off _ ho (.tail _ (.head _)), h₂]
  · exact h₂

theorem thatchOnly_moveDom (d st : Nat) : ThatchOnly s (s.moveDom d st) (domFlds d) := by
  by_cases h : s.domState d = st
  · rw [show s.moveDom d st = s from if_pos h]
    exact .refl s _
  · rw [moveDom_of_ne h]
    exact (ThatchOnly.of_onlyRegs (onlyRegs_domShown d st)).answered (.eventNow _ _ _ _)

theorem domState_moveDom (d : Nat) {st : Nat} (h : st < 8) : (s.moveDom d st).domState d = st := by
  by_cases hs : s.domState d = st
  · rw [show s.moveDom d st = s from if_pos hs, hs]
  · have ho : (domFld d).off answerFlds = true := by
      unfold domFld
      split <;> rfl
    rw [moveDom_of_ne hs, domState_eq, (thatchOnly_eventNow _ _ _).2 _ _ ho nofun, ← domState_eq, domState_domShown d h]

/-- The state of one domain does not show in the other's (Table ENS-4). -/
theorem domState_moveDom_other {d e : Nat} (h : d = 0 ↔ e ≠ 0) (st : Nat) : (s.moveDom d st).domState e = s.domState e := by
  have k := thatchOnly_moveDom (s := s) d st
  by_cases hd : d = 0
  · subst hd
    rw [domState, if_neg (h.1 rfl), domState, if_neg (h.1 rfl)]
    exact k.rd rfl 0
  · obtain rfl : e = 0 := not_not.1 fun c => hd (h.2 c)
    rw [domState, if_pos rfl, domState, if_pos rfl]
    exact k.rd (by simp only [domFlds, domFld, everFld, lockedFld, if_neg hd]; rfl) 0

/-- A domain that becomes LOCKED shows that it has been. -/
theorem on_lockedFld_moveDom {d : Nat} (h : s.domState d ≠ DomSt.locked) : (s.moveDom d DomSt.locked).on (lockedFld d) = true := by
  have ho : (lockedFld d).off answerFlds = true := by
    unfold lockedFld
    split <;> rfl
  rw [moveDom_of_ne h, on, (thatchOnly_eventNow _ _ _).2 _ _ ho nofun]
  exact (congrArg (· != 0) (rd_wr_same (s.wr (domFld d) DomSt.locked) (lockedFld d) 1 0)).trans (by rw [(domFld_spec d).2.2]; rfl)

/-! ### Writes of the ensemble's registers -/

theorem onlyRegs_fieldWrite (lock : Fld → Bool) (ok : Fld → Nat → Bool) (fs : List Fld) (i w : Nat) :
    OnlyRegs s (s.fieldWrite lock ok fs i w).1 (fs.map (·, i)) :=
  ⟨(fieldWrite_regs s lock ok fs i w).symm, (RegsBut.refl s _).fieldWrite (fun _ hf => List.mem_map_of_mem hf) lock ok w⟩

/-- An enable in bit 0 that is not locked takes the bit of the word. -/
theorem on_fieldWrite_setBit_zero {lock : Fld → Bool} {ok : Fld → Nat → Bool} {f : Fld} (ha : f.acc = .rw) (hp : f.lo = 0 ∧ f.w = 1)
    (hl : lock f = false) (hr : ∀ v, ok f v = true) (fs : List Fld) (i w : Nat) (b : Bool) :
    (s.fieldWrite lock ok (fs ++ [f]) i (setBit w 0 b)).1.on f i = b := by
  rw [on, rd_fieldWrite_last ha hl (hr _), hp.1, hp.2, bits_setBit_zero]
  cases b <;> rfl

theorem thatchOnly_conclude (a : Acs) (codes : List Nat) : ThatchOnly s (s.conclude a codes).1 accFlds :=
  .of_onlyRegsFcu (onlyRegsFcu_conclude a codes)

/-- The fields of ENS_SLOT_CFG, EN last. -/
def slotCfgFlds : List Fld :=
  [F.ENS_SLOT_CFG_QUAL_TIME, F.ENS_SLOT_CFG_QL_MIN, F.ENS_SLOT_CFG_SRC, F.ENS_SLOT_CFG_KIND, F.ENS_SLOT_CFG_EN]

/-- What the fields of ENS_SLOT_CFG[n] take of a write of `w`, and the rules that it breaks (R128). -/
def slotCfgFields (s : State) (n w : Nat) : State × List Nat :=
  s.fieldWrite (fun f => s.on F.ENS_SLOT_CFG_EN n && f.no != F.ENS_SLOT_CFG_EN.no) inRange slotCfgFlds n w

/-- What follows when EN of slot `n` has been written, EN having been `was` (R95, R96). -/
def followSlotEn (s : State) (was : Bool) (n : Nat) : State :=
  if !s.ens.run || s.on F.ENS_SLOT_CFG_EN n == was then s else if s.on F.ENS_SLOT_CFG_EN n then s.slotEnable n else s.slotDisable n

theorem slotCfgWrite_eq (a : Acs) (n w : Nat) : s.slotCfgWrite a n w =
    ((s.slotCfgFields n w).1.followSlotEn (s.on F.ENS_SLOT_CFG_EN n) n).conclude a (s.slotCfgFields n w).2 := rfl

theorem onlyRegs_slotCfgFields (n w : Nat) : OnlyRegs s (s.slotCfgFields n w).1 (slotCfgFlds.map (·, n)) := onlyRegs_fieldWrite _ _ _ n w

theorem on_en_slotCfgFields (n w : Nat) (b : Bool) : (s.slotCfgFields n (setBit w 0 b)).1.on F.ENS_SLOT_CFG_EN n = b :=
  on_fieldWrite_setBit_zero rfl ⟨rfl, rfl⟩ (by rw [bne_self_eq_false, Bool.and_false]) (fun _ => rfl) slotCfgFlds.dropLast n w b

/-- The write of EN to a slot of a running Thatch enables or disables it. -/
theorem slotCfgWrite_running {n : Nat} {b : Bool} (hr : s.ens.run = true) (he : s.on F.ENS_SLOT_CFG_EN n = !b) (a : Acs) (w : Nat) :
    ∃ t : State, OnlyRegs s t (slotCfgFlds.map (·, n)) ∧ t.on F.ENS_SLOT_CFG_EN n = b ∧
      ThatchOnly (if b then t.slotEnable n else t.slotDisable n) (s.slotCfgWrite a n (setBit w 0 b)).1 accFlds := by
  have h := onlyRegs_slotCfgFields (s := s) n (setBit w 0 b)
  have hb := on_en_slotCfgFields (s := s) n w b
  refine ⟨_, h, hb, ?_⟩
  have hf : (s.slotCfgFields n (setBit w 0 b)).1.followSlotEn (s.on F.ENS_SLOT_CFG_EN n) n =
      if b then (s.slotCfgFields n (setBit w 0 b)).1.slotEnable n else (s.slotCfgFields n (setBit w 0 b)).1.slotDisable n := by
    rw [followSlotEn, (ThatchOnly.of_onlyRegs h).run, hr, hb, he]
    cases b <;> rfl
  rw [slotCfgWrite_eq, hf]
  exact thatchOnly_conclude a _

/-- While Thatch is stopped an accepted enable only takes the word. -/
theorem slotCfgWrite_stopped {n w : Nat} (hr : s.ens.run = false) (he : s.on F.ENS_SLOT_CFG_EN n = false)
    (hw : Fits [F.ENS_SLOT_CFG_QUAL_TIME] w = true) (a : Acs) :
    (s.slotCfgWrite a n (setBit w 0 true)).1 = s.takeFlds slotCfgFlds n (setBit w 0 true) := by
  have hw : Fits slotCfgFlds (setBit w 0 true) = true := by
    have hq : Fits [F.ENS_SLOT_CFG_QUAL_TIME] (setBit w 0 true) = true := by
      simp only [Fits, List.all_cons] at hw ⊢
      rwa [show bits (setBit w 0 true) F.ENS_SLOT_CFG_QUAL_TIME.lo F.ENS_SLOT_CFG_QUAL_TIME.w = _ from
        bits_setBit_zero_above w true 19 12]
    rw [show slotCfgFlds = [F.ENS_SLOT_CFG_QUAL_TIME] ++ slotCfgFlds.tail from rfl, Fits, List.all_append, Bool.and_eq_true]
    exact ⟨hq, rfl⟩
  have h : s.slotCfgFields n (setBit w 0 true) = (s.takeFlds slotCfgFlds n (setBit w 0 true), []) :=
    fieldWrite_fits (fun _ _ => by rw [he]; rfl) hw s
  have hf : (s.takeFlds slotCfgFlds n (setBit w 0 true)).ens.run = false := by
    rw [← (onlyRegs_takeFlds slotCfgFlds n (setBit w 0 true)).1]
    exact hr
  rw [slotCfgWrite_eq, h, followSlotEn, hf]
  rfl

/-- The fields of ENS_CTL, EN last. -/
def ensCtlFlds : List Fld := [F.ENS_CTL_W_MAX, F.ENS_CTL_WT_SHIFT, F.ENS_CTL_RANK_SPAN, F.ENS_CTL_MAX_MEMBERS, F.ENS_CTL_EN]

/-- What the fields of ENS_CTL take of a write of `w`, and the rules that it breaks (R128). -/
def ensCtlFields (s : State) (w : Nat) : State × List Nat :=
  s.fieldWrite (fun f => (s.on F.ENS_CTL_EN || s.ens.stopping) && f.no != F.ENS_CTL_EN.no) inRange ensCtlFlds 0 w

/-- Thatch begins to stop: both domains leave their reference (R130). -/
def thatchStopping (s : State) : State :=
  ({ s with ens := { s.ens with stopping := true } }.moveDom 0 DomSt.freeRun).moveDom 1 DomSt.freeRun

/-- What follows when EN of ENS_CTL has been written, EN having been `was` (R130). -/
def followThatchEn (s : State) (was : Bool) : State :=
  if s.on F.ENS_CTL_EN && !was then (if s.ens.stopping then s.wr F.ENS_STAT_PENDING_ENABLE 1 else s.thatchStart)
  else if was && !s.on F.ENS_CTL_EN then (if s.ens.stopping then s.wr F.ENS_STAT_PENDING_ENABLE 0 else s.thatchStopping)
  else s

theorem ensCtlWrite_eq (a : Acs) (w : Nat) : s.ensCtlWrite a w =
    ((s.ensCtlFields w).1.followThatchEn (s.on F.ENS_CTL_EN)).conclude a (s.ensCtlFields w).2 := rfl

theorem onlyRegs_ensCtlFields (w : Nat) : OnlyRegs s (s.ensCtlFields w).1 (ensCtlFlds.map (·, 0)) := onlyRegs_fieldWrite _ _ _ 0 w

theorem on_en_ensCtlFields (w : Nat) (b : Bool) : (s.ensCtlFields (setBit w 0 b)).1.on F.ENS_CTL_EN = b :=
  on_fieldWrite_setBit_zero rfl ⟨rfl, rfl⟩ (by rw [bne_self_eq_false, Bool.and_false]) (fun _ => rfl) ensCtlFlds.dropLast 0 w b

/-- A change of EN starts Thatch or begins to stop it, when no stop is under way. -/
theorem ensCtlWrite_changes {b : Bool} (he : s.on F.ENS_CTL_EN = !b) (hs : s.ens.stopping = false) (a : Acs) (w : Nat) :
    ∃ t : State, OnlyRegs s t (ensCtlFlds.map (·, 0)) ∧ t.on F.ENS_CTL_EN = b ∧
      ThatchOnly (if b then t.thatchStart else t.thatchStopping) (s.ensCtlWrite a (setBit w 0 b)).1 accFlds := by
  have h := onlyRegs_ensCtlFields (s := s) (setBit w 0 b)
  have hb := on_en_ensCtlFields (s := s) w b
  refine ⟨_, h, hb, ?_⟩
  have hf : (s.ensCtlFields (setBit w 0 b)).1.followThatchEn (s.on F.ENS_CTL_EN) =
      if b then (s.ensCtlFields (setBit w 0 b)).1.thatchStart else (s.ensCtlFields (setBit w 0 b)).1.thatchStopping := by
    rw [followThatchEn, (ThatchOnly.of_onlyRegs h).stopping, hs, hb, he]
    cases b <;> rfl
  rw [ensCtlWrite_eq, hf]
  exact thatchOnly_conclude a _

/-! ### Starting and stopping Thatch (R130) -/

/-- The state with Thatch marked as running. -/
def runMarked (s : State) : State := { s with ens := { s.ens with run := true, stopping := false } }

/-- Slot `n` enters a Thatch that starts, if it is enabled. -/
def enterSlot (s : State) (n : Nat) : State := if s.on F.ENS_SLOT_CFG_EN n then s.slotEnable n else s

theorem thatchStart_eq : s.thatchStart = (List.range 24).foldl enterSlot s.runMarked := rfl

theorem thatchOnly_thatchStart : ThatchOnly s.runMarked s.thatchStart ((List.range 24).flatMap slotFlds) := by
  rw [thatchStart_eq]
  refine (ThatchOnly.refl s.runMarked _).foldl _ fun t n hn => ?_
  unfold enterSlot
  split
  · exact thatchOnly_slotEnable.mono fun p hp => List.mem_flatMap.mpr ⟨n, hn, hp⟩
  · exact .refl t _

/-- The state with Thatch marked as stopping. -/
def stopMarked (s : State) : State := { s with ens := { s.ens with stopping := true } }

theorem thatchOnly_thatchStopping : ThatchOnly s.stopMarked s.thatchStopping (domFlds 0 ++ domFlds 1) :=
  ((thatchOnly_moveDom 0 DomSt.freeRun).mono fun _ => List.mem_append_left _).trans
    ((thatchOnly_moveDom 1 DomSt.freeRun).mono fun _ => List.mem_append_right _)

/-! ### The end of an exit ramp (R111) -/

theorem endExit_eq : ∃ t : State, ThatchOnly s t [] ∧ s.endExit n = t.toCandidate n := by
  refine ⟨_, ?_, rfl⟩
  exact ((ThatchOnly.refl s []).setSlot n _).setRepl _

theorem thatchOnly_endExit : ThatchOnly s (s.endExit n) (moveFlds n) := by
  obtain ⟨t, h, e⟩ := endExit_eq (s := s) (n := n)
  rw [e]
  exact (h.mono nofun).trans thatchOnly_toCandidate

theorem slotState_endExit (h : s.rank n ≠ 0) : (s.endExit n).slotState n = Slot.candidate := by
  obtain ⟨t, ht, e⟩ := endExit_eq (s := s) (n := n)
  rw [e]
  exact slotState_toCandidate (by rwa [ht.rank rfl])

/-! ### Ranks in force (R104) -/

/-- A staged write of a field leaves every value of it in force. -/
theorem inF_wr_keepOld {f : Fld} (hf : f.no < 1024) (v i j : Nat) : ((s.keepOld [f] i).wr f v i).inF f j = s.inF f j := by
  have hw : ((s.keepOld [f] i).wr f v i).was = kvPut s.was (f.key i) (s.inF f i) := rfl
  rw [inF, hw]
  by_cases h : j = i
  · subst h
    rw [kvGet_kvPut_same]
    rfl
  · rw [kvGet_kvPut_ne _ (Fld.key_ne hf hf (.inr h)), rd_wr_index _ hf h]
    rfl

end State

/-! ### The commands of slots and of Thatch -/

theorem exec_slotEnable (req n w : Nat) (s : State) : exec (.slotEnable req n w) s = execSlotEnable req n w s := rfl
theorem exec_slotDisable (req n w : Nat) (s : State) : exec (.slotDisable req n w) s = execSlotDisable req n w s := rfl
theorem exec_rankWrite (req n w : Nat) (s : State) : exec (.rankWrite req n w) s = execRankWrite req n w s := rfl
theorem exec_qualTimeDone (n : Nat) (s : State) : exec (.qualTimeDone n) s = execQualTimeDone n s := rfl
theorem exec_holdoffDone (n : Nat) (s : State) : exec (.holdoffDone n) s = execHoldoffDone n s := rfl
theorem exec_rampEnd (n : Nat) (s : State) : exec (.rampEnd n) s = execRampEnd n s := rfl
theorem exec_thatchEnable (req w : Nat) (s : State) : exec (.thatchEnable req w) s = execThatchEnable req w s := rfl
theorem exec_thatchDisable (req w : Nat) (s : State) : exec (.thatchDisable req w) s = execThatchDisable req w s := rfl

theorem execSlotEnable_admitted {s : State} {req n : Nat} (h : Admitted s req) (hn : n < 24) (w : Nat) :
    execSlotEnable req n w s = done (s.slotCfgWrite ⟨req, 0x8100 + 0x40 * n, 2, true⟩ n (setBit w 0 true)).1 := by
  rw [execSlotEnable, if_neg (by omega), State.put_admitted h]

theorem execSlotDisable_admitted {s : State} {req n : Nat} (h : Admitted s req) (hn : n < 24) (w : Nat) :
    execSlotDisable req n w s = done (s.slotCfgWrite ⟨req, 0x8100 + 0x40 * n, 2, true⟩ n (setBit w 0 false)).1 := by
  rw [execSlotDisable, if_neg (by omega), State.put_admitted h]

section
variable {s : State} {req n w : Nat}

theorem slotEnable_stopped_settles (ha : Admitted s req) (hn : n < 24) (hr : s.ens.run = false)
    (hw : Fits [F.ENS_SLOT_CFG_QUAL_TIME] w = true) (he : s.on F.ENS_SLOT_CFG_EN n = false) :
    Settles (.slotEnable req n w) s (fun u => u.on F.ENS_SLOT_CFG_EN n = true ∧ u.rd F.ENS_SLOT_CFG_QUAL_TIME n = bits w 20 12 ∧
      u.rd F.ENS_SLOT_CFG_SRC n = bits w 8 6 ∧ u.rd F.ENS_SLOT_CFG_QL_MIN n = bits w 16 4 ∧ u.rd F.ENS_SLOT_CFG_KIND n = bits w 1 1 ∧
      OnlyRegs s u [(F.ENS_SLOT_CFG_QUAL_TIME, n), (F.ENS_SLOT_CFG_QL_MIN, n), (F.ENS_SLOT_CFG_SRC, n), (F.ENS_SLOT_CFG_KIND, n),
        (F.ENS_SLOT_CFG_EN, n)]) := by
  have h {g : Fld} (hg : g ∈ State.slotCfgFlds) :
      (s.takeFlds State.slotCfgFlds n (setBit w 0 true)).rd g n = bits (setBit w 0 true) g.lo g.w :=
    State.rd_takeFlds (by decide) (by decide) hg n _
  refine ⟨_, by rw [exec_slotEnable, execSlotEnable_admitted ha hn, State.slotCfgWrite_stopped hr he hw]; rfl, ?_, ?_, ?_, ?_, ?_,
    State.onlyRegs_takeFlds State.slotCfgFlds n _⟩
  · rw [State.on, h (by decide)]
    exact (congrArg (· != 0) (bits_setBit_zero w true) :)
  · rw [h (by decide)]
    exact bits_setBit_zero_above w true 19 12
  · rw [h (by decide)]
    exact bits_setBit_zero_above w true 7 6
  · rw [h (by decide)]
    exact bits_setBit_zero_above w true 15 4
  · rw [h (by decide)]
    exact bits_setBit_zero_above w true 0 1

theorem slotEnable_running_settles (ha : Admitted s req) (hn : n = 10 ∨ n = 11) (hr : s.ens.run = true)
    (he : s.on F.ENS_SLOT_CFG_EN n = false) (hk : s.rank n ≠ 0) : Settles (.slotEnable req n w) s (fun u =>
      u.on F.ENS_SLOT_CFG_EN n = true ∧ u.slotState n = 2 ∧ u.rd F.ENS_SLOT_STAT_CAUSE n = 0 ∧
      (∀ m, m ≠ n → u.slotState m = s.slotState m)) := by
  obtain ⟨t, ht, hb, hu⟩ := State.slotCfgWrite_running (b := true) hr he ⟨req, 0x8100 + 0x40 * n, 2, true⟩ w
  rw [if_pos rfl] at hu
  have ht := ThatchOnly.of_onlyRegs ht
  have hc := State.thatchOnly_slotCleared (s := t) (n := n)
  have hq := State.thatchOnly_qualify (s := t.slotCleared n) (n := n)
  have hkc : (t.slotCleared n).rank n ≠ 0 := by rwa [hc.rank rfl, ht.rank rfl]
  refine ⟨_, by rw [exec_slotEnable, execSlotEnable_admitted ha (by omega)]; rfl, ?_, ?_, ?_, fun m hm => ?_⟩
  · rw [hu.on rfl, State.thatchOnly_slotEnable.on rfl, hb]
  · rw [State.slotEnable_xo_gnss hn] at hu
    exact (hu.rd rfl n).trans (State.slotState_qualify hkc)
  · rw [State.slotEnable_xo_gnss hn] at hu
    rw [hu.rd rfl, hq.rd rfl]
    exact State.rd_wr_same _ _ 0 n
  · exact (hu.rd rfl m).trans ((State.slotState_of_ne State.thatchOnly_slotEnable hm).trans (ht.rd rfl m))

theorem slotDisable_settles (ha : Admitted s req) (hn : n < 24) (hr : s.ens.run = true) (he : s.on F.ENS_SLOT_CFG_EN n = true) :
    Settles (.slotDisable req n w) s (fun u => u.on F.ENS_SLOT_CFG_EN n = false ∧ u.slotState n = 0 ∧
      (∀ m, m ≠ n → u.slotState m = s.slotState m)) := by
  obtain ⟨t, ht, hb, hu⟩ := State.slotCfgWrite_running (b := false) hr he ⟨req, 0x8100 + 0x40 * n, 2, true⟩ w
  rw [if_neg (by decide)] at hu
  have ht := ThatchOnly.of_onlyRegs ht
  refine ⟨_, by rw [exec_slotDisable, execSlotDisable_admitted ha hn]; rfl, ?_, ?_, fun m hm => ?_⟩
  · rw [hu.on rfl, State.thatchOnly_slotDisable.on rfl, hb]
  · exact (hu.rd rfl n).trans State.slotState_slotDisable
  · exact (hu.rd rfl m).trans ((State.slotState_of_ne State.thatchOnly_slotDisable hm).trans (ht.rd rfl m))

theorem rankWrite_settles (ha : Admitted s req) (hn : n < 24) : Settles (.rankWrite req n w) s (fun u =>
    u.rd F.ENS_SLOT_RANK_RANK n = bits w 0 4 ∧ (∀ m, u.rank m = s.rank m) ∧ { s with regs := u.regs, was := u.was } = u ∧
    RegsBut s u [(F.ENS_SLOT_RANK_RANK, n)]) := by
  have hw : (s.keepOld [F.ENS_SLOT_RANK_RANK] n).fieldWrite noLock inRange [F.ENS_SLOT_RANK_RANK] n w =
      ((s.keepOld [F.ENS_SLOT_RANK_RANK] n).wr F.ENS_SLOT_RANK_RANK (bits w 0 4) n, []) :=
    State.fieldWrite_fits (fun _ _ => rfl) rfl _
  refine ⟨(s.keepOld [F.ENS_SLOT_RANK_RANK] n).wr F.ENS_SLOT_RANK_RANK (bits w 0 4) n, ?_,
    (State.rd_wr_same _ F.ENS_SLOT_RANK_RANK _ n).trans (bits_mod w 0 4), fun m => ?_, rfl, ?_⟩
  · rw [exec_rankWrite, execRankWrite, if_neg (by omega), State.put_admitted ha, State.rankWrite, State.stagedWrite, hw]
    rfl
  · exact State.inF_wr_keepOld (s := s) (f := F.ENS_SLOT_RANK_RANK) (by decide) _ n m
  · exact RegsBut.wr (.same (.refl s _) rfl) (.head _) _

theorem qualTimeDone_settles (hn : n < 24) (hs : s.slotState n = 2) (hk : s.rank n ≠ 0) : Settles (.qualTimeDone n) s (fun u =>
    u.slotState n = 3 ∧ (∀ m, m ≠ n → u.slotState m = s.slotState m) ∧ u.mem = s.mem ∧ u.ridge = s.ridge) := by
  have h := State.thatchOnly_qualified (s := s) (n := n)
  have k := State.thatchOnly_showSlot (s := s.qualified n) (n := n)
  refine ⟨(s.qualified n).showSlot n, if_pos ⟨hn, .inl hs⟩, ?_, fun m hm => ?_, k.mem.trans h.mem, k.ridge.trans h.ridge⟩
  · exact (k.rd rfl n).trans (State.slotState_qualified hs hk)
  · exact (k.rd rfl m).trans (State.slotState_of_ne (h.mono State.moveFlds_sub_slotFlds) hm)

theorem holdoffDone_settles (hn : n < 24) (hs : s.slotState n = 6) (hc : s.rd F.ENS_SLOT_STAT_CAUSE n ≠ 7) (hk : s.rank n ≠ 0) :
    Settles (.holdoffDone n) s (fun u => u.slotState n = 2 ∧ (∀ m, m ≠ n → u.slotState m = s.slotState m) ∧ u.mem = s.mem ∧
      u.ridge = s.ridge) := by
  have h := State.thatchOnly_qualify (s := s) (n := n)
  have k := State.thatchOnly_showSlot (s := s.qualify n) (n := n)
  refine ⟨(s.qualify n).showSlot n, ?_, ?_, fun m hm => ?_, k.mem.trans h.mem, k.ridge.trans h.ridge⟩
  · rw [exec_holdoffDone, execHoldoffDone, if_pos ⟨hn, hs⟩, State.requalify_eq_qualify hc]
    rfl
  · exact (k.rd rfl n).trans (State.slotState_qualify hk)
  · exact (k.rd rfl m).trans (State.slotState_of_ne (h.mono State.qualFlds_sub_slotFlds) hm)

theorem rampEnd_exit_settles (hn : n < 24) (hs : s.slotState n = 4) (hk : s.rank n ≠ 0) (he : (s.slot n).exit.isSome = true) :
    Settles (.rampEnd n) s (fun u => u.slotState n = 3 ∧ bit (u.rd F.ENS_MEMBERS_MASK) n = false ∧ u.mem = s.mem ∧
      u.ridge = s.ridge) := by
  refine ⟨(s.endExit n).wrBit F.ENS_MEMBERS_MASK n false, ?_, ?_, ?_, (State.thatchOnly_endExit (s := s) (n := n)).mem,
    (State.thatchOnly_endExit (s := s) (n := n)).ridge⟩
  · rw [exec_rampEnd, execRampEnd, if_pos ⟨hn, hs⟩, if_pos he]
    rfl
  · rw [State.slotState, State.wrBit_eq, State.rd_wr_other _ (by decide) (by decide) (by decide)]
    exact State.slotState_endExit hk
  · rw [State.wrBit_eq, State.rd_wr_same]
    exact bit_setBit_false hn _

theorem rampEnd_entry_settles (hn : n < 24) (hs : s.slotState n = 4) (he : (s.slot n).exit = none) :
    Settles (.rampEnd n) s (fun u => u = s.setSlot n { s.slot n with entry := s.inF F.ENS_RAMP_ENTRY_RAMP }) := by
  refine ⟨_, ?_, rfl⟩
  rw [exec_rampEnd, execRampEnd, if_pos ⟨hn, hs⟩, he]
  rfl

theorem thatchEnable_settles (ha : Admitted s req) (he : s.on F.ENS_CTL_EN = false) (hs : s.ens.stopping = false) :
    Settles (.thatchEnable req w) s (fun u => u.on F.ENS_CTL_EN = true ∧ u.ens.run = true ∧ u.ens.stopping = false ∧ u.mem = s.mem ∧
      u.ridge = s.ridge) := by
  obtain ⟨t, ht, hb, hu⟩ := State.ensCtlWrite_changes (b := true) he hs ⟨req, 0x8000, 2, true⟩ w
  rw [if_pos rfl] at hu
  have ht := ThatchOnly.of_onlyRegs ht
  have hr := State.thatchOnly_thatchStart (s := t)
  refine ⟨_, by rw [exec_thatchEnable, execThatchEnable, State.put_admitted ha]; rfl, ?_, ?_, ?_, ?_, ?_⟩
  · rw [hu.on rfl, hr.on (by decide)]
    exact hb
  · rw [hu.run, hr.run]
    rfl
  · rw [hu.stopping, hr.stopping]
    rfl
  · exact hu.mem.trans (hr.mem.trans ht.mem)
  · exact hu.ridge.trans (hr.ridge.trans ht.ridge)

theorem thatchDisable_settles (ha : Admitted s req) (he : s.on F.ENS_CTL_EN = true) (hs : s.ens.stopping = false) :
    Settles (.thatchDisable req w) s (fun u => u.on F.ENS_CTL_EN = false ∧ u.ens.stopping = true ∧ u.domState 0 = 0 ∧
      u.domState 1 = 0 ∧ u.mem = s.mem ∧ u.ridge = s.ridge) := by
  obtain ⟨t, ht, hb, hu⟩ := State.ensCtlWrite_changes (b := false) he hs ⟨req, 0x8000, 2, true⟩ w
  rw [if_neg (by decide)] at hu
  have ht := ThatchOnly.of_onlyRegs ht
  have hr := State.thatchOnly_thatchStopping (s := t)
  refine ⟨_, by rw [exec_thatchDisable, execThatchDisable, State.put_admitted ha]; rfl, ?_, ?_, ?_, ?_, ?_, ?_⟩
  · rw [hu.on rfl, hr.on rfl]
    exact hb
  · rw [hu.stopping, hr.stopping]
    rfl
  · refine (hu.rd (f := F.ENS_DOM_STAT_A_STATE) rfl 0).trans ?_
    exact (State.domState_moveDom_other (d := 1) (e := 0) (by decide) _).trans (State.domState_moveDom 0 (by decide))
  · refine (hu.rd (f := F.ENS_DOM_STAT_B_STATE) rfl 0).trans ?_
    exact State.domState_moveDom 1 (by decide)
  · exact hu.mem.trans (hr.mem.trans ht.mem)
  · exact hu.ridge.trans (hr.ridge.trans ht.ridge)

theorem ensAck_settles : Settles .ensAck s (fun u => u.rd F.ENS_CHANGED_CHG = 0 ∧ OnlyRegs s u [(F.ENS_CHANGED_CHG, 0)]) :=
  ⟨s.rst F.ENS_CHANGED_CHG, rfl, State.rd_rst_same s F.ENS_CHANGED_CHG 0, (OnlyRegs.refl s _).rst (.head _)⟩

end

/-- Settles O12: one lemma for each command of a slot, of the timers and ramps, and of Thatch itself. -/
theorem slotsQualifyAndRetire : Obligations.SlotsQualifyAndRetire :=
  ⟨fun _ _ _ _ => slotEnable_stopped_settles, fun _ _ _ _ ha hn hr he _ => slotEnable_running_settles ha hn hr he,
    fun _ _ _ _ => slotDisable_settles, fun _ _ _ _ => rankWrite_settles, fun _ _ => qualTimeDone_settles,
    fun _ _ => holdoffDone_settles, fun _ _ => rampEnd_exit_settles, fun _ _ => rampEnd_entry_settles, fun _ _ _ => thatchEnable_settles,
    fun _ _ _ => thatchDisable_settles, fun _ => ensAck_settles⟩

end Sys2Proof.Machine

/-! ## Disputes, locks and `REF_REQUAL` (R117, R122, R126, R127) -/

namespace Sys2Proof.Machine

theorem exec_disputeEnd (i j : Nat) (s : State) : exec (.disputeEnd i j) s = execDisputeEnd i j s := rfl
theorem exec_domainLocked (dom : Nat) (s : State) : exec (.domainLocked dom) s = execDomainLocked dom s := rfl
theorem exec_refRequal (c : CmdRef) (w0 : Nat) (s : State) : exec (.refRequal c w0) s = execRefRequal c w0 s := rfl
theorem exec_refRequalApply (s : State) : exec .refRequalApply s = done s.applyRequals := rfl

namespace State
variable {s : State} {n : Nat}

/-! ### Leaving a dispute (R122) -/

theorem thatchOnly_leaveDispute : ThatchOnly s (s.leaveDispute n) (slotFlds n) := by
  unfold leaveDispute
  split
  · exact thatchOnly_toCandidate.mono moveFlds_sub_slotFlds
  · exact .refl s _

theorem leaveDispute_of_ne (h : s.slotState n ≠ Slot.disputed) : s.leaveDispute n = s := if_neg h

theorem slotState_leaveDispute (h : s.slotState n = Slot.disputed) (hk : s.rank n ≠ 0) :
    (s.leaveDispute n).slotState n = Slot.candidate := by
  rw [leaveDispute, if_pos h]
  exact slotState_toCandidate hk

/-- A slot that is a candidate stays one when any slot, itself included, leaves a dispute. -/
theorem slotState_leaveDispute_candidate (h : s.slotState n = Slot.candidate) (m : Nat) :
    (s.leaveDispute m).slotState n = Slot.candidate := by
  by_cases hm : n = m
  · subst hm
    rw [leaveDispute_of_ne (by rw [h]; decide), h]
  · rw [slotState_of_ne thatchOnly_leaveDispute hm, h]

/-- The dispute of `i` and `j` is over, and both have left it. -/
def endDispute (s : State) (i j : Nat) : State := ((s.dropDispute i j).leaveDispute i).leaveDispute j

theorem disputes_dropDispute (i j : Nat) : ∀ d ∈ (s.dropDispute i j).ens.disputes, ¬(d.i = i ∧ d.j = j) := by
  rintro d hd ⟨rfl, rfl⟩
  have h := (List.mem_filter.mp hd).2
  simp at h

end State

section
variable {s : State}

theorem disputeEnd_settles {n m : Nat} (hd : s.ens.disputes.any (fun d => d.i == n && d.j == m) = true) (hs : s.slotState n = 5)
    (hk : s.rank n ≠ 0) : Settles (.disputeEnd n m) s (fun u => (∀ d ∈ u.ens.disputes, ¬(d.i = n ∧ d.j = m)) ∧
      u.slotState n = 3 ∧ u.mem = s.mem ∧ u.ridge = s.ridge) := by
  have h₁ := State.thatchOnly_leaveDispute (s := s.dropDispute n m) (n := n)
  have h₂ : ThatchOnly _ (s.endDispute n m) _ := State.thatchOnly_leaveDispute (s := (s.dropDispute n m).leaveDispute n) (n := m)
  have hc : (s.endDispute n m).slotState n = 3 :=
    State.slotState_leaveDispute_candidate (State.slotState_leaveDispute (s := s.dropDispute n m) hs hk) m
  obtain ⟨v, hx⟩ : ∃ v, exec (.disputeEnd n m) s = done ((s.endDispute n m).wr F.ENS_DISPUTED_MASK v) :=
    ⟨_, by rw [exec_disputeEnd, execDisputeEnd, if_pos hd]; rfl⟩
  refine ⟨_, hx, ?_, ?_, h₂.mem.trans h₁.mem, h₂.ridge.trans h₁.ridge⟩
  · rw [State.wr_ens, h₂.disputes, h₁.disputes]
    exact State.disputes_dropDispute n m
  · rw [State.slotState, State.rd_wr_other _ (by decide) (by decide) (by decide)]
    exact hc

theorem domainLocked_settles {dom : Nat} (hd : dom < 2) (hs : s.domState dom = 1) (he : s.domEnabled dom = true)
    (ht : s.hasTrace dom = true) (hl : s.lockWithin dom 1 = true) : Settles (.domainLocked dom) s (fun u => u.domState dom = 2 ∧
      u.on (if dom = 0 then F.ENS_DOM_STAT_A_LOCKED_EVER else F.ENS_DOM_STAT_B_LOCKED_EVER) = true ∧
      u.domState (1 - dom) = s.domState (1 - dom) ∧ u.mem = s.mem ∧ u.ridge = s.ridge) := by
  have h := State.thatchOnly_moveDom (s := s) dom DomSt.locked
  refine ⟨s.moveDom dom DomSt.locked, ?_, State.domState_moveDom dom (by decide), State.on_lockedFld_moveDom (by rw [hs]; decide),
    State.domState_moveDom_other (by omega) _, h.mem, h.ridge⟩
  rw [exec_domainLocked, execDomainLocked, Nat.mod_eq_of_lt hd, if_pos ⟨hs, he, ht, hl⟩]
  rfl

variable (c : CmdRef) {w0 : Nat}

theorem refRequal_settles (hh : s.notHolder = false) (hr : s.requalifiable (bits w0 0 5) = true) : Settles (.refRequal c w0) s
    (fun u => u = { s with ens := { s.ens with requal := s.ens.requal ++ [(c, bits w0 0 5)] } }) := by
  refine ⟨_, ?_, rfl⟩
  rw [exec_refRequal, execRefRequal, hh]
  dsimp only
  rw [hr]
  rfl

theorem refRequal_badParam (hh : s.notHolder = false) (hr : s.requalifiable (bits w0 0 5) = false) :
    Refuses (.refRequal c w0) s c Code.badParam := by
  rw [Refuses, exec_refRequal, execRefRequal, hh]
  dsimp only
  rw [hr]
  rfl

theorem refRequal_notHolder (hh : s.notHolder = true) : Refuses (.refRequal c w0) s c Code.notTokenHolder := by
  rw [Refuses, exec_refRequal, execRefRequal, hh]
  rfl

theorem refRequalApply_replies {n : Nat} (hq : s.ens.requal = [(c, n)]) (hs : s.slotState n = 6) (hn : n < 24)
    (hc : s.rd F.ENS_SLOT_STAT_CAUSE n ≠ 7) (hk : s.rank n ≠ 0) : Replies .refRequalApply s c (fun u => u.ens.requal = [] ∧
      u.slotState n = 2 ∧ u.mem = s.mem ∧ u.ridge = s.ridge) := by
  obtain ⟨t, ht⟩ : ∃ t : State, t = { s with ens := { s.ens with requal := [] } } := ⟨_, rfl⟩
  have hr : t.requalifiable n = true := by
    rw [ht, State.requalifiable, decide_eq_true hn, Bool.true_and, Bool.or_eq_true]
    exact .inl (beq_iff_eq.mpr hs)
  have h := State.thatchOnly_qualify (s := t) (n := n)
  refine ⟨t.qualify n, 0, 0, 0, ?_, ?_, State.slotState_qualify (by rw [ht]; exact hk), ?_, ?_⟩
  · rw [exec_refRequalApply, State.applyRequals, hq]
    dsimp only
    rw [List.foldl_cons, List.foldl_nil, ← ht, if_pos hr, State.requalify_eq_qualify (by rw [ht]; exact hc)]
    rfl
  · rw [h.requal, ht]
  · rw [h.mem, ht]
  · rw [h.ridge, ht]

end

/-- Settles O13: the end of a dispute, the lock of a domain, and each outcome of REF_REQUAL, at acceptance and at the beat. -/
theorem disputesLocksAndRequalification : Obligations.DisputesLocksAndRequalification :=
  ⟨fun _ _ _ => disputeEnd_settles, fun _ _ => domainLocked_settles, fun _ c _ => refRequal_settles c, fun _ c _ => refRequal_badParam c,
    fun _ c _ => refRequal_notHolder c, fun _ c _ => refRequalApply_replies c⟩

end Sys2Proof.Machine

/-! ## A table write over a byte that is listed twice

Only in a window memory of the canonical form does a byte read what was written to it. -/

namespace Sys2Proof.Machine

theorem exec_tblWr (c : CmdRef) (p input : List Nat) (e : Env) (s : State) : exec (.tblWr c p input e) s = done (s.tblWr c p input e) := rfl

namespace State
variable {s : State}

theorem setSquelch_mem (o : Nat) (b : Bool) : (s.setSquelch o b).mem = s.mem := by
  unfold setSquelch
  dsimp only
  split_ifs <;> rfl

theorem evalSquelch_mem : s.evalSquelch.mem = s.mem := by
  have h : ∀ (l : List Nat) (p : State → Nat → Bool) (s : State), (l.foldl (fun s o => s.setSquelch o (p s o)) s).mem = s.mem := by
    intro l p
    induction l with
    | nil => exact fun _ => rfl
    | cons o t ih => exact fun s => (ih _).trans (setSquelch_mem o _)
  exact h _ _ s

theorem dropOccs_mem (s : State) : s.dropOccs.mem = s.mem := rfl

/-- Before fuse load the end of a tick leaves the table windows alone. -/
theorem mem_close_stopped (h : s.ridge.running = false) : s.close.mem = s.mem := by
  have h₁ : s.evalSquelch.ridge.running = false :=
    (congrArg RidgeSt.running (ridge_of_ridgeView (ridgeView_evalSquelch s))).trans h
  have h₂ : s.evalSquelch.dropOccs.evalSquelch.ridge.running = false :=
    (congrArg RidgeSt.running (ridge_of_ridgeView ((ridgeView_evalSquelch s.evalSquelch.dropOccs).trans (ridgeView_dropOccs _)))).trans h₁
  unfold close
  dsimp only
  rw [settle_stopped h₁, h₂, if_neg (by decide)]
  rw [evalSquelch_mem, dropOccs_mem, evalSquelch_mem]

/-- READY, with a window memory that lists the byte at 0xF80000 twice. -/
def listedTwice : State :=
  { State.reset with regs := [(F.TOP_STAT_READY.key 0, 1)], mem := [(0xF80000, 1), (0xF80000, 1)] }

end State

/-- Refutes O36: the clause on TBL_WR speaks of every window memory, in canonical form (`Memory.wf`) or not. Of a byte that is listed
twice a write of 0 removes the first entry alone, so the word still reads 1 where the clause says 0. -/
theorem not_registerTableAndSnapshotCommands : ¬ Obligations.RegisterTableAndSnapshotCommands := by
  unfold Obligations.RegisterTableAndSnapshotCommands
  rintro ⟨-, -, -, -, -, -, -, tblWr, -⟩
  obtain ⟨u, hu, hr, -⟩ := tblWr State.listedTwice ⟨.ring, 0, 0, 0⟩ [0xF80000, 4] [0, 0, 0, 0] ⟨[], [], [], 0, [], []⟩
    (by decide +kernel) (by decide) (by decide) rfl (by decide)
  generalize hv : State.listedTwice.tblWr ⟨.ring, 0, 0, 0⟩ [0xF80000, 4] [0, 0, 0, 0] ⟨[], [], [], 0, [], []⟩ = v
  have hc : (u.finish ⟨.ring, 0, 0, 0⟩ Code.ok 4).close = v.close := by
    rw [exec_tblWr, hv] at hu
    exact (Host.Outcome.next.inj hu).symm
  have hs : v.ridge.running = false := by rw [← hv]; decide +kernel
  have h₁ : v.mrd 0xF80000 4 = 1 := by rw [← hv]; decide +kernel
  have hm : u.mem = v.mem := by
    rw [← State.mem_close_stopped hs, ← hc, State.mem_close_stopped ((running_of_close hc).trans hs)]
    exact (Answered.finish u _ _ _ _ _).mem.symm
  have h₀ : v.mrd 0xF80000 4 = 0 := by
    rw [State.mrd, ← hm]
    exact hr
  rw [h₁] at h₀
  exact absurd h₀ (by decide)

end Sys2Proof.Machine

/-! ## Oscillators: the rules of their state (spec/04_holdover_eaves.md)

What an oscillator's hidden state, its messages, its mode, its codes and its steering steps change, each said once. -/

namespace Sys2Proof.Machine

theorem exec_oscModeManual (req k w : Nat) (s : State) : exec (.oscModeManual req k w) s = execOscModeManual req k w s := rfl
theorem exec_oscModeAuto (req k w : Nat) (s : State) : exec (.oscModeAuto req k w) s = execOscModeAuto req k w s := rfl
theorem exec_oscModeOff (req k w : Nat) (s : State) : exec (.oscModeOff req k w) s = execOscModeOff req k w s := rfl
theorem exec_oscCodeWrite (req k : Nat) (acc : Bool) (w : Nat) (s : State) :
    exec (.oscCodeWrite req k acc w) s = execOscCodeWrite req k acc w s := rfl
theorem exec_oscSteerStep (k : Nat) (s : State) : exec (.oscSteerStep k) s = execOscSteerStep k s := rfl
theorem exec_oscSteerApply (k : Nat) (s : State) : exec (.oscSteerApply k) s = execOscSteerApply k s := rfl
theorem exec_uartSend (k : Nat) (s : State) : exec (.uartSend k) s = execUartSend k s := rfl
theorem exec_oscPoll (k : Nat) (s : State) : exec (.oscPoll k) s = execOscPoll k s := rfl
theorem exec_pollResponseEnd (k : Nat) (bytes : List Nat) (err : Bool) (s : State) :
    exec (.pollResponseEnd k bytes err) s = execPollResponseEnd k bytes err s := rfl
theorem exec_probeRetry (k : Nat) (s : State) : exec (.probeRetry k) s = execProbeRetry k s := rfl
theorem exec_oscSend (c : CmdRef) (w0 : Nat) (msg : List Nat) (s : State) : exec (.oscSend c w0 msg) s = execOscSend c w0 msg s := rfl

/-- The low bits of a word that are replaced read the new value. -/
theorem bits_setBits_zero (n w v : Nat) : bits (setBits n 0 w v) 0 w = v % 2 ^ w := by
  have h : n - n % 2 ^ w = 2 ^ w * (n / 2 ^ w) := Nat.sub_eq_of_eq_add (Nat.div_add_mod n (2 ^ w)).symm
  simp only [setBits, bits, Nat.pow_zero, Nat.div_one, Nat.mul_one, h, Nat.mul_add_mod, Nat.mod_mod]

/-- What each index leaves alone, all of them leave alone. -/
theorem forN_keeps {α : Type} {f : State → Nat → State} (g : State → α) (h : ∀ s n, g (f s n) = g s) (k : Nat) (s : State) :
    g (forN k s f) = g s := by
  induction k with
  | zero => rfl
  | succ k ih => rw [forN_succ, h, ih]

/-- Where each index changes registers only, so do all of them. -/
theorem forN_regs {f : State → Nat → State} (h : ∀ s n, { s with regs := (f s n).regs } = f s n) (k : Nat) (s : State) :
    { s with regs := (forN k s f).regs } = forN k s f := by
  induction k with
  | zero => rfl
  | succ k ih => rw [forN_succ, ← h (forN k s f) k, ← ih]

/-! ### Frames -/

/-- Only the register fields listed and what Eaves and the oscillators keep without a register differ. -/
def OnlyEaves (s u : State) (l : List (Fld × Nat)) : Prop := { s with regs := u.regs, eaves := u.eaves } = u ∧ RegsBut s u l

namespace OnlyEaves
variable {s u : State} {l : List (Fld × Nat)}

theorem refl (s : State) (l : List (Fld × Nat)) : OnlyEaves s s l := ⟨rfl, .refl s l⟩

theorem wr (h : OnlyEaves s u l) {g : Fld} {j : Nat} (hg : (g, j) ∈ l) (v : Nat) : OnlyEaves s (u.wr g v j) l :=
  ⟨by rw [← h.1]; rfl, h.2.wr hg v⟩

theorem setOsc (h : OnlyEaves s u l) (k : Nat) (o : OscSt) : OnlyEaves s (u.setOsc k o) l := ⟨by rw [← h.1]; rfl, h.2.same rfl⟩

theorem mem (h : OnlyEaves s u l) : u.mem = s.mem := by rw [← h.1]
theorem ridge (h : OnlyEaves s u l) : u.ridge = s.ridge := by rw [← h.1]

end OnlyEaves

theorem OnlyRegsFcu.eaves {s u : State} {l : List (Fld × Nat)} (h : OnlyRegsFcu s u l) : u.eaves = s.eaves := by rw [← h.1]
theorem OnlyRegsFcu.mem {s u : State} {l : List (Fld × Nat)} (h : OnlyRegsFcu s u l) : u.mem = s.mem := by rw [← h.1]
theorem OnlyRegsFcu.ridge {s u : State} {l : List (Fld × Nat)} (h : OnlyRegsFcu s u l) : u.ridge = s.ridge := by rw [← h.1]
theorem OnlyRegsFcu.out {s u : State} {l : List (Fld × Nat)} (h : OnlyRegsFcu s u l) : u.out = s.out := by rw [← h.1]

namespace State
variable {s : State} {k : Nat}

/-! ### The hidden state of an oscillator -/

theorem length_setOsc (o : OscSt) : (s.setOsc k o).eaves.osc.length = s.eaves.osc.length := List.length_set

theorem osc_setOsc (h : k < s.eaves.osc.length) (o : OscSt) : (s.setOsc k o).osc k = o := by
  simp [osc, setOsc, h]

theorem osc_of_eaves {t : State} (h : t.eaves = s.eaves) (k : Nat) : t.osc k = s.osc k := by rw [osc, h, osc]

theorem setOsc_eaves_of_eaves {t : State} (h : t.eaves = s.eaves) (k : Nat) (o : OscSt) : (t.setOsc k o).eaves = (s.setOsc k o).eaves := by
  rw [setOsc, setOsc, h]

theorem osc_oscQueue (h : k < s.eaves.osc.length) (m : UartMsg) :
    (s.oscQueue k m).osc k = { s.osc k with queue := (s.osc k).queue ++ [m] } := osc_setOsc h _

/-! ### The mode of an oscillator (Table EAVES-1, R133) -/

/-- An oscillator that goes to OFF discards its step and every message but those of OSC_SEND. -/
def oscSilence (s : State) (k : Nat) : State :=
  (s.oscDiscard k).setOsc k
    { (s.oscDiscard k).osc k with queue := ((s.oscDiscard k).osc k).queue.filter UartMsg.isSend, retry := false, tries := 0 }

theorem onlyEaves_oscSilence (l : List (Fld × Nat)) : OnlyEaves s (s.oscSilence k) l := ((OnlyEaves.refl s l).setOsc k _).setOsc k _

/-- No STEER message answers an `OSC_SEND`. -/
theorem isSend_and_not_isSteer (m : UartMsg) : (m.isSend && !m.isSteer) = m.isSend := by
  cases m with
  | steer step => rfl
  | poll => rfl
  | probe c => exact Bool.and_true _
  | raw c bytes => rfl

theorem queue_oscSilence (h : k < s.eaves.osc.length) : ((s.oscSilence k).osc k).queue = (s.osc k).queue.filter UartMsg.isSend := by
  rw [oscSilence, osc_setOsc ((length_setOsc _).symm ▸ h), oscDiscard, osc_setOsc h]
  dsimp only
  rw [List.filter_filter]
  simp only [isSend_and_not_isSteer]

theorem oscMode_off (hm : s.rd F.OSC_CTL_MODE k = 0) (hs : s.oscState k ≠ 0) :
    s.oscMode k = (s.oscSilence k).wr F.OSC_STAT_STATE OscMode.off k := by
  unfold oscMode
  dsimp only
  rw [if_pos hm]
  exact if_neg hs

theorem oscMode_manual (hm : s.rd F.OSC_CTL_MODE k = 1) (hs : s.oscState k = 0) :
    s.oscMode k = (s.oscDiscard k).wr F.OSC_STAT_STATE OscMode.manual k := by
  unfold oscMode
  dsimp only
  rw [hm, hs, if_neg (by decide), if_pos rfl, if_neg (by decide)]

/-- From OFF the oscillator freezes; one with a probe template and a UART of its own is probed. -/
theorem oscMode_auto (hm : s.rd F.OSC_CTL_MODE k = 2) (hs : s.oscState k = 0) :
    s.oscMode k = s.wr F.OSC_STAT_STATE OscMode.frozen k ∨
      s.oscMode k = (s.wr F.OSC_STAT_STATE OscMode.frozen k).oscQueue k (.probe none) := by
  unfold oscMode
  dsimp only
  rw [hm, hs, if_neg (by decide), if_neg (by decide), if_pos (.inl rfl)]
  split
  · exact .inr rfl
  · exact .inl rfl

/-- The fields of OSC_CTL. -/
def oscCtlFlds : List Fld := [F.OSC_CTL_PERIOD, F.OSC_CTL_G_SHIFT, F.OSC_CTL_SHARED, F.OSC_CTL_MEDIUM, F.OSC_CTL_MODE]

/-- A write of OSC_CTL changes its fields, MODE to the value written, and the oscillator follows MODE. -/
theorem oscCtlWrite_eq {m : Nat} (h : m ≤ 2) (a : Acs) (w : Nat) :
    ∃ (t : State) (codes : List Nat), OnlyRegs s t (oscCtlFlds.map (·, k)) ∧ t.rd F.OSC_CTL_MODE k = m ∧
      (s.oscCtlWrite a k (setBits w 0 2 m)).1 = ((t.oscMode k).conclude a codes).1 := by
  have hb : bits (setBits w 0 2 m) 0 2 = m := (bits_setBits_zero w 2 m).trans (Nat.mod_eq_of_lt (by omega))
  have hr : inRange F.OSC_CTL_MODE (bits (setBits w 0 2 m) 0 2) = true := by
    rw [hb]
    interval_cases m <;> decide
  have hl : (s.on F.OSC_CTL_MODE k && F.OSC_CTL_MODE.no != F.OSC_CTL_MODE.no) = false := Bool.and_false _
  exact ⟨_, _, onlyRegs_fieldWrite _ _ oscCtlFlds k _,
    (rd_fieldWrite_last (f := F.OSC_CTL_MODE) (lock := fun f => s.on F.OSC_CTL_MODE k && f.no != F.OSC_CTL_MODE.no) rfl hl hr
      oscCtlFlds.dropLast k).trans hb, rfl⟩

/-- What the oscillator's following MODE leaves of a write of OSC_CTL when it moves nothing but its state and its hidden state. -/
theorem oscCtlWrite_follows {t u : State} {a : Acs} {codes : List Nat} {m st : Nat} (ht : OnlyRegs s t (oscCtlFlds.map (·, k)))
    (hm : t.rd F.OSC_CTL_MODE k = m) (hu : OnlyEaves t u [(F.OSC_STAT_STATE, k)]) (hs : u.oscState k = st) :
    (u.conclude a codes).1.rd F.OSC_CTL_MODE k = m ∧ (u.conclude a codes).1.oscState k = st ∧
      (u.conclude a codes).1.osc k = u.osc k ∧ (u.conclude a codes).1.mem = s.mem ∧ (u.conclude a codes).1.ridge = s.ridge := by
  have hc := onlyRegsFcu_conclude (s := u) a codes
  refine ⟨?_, (hc.2.rd rfl k).trans hs, osc_of_eaves hc.eaves k, ?_, ?_⟩
  · exact (hc.2.rd rfl k).trans ((hu.2.rd rfl k).trans hm)
  · rw [hc.mem, hu.mem, ← ht.1]
  · rw [hc.ridge, hu.ridge, ← ht.1]

/-! ### Codes written by hand (R139) -/

/-- A single field that is open takes its bits of the word. -/
theorem fieldWrite_open {lock : Fld → Bool} {f : Fld} (ha : f.acc = .rw) (hl : lock f = false) (i w : Nat) :
    s.fieldWrite lock anyValue [f] i w = (s.wr f (bits w f.lo f.w) i, []) := by
  simp [fieldWrite, fieldStep, ha, hl, anyValue]

/-- A single locked field refuses another value with CFG_LOCKED (R501). -/
theorem fieldWrite_locked {lock : Fld → Bool} {ok : Fld → Nat → Bool} {f : Fld} {i w : Nat} (ha : f.acc = .rw) (hl : lock f = true)
    (hv : bits w f.lo f.w ≠ s.rd f i) : ∃ codes, s.fieldWrite lock ok [f] i w = (s, codes) ∧ Code.cfgLocked ∈ codes :=
  fieldStep_locked (r := (s, [])) ha hl (bne_iff_ne.mpr hv)

/-- The field that OSC_CODE or OSC_ACC holds. -/
def oscCodeFld (acc : Bool) : Fld := if acc then F.OSC_ACC_ACC else F.OSC_CODE_CODE

/-- OSC_CODE or OSC_ACC takes the word, in MANUAL only. -/
def oscCodeField (s : State) (k : Nat) (acc : Bool) (w : Nat) : State × List Nat :=
  s.fieldWrite (fun _ => !(s.oscState k == OscMode.manual)) anyValue [oscCodeFld acc] k w

/-- A code is written without a message when it is OSC_CODE, or the oscillator is not steered by messages. -/
theorem oscCodeWrite_silent {acc : Bool} (h : acc = false ∨ s.oscUart k = false) (a : Acs) (w : Nat) :
    s.oscCodeWrite a k acc w = (s.oscCodeField k acc w).1.conclude a (s.oscCodeField k acc w).2 := by
  have hr := (onlyRegs_fieldWrite (s := s) (fun _ => !(s.oscState k == OscMode.manual)) anyValue [oscCodeFld acc] k w).2
  have hn : ((s.oscCodeField k acc w).1.rdS F.OSC_ACC_ACC k - s.rdS F.OSC_ACC_ACC k != 0 &&
      (s.oscCodeField k acc w).1.oscUart k) = false := by
    obtain rfl | h := h
    · rw [rdS, oscCodeField, hr.rd (f := F.OSC_ACC_ACC) rfl k, rdS, Int.sub_self]
      rfl
    · have hf : F.OSC_CTL_MEDIUM.off ([(oscCodeFld acc, k)].map Prod.fst) = true := by cases acc <;> rfl
      rw [oscUart, oscCodeField, hr.on hf, ← oscUart, h, Bool.and_false]
  unfold oscCodeWrite
  dsimp only
  rw [← oscCodeFld, ← oscCodeField, hn]
  rfl

/-- In MANUAL a code written without a message is taken, and no rule is broken. -/
theorem oscCodeWrite_manual {acc : Bool} (hs : s.oscState k = 1) (h : acc = false ∨ s.oscUart k = false) (a : Acs) (w : Nat) :
    (s.oscCodeWrite a k acc w).1 = s.wr (oscCodeFld acc) (bits w (oscCodeFld acc).lo (oscCodeFld acc).w) k := by
  have hf : s.oscCodeField k acc w = (s.wr (oscCodeFld acc) (bits w (oscCodeFld acc).lo (oscCodeFld acc).w) k, []) :=
    fieldWrite_open (by cases acc <;> rfl) (by rw [hs]; rfl) k w
  rw [oscCodeWrite_silent h, hf, conclude_nil]

/-- Out of MANUAL another code is refused with CFG_LOCKED and the register keeps its own. -/
theorem oscCodeWrite_locked {w : Nat} (hs : s.oscState k ≠ 1) (hw : bits w 0 20 ≠ s.rd F.OSC_CODE_CODE k) (a : Acs) :
    ∃ codes, (s.oscCodeWrite a k false w).1 = (s.conclude a codes).1 ∧ Code.cfgLocked ∈ codes := by
  have hl : (!(s.oscState k == OscMode.manual)) = true := by simpa [OscMode.manual] using hs
  obtain ⟨codes, e, hc⟩ := fieldWrite_locked (s := s) (lock := fun _ => !(s.oscState k == OscMode.manual)) (ok := anyValue)
    (f := F.OSC_CODE_CODE) rfl hl hw
  have hf : s.oscCodeField k false w = (s, codes) := e
  exact ⟨codes, by rw [oscCodeWrite_silent (.inl rfl), hf], hc⟩

/-! ### Steering steps (R132, R135 to R137) -/

/-- The step that a VTUNE oscillator has left of `d` within the range of its code. -/
def oscPart (s : State) (k : Nat) (d : Int) : Int := clampI 0 0xFFFFF ((s.rd F.OSC_CODE_CODE k : Int) + d) - s.rd F.OSC_CODE_CODE k

/-- A step of a VTUNE oscillator is prepared: at most CLAMPED and FS 53 show it. -/
theorem oscSteer_vtune (h : s.oscUart k = false) : ∃ t, OnlyRegsFcu s t [(F.OSC_STAT_CLAMPED, k)] ∧
    s.oscSteer k = t.setOsc k { t.osc k with step := some (s.oscPart k (s.oscStep k)) } := by
  unfold oscSteer
  rw [h]
  extract_lets d uart cur next part t
  refine ⟨t, ?_, rfl⟩
  unfold t
  split_ifs
  · exact onlyRegsFcu_wr_raise (.head _) 1 53 k
  · exact ⟨rfl, (RegsBut.refl s _).wr (.head _) 0⟩
  · exact ⟨rfl, .refl s _⟩

/-- Scaling the loops moves what they and the Ridge keep without a register. -/
theorem scaleLoops_regs (q : Rat) : (s.scaleLoops q).regs = s.regs := by
  refine forN_keeps State.regs (fun s n => ?_) 8 s
  dsimp only
  split_ifs
  · rfl
  · exact setDom_regs _ n _
  · rfl

theorem scaleLoops_mem (q : Rat) : (s.scaleLoops q).mem = s.mem := by
  refine forN_keeps State.mem (fun s n => ?_) 8 s
  dsimp only
  split_ifs
  · rfl
  · rw [← setDom_eq]
    rfl
  · rfl

theorem oscCompensate_regs (d : Int) : (s.oscCompensate k d).regs = s.regs := by
  unfold oscCompensate
  dsimp only
  split_ifs
  · rfl
  · exact scaleLoops_regs _
  · rfl

theorem oscCompensate_mem (d : Int) : (s.oscCompensate k d).mem = s.mem := by
  unfold oscCompensate
  dsimp only
  split_ifs
  · rfl
  · exact scaleLoops_mem _
  · rfl

/-- The code of a VTUNE oscillator has moved by `d`, and the step is counted. -/
def oscMoved (s : State) (k : Nat) (d : Int) : State :=
  (s.wr F.OSC_CODE_CODE ((s.rd F.OSC_CODE_CODE k : Int) + d).toNat k).inc F.OSC_STAT_STEPS k

/-- A step of a VTUNE oscillator takes effect: the registers are those of the moved code. -/
theorem oscApply_vtune {d : Int} (hu : s.oscUart k = false) (hd : (s.osc k).step = some d) :
    (s.oscApply k).regs = (s.oscMoved k d).regs ∧ (s.oscApply k).mem = s.mem := by
  unfold oscApply
  dsimp only
  rw [hu, hd]
  exact ⟨oscCompensate_regs _, oscCompensate_mem _⟩

theorem rd_code_oscMoved (d : Int) :
    (s.oscMoved k d).rd F.OSC_CODE_CODE k = ((s.rd F.OSC_CODE_CODE k : Int) + d).toNat % 2 ^ 20 := by
  rw [oscMoved, inc_eq, rd_wr_other _ (by decide) (by decide) (by decide), rd_wr_same]
  rfl

theorem rd_steps_oscMoved (d : Int) : (s.oscMoved k d).rd F.OSC_STAT_STEPS k = satU 16 (s.rd F.OSC_STAT_STEPS k + 1) := by
  rw [oscMoved, rd_inc, rd_wr_other _ (by decide) (by decide) (by decide)]
  rfl

/-! ### Polls (R146, R147) -/

/-- The words of OSC_RESP hold the response. -/
def storeResp (s : State) (k : Nat) (bytes : List Nat) : State :=
  forN 4 s (fun s j =>
    s.wr F.OSC_RESP_BYTES (((List.range 4).map (fun b => bytes.getD (4 * j + b) 0 % 256 * 256 ^ b)).sum) (4 * k + j))

theorem storeResp_eq (bytes : List Nat) : { s with regs := (s.storeResp k bytes).regs } = s.storeResp k bytes :=
  forN_regs (fun _ _ => rfl) 4 s

/-- A poll of oscillator `k` has passed, before its alarm is judged. -/
def pollPassed (s : State) (k : Nat) : State :=
  (s.wr F.OSC_STAT_MISS 0 k).setOsc k { s.osc k with passes := (s.osc k).passes + 1 }

/-- After a poll has passed only the alarm is still to be judged. -/
theorem pollResult_passed : s.pollResult k true =
    if (s.pollPassed k).rd F.OSC_UCFG_MISS_MAX k ≤ (s.pollPassed k).rd F.OSC_STAT_MISS k then
      ((s.pollPassed k).wr F.OSC_STAT_ALARM 1 k).condOn (50 + k)
    else if (s.pollPassed k).rd F.OSC_UCFG_MISS_MAX k ≤ ((s.pollPassed k).osc k).passes then
      ((s.pollPassed k).wr F.OSC_STAT_ALARM 0 k).condOff (50 + k)
    else s.pollPassed k := rfl

theorem onlyRegsFcu_condOn (l : List (Fld × Nat)) (fs n : Nat) : OnlyRegsFcu s (s.condOn fs n) l :=
  ⟨by rw [← condOn_eq], .same (.refl s l) (condOn_regs s fs n)⟩

theorem onlyRegsFcu_pollResult : OnlyRegsFcu (s.pollPassed k) (s.pollResult k true) [(F.OSC_STAT_ALARM, k)] := by
  rw [pollResult_passed]
  generalize s.pollPassed k = t
  have h (v : Nat) : OnlyRegsFcu t (t.wr F.OSC_STAT_ALARM v k) [(F.OSC_STAT_ALARM, k)] := ⟨rfl, (RegsBut.refl _ _).wr (.head _) v⟩
  split_ifs
  · exact onlyRegsFcu_trans (h 1) (onlyRegsFcu_condOn _ _ 0)
  · exact onlyRegsFcu_trans (h 0) ⟨rfl, .same (.refl _ _) rfl⟩
  · exact ⟨rfl, .refl _ _⟩

end State
end Sys2Proof.Machine

/-! ## Modes, codes and steering of an oscillator (Table EAVES-1, R132, R133, R135, R139) -/

namespace Sys2Proof.Machine

section
variable {s : State} {req k w : Nat}

section
variable (ha : Admitted s req) (hk : k < 3)
include ha hk

theorem execOscCodeWrite_admitted (acc : Bool) : execOscCodeWrite req k acc w s =
    done (s.oscCodeWrite (oscAcs req k (if acc then 0xC else 8)) k acc w).1 := by
  rw [execOscCodeWrite, if_neg (by omega), State.put_admitted ha]

theorem oscModeManual_settles (hs : s.oscState k = 0) : Settles (.oscModeManual req k w) s (fun u =>
    u.rd F.OSC_CTL_MODE k = 1 ∧ u.oscState k = 1 ∧ u.mem = s.mem ∧ u.ridge = s.ridge) := by
  obtain ⟨t, codes, ht, hm, hw⟩ := State.oscCtlWrite_eq (s := s) (k := k) (m := 1) (by decide) (oscAcs req k 0) w
  rw [State.oscMode_manual hm ((ht.2.rd rfl k).trans hs)] at hw
  have hu : OnlyEaves t ((t.oscDiscard k).wr F.OSC_STAT_STATE OscMode.manual k) [(F.OSC_STAT_STATE, k)] :=
    ((OnlyEaves.refl t _).setOsc k _).wr (.head _) _
  obtain ⟨h₁, h₂, -, h₃, h₄⟩ := State.oscCtlWrite_follows (a := oscAcs req k 0) (codes := codes) ht hm hu (State.rd_wr_same _ _ _ k)
  exact ⟨_, by rw [exec_oscModeManual, execOscModeManual, if_neg (by omega), State.put_admitted ha, hw]; rfl, h₁, h₂, h₃, h₄⟩

theorem oscModeAuto_settles (hs : s.oscState k = 0) : Settles (.oscModeAuto req k w) s (fun u =>
    u.rd F.OSC_CTL_MODE k = 2 ∧ u.oscState k = 2 ∧ u.mem = s.mem ∧ u.ridge = s.ridge) := by
  obtain ⟨t, codes, ht, hm, hw⟩ := State.oscCtlWrite_eq (s := s) (k := k) (m := 2) (by decide) (oscAcs req k 0) w
  have hf : OnlyEaves t (t.wr F.OSC_STAT_STATE OscMode.frozen k) [(F.OSC_STAT_STATE, k)] := (OnlyEaves.refl t _).wr (.head _) _
  have hu : OnlyEaves t (t.oscMode k) [(F.OSC_STAT_STATE, k)] ∧ (t.oscMode k).oscState k = 2 := by
    obtain e | e := State.oscMode_auto hm ((ht.2.rd rfl k).trans hs)
    · rw [e]
      exact ⟨hf, State.rd_wr_same t _ _ k⟩
    · rw [e]
      exact ⟨hf.setOsc k _, State.rd_wr_same t F.OSC_STAT_STATE OscMode.frozen k⟩
  obtain ⟨h₁, h₂, -, h₃, h₄⟩ := State.oscCtlWrite_follows (a := oscAcs req k 0) (codes := codes) ht hm hu.1 hu.2
  exact ⟨_, by rw [exec_oscModeAuto, execOscModeAuto, if_neg (by omega), State.put_admitted ha, hw]; rfl, h₁, h₂, h₃, h₄⟩

theorem oscModeOff_settles (hl : s.eaves.osc.length = 3) (hs : s.oscState k ≠ 0) : Settles (.oscModeOff req k w) s (fun u =>
    u.rd F.OSC_CTL_MODE k = 0 ∧ u.oscState k = 0 ∧ (u.osc k).queue = (s.osc k).queue.filter UartMsg.isSend ∧ u.mem = s.mem ∧
    u.ridge = s.ridge) := by
  obtain ⟨t, codes, ht, hm, hw⟩ := State.oscCtlWrite_eq (s := s) (k := k) (m := 0) (by decide) (oscAcs req k 0) w
  have he : t.eaves = s.eaves := by rw [← ht.1]
  rw [State.oscMode_off hm (by rwa [State.oscState, ht.2.rd rfl k])] at hw
  have hu : OnlyEaves t ((t.oscSilence k).wr F.OSC_STAT_STATE OscMode.off k) [(F.OSC_STAT_STATE, k)] :=
    (State.onlyEaves_oscSilence _).wr (.head _) _
  obtain ⟨h₁, h₂, ho, h₃, h₄⟩ := State.oscCtlWrite_follows (a := oscAcs req k 0) (codes := codes) ht hm hu (State.rd_wr_same _ _ _ k)
  refine ⟨_, by rw [exec_oscModeOff, execOscModeOff, if_neg (by omega), State.put_admitted ha, hw]; rfl, h₁, h₂, ?_, h₃, h₄⟩
  rw [ho, State.osc_of_eaves (State.wr_eaves _ _ _ k), State.queue_oscSilence (by rw [he, hl]; exact hk), State.osc_of_eaves he]

theorem oscCodeWrite_settles (hs : s.oscState k = 1) : Settles (.oscCodeWrite req k false w) s (fun u =>
    u.rd F.OSC_CODE_CODE k = bits w 0 20 ∧ OnlyRegs s u [(F.OSC_CODE_CODE, k)]) :=
  ⟨s.wr F.OSC_CODE_CODE (bits w 0 20) k,
    by rw [exec_oscCodeWrite, execOscCodeWrite_admitted ha hk, State.oscCodeWrite_manual hs (.inl rfl)]; rfl,
    (State.rd_wr_same s _ _ k).trans (bits_mod w 0 20), (OnlyRegs.refl s _).wr (.head _) _⟩

theorem oscAccWrite_settles (hs : s.oscState k = 1) (hu : s.oscUart k = false) : Settles (.oscCodeWrite req k true w) s (fun u =>
    u.rd F.OSC_ACC_ACC k = bits w 0 32 ∧ OnlyRegs s u [(F.OSC_ACC_ACC, k)]) :=
  ⟨s.wr F.OSC_ACC_ACC (bits w 0 32) k,
    by rw [exec_oscCodeWrite, execOscCodeWrite_admitted ha hk, State.oscCodeWrite_manual hs (.inr hu)]; rfl,
    (State.rd_wr_same s _ _ k).trans (bits_mod w 0 32), (OnlyRegs.refl s _).wr (.head _) _⟩

theorem oscCodeWrite_refuses (hs : s.oscState k ≠ 1) (hw : bits w 0 20 ≠ s.rd F.OSC_CODE_CODE k) :
    Settles (.oscCodeWrite req k false w) s (fun u => u.rd F.OSC_CODE_CODE k = s.rd F.OSC_CODE_CODE k ∧ u.eaves = s.eaves ∧
      Occ.mk 0 (Acs.snap (oscAcs req k 8)) false ∈ u.fcu.occs) := by
  obtain ⟨codes, e, hc⟩ := State.oscCodeWrite_locked hs hw (oscAcs req k 8)
  have h := State.onlyRegsFcu_conclude (s := s) (oscAcs req k 8) codes
  exact ⟨_, by rw [exec_oscCodeWrite, execOscCodeWrite_admitted ha hk]; exact congrArg done e, h.2.rd rfl k, h.eaves,
    State.occ_conclude_locked hc _⟩

end

variable (hk : k < 3)
include hk

theorem oscSteerStep_settles (hs : s.oscState k = 3) (hu : s.oscUart k = false) : Settles (.oscSteerStep k) s (fun u =>
    u.rd F.OSC_CODE_CODE k = s.rd F.OSC_CODE_CODE k ∧
    u.eaves = (s.setOsc k { s.osc k with step := some (s.oscPart k (s.oscStep k)) }).eaves ∧
    RegsBut s u [(F.OSC_STAT_CLAMPED, k)] ∧ u.mem = s.mem) := by
  obtain ⟨t, ht, e⟩ := State.oscSteer_vtune hu
  refine ⟨_, (exec_oscSteerStep k s).trans ((if_pos ⟨hk, hs⟩).trans (congrArg done e)), ht.2.rd rfl k, ?_, ht.2.same rfl, ht.mem⟩
  rw [State.osc_of_eaves ht.eaves]
  exact State.setOsc_eaves_of_eaves ht.eaves k _

theorem oscSteerApply_settles {d : Int} (hu : s.oscUart k = false) (hd : (s.osc k).step = some d) :
    Settles (.oscSteerApply k) s (fun u => u.rd F.OSC_CODE_CODE k = ((s.rd F.OSC_CODE_CODE k : Int) + d).toNat % 2 ^ 20 ∧
      u.rd F.OSC_STAT_STEPS k = satU 16 (s.rd F.OSC_STAT_STEPS k + 1) ∧ u.mem = s.mem) := by
  obtain ⟨hr, hm⟩ := State.oscApply_vtune hu hd
  exact ⟨_, (exec_oscSteerApply k s).trans (if_pos hk), (State.rd_of_regs hr _ k).trans (State.rd_code_oscMoved d),
    (State.rd_of_regs hr _ k).trans (State.rd_steps_oscMoved d), hm⟩

end

/-- Settles O14: one lemma for each mode written, for each code taken or refused, and for the preparing and applying of a step. -/
theorem oscillatorsSteerAndChange : Obligations.OscillatorsSteerAndChange :=
  ⟨fun _ _ _ _ ha hk _ => oscModeManual_settles ha hk, fun _ _ _ _ ha hk _ => oscModeAuto_settles ha hk,
    fun _ _ _ _ ha hk hl _ => oscModeOff_settles ha hk hl, fun _ _ _ _ => oscCodeWrite_settles, fun _ _ _ _ => oscAccWrite_settles,
    fun _ _ _ _ => oscCodeWrite_refuses, fun _ _ => oscSteerStep_settles, fun _ _ _ hk => oscSteerApply_settles hk⟩

end Sys2Proof.Machine

/-! ## The UART of an atomic oscillator and `OSC_SEND` (R143 to R148, R168) -/

namespace Sys2Proof.Machine

section
variable {s : State} {k : Nat} (hk : k = 1 ∨ k = 2)
include hk

/-- The atomic oscillators have a UART. -/
theorem hasUart : ¬(k = 0 ∨ 3 ≤ k) := by omega

theorem uartSend_replies {c : CmdRef} {bs : List Nat} (hq : nextMsg (s.osc k).queue = some (.raw c bs)) (hb : s.oscBarred k = false) :
    Replies (.uartSend k) s c (fun u => u = (s.setOsc k { s.osc k with queue := (s.osc k).queue.erase (.raw c bs) }).emit (.uart k bs)) := by
  have hb' (o : OscSt) : (s.setOsc k o).oscBarred k = false := hb
  refine ⟨_, 0, 0, 0, ?_, rfl⟩
  rw [exec_uartSend, execUartSend, if_neg (hasUart hk), hq]
  dsimp only
  rw [hb']
  rfl

theorem oscPoll_settles (hp : s.on F.OSC_UCFG_POLL_PERIOD k = true) (hs : s.oscState k ≠ 0) (ht : s.tplOn k 1 = true)
    (hb : s.oscBarred k = false) : Settles (.oscPoll k) s (fun u => u = s.oscQueue k .poll) := by
  have hs' : (s.oscState k != OscMode.off) = true := bne_iff_ne.mpr hs
  refine ⟨_, ?_, rfl⟩
  rw [exec_oscPoll, execOscPoll, if_neg (hasUart hk), hp, hs', ht, hb]
  rfl

theorem execPollResponseEnd_passed {bytes : List Nat} (hw : (s.osc k).await = 1) (hp : s.respPasses k bytes = true) :
    execPollResponseEnd k bytes false s =
      done (((s.setOsc k { s.osc k with await := 0 }).storeResp k bytes).pollResult k true) := by
  rw [execPollResponseEnd, if_neg (hasUart hk)]
  dsimp only
  rw [hw, hp]
  rfl

theorem pollResponseEnd_settles {bytes : List Nat} (hl : s.eaves.osc.length = 3) (hw : (s.osc k).await = 1)
    (hp : s.respPasses k bytes = true) : Settles (.pollResponseEnd k bytes false) s (fun u => u.rd F.OSC_STAT_MISS k = 0 ∧
      (u.osc k).await = 0 ∧ (u.osc k).passes = (s.osc k).passes + 1 ∧ u.mem = s.mem ∧ u.out = s.out) := by
  have hk' : k < s.eaves.osc.length := by omega
  obtain ⟨t, e⟩ : ∃ t, (s.setOsc k { s.osc k with await := 0 }).storeResp k bytes = t := ⟨_, rfl⟩
  have he := State.storeResp_eq (s := s.setOsc k { s.osc k with await := 0 }) (k := k) bytes
  rw [e] at he
  have hv : t.eaves = (s.setOsc k { s.osc k with await := 0 }).eaves := by rw [← he]
  have ho : (t.pollPassed k).osc k = { s.osc k with await := 0, passes := (s.osc k).passes + 1 } := by
    rw [State.pollPassed, State.osc_setOsc (by rw [State.wr_eaves, hv, State.length_setOsc]; exact hk'), State.osc_of_eaves hv,
      State.osc_setOsc hk']
  have h := State.onlyRegsFcu_pollResult (s := t) (k := k)
  refine ⟨t.pollResult k true, ?_, ?_, ?_, ?_, ?_, ?_⟩
  · rw [exec_pollResponseEnd, execPollResponseEnd_passed hk hw hp, e]
    rfl
  · exact (h.2.rd rfl k).trans (State.rd_wr_same t F.OSC_STAT_MISS 0 k)
  · rw [State.osc_of_eaves h.eaves, ho]
  · rw [State.osc_of_eaves h.eaves, ho]
  · rw [h.mem]
    exact (congrArg State.mem he).symm
  · rw [h.out]
    exact (congrArg State.out he).symm

theorem probeRetry_settles (hl : s.eaves.osc.length = 3) (hr : (s.osc k).retry = true) (hm : s.on F.OSC_CTL_MODE k = true)
    (hb : s.oscBarred k = false) : Settles (.probeRetry k) s (fun u => (u.osc k).queue = (s.osc k).queue ++ [.probe none] ∧
      (u.osc k).tries = (s.osc k).tries + 1 ∧ (u.osc k).retry = false ∧ { s with eaves := u.eaves } = u) := by
  have hk' : k < s.eaves.osc.length := by omega
  have ho : ((s.setOsc k { s.osc k with retry := false, tries := (s.osc k).tries + 1 }).oscQueue k (.probe none)).osc k =
      { s.osc k with retry := false, tries := (s.osc k).tries + 1, queue := (s.osc k).queue ++ [.probe none] } := by
    rw [State.osc_oscQueue ((State.length_setOsc _).symm ▸ hk'), State.osc_setOsc hk']
  refine ⟨(s.setOsc k { s.osc k with retry := false, tries := (s.osc k).tries + 1 }).oscQueue k (.probe none), ?_, ?_, ?_, ?_, rfl⟩
  · rw [exec_probeRetry, execProbeRetry, if_neg (hasUart hk), hr, hm, hb]
    rfl
  · rw [ho]
  · rw [ho]
  · rw [ho]

end

section
variable {s : State} (c : CmdRef) {w0 : Nat} (msg : List Nat)

/-- XO and the number 3 have no port. -/
theorem oscSend_without_port (h : bits w0 0 2 = 0 ∨ bits w0 0 2 = 3) : Refuses (.oscSend c w0 msg) s c Code.badParam := by
  rw [Refuses, exec_oscSend, execOscSend]
  rw [if_pos h]
  rfl

variable (hk : bits w0 0 2 = 1 ∨ bits w0 0 2 = 2)
include hk

theorem oscSend_barred (hb : s.oscBarred (bits w0 0 2) = true) : Refuses (.oscSend c w0 msg) s c Code.notTokenHolder := by
  rw [Refuses, exec_oscSend, execOscSend]
  rw [if_neg (by omega), if_pos hb]
  rfl

variable (hb : s.oscBarred (bits w0 0 2) = false)
include hb

theorem oscSend_raw (hp : bit w0 2 = false) (hl : bits w0 8 5 ≠ 0) : Settles (.oscSend c w0 msg) s (fun u =>
    u = s.oscQueue (bits w0 0 2) (.raw c ((List.range (bits w0 8 5)).map (fun i => bits (msg.getD (i / 4) 0) (i % 4 * 8) 8)))) := by
  refine ⟨_, ?_, rfl⟩
  rw [exec_oscSend, execOscSend]
  rw [if_neg (by omega), hb, hp, if_neg Bool.false_ne_true, if_neg Bool.false_ne_true, if_neg hl]
  rfl

theorem oscSend_probe (hp : bit w0 2 = true) (ht : s.tplOn (bits w0 0 2) 2 = true) : Settles (.oscSend c w0 msg) s (fun u =>
    u = s.oscQueue (bits w0 0 2) (.probe (some c))) := by
  refine ⟨_, ?_, rfl⟩
  rw [exec_oscSend, execOscSend]
  rw [if_neg (by omega), hb, hp, if_neg Bool.false_ne_true, if_pos rfl, if_pos ht]
  rfl

end

/-- Settles O15: one lemma for each event of the UART and for each outcome of OSC_SEND. -/
theorem uartMessagesGoOut : Obligations.UartMessagesGoOut :=
  ⟨fun _ _ _ _ hk => uartSend_replies hk, fun _ _ => oscPoll_settles, fun _ _ _ hk => pollResponseEnd_settles hk,
    fun _ _ => probeRetry_settles,
    fun _ c _ msg => oscSend_raw c msg, fun _ c _ msg => oscSend_probe c msg, fun _ c _ msg => oscSend_without_port c msg⟩

/-- Settles O16: OSC_SEND for a barred oscillator ends before any message is made. -/
theorem sharedOscillatorIsRefusedOnTheStandby : Obligations.SharedOscillatorIsRefusedOnTheStandby :=
  fun _ c _ msg => oscSend_barred c msg

end Sys2Proof.Machine

/-! ## A quiet tick (R203, R512, R514)

Bringing the squelch up to date raises a fault or leaves the fault collector alone; with no occurrence waiting nothing is settled, and the
collector only shows what it holds. -/

namespace Sys2Proof.Machine
namespace State
variable {s : State}

/-! ### The squelch -/

/-- Between `s` and `u` only registers and the fault collector have changed, and the collector only by an occurrence that waits. -/
def Squelched (s u : State) : Prop := { s with regs := u.regs, fcu := u.fcu } = u ∧ (u.fcu.occs = [] → u.fcu = s.fcu)

theorem Squelched.trans {t u : State} (h : Squelched s t) (k : Squelched t u) : Squelched s u :=
  ⟨by rw [← k.1, ← h.1], fun hu => have e := k.2 hu; e.trans (h.2 (e ▸ hu))⟩

theorem Squelched.wr {u : State} (h : Squelched s u) (f : Fld) (v i : Nat) : Squelched s (u.wr f v i) := h.trans ⟨rfl, fun _ => rfl⟩

theorem Squelched.raise {u : State} (h : Squelched s u) (fs n : Nat) : Squelched s (u.raise fs n) :=
  h.trans ⟨rfl, fun k => absurd k (by simp [raise_occs])⟩

theorem squelched_setSquelch (o : Nat) (b : Bool) : Squelched s (s.setSquelch o b) := by
  unfold setSquelch
  extract_lets s₁ s₂ s₃
  have h₁ : Squelched s s₁ := by unfold s₁; split <;> exact Squelched.wr ⟨rfl, fun _ => rfl⟩ _ _ _
  have h₂ : Squelched s s₂ := by unfold s₂; split <;> exact h₁.wr _ _ _
  have h₃ : Squelched s s₃ := by unfold s₃; split <;> exact h₂.wr _ _ _
  split_ifs
  · exact ⟨rfl, fun _ => rfl⟩
  · exact h₂
  · exact h₃.raise 71 o
  · exact h₃

theorem squelched_evalSquelch : Squelched s s.evalSquelch := by
  have h : ∀ (l : List Nat) (p : State → Nat → Bool) (s : State), Squelched s (l.foldl (fun s o => s.setSquelch o (p s o)) s) := by
    intro l p
    induction l with
    | nil => exact fun _ => ⟨rfl, fun _ => rfl⟩
    | cons o t ih => exact fun s => (squelched_setSquelch o _).trans (ih _)
  exact h _ _ s

/-- A squelch that raises nothing shows in registers only. -/
theorem evalSquelch_quiet (h : s.evalSquelch.fcu.occs = []) : { s with regs := s.evalSquelch.regs } = s.evalSquelch := by
  conv_rhs => rw [← squelched_evalSquelch.1, squelched_evalSquelch.2 h]

/-! ### Settling and showing -/

/-- Where no occurrence waits there is nothing to settle. -/
theorem settle_quiet (h : s.fcu.occs = []) (n : Nat) : s.settle (n + 1) = s := by
  have e : { s with fcu := { s.fcu with occs := [] } } = s := by rw [← h]
  unfold settle
  rw [h, e]
  rfl

/-- The bit of each source of `l` is set in FCU_LIVE. -/
def showLive (s : State) (l : List Nat) : State := l.foldl (fun s fs => s.wr F.FCU_LIVE_BIT 1 fs) s

theorem showLive_regs (l : List Nat) : { s with regs := (s.showLive l).regs } = s.showLive l := by
  induction l generalizing s with
  | nil => rfl
  | cons x t ih => exact ih (s := s.wr F.FCU_LIVE_BIT 1 x)

theorem rd_showLive {f : Fld} (hf : f.off [F.FCU_LIVE_BIT] = true) (l : List Nat) (i : Nat) : (s.showLive l).rd f i = s.rd f i := by
  induction l generalizing s with
  | nil => rfl
  | cons x t ih => exact (ih (s := s.wr F.FCU_LIVE_BIT 1 x)).trans (rd_wr_off s hf (.head _) 1 i x)

/-- FCU_LIVE is cleared. -/
def dropLive (s : State) : State := { s with regs := s.regs.filter (fun p => p.1 % 1024 != F.FCU_LIVE_BIT.no) }

theorem rd_dropLive {f : Fld} (hf : f.off [F.FCU_LIVE_BIT] = true) (i : Nat) : s.dropLive.rd f i = s.rd f i := by
  have hk : f.key i % 1024 ≠ F.FCU_LIVE_BIT.no := by
    have := Fld.lt_of_off hf
    have := (Fld.ne_of_off hf (.head _)).2
    simp only [Fld.key]
    omega
  have h : kvGet s.dropLive.regs (f.key i) = kvGet s.regs (f.key i) := kvGet_filter fun _ => bne_iff_ne.mpr hk
  rw [rd, h, rd]

/-- The fields in which the fault collector shows what it holds (R512). -/
def collectorFlds : List Fld := [F.FCU_LIVE_BIT, F.FCU_STAT_REC_USED, F.FCU_STAT_MAX_LIVE, F.FCU_STAT_MAX_PEND, F.FCU_STAT_FAULT,
  F.FCU_STAT_INT]

/-- FCU_STAT and the two pins show the values given. -/
def showStat (s : State) (n live pend : Nat) (fault int : Bool) : State :=
  { ((((s.wr F.FCU_STAT_REC_USED n).wr F.FCU_STAT_MAX_LIVE live).wr F.FCU_STAT_MAX_PEND pend).wrB F.FCU_STAT_FAULT fault).wrB
    F.FCU_STAT_INT int with pins := { s.pins with faultLow := fault, intLow := int } }

theorem rd_showStat {f : Fld} (hf : f.off collectorFlds.tail = true) (n live pend : Nat) (fault int : Bool) (i : Nat) :
    (s.showStat n live pend fault int).rd f i = s.rd f i := by
  have h (t : State) {g : Fld} (hg : g ∈ collectorFlds.tail) (v : Nat) : (t.wr g v).rd f i = t.rd f i := rd_wr_off t hf hg v i 0
  calc (s.showStat n live pend fault int).rd f i
      = ((((s.wr F.FCU_STAT_REC_USED n).wr F.FCU_STAT_MAX_LIVE live).wr F.FCU_STAT_MAX_PEND pend).wr F.FCU_STAT_FAULT
          fault.toNat).rd f i := h _ (.tail _ (.tail _ (.tail _ (.tail _ (.head _))))) int.toNat
    _ = (((s.wr F.FCU_STAT_REC_USED n).wr F.FCU_STAT_MAX_LIVE live).wr F.FCU_STAT_MAX_PEND pend).rd f i :=
        h _ (.tail _ (.tail _ (.tail _ (.head _)))) _
    _ = ((s.wr F.FCU_STAT_REC_USED n).wr F.FCU_STAT_MAX_LIVE live).rd f i := h _ (.tail _ (.tail _ (.head _))) _
    _ = (s.wr F.FCU_STAT_REC_USED n).rd f i := h _ (.tail _ (.head _)) _
    _ = s.rd f i := h _ (.head _) _

/-- What the collector holds is shown once FCU_LIVE has been set anew. -/
theorem showFcu_eq : ∃ (l : List Nat) (n live pend : Nat) (fault int : Bool),
    s.showFcu = (s.dropLive.showLive l).showStat n live pend fault int := ⟨_, _, _, _, _, _, rfl⟩

theorem showFcu_rest : { s with regs := s.showFcu.regs, pins :=
    { s.pins with faultLow := s.showFcu.pins.faultLow, intLow := s.showFcu.pins.intLow } } = s.showFcu := by
  obtain ⟨l, n, live, pend, fault, int, e⟩ := showFcu_eq (s := s)
  rw [e, ← showLive_regs]
  rfl

theorem rd_showFcu {f : Fld} (hf : f.off collectorFlds = true) (i : Nat) : s.showFcu.rd f i = s.rd f i := by
  obtain ⟨hl, hs⟩ := Fld.off_append (l := [F.FCU_LIVE_BIT]) hf
  obtain ⟨l, n, live, pend, fault, int, e⟩ := showFcu_eq (s := s)
  rw [e, rd_showStat hs, rd_showLive hl, rd_dropLive hl]

/-! ### The end of a quiet tick -/

theorem close_quiet (h : s.evalSquelch.fcu.occs = []) : s.close =
    if s.evalSquelch.evalSquelch.ridge.running then s.evalSquelch.evalSquelch.showFcu else s.evalSquelch.evalSquelch := by
  unfold close
  rw [settle_quiet h]

theorem close_quiet_rest (h₁ : s.evalSquelch.fcu.occs = []) (h₂ : s.evalSquelch.evalSquelch.fcu.occs = []) :
    { s with regs := s.close.regs, pins := { s.pins with faultLow := s.close.pins.faultLow, intLow := s.close.pins.intLow } } =
      s.close := by
  obtain ⟨r, e⟩ : ∃ r, s.evalSquelch.evalSquelch = { s with regs := r } :=
    ⟨_, by rw [← evalSquelch_quiet h₂, ← evalSquelch_quiet h₁]⟩
  rw [close_quiet h₁, e]
  split
  · exact showFcu_rest (s := { s with regs := r })
  · rfl

theorem rd_close_quiet (h : s.evalSquelch.fcu.occs = []) {f : Fld} (hs : f.off squelchFlds = true) (hc : f.off collectorFlds = true)
    (i : Nat) : s.close.rd f i = s.rd f i := by
  have e : s.evalSquelch.evalSquelch.rd f i = s.rd f i := (rd_evalSquelch hs i).trans (rd_evalSquelch hs i)
  rw [close_quiet h]
  split
  · exact (rd_showFcu hc i).trans e
  · exact e

end State

/-- A field below 1,024 with another number than each of `l` shares no key with them. -/
theorem Fld.off_of_ne {f : Fld} {l : List Fld} (hf : f.no < 1024) (hl : l.all (fun g => decide (g.no < 1024)) = true)
    (h : ∀ g ∈ l, f.no ≠ g.no) : f.off l = true := by
  simp only [Fld.off, Bool.and_eq_true, List.all_eq_true, decide_eq_true_eq] at hl ⊢
  exact ⟨hf, fun g hg => ⟨hl g hg, h g hg⟩⟩

/-- Settles O52: with no occurrence to settle, only the squelch and what the collector shows are brought up to date. -/
theorem settlingAQuietTickOnlyShows : Obligations.SettlingAQuietTickOnlyShows := by
  intro s h₁ h₂
  refine ⟨State.close_quiet_rest h₁ h₂, fun f i hf h => State.rd_close_quiet h₁ ?_ ?_ i⟩
  · exact Fld.off_of_ne hf rfl fun g hg => h g (List.mem_append_left _ hg)
  · exact Fld.off_of_ne hf rfl fun g hg => h g (List.mem_append_right State.squelchFlds hg)

end Sys2Proof.Machine

/-! ## Loops: the rules of their state (spec/05_loops_synthesis_outputs.md)

What a single bit of a mask field reads after a write, what an event leaves in the fault collector, and what a loop may change, each said
once for the digital and the analogue loops. -/

namespace Sys2Proof.Machine

/-! ### Words -/

/-- A word built from what lies above bit `b`, bit `b` and what lies below it. -/
theorem testBit_of_parts {b r : Nat} (hr : r < 2 ^ b) (h : Nat) (v : Bool) (k : Nat) :
    (2 ^ b * (2 * h + v.toNat) + r).testBit k = if k = b then v else (2 ^ b * (2 * h) + r).testBit k := by
  rw [Nat.testBit_two_pow_mul_add _ hr, Nat.testBit_two_pow_mul_add _ hr]
  obtain hk | rfl | hk := Nat.lt_trichotomy k b
  · rw [if_pos hk, if_pos hk, if_neg (by omega)]
  · rw [if_neg (Nat.lt_irrefl k), if_pos rfl, Nat.sub_self, Nat.testBit_zero]
    cases v <;> simp
  · obtain ⟨j, hj⟩ : ∃ j, k - b = j + 1 := ⟨k - b - 1, by omega⟩
    have hv := v.toNat_lt
    rw [if_neg (by omega), if_neg (by omega), if_neg (by omega), hj, Nat.testBit_succ, Nat.testBit_succ]
    congr 1
    omega

/-- Setting a bit of a word leaves its other bits. -/
theorem bit_setBit (w b : Nat) (v : Bool) (k : Nat) : bit (setBit w b v) k = if k = b then v else bit w k := by
  have hr : w % 2 ^ b < 2 ^ b := Nat.mod_lt _ (Nat.two_pow_pos b)
  have hw : w = 2 ^ b * (2 * (w / 2 ^ b / 2) + (decide (w / 2 ^ b % 2 = 1)).toNat) + w % 2 ^ b := by
    have hd : (decide (w / 2 ^ b % 2 = 1)).toNat = w / 2 ^ b % 2 := by
      obtain h | h := Nat.mod_two_eq_zero_or_one (w / 2 ^ b) <;> rw [h] <;> rfl
    rw [hd, Nat.div_add_mod, Nat.div_add_mod]
  have hs : setBit w b v = 2 ^ b * (2 * (w / 2 ^ b / 2) + v.toNat) + w % 2 ^ b := by
    have hm : v.toNat % 2 = v.toNat := Nat.mod_eq_of_lt v.toNat_lt
    have h₁ := Nat.div_add_mod w (2 ^ b)
    have h₂ := Nat.div_add_mod (w / 2 ^ b) 2
    rw [setBit, setBits, bits, Nat.pow_one, hm, Nat.mul_comm _ (2 ^ b), Nat.mul_comm _ (2 ^ b), Nat.mul_add]
    rw [← h₂, Nat.mul_add] at h₁
    omega
  simp only [bit_eq_testBit]
  rw [hs, testBit_of_parts hr]
  split
  · rfl
  · next hk =>
    conv_rhs => rw [hw]
    rw [testBit_of_parts hr, if_neg hk]

/-- A write of one bit of a mask field leaves its other bits. -/
theorem State.bit_rd_wrBit (s : State) {f : Fld} {k : Nat} (hk : k < f.w) (b : Nat) (v : Bool) (i : Nat) :
    bit ((s.wrBit f b v i).rd f i) k = if k = b then v else bit (s.rd f i) k := by
  rw [State.wrBit_eq, State.rd_wr_same, bit_eq_testBit, Nat.testBit_mod_two_pow, decide_eq_true hk, Bool.true_and, ← bit_eq_testBit,
    bit_setBit]

/-- Setting a bit above a field leaves the field. -/
theorem bits_setBit_above {w b k : Nat} (h : k ≤ b) (v : Bool) : bits (setBit w b v) 0 k = bits w 0 k := by
  refine Nat.eq_of_testBit_eq fun j => ?_
  rw [bits, bits, Nat.pow_zero, Nat.div_one, Nat.div_one, Nat.testBit_mod_two_pow, Nat.testBit_mod_two_pow]
  by_cases hj : j < k
  · rw [← bit_eq_testBit, bit_setBit, if_neg (by omega), bit_eq_testBit]
  · rw [decide_eq_false hj, Bool.false_and, Bool.false_and]

/-! ### The fault collector -/

/-- What waits or is live in the fault collector of `s` still does or is in that of `u`. -/
structure FaultsKept (s u : State) : Prop where
  occs : ∀ o ∈ s.fcu.occs, o ∈ u.fcu.occs
  conds : ∀ c ∈ s.fcu.conds, c ∈ u.fcu.conds
  evts : ∀ c ∈ s.fcu.evts, c ∈ u.fcu.evts

namespace FaultsKept
variable {s t u : State}

theorem of_fcu (h : u.fcu = s.fcu) : FaultsKept s u :=
  ⟨fun _ ho => h ▸ ho, fun _ hc => h ▸ hc, fun _ hc => h ▸ hc⟩

theorem trans (h : FaultsKept s t) (k : FaultsKept t u) : FaultsKept s u :=
  ⟨fun o ho => k.occs o (h.occs o ho), fun c hc => k.conds c (h.conds c hc), fun c hc => k.evts c (h.evts c hc)⟩

theorem raise (h : FaultsKept s u) (fs n : Nat) : FaultsKept s (u.raise fs n) :=
  h.trans ⟨fun _ => List.mem_append_left _, fun _ hc => hc, fun _ => List.mem_append_left _⟩

/-- A source that is live stays so. -/
theorem isLive (h : FaultsKept s u) {fs : Nat} (hl : s.isLive fs = true) : u.isLive fs = true := by
  simp only [State.isLive, Bool.or_eq_true, List.any_eq_true] at hl ⊢
  obtain ⟨c, hc, he⟩ | ⟨c, hc, he⟩ := hl
  · exact .inl ⟨c, h.conds c hc, he⟩
  · exact .inr ⟨c, h.evts c hc, he⟩

theorem norOwn (s : State) (t tag : Nat) (p : List Nat) : FaultsKept s (s.norOwn t tag p) := by
  unfold State.norOwn State.norUpward
  split
  · exact .of_fcu (by rw [← NorOnly.norQueue])
  · have hd : FaultsKept s (s.norDrop portNU) := (of_fcu rfl : FaultsKept s (s.inc F.NOR_PORT_CNT2_DROPPED portNU)).raise 164 0
    exact hd.trans (.of_fcu (by rw [← NorOnly.norReturn]))

theorem writeEvent (s : State) (dn code info count seq : Nat) (p : List Nat) : FaultsKept s (s.writeEvent dn code info count seq p) := by
  unfold State.writeEvent
  dsimp only
  split
  · exact ⟨fun _ => List.mem_append_left _, fun _ hc => hc, fun _ => List.mem_append_left _⟩
  · exact .of_fcu rfl

/-- Raising an event takes nothing from the fault collector. -/
theorem eventNow (s : State) (code info : Nat) (p : List Nat) : FaultsKept s (s.eventNow code info p) := by
  unfold State.eventNow State.event
  dsimp only
  have h (x : HostSt) : FaultsKept s { s with host := x } := .of_fcu rfl
  split_ifs
  · exact (h _).trans (.norOwn _ _ _ _)
  · exact h _
  · exact (h _).trans (.of_fcu rfl)
  · exact (h _).trans (.writeEvent _ _ _ _ _ _ _)

end FaultsKept

/-! ### Frames -/

/-- Between `s` and `u` loop `n` has changed its fields `own`, the fields `shared` may have changed at any index, and with them what the
loops, the quiet groups and the edge measurement array keep without a register; faults, completions, events and free values may have come
of it. -/
structure LoopOnly (s u : State) (n : Nat) (own shared : List Fld) : Prop where
  rest : { s with regs := u.regs, loop := u.loop, sort := u.sort, tdc := u.tdc, out := u.out, fcu := u.fcu, host := u.host,
                  nor := u.nor, bootCpl := u.bootCpl, free := u.free } = u
  regs : ∀ f i, f.off (answerFlds ++ shared) = true → (∀ g ∈ own, f.key i ≠ g.key n) → u.rd f i = s.rd f i

namespace LoopOnly
variable {s t u : State} {n : Nat} {own shared : List Fld}

theorem refl (s : State) : LoopOnly s s n own shared := ⟨rfl, fun _ _ _ _ => rfl⟩

theorem trans (h : LoopOnly s t n own shared) (k : LoopOnly t u n own shared) : LoopOnly s u n own shared :=
  ⟨by rw [← k.rest, ← h.rest], fun f i hf hi => (k.regs f i hf hi).trans (h.regs f i hf hi)⟩

theorem mono (h : LoopOnly s u n own shared) {own' : List Fld} (ho : own ⊆ own') : LoopOnly s u n own' shared :=
  ⟨h.rest, fun f i hf hi => h.regs f i hf fun g hg => hi g (ho hg)⟩

/-! What a frame allows. -/

theorem wr (h : LoopOnly s u n own shared) {g : Fld} (hg : g ∈ own) (v : Nat) : LoopOnly s (u.wr g v n) n own shared :=
  h.trans ⟨rfl, fun _ _ _ hi => State.rd_wr_ne u (hi g hg) v⟩

theorem wrShared (h : LoopOnly s u n own shared) {g : Fld} (hg : g ∈ shared) (v j : Nat) : LoopOnly s (u.wr g v j) n own shared :=
  h.trans ⟨rfl, fun _ i hf _ => State.rd_wr_off u (Fld.off_append hf).2 hg v i j⟩

theorem draw (h : LoopOnly s u n own shared) : LoopOnly s u.draw.2 n own shared := h.trans ⟨rfl, fun _ _ _ _ => rfl⟩

theorem wrFree (h : LoopOnly s u n own shared) {g : Fld} (hg : g ∈ own) : LoopOnly s (u.wrFree g n) n own shared := h.draw.wr hg _

theorem wrFit (h : LoopOnly s u n own shared) {g : Fld} (hg : g ∈ own) (q : Rat) : LoopOnly s (u.wrFit g q n) n own shared := by
  unfold State.wrFit
  dsimp only
  split
  · exact h.wr hg _
  · exact h.draw.wr hg _

theorem raise (h : LoopOnly s u n own shared) (fs k : Nat) : LoopOnly s (u.raise fs k) n own shared :=
  h.trans ⟨rfl, fun _ _ _ _ => rfl⟩

theorem condOff (h : LoopOnly s u n own shared) (fs k : Nat) : LoopOnly s (u.condOff fs k) n own shared :=
  h.trans ⟨rfl, fun _ _ _ _ => rfl⟩

theorem condOn (h : LoopOnly s u n own shared) (fs k : Nat) : LoopOnly s (u.condOn fs k) n own shared :=
  h.trans ⟨by rw [← condOn_eq], fun f i _ _ => State.rd_condOn u fs k f i⟩

theorem cond (h : LoopOnly s u n own shared) (fs : Nat) (b : Bool) (k : Nat) : LoopOnly s (u.cond fs b k) n own shared := by
  unfold State.cond
  split
  · exact h.condOn fs k
  · exact h.condOff fs k

theorem setLoop (h : LoopOnly s u n own shared) (x : LoopSt) : LoopOnly s { u with loop := x } n own shared :=
  h.trans ⟨rfl, fun _ _ _ _ => rfl⟩

theorem setDpl (h : LoopOnly s u n own shared) (k : Nat) (l : DpllSt) : LoopOnly s (u.setDpl k l) n own shared := h.setLoop _
theorem setApl (h : LoopOnly s u n own shared) (k : Nat) (a : ApllSt) : LoopOnly s (u.setApl k a) n own shared := h.setLoop _

theorem answered (h : LoopOnly s t n own shared) (k : Answered t u) : LoopOnly s u n own shared :=
  h.trans ⟨by rw [← k.1], fun _ i hf _ => have ha := (Fld.off_append hf).1
    k.rd (Fld.lt_of_off ha) (fun _ hg => (Fld.ne_of_off ha hg).2) i⟩

theorem eventNow (h : LoopOnly s u n own shared) (code info : Nat) (p : List Nat) : LoopOnly s (u.eventNow code info p) n own shared :=
  h.answered (.eventNow u code info p)

theorem foldl {α : Type} {f : State → α → State} (h : LoopOnly s u n own shared) (xs : List α)
    (hf : ∀ t x, LoopOnly t (f t x) n own shared) : LoopOnly s (xs.foldl f u) n own shared := by
  induction xs generalizing u with
  | nil => exact h
  | cons x xs ih => exact ih (h.trans (hf u x))

/-! What a frame says. -/

/-- A field that is none of those that may have changed reads the same at every index. -/
theorem rd (h : LoopOnly s u n own shared) {f : Fld} (hf : f.off (answerFlds ++ shared ++ own) = true) (i : Nat) :
    u.rd f i = s.rd f i :=
  have hf := Fld.off_append hf
  h.regs f i hf.1 fun _ hg => have hn := Fld.ne_of_off hf.2 hg; Fld.key_ne hn.1 (Fld.lt_of_off hf.2) (.inl hn.2)

theorem on (h : LoopOnly s u n own shared) {f : Fld} (hf : f.off (answerFlds ++ shared ++ own) = true) (i : Nat) :
    u.on f i = s.on f i := congrArg (· != 0) (h.rd hf i)

/-- What loop `n` does leaves the fields of the other loops alone. -/
theorem rd_other (h : LoopOnly s u n own shared) {f : Fld} (hf : f.off (answerFlds ++ shared) = true)
    (ho : own.all (fun g => decide (g.no < 1024)) = true) {m : Nat} (hm : m ≠ n) : u.rd f m = s.rd f m :=
  h.regs f m hf fun g hg => Fld.key_ne (of_decide_eq_true (List.all_eq_true.mp ho g hg)) (Fld.lt_of_off hf) (.inr hm)

theorem mem (h : LoopOnly s u n own shared) : u.mem = s.mem := by rw [← h.rest]
theorem ridge (h : LoopOnly s u n own shared) : u.ridge = s.ridge := by rw [← h.rest]

end LoopOnly

theorem OnlyRegs.mem {s u : State} {l : List (Fld × Nat)} (h : OnlyRegs s u l) : u.mem = s.mem := by rw [← h.1]
theorem OnlyRegs.ridge {s u : State} {l : List (Fld × Nat)} (h : OnlyRegs s u l) : u.ridge = s.ridge := by rw [← h.1]
theorem OnlyRegs.loop {s u : State} {l : List (Fld × Nat)} (h : OnlyRegs s u l) : u.loop = s.loop := by rw [← h.1]
theorem OnlyRegsFcu.loop {s u : State} {l : List (Fld × Nat)} (h : OnlyRegsFcu s u l) : u.loop = s.loop := by rw [← h.1]

namespace State
variable {s : State}

/-! ### Accesses -/

/-- Concluding an access loses no occurrence (R500). -/
theorem occs_conclude (a : Acs) (codes : List Nat) : ∀ o ∈ s.fcu.occs, o ∈ (s.conclude a codes).1.fcu.occs := by
  have h : ∀ (l : List Nat) (s : State), ∀ o ∈ s.fcu.occs, o ∈ (l.foldl (fun s c => s.breakRule a c) s).fcu.occs := by
    intro l
    induction l with
    | nil => exact fun _ _ ho => ho
    | cons c t ih => exact fun s o ho => ih _ o ((kept_breakRule (s := s) a c).occs o ho)
  intro o ho
  unfold conclude
  extract_lets order s₁ code
  have h₁ : o ∈ s₁.fcu.occs := h _ s o ho
  dsimp only
  split
  · exact h₁
  · rw [← (onlyRegs_noteErr a code).1]
    exact h₁

/-- Later fields of a write leave what an earlier one has taken. -/
theorem rd_fieldWrite_append {lock : Fld → Bool} {ok : Fld → Nat → Bool} {fs gs : List Fld} {f : Fld} (hf : f.off gs = true) (i w j : Nat) :
    (s.fieldWrite lock ok (fs ++ gs) i w).1.rd f j = (s.fieldWrite lock ok fs i w).1.rd f j := by
  rw [fieldWrite, List.foldl_append]
  exact foldl_fieldStep (P := fun t => t.rd f j = (s.fieldWrite lock ok fs i w).1.rd f j) lock ok i w gs
    (fun t g v hg ht => (rd_wr_off t hf hg v j i).trans ht) _ rfl

end State
end Sys2Proof.Machine

/-! ## Digital loops (Table LOOP-2, R169 to R185, R205, R206) -/

namespace Sys2Proof.Machine

theorem exec_dpllEnable (req n w : Nat) (s : State) : exec (.dpllEnable req n w) s = execDpllEnable req n w s := rfl
theorem exec_dpllDisable (req n w : Nat) (s : State) : exec (.dpllDisable req n w) s = execDpllDisable req n w s := rfl
theorem exec_dpllStopDone (n : Nat) (s : State) : exec (.dpllStopDone n) s = execDpllStopDone n s := rfl
theorem exec_dpllUpdate (n : Nat) (meas : List Int) (lost : Nat) (s : State) :
    exec (.dpllUpdate n meas lost) s = execDpllUpdate n meas lost s := rfl
theorem exec_inputValid (n e : Nat) (meas : List Int) (s : State) : exec (.inputValid n e meas) s = execInputValid n e meas s := rfl
theorem exec_revertSwitch (n e : Nat) (meas : List Int) (s : State) : exec (.revertSwitch n e meas) s = execRevertSwitch n e meas s := rfl
theorem exec_dpllSwitch (req n w : Nat) (meas : List Int) (s : State) :
    exec (.dpllSwitch req n w meas) s = execDpllSwitch req n w meas s := rfl
theorem exec_dpllLocked (n : Nat) (s : State) : exec (.dpllLocked n) s = execDpllLocked n s := rfl

namespace State
variable {s t : State} {n : Nat}

/-! ### The state of a loop -/

/-- Loop `n` shows state `st`; FS 66 is live in HOLD. -/
def dpllShown (s : State) (n st : Nat) : State :=
  let s := s.wr F.DPLL_STAT_STATE st n
  if 2 ≤ n then s.cond 66 (st == DpllSt.hold) n else s

theorem moveDpll_of_ne {st : Nat} (h : s.dpllState n ≠ st) :
    s.moveDpll n st = (s.dpllShown n st).eventNow 0x0007 0 [n + s.dpllState n * 16 + st * 256] := if_neg h

theorem moveDpll_self {st : Nat} (h : s.dpllState n = st) : s.moveDpll n st = s := if_pos h

theorem loopOnly_dpllShown (st : Nat) : LoopOnly s (s.dpllShown n st) n [F.DPLL_STAT_STATE] [] := by
  have h : LoopOnly s (s.wr F.DPLL_STAT_STATE st n) n [F.DPLL_STAT_STATE] [] := (LoopOnly.refl s).wr (.head _) st
  unfold dpllShown
  dsimp only
  split
  · exact h.cond _ _ _
  · exact h

theorem loopOnly_moveDpll (st : Nat) : LoopOnly s (s.moveDpll n st) n [F.DPLL_STAT_STATE] [] := by
  by_cases h : s.dpllState n = st
  · rw [moveDpll_self h]
    exact .refl s
  · rw [moveDpll_of_ne h]
    exact (loopOnly_dpllShown st).eventNow _ _ _

theorem dpllShown_eq (st : Nat) : { s.wr F.DPLL_STAT_STATE st n with fcu := (s.dpllShown n st).fcu } = s.dpllShown n st := by
  unfold dpllShown cond
  dsimp only
  split_ifs
  · exact condOn_eq _ _ _
  · rfl
  · rfl

theorem dpllState_moveDpll {st : Nat} (h : st < 8) : (s.moveDpll n st).dpllState n = st := by
  by_cases hs : s.dpllState n = st
  · rw [moveDpll_self hs, hs]
  · rw [moveDpll_of_ne hs, dpllState, (LoopOnly.eventNow (.refl _) _ _ _ : LoopOnly (s.dpllShown n st) _ n [] []).rd rfl, ← dpllShown_eq]
    exact (rd_wr_same s F.DPLL_STAT_STATE st n).trans (Nat.mod_eq_of_lt h)

/-- A change of state touches no hidden state of a loop. -/
theorem loop_moveDpll (st : Nat) : (s.moveDpll n st).loop = s.loop := by
  by_cases h : s.dpllState n = st
  · rw [moveDpll_self h]
  · rw [moveDpll_of_ne h, (Answered.eventNow _ _ _ _).loop, ← dpllShown_eq]
    rfl

/-- A change of state loses no occurrence. -/
theorem occs_moveDpll (st : Nat) : ∀ o ∈ s.fcu.occs, o ∈ (s.moveDpll n st).fcu.occs := by
  intro o ho
  by_cases h : s.dpllState n = st
  · rwa [moveDpll_self h]
  · rw [moveDpll_of_ne h]
    refine (FaultsKept.eventNow _ _ _ _).occs o ?_
    unfold dpllShown cond
    dsimp only
    split_ifs
    · exact (kept_condOn _ 66 n).occs o ho
    · exact ho
    · exact ho

/-- A loop that enters HOLD makes FS 66 live (R184). -/
theorem isLive_moveDpll_hold (hn : 2 ≤ n) (h : s.dpllState n ≠ DpllSt.hold) : (s.moveDpll n DpllSt.hold).isLive 66 = true := by
  rw [moveDpll_of_ne h]
  refine (FaultsKept.eventNow _ _ _ _).isLive ?_
  rw [dpllShown, if_pos hn]
  exact isLive_condOn 66 n

/-! ### Entries (R181) -/

/-- The fields that say which entries a loop has and whether Ridge B runs. -/
def entryFlds : List Fld := [F.DPLL_IN_EN0, F.DPLL_IN_EN1, F.DPLL_IN_EN2, F.DPLL_IN_EN3, F.DPLL_IN_SRC0, F.DPLL_IN_SRC1, F.DPLL_IN_SRC2,
  F.DPLL_IN_SRC3, F.RIDGE_CTL_B_EN]

section
variable (h : ∀ f ∈ entryFlds, ∀ i, t.rd f i = s.rd f i)
include h

theorem entryOn_congr (n e : Nat) : t.entryOn n e = s.entryOn n e := by
  simp only [entryFlds, List.forall_mem_cons] at h
  obtain ⟨h₀, h₁, h₂, h₃, -⟩ := h
  simp only [entryOn, on, h₀, h₁, h₂, h₃]

theorem entrySrc_congr (n e : Nat) : t.entrySrc n e = s.entrySrc n e := by
  simp only [entryFlds, List.forall_mem_cons] at h
  obtain ⟨-, -, -, -, h₀, h₁, h₂, h₃, -⟩ := h
  simp only [entrySrc, h₀, h₁, h₂, h₃]

/-- Beyond its configuration an entry's validity turns on its VALID bit alone. -/
theorem entryValid_congr (hr : t.ridge = s.ridge) (n e : Nat) : t.entryValid n e =
    (s.entryOn n e && if isDomainCode (s.entrySrc n e) then s.domRuns (s.entrySrc n e - 62) else bit (t.rd F.DPLL_STAT_VALID n) e) := by
  have hd (d : Nat) : t.domRuns d = s.domRuns d := by
    rw [domRuns, on, h F.RIDGE_CTL_B_EN (by simp [entryFlds]), hr, domRuns, on]
  rw [entryValid, entryOn_congr h, entrySrc_congr h, hd]

end

theorem entryOn_of_le {e : Nat} (h : 4 ≤ e) : s.entryOn n e = false := List.getD_eq_default _ _ h

theorem entryValid_of_le {e : Nat} (h : 4 ≤ e) : s.entryValid n e = false := by
  rw [entryValid, entryOn_of_le h, Bool.false_and]

end State

/-- The fields of `l` lie outside a frame that none of them shares a key with. -/
theorem LoopOnly.rds {s t : State} {n : Nat} {own shared l : List Fld} (h : LoopOnly s t n own shared)
    (hl : l.all (fun f => f.off (answerFlds ++ shared ++ own)) = true) : ∀ f ∈ l, ∀ i, t.rd f i = s.rd f i :=
  fun f hf i => h.rd (List.all_eq_true.mp hl f hf) i

namespace State
variable {s : State} {n : Nat}

theorem entryValid_wrBit {k : Nat} (hk : k < 4) (e : Nat) (v : Bool) : (s.wrBit F.DPLL_STAT_VALID e v n).entryValid n k =
    (s.entryOn n k && if isDomainCode (s.entrySrc n k) then s.domRuns (s.entrySrc n k - 62)
      else if k = e then v else bit (s.rd F.DPLL_STAT_VALID n) k) := by
  have h : LoopOnly s (s.wrBit F.DPLL_STAT_VALID e v n) n [F.DPLL_STAT_VALID] [] := (LoopOnly.refl s).wr (.head _) _
  rw [entryValid_congr (h.rds rfl) h.ridge, bit_rd_wrBit s hk]

/-- Bringing the VALID bits up to date changes no entry's validity. -/
theorem entryValid_showValid (k : Nat) : (s.showValid n).entryValid n k = s.entryValid n k := by
  by_cases hk : k < 4
  · refine forN_keeps (fun s => s.entryValid n k) (fun s e => ?_) 4 s
    rw [entryValid_wrBit hk]
    by_cases h : k = e
    · subst h
      rw [if_pos rfl, entryValid]
      cases s.entryOn n k <;> split_ifs <;> rfl
    · rw [if_neg h, entryValid]
  · rw [entryValid_of_le (Nat.le_of_not_lt hk), entryValid_of_le (Nat.le_of_not_lt hk)]

theorem loopOnly_showValid : LoopOnly s (s.showValid n) n [F.DPLL_STAT_VALID] [] :=
  (LoopOnly.refl s).foldl _ fun t _ => (LoopOnly.refl t).wr (.head _) _

theorem bestEntry_none (h : ∀ e, s.entryValid n e = false) : s.bestEntry n = none :=
  List.find?_range_eq_none.mpr fun e _ => by rw [h]; rfl

theorem bestEntry_only {e : Nat} (he : e < 4) (h : s.entryValid n e = true) (ho : ∀ k, k < 4 → k ≠ e → s.entryValid n k = false) :
    s.bestEntry n = some e :=
  List.find?_range_eq_some.mpr ⟨h, List.mem_range.mpr he, fun k hk => by rw [ho k (by omega) (by omega)]; rfl⟩

/-- The entries of `lost` are valid no longer. -/
def loseEntries (s : State) (n lost k : Nat) : State := forN k s (fun s e => if bit lost e then s.wrBit F.DPLL_STAT_VALID e false n else s)

theorem loopOnly_loseEntries (lost k : Nat) : LoopOnly s (s.loseEntries n lost k) n [F.DPLL_STAT_VALID] [] :=
  (LoopOnly.refl s).foldl _ fun t e => by
    split
    · exact (LoopOnly.refl t).wr (.head _) _
    · exact .refl t

theorem bit_valid_loseEntries {lost k : Nat} (hl : ∀ e < k, bit lost e = true) (hk : k ≤ 4) {e : Nat} (he : e < k) :
    bit ((s.loseEntries n lost k).rd F.DPLL_STAT_VALID n) e = false := by
  induction k with
  | zero => omega
  | succ k ih =>
    rw [loseEntries, forN_succ, if_pos (hl k (by omega)), bit_rd_wrBit _ (show e < F.DPLL_STAT_VALID.w by exact Nat.lt_of_lt_of_le he hk)]
    split
    · rfl
    · exact ih (fun e he => hl e (by omega)) (by omega) (by omega)

/-- Clocks that are all lost leave no valid entry. -/
theorem entryValid_loseEntries (hd : ∀ e, e < 4 → isDomainCode (s.entrySrc n e) = false) (e : Nat) :
    (s.loseEntries n 15 4).entryValid n e = false := by
  by_cases he : e < 4
  · have h := loopOnly_loseEntries (s := s) (n := n) 15 4
    have hb : ∀ e < 4, bit 15 e = true := by decide
    rw [entryValid_congr (h.rds rfl) h.ridge, hd e he, bit_valid_loseEntries hb (Nat.le_refl 4) he]
    exact Bool.and_false _
  · exact entryValid_of_le (Nat.le_of_not_lt he)

/-! ### Switching and HOLD (R182 to R184) -/

theorem loopOnly_runNco (own shared : List Fld) : LoopOnly s (s.runNco n) n own shared := (LoopOnly.refl s).setDpl n _

/-- The fields in which a switch shows. -/
def switchFlds : List Fld := [F.DPLL_STAT_STATE, F.DPLL_PBO_VALUE, F.DPLL_STAT_ACTIVE, F.DPLL_CNT_SWITCHES]

/-- A switch makes its entry the active one and is counted, before the loop goes to ACQUIRE. -/
theorem switchTo_eq {e : Nat} (he : e < 4) (meas : List Int) (pbo counted : Bool) : ∃ t, LoopOnly s t n switchFlds [] ∧
    t.rd F.DPLL_STAT_ACTIVE n = e ∧ (counted = true → Occ.mk 65 (n + 16 * e) false ∈ t.fcu.occs) ∧
    s.switchTo n e meas pbo counted = t.moveDpll n DpllSt.acquire := by
  unfold switchTo
  extract_lets raw last s₁ s₂ l s₃ s₄
  have h₁ : LoopOnly s s₁ n switchFlds [] := by
    unfold s₁
    split
    · exact (LoopOnly.refl s).wrFit (by simp [switchFlds]) _
    · exact .refl s
  have h₃ : LoopOnly s s₃ n switchFlds [] := (h₁.wr (g := F.DPLL_STAT_ACTIVE) (by simp [switchFlds]) e).setDpl n _
  have ha : s₃.rd F.DPLL_STAT_ACTIVE n = e := (rd_wr_same s₁ F.DPLL_STAT_ACTIVE e n).trans (Nat.mod_eq_of_lt he)
  refine ⟨s₄, ?_, ?_, fun hc => ?_, rfl⟩
  · unfold s₄
    split
    · exact (h₃.wr (g := F.DPLL_CNT_SWITCHES) (by simp [switchFlds]) _).raise _ _
    · exact h₃
  · unfold s₄
    split
    · exact (rd_wr_other s₃ (f := F.DPLL_CNT_SWITCHES) (by decide) (by decide) (by decide) _ n n).trans ha
    · exact ha
  · unfold s₄
    rw [if_pos hc, raise_occs]
    exact List.mem_append_right _ (.head _)

/-- What a switch leaves: the loop in ACQUIRE on its entry. -/
theorem switchTo_facts {e : Nat} (he : e < 4) (meas : List Int) (pbo counted : Bool) :
    LoopOnly s (s.switchTo n e meas pbo counted) n switchFlds [] ∧ (s.switchTo n e meas pbo counted).dpllState n = 2 ∧
    (s.switchTo n e meas pbo counted).rd F.DPLL_STAT_ACTIVE n = e ∧
    (counted = true → Occ.mk 65 (n + 16 * e) false ∈ (s.switchTo n e meas pbo counted).fcu.occs) := by
  obtain ⟨t, ht, ha, ho, e'⟩ := switchTo_eq (s := s) (n := n) he meas pbo counted
  have hm := loopOnly_moveDpll (s := t) (n := n) DpllSt.acquire
  rw [e']
  exact ⟨ht.trans (hm.mono (by simp [switchFlds])), dpllState_moveDpll (by decide), (hm.rd rfl n).trans ha, fun hc => occs_moveDpll _ _ (ho hc)⟩

theorem enterHold_eq : ∃ t, LoopOnly s t n [F.DPLL_HOLDF_VALUE, F.DPLL_FREQ_VALUE] [] ∧ s.enterHold n = t.moveDpll n DpllSt.hold :=
  ⟨_, (((LoopOnly.refl s).setDpl n _).wrFit (.head _) _).wrFit (.tail _ (.head _)) _, rfl⟩

/-- A loop on an entry that has none left goes to HOLD. -/
theorem followEntries_lost (hs : s.dpllState n = 2 ∨ s.dpllState n = 3) (hv : ∀ e, s.entryValid n e = false) (meas : List Int) :
    s.followEntries n meas = (s.showValid n).enterHold n := by
  have hst : (s.showValid n).dpllState n = s.dpllState n := loopOnly_showValid.rd rfl n
  have hv' (e : Nat) : (s.showValid n).entryValid n e = false := (entryValid_showValid e).trans (hv e)
  have hf : ¬(s.showValid n).dpllState n = DpllSt.freerun := by
    rw [hst]
    show s.dpllState n ≠ 1
    omega
  have ha : (s.showValid n).dpllState n = DpllSt.acquire ∨ (s.showValid n).dpllState n = DpllSt.locked := by
    rw [hst]
    exact hs
  unfold followEntries
  dsimp only
  rw [if_neg hf, if_pos ha, hv', bestEntry_none hv']
  rfl

/-- A free-running loop takes the only entry that is valid. -/
theorem followEntries_freerun (hs : s.dpllState n = 1) {e : Nat} (he : e < 4) (hv : s.entryValid n e = true)
    (ho : ∀ k, k < 4 → k ≠ e → s.entryValid n k = false) (meas : List Int) :
    s.followEntries n meas = (s.showValid n).switchTo n e meas ((s.showValid n).on F.DPLL_CTL_PBO_EN n) false := by
  have hst : (s.showValid n).dpllState n = DpllSt.freerun := (loopOnly_showValid.rd rfl n).trans hs
  have hb : (s.showValid n).bestEntry n = some e :=
    bestEntry_only he ((entryValid_showValid e).trans hv) fun k hk hn => (entryValid_showValid k).trans (ho k hk hn)
  unfold followEntries
  dsimp only
  rw [if_pos hst, hb]

/-- Only a loop in ACQUIRE or LOCKED samples its entry. -/
theorem sampleLoop_hold (h : s.dpllState n = DpllSt.hold) (meas : List Int) : s.sampleLoop n meas = s := by
  unfold sampleLoop
  exact if_pos (by rw [h]; decide)

/-- Where each index changes hidden states of loops only, so do all of them. -/
theorem forN_loop {f : State → Nat → State} (h : ∀ s n, ∃ x, f s n = { s with loop := x }) (k : Nat) :
    ∃ x, forN k s f = { s with loop := x } := by
  induction k with
  | zero => exact ⟨_, rfl⟩
  | succ k ih =>
    obtain ⟨x, e⟩ := ih
    obtain ⟨y, e'⟩ := h { s with loop := x } k
    exact ⟨y, by rw [forN_succ, e, e']⟩

theorem driveApll_eq : ∃ x, s.driveApll n = { s with loop := x } :=
  forN_loop (fun s m => by
    split
    · exact ⟨_, rfl⟩
    · exact ⟨_, rfl⟩) 6

/-! ### Enabling and disabling (R176, R185, R205, R206) -/

/-- The fields that the enable check reads, ORDER apart. -/
def checkFlds : List Fld := F.DPLL_PD_PER_VALUE :: F.DPLL_LOOP_BW :: F.DPLL_LOOP_ACQ_BW :: entryFlds

section
variable {t : State} (h : ∀ f ∈ checkFlds, ∀ i, t.rd f i = s.rd f i)
include h

theorem bwOk_congr (n c : Nat) : t.bwOk n c = s.bwOk n c := by
  obtain ⟨hp, -, -, he⟩ : (∀ i, t.rd F.DPLL_PD_PER_VALUE i = s.rd F.DPLL_PD_PER_VALUE i) ∧ _ ∧ _ ∧
      ∀ f ∈ entryFlds, ∀ i, t.rd f i = s.rd f i := by simpa only [checkFlds, List.forall_mem_cons] using h
  simp only [bwOk, entryOn_congr he, entrySrc_congr he, hp]

/-- The check of an output loop does not read DPLL_CTL. -/
theorem dpllCheck_congr (hn : 2 ≤ n) : t.dpllCheck n = s.dpllCheck n := by
  have he : ∀ f ∈ entryFlds, ∀ i, t.rd f i = s.rd f i := fun f hf => h f (.tail _ (.tail _ (.tail _ hf)))
  rw [dpllCheck, dpllCheck, bwOk_congr h, h F.DPLL_LOOP_BW (.tail _ (.head _)), if_neg (by omega), if_neg (by omega)]
  simp only [entryOn_congr he, entrySrc_congr he]

/-- DPLL0 and DPLL1 may be enabled with either order from 2 on. -/
theorem dpllCheck_domain (hn : n < 2) (ho : t.rd F.DPLL_CTL_ORDER n = 2 ∨ t.rd F.DPLL_CTL_ORDER n = 3)
    (hb : s.bwOk n (s.rd F.DPLL_LOOP_BW n) = true) (ha : s.bwOk n (s.rd F.DPLL_LOOP_ACQ_BW n) = true) : t.dpllCheck n = true := by
  rw [dpllCheck, bwOk_congr h, bwOk_congr h, h F.DPLL_LOOP_BW (.tail _ (.head _)), h F.DPLL_LOOP_ACQ_BW (.tail _ (.tail _ (.head _))),
    if_pos hn, hb, ha]
  obtain e | e := ho <;> rw [e] <;> rfl

end

/-- The fields in which the start of an output loop shows. -/
def startedFlds : List Fld := [F.DPLL_STAT_STATE, F.DPLL_STAT_ACTIVE, F.DPLL_STAT_VALID, F.DPLL_PBO_VALUE]

/-- An output loop has forgotten its past and points at entry 0. -/
def outputCleared (s : State) (n : Nat) : State :=
  (((s.setDpl n { tick := s.ridge.ticks }).wr F.DPLL_STAT_ACTIVE 0 n).wr F.DPLL_STAT_VALID 0 n).wr F.DPLL_PBO_VALUE 0 n

theorem loopOnly_outputCleared : LoopOnly s (s.outputCleared n) n startedFlds [] :=
  ((((LoopOnly.refl s).setDpl n _).wr (.tail _ (.head _)) 0).wr (.tail _ (.tail _ (.head _))) 0).wr
    (.tail _ (.tail _ (.tail _ (.head _)))) 0

theorem rd_outputCleared : (s.outputCleared n).rd F.DPLL_STAT_ACTIVE n = 0 ∧ (s.outputCleared n).rd F.DPLL_PBO_VALUE n = 0 := by
  refine ⟨?_, rd_wr_same _ _ 0 n⟩
  rw [outputCleared, rd_wr_other _ (by decide) (by decide) (by decide), rd_wr_other _ (by decide) (by decide) (by decide), rd_wr_same]
  rfl

theorem dpllStart_refused (hc : s.dpllCheck n = false) : s.dpllStart n = s.loopRefused F.DPLL_CTL_EN n n := by
  rw [dpllStart, hc]
  rfl

theorem dpllStart_output (hc : s.dpllCheck n = true) (hn : 2 ≤ n) : s.dpllStart n = (s.outputCleared n).moveDpll n DpllSt.freerun := by
  rw [dpllStart, hc, if_neg (by decide), if_neg (by omega)]
  rfl

theorem dpllStart_domain (hc : s.dpllCheck n = true) (hn : n < 2) : ∃ l, s.dpllStart n =
    (s.setDpl n l).moveDpll n (if s.domState n = 0 then 1 else 3) := by
  rw [dpllStart, hc, if_neg (by decide), if_pos hn]
  exact ⟨_, rfl⟩

/-- The fields of DPLL_CTL, EN last. -/
def dpllCtlFlds : List Fld :=
  [F.DPLL_CTL_AUTO_SW, F.DPLL_CTL_REVERT, F.DPLL_CTL_PBO_EN, F.DPLL_CTL_DAMP, F.DPLL_CTL_ORDER, F.DPLL_CTL_EN]

/-- What the fields of DPLL_CTL[n] take of a write of `w`, and the rules that it breaks (R185). -/
def dpllCtlFields (s : State) (n w : Nat) : State × List Nat :=
  s.fieldWrite (fun f => (s.on F.DPLL_CTL_EN n || s.dpllState n != DpllSt.disabled) && f.no != F.DPLL_CTL_EN.no) inRange dpllCtlFlds n w

/-- What follows when EN of loop `n` has been written, EN having been `was` (R206). -/
def followDpllEn (s : State) (was : Bool) (n : Nat) : State :=
  if s.on F.DPLL_CTL_EN n && !was then
    (if s.dpllState n = DpllSt.stopping then s.wr F.DPLL_STAT_PENDING_ENABLE 1 n else s.dpllStart n)
  else if was && !s.on F.DPLL_CTL_EN n then
    (if s.dpllState n = DpllSt.stopping then s.wr F.DPLL_STAT_PENDING_ENABLE 0 n else s.moveDpll n DpllSt.stopping)
  else s

theorem dpllCtlWrite_eq (a : Acs) (n w : Nat) : s.dpllCtlWrite a n w =
    ((s.dpllCtlFields n w).1.followDpllEn (s.on F.DPLL_CTL_EN n) n).conclude a (s.dpllCtlFields n w).2 := rfl

theorem onlyRegs_dpllCtlFields (n w : Nat) : OnlyRegs s (s.dpllCtlFields n w).1 (dpllCtlFlds.map (·, n)) := onlyRegs_fieldWrite _ _ _ n w

theorem on_en_dpllCtlFields (n w : Nat) (b : Bool) : (s.dpllCtlFields n (setBit w 0 b)).1.on F.DPLL_CTL_EN n = b :=
  on_fieldWrite_setBit_zero rfl ⟨rfl, rfl⟩ (by rw [bne_self_eq_false, Bool.and_false]) (fun _ => rfl) dpllCtlFlds.dropLast n w b

theorem check_dpllCtlFields (n w : Nat) : ∀ f ∈ checkFlds, ∀ i, (s.dpllCtlFields n w).1.rd f i = s.rd f i := by
  have hl : checkFlds.all (fun f => f.off dpllCtlFlds) = true := rfl
  exact fun f hf i => (onlyRegs_dpllCtlFields n w).2.rd (List.all_eq_true.mp hl f hf) i

/-- A loop that is DISABLED takes an ORDER of 2 or 3. -/
theorem order_dpllCtlFields {w : Nat} (he : s.on F.DPLL_CTL_EN n = false) (hs : s.dpllState n = 0) (hw : bits w 1 2 = 2 ∨ bits w 1 2 = 3) :
    (s.dpllCtlFields n (setBit w 0 true)).1.rd F.DPLL_CTL_ORDER n = bits w 1 2 := by
  have hb : bits (setBit w 0 true) 1 2 = bits w 1 2 := bits_setBit_zero_above w true 0 2
  have hr : inRange F.DPLL_CTL_ORDER (bits (setBit w 0 true) 1 2) = true := by
    rw [hb]
    obtain e | e := hw <;> rw [e] <;> rfl
  refine (rd_fieldWrite_append (fs := dpllCtlFlds.dropLast) (gs := [F.DPLL_CTL_EN]) rfl n _ n).trans ?_
  exact (rd_fieldWrite_last (f := F.DPLL_CTL_ORDER) rfl (by rw [he, hs]; rfl) hr dpllCtlFlds.dropLast.dropLast n).trans hb

/-- An enable of a DISABLED loop starts it. -/
theorem followDpllEn_starts (he : s.on F.DPLL_CTL_EN n = true) (hs : s.dpllState n = 0) : s.followDpllEn false n = s.dpllStart n := by
  rw [followDpllEn, he, if_pos (show (true && !false) = true from rfl), hs]
  rfl

/-- A disable of a loop that is not stopping already begins to stop it. -/
theorem followDpllEn_stops (he : s.on F.DPLL_CTL_EN n = false) (hs : s.dpllState n ≠ DpllSt.stopping) :
    s.followDpllEn true n = s.moveDpll n DpllSt.stopping := by
  rw [followDpllEn, he, if_neg (by decide), if_pos (show (true && !false) = true from rfl), if_neg hs]

/-- An enable of a DISABLED loop takes the word, starts the loop and concludes. -/
theorem dpllCtlWrite_starts (he : s.on F.DPLL_CTL_EN n = false) (hs : s.dpllState n = 0) (a : Acs) (w : Nat) :
    s.dpllCtlWrite a n (setBit w 0 true) =
      ((s.dpllCtlFields n (setBit w 0 true)).1.dpllStart n).conclude a (s.dpllCtlFields n (setBit w 0 true)).2 := by
  have hst : (s.dpllCtlFields n (setBit w 0 true)).1.dpllState n = 0 := ((onlyRegs_dpllCtlFields n _).2.rd rfl n).trans hs
  rw [dpllCtlWrite_eq, he, followDpllEn_starts (on_en_dpllCtlFields n w true) hst]

theorem dpllStopped_idle (hp : s.on F.DPLL_STAT_PENDING_ENABLE n = false) :
    ∃ l, s.dpllStopped n = ((s.moveDpll n DpllSt.disabled).condOff 74 n).setDpl n l := by
  have h : (s.moveDpll n DpllSt.disabled).on F.DPLL_STAT_PENDING_ENABLE n = false := ((loopOnly_moveDpll _).on rfl n).trans hp
  exact ⟨_, if_neg fun k => Bool.false_ne_true (h.symm.trans k)⟩

end State

/-! ### The commands of a loop -/

section
variable {s : State} {n : Nat}

theorem execDpllEnable_admitted {req : Nat} (h : Admitted s req) (hn : n < 8) (w : Nat) : execDpllEnable req n w s =
    done (s.dpllCtlWrite ⟨req, 0xA000 + 0x80 * n, 2, true⟩ n (setBit w 0 true)).1 := by
  rw [execDpllEnable, if_neg (by omega), State.put_admitted h]

theorem execDpllDisable_admitted {req : Nat} (h : Admitted s req) (hn : n < 8) (w : Nat) : execDpllDisable req n w s =
    done (s.dpllCtlWrite ⟨req, 0xA000 + 0x80 * n, 2, true⟩ n (setBit w 0 false)).1 := by
  rw [execDpllDisable, if_neg (by omega), State.put_admitted h]

section
variable {req w : Nat} (ha : Admitted s req) (he : s.on F.DPLL_CTL_EN n = false) (hs : s.dpllState n = 0)
include ha he hs

theorem dpllEnable_output_settles (h2 : 2 ≤ n) (h8 : n < 8) (hc : s.dpllCheck n = true) : Settles (.dpllEnable req n w) s (fun u =>
    u.on F.DPLL_CTL_EN n = true ∧ u.dpllState n = 1 ∧ u.rd F.DPLL_STAT_ACTIVE n = 0 ∧ u.rd F.DPLL_PBO_VALUE n = 0 ∧ u.mem = s.mem ∧
    u.ridge = s.ridge ∧ (∀ m, m ≠ n → u.dpllState m = s.dpllState m)) := by
  have hx := execDpllEnable_admitted ha h8 w
  rw [State.dpllCtlWrite_starts he hs] at hx
  have ht := State.onlyRegs_dpllCtlFields (s := s) n (setBit w 0 true)
  have hen := State.on_en_dpllCtlFields (s := s) n w true
  have hck := State.dpllCheck_congr (State.check_dpllCtlFields (s := s) n (setBit w 0 true)) h2
  generalize s.dpllCtlFields n (setBit w 0 true) = r at hx ht hen hck
  rw [State.dpllStart_output (hck.trans hc) h2] at hx
  have h₁ := State.loopOnly_outputCleared (s := r.1) (n := n)
  have h₂ := State.loopOnly_moveDpll (s := r.1.outputCleared n) (n := n) DpllSt.freerun
  have h₃ := State.onlyRegsFcu_conclude (s := (r.1.outputCleared n).moveDpll n DpllSt.freerun) ⟨req, 0xA000 + 0x80 * n, 2, true⟩ r.2
  obtain ⟨hact, hpbo⟩ := State.rd_outputCleared (s := r.1) (n := n)
  refine ⟨_, (exec_dpllEnable req n w s).trans hx, ?_, ?_, ?_, ?_, ?_, ?_, fun m hm => ?_⟩
  · exact (h₃.2.on rfl n).trans ((h₂.on rfl n).trans ((h₁.on rfl n).trans hen))
  · exact (h₃.2.rd rfl n).trans (State.dpllState_moveDpll (by decide))
  · exact (h₃.2.rd rfl n).trans ((h₂.rd rfl n).trans hact)
  · exact (h₃.2.rd rfl n).trans ((h₂.rd rfl n).trans hpbo)
  · rw [h₃.mem, h₂.mem, h₁.mem, ht.mem]
  · rw [h₃.ridge, h₂.ridge, h₁.ridge, ht.ridge]
  · exact (h₃.2.rd rfl m).trans ((h₂.rd_other rfl rfl hm).trans ((h₁.rd_other rfl rfl hm).trans (ht.2.rd rfl m)))

theorem dpllEnable_refused_settles (h2 : 2 ≤ n) (h8 : n < 8) (hc : s.dpllCheck n = false) : Settles (.dpllEnable req n w) s (fun u =>
    u.on F.DPLL_CTL_EN n = false ∧ u.dpllState n = 0 ∧ Occ.mk 67 n false ∈ u.fcu.occs ∧ u.loop = s.loop) := by
  have hx := execDpllEnable_admitted ha h8 w
  rw [State.dpllCtlWrite_starts he hs] at hx
  have ht := State.onlyRegs_dpllCtlFields (s := s) n (setBit w 0 true)
  have hck := State.dpllCheck_congr (State.check_dpllCtlFields (s := s) n (setBit w 0 true)) h2
  generalize s.dpllCtlFields n (setBit w 0 true) = r at hx ht hck
  rw [State.dpllStart_refused (hck.trans hc)] at hx
  have h₁ := State.onlyRegsFcu_conclude (s := r.1.loopRefused F.DPLL_CTL_EN n n) ⟨req, 0xA000 + 0x80 * n, 2, true⟩ r.2
  refine ⟨_, (exec_dpllEnable req n w s).trans hx, ?_, ?_, ?_, ?_⟩
  · exact (h₁.2.on rfl n).trans (congrArg (· != 0) (State.rd_wr_same r.1 F.DPLL_CTL_EN 0 n))
  · exact (h₁.2.rd rfl n).trans ((State.rd_wr_other r.1 (f := F.DPLL_CTL_EN) (by decide) (by decide) (by decide) 0 n n).trans
      ((ht.2.rd rfl n).trans hs))
  · exact State.occs_conclude _ _ _ (List.mem_append_right _ (.head _))
  · exact h₁.loop.trans ht.loop

theorem dpllEnable_domain_settles (hn : n < 2) (hw : bits w 1 2 = 2 ∨ bits w 1 2 = 3) (hb : s.bwOk n (s.rd F.DPLL_LOOP_BW n) = true)
    (hq : s.bwOk n (s.rd F.DPLL_LOOP_ACQ_BW n) = true) : Settles (.dpllEnable req n w) s (fun u => u.on F.DPLL_CTL_EN n = true ∧
    u.dpllState n = (if s.domState n = 0 then 1 else 3) ∧ u.mem = s.mem ∧ u.ridge = s.ridge) := by
  have hx := execDpllEnable_admitted ha (show n < 8 by omega) w
  rw [State.dpllCtlWrite_starts he hs] at hx
  have ht := State.onlyRegs_dpllCtlFields (s := s) n (setBit w 0 true)
  have hen := State.on_en_dpllCtlFields (s := s) n w true
  have hck := State.dpllCheck_domain (State.check_dpllCtlFields (s := s) n (setBit w 0 true)) hn
    (by rwa [State.order_dpllCtlFields he hs hw]) hb hq
  generalize s.dpllCtlFields n (setBit w 0 true) = r at hx ht hen hck
  have hd : r.1.domState n = s.domState n := by rw [State.domState, State.domState, ht.2.rd rfl, ht.2.rd rfl]
  obtain ⟨l, e⟩ := State.dpllStart_domain hck hn
  rw [e, hd] at hx
  have h₂ := State.loopOnly_moveDpll (s := r.1.setDpl n l) (n := n) (if s.domState n = 0 then 1 else 3)
  have h₃ := State.onlyRegsFcu_conclude (s := (r.1.setDpl n l).moveDpll n (if s.domState n = 0 then 1 else 3))
    ⟨req, 0xA000 + 0x80 * n, 2, true⟩ r.2
  refine ⟨_, (exec_dpllEnable req n w s).trans hx, ?_, ?_, ?_, ?_⟩
  · exact (h₃.2.on rfl n).trans ((h₂.on rfl n).trans hen)
  · exact (h₃.2.rd rfl n).trans (State.dpllState_moveDpll (by split <;> decide))
  · exact h₃.mem.trans (h₂.mem.trans ht.mem)
  · exact h₃.ridge.trans (h₂.ridge.trans ht.ridge)

end

theorem dpllDisable_settles {req w : Nat} (ha : Admitted s req) (hn : n < 8) (he : s.on F.DPLL_CTL_EN n = true) (hs : s.dpllState n = 3) :
    Settles (.dpllDisable req n w) s (fun u => u.on F.DPLL_CTL_EN n = false ∧ u.dpllState n = 5 ∧ u.mem = s.mem ∧ u.ridge = s.ridge ∧
      u.loop = s.loop) := by
  have hx := execDpllDisable_admitted ha hn w
  have ht := State.onlyRegs_dpllCtlFields (s := s) n (setBit w 0 false)
  have hen := State.on_en_dpllCtlFields (s := s) n w false
  have hst : (s.dpllCtlFields n (setBit w 0 false)).1.dpllState n = 3 := (ht.2.rd rfl n).trans hs
  rw [State.dpllCtlWrite_eq, he, State.followDpllEn_stops hen (by rw [hst]; decide)] at hx
  generalize s.dpllCtlFields n (setBit w 0 false) = r at hx ht hen hst
  have h₂ := State.loopOnly_moveDpll (s := r.1) (n := n) DpllSt.stopping
  have h₃ := State.onlyRegsFcu_conclude (s := r.1.moveDpll n DpllSt.stopping) ⟨req, 0xA000 + 0x80 * n, 2, true⟩ r.2
  refine ⟨_, (exec_dpllDisable req n w s).trans hx, ?_, ?_, ?_, ?_, ?_⟩
  · exact (h₃.2.on rfl n).trans ((h₂.on rfl n).trans hen)
  · exact (h₃.2.rd rfl n).trans (State.dpllState_moveDpll (by decide))
  · exact h₃.mem.trans (h₂.mem.trans ht.mem)
  · exact h₃.ridge.trans (h₂.ridge.trans ht.ridge)
  · exact h₃.loop.trans ((State.loop_moveDpll _).trans ht.loop)

theorem dpllStopDone_settles (hn : n < 8) (hs : s.dpllState n = 5) (hp : s.on F.DPLL_STAT_PENDING_ENABLE n = false) :
    Settles (.dpllStopDone n) s (fun u => u.dpllState n = 0 ∧ u.mem = s.mem ∧ u.ridge = s.ridge ∧
      (∀ m, m ≠ n → u.dpllState m = s.dpllState m)) := by
  obtain ⟨l, e⟩ := State.dpllStopped_idle hp
  have h := State.loopOnly_moveDpll (s := s) (n := n) DpllSt.disabled
  have hu := (h.condOff 74 n).setDpl n l
  refine ⟨_, (exec_dpllStopDone n s).trans ((if_pos ⟨hn, hs⟩).trans (congrArg done e)), ?_, hu.mem, hu.ridge, fun m => hu.rd_other rfl rfl⟩
  exact State.dpllState_moveDpll (by decide)

theorem dpllUpdate_lost_settles (meas : List Int) (h2 : 2 ≤ n) (h8 : n < 8) (hs : s.dpllState n = 2 ∨ s.dpllState n = 3)
    (hd : ∀ e, e < 4 → isDomainCode (s.entrySrc n e) = false) : Settles (.dpllUpdate n meas 15) s (fun u => u.dpllState n = 4 ∧
      u.isLive 66 = true ∧ u.mem = s.mem ∧ u.ridge = s.ridge ∧ (∀ m, m ≠ n → u.dpllState m = s.dpllState m)) := by
  have hx : execDpllUpdate n meas 15 s =
      done (((((s.runNco n).loseEntries n 15 4).followEntries n meas).sampleLoop n meas).driveApll n) := by
    refine if_neg ?_
    show ¬(n < 2 ∨ 8 ≤ n ∨ s.dpllState n = 0 ∨ s.dpllState n = 5)
    omega
  have h₁ := (State.loopOnly_runNco (s := s) (n := n) [F.DPLL_STAT_VALID] []).trans (State.loopOnly_loseEntries 15 4)
  have hv := State.entryValid_loseEntries (s := s.runNco n) (n := n) hd
  generalize (s.runNco n).loseEntries n 15 4 = t₁ at hx h₁ hv
  have hs₁ : t₁.dpllState n = s.dpllState n := h₁.rd rfl n
  have h₂ := State.loopOnly_showValid (s := t₁) (n := n)
  obtain ⟨t₂, h₃, e⟩ := State.enterHold_eq (s := t₁.showValid n) (n := n)
  have hs₂ : t₂.dpllState n = s.dpllState n := (h₃.rd rfl n).trans ((h₂.rd rfl n).trans hs₁)
  have h₄ := State.loopOnly_moveDpll (s := t₂) (n := n) DpllSt.hold
  have hst : (t₂.moveDpll n DpllSt.hold).dpllState n = 4 := State.dpllState_moveDpll (by decide)
  rw [State.followEntries_lost (by rwa [hs₁]) hv, e, State.sampleLoop_hold hst] at hx
  obtain ⟨x, ex⟩ := State.driveApll_eq (s := t₂.moveDpll n DpllSt.hold) (n := n)
  rw [ex] at hx
  have hl := State.isLive_moveDpll_hold h2 (show t₂.dpllState n ≠ 4 by omega)
  refine ⟨_, (exec_dpllUpdate n meas 15 s).trans hx, hst, hl, ?_, ?_, fun m hm => ?_⟩
  · exact h₄.mem.trans (h₃.mem.trans (h₂.mem.trans h₁.mem))
  · exact h₄.ridge.trans (h₃.ridge.trans (h₂.ridge.trans h₁.ridge))
  · exact (h₄.rd_other rfl rfl hm).trans ((h₃.rd_other rfl rfl hm).trans ((h₂.rd_other rfl rfl hm).trans (h₁.rd_other rfl rfl hm)))

theorem inputValid_settles {e : Nat} (meas : List Int) (h2 : 2 ≤ n) (h8 : n < 8) (he : e < 4) (hs : s.dpllState n = 1)
    (hon : s.entryOn n e = true) (hd : isDomainCode (s.entrySrc n e) = false) (ho : ∀ k, k < 4 → k ≠ e → s.entryValid n k = false) :
    Settles (.inputValid n e meas) s (fun u => u.dpllState n = 2 ∧ u.rd F.DPLL_STAT_ACTIVE n = e ∧ u.mem = s.mem ∧ u.ridge = s.ridge) := by
  have hx : execInputValid n e meas s = done (((s.runNco n).wrBit F.DPLL_STAT_VALID e true n).followEntries n meas) := by
    refine if_neg ?_
    rw [hs, hon]
    show ¬(n < 2 ∨ 8 ≤ n ∨ 4 ≤ e ∨ 1 = 0 ∨ 1 = 5 ∨ false = true)
    simp only [Bool.false_eq_true, or_false]
    omega
  have hv (k : Nat) (hk : k < 4) := State.entryValid_wrBit (s := s.runNco n) (n := n) hk e true
  have h₁ : LoopOnly s ((s.runNco n).wrBit F.DPLL_STAT_VALID e true n) n [F.DPLL_STAT_VALID] [] :=
    (State.loopOnly_runNco _ _).wr (.head _) _
  have hve : ((s.runNco n).wrBit F.DPLL_STAT_VALID e true n).entryValid n e = true := by
    rw [hv e he, if_pos rfl, show (s.runNco n).entryOn n e = true from hon, show isDomainCode ((s.runNco n).entrySrc n e) = false from hd]
    rfl
  have hvo : ∀ k, k < 4 → k ≠ e → ((s.runNco n).wrBit F.DPLL_STAT_VALID e true n).entryValid n k = false := fun k hk hn => by
    rw [hv k hk, if_neg hn]
    exact ho k hk hn
  generalize (s.runNco n).wrBit F.DPLL_STAT_VALID e true n = t at hx h₁ hve hvo
  have h₂ := State.loopOnly_showValid (s := t) (n := n)
  obtain ⟨h₃, hst, hact, -⟩ := State.switchTo_facts (s := t.showValid n) (n := n) he meas ((t.showValid n).on F.DPLL_CTL_PBO_EN n) false
  rw [State.followEntries_freerun ((h₁.rd rfl n).trans hs) he hve hvo] at hx
  exact ⟨_, (exec_inputValid n e meas s).trans hx, hst, hact, h₃.mem.trans (h₂.mem.trans h₁.mem),
    h₃.ridge.trans (h₂.ridge.trans h₁.ridge)⟩

theorem revertSwitch_settles {e : Nat} (meas : List Int) (h2 : 2 ≤ n) (h8 : n < 8) (hr : s.on F.DPLL_CTL_REVERT n = true)
    (hv : s.entryValid n e = true) (hp : e < s.rd F.DPLL_STAT_ACTIVE n) (he : e < 4) (hs : s.dpllState n = 3) :
    Settles (.revertSwitch n e meas) s (fun u => u.dpllState n = 2 ∧ u.rd F.DPLL_STAT_ACTIVE n = e ∧
      Occ.mk 65 (n + 16 * e) false ∈ u.fcu.occs ∧ u.mem = s.mem ∧ u.ridge = s.ridge) := by
  have hx : execRevertSwitch n e meas s = done ((s.runNco n).switchTo n e meas (s.on F.DPLL_CTL_PBO_EN n) true) :=
    if_pos ⟨h2, h8, hr, hv, hp, .inr hs⟩
  obtain ⟨h, hst, hact, hocc⟩ := State.switchTo_facts (s := s.runNco n) (n := n) he meas (s.on F.DPLL_CTL_PBO_EN n) true
  exact ⟨_, (exec_revertSwitch n e meas s).trans hx, hst, hact, hocc rfl, h.mem, h.ridge⟩

/-- A switch by command to a valid entry of a loop that is LOCKED. -/
theorem State.dpllCmdWrite_switches {w : Nat} (hs : s.dpllState n = 3) (hv : s.entryValid n (bits w 0 2) = true) (a : Acs) (meas : List Int) :
    (s.dpllCmdWrite a n (setBit w 4 true) meas).1 = ((s.wr F.DPLL_CMD_ENTRY (bits w 0 2) n).runNco n).switchTo n (bits w 0 2) meas
      ((s.wr F.DPLL_CMD_ENTRY (bits w 0 2) n).on F.DPLL_CTL_PBO_EN n) true := by
  have h : LoopOnly s (s.wr F.DPLL_CMD_ENTRY (bits w 0 2) n) n [F.DPLL_CMD_ENTRY] [] := (LoopOnly.refl s).wr (.head _) _
  have hb : bit (setBit w 4 true) 4 = true := (bit_setBit w 4 true 4).trans (if_pos rfl)
  have hst : (s.wr F.DPLL_CMD_ENTRY (bits w 0 2) n).dpllState n = 3 := (h.rd rfl n).trans hs
  have hv' : (s.wr F.DPLL_CMD_ENTRY (bits w 0 2) n).entryValid n (bits w 0 2) = true := by
    rw [State.entryValid_congr (h.rds rfl) h.ridge, h.rd rfl]
    exact hv
  rw [State.dpllCmdWrite, bits_setBit_above (show 2 ≤ 4 by decide)]
  rw [hb, hst, hv']
  rfl

theorem dpllSwitch_settles {req w : Nat} (meas : List Int) (ha : Admitted s req) (h2 : 2 ≤ n) (h8 : n < 8) (hs : s.dpllState n = 3)
    (hv : s.entryValid n (bits w 0 2) = true) : Settles (.dpllSwitch req n w meas) s (fun u => u.dpllState n = 2 ∧
      u.rd F.DPLL_STAT_ACTIVE n = bits w 0 2 ∧ u.rd F.DPLL_CMD_ENTRY n = bits w 0 2 ∧ Occ.mk 65 (n + 16 * bits w 0 2) false ∈ u.fcu.occs ∧
      u.mem = s.mem ∧ u.ridge = s.ridge) := by
  have hx : execDpllSwitch req n w meas s =
      done (s.dpllCmdWrite ⟨req, 0xA01C + 0x80 * n, 2, true⟩ n (setBit w 4 true) meas).1 := by
    rw [execDpllSwitch, if_neg (by omega), State.put_admitted ha]
  rw [State.dpllCmdWrite_switches hs hv] at hx
  obtain ⟨h, hst, hact, hocc⟩ := State.switchTo_facts (s := (s.wr F.DPLL_CMD_ENTRY (bits w 0 2) n).runNco n) (n := n) (bits_lt w 0 2) meas
    ((s.wr F.DPLL_CMD_ENTRY (bits w 0 2) n).on F.DPLL_CTL_PBO_EN n) true
  refine ⟨_, (exec_dpllSwitch req n w meas s).trans hx, hst, hact, ?_, hocc rfl, h.mem, h.ridge⟩
  exact (h.rd rfl n).trans ((State.rd_wr_same s F.DPLL_CMD_ENTRY _ n).trans (bits_mod w 0 2))

theorem dpllLocked_settles (h2 : 2 ≤ n) (h8 : n < 8) (hs : s.dpllState n = 2) : Settles (.dpllLocked n) s (fun u => u.dpllState n = 3 ∧
    u.mem = s.mem ∧ u.ridge = s.ridge ∧ u.loop = s.loop ∧ (∀ m, m ≠ n → u.dpllState m = s.dpllState m)) := by
  have h := State.loopOnly_moveDpll (s := s) (n := n) DpllSt.locked
  exact ⟨_, (exec_dpllLocked n s).trans (if_pos ⟨h2, h8, hs⟩), State.dpllState_moveDpll (by decide), h.mem, h.ridge,
    State.loop_moveDpll _, fun m => h.rd_other rfl rfl⟩

end

/-- Settles O17: one lemma for each way in which a loop starts, stops, follows its entries, switches and locks. -/
theorem digitalLoopsFollowTheirEntries : Obligations.DigitalLoopsFollowTheirEntries :=
  ⟨fun _ _ _ _ ha h2 h8 he hs => dpllEnable_output_settles ha he hs h2 h8,
    fun _ _ _ _ ha h2 h8 he hs => dpllEnable_refused_settles ha he hs h2 h8,
    fun _ _ _ _ ha hn he hs => dpllEnable_domain_settles ha he hs hn, fun _ _ _ _ => dpllDisable_settles,
    fun _ _ => dpllStopDone_settles, fun _ _ => dpllUpdate_lost_settles, fun _ _ _ => inputValid_settles,
    fun _ _ _ => revertSwitch_settles, fun _ _ _ _ => dpllSwitch_settles, fun _ _ => dpllLocked_settles⟩

end Sys2Proof.Machine

/-! ## Analogue loops: the rules of their state (Table LOOP-3, R188 to R192, R566) -/

namespace Sys2Proof.Machine

theorem exec_apllEnable (req m w fref : Nat) (s : State) : exec (.apllEnable req m w fref) s = execApllEnable req m w fref s := rfl
theorem exec_apllDisable (req m w : Nat) (s : State) : exec (.apllDisable req m w) s = execApllDisable req m w s := rfl
theorem exec_apllStopDone (m : Nat) (s : State) : exec (.apllStopDone m) s = execApllStopDone m s := rfl
theorem exec_bandSearch (s : State) : exec .bandSearch s = execBandSearch s := rfl
theorem exec_bandSearchDone (cnt : List (Nat × Nat)) (s : State) : exec (.bandSearchDone cnt) s = execBandSearchDone cnt s := rfl
theorem exec_searchRetry (m : Nat) (s : State) : exec (.searchRetry m) s = execSearchRetry m s := rfl
theorem exec_apllLock (m : Nat) (s : State) : exec (.apllLock m) s = execApllLock m s := rfl
theorem exec_apllLossOfLock (m : Nat) (refLost : Bool) (s : State) :
    exec (.apllLossOfLock m refLost) s = execApllLossOfLock m refLost s := rfl
theorem exec_apllRefReturn (m : Nat) (s : State) : exec (.apllRefReturn m) s = execApllRefReturn m s := rfl
theorem exec_bypassReturn (m : Nat) (s : State) : exec (.bypassReturn m) s = execBypassReturn m s := rfl
theorem exec_apllReturn (c : CmdRef) (w0 : Nat) (s : State) : exec (.apllReturn c w0) s = execApllReturn c w0 s := rfl

theorem Fld.off_of_subset {f : Fld} {l m : List Fld} (h : f.off m = true) (hl : l ⊆ m) : f.off l = true := by
  simp only [Fld.off, Bool.and_eq_true, List.all_eq_true, decide_eq_true_eq] at h ⊢
  exact ⟨h.1, fun g hg => h.2 g (hl hg)⟩

/-! ### The quiet groups -/

/-- The fields that show a quiet group, whichever it is. -/
def quietShown : List Fld := [F.SORT_STAT_BUSY, F.SORT_STAT_WAITING, F.SORT_GRP_DEPTH, F.SORT_GRP_RUN_ACT, F.SORT_GRP_RUN_TGT]

theorem State.onlyRegs_showQuiet {s : State} (q : Nat) : OnlyRegs s (s.showQuiet q) (quietFlds q) := by
  have h (v w d : Nat) : OnlyRegs s (((s.wr F.SORT_STAT_BUSY v).wr F.SORT_STAT_WAITING w).wr F.SORT_GRP_DEPTH d q) (quietFlds q) :=
    (((OnlyRegs.refl s _).wr (.head _) v).wr (.tail _ (.head _)) w).wr (.tail _ (.tail _ (.head _))) d
  unfold State.showQuiet
  dsimp only
  split
  all_goals exact ((h _ _ _).wr (g := F.SORT_GRP_RUN_ACT) (by simp [quietFlds]) _).wr (g := F.SORT_GRP_RUN_TGT) (by simp [quietFlds]) _

namespace LoopOnly
variable {s u : State} {n : Nat} {own shared : List Fld}

theorem showQuiet (h : LoopOnly s u n own shared) (hs : quietShown ⊆ shared) (q : Nat) : LoopOnly s (u.showQuiet q) n own shared :=
  h.trans ⟨by rw [← (State.onlyRegs_showQuiet q).1], fun _ i hf _ =>
    (State.onlyRegs_showQuiet (s := u) q).2.rd (Fld.off_of_subset (Fld.off_append hf).2 hs) i⟩

theorem setQueue (h : LoopOnly s u n own shared) (hs : quietShown ⊆ shared) (q : Nat) (l : List SortEntry) :
    LoopOnly s (u.setQueue q l) n own shared :=
  (h.trans (u := { u with sort := { u.sort with queues := u.sort.queues.set q l } }) ⟨rfl, fun _ _ _ _ => rfl⟩).showQuiet hs q

theorem setRun (h : LoopOnly s u n own shared) (hs : quietShown ⊆ shared) (q : Nat) (r : Option SortEntry) :
    LoopOnly s (u.setRun q r) n own shared :=
  (h.trans (u := { u with sort := { u.sort with running := u.sort.running.set q r } }) ⟨rfl, fun _ _ _ _ => rfl⟩).showQuiet hs q

theorem mapGates (h : LoopOnly s u n own shared) (f : Gate → Gate) (p : Nat → Bool) : LoopOnly s (u.mapGates f p) n own shared :=
  h.trans ⟨by rw [← State.mapGates_eq], fun f' i _ _ => State.rd_of_regs (by rw [← State.mapGates_eq]) f' i⟩

end LoopOnly

namespace State
variable {s : State} {m : Nat}

theorem quietRun_congr {t : State} (h : t.sort = s.sort) (q : Nat) : t.quietRun q = s.quietRun q := by
  rw [quietRun, quietRun, h]

/-- A group that is set free runs nothing. -/
theorem quietRun_setRun_none (q : Nat) : (s.setRun q none).quietRun q = none := by
  have h : (s.setRun q none).sort.running = s.sort.running.set q none := by rw [setRun, ← (onlyRegs_showQuiet q).1]
  rw [quietRun, h, List.getD_eq_getElem?_getD, List.getElem?_set_self']
  cases s.sort.running[q]? <;> rfl

/-! ### The state of a loop -/

theorem moveApll_of_ne {st : Nat} (h : s.apllState m ≠ st) :
    s.moveApll m st = (s.wr F.APLL_STAT_STATE st m).eventNow 0x0007 1 [m + s.apllState m * 16 + st * 256] := if_neg h

theorem moveApll_self {st : Nat} (h : s.apllState m = st) : s.moveApll m st = s := if_pos h

theorem loopOnly_moveApll (st : Nat) : LoopOnly s (s.moveApll m st) m [F.APLL_STAT_STATE] [] := by
  by_cases h : s.apllState m = st
  · rw [moveApll_self h]
    exact .refl s
  · rw [moveApll_of_ne h]
    exact ((LoopOnly.refl s).wr (.head _) st).eventNow _ _ _

theorem apllState_moveApll {st : Nat} (h : st < 8) : (s.moveApll m st).apllState m = st := by
  by_cases hs : s.apllState m = st
  · rw [moveApll_self hs, hs]
  · rw [moveApll_of_ne hs, apllState,
      (LoopOnly.eventNow (.refl _) _ _ _ : LoopOnly (s.wr F.APLL_STAT_STATE st m) _ m [] []).rd rfl, rd_wr_same]
    exact Nat.mod_eq_of_lt h

theorem quietRun_moveApll (st q : Nat) : (s.moveApll m st).quietRun q = s.quietRun q := by
  by_cases hs : s.apllState m = st
  · rw [moveApll_self hs]
  · rw [moveApll_of_ne hs]
    exact quietRun_congr ((Answered.eventNow _ _ _ _).sort.trans rfl) q

/-! ### Bypass (R191, R192, R275) -/

/-- The fields in which the outputs and the port groups of a loop show its bypass. -/
def bypassFlds : List Fld := [F.OUT_CLK_STAT_BYPASS, F.SDS_GRP_STAT_TX_REF_ACT]

/-- Beyond the loop's own flag a change of bypass shows at its outputs and port groups only. -/
theorem setBypass_eq (b : Bool) : LoopOnly (s.wr F.APLL_STAT_BYPASS b.toNat m) (s.setBypass m b) m [] bypassFlds := by
  unfold setBypass
  refine LoopOnly.foldl (LoopOnly.foldl (.refl _) _ fun t i => (LoopOnly.refl t).wrShared (.head _) _ i) _ fun t g => ?_
  dsimp only
  split
  · exact ((LoopOnly.refl t).wrShared (.tail _ (.head _)) _ g).cond 105 b g
  · exact .refl t

theorem loopOnly_setBypass (b : Bool) : LoopOnly s (s.setBypass m b) m [F.APLL_STAT_BYPASS] bypassFlds :=
  ((LoopOnly.refl s).wr (.head _) _).trans ((setBypass_eq b).mono (List.nil_subset _))

theorem on_setBypass (b : Bool) : (s.setBypass m b).on F.APLL_STAT_BYPASS m = b := by
  rw [(setBypass_eq b).on rfl, on, rd_wr_same]
  cases b <;> rfl

/-! ### Lock attempts and band searches (R188, R189, R566) -/

/-- With MAN = 1 a lock attempt starts at once, in MAN_BAND. -/
theorem requestLock_manual (hb : s.on F.APLL_BAND_MAN m = true) : ∃ a, s.requestLock m =
    ((s.setApl m a).wr F.APLL_STAT_BAND (s.rd F.APLL_BAND_MAN_BAND m) m).moveApll m ApllSt.locking := ⟨_, if_pos hb⟩

theorem requestLock_facts (hb : s.on F.APLL_BAND_MAN m = true) :
    LoopOnly s (s.requestLock m) m [F.APLL_STAT_STATE, F.APLL_STAT_BAND] [] ∧ (s.requestLock m).apllState m = 3 ∧
    (s.requestLock m).rd F.APLL_STAT_BAND m = s.rd F.APLL_BAND_MAN_BAND m % 2 ^ F.APLL_STAT_BAND.w := by
  obtain ⟨a, e⟩ := requestLock_manual hb
  rw [e]
  have h := loopOnly_moveApll (s := (s.setApl m a).wr F.APLL_STAT_BAND (s.rd F.APLL_BAND_MAN_BAND m) m) (m := m) ApllSt.locking
  refine ⟨?_, apllState_moveApll (by decide), (h.rd rfl m).trans (rd_wr_same (s.setApl m a) F.APLL_STAT_BAND _ m)⟩
  exact (((LoopOnly.refl s).setApl m a).wr (.tail _ (.head _)) _).trans (h.mono (by simp))

/-- The fields in which it shows that the measurement-clock group starts or ends a search. -/
def searchFlds : List Fld := quietShown ++ [F.SORT_WAIT_HWM_WAIT, F.SORT_WAIT_HWM_GROUP, F.SORT_CNT_RUNS, F.SORT_LAST_ACT, F.SORT_LAST_TGT,
  F.SORT_LAST_CODE, F.SORT_LAST_GROUP, F.SORT_LAST_DUR_DUR, F.TDC_STAT_MAINT_ACTIVE]

theorem quietShown_sub_searchFlds : quietShown ⊆ searchFlds := List.subset_append_left _ _

/-- The measurement-clock group that starts an entry marks itself and the open gates, once its queue and its wait are shown. -/
theorem startEntry_eq (e : SortEntry) : ∃ t f p, LoopOnly s t m [] searchFlds ∧
    s.startEntry 0 e = (t.wr F.TDC_STAT_MAINT_ACTIVE 1).mapGates f p := by
  unfold startEntry
  extract_lets ms s₁ s₂ s₃
  have h₂ : LoopOnly s s₂ m [] searchFlds :=
    ((LoopOnly.refl s).setQueue quietShown_sub_searchFlds 0 _).setRun quietShown_sub_searchFlds 0 _
  refine ⟨s₃, _, _, ?_, if_pos rfl⟩
  unfold s₃
  split
  · exact (h₂.wrShared (g := F.SORT_WAIT_HWM_WAIT) (by simp [searchFlds]) _ 0).wrShared (g := F.SORT_WAIT_HWM_GROUP)
      (by simp [searchFlds]) 0 0
  · exact h₂

theorem startEntry_facts (e : SortEntry) : LoopOnly s (s.startEntry 0 e) m [] searchFlds ∧
    (s.startEntry 0 e).on F.TDC_STAT_MAINT_ACTIVE = true := by
  obtain ⟨t, f, p, ht, e'⟩ := startEntry_eq (s := s) (m := m) e
  rw [e']
  refine ⟨(ht.wrShared (g := F.TDC_STAT_MAINT_ACTIVE) (by simp [searchFlds]) 1 0).mapGates f p, ?_⟩
  rw [on, rd_of_regs (by rw [← mapGates_eq] : _ = (t.wr F.TDC_STAT_MAINT_ACTIVE 1).regs), rd_wr_same]
  rfl

/-- A search opens the loop and puts its outputs on bypass. -/
theorem beginSearch_eq (e : SortEntry) : ∃ a, s.beginSearch e =
    (((s.setApl e.tgt a).wr F.APLL_STAT_LOCK 0 e.tgt).setBypass e.tgt true).moveApll e.tgt ApllSt.search := by
  unfold beginSearch
  exact ⟨_, rfl⟩

/-- An entry of the measurement-clock group that ends frees the group, is counted and shown, and leaves its commands waiting. -/
theorem endEntry_facts {e : SortEntry} (h : s.quietRun 0 = some e) (code r0 r1 : Nat) :
    LoopOnly s (s.endEntry 0 code r0 r1 false) m [] searchFlds ∧ (s.endEntry 0 code r0 r1 false).quietRun 0 = none := by
  have hf := quietRun_setRun_none (s := s) 0
  have hr := (LoopOnly.refl s : LoopOnly s s m [] searchFlds).setRun quietShown_sub_searchFlds 0 none
  rw [endEntry, h]
  dsimp only
  generalize s.setRun 0 none = t at hf hr ⊢
  refine ⟨?_, (quietRun_congr rfl 0).trans hf⟩
  exact ((((((hr.wrShared (g := F.SORT_CNT_RUNS) (by simp [searchFlds]) _ 0).wrShared (g := F.SORT_LAST_ACT) (by simp [searchFlds]) _ 0).wrShared
    (g := F.SORT_LAST_TGT) (by simp [searchFlds]) _ 0).wrShared (g := F.SORT_LAST_CODE) (by simp [searchFlds]) _ 0).wrShared
    (g := F.SORT_LAST_GROUP) (by simp [searchFlds]) _ 0).wrShared (g := F.SORT_LAST_DUR_DUR) (by simp [searchFlds]) _ 0).wrShared
    (g := F.TDC_STAT_MAINT_ACTIVE) (by simp [searchFlds]) 0 0

/-- The fields in which the counts of a search show. -/
def countFlds : List Fld := [F.APLL_CNT_SEARCHES, F.APLL_SRCH_TARGET, F.APLL_SRCH_FINAL, F.APLL_SRCH_T_COUNTS, F.APLL_SRCH_T_DURATION,
  F.APLL_STAT_BAND]

/-- What follows the end of a search: the loop closes, or waits with FS 69 for another when the search has failed. -/
def followSearch (s : State) (m : Nat) (failed : Prop) [Decidable failed] : State :=
  if s.apllState m ≠ ApllSt.search then s
  else if failed then
    (((s.setApl m { s.apl m with waiting := true }).moveApll m ApllSt.wait).raise 69 m).raise 176 (Act.apllSearch + m * 256)
  else s.moveApll m ApllSt.locking

/-- A search that ends shows its counts and its band, frees its group, and the loop follows. -/
theorem endSearch_eq (cnt : List (Nat × Nat)) : ∃ (t : State) (code : Nat), LoopOnly s t m countFlds [] ∧
    t.rd F.APLL_STAT_BAND m = chosenBand cnt (s.searchTarget m) % 2 ^ F.APLL_STAT_BAND.w ∧ t.sort = s.sort ∧
    s.endSearch m cnt = (t.endEntry 0 code (chosenBand cnt (s.searchTarget m)) (countOf cnt (chosenBand cnt (s.searchTarget m))) false).followSearch m
      (1000 < |(countOf cnt (chosenBand cnt (s.searchTarget m)) : Rat) - s.searchTarget m|) := by
  unfold endSearch
  extract_lets t b used top n s₁ s₂ s₃ s₄ s₅ failed s₆
  have h₁ : LoopOnly s s₁ m countFlds [] := (LoopOnly.refl s).wr (g := F.APLL_CNT_SEARCHES) (by simp [countFlds]) _
  have h₂ : LoopOnly s s₂ m countFlds [] :=
    (h₁.wr (g := F.APLL_SRCH_TARGET) (by simp [countFlds]) _).wr (g := F.APLL_SRCH_FINAL) (by simp [countFlds]) _
  have h₃ : LoopOnly s s₃ m countFlds [] := h₂.wr (g := F.APLL_SRCH_T_COUNTS) (by simp [countFlds]) n
  have hs₃ : s₃.sort = s.sort := rfl
  have h₄ : LoopOnly s s₄ m countFlds [] ∧ s₄.sort = s.sort := by
    unfold s₄
    clear_value s₃
    split
    · exact ⟨h₃.wr (g := F.APLL_SRCH_T_DURATION) (by simp [countFlds]) 61, hs₃⟩
    · exact ⟨h₃.wrFree (g := F.APLL_SRCH_T_DURATION) (by simp [countFlds]), hs₃⟩
  exact ⟨s₅, _, h₄.1.wr (by simp [countFlds]) b, rd_wr_same s₄ F.APLL_STAT_BAND b m, h₄.2, rfl⟩

/-- What the end of a search leaves of a loop in SEARCH. -/
theorem followSearch_facts (hs : s.apllState m = 2) (failed : Prop) [Decidable failed] :
    LoopOnly s (s.followSearch m failed) m [F.APLL_STAT_STATE] [] ∧
    (s.followSearch m failed).apllState m = (if failed then 1 else 3) ∧ (s.followSearch m failed).quietRun 0 = s.quietRun 0 := by
  rw [followSearch, if_neg (by rw [hs]; decide)]
  split
  · exact ⟨((((LoopOnly.refl s).setApl m _).trans (loopOnly_moveApll _)).raise 69 m).raise 176 _, apllState_moveApll (by decide),
      quietRun_moveApll (s := s.setApl m { s.apl m with waiting := true }) (m := m) _ 0⟩
  · exact ⟨loopOnly_moveApll _, apllState_moveApll (by decide), quietRun_moveApll _ 0⟩

end State
end Sys2Proof.Machine

/-! ## Analogue loops: enabling, searching, bypass and return (R188 to R193, R205, R206) -/

namespace Sys2Proof.Machine
namespace State
variable {s : State} {m : Nat}

/-- The fields of APLL_CTL, EN last. -/
def apllCtlFlds : List Fld := [F.APLL_CTL_AUTO_RET, F.APLL_CTL_LBW, F.APLL_CTL_DPLL_SEL, F.APLL_CTL_RDIV, F.APLL_CTL_RDBL, F.APLL_CTL_REF,
  F.APLL_CTL_EN]

/-- What the fields of APLL_CTL[m] take of a write of `w`, and the rules that it breaks (R193). -/
def apllCtlFields (s : State) (m w : Nat) : State × List Nat :=
  s.fieldWrite (fun f => (s.on F.APLL_CTL_EN m || s.testing (0x60 + m) || s.apllState m != ApllSt.off) && f.no != F.APLL_CTL_EN.no) inRange
    apllCtlFlds m w

/-- What follows when EN of loop `m` has been written, EN having been `was` and the loop under test as `tested` says (R206). -/
def followApllEn (s : State) (was tested : Bool) (m fref : Nat) : State :=
  if s.on F.APLL_CTL_EN m && !was then
    (if s.apllState m = ApllSt.stopping ∨ tested then (s.setApl m { s.apl m with fref := fref }).wr F.APLL_STAT_PENDING_ENABLE 1 m
      else (s.setApl m { s.apl m with fref := fref }).apllStart m)
  else if was && !s.on F.APLL_CTL_EN m then
    (if s.apllState m = ApllSt.stopping ∨ tested then s.wr F.APLL_STAT_PENDING_ENABLE 0 m
      else if s.apllState m = ApllSt.off then s else (s.apllQuit m).moveApll m ApllSt.stopping)
  else s

theorem apllCtlWrite_eq (a : Acs) (m w fref : Nat) : s.apllCtlWrite a m w fref =
    ((s.apllCtlFields m w).1.followApllEn (s.on F.APLL_CTL_EN m) (s.testing (0x60 + m)) m fref).conclude a (s.apllCtlFields m w).2 := rfl

theorem onlyRegs_apllCtlFields (m w : Nat) : OnlyRegs s (s.apllCtlFields m w).1 (apllCtlFlds.map (·, m)) := onlyRegs_fieldWrite _ _ _ m w

theorem on_en_apllCtlFields (m w : Nat) (b : Bool) : (s.apllCtlFields m (setBit w 0 b)).1.on F.APLL_CTL_EN m = b :=
  on_fieldWrite_setBit_zero rfl ⟨rfl, rfl⟩ (by rw [bne_self_eq_false, Bool.and_false]) (fun _ => rfl) apllCtlFlds.dropLast m w b

/-- No field of APLL_CTL is locked while its loop is OFF, disabled and not under test. -/
theorem apllCtlFields_open (he : s.on F.APLL_CTL_EN m = false) (hs : s.apllState m = 0) (ht : s.testing (0x60 + m) = false) (w : Nat) :
    s.apllCtlFields m w = s.fieldWrite noLock inRange apllCtlFlds m w := by
  rw [apllCtlFields, he, hs, ht]
  rfl

/-- An enable of an OFF loop starts it at the frequency of its reference. -/
theorem followApllEn_starts (he : s.on F.APLL_CTL_EN m = true) (hs : s.apllState m = 0) (fref : Nat) :
    s.followApllEn false false m fref = (s.setApl m { s.apl m with fref := fref }).apllStart m := by
  rw [followApllEn, he, if_pos (show (true && !false) = true from rfl), if_neg (by rw [hs]; decide)]

/-- A disable of a LOCKED loop ends what waits for it and begins to stop it. -/
theorem followApllEn_stops (he : s.on F.APLL_CTL_EN m = false) (hs : s.apllState m = 4) (fref : Nat) :
    s.followApllEn true false m fref = (s.apllQuit m).moveApll m ApllSt.stopping := by
  rw [followApllEn, he, if_neg (by decide), if_pos (show (true && !false) = true from rfl), if_neg (by rw [hs]; decide),
    if_neg (by rw [hs]; decide)]

/-- An enable of an OFF loop takes the word, starts the loop and concludes. -/
theorem apllCtlWrite_starts (he : s.on F.APLL_CTL_EN m = false) (hs : s.apllState m = 0) (ht : s.testing (0x60 + m) = false) (a : Acs)
    (w fref : Nat) : s.apllCtlWrite a m (setBit w 0 true) fref =
      (((s.apllCtlFields m (setBit w 0 true)).1.setApl m { s.apl m with fref := fref }).apllStart m).conclude a
        (s.apllCtlFields m (setBit w 0 true)).2 := by
  have h := onlyRegs_apllCtlFields (s := s) m (setBit w 0 true)
  have hst : (s.apllCtlFields m (setBit w 0 true)).1.apllState m = 0 := (h.2.rd rfl m).trans hs
  have hap : (s.apllCtlFields m (setBit w 0 true)).1.apl m = s.apl m := by rw [apl, apl, h.loop]
  rw [apllCtlWrite_eq, he, ht, followApllEn_starts (on_en_apllCtlFields m w true) hst, hap]

theorem apllStart_islandDown (h : s.islandOn (10 + m) = false) : s.apllStart m = (s.wr F.APLL_CTL_EN 0 m).raise 221 (10 + m) := by
  rw [apllStart, h]
  rfl

/-- A start that passes its checks goes to bypass and asks for a lock attempt. -/
theorem apllStart_passes (h : s.islandOn (10 + m) = true) (hc : s.apllCheck m = true) : ∃ a, s.apllStart m =
    (((s.setApl m a).wr F.APLL_STAT_REF_OK 1 m).setBypass m true).requestLock m := by
  rw [apllStart, h, hc, if_neg (by decide), if_neg (by decide)]
  exact ⟨_, rfl⟩

/-- What ends with a loop shows in the quiet group of its search only. -/
theorem loopOnly_apllQuit : LoopOnly s (s.apllQuit m) m [] quietShown := by
  unfold apllQuit dequeue
  exact (((((LoopOnly.refl s).setQueue (List.Subset.refl _) _ _).answered (answered_finishes _ _ _)).setApl m _).answered
    (Answered.finishAll _ _ _))

end State

/-! ### The commands of a loop -/

section
variable {s : State} {m : Nat}

theorem execApllEnable_admitted {req : Nat} (h : Admitted s req) (hm : m < 6) (w fref : Nat) : execApllEnable req m w fref s =
    done (s.apllCtlWrite ⟨req, 0xC000 + 0x40 * m, 2, true⟩ m (setBit w 0 true) fref).1 := by
  rw [execApllEnable, if_neg (by omega), State.put_admitted h]

theorem execApllDisable_admitted {req : Nat} (h : Admitted s req) (hm : m < 6) (w : Nat) : execApllDisable req m w s =
    done (s.apllCtlWrite ⟨req, 0xC000 + 0x40 * m, 2, true⟩ m (setBit w 0 false) 0).1 := by
  rw [execApllDisable, if_neg (by omega), State.put_admitted h]

section
variable {req w fref : Nat} (ha : Admitted s req) (hm : m < 6) (he : s.on F.APLL_CTL_EN m = false) (hs : s.apllState m = 0)
  (ht : s.testing (0x60 + m) = false)
include ha hm he hs ht

theorem apllEnable_islandDown_settles (hi : s.islandOn (10 + m) = false) : Settles (.apllEnable req m w fref) s (fun u =>
    u.on F.APLL_CTL_EN m = false ∧ u.apllState m = 0 ∧ Occ.mk 221 (10 + m) false ∈ u.fcu.occs ∧ u.mem = s.mem ∧ u.ridge = s.ridge) := by
  have hx := execApllEnable_admitted ha hm w fref
  rw [State.apllCtlWrite_starts he hs ht] at hx
  have h := State.onlyRegs_apllCtlFields (s := s) m (setBit w 0 true)
  generalize s.apllCtlFields m (setBit w 0 true) = r at hx h
  have hi' : (r.1.setApl m { s.apl m with fref := fref }).islandOn (10 + m) = false := (congrArg (· == 2) (h.2.rd rfl (10 + m))).trans hi
  rw [State.apllStart_islandDown hi'] at hx
  have h₁ := State.onlyRegsFcu_conclude (s := ((r.1.setApl m { s.apl m with fref := fref }).wr F.APLL_CTL_EN 0 m).raise 221 (10 + m))
    ⟨req, 0xC000 + 0x40 * m, 2, true⟩ r.2
  refine ⟨_, (exec_apllEnable req m w fref s).trans hx, ?_, ?_, ?_, h₁.mem.trans h.mem, h₁.ridge.trans h.ridge⟩
  · exact (h₁.2.on rfl m).trans (congrArg (· != 0) (State.rd_wr_same r.1 F.APLL_CTL_EN 0 m))
  · exact (h₁.2.rd rfl m).trans ((State.rd_wr_other r.1 (f := F.APLL_CTL_EN) (by decide) (by decide) (by decide) 0 m m).trans
      ((h.2.rd rfl m).trans hs))
  · exact State.occs_conclude _ _ _ (List.mem_append_right _ (.head _))

theorem apllEnable_manual_settles (hi : s.islandOn (10 + m) = true) (hb : s.on F.APLL_BAND_MAN m = true)
    (hc : (((s.fieldWrite noLock inRange State.apllCtlFlds m (setBit w 0 true)).1).setApl m { s.apl m with fref := fref }).apllCheck m = true) :
    Settles (.apllEnable req m w fref) s (fun u => u.on F.APLL_CTL_EN m = true ∧ u.apllState m = 3 ∧ u.on F.APLL_STAT_BYPASS m = true ∧
      u.rd F.APLL_STAT_BAND m = s.rd F.APLL_BAND_MAN_BAND m % 2 ^ F.APLL_STAT_BAND.w ∧ u.mem = s.mem ∧ u.ridge = s.ridge) := by
  have hx := execApllEnable_admitted ha hm w fref
  rw [State.apllCtlWrite_starts he hs ht] at hx
  rw [← State.apllCtlFields_open he hs ht] at hc
  have h := State.onlyRegs_apllCtlFields (s := s) m (setBit w 0 true)
  have hen := State.on_en_apllCtlFields (s := s) m w true
  generalize s.apllCtlFields m (setBit w 0 true) = r at hx hc h hen
  have hi' : (r.1.setApl m { s.apl m with fref := fref }).islandOn (10 + m) = true := (congrArg (· == 2) (h.2.rd rfl (10 + m))).trans hi
  obtain ⟨a, e⟩ := State.apllStart_passes hi' hc
  rw [e] at hx
  have h₁ : LoopOnly r.1 (((r.1.setApl m { s.apl m with fref := fref }).setApl m a).wr F.APLL_STAT_REF_OK 1 m) m [F.APLL_STAT_REF_OK] [] :=
    (((LoopOnly.refl r.1).setApl m _).setApl m a).wr (.head _) 1
  generalize ((r.1.setApl m { s.apl m with fref := fref }).setApl m a).wr F.APLL_STAT_REF_OK 1 m = t at hx h₁
  have h₂ := State.loopOnly_setBypass (s := t) (m := m) true
  have hby := State.on_setBypass (s := t) (m := m) true
  generalize t.setBypass m true = t₂ at hx h₂ hby
  have hman : t₂.on F.APLL_BAND_MAN m = true := (h₂.on rfl m).trans ((h₁.on rfl m).trans ((h.2.on rfl m).trans hb))
  have hband : t₂.rd F.APLL_BAND_MAN_BAND m = s.rd F.APLL_BAND_MAN_BAND m := (h₂.rd rfl m).trans ((h₁.rd rfl m).trans (h.2.rd rfl m))
  obtain ⟨h₃, hst, hbd⟩ := State.requestLock_facts hman
  have h₄ := State.onlyRegsFcu_conclude (s := t₂.requestLock m) ⟨req, 0xC000 + 0x40 * m, 2, true⟩ r.2
  refine ⟨_, (exec_apllEnable req m w fref s).trans hx, ?_, (h₄.2.rd rfl m).trans hst, ?_, ?_, ?_, ?_⟩
  · exact (h₄.2.on rfl m).trans ((h₃.on rfl m).trans ((h₂.on rfl m).trans ((h₁.on rfl m).trans hen)))
  · exact (h₄.2.on rfl m).trans ((h₃.on rfl m).trans hby)
  · exact (h₄.2.rd rfl m).trans (by rw [hbd, hband])
  · exact h₄.mem.trans (h₃.mem.trans (h₂.mem.trans (h₁.mem.trans h.mem)))
  · exact h₄.ridge.trans (h₃.ridge.trans (h₂.ridge.trans (h₁.ridge.trans h.ridge)))

end

theorem apllDisable_settles {req w : Nat} (ha : Admitted s req) (hm : m < 6) (he : s.on F.APLL_CTL_EN m = true) (hs : s.apllState m = 4)
    (ht : s.testing (0x60 + m) = false) : Settles (.apllDisable req m w) s (fun u => u.on F.APLL_CTL_EN m = false ∧ u.apllState m = 6 ∧
      u.mem = s.mem ∧ u.ridge = s.ridge) := by
  have hx := execApllDisable_admitted ha hm w
  have h := State.onlyRegs_apllCtlFields (s := s) m (setBit w 0 false)
  have hen := State.on_en_apllCtlFields (s := s) m w false
  have hst : (s.apllCtlFields m (setBit w 0 false)).1.apllState m = 4 := (h.2.rd rfl m).trans hs
  rw [State.apllCtlWrite_eq, he, ht, State.followApllEn_stops hen hst] at hx
  generalize s.apllCtlFields m (setBit w 0 false) = r at hx h hen
  have h₁ := State.loopOnly_apllQuit (s := r.1) (m := m)
  have h₂ := State.loopOnly_moveApll (s := r.1.apllQuit m) (m := m) ApllSt.stopping
  have h₃ := State.onlyRegsFcu_conclude (s := (r.1.apllQuit m).moveApll m ApllSt.stopping) ⟨req, 0xC000 + 0x40 * m, 2, true⟩ r.2
  refine ⟨_, (exec_apllDisable req m w s).trans hx, ?_, ?_, ?_, ?_⟩
  · exact (h₃.2.on rfl m).trans ((h₂.on rfl m).trans ((h₁.on rfl m).trans hen))
  · exact (h₃.2.rd rfl m).trans (State.apllState_moveApll (by decide))
  · exact h₃.mem.trans (h₂.mem.trans (h₁.mem.trans h.mem))
  · exact h₃.ridge.trans (h₂.ridge.trans (h₁.ridge.trans h.ridge))

/-- A loop that has stopped is open and off bypass, and none of its conditions is live. -/
def State.openLoop (s : State) (m : Nat) : State := (((s.wr F.APLL_STAT_LOCK 0 m).setBypass m false).condOff 68 m).condOff 70 m

theorem State.openLoop_facts : LoopOnly s (s.openLoop m) m [F.APLL_STAT_LOCK, F.APLL_STAT_BYPASS] bypassFlds ∧
    (s.openLoop m).on F.APLL_STAT_LOCK m = false ∧ (s.openLoop m).on F.APLL_STAT_BYPASS m = false := by
  have h₁ : LoopOnly s (s.wr F.APLL_STAT_LOCK 0 m) m [F.APLL_STAT_LOCK, F.APLL_STAT_BYPASS] bypassFlds := (LoopOnly.refl s).wr (.head _) 0
  have hl : (s.wr F.APLL_STAT_LOCK 0 m).on F.APLL_STAT_LOCK m = false := congrArg (· != 0) (rd_wr_same s F.APLL_STAT_LOCK 0 m)
  have h₂ := loopOnly_setBypass (s := s.wr F.APLL_STAT_LOCK 0 m) (m := m) false
  have hby := on_setBypass (s := s.wr F.APLL_STAT_LOCK 0 m) (m := m) false
  have h₃ : LoopOnly ((s.wr F.APLL_STAT_LOCK 0 m).setBypass m false) (s.openLoop m) m [] [] := ((LoopOnly.refl _).condOff 68 m).condOff 70 m
  exact ⟨((h₁.trans (h₂.mono (by simp))).condOff 68 m).condOff 70 m, (h₃.on rfl m).trans ((h₂.on rfl m).trans hl), (h₃.on rfl m).trans hby⟩

theorem apllStopDone_settles (hm : m < 6) (hs : s.apllState m = 6) (hr : s.isRunning Act.apllSearch m = false)
    (hp : s.on F.APLL_STAT_PENDING_ENABLE m = false) : Settles (.apllStopDone m) s (fun u => u.apllState m = 0 ∧
      u.on F.APLL_STAT_LOCK m = false ∧ u.on F.APLL_STAT_BYPASS m = false ∧ u.mem = s.mem ∧ u.ridge = s.ridge) := by
  obtain ⟨h₁, hl, hby⟩ := State.openLoop_facts (s := s) (m := m)
  have h₂ := State.loopOnly_moveApll (s := s.openLoop m) (m := m) ApllSt.off
  have hp' : ((s.openLoop m).moveApll m ApllSt.off).on F.APLL_STAT_PENDING_ENABLE m = false := (h₂.on rfl m).trans ((h₁.on rfl m).trans hp)
  have hx : execApllStopDone m s = done ((s.openLoop m).moveApll m ApllSt.off) :=
    (if_pos ⟨hm, hs, by rw [hr]; rfl⟩).trans (if_neg (ne_true_of_eq_false hp'))
  exact ⟨_, (exec_apllStopDone m s).trans hx, State.apllState_moveApll (by decide), (h₂.on rfl m).trans hl, (h₂.on rfl m).trans hby,
    h₂.mem.trans h₁.mem, h₂.ridge.trans h₁.ridge⟩

theorem bandSearch_settles {e : SortEntry} (hst : s.startable 0 = some e) (he : e.act = Act.apllSearch) : Settles .bandSearch s (fun u =>
    u.apllState e.tgt = 2 ∧ u.on F.APLL_STAT_LOCK e.tgt = false ∧ u.on F.APLL_STAT_BYPASS e.tgt = true ∧
    u.on F.TDC_STAT_MAINT_ACTIVE = true ∧ u.mem = s.mem ∧ u.ridge = s.ridge) := by
  have hx : execBandSearch s = done ((s.startEntry 0 e).beginSearch e) := by
    rw [execBandSearch, hst]
    exact if_pos he
  obtain ⟨h₁, hma⟩ := State.startEntry_facts (s := s) (m := e.tgt) e
  generalize s.startEntry 0 e = t at hx h₁ hma
  obtain ⟨a, ea⟩ := State.beginSearch_eq (s := t) e
  rw [ea] at hx
  have h₂ : LoopOnly t ((t.setApl e.tgt a).wr F.APLL_STAT_LOCK 0 e.tgt) e.tgt [F.APLL_STAT_LOCK] [] :=
    ((LoopOnly.refl t).setApl e.tgt a).wr (.head _) 0
  have hl : ((t.setApl e.tgt a).wr F.APLL_STAT_LOCK 0 e.tgt).on F.APLL_STAT_LOCK e.tgt = false :=
    congrArg (· != 0) (State.rd_wr_same _ F.APLL_STAT_LOCK 0 e.tgt)
  generalize (t.setApl e.tgt a).wr F.APLL_STAT_LOCK 0 e.tgt = t₂ at hx h₂ hl
  have h₃ := State.loopOnly_setBypass (s := t₂) (m := e.tgt) true
  have hby := State.on_setBypass (s := t₂) (m := e.tgt) true
  have h₄ := State.loopOnly_moveApll (s := t₂.setBypass e.tgt true) (m := e.tgt) ApllSt.search
  refine ⟨_, (exec_bandSearch s).trans hx, State.apllState_moveApll (by decide), ?_, (h₄.on rfl _).trans hby, ?_, ?_, ?_⟩
  · exact (h₄.on rfl _).trans ((h₃.on rfl _).trans hl)
  · exact (h₄.on rfl 0).trans ((h₃.on rfl 0).trans ((h₂.on rfl 0).trans hma))
  · exact h₄.mem.trans (h₃.mem.trans (h₂.mem.trans h₁.mem))
  · exact h₄.ridge.trans (h₃.ridge.trans (h₂.ridge.trans h₁.ridge))

theorem bandSearchDone_settles {cnt : List (Nat × Nat)} {e : SortEntry} (hq : s.quietRun 0 = some e) (he : e.act = Act.apllSearch)
    (hs : s.apllState e.tgt = 2) : Settles (.bandSearchDone cnt) s (fun u => u.apllState e.tgt =
      (if 1000 < |(countOf cnt (chosenBand cnt (s.searchTarget e.tgt)) : Rat) - s.searchTarget e.tgt| then 1 else 3) ∧
      u.rd F.APLL_STAT_BAND e.tgt = chosenBand cnt (s.searchTarget e.tgt) % 2 ^ F.APLL_STAT_BAND.w ∧ u.quietRun 0 = none ∧
      u.mem = s.mem ∧ u.ridge = s.ridge) := by
  have hx : execBandSearchDone cnt s = done (s.endSearch e.tgt cnt) := by
    rw [execBandSearchDone, hq]
    exact if_pos he
  obtain ⟨t, code, h₁, hb, hso, ee⟩ := State.endSearch_eq (s := s) (m := e.tgt) cnt
  rw [ee] at hx
  obtain ⟨h₂, hf⟩ := State.endEntry_facts (m := e.tgt) ((State.quietRun_congr hso 0).trans hq) code
    (chosenBand cnt (s.searchTarget e.tgt)) (countOf cnt (chosenBand cnt (s.searchTarget e.tgt)))
  generalize t.endEntry 0 code (chosenBand cnt (s.searchTarget e.tgt)) (countOf cnt (chosenBand cnt (s.searchTarget e.tgt))) false = t₂
    at hx h₂ hf
  have hst : t₂.apllState e.tgt = 2 := (h₂.rd rfl _).trans ((h₁.rd rfl _).trans hs)
  obtain ⟨h₃, hst', hq'⟩ := State.followSearch_facts hst
    (1000 < |(countOf cnt (chosenBand cnt (s.searchTarget e.tgt)) : Rat) - s.searchTarget e.tgt|)
  refine ⟨_, (exec_bandSearchDone cnt s).trans hx, hst', ?_, hq'.trans hf, ?_, ?_⟩
  · exact (h₃.rd rfl _).trans ((h₂.rd rfl _).trans hb)
  · exact h₃.mem.trans (h₂.mem.trans h₁.mem)
  · exact h₃.ridge.trans (h₂.ridge.trans h₁.ridge)

theorem searchRetry_settles (hm : m < 6) (hs : s.apllState m = 1) (hw : (s.apl m).waiting = true) (hb : s.on F.APLL_BAND_MAN m = true) :
    Settles (.searchRetry m) s (fun u => u.apllState m = 3 ∧
      u.rd F.APLL_STAT_BAND m = s.rd F.APLL_BAND_MAN_BAND m % 2 ^ F.APLL_STAT_BAND.w ∧ u.mem = s.mem ∧ u.ridge = s.ridge) := by
  have hx : execSearchRetry m s = done (s.requestLock m) := if_pos ⟨hm, hs, hw⟩
  obtain ⟨h, hst, hbd⟩ := State.requestLock_facts hb
  exact ⟨_, (exec_searchRetry m s).trans hx, hst, hbd, h.mem, h.ridge⟩

theorem apllLock_settles (hm : m < 6) (hs : s.apllState m = 3) (hc : (s.apl m).cmds = []) : Settles (.apllLock m) s (fun u =>
    u.apllState m = 4 ∧ u.on F.APLL_STAT_LOCK m = true ∧ u.mem = s.mem ∧ u.ridge = s.ridge ∧
    (∀ k, k ≠ m → u.apllState k = s.apllState k)) := by
  obtain ⟨a, hx⟩ : ∃ a, execApllLock m s = done ((((s.setApl m a).wr F.APLL_STAT_LOCK 1 m).condOff 68 m).moveApll m ApllSt.locked) := by
    unfold execApllLock
    rw [if_pos ⟨hm, hs⟩, hc]
    exact ⟨_, rfl⟩
  have h₁ : LoopOnly s (((s.setApl m a).wr F.APLL_STAT_LOCK 1 m).condOff 68 m) m [F.APLL_STAT_STATE, F.APLL_STAT_LOCK] [] :=
    (((LoopOnly.refl s).setApl m a).wr (.tail _ (.head _)) 1).condOff 68 m
  have hl : (((s.setApl m a).wr F.APLL_STAT_LOCK 1 m).condOff 68 m).on F.APLL_STAT_LOCK m = true :=
    congrArg (· != 0) (State.rd_wr_same (s.setApl m a) F.APLL_STAT_LOCK 1 m)
  generalize ((s.setApl m a).wr F.APLL_STAT_LOCK 1 m).condOff 68 m = t at hx h₁ hl
  have h₂ := State.loopOnly_moveApll (s := t) (m := m) ApllSt.locked
  have h := h₁.trans (h₂.mono (by simp))
  exact ⟨_, (exec_apllLock m s).trans hx, State.apllState_moveApll (by decide), (h₂.on rfl m).trans hl, h.mem, h.ridge,
    fun k => h.rd_other rfl rfl⟩

/-- The fields in which a loss of lock shows, bypass apart. -/
def lossFlds : List Fld := [F.APLL_STAT_LOCK, F.APLL_STAT_REF_OK, F.APLL_CNT_LOL]

/-- A loop that loses lock opens, and counts it. -/
def State.loseLock (s : State) (m : Nat) (refLost : Bool) : State :=
  let s := s.wr F.APLL_STAT_LOCK 0 m
  let s := if refLost then s.wr F.APLL_STAT_REF_OK 0 m else s
  s.inc F.APLL_CNT_LOL m

theorem State.loseLock_facts (refLost : Bool) : LoopOnly s (s.loseLock m refLost) m lossFlds [] ∧
    (s.loseLock m refLost).on F.APLL_STAT_LOCK m = false ∧ (refLost = true → (s.loseLock m refLost).on F.APLL_STAT_REF_OK m = false) := by
  have h₁ : LoopOnly s (s.wr F.APLL_STAT_LOCK 0 m) m lossFlds [] := (LoopOnly.refl s).wr (.head _) 0
  have hl : (s.wr F.APLL_STAT_LOCK 0 m).on F.APLL_STAT_LOCK m = false := congrArg (· != 0) (State.rd_wr_same s F.APLL_STAT_LOCK 0 m)
  generalize hg : s.wr F.APLL_STAT_LOCK 0 m = t at h₁ hl
  have hcnt (t : State) : LoopOnly t (t.inc F.APLL_CNT_LOL m) m [F.APLL_CNT_LOL] [] := (LoopOnly.refl t).wr (.head _) _
  unfold loseLock
  dsimp only
  rw [hg]
  cases refLost with
  | false => exact ⟨h₁.trans ((hcnt t).mono (by simp [lossFlds])), ((hcnt t).on rfl m).trans hl, nofun⟩
  | true =>
    have h₂ : LoopOnly t (t.wr F.APLL_STAT_REF_OK 0 m) m [F.APLL_STAT_REF_OK] [] := (LoopOnly.refl t).wr (.head _) 0
    refine ⟨h₁.trans ((h₂.mono (by simp [lossFlds])).trans ((hcnt _).mono (by simp [lossFlds]))), ?_, fun _ => ?_⟩
    · exact ((hcnt _).on rfl m).trans ((h₂.on rfl m).trans hl)
    · exact ((hcnt _).on rfl m).trans (congrArg (· != 0) (State.rd_wr_same t F.APLL_STAT_REF_OK 0 m))

theorem apllLossOfLock_settles (refLost : Bool) (hm : m < 6) (hs : s.apllState m = 4) : Settles (.apllLossOfLock m refLost) s (fun u =>
    u.apllState m = 5 ∧ u.on F.APLL_STAT_LOCK m = false ∧ u.on F.APLL_STAT_BYPASS m = true ∧ u.isLive (if refLost then 70 else 68) = true ∧
    (refLost = true → u.on F.APLL_STAT_REF_OK m = false) ∧ u.mem = s.mem ∧ u.ridge = s.ridge) := by
  obtain ⟨a, hx⟩ : ∃ a, execApllLossOfLock m refLost s = done (((((s.loseLock m refLost).setBypass m true).setApl m a).moveApll m
      ApllSt.bypass).condOn (if refLost then 70 else 68) m) := by
    unfold execApllLossOfLock
    rw [if_pos ⟨hm, .inl hs⟩]
    exact ⟨_, rfl⟩
  obtain ⟨h₁, hl, href⟩ := State.loseLock_facts (s := s) (m := m) refLost
  generalize s.loseLock m refLost = t at hx h₁ hl href
  have h₂ := State.loopOnly_setBypass (s := t) (m := m) true
  have hby := State.on_setBypass (s := t) (m := m) true
  generalize t.setBypass m true = t₂ at hx h₂ hby
  have h₃ : LoopOnly t₂ ((t₂.setApl m a).moveApll m ApllSt.bypass) m [F.APLL_STAT_STATE] [] :=
    ((LoopOnly.refl t₂).setApl m a).trans (State.loopOnly_moveApll _)
  have hst : ((t₂.setApl m a).moveApll m ApllSt.bypass).apllState m = 5 := State.apllState_moveApll (by decide)
  generalize (t₂.setApl m a).moveApll m ApllSt.bypass = t₃ at hx h₃ hst
  have h₄ : LoopOnly t₃ (t₃.condOn (if refLost then 70 else 68) m) m [] [] := (LoopOnly.refl t₃).condOn _ _
  refine ⟨_, (exec_apllLossOfLock m refLost s).trans hx, (h₄.rd rfl m).trans hst, ?_, ?_, State.isLive_condOn _ _, fun hr => ?_, ?_, ?_⟩
  · exact (h₄.on rfl m).trans ((h₃.on rfl m).trans ((h₂.on rfl m).trans hl))
  · exact (h₄.on rfl m).trans ((h₃.on rfl m).trans hby)
  · exact (h₄.on rfl m).trans ((h₃.on rfl m).trans ((h₂.on rfl m).trans (href hr)))
  · exact h₄.mem.trans (h₃.mem.trans (h₂.mem.trans h₁.mem))
  · exact h₄.ridge.trans (h₃.ridge.trans (h₂.ridge.trans h₁.ridge))

theorem apllRefReturn_settles (hm : m < 6) (hs : s.apllState m = 5) (hb : s.on F.APLL_BAND_MAN m = true) : Settles (.apllRefReturn m) s
    (fun u => u.apllState m = 3 ∧ u.on F.APLL_STAT_REF_OK m = true ∧ u.mem = s.mem ∧ u.ridge = s.ridge) := by
  have hx : execApllRefReturn m s = done (((s.wr F.APLL_STAT_REF_OK 1 m).condOff 70 m).requestLock m) := if_pos ⟨hm, hs⟩
  have h₁ : LoopOnly s ((s.wr F.APLL_STAT_REF_OK 1 m).condOff 70 m) m [F.APLL_STAT_REF_OK] [] :=
    ((LoopOnly.refl s).wr (.head _) 1).condOff 70 m
  have href : ((s.wr F.APLL_STAT_REF_OK 1 m).condOff 70 m).on F.APLL_STAT_REF_OK m = true :=
    congrArg (· != 0) (State.rd_wr_same s F.APLL_STAT_REF_OK 1 m)
  generalize (s.wr F.APLL_STAT_REF_OK 1 m).condOff 70 m = t at hx h₁ href
  obtain ⟨h₂, hst, -⟩ := State.requestLock_facts (s := t) ((h₁.on rfl m).trans hb)
  exact ⟨_, (exec_apllRefReturn m s).trans hx, hst, (h₂.on rfl m).trans href, h₂.mem.trans h₁.mem, h₂.ridge.trans h₁.ridge⟩

/-- A return takes a loop off bypass and changes neither its state nor memory nor the ridges. -/
theorem State.apllReturn_facts : (s.apllReturn m).on F.APLL_STAT_BYPASS m = false ∧ (s.apllReturn m).apllState m = s.apllState m ∧
    (s.apllReturn m).mem = s.mem ∧ (s.apllReturn m).ridge = s.ridge := by
  have h := State.loopOnly_setBypass (s := s.setApl m { s.apl m with first := false }) (m := m) false
  exact ⟨State.on_setBypass false, h.rd rfl m, h.mem, h.ridge⟩

theorem bypassReturn_settles (hm : m < 6) (hs : s.apllState m = 4) (hb : s.on F.APLL_STAT_BYPASS m = true)
    (hr : s.on F.APLL_CTL_AUTO_RET m = true) : Settles (.bypassReturn m) s (fun u => u.on F.APLL_STAT_BYPASS m = false ∧
      u.apllState m = 4 ∧ u.mem = s.mem ∧ u.ridge = s.ridge) := by
  obtain ⟨hby, hst, hme, hri⟩ := State.apllReturn_facts (s := s) (m := m)
  exact ⟨_, (exec_bypassReturn m s).trans (if_pos ⟨hm, hs, hb, .inl hr⟩), hby, hst.trans hs, hme, hri⟩

theorem apllReturn_replies (c : CmdRef) {w0 : Nat} (hm : bits w0 0 3 < 6) (hs : s.apllState (bits w0 0 3) = 4)
    (hb : s.on F.APLL_STAT_BYPASS (bits w0 0 3) = true) : Replies (.apllReturn c w0) s c (fun u =>
      u.on F.APLL_STAT_BYPASS (bits w0 0 3) = false ∧ u.apllState (bits w0 0 3) = 4 ∧ u.mem = s.mem ∧ u.ridge = s.ridge) := by
  obtain ⟨hby, hst, hme, hri⟩ := State.apllReturn_facts (s := s) (m := bits w0 0 3)
  exact ⟨s.apllReturn (bits w0 0 3), 0, 0, 0, (exec_apllReturn c w0 s).trans (if_pos ⟨hm, hs, hb⟩), hby, hst.trans hs, hme, hri⟩

theorem apllReturn_refused (c : CmdRef) {w0 : Nat} (hs : s.apllState (bits w0 0 3) ≠ 4) : Refuses (.apllReturn c w0) s c Code.badParam :=
  (exec_apllReturn c w0 s).trans (if_neg fun ⟨_, h, _⟩ => hs h)

end

/-- Settles O18: one lemma for each way in which a loop starts, stops, searches, locks, falls to bypass and returns. -/
theorem analogueLoopsSearchLockAndBypass : Obligations.AnalogueLoopsSearchLockAndBypass :=
  ⟨fun _ _ _ _ _ ha hm he hs ht => apllEnable_islandDown_settles ha hm he hs ht,
    fun _ _ _ _ _ ha hm he hs ht => apllEnable_manual_settles ha hm he hs ht, fun _ _ _ _ => apllDisable_settles,
    fun _ _ => apllStopDone_settles, fun _ _ hst he _ => bandSearch_settles hst he,
    fun _ _ _ _ hq he _ => bandSearchDone_settles hq he, fun _ _ => searchRetry_settles, fun _ _ => apllLock_settles,
    fun _ _ refLost => apllLossOfLock_settles refLost, fun _ _ => apllRefReturn_settles, fun _ _ => bypassReturn_settles,
    fun _ c _ => apllReturn_replies c, fun _ c _ => apllReturn_refused c⟩

end Sys2Proof.Machine

/-! ## The receiver: the rules of its channels (spec/06_gnss_receiver.md)

What the receiver may change, and what a channel that takes a new state or queues a search leaves alone, each said once. -/

namespace Sys2Proof.Machine

/-! ### Frames -/

/-- Between `s` and `u` only the channels, the searches that wait and CH_TRACK have changed. -/
def ChOnly (s u : State) : Prop :=
  { s with regs := u.regs, gnss := { s.gnss with ch := u.gnss.ch, queue := u.gnss.queue } } = u ∧ RegsBut s u [(F.GNSS_STAT_CH_TRACK, 0)]

namespace ChOnly
variable {s t u : State}

theorem refl (s : State) : ChOnly s s := ⟨rfl, .refl s _⟩

theorem trans (h : ChOnly s t) (k : ChOnly t u) : ChOnly s u := ⟨by rw [← k.1, ← h.1], h.2.trans k.2⟩

/-- Any change of the channels and of the searches that wait keeps the frame, and so does what it shows in CH_TRACK. -/
theorem setChannels (s : State) (l : List GnssCh) (q : List Nat) : ChOnly s (s.setGnss { s.gnss with ch := l, queue := q }) :=
  ⟨rfl, .same (.refl s _) rfl⟩

theorem showCh (s : State) : ChOnly s s.showCh := ⟨rfl, (RegsBut.refl s _).wr (.head _) _⟩

theorem setCh (s : State) (c : GnssCh) : ChOnly s (s.setCh c) := (setChannels s _ s.gnss.queue).trans (.showCh _)

theorem queueSearch (s : State) (c : GnssCh) (cls : Nat) : ChOnly s (s.queueSearch c cls) :=
  (setCh s _).trans (setChannels _ (s.setCh _).gnss.ch _)

theorem foldl {α : Type} {f : State → α → State} (hf : ∀ t x, ChOnly t (f t x)) (xs : List α) (s : State) :
    ChOnly s (xs.foldl f s) := by
  induction xs generalizing s with
  | nil => exact .refl s
  | cons x xs ih => exact (hf s x).trans (ih _)

theorem gnss (h : ChOnly s u) : u.gnss = { s.gnss with ch := u.gnss.ch, queue := u.gnss.queue } := by rw [← h.1]
theorem mem (h : ChOnly s u) : u.mem = s.mem := by rw [← h.1]
theorem ridge (h : ChOnly s u) : u.ridge = s.ridge := by rw [← h.1]
theorem fcu (h : ChOnly s u) : u.fcu = s.fcu := by rw [← h.1]

/-- The state apart from the registers and the receiver is the same. -/
theorem rest (h : ChOnly s u) : { s with regs := u.regs, gnss := u.gnss } = u := by rw [← h.1]

end ChOnly

/-! ### Channels -/

/-- A channel that is put in a list is the one found under its number. -/
theorem find_putCh_same (c : GnssCh) (l : List GnssCh) : (putCh c l).find? (fun d => d.no == c.no) = some c := by
  induction l with
  | nil => simp [putCh]
  | cons d t ih =>
    unfold putCh
    split_ifs with h₁ h₂
    · simp
    · simp
    · rw [List.find?_cons_of_neg (by simpa using Ne.symm h₂), ih]

/-- A channel that is put in a list changes no other. -/
theorem find_putCh_other (c : GnssCh) {no : Nat} (h : no ≠ c.no) (l : List GnssCh) :
    (putCh c l).find? (fun d => d.no == no) = l.find? (fun d => d.no == no) := by
  have hc : ¬(c.no == no) = true := by simpa using Ne.symm h
  induction l with
  | nil => simp [putCh, Ne.symm h]
  | cons d t ih =>
    unfold putCh
    split_ifs with h₁ h₂
    · rw [List.find?_cons_of_neg (by exact hc)]
    · rw [List.find?_cons_of_neg (by exact hc), List.find?_cons_of_neg (by rwa [← h₂])]
    · rw [List.find?_cons, List.find?_cons, ih]

namespace State
variable {s : State} {no : Nat} {g : GnssCh}

theorem no_of_gch (h : s.gch no = some g) : g.no = no := by simpa using List.find?_some h

theorem gch_setCh (c : GnssCh) : (s.setCh c).gch c.no = some c := find_putCh_same c _

theorem gch_setCh_other (c : GnssCh) (h : no ≠ c.no) : (s.setCh c).gch no = s.gch no := find_putCh_other c h _

theorem gch_queueSearch (c : GnssCh) (cls : Nat) :
    (s.queueSearch c cls).gch c.no = some { c with st := Ch.search, cls := cls, lockCnt := 0 } :=
  gch_setCh { c with st := Ch.search, cls := cls, lockCnt := 0 }

theorem queue_queueSearch (c : GnssCh) (cls : Nat) :
    (s.queueSearch c cls).gnss.queue = s.gnss.queue.filter (fun n => n != c.no) ++ [c.no] := rfl

/-- What a channel does in its state is done. -/
theorem ifCh_of (h : s.gch no = some g) {st : Nat} (hs : g.st = st) (f : GnssCh → State) : s.ifCh no st f = f g := by
  rw [ifCh, h]
  exact if_pos hs

end State
end Sys2Proof.Machine

/-! ## Channels that search, pull in, lock and lose their signal (R222 to R225, Table GNSS-2) -/

namespace Sys2Proof.Machine

theorem exec_acqSearchDone (found : Bool) (s : State) : exec (.acqSearchDone found) s = execAcqSearchDone found s := rfl
theorem exec_channelPullInDone (no : Nat) (s : State) : exec (.channelPullInDone no) s = execChannelPullInDone no s := rfl
theorem exec_channelPullInTimeout (no : Nat) (s : State) : exec (.channelPullInTimeout no) s = execChannelPullInTimeout no s := rfl
theorem exec_channelPhaseLock (no : Nat) (s : State) : exec (.channelPhaseLock no) s = execChannelPhaseLock no s := rfl
theorem exec_channelPhaseUnlock (no : Nat) (s : State) : exec (.channelPhaseUnlock no) s = execChannelPhaseUnlock no s := rfl
theorem exec_channelLost (no : Nat) (s : State) : exec (.channelLost no) s = execChannelLost no s := rfl
theorem exec_gnssChAssign (c : CmdRef) (w0 : Nat) (s : State) : exec (.gnssChAssign c w0) s = execGnssChAssign c w0 s := rfl
theorem exec_autoAssign (vis : List (Nat × Nat × Nat)) (s : State) : exec (.autoAssign vis) s = execAutoAssign vis s := rfl

section
variable {s : State} {no : Nat} {g : GnssCh}

/-- The searches that wait become `q`. -/
def State.setSearches (s : State) (q : List Nat) : State := s.setGnss { s.gnss with queue := q }

theorem State.chOnly_setSearches (q : List Nat) : ChOnly s (s.setSearches q) := .setChannels s s.gnss.ch q

/-- The search in progress, taken out of those that wait. -/
def State.takeSearch (s : State) (g : GnssCh) : State := s.setSearches (s.gnss.queue.filter (· != g.no))

theorem acqSearchDone_found_settles (h : s.nextSearch = some g) : Settles (.acqSearchDone true) s (fun u =>
    u.gch g.no = some { g with st := 2 } ∧ u.gnss.queue = s.gnss.queue.filter (fun n => n != g.no) ∧
    { s with regs := u.regs, gnss := u.gnss } = u ∧ RegsBut s u [(F.GNSS_STAT_CH_TRACK, 0)]) := by
  have hx : execAcqSearchDone true s = done ((s.takeSearch g).setCh { g with st := Ch.pullIn }) := by
    rw [execAcqSearchDone, h]
    rfl
  have k := (State.chOnly_setSearches _).trans (.setCh (s.takeSearch g) { g with st := Ch.pullIn })
  exact ⟨_, (exec_acqSearchDone true s).trans hx, State.gch_setCh { g with st := Ch.pullIn }, rfl, k.rest, k.2⟩

theorem acqSearchDone_failed_settles (h : s.nextSearch = some g) : Settles (.acqSearchDone false) s (fun u =>
    u.gch g.no = some { g with st := 1, cls := min 2 (g.cls + 1), lockCnt := 0 } ∧
    u.gnss.queue = s.gnss.queue.filter (fun n => n != g.no) ++ [g.no] ∧ { s with regs := u.regs, gnss := u.gnss } = u ∧
    RegsBut s u [(F.GNSS_STAT_CH_TRACK, 0)]) := by
  have hx : execAcqSearchDone false s = done ((s.takeSearch g).queueSearch g (min 2 (g.cls + 1))) := by
    rw [execAcqSearchDone, h]
    rfl
  have hq : ((s.takeSearch g).queueSearch g (min 2 (g.cls + 1))).gnss.queue = s.gnss.queue.filter (fun n => n != g.no) ++ [g.no] := by
    rw [State.queue_queueSearch, State.takeSearch, State.setSearches, State.setGnss, List.filter_filter]
    simp only [Bool.and_self]
  have k := (State.chOnly_setSearches _).trans (.queueSearch (s.takeSearch g) g (min 2 (g.cls + 1)))
  exact ⟨_, (exec_acqSearchDone false s).trans hx, State.gch_queueSearch g _, hq, k.rest, k.2⟩

/-- A channel that takes a new state, and nothing else, is found in it. -/
theorem setCh_settled (h : s.gch no = some g) {c : GnssCh} (hc : c.no = g.no) : (s.setCh c).gch no = some c ∧
    { s with regs := (s.setCh c).regs, gnss := { s.gnss with ch := (s.setCh c).gnss.ch } } = s.setCh c ∧
    RegsBut s (s.setCh c) [(F.GNSS_STAT_CH_TRACK, 0)] := by
  rw [← State.no_of_gch h, ← hc]
  exact ⟨State.gch_setCh c, rfl, (ChOnly.setCh s c).2⟩

/-- A channel that queues a search is found in SEARCH, and last of those that wait. -/
theorem queueSearch_settled (h : s.gch no = some g) {c : GnssCh} (hc : c.no = g.no) (cls : Nat) :
    (s.queueSearch c cls).gch no = some { c with st := 1, cls := cls, lockCnt := 0 } ∧
    (s.queueSearch c cls).gnss.queue = s.gnss.queue.filter (fun n => n != no) ++ [no] ∧
    { s with regs := (s.queueSearch c cls).regs,
             gnss := { s.gnss with ch := (s.queueSearch c cls).gnss.ch, queue := (s.queueSearch c cls).gnss.queue } } =
      s.queueSearch c cls ∧
    RegsBut s (s.queueSearch c cls) [(F.GNSS_STAT_CH_TRACK, 0)] := by
  rw [← State.no_of_gch h, ← hc]
  exact ⟨State.gch_queueSearch c cls, rfl, (ChOnly.queueSearch s c cls).1, (ChOnly.queueSearch s c cls).2⟩

theorem execChannelLost_of (h : s.gch no = some g) (hs : g.st = 3 ∨ g.st = 4) :
    execChannelLost no s = done (s.queueSearch { g with slip := g.slip || g.st == Ch.pll } 0) := by
  rw [execChannelLost, h]
  exact if_pos hs

theorem gnssChAssign_settles (c : CmdRef) {w0 : Nat} (hn : bits w0 0 9 < 384)
    (hs : bits w0 12 4 = 15 ∨ s.sigOn (bits w0 9 1) (bits w0 10 2) (bits w0 12 4) = true) : Settles (.gnssChAssign c w0) s (fun u => u =
      { s with gnss := { s.gnss with assigns := s.gnss.assigns ++
        [⟨some c, bits w0 0 9, bits w0 9 1, bits w0 10 2, bits w0 12 4, bits w0 16 8⟩] } }) := by
  refine ⟨_, (exec_gnssChAssign c w0 s).trans (if_neg ?_), rfl⟩
  rintro (h | ⟨h₁, h₂⟩)
  · omega
  · obtain hs | hs := hs
    · exact h₁ hs
    · rw [hs] at h₂
      exact Bool.false_ne_true h₂

theorem gnssChAssign_refused (c : CmdRef) {w0 : Nat} (hn : 384 ≤ bits w0 0 9) : Refuses (.gnssChAssign c w0) s c Code.badParam :=
  (exec_gnssChAssign c w0 s).trans (if_pos (.inl hn))

end

/-! ### Automatic assignment (R224) -/

/-- Between `s` and `u` automatic assignments alone have joined those that wait, with the fault that may come of it. -/
def OnlyStaged (s u : State) : Prop :=
  s.gnss.assigns <+: u.gnss.assigns ∧ (∀ q ∈ u.gnss.assigns, q ∈ s.gnss.assigns ∨ q.cmd = none) ∧
  { s with gnss := { s.gnss with assigns := u.gnss.assigns }, fcu := u.fcu } = u

namespace OnlyStaged
variable {s t u : State}

theorem refl (s : State) : OnlyStaged s s := ⟨List.prefix_rfl, fun _ h => .inl h, rfl⟩

theorem trans (h : OnlyStaged s t) (k : OnlyStaged t u) : OnlyStaged s u :=
  ⟨h.1.trans k.1, fun q hq => (k.2.1 q hq).elim (h.2.1 q) .inr, by rw [← k.2.2, ← h.2.2]⟩

theorem stage (s : State) {q : ChAssign} (hq : q.cmd = none) :
    OnlyStaged s (s.setGnss { s.gnss with assigns := s.gnss.assigns ++ [q] }) :=
  ⟨List.prefix_append _ _, fun p hp => (List.mem_append.mp hp).imp_right fun h => by rw [List.mem_singleton.mp h, hq], rfl⟩

theorem raise (s : State) (fs n : Nat) : OnlyStaged s (s.raise fs n) := ⟨List.prefix_rfl, fun _ h => .inl h, rfl⟩

/-- A wanted channel that is served stages one assignment at most. -/
theorem serveWant (keep : GnssCh → Bool) (r : State × Bool) (w : Nat × Nat × Nat × Nat) :
    OnlyStaged r.1 (State.serveWant keep r w).1 := by
  unfold State.serveWant
  dsimp only
  split
  · exact .refl _
  · split
    · exact stage _ rfl
    · exact .refl _

theorem serveWants (keep : GnssCh → Bool) (l : List (Nat × Nat × Nat × Nat)) (r : State × Bool) :
    OnlyStaged r.1 (l.foldl (State.serveWant keep) r).1 := by
  induction l generalizing r with
  | nil => exact .refl _
  | cons w t ih => exact (serveWant keep r w).trans (ih _)

end OnlyStaged

theorem autoAssign_settles {s : State} (vis : List (Nat × Nat × Nat)) (ha : s.rxActive = true) (hc : s.on F.GNSS_CTL_AUTO_CH = true) :
    Settles (.autoAssign vis) s (OnlyStaged s) := by
  rw [Settles, exec_autoAssign]
  unfold execAutoAssign
  rw [ha, hc, if_neg (by decide)]
  extract_lets room all pinned open' served keep r
  have h : OnlyStaged s r.1 := OnlyStaged.serveWants keep served (s, _)
  refine ⟨_, rfl, ?_⟩
  split
  · exact h.trans (.raise _ 91 0)
  · exact h

/-- Settles O20: a channel that moves takes its new state or queues a search, and an assignment only waits. -/
theorem trackingChannelsSearchPullInAndLock : Obligations.TrackingChannelsSearchPullInAndLock := by
  refine ⟨fun _ _ => acqSearchDone_found_settles, fun _ _ => acqSearchDone_failed_settles, fun s no g h hs => ?_, fun s no g h hs => ?_,
    fun s no g h hs => ?_, fun s no g h hs => ?_, fun s no g h hs => ?_, fun _ c _ => gnssChAssign_settles c,
    fun _ c _ => gnssChAssign_refused c, fun _ vis => autoAssign_settles vis⟩
  · exact ⟨_, (exec_channelPullInDone no s).trans (congrArg done (State.ifCh_of h hs _)), setCh_settled h rfl⟩
  · exact ⟨_, (exec_channelPullInTimeout no s).trans (congrArg done (State.ifCh_of h hs _)), queueSearch_settled h rfl g.cls⟩
  · exact ⟨_, (exec_channelPhaseLock no s).trans (congrArg done (State.ifCh_of h hs _)), setCh_settled h rfl⟩
  · exact ⟨_, (exec_channelPhaseUnlock no s).trans (congrArg done (State.ifCh_of h hs _)), setCh_settled h rfl⟩
  · exact ⟨_, (exec_channelLost no s).trans (execChannelLost_of h hs),
      queueSearch_settled h (c := { g with slip := g.slip || g.st == Ch.pll }) rfl 0⟩

end Sys2Proof.Machine

/-! ## The receiver: the rules of its streams and its verdict

What the receiver may change besides its channels, and what the start of its streams, a change of its verdict, of its mode and of its
memory windows leave alone, each said once. -/

namespace Sys2Proof.Machine

/-! ### Frames -/

/-- Between `s` and `u` the receiver has changed the fields `fs` and what it keeps without a register; faults, events, completions and
what is sent to the front ends may have come of it. -/
structure RxOnly (s u : State) (fs : List Fld) : Prop where
  rest : { s with regs := u.regs, gnss := u.gnss, out := u.out, fcu := u.fcu, host := u.host, nor := u.nor, bootCpl := u.bootCpl } = u
  regs : ∀ f i, f.off (answerFlds ++ fs) = true → u.rd f i = s.rd f i

namespace RxOnly
variable {s t u : State} {fs : List Fld}

theorem refl (s : State) (fs : List Fld) : RxOnly s s fs := ⟨rfl, fun _ _ _ => rfl⟩

theorem trans (h : RxOnly s t fs) (k : RxOnly t u fs) : RxOnly s u fs :=
  ⟨by rw [← k.rest, ← h.rest], fun f i hf => (k.regs f i hf).trans (h.regs f i hf)⟩

theorem mono (h : RxOnly s u fs) {gs : List Fld} (hs : fs ⊆ gs) : RxOnly s u gs :=
  ⟨h.rest, fun f i hf => h.regs f i (Fld.off_of_subset hf fun _ hg =>
    List.mem_append.mpr ((List.mem_append.mp hg).imp_right fun hg => hs hg))⟩

theorem wr (h : RxOnly s u fs) {g : Fld} (hg : g ∈ fs) (v j : Nat) : RxOnly s (u.wr g v j) fs :=
  h.trans ⟨rfl, fun _ i hf => State.rd_wr_off u (Fld.off_append hf).2 hg v i j⟩

/-- A change of the receiver's hidden state, of the outputs and of the fault collector keeps the frame. -/
theorem same (h : RxOnly s t fs) (e : { t with gnss := u.gnss, out := u.out, fcu := u.fcu } = u) : RxOnly s u fs :=
  h.trans ⟨by rw [← e], fun f i _ => State.rd_of_regs (by rw [← e]) f i⟩

theorem condOn (h : RxOnly s u fs) (n k : Nat) : RxOnly s (u.condOn n k) fs := h.same (by rw [← condOn_eq])

theorem answered (h : RxOnly s t fs) (k : Answered t u) : RxOnly s u fs :=
  h.trans ⟨by rw [← k.1], fun _ i hf => have ha := (Fld.off_append hf).1
    k.rd (Fld.lt_of_off ha) (fun _ hg => (Fld.ne_of_off ha hg).2) i⟩

theorem of_chOnly (h : ChOnly s u) : RxOnly s u [F.GNSS_STAT_CH_TRACK] :=
  ⟨by rw [← h.1], fun _ i hf => h.2.rd (Fld.off_append hf).2 i⟩

theorem foldl {α : Type} {f : State → α → State} (hf : ∀ t x, RxOnly t (f t x) fs) (xs : List α) (s : State) :
    RxOnly s (xs.foldl f s) fs := by
  induction xs generalizing s with
  | nil => exact .refl s fs
  | cons x xs ih => exact (hf s x).trans (ih _)

theorem rd (h : RxOnly s u fs) {f : Fld} (hf : f.off (answerFlds ++ fs) = true) (i : Nat) : u.rd f i = s.rd f i := h.regs f i hf
theorem on (h : RxOnly s u fs) {f : Fld} (hf : f.off (answerFlds ++ fs) = true) (i : Nat) : u.on f i = s.on f i :=
  congrArg (· != 0) (h.rd hf i)
theorem mem (h : RxOnly s u fs) : u.mem = s.mem := by rw [← h.rest]
theorem ridge (h : RxOnly s u fs) : u.ridge = s.ridge := by rw [← h.rest]

end RxOnly

/-- Between `s` and `u` the receiver has changed its window memory too. -/
def RxMem (s u : State) (fs : List Fld) : Prop := RxOnly { s with mem := u.mem } u fs

namespace RxMem
variable {s t u : State} {fs : List Fld}

theorem of_rxOnly (h : RxOnly s u fs) : RxMem s u fs := ⟨by rw [← h.rest], h.regs⟩

theorem refl (s : State) (fs : List Fld) : RxMem s s fs := .of_rxOnly (.refl s fs)

theorem trans (h : RxMem s t fs) (k : RxMem t u fs) : RxMem s u fs :=
  ⟨by rw [← k.rest, ← h.rest], fun f i hf => (k.regs f i hf).trans (h.regs f i hf)⟩

theorem mono (h : RxMem s u fs) {gs : List Fld} (hs : fs ⊆ gs) : RxMem s u gs := RxOnly.mono h hs

theorem mwr (s : State) (a n v : Nat) (fs : List Fld) : RxMem s (s.mwr a n v) fs := ⟨rfl, fun _ _ _ => rfl⟩

theorem foldl {α : Type} {f : State → α → State} (hf : ∀ t x, RxMem t (f t x) fs) (xs : List α) (s : State) :
    RxMem s (xs.foldl f s) fs := by
  induction xs generalizing s with
  | nil => exact .refl s fs
  | cons x xs ih => exact (hf s x).trans (ih _)

theorem rd (h : RxMem s u fs) {f : Fld} (hf : f.off (answerFlds ++ fs) = true) (i : Nat) : u.rd f i = s.rd f i := h.regs f i hf
theorem on (h : RxMem s u fs) {f : Fld} (hf : f.off (answerFlds ++ fs) = true) (i : Nat) : u.on f i = s.on f i :=
  congrArg (· != 0) (h.rd hf i)
theorem ridge (h : RxMem s u fs) : u.ridge = s.ridge := by rw [← h.rest]

end RxMem

namespace State
variable {s : State}

/-! ### Conditions -/

theorem condHolds_condOn (fs n : Nat) : (s.condOn fs n).condHolds fs n = true := by
  unfold condOn
  split
  · assumption
  · simp [condHolds]

theorem condHolds_condOff (fs n : Nat) : (s.condOff fs n).condHolds fs n = false := by
  refine Bool.eq_false_iff.mpr fun h => ?_
  obtain ⟨c, hc, he⟩ := List.any_eq_true.mp h
  exact conds_condOff fs n c hc (by simpa using he)

theorem condHolds_of_fcu {t : State} (h : t.fcu = s.fcu) (fs n : Nat) : t.condHolds fs n = s.condHolds fs n := by
  rw [condHolds, condHolds, h]

/-! ### Channels that are lost or released -/

/-- A channel that is lost is found so, whatever others are lost with it. -/
theorem gch_lost {f : GnssCh → GnssCh} (hf : ∀ c, (f c).no = c.no ∧ (f c).st = Ch.lost) {no : Nat} (l : List GnssCh) (s : State)
    (h : (∃ c ∈ l, c.no = no) ∨ ∃ c, s.gch no = some c ∧ c.st = Ch.lost) :
    ∃ c, (l.foldl (fun s c => s.setCh (f c)) s).gch no = some c ∧ c.st = Ch.lost := by
  induction l generalizing s with
  | nil => exact h.resolve_left nofun
  | cons d t ih =>
    obtain ⟨hn, hl⟩ := hf d
    refine ih (s.setCh (f d)) ?_
    by_cases hd : d.no = no
    · exact .inr ⟨f d, by rw [← hd, ← hn, gch_setCh], hl⟩
    · refine h.imp (fun ⟨c, hc, he⟩ => ⟨c, ?_, he⟩) fun ⟨c, hc, he⟩ => ⟨c, ?_, he⟩
      · exact (List.mem_cons.mp hc).resolve_left fun e => hd (e ▸ he)
      · rw [gch_setCh_other (f d) (by rw [hn]; exact Ne.symm hd), hc]

theorem rxMem_releaseCh (no : Nat) : RxMem s (s.releaseCh no) [F.GNSS_STAT_CH_TRACK] :=
  ((RxMem.of_rxOnly (.of_chOnly ((ChOnly.setChannels s _ _).trans (.showCh _)))).trans (.mwr _ _ 4 _ _)).trans (.mwr _ _ 4 _ _)

theorem ch_releaseCh (no : Nat) : (s.releaseCh no).gnss.ch = s.gnss.ch.filter (fun c => c.no != no) := rfl

/-- Once the channels of some numbers are released none of them has one. -/
theorem ch_releaseChs (l : List Nat) (s : State) : (l.foldl releaseCh s).gnss.ch = s.gnss.ch.filter (fun c => !l.contains c.no) := by
  induction l generalizing s with
  | nil => simp
  | cons n t ih =>
    rw [List.foldl_cons, ih, ch_releaseCh, List.filter_filter]
    refine List.filter_congr fun c _ => ?_
    rw [List.contains_cons, Bool.not_or, Bool.and_comm]
    rfl

theorem ch_releaseAll : ((s.gnss.ch.map (fun c => c.no)).foldl releaseCh s).gnss.ch = [] := by
  rw [ch_releaseChs, List.filter_eq_nil_iff]
  intro c hc
  simpa using ⟨c, hc, rfl⟩

/-! ### Streams (R211) -/

/-- Between `s` and `u` only the streams that run and SCLK_OK have changed. -/
def StreamsOnly (s u : State) : Prop :=
  { s with regs := u.regs, gnss := { s.gnss with run := u.gnss.run } } = u ∧
  ∀ f i, f.off [F.GNSS_STREAM_STAT_SCLK_OK] = true → u.rd f i = s.rd f i

theorem StreamsOnly.gnss {u : State} (h : StreamsOnly s u) : u.gnss = { s.gnss with run := u.gnss.run } := by rw [← h.1]

theorem StreamsOnly.rxOnly {u : State} (h : StreamsOnly s u) : RxOnly s u [F.GNSS_STREAM_STAT_SCLK_OK] :=
  ⟨by rw [← h.1], fun f i hf => h.2 f i (Fld.off_append hf).2⟩

/-- Which streams may run does not depend on which do. -/
theorem StreamsOnly.streamMay {u : State} (h : StreamsOnly s u) (t : Nat) : u.streamMay t = s.streamMay t := by
  have hon (f : Fld) (hf : f.off [F.GNSS_STREAM_STAT_SCLK_OK] = true) (i : Nat) : u.on f i = s.on f i := congrArg (· != 0) (h.2 f i hf)
  rw [State.streamMay, State.streamMay, streamOn, streamOn, antUsed, antUsed, rxActive, rxActive, rx, rx, hon _ rfl, hon _ rfl, h.2 _ 0 rfl,
    h.gnss]

/-- One stream follows what it may do. -/
def startStream (s : State) (t : Nat) : State :=
  (s.wrB F.GNSS_STREAM_STAT_SCLK_OK (s.streamOn t && s.gnss.sclk.getD (t / 4) false) t).setStream t
    ((s.wrB F.GNSS_STREAM_STAT_SCLK_OK (s.streamOn t && s.gnss.sclk.getD (t / 4) false) t).streamMay t)

theorem startStreams_eq : s.startStreams = forN 8 s startStream := rfl

theorem streamsOnly_startStream (t : Nat) : StreamsOnly s (s.startStream t) :=
  ⟨rfl, fun _ i hf => rd_wr_off s hf (.head _) _ i t⟩

theorem streamRuns_setStream {t k : Nat} {b : Bool} (h : (s.setStream k b).streamRuns t = true) :
    s.streamRuns t = true ∧ t ≠ k ∨ t = k ∧ b = true := by
  rw [streamRuns, setStream, setGnss, List.getD_eq_getElem?_getD, List.getElem?_set] at h
  rw [streamRuns, List.getD_eq_getElem?_getD]
  split_ifs at h with h₁ h₂
  · exact .inr ⟨h₁.symm, h⟩
  · cases h
  · exact .inl ⟨h, Ne.symm h₁⟩

/-- Of the streams that have followed, those alone run that may. -/
theorem startStreams_upTo (k : Nat) : StreamsOnly s (forN k s startStream) ∧
    ∀ t < k, (forN k s startStream).streamRuns t = true → s.streamMay t = true := by
  induction k with
  | zero => exact ⟨⟨rfl, fun _ _ _ => rfl⟩, nofun⟩
  | succ k ih =>
    obtain ⟨h, hr⟩ := ih
    rw [forN_succ]
    generalize forN k s startStream = u at h hr ⊢
    have hk := streamsOnly_startStream (s := u) k
    refine ⟨⟨by rw [← hk.1, ← h.1], fun f i hf => (hk.2 f i hf).trans (h.2 f i hf)⟩, fun t ht hu => ?_⟩
    obtain ⟨hu, hne⟩ | ⟨rfl, hb⟩ := streamRuns_setStream hu
    · exact hr t (by omega) hu
    · have hw : StreamsOnly u (u.wrB F.GNSS_STREAM_STAT_SCLK_OK (u.streamOn t && u.gnss.sclk.getD (t / 4) false) t) :=
        ⟨rfl, fun _ i hf => rd_wr_off u hf (.head _) _ i t⟩
      rw [hw.streamMay, h.streamMay] at hb
      exact hb

theorem streamsOnly_startStreams : StreamsOnly s s.startStreams := (startStreams_upTo 8).1

theorem streamMay_of_runs {t : Nat} (ht : t < 8) (h : s.startStreams.streamRuns t = true) : s.streamMay t = true :=
  (startStreams_upTo 8).2 t ht h

/-- A stream that may run has its sample clock. -/
theorem sclk_of_streamMay {t : Nat} (h : s.streamMay t = true) : s.gnss.sclk.getD (t / 4) false = true := by
  simp only [State.streamMay, Bool.and_eq_true] at h
  exact h.1.1.2

/-! ### Front ends (R212) -/

theorem sendFes_eq (l : List (List (List Nat))) : { s with out := (s.sendFes l).out } = s.sendFes l := by
  unfold sendFes
  simp only [List.foldl_cons, List.foldl_nil]
  split_ifs <;> rfl

theorem rxOnly_identify (a id : Nat) : RxOnly s (s.identify a id) [F.GNSS_FE_IDR_ID] := by
  unfold identify
  extract_lets s₁ exp bad g s₂ s₃
  have h₁ : RxOnly s s₁ [F.GNSS_FE_IDR_ID] := (RxOnly.refl s _).wr (.head _) id a
  have h₃ : RxOnly s s₃ [F.GNSS_FE_IDR_ID] := h₁.same rfl
  split
  · exact h₃.same rfl
  · exact h₃

/-! ### The mode, the hint store and the verdict -/

/-- A survey that begins, and the mode that is taken, touch what a survey keeps only. -/
theorem takeMode_gnss :
    { s.gnss with modeNew := s.takeMode.gnss.modeNew, survey := s.takeMode.gnss.survey, learn := s.takeMode.gnss.learn,
                  surveyTick := s.takeMode.gnss.surveyTick, surveyN := s.takeMode.gnss.surveyN,
                  surveySum := s.takeMode.gnss.surveySum, surveyBase := s.takeMode.gnss.surveyBase } = s.takeMode.gnss := by
  unfold takeMode
  dsimp only
  split_ifs <;> rfl

theorem rxOnly_takeMode : RxOnly s s.takeMode [F.GNSS_STAT_MODE_ACT] := by
  unfold takeMode
  extract_lets m g s₁
  have h₁ : RxOnly s s₁ [F.GNSS_STAT_MODE_ACT] := ((RxOnly.refl s _).wr (.head _) m 0).same rfl
  split_ifs
  · exact .refl s _
  · exact h₁
  · exact h₁.same rfl
  · exact h₁.same rfl

/-- The fields that show the hint store. -/
def hintFlds : List Fld := [F.GNSS_HINT_VALID, F.GNSS_HINT_USED, F.GNSS_HINT_AGE_AGE]

theorem rxOnly_readHint : RxOnly s s.readHint hintFlds := by
  unfold readHint
  split
  · next h _ =>
    have h₁ : RxOnly s (s.setGnss { s.gnss with pos := h.pos, posSig := h.sig, almanac := true }) hintFlds := (RxOnly.refl s _).same rfl
    exact ((h₁.wr (.head _) 1 0).wr (.tail _ (.head _)) 1 0).wr (.tail _ (.tail _ (.head _))) _ 0
  · exact (((RxOnly.refl s _).wr (.head _) 0 0).wr (.tail _ (.head _)) 0 0).same rfl

theorem moveVerdict_self {v : Nat} (h : s.rd F.GNSS_VERDICT_VERDICT = v) : s.moveVerdict v = s := if_pos h

/-- A verdict that moves ends what the old one had begun, and is an event (Table HOST-9). -/
theorem moveVerdict_of_ne {v : Nat} (h : s.rd F.GNSS_VERDICT_VERDICT ≠ v) : ∃ t : State, { s with fcu := t.fcu } = t ∧
    s.moveVerdict v = (t.wr F.GNSS_VERDICT_VERDICT v).eventNow 0x0008 0 [s.rd F.GNSS_VERDICT_VERDICT + 16 * v] := by
  unfold moveVerdict
  extract_lets old s₁ s₂
  refine ⟨s₂, ?_, if_neg h⟩
  unfold s₂ s₁
  split_ifs <;> rfl

theorem rxOnly_moveVerdict (v : Nat) : RxOnly s (s.moveVerdict v) [F.GNSS_VERDICT_VERDICT] := by
  by_cases h : s.rd F.GNSS_VERDICT_VERDICT = v
  · rw [moveVerdict_self h]
    exact .refl s _
  · obtain ⟨t, ht, e⟩ := moveVerdict_of_ne h
    rw [e]
    exact (((RxOnly.refl s _).same (u := t) (by rw [← ht])).wr (.head _) v 0).answered (.eventNow _ _ _ _)

theorem moveVerdict_gnss (v : Nat) : (s.moveVerdict v).gnss = s.gnss := by
  by_cases h : s.rd F.GNSS_VERDICT_VERDICT = v
  · rw [moveVerdict_self h]
  · obtain ⟨t, ht, e⟩ := moveVerdict_of_ne h
    rw [e, (Answered.eventNow _ _ _ _).gnss, wr_gnss, ← ht]

theorem rd_moveVerdict {v : Nat} (hv : v < 8) : (s.moveVerdict v).rd F.GNSS_VERDICT_VERDICT = v := by
  by_cases h : s.rd F.GNSS_VERDICT_VERDICT = v
  · rw [moveVerdict_self h, h]
  · obtain ⟨t, -, e⟩ := moveVerdict_of_ne h
    rw [e, ((RxOnly.refl _ []).answered (.eventNow _ _ _ _)).rd rfl, rd_wr_same]
    exact Nat.mod_eq_of_lt hv

end State
end Sys2Proof.Machine

/-! ## The receiver starts, stops, sleeps and wakes (Table GNSS-5, R211, R212, R246, R247, R595) -/

namespace Sys2Proof.Machine

theorem exec_gnssEnable (req w : Nat) (fe : List Nat) (sclk : Nat) (s : State) :
    exec (.gnssEnable req w fe sclk) s = execGnssEnable req w fe sclk s := rfl
theorem exec_gnssDisable (req w : Nat) (s : State) : exec (.gnssDisable req w) s = execGnssDisable req w s := rfl
theorem exec_gnssStopDone (fe : List Nat) (sclk : Nat) (s : State) : exec (.gnssStopDone fe sclk) s = execGnssStopDone fe sclk s := rfl
theorem exec_streamEnable (req t w : Nat) (s : State) : exec (.streamEnable req t w) s = execStreamEnable req t w s := rfl
theorem exec_sclkLoss (a : Nat) (s : State) : exec (.sclkLoss a) s = execSclkLoss a s := rfl
theorem exec_sclkRestart (a : Nat) (s : State) : exec (.sclkRestart a) s = execSclkRestart a s := rfl
theorem exec_gnssSleep (c : CmdRef) (w0 : Nat) (s : State) : exec (.gnssSleep c w0) s = execGnssSleep c w0 s := rfl
theorem exec_gnssSleepDone (s : State) : exec .gnssSleepDone s = execGnssSleepDone s := rfl
theorem exec_gnssWake (c : CmdRef) (s : State) : exec (.gnssWake c) s = execGnssWake c s := rfl

namespace State
variable {s : State}

/-! ### Writes of GNSS_CTL (R247) -/

/-- The fields of GNSS_CTL, EN last. -/
def gnssCtlFlds : List Fld := [F.GNSS_CTL_TIME_SYS, F.GNSS_CTL_UTC_CORR, F.GNSS_CTL_SPOOF_REQ, F.GNSS_CTL_BASE_LEARN, F.GNSS_CTL_MODE,
  F.GNSS_CTL_EPOCH_RATE, F.GNSS_CTL_AUTO_CH, F.GNSS_CTL_ANT1_EN, F.GNSS_CTL_EN]

/-- What the fields of GNSS_CTL take of a write of `w`, and the rules that it breaks. -/
def gnssCtlFields (s : State) (w : Nat) : State × List Nat :=
  s.fieldWrite (fun f => (s.on F.GNSS_CTL_EN && !f.among [F.GNSS_CTL_EN, F.GNSS_CTL_MODE, F.GNSS_CTL_SPOOF_REQ]) ||
    (s.testing 0x70 && f.no != F.GNSS_CTL_EN.no)) inRange gnssCtlFlds 0 w

/-- A MODE other than `mode` has been written, and waits for the next epoch. -/
def noteMode (s : State) (mode : Nat) : State :=
  if s.rd F.GNSS_CTL_MODE != mode then s.setGnss { s.gnss with modeNew := true } else s

/-- What follows when EN has been written, EN having been `was`. -/
def followGnssEn (s : State) (was : Bool) (fe : List Nat) (sclk : Nat) : State :=
  if s.on F.GNSS_CTL_EN && !was then
    (if s.rx = Rx.stopping ∨ s.testing 0x70 then s.wr F.GNSS_STAT_PENDING_ENABLE 1 else s.gnssStart fe sclk)
  else if was && !s.on F.GNSS_CTL_EN then
    (if s.rx = Rx.stopping ∨ s.testing 0x70 then s.wr F.GNSS_STAT_PENDING_ENABLE 0 else s.gnssStop)
  else s

theorem gnssCtlWrite_eq (a : Acs) (w : Nat) (fe : List Nat) (sclk : Nat) : s.gnssCtlWrite a w fe sclk =
    (((s.gnssCtlFields w).1.noteMode (s.rd F.GNSS_CTL_MODE)).followGnssEn (s.on F.GNSS_CTL_EN) fe sclk).conclude a
      (s.gnssCtlFields w).2 := rfl

theorem onlyRegs_gnssCtlFields (w : Nat) : OnlyRegs s (s.gnssCtlFields w).1 (gnssCtlFlds.map (·, 0)) := onlyRegs_fieldWrite _ _ _ 0 w

theorem on_en_gnssCtlFields (w : Nat) (b : Bool) : (s.gnssCtlFields (setBit w 0 b)).1.on F.GNSS_CTL_EN = b :=
  on_fieldWrite_setBit_zero rfl ⟨rfl, rfl⟩ (by rw [bne_self_eq_false, Bool.and_false, Bool.or_false]; exact Bool.and_false _)
    (fun _ => rfl) gnssCtlFlds.dropLast 0 w b

/-- No field of GNSS_CTL is locked while the receiver is disabled and not under test. -/
theorem gnssCtlFields_open (he : s.on F.GNSS_CTL_EN = false) (ht : s.testing 0x70 = false) (w : Nat) :
    s.gnssCtlFields w = s.fieldWrite noLock inRange gnssCtlFlds 0 w := by
  rw [gnssCtlFields, he, ht]
  rfl

theorem noteMode_eq (mode : Nat) : { s with gnss := (s.noteMode mode).gnss } = s.noteMode mode := by
  unfold noteMode
  split <;> rfl

/-- The state in which a write of GNSS_CTL has left its fields, before EN is followed. -/
def gnssCtlTaken (s : State) (w : Nat) : State := (s.gnssCtlFields w).1.noteMode (s.rd F.GNSS_CTL_MODE)

theorem rxOnly_gnssCtlTaken (w : Nat) : RxOnly s (s.gnssCtlTaken w) gnssCtlFlds := by
  have h := onlyRegs_gnssCtlFields (s := s) w
  have k : RxOnly s (s.gnssCtlFields w).1 gnssCtlFlds :=
    ⟨by rw [← h.1], fun f i hf => h.2.rd (by rw [List.map_map]; exact (Fld.off_append hf).2) i⟩
  exact k.same (by rw [gnssCtlTaken, ← noteMode_eq])

theorem gnssCtlTaken_regs (w : Nat) : (s.gnssCtlTaken w).regs = (s.gnssCtlFields w).1.regs := by rw [gnssCtlTaken, ← noteMode_eq]

theorem on_en_gnssCtlTaken (w : Nat) (b : Bool) : (s.gnssCtlTaken (setBit w 0 b)).on F.GNSS_CTL_EN = b := by
  rw [on, rd_of_regs (gnssCtlTaken_regs _), ← on, on_en_gnssCtlFields]

/-- Testing depends on the quiet groups alone. -/
theorem testing_gnssCtlTaken (w tgt : Nat) : (s.gnssCtlTaken w).testing tgt = s.testing tgt := by
  rw [testing, testing, ← (rxOnly_gnssCtlTaken (s := s) w).rest]

/-- A write that enables an OFF receiver starts it. -/
theorem gnssCtlWrite_starts (he : s.on F.GNSS_CTL_EN = false) (hr : s.rx = 0) (ht : s.testing 0x70 = false) (a : Acs) (w : Nat)
    (fe : List Nat) (sclk : Nat) : s.gnssCtlWrite a (setBit w 0 true) fe sclk =
      ((s.gnssCtlTaken (setBit w 0 true)).gnssStart fe sclk).conclude a (s.gnssCtlFields (setBit w 0 true)).2 := by
  have hrx : (s.gnssCtlTaken (setBit w 0 true)).rx = 0 := ((rxOnly_gnssCtlTaken _).rd rfl 0).trans hr
  rw [gnssCtlWrite_eq, ← gnssCtlTaken, followGnssEn, on_en_gnssCtlTaken, he, if_pos (by decide), testing_gnssCtlTaken, ht, hrx,
    if_neg (by decide)]

/-- A write that disables a RUNNING receiver stops it. -/
theorem gnssCtlWrite_stops (he : s.on F.GNSS_CTL_EN = true) (hr : s.rx = 2) (ht : s.testing 0x70 = false) (a : Acs) (w : Nat)
    (fe : List Nat) (sclk : Nat) : s.gnssCtlWrite a (setBit w 0 false) fe sclk =
      (s.gnssCtlTaken (setBit w 0 false)).gnssStop.conclude a (s.gnssCtlFields (setBit w 0 false)).2 := by
  have hrx : (s.gnssCtlTaken (setBit w 0 false)).rx = 2 := ((rxOnly_gnssCtlTaken _).rd rfl 0).trans hr
  rw [gnssCtlWrite_eq, ← gnssCtlTaken, followGnssEn, on_en_gnssCtlTaken, he, if_neg (by decide), if_pos (by decide), testing_gnssCtlTaken,
    ht, hrx, if_neg (by decide)]

/-! ### Start and stop -/

theorem gnssStart_islandDown (h : s.islandOn 0 = false) (fe : List Nat) (sclk : Nat) :
    s.gnssStart fe sclk = (s.wr F.GNSS_CTL_EN 0).raise 221 0 := by
  rw [gnssStart, h]
  rfl

/-- The fields that a start writes, the receiver's state apart. -/
def rxStartFlds : List Fld := F.GNSS_FE_IDR_ID :: hintFlds ++ [F.GNSS_STAT_MODE_ACT, F.GNSS_STREAM_STAT_SCLK_OK]

/-- A receiver whose island is on and whose settings pass is STARTING, with the sample clocks that are in their window. -/
theorem gnssStart_passes (h : s.islandOn 0 = true) (hc : s.gnssCheck = true) (fe : List Nat) (sclk : Nat) :
    RxOnly (s.wr F.GNSS_STAT_STATE 1) (s.gnssStart fe sclk) rxStartFlds ∧ (s.gnssStart fe sclk).gnss.sclk = [bit sclk 0, bit sclk 1] := by
  unfold gnssStart
  rw [h, hc, if_neg (by decide), if_neg (by decide)]
  extract_lets s₁ s₂ s₃ g s₄ s₅ s₆
  have h₂ : RxOnly s₁ s₂ rxStartFlds := by
    refine RxOnly.foldl (fun t a => ?_) _ s₁
    split
    · exact (rxOnly_identify a _).mono (by simp [rxStartFlds])
    · exact .refl t _
  have h₄ : RxOnly s₂ s₄ rxStartFlds := (rxOnly_readHint.mono (by simp [rxStartFlds, hintFlds])).same rfl
  have h₅ : RxOnly s₄ s₅ rxStartFlds ∧ s₅.gnss.sclk = s₄.gnss.sclk :=
    ⟨rxOnly_takeMode.mono (by simp [rxStartFlds]), by unfold s₅; rw [← takeMode_gnss]⟩
  have h₆ : RxOnly s₅ s₆ rxStartFlds ∧ s₆.gnss.sclk = s₅.gnss.sclk := by
    unfold s₆
    simp only [List.foldl_cons, List.foldl_nil]
    split_ifs
    · exact ⟨((RxOnly.refl s₅ _).condOn 81 0).condOn 81 1, by simp⟩
    · exact ⟨(RxOnly.refl s₅ _).condOn 81 0, by simp⟩
    · exact ⟨(RxOnly.refl s₅ _).condOn 81 1, by simp⟩
    · exact ⟨.refl s₅ _, rfl⟩
  have h₇ := streamsOnly_startStreams (s := s₆)
  refine ⟨h₂.trans (h₄.trans (h₅.1.trans (h₆.1.trans (h₇.rxOnly.mono (by simp [rxStartFlds]))))), ?_⟩
  rw [h₇.gnss]
  exact h₆.2.trans h₅.2

/-- The fields that a stop writes, the receiver's state apart. -/
def rxStopFlds : List Fld := [F.GNSS_STAT_CH_TRACK, F.GNSS_VERDICT_VERDICT, F.GNSS_STAT_SV_USED, F.GNSS_STAT_SOL_VALID,
  F.GNSS_STAT_PENDING_ENABLE, F.GNSS_STAT_STATE]

/-- A receiver that stops releases its channels, judges nothing and solves nothing, and is STOPPING. -/
theorem gnssStop_facts : RxMem s s.gnssStop rxStopFlds ∧ s.gnssStop.rx = 6 ∧ s.gnssStop.gnss.ch = [] ∧
    s.gnssStop.rd F.GNSS_VERDICT_VERDICT = 0 ∧ s.gnssStop.on F.GNSS_STAT_SOL_VALID = false := by
  obtain ⟨u, hu⟩ : ∃ u, s.gnssStop = u := ⟨_, rfl⟩
  rw [hu]
  unfold gnssStop at hu
  extract_lets s₁ s₂ g s₃ s₄ s₅ at hu
  have h₁ : RxMem s s₁ rxStopFlds := RxMem.foldl (fun t n => (rxMem_releaseCh n).mono (by simp [rxStopFlds])) _ s
  have h₂ : RxOnly s₁ s₂ rxStopFlds := (rxOnly_moveVerdict Verdict.none).mono (by simp [rxStopFlds])
  have h₃ : RxOnly s₂ s₃ rxStopFlds := (RxOnly.refl s₂ _).same rfl
  have hch : s₃.gnss.ch = [] := by
    show s₂.gnss.ch = []
    unfold s₂
    rw [moveVerdict_gnss]
    exact ch_releaseAll
  have hv : s₃.rd F.GNSS_VERDICT_VERDICT = 0 := rd_moveVerdict (s := s₁) (by decide)
  clear_value s₃ s₂ s₁
  have h₄ : RxOnly s₃ s₄ [F.GNSS_STAT_SV_USED, F.GNSS_STAT_SOL_VALID] :=
    ((RxOnly.refl s₃ _).wr (.head _) 0 0).wr (.tail _ (.head _)) 0 0
  have hsol : s₄.on F.GNSS_STAT_SOL_VALID = false :=
    congrArg (· != 0) (rd_wr_same (s₃.wr F.GNSS_STAT_SV_USED 0) F.GNSS_STAT_SOL_VALID 0 0)
  have hg₄ : s₄.gnss = s₃.gnss := rfl
  clear_value s₄
  have h₅ : RxOnly s₄ s₅ [] := (RxOnly.refl s₄ _).same rfl
  have hg₅ : s₅.gnss = s₄.gnss := rfl
  clear_value s₅
  have h₆ : RxOnly s₅ ((s₅.wr F.GNSS_STAT_PENDING_ENABLE 0).wr F.GNSS_STAT_STATE Rx.stopping)
      [F.GNSS_STAT_PENDING_ENABLE, F.GNSS_STAT_STATE] := ((RxOnly.refl s₅ _).wr (.head _) 0 0).wr (.tail _ (.head _)) 6 0
  rw [← hu]
  refine ⟨h₁.trans (.of_rxOnly (h₂.trans (h₃.trans ?_))), rd_wr_same _ F.GNSS_STAT_STATE 6 0, ?_, ?_, ?_⟩
  · exact (h₄.mono (by simp [rxStopFlds])).trans ((h₅.mono (List.nil_subset _)).trans (h₆.mono (by simp [rxStopFlds])))
  · rw [wr_gnss, wr_gnss, hg₅, hg₄, hch]
  · exact (h₆.rd rfl 0).trans ((h₅.rd rfl 0).trans ((h₄.rd rfl 0).trans hv))
  · exact (h₆.on rfl 0).trans ((h₅.on rfl 0).trans hsol)

/-! ### Writes of GNSS_STREAM_CTL (R247, R595) -/

/-- The fields of GNSS_STREAM_CTL, EN last. -/
def streamCtlFlds : List Fld := [F.GNSS_STREAM_CTL_SIG_MASK, F.GNSS_STREAM_CTL_SPEC_INV, F.GNSS_STREAM_CTL_IQ_SWAP, F.GNSS_STREAM_CTL_FMT,
  F.GNSS_STREAM_CTL_RATE, F.GNSS_STREAM_CTL_EN]

/-- What the fields of GNSS_STREAM_CTL[t] take of a write of `w`, and the rules that it breaks. -/
def streamCtlFields (s : State) (t w : Nat) : State × List Nat :=
  s.fieldWrite (fun f => s.streamOn t && f.no != F.GNSS_STREAM_CTL_EN.no) inRange streamCtlFlds t w

/-- What follows when EN of stream `t` has been written, EN having been `was`. -/
def followStreamEn (s : State) (was : Bool) (t : Nat) : State :=
  if s.streamOn t && !was && s.on F.GNSS_CTL_EN && !(s.ratesOk (t / 4) && s.bandOk t) then (s.wr F.GNSS_STREAM_CTL_EN 0 t).raise 86
  else if s.streamOn t != was then
    (if s.streamOn t then s.startStreams else
      ((s.startStreams.gnss.ch.filter (fun c => c.stream == t)).map (fun c => c.no)).foldl releaseCh s.startStreams)
  else s

theorem streamCtlWrite_eq (a : Acs) (t w : Nat) : s.streamCtlWrite a t w =
    ((s.streamCtlFields t w).1.followStreamEn (s.streamOn t) t).conclude a (s.streamCtlFields t w).2 := rfl

theorem onlyRegs_streamCtlFields (t w : Nat) : OnlyRegs s (s.streamCtlFields t w).1 (streamCtlFlds.map (·, t)) :=
  onlyRegs_fieldWrite _ _ _ t w

theorem streamOn_streamCtlFields (t w : Nat) (b : Bool) : (s.streamCtlFields t (setBit w 0 b)).1.streamOn t = b :=
  on_fieldWrite_setBit_zero rfl ⟨rfl, rfl⟩ (by rw [bne_self_eq_false, Bool.and_false]) (fun _ => rfl) streamCtlFlds.dropLast t w b

/-- A stream that is enabled outside service makes the streams follow. -/
theorem followStreamEn_starts {t : Nat} (ho : s.streamOn t = true) (he : s.on F.GNSS_CTL_EN = false) :
    s.followStreamEn false t = s.startStreams := by
  rw [followStreamEn, ho, he]
  rfl

/-! ### Sleep and wake (R245, R246) -/

/-- The fields that a wake writes, the receiver's state apart. -/
def rxWakeFlds : List Fld := [F.GNSS_STREAM_STAT_SCLK_OK, F.GNSS_STAT_CH_TRACK]

/-- A receiver that wakes is WAKING, and the wakes that waited are answered. -/
theorem gnssWakeUp_facts : RxOnly ((s.wr F.GNSS_STAT_STATE 5).wr F.GNSS_STAT_PENDING_ENABLE 0) s.gnssWakeUp rxWakeFlds ∧
    s.gnssWakeUp.gnss.wakes = [] := by
  obtain ⟨u, hu⟩ : ∃ u, s.gnssWakeUp = u := ⟨_, rfl⟩
  rw [hu]
  unfold gnssWakeUp at hu
  extract_lets s₁ s₂ g s₃ s₄ s₅ s₆ l at hu
  have h₃ : RxOnly s₁ s₃ rxWakeFlds := ((RxOnly.refl s₁ _).same (u := s₂) (by unfold s₂; rw [← sendFes_eq])).same rfl
  have h₄ : RxOnly s₃ s₄ rxWakeFlds := streamsOnly_startStreams.rxOnly.mono (by simp [rxWakeFlds])
  have h₅ : RxOnly s₄ s₅ rxWakeFlds := (RxOnly.of_chOnly (.foldl (fun t c => .queueSearch t c 0) _ s₄)).mono (by simp [rxWakeFlds])
  have h₆ : RxOnly s₅ s₆ rxWakeFlds := by
    unfold s₆
    split
    · exact (RxOnly.refl s₅ _).same rfl
    · exact .refl s₅ _
  have h : RxOnly s₁ s₆ rxWakeFlds := h₃.trans (h₄.trans (h₅.trans h₆))
  clear_value l s₆
  have h₇ := Answered.finishAll (s₆.setGnss { s₆.gnss with wakes := [] }) l Code.ok
  rw [← hu]
  exact ⟨(h.same rfl).answered h₇, congrArg GnssSt.wakes h₇.gnss⟩

end State

/-! ### The commands -/

section
variable {s : State}

theorem execGnssEnable_admitted {req : Nat} (h : Admitted s req) (w : Nat) (fe : List Nat) (sclk : Nat) :
    execGnssEnable req w fe sclk s = done (s.gnssCtlWrite ⟨req, 0xE000, 2, true⟩ (setBit w 0 true) fe sclk).1 := by
  rw [execGnssEnable, State.put_admitted h]

theorem execGnssDisable_admitted {req : Nat} (h : Admitted s req) (w : Nat) :
    execGnssDisable req w s = done (s.gnssCtlWrite ⟨req, 0xE000, 2, true⟩ (setBit w 0 false) [] 0).1 := by
  rw [execGnssDisable, State.put_admitted h]

section
variable {req w : Nat} {fe : List Nat} {sclk : Nat} (ha : Admitted s req) (he : s.on F.GNSS_CTL_EN = false) (hr : s.rx = 0)
  (ht : s.testing 0x70 = false)
include ha he hr ht

theorem gnssEnable_starts_settles (hi : s.islandOn 0 = true)
    (hc : ((s.fieldWrite noLock inRange State.gnssCtlFlds 0 (setBit w 0 true)).1).gnssCheck = true) :
    Settles (.gnssEnable req w fe sclk) s (fun u => u.on F.GNSS_CTL_EN = true ∧ u.rx = 1 ∧ u.gnss.sclk = [bit sclk 0, bit sclk 1] ∧
      u.mem = s.mem ∧ u.ridge = s.ridge) := by
  have hx := execGnssEnable_admitted ha w fe sclk
  rw [State.gnssCtlWrite_starts he hr ht] at hx
  have h := State.rxOnly_gnssCtlTaken (s := s) (setBit w 0 true)
  have hen := State.on_en_gnssCtlTaken (s := s) w true
  have hck : (s.gnssCtlTaken (setBit w 0 true)).gnssCheck = true := by
    rw [← State.gnssCtlFields_open he ht] at hc
    rw [State.gnssCtlTaken, ← State.noteMode_eq]
    exact hc
  generalize s.gnssCtlTaken (setBit w 0 true) = t at hx h hen hck
  obtain ⟨h₁, hs⟩ := State.gnssStart_passes ((congrArg (· == 2) (h.rd rfl 0)).trans hi) hck fe sclk
  have h₂ := State.onlyRegsFcu_conclude (s := t.gnssStart fe sclk) ⟨req, 0xE000, 2, true⟩ (s.gnssCtlFields (setBit w 0 true)).2
  refine ⟨_, (exec_gnssEnable req w fe sclk s).trans hx, ?_, ?_, ?_, ?_, ?_⟩
  · have h₀ : RxOnly t (t.wr F.GNSS_STAT_STATE 1) [F.GNSS_STAT_STATE] := (RxOnly.refl t _).wr (.head _) 1 0
    exact (h₂.2.on rfl 0).trans ((h₁.on rfl 0).trans ((h₀.on rfl 0).trans hen))
  · exact (h₂.2.rd rfl 0).trans ((h₁.rd rfl 0).trans (State.rd_wr_same t F.GNSS_STAT_STATE 1 0))
  · rw [← h₂.1]
    exact hs
  · exact h₂.mem.trans (h₁.mem.trans h.mem)
  · exact h₂.ridge.trans (h₁.ridge.trans h.ridge)

theorem gnssEnable_islandDown_settles (hi : s.islandOn 0 = false) : Settles (.gnssEnable req w fe sclk) s (fun u =>
    u.on F.GNSS_CTL_EN = false ∧ u.rx = 0 ∧ u.staged 221 ∧ u.mem = s.mem ∧ u.ridge = s.ridge) := by
  have hx := execGnssEnable_admitted ha w fe sclk
  rw [State.gnssCtlWrite_starts he hr ht] at hx
  have h := State.rxOnly_gnssCtlTaken (s := s) (setBit w 0 true)
  generalize s.gnssCtlTaken (setBit w 0 true) = t at hx h
  rw [State.gnssStart_islandDown ((congrArg (· == 2) (h.rd rfl 0)).trans hi)] at hx
  have h₁ : RxOnly t ((t.wr F.GNSS_CTL_EN 0).raise 221 0) [F.GNSS_CTL_EN] := ((RxOnly.refl t _).wr (.head _) 0 0).same rfl
  have h₂ := State.onlyRegsFcu_conclude (s := (t.wr F.GNSS_CTL_EN 0).raise 221 0) ⟨req, 0xE000, 2, true⟩
    (s.gnssCtlFields (setBit w 0 true)).2
  refine ⟨_, (exec_gnssEnable req w fe sclk s).trans hx, ?_, ?_, ?_, ?_, ?_⟩
  · exact (h₂.2.on rfl 0).trans (congrArg (· != 0) (State.rd_wr_same t F.GNSS_CTL_EN 0 0))
  · exact (h₂.2.rd rfl 0).trans ((h₁.rd rfl 0).trans ((h.rd rfl 0).trans hr))
  · exact State.occs_conclude _ _ _ (List.mem_append_right _ (.head _))
  · exact h₂.mem.trans (h₁.mem.trans h.mem)
  · exact h₂.ridge.trans (h₁.ridge.trans h.ridge)

end

theorem gnssDisable_settles {req w : Nat} (ha : Admitted s req) (he : s.on F.GNSS_CTL_EN = true) (hr : s.rx = 2)
    (ht : s.testing 0x70 = false) : Settles (.gnssDisable req w) s (fun u => u.on F.GNSS_CTL_EN = false ∧ u.rx = 6 ∧ u.gnss.ch = [] ∧
      u.rd F.GNSS_VERDICT_VERDICT = 0 ∧ u.on F.GNSS_STAT_SOL_VALID = false ∧ u.ridge = s.ridge) := by
  have hx := execGnssDisable_admitted ha w
  rw [State.gnssCtlWrite_stops he hr ht] at hx
  have h := State.rxOnly_gnssCtlTaken (s := s) (setBit w 0 false)
  have hen := State.on_en_gnssCtlTaken (s := s) w false
  generalize s.gnssCtlTaken (setBit w 0 false) = t at hx h hen
  obtain ⟨h₁, hst, hch, hv, hsol⟩ := State.gnssStop_facts (s := t)
  have h₂ := State.onlyRegsFcu_conclude (s := t.gnssStop) ⟨req, 0xE000, 2, true⟩ (s.gnssCtlFields (setBit w 0 false)).2
  refine ⟨_, (exec_gnssDisable req w s).trans hx, ?_, (h₂.2.rd rfl 0).trans hst, ?_, (h₂.2.rd rfl 0).trans hv,
    (h₂.2.on rfl 0).trans hsol, h₂.ridge.trans (h₁.ridge.trans h.ridge)⟩
  · exact (h₂.2.on rfl 0).trans ((h₁.on rfl 0).trans hen)
  · rw [← h₂.1]
    exact hch

theorem gnssStopDone_settles (fe : List Nat) (sclk : Nat) (hr : s.rx = 6) (hp : s.on F.GNSS_STAT_PENDING_ENABLE = false) :
    Settles (.gnssStopDone fe sclk) s (fun u => u.rx = 0 ∧ OnlyRegs s u [(F.GNSS_STAT_STATE, 0)]) := by
  have h : OnlyRegs s (s.wr F.GNSS_STAT_STATE Rx.off) [(F.GNSS_STAT_STATE, 0)] := (OnlyRegs.refl s _).wr (.head _) 0
  have hp' : (s.wr F.GNSS_STAT_STATE Rx.off).on F.GNSS_STAT_PENDING_ENABLE = false := (h.2.on rfl 0).trans hp
  have hx : execGnssStopDone fe sclk s = done (s.wr F.GNSS_STAT_STATE Rx.off) :=
    (if_neg (not_not.mpr hr)).trans (if_neg (ne_true_of_eq_false hp'))
  exact ⟨_, (exec_gnssStopDone fe sclk s).trans hx, State.rd_wr_same s F.GNSS_STAT_STATE 0 0, h⟩

theorem streamEnable_settles {req t w : Nat} (ha : Admitted s req) (ht : t < 8) (ho : s.streamOn t = false)
    (he : s.on F.GNSS_CTL_EN = false) : Settles (.streamEnable req t w) s (fun u => u.streamOn t = true ∧
      { s with regs := u.regs, gnss := { s.gnss with run := u.gnss.run }, fcu := u.fcu } = u) := by
  have hx : execStreamEnable req t w s = done (s.streamCtlWrite ⟨req, 0xE200 + 0x10 * t, 2, true⟩ t (setBit w 0 true)).1 := by
    rw [execStreamEnable, if_neg (by omega), State.put_admitted ha]
  have h := State.onlyRegs_streamCtlFields (s := s) t (setBit w 0 true)
  have hon := State.streamOn_streamCtlFields (s := s) t w true
  rw [State.streamCtlWrite_eq, ho, State.followStreamEn_starts hon ((h.2.on rfl 0).trans he)] at hx
  generalize s.streamCtlFields t (setBit w 0 true) = r at hx h hon
  have h₁ := State.streamsOnly_startStreams (s := r.1)
  have h₂ := State.onlyRegsFcu_conclude (s := r.1.startStreams) ⟨req, 0xE200 + 0x10 * t, 2, true⟩ r.2
  refine ⟨_, (exec_streamEnable req t w s).trans hx, ?_, ?_⟩
  · exact (h₂.2.on rfl t).trans ((congrArg (· != 0) (h₁.2 _ t rfl)).trans hon)
  · rw [← h₂.1, ← h₁.1, ← h.1]

/-- A lost channel, its slip due when it was in PLL. -/
def GnssCh.losing (c : GnssCh) : GnssCh := { c with st := Ch.lost, slip := c.slip || c.st == Ch.pll }

/-- The sample clock of antenna `a` is in its window or not. -/
def State.setSclk (s : State) (a : Nat) (b : Bool) : State := s.setGnss { s.gnss with sclk := s.gnss.sclk.set a b }

/-- The channels of antenna `a` are lost. -/
def State.loseAntenna (s : State) (a : Nat) : State := (s.gnss.ch.filter (fun c => c.ant == a)).foldl (fun s c => s.setCh c.losing) s

theorem State.chOnly_loseAntenna (a : Nat) : ChOnly s (s.loseAntenna a) := .foldl (fun t _ => .setCh t _) _ s

theorem State.gch_loseAntenna {a : Nat} {g : GnssCh} (hg : g ∈ s.gnss.ch) (ha : g.ant = a) :
    ∃ h, (s.loseAntenna a).gch g.no = some h ∧ h.st = 5 :=
  gch_lost (f := GnssCh.losing) (fun _ => ⟨rfl, rfl⟩) _ s (.inl ⟨g, List.mem_filter.mpr ⟨hg, beq_iff_eq.mpr ha⟩, rfl⟩)

/-- When its clock is lost the antenna's streams stop, and then its channels are lost and leave those that wait. -/
theorem State.sclkLost_eq (a : Nat) : ∃ q,
    s.sclkLost a = (((s.setSclk a false).startStreams.loseAntenna a).setSearches q).condOn 81 a := ⟨_, rfl⟩

/-- An entry that is set to the value read past the end reads it. -/
theorem getD_set_default {α : Type} (l : List α) (k : Nat) (d : α) : (l.set k d).getD k d = d := by
  rw [List.getD_eq_getElem?_getD, List.getElem?_set_self']
  cases l[k]? <;> rfl

theorem sclkLoss_settles {a : Nat} (ha : a < 2) (hc : s.gnss.sclk.getD a false = true) : Settles (.sclkLoss a) s (fun u =>
    u.gnss.sclk.getD a false = false ∧ u.condHolds 81 a = true ∧ (∀ b, b < 4 → u.streamRuns (4 * a + b) = false) ∧
    (∀ g ∈ s.gnss.ch, g.ant = a → ∃ h, u.gch g.no = some h ∧ h.st = 5) ∧ u.mem = s.mem ∧ u.ridge = s.ridge) := by
  have hx : execSclkLoss a s = done (s.sclkLost a) := if_pos ⟨ha, hc⟩
  obtain ⟨q, e⟩ := State.sclkLost_eq (s := s) a
  have h₁ := State.streamsOnly_startStreams (s := s.setSclk a false)
  have hclk : (s.setSclk a false).gnss.sclk.getD a false = false := getD_set_default s.gnss.sclk a false
  have hrun : ∀ b, b < 4 → (s.setSclk a false).startStreams.streamRuns (4 * a + b) = false := by
    refine fun b hb => Bool.eq_false_iff.mpr fun h => ?_
    have hm := State.sclk_of_streamMay (State.streamMay_of_runs (by omega) h)
    rw [show (4 * a + b) / 4 = a by omega, hclk] at hm
    cases hm
  generalize (s.setSclk a false).startStreams = t at e h₁ hrun
  have h₂ : ChOnly t ((t.loseAntenna a).setSearches q) := (State.chOnly_loseAntenna a).trans (State.chOnly_setSearches q)
  rw [e] at hx
  refine ⟨_, (exec_sclkLoss a s).trans hx, ?_, State.condHolds_condOn 81 a, fun b hb => ?_, fun g hg hga => ?_, ?_, ?_⟩
  · rw [State.condOn_gnss, h₂.gnss, h₁.gnss]
    exact hclk
  · rw [State.streamRuns, State.condOn_gnss, h₂.gnss]
    exact hrun b hb
  · rw [State.gch, State.condOn_gnss]
    have hch : t.gnss.ch = s.gnss.ch := by rw [h₁.gnss]; rfl
    exact State.gch_loseAntenna (hch ▸ hg) hga
  · rw [State.condOn_mem]
    exact h₂.mem.trans h₁.rxOnly.mem
  · rw [State.condOn_ridge]
    exact h₂.ridge.trans h₁.rxOnly.ridge

theorem sclkRestart_settles {a : Nat} (ha : a < 2) (hl : s.gnss.sclk.length = 2) : Settles (.sclkRestart a) s (fun u =>
    u.gnss.sclk.getD a false = true ∧ u.condHolds 81 a = false ∧ u.mem = s.mem ∧ u.ridge = s.ridge) := by
  let t := s.setSclk a true
  have h₁ : State.StreamsOnly t t.startStreams := State.streamsOnly_startStreams
  let l := (t.startStreams.condOff 81 a).gnss.ch.filter (fun c => c.ant == a && c.st == Ch.lost)
  have h₂ : ChOnly (t.startStreams.condOff 81 a) (l.foldl (fun s c => s.queueSearch c 0) (t.startStreams.condOff 81 a)) :=
    .foldl (fun t c => .queueSearch t c 0) l _
  have hx : execSclkRestart a s = done (l.foldl (fun s c => s.queueSearch c 0) (t.startStreams.condOff 81 a)) := if_neg (by omega)
  refine ⟨_, (exec_sclkRestart a s).trans hx, ?_, ?_, h₂.mem.trans h₁.rxOnly.mem, h₂.ridge.trans h₁.rxOnly.ridge⟩
  · rw [h₂.gnss, State.condOff_gnss, h₁.gnss]
    simp [t, State.setSclk, State.setGnss, List.getD_eq_getElem?_getD, hl, ha]
  · rw [State.condHolds_of_fcu h₂.fcu, State.condHolds_condOff]

/-- The state of a receiver that begins to sleep, its streams and what it has in hand apart: a hint is saved, the channels are lost, and
the front ends in use are sent their sleep lists when they are asked for. -/
def State.fallAsleep (s : State) (send : Bool) : State :=
  let s := (s.saveHint).wr F.GNSS_STAT_STATE Rx.sleeping
  let s := s.gnss.ch.foldl (fun s ch => s.setCh { ch with st := Ch.lost, slip := true }) s
  if send then s.sendFes s.gnss.feSleep else s

theorem State.fallAsleep_facts (send : Bool) : (s.fallAsleep send).rx = 3 ∧ (s.fallAsleep send).gnss.sleeps = s.gnss.sleeps ∧
    (s.fallAsleep send).mem = s.mem ∧ RegsBut s (s.fallAsleep send) [(F.GNSS_STAT_STATE, 0), (F.GNSS_STAT_CH_TRACK, 0)] := by
  unfold State.fallAsleep
  extract_lets s₁ s₂
  have h₂ : ChOnly s₁ s₂ := .foldl (fun t c => .setCh t _) _ s₁
  have hb : RegsBut s s₂ [(F.GNSS_STAT_STATE, 0), (F.GNSS_STAT_CH_TRACK, 0)] :=
    (((RegsBut.refl s _).same (t := s.saveHint) rfl).wr (.head _) 3).trans (h₂.2.mono (by simp))
  have hf : s₂.rx = 3 ∧ s₂.gnss.sleeps = s.gnss.sleeps ∧ s₂.mem = s.mem :=
    ⟨(h₂.2.rd rfl 0).trans (State.rd_wr_same s.saveHint F.GNSS_STAT_STATE 3 0), by rw [h₂.gnss]; rfl, h₂.mem⟩
  split
  · rw [← State.sendFes_eq]
    exact ⟨hf.1, hf.2.1, hf.2.2, hb.same rfl⟩
  · exact ⟨hf.1, hf.2.1, hf.2.2, hb⟩

theorem gnssSleep_settles (c : CmdRef) (w0 : Nat) (hr : s.rx = 2) : Settles (.gnssSleep c w0) s (fun u => u.rx = 3 ∧
    u.gnss.sleeps = s.gnss.sleeps ++ [c] ∧ u.gnss.queue = [] ∧ (∀ t, u.streamRuns t = false) ∧ u.mem = s.mem ∧
    RegsBut s u [(F.GNSS_STAT_STATE, 0), (F.GNSS_STAT_CH_TRACK, 0)]) := by
  let t := s.fallAsleep (bit w0 0)
  have hx : execGnssSleep c w0 s = done (t.setGnss { t.gnss with
      run := List.replicate 8 false, queue := [], latched := none, epoch := none, sol := none,
      survey := false, sleeps := t.gnss.sleeps ++ [c] }) := by
    unfold execGnssSleep
    rw [hr, if_neg (by decide), if_neg (by decide), if_neg (by decide)]
    rfl
  obtain ⟨hst, hsl, hm, hb⟩ := State.fallAsleep_facts (s := s) (bit w0 0)
  refine ⟨_, (exec_gnssSleep c w0 s).trans hx, hst, congrArg (· ++ [c]) hsl, rfl, fun k => ?_, hm, hb.same rfl⟩
  show (List.replicate 8 false).getD k false = false
  rw [List.getD_eq_getElem?_getD, List.getElem?_replicate]
  split <;> rfl

theorem gnssSleep_refused (c : CmdRef) (w0 : Nat) (hr : s.rx = 0 ∨ s.rx = 6) : Refuses (.gnssSleep c w0) s c Code.badParam :=
  (exec_gnssSleep c w0 s).trans (if_pos hr)

theorem gnssSleepDone_settles (hr : s.rx = 3) (hs : s.gnss.sleeps = []) (hp : s.on F.GNSS_STAT_PENDING_ENABLE = false) :
    Settles .gnssSleepDone s (fun u => u.rx = 4 ∧ OnlyRegs s u [(F.GNSS_STAT_STATE, 0)]) := by
  have h : OnlyRegs s (s.wr F.GNSS_STAT_STATE Rx.asleep) [(F.GNSS_STAT_STATE, 0)] := (OnlyRegs.refl s _).wr (.head _) 4
  have hg : (s.wr F.GNSS_STAT_STATE Rx.asleep).setGnss { s.gnss with sleeps := [] } = s.wr F.GNSS_STAT_STATE Rx.asleep := by
    rw [← hs]
    rfl
  have hx : execGnssSleepDone s = done (s.wr F.GNSS_STAT_STATE Rx.asleep) := by
    unfold execGnssSleepDone
    rw [hr, if_neg (by decide)]
    dsimp only
    rw [State.wr_gnss, hs, hg, State.finishAll, List.foldl_nil, h.2.on rfl, hp]
    rfl
  exact ⟨_, (exec_gnssSleepDone s).trans hx, State.rd_wr_same s F.GNSS_STAT_STATE 4 0, h⟩

theorem gnssWake_replies (c : CmdRef) (hr : s.rx = 4) : Replies (.gnssWake c) s c (fun u => u.rx = 5 ∧
    u.on F.GNSS_STAT_PENDING_ENABLE = false ∧ u.gnss.wakes = [] ∧ u.mem = s.mem ∧ u.ridge = s.ridge) := by
  have hx : execGnssWake c s = done (s.gnssWakeUp.finish c Code.ok) := by
    rw [execGnssWake, hr, if_neg (by decide), if_pos (by decide)]
  obtain ⟨h, hw⟩ := State.gnssWakeUp_facts (s := s)
  refine ⟨s.gnssWakeUp, 0, 0, 0, (exec_gnssWake c s).trans hx, ?_, ?_, hw, h.mem, h.ridge⟩
  · exact (h.rd rfl 0).trans ((State.rd_wr_other _ (by decide) (by decide) (by decide) 0 0 0).trans
      (State.rd_wr_same s F.GNSS_STAT_STATE 5 0))
  · exact (h.on rfl 0).trans (congrArg (· != 0) (State.rd_wr_same _ F.GNSS_STAT_PENDING_ENABLE 0 0))

theorem gnssWake_refused (c : CmdRef) (hr : s.rx = 2) : Refuses (.gnssWake c) s c Code.badParam := by
  rw [Refuses, exec_gnssWake, execGnssWake, hr, if_neg (by decide), if_neg (by decide)]
  rfl

end

/-- Settles O21: one lemma for each way in which the receiver, a stream or a sample clock starts, stops, sleeps or wakes. -/
theorem receiverStartsStopsSleepsAndWakes : Obligations.ReceiverStartsStopsSleepsAndWakes :=
  ⟨fun _ _ _ _ _ => gnssEnable_starts_settles, fun _ _ _ _ _ => gnssEnable_islandDown_settles, fun _ _ _ => gnssDisable_settles,
    fun _ => gnssStopDone_settles, fun _ _ _ _ => streamEnable_settles, fun _ _ => sclkLoss_settles, fun _ _ => sclkRestart_settles,
    fun _ => gnssSleep_settles, fun _ => gnssSleep_refused, fun _ => gnssSleepDone_settles, fun _ => gnssWake_replies,
    fun _ => gnssWake_refused⟩

end Sys2Proof.Machine

/-! ## The edge measurement array: what an edge leaves alone (R50 to R64)

An edge that reaches the crossbar changes its channels' fields and rings, and faults may come of it. -/

namespace Sys2Proof.Machine

/-- The fields in which an edge shows. -/
def edgeFlds : List Fld := [F.TDC_RING_WR_PTR, F.TDC_RING_LOST_LOST, F.TDC_CH_CNT_MISSED, F.TDC_CH_CNT_RESTARTS, F.TDC_CH_CNT_ORPHANS,
  F.TDC_CH_STAT_WINDOW]

/-- Between `s` and `u` edges have reached the channels: their fields, their rings and what the edge measurement array keeps without a
register have changed, and faults may have come of it. -/
def EdgeOnly (s u : State) : Prop :=
  { s with regs := u.regs, mem := u.mem, tdc := u.tdc, fcu := u.fcu } = u ∧ ∀ f i, f.off edgeFlds = true → u.rd f i = s.rd f i

namespace EdgeOnly
variable {s t u : State}

theorem refl (s : State) : EdgeOnly s s := ⟨rfl, fun _ _ _ => rfl⟩

theorem trans (h : EdgeOnly s t) (k : EdgeOnly t u) : EdgeOnly s u :=
  ⟨by rw [← k.1, ← h.1], fun f i hf => (k.2 f i hf).trans (h.2 f i hf)⟩

theorem wr (h : EdgeOnly s u) {g : Fld} (hg : g ∈ edgeFlds) (v j : Nat) : EdgeOnly s (u.wr g v j) :=
  h.trans ⟨rfl, fun _ i hf => State.rd_wr_off u hf hg v i j⟩

/-- A change of memory, of the array's hidden state and of the fault collector keeps the frame. -/
theorem same (h : EdgeOnly s t) (e : { t with mem := u.mem, tdc := u.tdc, fcu := u.fcu } = u) : EdgeOnly s u :=
  h.trans ⟨by rw [← e], fun f i _ => State.rd_of_regs (by rw [← e]) f i⟩

theorem foldl {α : Type} {f : State → α → State} (hf : ∀ t x, EdgeOnly t (f t x)) (xs : List α) (s : State) :
    EdgeOnly s (xs.foldl f s) := by
  induction xs generalizing s with
  | nil => exact .refl s
  | cons x xs ih => exact (hf s x).trans (ih _)

theorem setTch (h : EdgeOnly s u) (n : Nat) (c : TdcCh) : EdgeOnly s (u.setTch n c) := h.same rfl
theorem mwr (h : EdgeOnly s u) (a n v : Nat) : EdgeOnly s (u.mwr a n v) := h.same rfl
theorem raise (h : EdgeOnly s u) (fs n : Nat) : EdgeOnly s (u.raise fs n) := h.same rfl

theorem ringStore (h : EdgeOnly s u) (n value seq word : Nat) : EdgeOnly s (u.ringStore n value seq word) := by
  unfold State.ringStore
  exact (h.mwr _ 16 _).wr (.head _) _ n

theorem ringReport (h : EdgeOnly s u) (n : Nat) : EdgeOnly s (u.ringReport n) := by
  unfold State.ringReport
  dsimp only
  split
  · exact (h.ringStore n _ _ _).setTch n _
  · exact h

theorem ringPut (h : EdgeOnly s u) (n value seq word : Nat) : EdgeOnly s (u.ringPut n value seq word) := by
  unfold State.ringPut
  extract_lets s₁ c s₂
  have h₁ : EdgeOnly s s₁ := h.ringReport n
  have h₂ : EdgeOnly s s₂ := by
    unfold s₂
    split
    · exact h₁.raise 19 _
    · exact h₁
  split
  · exact h₁.ringStore n _ _ _
  · exact (h₂.setTch n _).wr (.tail _ (.head _)) _ n

theorem ringRec (h : EdgeOnly s u) (n type value seq idx : Nat) (near restart timeout : Bool) (src : Nat) :
    EdgeOnly s (u.ringRec n type value seq idx near restart timeout src) := by
  unfold State.ringRec
  dsimp only
  split
  · exact h
  · exact h.ringPut n _ _ _

theorem closeRec (h : EdgeOnly s u) (n : Nat) (restart timeout : Bool) : EdgeOnly s (u.closeRec n restart timeout) :=
  h.ringRec n _ _ _ _ _ _ _ _

theorem count (h : EdgeOnly s u) {g : Fld} (hg : g ∈ edgeFlds) (n fs k : Nat) : EdgeOnly s ((u.inc g n).raise fs k) :=
  (h.wr hg _ n).raise fs k

theorem missEdge (h : EdgeOnly s u) (n : Nat) : EdgeOnly s (u.missEdge n) := h.count (by simp [edgeFlds]) n 18 _

theorem stampEdge (s : State) (n src pos : Nat) : EdgeOnly s (s.stampEdge n src pos) := by
  unfold State.stampEdge
  dsimp only
  split_ifs
  · exact (refl s).setTch n _
  · exact ((refl s).setTch n _).missEdge n
  · exact ((refl s).setTch n _).missEdge n
  · exact ((refl s).setTch n _).ringRec n _ _ _ _ _ _ _ _
  · exact (refl s).setTch n _

theorem startEdge (s : State) (n src pos : Nat) : EdgeOnly s (s.startEdge n src pos) := by
  unfold State.startEdge
  extract_lets raw w c s₁ t s₂ c₂ s₃
  have h₁ : EdgeOnly s s₁ := (refl s).setTch n _
  have h₂ : EdgeOnly s s₂ := by
    unfold s₂
    split
    · exact (h₁.closeRec n true false).count (by simp [edgeFlds]) n 21 _
    · exact h₁
  split_ifs
  · exact refl s
  · exact (refl s).missEdge n
  · exact h₁
  · exact ((h₂.setTch n _).ringRec n _ _ _ _ _ _ _ _).wr (by simp [edgeFlds]) 2 n

theorem stopEdge (s : State) (n src pos : Nat) : EdgeOnly s (s.stopEdge n src pos) := by
  unfold State.stopEdge State.rearm
  dsimp only
  have h (c : TdcCh) : EdgeOnly s (s.setTch n c) := (refl s).setTch n c
  split_ifs
  · exact refl s
  · exact (refl s).missEdge n
  · exact ((h _).ringRec n _ _ _ _ _ _ _ _).count (by simp [edgeFlds]) n 20 _
  · exact (((h _).ringRec n _ _ _ _ _ _ _ _).closeRec n _ _).wr (by simp [edgeFlds]) _ n
  · exact (((h _).ringRec n _ _ _ _ _ _ _ _).closeRec n _ _).wr (by simp [edgeFlds]) _ n
  · exact (h _).ringRec n _ _ _ _ _ _ _ _

theorem channelEdge (s : State) (src : Nat) (fall : Bool) (pos n : Nat) : EdgeOnly s (s.channelEdge src fall pos n) := by
  unfold State.channelEdge
  extract_lets st mode isStart isStop s₁
  have h₁ : EdgeOnly s s₁ := by
    unfold s₁
    split
    · exact startEdge s n src pos
    · exact refl s
  have hs := stampEdge s n src pos
  split_ifs
  · exact hs
  · exact refl s
  · exact hs
  · exact refl s
  · exact refl s
  · exact hs
  · exact refl s
  · exact h₁.trans (stopEdge s₁ n src pos)
  · exact h₁

/-- An edge that reaches the crossbar changes the edge measurement array and its rings only. -/
theorem crossEdge (s : State) (src : Nat) (fall : Bool) (pos : Nat) : EdgeOnly s (s.crossEdge src fall pos) := by
  unfold State.crossEdge
  extract_lets cnt cnt' td s₁
  have h₁ : EdgeOnly s s₁ := by
    unfold s₁
    split <;> exact (refl s).same rfl
  split_ifs
  · exact refl s
  · exact h₁
  · exact h₁.trans (.foldl (fun t n => channelEdge t src fall pos n) _ s₁)

theorem gnss (h : EdgeOnly s u) : u.gnss = s.gnss := by rw [← h.1]
theorem ridge (h : EdgeOnly s u) : u.ridge = s.ridge := by rw [← h.1]

end EdgeOnly
end Sys2Proof.Machine

/-! ## The receiver: what its epoch latches, its verdict and its surveys leave alone

The steps of which an epoch latch and a solution are made, each with the fields that it may write and what it keeps of the hidden
state. -/

namespace Sys2Proof.Machine

/-- What each member of a list leaves of the receiver's hidden state, all leave. -/
theorem gnss_foldl {α : Type} {f : State → α → State} (h : ∀ s x, (f s x).gnss = s.gnss) (xs : List α) (s : State) :
    (xs.foldl f s).gnss = s.gnss := by
  induction xs generalizing s with
  | nil => rfl
  | cons x xs ih => exact (ih _).trans (h s x)

/-- Between `s` and `u` the window memories alone have changed. -/
def MemOnly (s u : State) : Prop := { s with mem := u.mem } = u

namespace MemOnly
variable {s t u : State}

theorem refl (s : State) : MemOnly s s := rfl

theorem mwr (h : MemOnly s u) (a n v : Nat) : MemOnly s (u.mwr a n v) := by
  rw [MemOnly] at h ⊢
  rw [← h]
  rfl

theorem trans (h : MemOnly s t) (k : MemOnly t u) : MemOnly s u := by
  rw [MemOnly] at h k ⊢
  rw [← k, ← h]

theorem foldl {α : Type} {f : State → α → State} (hf : ∀ t x, MemOnly t (f t x)) (xs : List α) (s : State) :
    MemOnly s (xs.foldl f s) := by
  induction xs generalizing s with
  | nil => exact .refl s
  | cons x xs ih => exact (hf s x).trans (ih _)

theorem gnss (h : MemOnly s u) : u.gnss = s.gnss := by rw [← h]

theorem rxMem (h : MemOnly s u) (fs : List Fld) : RxMem s u fs :=
  ⟨by rw [← h], fun f i _ => State.rd_of_regs (by rw [← h]) f i⟩

end MemOnly

/-- The epoch latched, the assignments that wait for a latch and the values that were in force until it are the same. -/
structure LatchKept (s u : State) : Prop where
  latched : u.gnss.latched = s.gnss.latched
  assigns : u.gnss.assigns = s.gnss.assigns
  was : u.gnss.was = s.gnss.was

namespace LatchKept
variable {s t u : State}

theorem refl (s : State) : LatchKept s s := ⟨rfl, rfl, rfl⟩

theorem trans (h : LatchKept s t) (k : LatchKept t u) : LatchKept s u :=
  ⟨k.latched.trans h.latched, k.assigns.trans h.assigns, k.was.trans h.was⟩

theorem of_gnss (h : u.gnss = s.gnss) : LatchKept s u := by
  constructor <;> rw [h]

theorem foldl {α : Type} {f : State → α → State} (hf : ∀ t x, LatchKept t (f t x)) (xs : List α) (s : State) :
    LatchKept s (xs.foldl f s) := by
  induction xs generalizing s with
  | nil => exact .refl s
  | cons x xs ih => exact (hf s x).trans (ih _)

end LatchKept

namespace State
variable {s : State}

/-! ### Epoch latches (R218, R219, R225, R226) -/

/-- The fields that show the notches of a stream. -/
def notchFlds : List Fld := [F.GNSS_NOTCH_ACTIVE, F.GNSS_NOTCH_FREQ, F.GNSS_NOTCH_WIDTH, F.GNSS_STREAM_STAT_NOTCHES]

theorem placeNotches_kept (t : Nat) : RxOnly s (s.placeNotches t) notchFlds ∧ LatchKept s (s.placeNotches t) := by
  obtain ⟨u, hu⟩ : ∃ u, s.placeNotches t = u := ⟨_, rfl⟩
  rw [hu]
  unfold placeNotches at hu
  extract_lets mode g s₁ l want have' moved s₂ s₃ g₃ at hu
  have h₁ : RxOnly s s₁ notchFlds ∧ LatchKept s s₁ := by
    unfold s₁
    split
    · exact ⟨.refl s _, .refl s⟩
    · exact ⟨(RxOnly.refl s _).same rfl, rfl, rfl, rfl⟩
  clear_value s₁ moved want
  have h₂ : RxOnly s₁ s₂ notchFlds ∧ s₂.gnss = s₁.gnss := by
    unfold s₂ forN
    refine ⟨RxOnly.foldl (fun u i => ?_) _ s₁, gnss_foldl (fun u i => by simp only [wrB_eq, wr_gnss]) _ s₁⟩
    exact (((RxOnly.refl u _).wr (.head _) _ _).wr (.tail _ (.head _)) _ _).wr (.tail _ (.tail _ (.head _))) _ _
  clear_value s₂
  have h₃ : RxOnly s₂ u notchFlds ∧ LatchKept s₂ u := by
    rw [← hu]
    exact ⟨((RxOnly.refl s₂ _).wr (by simp [notchFlds]) _ t).same rfl, rfl, rfl, rfl⟩
  exact ⟨h₁.1.trans (h₂.1.trans h₃.1), h₁.2.trans ((LatchKept.of_gnss h₂.2).trans h₃.2)⟩

theorem latchKept_chOnly {u : State} (h : ChOnly s u) : LatchKept s u := by
  constructor <;> rw [h.gnss]

theorem latchKept_takeMode : LatchKept s s.takeMode := by
  constructor <;> rw [← takeMode_gnss]

/-- An assignment that takes effect releases its channel, queues a search at most, and answers its command. -/
theorem applyAssign_kept (q : ChAssign) : RxMem s (s.applyAssign q) [F.GNSS_STAT_CH_TRACK] ∧ LatchKept s (s.applyAssign q) := by
  unfold applyAssign
  extract_lets s₁ s₂
  have h₁ : RxMem s s₁ [F.GNSS_STAT_CH_TRACK] ∧ LatchKept s s₁ := ⟨rxMem_releaseCh q.no, rfl, rfl, rfl⟩
  have h₂ : RxMem s s₂ [F.GNSS_STAT_CH_TRACK] ∧ LatchKept s s₂ := by
    unfold s₂
    clear_value s₁
    split
    · exact h₁
    · have h := ChOnly.queueSearch s₁ ⟨q.no, q.ant, q.b, q.sig, q.sv, q.cmd.isSome, Ch.search, 0, 0, false⟩ s₁.firstClass
      exact ⟨h₁.1.trans (.of_rxOnly (.of_chOnly h)), h₁.2.trans (latchKept_chOnly h)⟩
  clear_value s₂
  split
  · next c _ =>
    have h := Answered.finish s₂ c Code.ok 0 0 0
    exact ⟨h₂.1.trans (.of_rxOnly ((RxOnly.refl s₂ _).answered h)), h₂.2.trans (.of_gnss h.gnss)⟩
  · exact h₂

/-! ### The verdict of an epoch (R240 to R244) -/

/-- The value in force of a field depends on the field and on the values kept alone. -/
theorem inG_congr {t : State} {f : Fld} {i : Nat} (hw : t.gnss.was = s.gnss.was) (hf : t.rd f i = s.rd f i) : t.inG f i = s.inG f i := by
  rw [inG, inG, hw, hf]

/-- The values of a test that GNSS_SPOOF_STAT shows. -/
theorem spoofStat_kept (rms d : Nat) :
    RxOnly s ((s.wrSat F.GNSS_SPOOF_STAT_RMS rms).wrSat F.GNSS_SPOOF_STAT_D d) [F.GNSS_SPOOF_STAT_RMS, F.GNSS_SPOOF_STAT_D] ∧
    ((s.wrSat F.GNSS_SPOOF_STAT_RMS rms).wrSat F.GNSS_SPOOF_STAT_D d).gnss = s.gnss :=
  ⟨((RxOnly.refl s _).wr (.head _) _ 0).wr (.tail _ (.head _)) _ 0, rfl⟩

/-- The channels of a satellite that the test has left out show EXCL. -/
def markExcluded (s : State) (o : GeoObs) : State :=
  [o.c0, o.c1].foldl (fun s c => s.mwr (chRec c + 28) 4 (setBit (s.mrd (chRec c + 28) 4) 25 true)) s

theorem memOnly_markExcluded (o : GeoObs) : MemOnly s (s.markExcluded o) := .foldl (fun t _ => (MemOnly.refl t).mwr _ 4 _) _ s

/-- The residuals of a test show in GNSS_SPOOF_STAT and in the channels' records. -/
theorem showGeo_kept (g : GeoResult) :
    RxMem s (s.showGeo g) [F.GNSS_SPOOF_STAT_RMS, F.GNSS_SPOOF_STAT_D] ∧ (s.showGeo g).gnss = s.gnss := by
  unfold showGeo
  extract_lets n r s₁ s₂ s₃
  have h₂ : RxMem s s₂ [F.GNSS_SPOOF_STAT_RMS, F.GNSS_SPOOF_STAT_D] ∧ s₂.gnss = s.gnss := (spoofStat_kept _ _).imp_left .of_rxOnly
  clear_value s₂
  have h₃ : MemOnly s₂ s₃ := MemOnly.foldl (fun t p => ((MemOnly.refl t).mwr _ 4 _).mwr _ 4 _) r s₂
  split
  · exact ⟨.refl s _, rfl⟩
  · have h₄ := h₃.trans (MemOnly.foldl (f := markExcluded) (fun _ o => memOnly_markExcluded o)
      (g.init.filter (fun o => !g.left.contains o)) s₃)
    exact ⟨h₂.1.trans (h₄.rxMem _), h₄.gnss.trans h₂.2⟩

/-- The fields that show a verdict. -/
def verdictFlds : List Fld := [F.GNSS_VERDICT_VERDICT, F.GNSS_VERDICT_CAUSE, F.GNSS_VERDICT_EXCL, F.GNSS_VCNT_SPOOFED_CNT,
  F.GNSS_VCNT_SUSPECT_CNT]

/-- Between `s` and `u` a verdict has been reached: of the hidden state it has counted failures and epochs only. -/
def VerdictOnly (s u : State) : Prop :=
  RxOnly s u verdictFlds ∧ { s.gnss with fails := u.gnss.fails, causes := u.gnss.causes, clear := u.gnss.clear } = u.gnss

namespace VerdictOnly
variable {t u : State}

theorem trans (h : VerdictOnly s t) (k : VerdictOnly t u) : VerdictOnly s u := ⟨h.1.trans k.1, by rw [← k.2, ← h.2]⟩

theorem wr (h : VerdictOnly s u) {g : Fld} (hg : g ∈ verdictFlds) (v : Nat) : VerdictOnly s (u.wr g v) := ⟨h.1.wr hg v 0, h.2⟩

theorem condOn (h : VerdictOnly s u) (n k : Nat) : VerdictOnly s (u.condOn n k) := ⟨h.1.condOn n k, by rw [condOn_gnss]; exact h.2⟩

theorem count (h : VerdictOnly s u) (k : Nat) : VerdictOnly s (u.setGnss { u.gnss with clear := k }) :=
  h.trans ⟨(RxOnly.refl u _).same rfl, rfl⟩

theorem move (h : VerdictOnly s u) (v : Nat) : VerdictOnly s (u.moveVerdict v) :=
  ⟨h.1.trans ((rxOnly_moveVerdict v).mono (by simp [verdictFlds])), by rw [moveVerdict_gnss]; exact h.2⟩

end VerdictOnly

theorem verdictOnly_verdict (g : GeoResult) (bad excl : Nat) : VerdictOnly s (s.verdict g bad excl) := by
  obtain ⟨u, hu⟩ : ∃ u, s.verdict g bad excl = u := ⟨_, rfl⟩
  rw [hu]
  unfold verdict at hu
  extract_lets v s₁ weak pass g₁ s₂ geoOk counts g₂ s₃ g₃ s₄ g₄ at hu
  have h₃ : VerdictOnly s s₃ := by
    have h₁ : VerdictOnly s s₁ := ⟨((RxOnly.refl s _).wr (by simp [verdictFlds]) _ 0).wr (by simp [verdictFlds]) _ 0, rfl⟩
    clear_value s₁
    exact (h₁.trans (u := s₂) ⟨(RxOnly.refl s₁ _).same rfl, rfl⟩).count _
  clear_value s₃
  have h₄ : VerdictOnly s s₄ := (h₃.wr (by simp [verdictFlds]) _).condOn 85 _
  clear_value s₄ v weak
  rw [← hu]
  split_ifs
  · exact (h₃.count 0).move _
  · exact h₃
  · exact (h₄.count 0).move _
  · exact h₃.move _
  · exact h₃
  · exact h₃.move _
  · exact h₃
  · exact h₃
  · exact (h₃.count 0).move _
  · exact ((h₃.wr (by simp [verdictFlds]) _).condOn 84 _).move _
  · exact h₃

end State

/-! ### A solution, a survey and the hint store (R230 to R235, R245) -/

/-- The epoch that is being solved, the solution that waits for its delivery and the run of invalid ones are the same. -/
structure SolKept (s u : State) : Prop where
  epoch : u.gnss.epoch = s.gnss.epoch
  had : u.gnss.hadSolution = s.gnss.hadSolution
  sol : u.gnss.sol = s.gnss.sol
  invalid : u.gnss.invalid = s.gnss.invalid

namespace SolKept
variable {s t u : State}

theorem refl (s : State) : SolKept s s := ⟨rfl, rfl, rfl, rfl⟩

theorem trans (h : SolKept s t) (k : SolKept t u) : SolKept s u :=
  ⟨k.epoch.trans h.epoch, k.had.trans h.had, k.sol.trans h.sol, k.invalid.trans h.invalid⟩

theorem of_gnss (h : u.gnss = s.gnss) : SolKept s u := by
  constructor <;> rw [h]

end SolKept

namespace State
variable {s : State}

theorem memOnly_markUsed (g : GeoResult) (v : SatIn) : MemOnly s (s.markUsed g v) := by
  unfold markUsed
  split
  · exact .refl s
  · exact ((MemOnly.refl s).mwr _ 4 _).mwr _ 4 _

/-- The fields in which the UTC parameters and inter-system offsets of a solution show. -/
def utcFlds : List Fld := [F.GNSS_ISB_ISB, F.GNSS_UTC_TAI_UTC, F.GNSS_UTC_TAI_UTC_NEXT, F.GNSS_UTC_PEND, F.GNSS_UTC_DAY_DAY]

theorem gnssUtc_kept (x : GnssFix) : RxOnly s (s.gnssUtc x) utcFlds ∧ (s.gnssUtc x).gnss = s.gnss := by
  unfold gnssUtc
  extract_lets s₁ was s₂ s₃
  have h₁ : RxOnly s s₁ utcFlds ∧ s₁.gnss = s.gnss :=
    ⟨RxOnly.foldl (fun u i => (RxOnly.refl u _).wr (.head _) _ i) _ s, gnss_foldl (fun u i => by rw [wrS_eq, wr_gnss]) _ s⟩
  clear_value s₁ was
  have h₃ : RxOnly s₁ s₃ utcFlds ∧ s₃.gnss = s₁.gnss :=
    ⟨((((RxOnly.refl s₁ _).wr (by simp [utcFlds]) _ 0).wr (by simp [utcFlds]) _ 0).wr (by simp [utcFlds]) _ 0).wr
      (by simp [utcFlds]) _ 0, rfl⟩
  clear_value s₃
  split
  · exact ⟨(h₁.1.trans h₃.1).same rfl, h₃.2.trans h₁.2⟩
  · exact ⟨h₁.1.trans h₃.1, h₃.2.trans h₁.2⟩

/-- The fields that a survey-in writes when it completes. -/
def surveyFlds : List Fld := [F.GNSS_POS_X_POS, F.GNSS_POS_Y_POS, F.GNSS_POS_Z_POS, F.GNSS_POS_SIG_SIG, F.GNSS_BASE_E_BASE,
  F.GNSS_BASE_N_BASE, F.GNSS_BASE_U_BASE, F.GNSS_BASE_STAT_LEARNED, F.GNSS_STAT_MODE_ACT]

theorem saveHint_kept (fs : List Fld) : RxOnly s s.saveHint fs ∧ SolKept s s.saveHint :=
  ⟨(RxOnly.refl s _).same rfl, rfl, rfl, rfl, rfl⟩

theorem surveyDone_kept (sig : Nat) : RxOnly s (s.surveyDone sig) surveyFlds ∧ SolKept s (s.surveyDone sig) := by
  obtain ⟨u, hu⟩ : ∃ u, s.surveyDone sig = u := ⟨_, rfl⟩
  rw [hu]
  unfold surveyDone at hu
  extract_lets n mean p s₁ s₂ b s₃ g₃ s₄ at hu
  clear_value n p mean
  have h₂ : RxOnly s s₂ surveyFlds ∧ s₂.gnss = s.gnss :=
    ⟨((((RxOnly.refl s _).wr (by simp [surveyFlds]) _ 0).wr (by simp [surveyFlds]) _ 0).wr (by simp [surveyFlds]) _ 0).wr
      (by simp [surveyFlds]) _ 0, rfl⟩
  clear_value s₂
  have h₃ : RxOnly s s₃ surveyFlds ∧ s₃.gnss = s.gnss := by
    unfold s₃
    split
    · exact ⟨(((h₂.1.wr (by simp [surveyFlds]) _ 0).wr (by simp [surveyFlds]) _ 0).wr (by simp [surveyFlds]) _ 0).wr
        (by simp [surveyFlds]) _ 0, h₂.2⟩
    · exact h₂
  clear_value s₃
  have h₄ : RxOnly s₃ s₄ surveyFlds ∧ SolKept s₃ s₄ := ⟨(RxOnly.refl s₃ _).same rfl, rfl, rfl, rfl, rfl⟩
  clear_value s₄
  have h₅ := saveHint_kept (s := s₄.wr F.GNSS_STAT_MODE_ACT 2) surveyFlds
  rw [← hu]
  exact ⟨((h₃.1.trans h₄.1).wr (by simp [surveyFlds]) 2 0).trans h₅.1,
    ((SolKept.of_gnss h₃.2).trans h₄.2).trans ((SolKept.of_gnss (wr_gnss s₄ _ 2 0)).trans h₅.2)⟩

theorem surveyEpoch_kept (x : GnssFix) : RxOnly s (s.surveyEpoch x) surveyFlds ∧ SolKept s (s.surveyEpoch x) := by
  unfold surveyEpoch
  extract_lets add g s₁
  have h₁ : RxOnly s s₁ surveyFlds ∧ SolKept s s₁ := ⟨(RxOnly.refl s _).same rfl, rfl, rfl, rfl, rfl⟩
  clear_value s₁
  split_ifs
  · exact ⟨.refl s _, .refl s⟩
  · have h₂ := surveyDone_kept (s := s₁) x.sig
    exact ⟨h₁.1.trans h₂.1, h₁.2.trans h₂.2⟩
  · exact h₁

end State
end Sys2Proof.Machine

/-! ## Interference with the receiver (R217 to R219) -/

namespace Sys2Proof.Machine

theorem exec_jamSet (t jn : Nat) (s : State) : exec (.jamSet t jn) s = execJamSet t jn s := rfl
theorem exec_jamClear (t jn : Nat) (s : State) : exec (.jamClear t jn) s = execJamClear t jn s := rfl
theorem exec_notchScan (peaks : List (List (Int × Nat))) (jn : List Nat) (sat : Nat) (s : State) :
    exec (.notchScan peaks jn sat) s = execNotchScan peaks jn sat s := rfl

namespace State
variable {s : State}

/-- The J/N of stream `t` is shown, and whether the stream is jammed. -/
def showJam (s : State) (t jn : Nat) (b : Bool) : State :=
  ((s.wrSat F.GNSS_STREAM_STAT_JN jn t).wr F.GNSS_STREAM_STAT_JAM b.toNat t).wrBit F.GNSS_VERDICT_JAM t b

theorem showJam_facts {t : Nat} (ht : t < 8) (jn : Nat) (b : Bool) :
    (s.showJam t jn b).rd F.GNSS_STREAM_STAT_JN t = satU F.GNSS_STREAM_STAT_JN.w jn ∧
    (s.showJam t jn b).on F.GNSS_STREAM_STAT_JAM t = b ∧ bit ((s.showJam t jn b).rd F.GNSS_VERDICT_JAM) t = b ∧
    OnlyRegs s (s.showJam t jn b) [(F.GNSS_STREAM_STAT_JN, t), (F.GNSS_STREAM_STAT_JAM, t), (F.GNSS_VERDICT_JAM, 0)] := by
  refine ⟨?_, ?_, ?_, (((OnlyRegs.refl s _).wr (.head _) _).wr (.tail _ (.head _)) _).wr (.tail _ (.tail _ (.head _))) _⟩
  · rw [showJam, wrBit_eq, rd_wr_other _ (by decide) (by decide) (by decide), rd_wr_other _ (by decide) (by decide) (by decide), wrSat_eq,
      rd_wr_same, satU_mod]
  · rw [State.on, showJam, wrBit_eq, rd_wr_other _ (by decide) (by decide) (by decide), rd_wr_same]
    cases b <;> rfl
  · rw [showJam, bit_rd_wrBit _ ht, if_pos rfl]

theorem condHolds_cond (fs n : Nat) (b : Bool) : (s.cond fs b n).condHolds fs n = b := by
  cases b
  · exact condHolds_condOff fs n
  · exact condHolds_condOn fs n

/-- A condition that begins or ends leaves those told apart by another snapshot. -/
theorem condHolds_cond_other {fs n k : Nat} (h : k ≠ n) (b : Bool) : (s.cond fs b n).condHolds fs k = s.condHolds fs k := by
  cases b
  · show (s.fcu.conds.filter _).any _ = s.fcu.conds.any _
    rw [List.any_filter]
    refine congrArg (s.fcu.conds.any ·) (funext fun c => ?_)
    by_cases hc : c.snap = k
    · simp [hc, h]
    · simp [hc]
  · simp only [cond, if_true, condOn, condHolds]
    split
    · rfl
    · simp [Ne.symm h]

theorem rd_cond (fs n : Nat) (b : Bool) (f : Fld) (i : Nat) : (s.cond fs b n).rd f i = s.rd f i := by
  cases b
  · exact rd_condOff s fs n f i
  · exact rd_condOn s fs n f i

theorem cond_eq (fs n : Nat) (b : Bool) : { s with fcu := (s.cond fs b n).fcu } = s.cond fs b n := by
  cases b
  · rfl
  · exact condOn_eq s fs n

/-- The J/N of stream `t` is shown, and whether too many of its samples saturate. -/
def showSat (s : State) (jn : List Nat) (sat t : Nat) : State :=
  ((s.wrSat F.GNSS_STREAM_STAT_JN (jn.getD t 0) t).wrB F.GNSS_STREAM_STAT_SAT (bit sat t) t).cond 82 (bit sat t) t

/-- Of a spectrum scan, what concerns stream `t`. -/
def scanStream (peaks : List (List (Int × Nat))) (jn : List Nat) (sat : Nat) (s : State) (t : Nat) : State :=
  if !s.streamRuns t then s else
  let s := s.showSat jn sat t
  if s.inG F.GNSS_STREAM_JAM_NOTCH_MODE t = 1 then
    s.setGnss { s.gnss with notch := s.gnss.notch.set t (scanNotches (s.gnss.notch.getD t []) (peaks.getD t [])) }
  else s

/-- Between `s` and `u` register fields, notches and conditions alone have changed. -/
def ScanOnly (s u : State) : Prop := { s with regs := u.regs, gnss := { s.gnss with notch := u.gnss.notch }, fcu := u.fcu } = u

theorem ScanOnly.trans {t u : State} (h : ScanOnly s t) (k : ScanOnly t u) : ScanOnly s u := by
  rw [ScanOnly] at h k ⊢
  rw [← k, ← h]

theorem ScanOnly.streamRuns {u : State} (h : ScanOnly s u) (t : Nat) : u.streamRuns t = s.streamRuns t := by
  rw [State.streamRuns, ← h]
  rfl

/-- A scan judges a stream that runs: SAT and its condition follow the spectrum. -/
def ScanJudged (sat : Nat) (u : State) (t : Nat) : Prop := u.on F.GNSS_STREAM_STAT_SAT t = bit sat t ∧ u.condHolds 82 t = bit sat t

variable {peaks : List (List (Int × Nat))} {jn : List Nat} {sat : Nat}

theorem showSat_facts (t : Nat) : ScanOnly s (s.showSat jn sat t) ∧ ScanJudged sat (s.showSat jn sat t) t ∧
    ∀ k ≠ t, ScanJudged sat s k → ScanJudged sat (s.showSat jn sat t) k := by
  refine ⟨?_, ⟨?_, condHolds_cond 82 t _⟩, fun k hk h => ⟨?_, (condHolds_cond_other hk _).trans h.2⟩⟩
  · rw [ScanOnly, showSat, ← cond_eq]
    rfl
  · rw [State.on, showSat, rd_cond, wrB_eq, rd_wr_same]
    cases bit sat t <;> rfl
  · rw [State.on, showSat, rd_cond, wrB_eq, rd_wr_index _ (by decide) hk, wrSat_eq,
      rd_wr_other _ (by decide) (by decide) (by decide)]
    exact h.1

/-- What a scan does to one stream is seen in its frame, in its own judgement and in that of no other stream. -/
theorem scanStream_facts (t : Nat) : ScanOnly s (scanStream peaks jn sat s t) ∧
    (s.streamRuns t = true → ScanJudged sat (scanStream peaks jn sat s t) t) ∧
    ∀ k ≠ t, ScanJudged sat s k → ScanJudged sat (scanStream peaks jn sat s t) k := by
  obtain ⟨hf, hj, ho⟩ := showSat_facts (s := s) (jn := jn) (sat := sat) t
  unfold scanStream
  dsimp only
  split_ifs with hr
  · exact ⟨rfl, fun h => absurd h (by simpa using hr), fun _ _ h => h⟩
  · exact ⟨hf.trans rfl, fun _ => hj, ho⟩
  · exact ⟨hf, fun _ => hj, ho⟩

theorem execNotchScan_eq : execNotchScan peaks jn sat s = done (forN 8 s (scanStream peaks jn sat)) := rfl

theorem scanStreams_upTo (n : Nat) : ScanOnly s (forN n s (scanStream peaks jn sat)) ∧
    ∀ t < n, s.streamRuns t = true → ScanJudged sat (forN n s (scanStream peaks jn sat)) t := by
  induction n with
  | zero => exact ⟨rfl, nofun⟩
  | succ n ih =>
    obtain ⟨hf, hj⟩ := ih
    rw [forN_succ]
    obtain ⟨hf', hn, ho⟩ := scanStream_facts (s := forN n s (scanStream peaks jn sat)) (peaks := peaks) (jn := jn) (sat := sat) n
    refine ⟨hf.trans hf', fun t ht hr => ?_⟩
    by_cases h : t = n
    · subst h
      exact hn ((hf.streamRuns t).trans hr)
    · exact ho t h (hj t (by omega) hr)

end State

section
variable {s : State}

theorem jamSet_settles {t : Nat} (jn : Nat) (ht : t < 8) (hr : s.streamRuns t = true) : Settles (.jamSet t jn) s (fun u =>
    u.rd F.GNSS_STREAM_STAT_JN t = satU F.GNSS_STREAM_STAT_JN.w jn ∧ u.on F.GNSS_STREAM_STAT_JAM t = true ∧
    bit (u.rd F.GNSS_VERDICT_JAM) t = true ∧ u.condHolds 83 t = true ∧
    OnlyRegsFcu s u [(F.GNSS_STREAM_STAT_JN, t), (F.GNSS_STREAM_STAT_JAM, t), (F.GNSS_VERDICT_JAM, 0)]) := by
  have hx : execJamSet t jn s = done ((s.showJam t jn true).condOn 83 t) := by
    rw [execJamSet, if_neg (by simp [hr, ht])]
    rfl
  obtain ⟨hjn, hj, hv, ho⟩ := State.showJam_facts (s := s) ht jn true
  have hc := State.onlyRegsFcu_condOn (s := s.showJam t jn true)
    [(F.GNSS_STREAM_STAT_JN, t), (F.GNSS_STREAM_STAT_JAM, t), (F.GNSS_VERDICT_JAM, 0)] 83 t
  refine ⟨_, (exec_jamSet t jn s).trans hx, ?_, ?_, ?_, State.condHolds_condOn 83 t, ?_⟩
  · rw [State.rd_condOn, hjn]
  · rw [State.on, State.rd_condOn]
    exact hj
  · rw [State.rd_condOn, hv]
  · exact State.onlyRegsFcu_trans ⟨by rw [← ho.1], ho.2⟩ hc

theorem jamClear_settles {t : Nat} (jn : Nat) (ht : t < 8) : Settles (.jamClear t jn) s (fun u =>
    u.on F.GNSS_STREAM_STAT_JAM t = false ∧ bit (u.rd F.GNSS_VERDICT_JAM) t = false ∧ u.condHolds 83 t = false ∧
    OnlyRegsFcu s u [(F.GNSS_STREAM_STAT_JN, t), (F.GNSS_STREAM_STAT_JAM, t), (F.GNSS_VERDICT_JAM, 0)]) := by
  have hx : execJamClear t jn s = done ((s.showJam t jn false).condOff 83 t) := by
    rw [execJamClear, if_neg (by omega)]
    rfl
  obtain ⟨-, hj, hv, ho⟩ := State.showJam_facts (s := s) ht jn false
  exact ⟨_, (exec_jamClear t jn s).trans hx, hj, hv, State.condHolds_condOff 83 t, by rw [← ho.1]; rfl, ho.2.same rfl⟩

theorem notchScan_settles (peaks : List (List (Int × Nat))) (jn : List Nat) (sat : Nat) : Settles (.notchScan peaks jn sat) s (fun u =>
    (∀ t, t < 8 → s.streamRuns t = true → u.on F.GNSS_STREAM_STAT_SAT t = bit sat t ∧ u.condHolds 82 t = bit sat t) ∧
    { s with regs := u.regs, gnss := { s.gnss with notch := u.gnss.notch }, fcu := u.fcu } = u) :=
  have h := State.scanStreams_upTo (s := s) (peaks := peaks) (jn := jn) (sat := sat) 8
  ⟨_, (exec_notchScan peaks jn sat s).trans State.execNotchScan_eq, h.2, h.1⟩

end
end Sys2Proof.Machine

/-! ## Epochs, solutions, surveys and hints of the receiver (R226, R230 to R238, R245) -/

namespace Sys2Proof.Machine

theorem exec_epochLatch (pos : Nat) (s : State) : exec (.epochLatch pos) s = execEpochLatch pos s := rfl
theorem exec_solutionDone (x : GnssFix) (s : State) : exec (.solutionDone x) s = execSolutionDone x s := rfl
theorem exec_gnssDelivery (s : State) : exec .gnssDelivery s = execGnssDelivery s := rfl
theorem exec_surveyTimeout (s : State) : exec .surveyTimeout s = execSurveyTimeout s := rfl
theorem exec_gnssSurvey (c : CmdRef) (w0 : Nat) (s : State) : exec (.gnssSurvey c w0) s = execGnssSurvey c w0 s := rfl
theorem exec_gnssHintSave (c : CmdRef) (s : State) : exec (.gnssHintSave c) s = execGnssHintSave c s := rfl
theorem exec_hintPeriodicSave (s : State) : exec .hintPeriodicSave s = execHintPeriodicSave s := rfl
theorem exec_gnssCold (c : CmdRef) (s : State) : exec (.gnssCold c) s = execGnssCold c s := rfl

namespace State
variable {s : State}

/-! ### Epoch latches (R226) -/

/-- The latch of GA0 drives crossbar source 13. -/
def driveLatch (s : State) (pos : Nat) : State := if (List.range 4).any s.streamRuns then s.crossEdge 13 false pos else s

theorem edgeOnly_driveLatch (pos : Nat) : EdgeOnly s (s.driveLatch pos) := by
  unfold driveLatch
  split
  · exact .crossEdge s 13 false pos
  · exact .refl s

/-- The anchor, the beat and the corrections so far are latched. -/
def latchEpoch (s : State) : State :=
  s.setGnss { s.gnss with
    latched := some ⟨s.rd F.RIDGE_x_ANCHOR_COUNT_COUNT 0, s.rd F.RIDGE_BEAT_SEQ_SEQ, s.ridge.a.total⟩ }

/-- What waits for an epoch latch takes effect: the notches, the values written since, the mode and the assignments. -/
def takeWaiting (s : State) : State :=
  let s := forN 8 s State.placeNotches
  let s := s.setGnss { s.gnss with was := [] }
  let s := if s.gnss.modeNew then s.takeMode else s
  let l := s.gnss.assigns
  let s := s.setGnss { s.gnss with assigns := [] }
  l.foldl State.applyAssign s

/-- After an epoch latch nothing waits for it any more, and the epoch latched is as it was. -/
theorem takeWaiting_facts : s.takeWaiting.gnss.latched = s.gnss.latched ∧ s.takeWaiting.gnss.assigns = [] ∧
    s.takeWaiting.gnss.was = [] ∧ s.takeWaiting.ridge = s.ridge := by
  unfold takeWaiting
  extract_lets s₁ g₁ s₂ s₃ l g₃ s₄
  have h₁ : RxOnly s s₁ notchFlds ∧ LatchKept s s₁ :=
    ⟨RxOnly.foldl (fun _ t => (placeNotches_kept t).1) _ s, LatchKept.foldl (fun _ t => (placeNotches_kept t).2) _ s⟩
  clear_value s₁
  have h₃ : RxOnly s₂ s₃ [F.GNSS_STAT_MODE_ACT] ∧ LatchKept s₂ s₃ := by
    unfold s₃
    split
    · exact ⟨rxOnly_takeMode, latchKept_takeMode⟩
    · exact ⟨.refl _ _, .refl _⟩
  clear_value s₃
  have h₅ := RxMem.foldl (fun t q => (applyAssign_kept (s := t) q).1) l s₄
  have k₅ := LatchKept.foldl (fun t q => (applyAssign_kept (s := t) q).2) l s₄
  refine ⟨?_, k₅.assigns, ?_, ?_⟩
  · exact (k₅.latched.trans h₃.2.latched).trans h₁.2.latched
  · exact k₅.was.trans h₃.2.was
  · exact (h₅.ridge.trans h₃.1.ridge).trans h₁.1.ridge

theorem execEpochLatch_eq (pos : Nat) (hb : s.epochBeat = true) (hr : (List.range 8).any s.streamRuns = true) :
    execEpochLatch pos s = done (s.driveLatch pos).latchEpoch.takeWaiting := by
  unfold execEpochLatch driveLatch latchEpoch takeWaiting
  rw [if_neg (by rw [hb, hr]; decide)]

/-! ### A solution (R231 to R236, R240 to R243) -/

/-- What the tests find of a finished epoch is shown, and moves the verdict. -/
def judgeFix (s : State) (x : GnssFix) (g : GeoResult) : State :=
  let s := s.showGeo g
  let bad := (g.eval && !g.pass && !(g.close && !g.decisive)).toNat + 2 * s.timeFails.toNat + 4 * (s.posFails x.nav).toNat
  s.verdict g bad (g.init.length - g.left.length)

/-- The fields in which the tests of an epoch show. -/
def judgeFlds : List Fld := [F.GNSS_SPOOF_STAT_RMS, F.GNSS_SPOOF_STAT_D] ++ verdictFlds

theorem judgeFix_kept (x : GnssFix) (g : GeoResult) :
    RxMem s (s.judgeFix x g) judgeFlds ∧ SolKept s (s.judgeFix x g) ∧ (s.judgeFix x g).gnss.was = s.gnss.was := by
  unfold judgeFix
  extract_lets s₁ bad
  have h₁ : RxMem s s₁ [F.GNSS_SPOOF_STAT_RMS, F.GNSS_SPOOF_STAT_D] ∧ s₁.gnss = s.gnss := showGeo_kept g
  clear_value s₁ bad
  obtain ⟨h₂, hg⟩ := verdictOnly_verdict (s := s₁) g bad (g.init.length - g.left.length)
  refine ⟨(h₁.1.mono (List.subset_append_left _ _)).trans (.of_rxOnly (h₂.mono (List.subset_append_right _ _))), ?_, ?_⟩
  · refine (SolKept.of_gnss h₁.2).trans ?_
    constructor <;> rw [← hg]
  · rw [← hg, h₁.2]

/-- The `n` satellites used and whether the solution is valid are shown. -/
def showUsed (s : State) (x : GnssFix) (g : GeoResult) (n : Nat) (valid : Bool) : State :=
  let s := x.sats.foldl (fun s v => s.markUsed g v) s
  let s := (s.wrSat F.GNSS_STAT_SV_USED n).wrB F.GNSS_STAT_SOL_VALID valid
  s.setGnss { s.gnss with hadSolution := true }

theorem showUsed_facts (x : GnssFix) (g : GeoResult) (n : Nat) (valid : Bool) :
    (s.showUsed x g n valid).gnss.epoch = s.gnss.epoch ∧ (s.showUsed x g n valid).gnss.hadSolution = true ∧
    (s.showUsed x g n valid).gnss.invalid = s.gnss.invalid ∧ (s.showUsed x g n valid).on F.GNSS_STAT_SOL_VALID = valid ∧
    (s.showUsed x g n valid).ridge = s.ridge := by
  unfold showUsed
  extract_lets s₁ s₂ g₂
  have h₁ : MemOnly s s₁ := .foldl (fun _ v => memOnly_markUsed g v) _ s
  clear_value s₁
  refine ⟨by rw [← h₁.gnss]; rfl, rfl, by rw [← h₁.gnss]; rfl, ?_, (congrArg State.ridge h₁).symm⟩
  show (s₂.rd F.GNSS_STAT_SOL_VALID 0 != 0) = valid
  rw [show s₂ = _ from wrB_eq _ _ _ _, rd_wr_same]
  cases valid <;> rfl

/-- A solution that is not valid is counted, and FS 88 follows the count. -/
def rejectFix (s : State) : State :=
  let n := s.gnss.invalid + 1
  let s := s.setGnss { s.gnss with invalid := n, sol := none }
  s.cond 88 (s.rx == Rx.running && 60 * 2 ^ s.gnss.rate ≤ n)

theorem rejectFix_facts : RxOnly s s.rejectFix [] ∧ s.rejectFix.gnss.epoch = s.gnss.epoch ∧
    s.rejectFix.gnss.hadSolution = s.gnss.hadSolution ∧ s.rejectFix.gnss.sol = none ∧
    s.rejectFix.gnss.invalid = s.gnss.invalid + 1 := by
  unfold rejectFix
  extract_lets n g s₁
  have h₁ : RxOnly s s₁ [] := (RxOnly.refl s []).same rfl
  have hc := cond_eq (s := s₁) 88 0 (s₁.rx == Rx.running && 60 * 2 ^ s₁.gnss.rate ≤ n)
  rw [← hc]
  exact ⟨h₁.same rfl, rfl, rfl, rfl, rfl⟩

/-- A valid solution waits for its delivery; it starts a receiver that is starting or waking, and counts in the survey-in. -/
def acceptFix (s : State) (x : GnssFix) (dual : Bool) (ep : EpochSt) : State :=
  let s := s.condOff 88
  let hold := s.rd F.GNSS_STAT_MODE_ACT == 2
  let s := s.setGnss { s.gnss with
    invalid := 0, pos := if hold then s.holdPos else x.pos,
    posSig := if hold then s.gnss.posSig else x.sig,
    sol := some ⟨x.ofs, x.freq, s.gnssUnc x.sigmaT dual, dual, hold, ep⟩ }
  let s := if s.rx = Rx.starting ∨ s.rx = Rx.waking then
      (s.wr F.GNSS_STAT_START_KIND s.gnss.kind).wr F.GNSS_STAT_STATE Rx.running else s
  (s.gnssUtc x).surveyEpoch x

/-- The fields that a valid solution writes. -/
def acceptFlds : List Fld := F.GNSS_STAT_START_KIND :: F.GNSS_STAT_STATE :: (utcFlds ++ surveyFlds)

theorem acceptFix_facts (x : GnssFix) (dual : Bool) (ep : EpochSt) : RxOnly s (s.acceptFix x dual ep) acceptFlds ∧
    (s.acceptFix x dual ep).gnss.epoch = s.gnss.epoch ∧ (s.acceptFix x dual ep).gnss.hadSolution = s.gnss.hadSolution ∧
    ∃ q, (s.acceptFix x dual ep).gnss.sol = some q ∧ q.ofs = x.ofs ∧ q.freq = x.freq ∧ q.ep = ep := by
  unfold acceptFix
  extract_lets s₁ hold g s₂ s₃
  have h₂ : RxOnly s s₂ acceptFlds := (RxOnly.refl s _).same rfl
  have k₂ : s₂.gnss.epoch = s.gnss.epoch ∧ s₂.gnss.hadSolution = s.gnss.hadSolution ∧
      ∃ q, s₂.gnss.sol = some q ∧ q.ofs = x.ofs ∧ q.freq = x.freq ∧ q.ep = ep := ⟨rfl, rfl, _, rfl, rfl, rfl, rfl⟩
  clear_value s₂
  have h₃ : RxOnly s s₃ acceptFlds ∧ s₃.gnss = s₂.gnss := by
    unfold s₃
    split
    · exact ⟨(h₂.wr (.head _) _ 0).wr (.tail _ (.head _)) _ 0, rfl⟩
    · exact ⟨h₂, rfl⟩
  clear_value s₃
  have h₄ := gnssUtc_kept (s := s₃) x
  have h₅ := surveyEpoch_kept (s := s₃.gnssUtc x) x
  have hk : SolKept s₂ ((s₃.gnssUtc x).surveyEpoch x) := (SolKept.of_gnss (h₄.2.trans h₃.2)).trans h₅.2
  have hr := (h₃.1.trans (h₄.1.mono fun _ hf => by simp [acceptFlds, hf])).trans (h₅.1.mono fun _ hf => by simp [acceptFlds, hf])
  refine ⟨hr, ?_, ?_, ?_⟩
  · rw [hk.epoch, k₂.1]
  · rw [hk.had, k₂.2.1]
  · rw [hk.sol]
    exact k₂.2.2

/-- How many satellites the signals `used` come from. -/
def svCount (used : List SatIn) : Nat := (dedup (used.map (fun v => 256 * sysOf v.sig + v.sv))).length

/-- Some satellite is used on two frequencies. -/
def dualFreq (used : List SatIn) : Bool :=
  used.any (fun v => !isL5 v.sig && used.any (fun u => isL5 u.sig && sysOf u.sig == sysOf v.sig && u.sv == v.sv))

/-- A solution from `n` satellites is valid (R234). -/
def fixValid (s : State) (n : Nat) : Bool :=
  decide (s.inG F.GNSS_MIN_MIN_SV ≤ n) && !(s.rd F.GNSS_VERDICT_VERDICT == Verdict.spoofed)

theorem length_dedup_le (l : List Nat) : (dedup l).length ≤ l.length := by
  have h (l acc : List Nat) : (l.foldl (fun acc x => if acc.contains x then acc else acc ++ [x]) acc).length ≤ acc.length + l.length := by
    induction l generalizing acc with
    | nil => exact Nat.le_refl _
    | cons x xs ih =>
      refine (ih _).trans ?_
      dsimp only
      rw [List.length_cons]
      split
      · omega
      · rw [List.length_append, List.length_singleton]
        omega
  exact (h l []).trans (by simp)

/-- At most as many satellites are used as were given. -/
theorem svCount_filter_le (p : SatIn → Bool) (l : List SatIn) : svCount (l.filter p) ≤ l.length :=
  (length_dedup_le _).trans (by rw [List.length_map]; exact List.length_filter_le p l)

/-- What follows a finished epoch once it is judged, as `t`. -/
def concludeFix (t : State) (x : GnssFix) (g : GeoResult) (ep : EpochSt) : State :=
  let n := svCount (x.sats.filter (t.usable g))
  let u := t.showUsed x g n (t.fixValid n)
  if !t.fixValid n then u.rejectFix else u.acceptFix x (dualFreq (x.sats.filter (t.usable g))) ep

theorem concludeFix_facts {t : State} (x : GnssFix) (g : GeoResult) (ep : EpochSt) :
    (t.concludeFix x g ep).gnss.epoch = t.gnss.epoch ∧ (t.concludeFix x g ep).gnss.hadSolution = true ∧
    ((t.concludeFix x g ep).on F.GNSS_STAT_SOL_VALID = true ↔
      ∃ q, (t.concludeFix x g ep).gnss.sol = some q ∧ q.ofs = x.ofs ∧ q.freq = x.freq ∧ q.ep = ep) ∧
    (x.sats.length < t.inG F.GNSS_MIN_MIN_SV →
      (t.concludeFix x g ep).on F.GNSS_STAT_SOL_VALID = false ∧ (t.concludeFix x g ep).gnss.invalid = t.gnss.invalid + 1) ∧
    (t.concludeFix x g ep).ridge = t.ridge := by
  unfold concludeFix
  dsimp only
  have hle : svCount (x.sats.filter (t.usable g)) ≤ x.sats.length := svCount_filter_le _ _
  generalize svCount (x.sats.filter (t.usable g)) = n at hle ⊢
  obtain ⟨he, hh, hi, hs, hr⟩ := showUsed_facts (s := t) x g n (t.fixValid n)
  generalize t.showUsed x g n (t.fixValid n) = u at he hh hi hs hr ⊢
  cases hv : t.fixValid n
  case true =>
    rw [hv] at hs
    rw [if_neg (by decide)]
    have hn : t.inG F.GNSS_MIN_MIN_SV ≤ n := of_decide_eq_true (Bool.and_eq_true _ _ ▸ hv).1
    obtain ⟨hu, he', hh', hq⟩ := acceptFix_facts (s := u) x (dualFreq (x.sats.filter (t.usable g))) ep
    exact ⟨he'.trans he, hh'.trans hh, iff_of_true ((hu.on rfl 0).trans hs) hq, fun hlt => absurd hn (by omega), hu.ridge.trans hr⟩
  case false =>
    rw [hv] at hs
    rw [if_pos (by decide)]
    obtain ⟨hu, he', hh', hn, hi'⟩ := rejectFix_facts (s := u)
    have hon : u.rejectFix.on F.GNSS_STAT_SOL_VALID = false := (hu.on rfl 0).trans hs
    refine ⟨he'.trans he, hh'.trans hh, iff_of_false (by rw [hon]; decide) ?_, fun _ => ⟨hon, by rw [hi', hi]⟩, hu.ridge.trans hr⟩
    rintro ⟨q, hq, -⟩
    rw [hn] at hq
    cases hq

theorem execSolutionDone_eq {x : GnssFix} {ep : EpochSt} (hp : s.gnss.epoch = some ep) (ha : s.rxActive = true) :
    ∃ g, execSolutionDone x s = done (((s.setGnss { s.gnss with epoch := none }).judgeFix x g).concludeFix x g ep) := by
  refine ⟨(s.setGnss { s.gnss with epoch := none }).geoTest x.sats, ?_⟩
  unfold execSolutionDone concludeFix
  rw [hp]
  refine (if_neg (show ¬ (!s.rxActive) = true by rw [ha]; decide)).trans ?_
  exact (apply_ite done _ _ _).symm

/-! ### Delivery (R237, R238) -/

/-- A solution of age `age`, whose offset is then `ofs`, is shown in GNSS_TSOL. -/
def showSol (s : State) (q : GnssSol) (age : Nat) (ofs : Int) : State :=
  let s := s.setGnss { s.gnss with sol := none }
  let s := (s.wrS F.GNSS_TSOL_OFS_OFS ofs).wrS F.GNSS_TSOL_FREQ_FREQ q.freq
  let s := (s.wr F.GNSS_TSOL_UNC_U q.u).wr F.GNSS_TSOL_INFO_VALID 1
  let s := (s.wrB F.GNSS_TSOL_INFO_DUAL_FREQ q.dual).wrB F.GNSS_TSOL_INFO_HOLD q.hold
  (s.wrSat F.GNSS_TSOL_INFO_AGE age).bump F.GNSS_TSOL_INFO_SEQ

/-- The offset at which a solution is delivered: carried forward over its age, and referred to Ridge A as corrected since. -/
def carriedOfs (s : State) (q : GnssSol) : Int :=
  roundRat ((q.ofs : Rat) + (q.freq : Rat) / 2 ^ 60 * s.solAge q * ruBeat - ru40 (s.ridge.a.total - q.ep.total))

/-- A delivery reaches the ensemble as slot 11. -/
def deliver (s : State) (ofs : Int) (f : Rat) (age : Nat) : State :=
  { s with ens := { s.ens with deliv := s.ens.deliv ++ [⟨11, ofs, f, age⟩] } }

theorem execGnssDelivery_eq {q : GnssSol} (hq : s.gnss.sol = some q) (hage : 8 ≤ s.solAge q) (ha : s.rxActive = true)
    (hv : s.rd F.GNSS_VERDICT_VERDICT ≠ 4) : execGnssDelivery s =
    done ((s.showSol q (s.solAge q) (s.carriedOfs q)).deliver (s.carriedOfs q) ((q.freq : Rat) / 2 ^ 60) (s.solAge q)) := by
  unfold execGnssDelivery
  rw [hq]
  dsimp only
  rw [if_neg (by rintro (h | h | h) <;> [omega; simp [ha] at h; exact hv h])]
  rfl

/-- The fields that show a solution delivered. -/
def solFlds : List Fld := [F.GNSS_TSOL_OFS_OFS, F.GNSS_TSOL_FREQ_FREQ, F.GNSS_TSOL_UNC_U, F.GNSS_TSOL_INFO_VALID,
  F.GNSS_TSOL_INFO_DUAL_FREQ, F.GNSS_TSOL_INFO_HOLD, F.GNSS_TSOL_INFO_AGE, F.GNSS_TSOL_INFO_SEQ]

theorem showSol_kept (q : GnssSol) (age : Nat) (ofs : Int) :
    RxOnly s (s.showSol q age ofs) solFlds ∧ (s.showSol q age ofs).gnss.sol = none := by
  unfold showSol
  extract_lets g s₁ s₂ s₃ s₄
  have h₁ : RxOnly s s₁ solFlds ∧ s₁.gnss.sol = none := ⟨(RxOnly.refl s _).same rfl, rfl⟩
  clear_value s₁
  have h₂ : RxOnly s s₂ solFlds ∧ s₂.gnss = s₁.gnss := ⟨(h₁.1.wr (by simp [solFlds]) _ 0).wr (by simp [solFlds]) _ 0, rfl⟩
  clear_value s₂
  have h₃ : RxOnly s s₃ solFlds ∧ s₃.gnss = s₂.gnss := ⟨(h₂.1.wr (by simp [solFlds]) _ 0).wr (by simp [solFlds]) _ 0, rfl⟩
  clear_value s₃
  have h₄ : RxOnly s s₄ solFlds ∧ s₄.gnss = s₃.gnss := ⟨(h₃.1.wr (by simp [solFlds]) _ 0).wr (by simp [solFlds]) _ 0, rfl⟩
  clear_value s₄
  refine ⟨(h₄.1.wr (by simp [solFlds]) _ 0).wr (by simp [solFlds]) _ 0, ?_⟩
  rw [bump_eq, wr_gnss, wrSat_eq, wr_gnss, h₄.2, h₃.2, h₂.2, h₁.2]

theorem rd_showSol (q : GnssSol) (age : Nat) (ofs : Int) : (s.showSol q age ofs).rd F.GNSS_TSOL_UNC_U = q.u % 2 ^ F.GNSS_TSOL_UNC_U.w ∧
    (s.showSol q age ofs).on F.GNSS_TSOL_INFO_VALID = true ∧
    (s.showSol q age ofs).rd F.GNSS_TSOL_INFO_SEQ = (s.rd F.GNSS_TSOL_INFO_SEQ + 1) % 2 ^ F.GNSS_TSOL_INFO_SEQ.w := by
  unfold showSol
  dsimp only
  simp only [State.on, wrS_eq, wrB_eq, wrSat_eq, bump_eq]
  simp (disch := decide) only [rd_wr_other, rd_wr_same]
  exact ⟨trivial, rfl, rfl⟩

/-- A delivery leaves the registers as they are shown, and appends itself to what the ensemble has been given. -/
theorem deliver_facts {t : State} (h : RxOnly s t solFlds) (ofs : Int) (f : Rat) (age : Nat) :
    (∀ g i, (t.deliver ofs f age).rd g i = t.rd g i) ∧ (t.deliver ofs f age).gnss = t.gnss ∧
    (t.deliver ofs f age).ens.deliv = s.ens.deliv ++ [⟨11, ofs, f, age⟩] ∧ (t.deliver ofs f age).mem = s.mem ∧
    (t.deliver ofs f age).ridge = s.ridge := by
  refine ⟨fun _ _ => rfl, rfl, ?_, h.mem, h.ridge⟩
  rw [← h.rest]
  rfl

/-! ### The survey-in and the hint store (R230, R245) -/

/-- The hint with sequence number `n` that is written now. -/
def hintNow (s : State) (n : Nat) : Hint :=
  ⟨s.gnss.pos, s.gnss.posSig, s.rd F.TOP_RTC_SEC_SEC,
    [s.rdS F.GNSS_BASE_E_BASE, s.rdS F.GNSS_BASE_N_BASE, s.rdS F.GNSS_BASE_U_BASE], n⟩

/-- The first hint goes to the first half of the store. -/
theorem saveHint_of_empty (h : s.gnss.hints = [none, none]) :
    ∃ n, s.saveHint = { s with gnss := { s.gnss with hints := [some (s.hintNow n), none] } } := by
  refine ⟨match s.gnss.newestHint with | some h => h.seq + 1 | none => 0, ?_⟩
  unfold saveHint
  dsimp only
  rw [h]
  rfl

/-- A survey is under way or begins. -/
def surveyOn (s : State) (learn fresh : Bool) : State :=
  if s.gnss.survey && !fresh then s.setGnss { s.gnss with learn := learn } else s.beginSurvey learn

theorem surveyOn_facts (learn fresh : Bool) : (s.surveyOn learn fresh).gnss.survey = true ∧
    (s.surveyOn learn fresh).gnss.learn = learn ∧ { s with gnss := (s.surveyOn learn fresh).gnss } = s.surveyOn learn fresh := by
  unfold surveyOn
  split_ifs with h
  · exact ⟨(Bool.and_eq_true _ _ ▸ h).1, rfl, rfl⟩
  · exact ⟨rfl, rfl, rfl⟩

/-- Ephemerides, almanac and hints are forgotten. -/
def forget (s : State) : State := s.setGnss { s.gnss with eph := 0, almanac := false, hints := [none, none] }

/-- The channels of a receiver that is active search anew. -/
def searchAnew (s : State) : State :=
  if s.rxActive then s.gnss.ch.foldl (fun s ch => s.queueSearch { ch with slip := ch.st == Ch.pll || ch.slip } 2) s else s

theorem chOnly_searchAnew : ChOnly s s.searchAnew := by
  unfold searchAnew
  split
  · exact .foldl (fun t _ => .queueSearch t _ 2) _ s
  · exact .refl s

end State

section
variable {s : State}

theorem epochLatch_settles (pos : Nat) (hb : s.epochBeat = true) (hr : (List.range 8).any s.streamRuns = true) :
    Settles (.epochLatch pos) s (fun u =>
      u.gnss.latched = some ⟨s.rd F.RIDGE_x_ANCHOR_COUNT_COUNT 0, s.rd F.RIDGE_BEAT_SEQ_SEQ, s.ridge.a.total⟩ ∧
      u.gnss.assigns = [] ∧ u.gnss.was = [] ∧ u.ridge = s.ridge) := by
  have h := State.edgeOnly_driveLatch (s := s) pos
  obtain ⟨hl, ha, hw, hd⟩ := State.takeWaiting_facts (s := (s.driveLatch pos).latchEpoch)
  refine ⟨_, (exec_epochLatch pos s).trans (State.execEpochLatch_eq pos hb hr), hl.trans ?_, ha, hw, hd.trans h.ridge⟩
  show some (EpochSt.mk _ _ _) = _
  rw [h.2 F.RIDGE_x_ANCHOR_COUNT_COUNT 0 rfl, h.2 F.RIDGE_BEAT_SEQ_SEQ 0 rfl, h.ridge]

theorem solutionDone_settles (x : GnssFix) {ep : EpochSt} (hp : s.gnss.epoch = some ep) (ha : s.rxActive = true) :
    Settles (.solutionDone x) s (fun u => u.gnss.epoch = none ∧ u.gnss.hadSolution = true ∧
      (u.on F.GNSS_STAT_SOL_VALID = true ↔ ∃ q, u.gnss.sol = some q ∧ q.ofs = x.ofs ∧ q.freq = x.freq ∧ q.ep = ep) ∧
      (x.sats.length < s.inG F.GNSS_MIN_MIN_SV → u.on F.GNSS_STAT_SOL_VALID = false ∧ u.gnss.invalid = s.gnss.invalid + 1) ∧
      u.ridge = s.ridge) := by
  obtain ⟨g, hx⟩ := State.execSolutionDone_eq (x := x) hp ha
  obtain ⟨hj, hk, hw⟩ := State.judgeFix_kept (s := s.setGnss { s.gnss with epoch := none }) x g
  have hmin : State.inG _ F.GNSS_MIN_MIN_SV = s.inG F.GNSS_MIN_MIN_SV := State.inG_congr hw (hj.rd rfl 0)
  obtain ⟨he, hs, hv, hi, hr⟩ := State.concludeFix_facts (t := (s.setGnss { s.gnss with epoch := none }).judgeFix x g) x g ep
  refine ⟨_, (exec_solutionDone x s).trans hx, he.trans hk.epoch, hs, hv, fun hlt => ?_, hr.trans hj.ridge⟩
  exact (hi (hmin ▸ hlt)).imp_right fun h => h.trans (congrArg (· + 1) hk.invalid)

theorem gnssDelivery_settles {q : GnssSol} (hq : s.gnss.sol = some q) (hage : 8 ≤ s.solAge q) (ha : s.rxActive = true)
    (hv : s.rd F.GNSS_VERDICT_VERDICT ≠ 4) : Settles .gnssDelivery s (fun u => u.gnss.sol = none ∧
      u.rd F.GNSS_TSOL_UNC_U = q.u % 2 ^ F.GNSS_TSOL_UNC_U.w ∧ u.on F.GNSS_TSOL_INFO_VALID = true ∧
      u.rd F.GNSS_TSOL_INFO_SEQ = (s.rd F.GNSS_TSOL_INFO_SEQ + 1) % 2 ^ F.GNSS_TSOL_INFO_SEQ.w ∧
      u.ens.deliv = s.ens.deliv ++ [⟨11, roundRat ((q.ofs : Rat) + (q.freq : Rat) / 2 ^ 60 * s.solAge q * ruBeat -
        ru40 (s.ridge.a.total - q.ep.total)), (q.freq : Rat) / 2 ^ 60, s.solAge q⟩] ∧ u.mem = s.mem ∧ u.ridge = s.ridge) := by
  obtain ⟨hf, hs⟩ := State.showSol_kept (s := s) q (s.solAge q) (s.carriedOfs q)
  obtain ⟨hu, hi, hn⟩ := State.rd_showSol (s := s) q (s.solAge q) (s.carriedOfs q)
  obtain ⟨hr, hg, hd, hm, hk⟩ := State.deliver_facts hf (s.carriedOfs q) ((q.freq : Rat) / 2 ^ 60) (s.solAge q)
  exact ⟨_, (exec_gnssDelivery s).trans (State.execGnssDelivery_eq hq hage ha hv), (congrArg GnssSt.sol hg).trans hs, (hr _ 0).trans hu,
    (congrArg (· != 0) (hr _ 0)).trans hi, (hr _ 0).trans hn, hd, hm, hk⟩

theorem surveyTimeout_settles (h : s.gnss.survey = true) :
    Settles .surveyTimeout s (fun u => u.staged 87 ∧ u.regs = s.regs ∧ u.gnss = s.gnss) :=
  ⟨s.raise 87, (exec_surveyTimeout s).trans (if_pos h), List.mem_append_right _ (.head _), rfl, rfl⟩

theorem gnssSurvey_replies (c : CmdRef) (w0 : Nat) (ha : s.rxActive = true) : Replies (.gnssSurvey c w0) s c (fun u =>
    u.gnss.survey = true ∧ u.gnss.learn = (s.on F.GNSS_CTL_BASE_LEARN || bit w0 1) ∧ u.rd F.GNSS_STAT_MODE_ACT = 1 ∧
    { s with regs := u.regs, gnss := u.gnss } = u ∧ RegsBut s u [(F.GNSS_STAT_MODE_ACT, 0)]) := by
  let t := s.surveyOn (s.on F.GNSS_CTL_BASE_LEARN || bit w0 1) (bit w0 0)
  have hx : execGnssSurvey c w0 s = done ((t.wr F.GNSS_STAT_MODE_ACT 1).finish c Code.ok) := by
    rw [execGnssSurvey, ha]
    rfl
  obtain ⟨hs, hl, ht⟩ := State.surveyOn_facts (s := s) (s.on F.GNSS_CTL_BASE_LEARN || bit w0 1) (bit w0 0)
  have hb : RegsBut s t [(F.GNSS_STAT_MODE_ACT, 0)] := .same (.refl s _) (congrArg State.regs ht).symm
  refine ⟨_, 0, 0, 0, (exec_gnssSurvey c w0 s).trans hx, hs, hl, State.rd_wr_same t F.GNSS_STAT_MODE_ACT 1 0, ?_, hb.wr (.head _) 1⟩
  rw [show t = _ from ht.symm]
  rfl

theorem gnssSurvey_refused (c : CmdRef) (w0 : Nat) (ha : s.rxActive = false) : Refuses (.gnssSurvey c w0) s c Code.badParam :=
  (exec_gnssSurvey c w0 s).trans (if_pos (by rw [ha]; rfl))

theorem gnssHintSave_replies (c : CmdRef) (hv : s.on F.GNSS_STAT_SOL_VALID = true) (hn : s.gnss.hints = [none, none]) :
    Replies (.gnssHintSave c) s c (fun u => ∃ h, u = { s with gnss := { s.gnss with hints := [some h, none] } } ∧
      h.pos = s.gnss.pos ∧ h.rtc = s.rd F.TOP_RTC_SEC_SEC) :=
  have ⟨n, h⟩ := State.saveHint_of_empty hn
  ⟨s.saveHint, 0, 0, 0, (exec_gnssHintSave c s).trans (if_pos hv), s.hintNow n, h, rfl, rfl⟩

theorem gnssHintSave_refused (c : CmdRef) (hv : s.on F.GNSS_STAT_SOL_VALID = false) : Refuses (.gnssHintSave c) s c Code.badParam :=
  (exec_gnssHintSave c s).trans (if_neg (by simp [hv]))

theorem hintPeriodicSave_settles (hv : s.on F.GNSS_STAT_SOL_VALID = true) (hp : s.inG F.GNSS_HINT_HINT_PERIOD ≠ 0)
    (hn : s.gnss.hints = [none, none]) : Settles .hintPeriodicSave s (fun u => ∃ h,
      u = { s with gnss := { s.gnss with hints := [some h, none] } } ∧ h.pos = s.gnss.pos ∧ h.rtc = s.rd F.TOP_RTC_SEC_SEC) :=
  have ⟨n, h⟩ := State.saveHint_of_empty hn
  ⟨s.saveHint, (exec_hintPeriodicSave s).trans (if_pos (by simp [hv, hp])), s.hintNow n, h, rfl, rfl⟩

theorem gnssCold_replies (c : CmdRef) : Replies (.gnssCold c) s c (fun u => u.gnss.eph = 0 ∧ u.gnss.almanac = false ∧
    u.gnss.hints = [none, none] ∧ { s with regs := u.regs, gnss := u.gnss } = u ∧ RegsBut s u [(F.GNSS_STAT_CH_TRACK, 0)]) := by
  have h := State.chOnly_searchAnew (s := s.forget)
  refine ⟨s.forget.searchAnew, 0, 0, 0, exec_gnssCold c s, ?_, ?_, ?_, h.rest, h.2⟩ <;>
  · rw [h.gnss]
    rfl

end

/-- Settles O22: one lemma for each verdict of an interference, epoch latch, solution, delivery, survey and save of a hint. -/
theorem receiverEpochsSolutionsAndHints : Obligations.ReceiverEpochsSolutionsAndHints :=
  ⟨fun _ _ jn => jamSet_settles jn, fun _ _ jn => jamClear_settles jn, fun _ => notchScan_settles, fun _ => epochLatch_settles,
    fun _ x _ => solutionDone_settles x, fun _ _ => gnssDelivery_settles, fun _ => surveyTimeout_settles, fun _ => gnssSurvey_replies,
    fun _ => gnssSurvey_refused, fun _ => gnssHintSave_replies, fun _ => gnssHintSave_refused, fun _ => hintPeriodicSave_settles,
    fun _ => gnssCold_replies⟩

end Sys2Proof.Machine

/-! ## Ports, lanes and groups: the rules of their state

What the Ethernet side may change besides its registers, what a quiet group's request and the end of an activity leave alone, and how the
views of a pause and of a lane's corrections follow, each said once. -/

namespace Sys2Proof.Machine

/-! ### Frames -/

/-- Between `s` and `u` the ports have changed the fields `fs` and what ports, lanes, waiting answers and quiet groups keep without a
register; faults, events and completions may have come of it. -/
structure EthOnly (s u : State) (fs : List Fld) : Prop where
  rest : { s with regs := u.regs, eth := u.eth, frank := u.frank, sort := u.sort, out := u.out, fcu := u.fcu, host := u.host, nor := u.nor,
                  bootCpl := u.bootCpl } = u
  regs : ∀ f i, f.off (answerFlds ++ fs) = true → u.rd f i = s.rd f i

namespace EthOnly
variable {s t u : State} {fs : List Fld}

theorem refl (s : State) (fs : List Fld) : EthOnly s s fs := ⟨rfl, fun _ _ _ => rfl⟩

theorem trans (h : EthOnly s t fs) (k : EthOnly t u fs) : EthOnly s u fs :=
  ⟨by rw [← k.rest, ← h.rest], fun f i hf => (k.regs f i hf).trans (h.regs f i hf)⟩

theorem mono (h : EthOnly s u fs) {gs : List Fld} (hs : fs ⊆ gs) : EthOnly s u gs :=
  ⟨h.rest, fun f i hf => h.regs f i (Fld.off_of_subset hf fun _ hg =>
    List.mem_append.mpr ((List.mem_append.mp hg).imp_right fun hg => hs hg))⟩

theorem wr (h : EthOnly s u fs) {g : Fld} (hg : g ∈ fs) (v j : Nat) : EthOnly s (u.wr g v j) fs :=
  h.trans ⟨rfl, fun _ i hf => State.rd_wr_off u (Fld.off_append hf).2 hg v i j⟩

/-- A change of what is kept without a register keeps the frame. -/
theorem same (h : EthOnly s t fs) (e : { t with eth := u.eth, frank := u.frank, sort := u.sort, out := u.out, fcu := u.fcu } = u) :
    EthOnly s u fs :=
  h.trans ⟨by rw [← e], fun f i _ => State.rd_of_regs (by rw [← e]) f i⟩

theorem setPrt (h : EthOnly s u fs) (p : Nat) (x : PortSt) : EthOnly s (u.setPrt p x) fs := h.same rfl
theorem setLane (h : EthOnly s u fs) (l : Nat) (x : LaneSt) : EthOnly s (u.setLane l x) fs := h.same rfl
theorem raise (h : EthOnly s u fs) (n k : Nat) : EthOnly s (u.raise n k) fs := h.same rfl
theorem condOff (h : EthOnly s u fs) (n k : Nat) : EthOnly s (u.condOff n k) fs := h.same rfl
theorem condOn (h : EthOnly s u fs) (n k : Nat) : EthOnly s (u.condOn n k) fs := h.same (by rw [← condOn_eq])

theorem answered (h : EthOnly s t fs) (k : Answered t u) : EthOnly s u fs :=
  h.trans ⟨by rw [← k.1], fun _ i hf => have ha := (Fld.off_append hf).1
    k.rd (Fld.lt_of_off ha) (fun _ hg => (Fld.ne_of_off ha hg).2) i⟩

theorem of_onlyRegsFcu {l : List (Fld × Nat)} (h : OnlyRegsFcu s u l) : EthOnly s u (l.map Prod.fst) :=
  ⟨by rw [← h.1], fun _ i hf => h.2.rd (Fld.off_append hf).2 i⟩

theorem of_onlyRegs {l : List (Fld × Nat)} (h : OnlyRegs s u l) : EthOnly s u (l.map Prod.fst) :=
  ⟨by rw [← h.1], fun _ i hf => h.2.rd (Fld.off_append hf).2 i⟩

theorem foldl {α : Type} {f : State → α → State} (hf : ∀ t x, EthOnly t (f t x) fs) (xs : List α) (s : State) :
    EthOnly s (xs.foldl f s) fs := by
  induction xs generalizing s with
  | nil => exact .refl s fs
  | cons x xs ih => exact (hf s x).trans (ih _)

theorem rd (h : EthOnly s u fs) {f : Fld} (hf : f.off (answerFlds ++ fs) = true) (i : Nat) : u.rd f i = s.rd f i := h.regs f i hf
theorem on (h : EthOnly s u fs) {f : Fld} (hf : f.off (answerFlds ++ fs) = true) (i : Nat) : u.on f i = s.on f i :=
  congrArg (· != 0) (h.rd hf i)
theorem mem (h : EthOnly s u fs) : u.mem = s.mem := by rw [← h.rest]
theorem ridge (h : EthOnly s u fs) : u.ridge = s.ridge := by rw [← h.rest]

end EthOnly

/-- Between `s` and `u` the quiet groups alone have changed, and it shows in their registers only. -/
def QuietOnly (s u : State) : Prop :=
  { s with regs := u.regs, sort := u.sort } = u ∧
  ∀ f i, f.off (F.SORT_CNT_DEFERRALS :: State.searchFlds) = true → u.rd f i = s.rd f i

namespace QuietOnly
variable {s t u : State}

theorem trans (h : QuietOnly s t) (k : QuietOnly t u) : QuietOnly s u :=
  ⟨by rw [← k.1, ← h.1], fun f i hf => (k.2 f i hf).trans (h.2 f i hf)⟩

theorem wr (h : QuietOnly s u) {g : Fld} (hg : g ∈ F.SORT_CNT_DEFERRALS :: State.searchFlds) (v j : Nat) : QuietOnly s (u.wr g v j) :=
  h.trans ⟨rfl, fun _ i hf => State.rd_wr_off u hf hg v i j⟩

theorem showQuiet (s : State) (q : Nat) : QuietOnly s (s.showQuiet q) :=
  ⟨by rw [← (State.onlyRegs_showQuiet q).1], fun _ i hf =>
    (State.onlyRegs_showQuiet q).2.rd (Fld.off_of_subset hf (List.subset_cons_of_subset _ State.quietShown_sub_searchFlds)) i⟩

theorem setSort (s : State) (x : SortSt) : QuietOnly s { s with sort := x } := ⟨rfl, fun _ _ _ => rfl⟩
theorem setQueue (s : State) (q : Nat) (l : List SortEntry) : QuietOnly s (s.setQueue q l) := (setSort s _).trans (showQuiet _ q)
theorem setRun (s : State) (q : Nat) (r : Option SortEntry) : QuietOnly s (s.setRun q r) := (setSort s _).trans (showQuiet _ q)

theorem eth (h : QuietOnly s u) : u.eth = s.eth := by rw [← h.1]
theorem ridge (h : QuietOnly s u) : u.ridge = s.ridge := by rw [← h.1]
theorem mem (h : QuietOnly s u) : u.mem = s.mem := by rw [← h.1]
theorem fcu (h : QuietOnly s u) : u.fcu = s.fcu := by rw [← h.1]

theorem ethOnly (h : QuietOnly s u) : EthOnly s u (F.SORT_CNT_DEFERRALS :: State.searchFlds) :=
  ⟨by rw [← h.1], fun f i hf => h.2 f i (Fld.off_append hf).2⟩

end QuietOnly

namespace State
variable {s : State}

theorem on_of_rd {f : Fld} {i v : Nat} (h : s.rd f i = v) : s.on f i = (v != 0) := congrArg (· != 0) h

/-! ### Lanes and ports without a register -/

theorem lane_setLane {l : Nat} (h : l < s.eth.lane.length) (x : LaneSt) : (s.setLane l x).lane l = x := by
  simp [lane, setLane, List.getD_eq_getElem?_getD, h]

theorem prt_setPrt {p : Nat} (h : p < s.eth.port.length) (x : PortSt) : (s.setPrt p x).prt p = x := by
  simp [prt, setPrt, List.getD_eq_getElem?_getD, h]

theorem prt_of_eth {t : State} (h : t.eth = s.eth) (p : Nat) : t.prt p = s.prt p := by rw [prt, prt, h]
theorem lane_of_eth {t : State} (h : t.eth = s.eth) (l : Nat) : t.lane l = s.lane l := by rw [lane, lane, h]

/-! ### The quiet groups (R566 to R568) -/

theorem quietQueue_setQueue {q : Nat} (h : q < s.sort.queues.length) (l : List SortEntry) : (s.setQueue q l).quietQueue q = l := by
  have e : (s.setQueue q l).sort.queues = s.sort.queues.set q l := by rw [setQueue, ← (onlyRegs_showQuiet q).1]
  rw [quietQueue, e, List.getD_eq_getElem?_getD, List.getElem?_set_self h]
  rfl

/-- A request for a group whose queue is empty waits there alone. -/
theorem enqueue_empty {act tgt : Nat} (h : s.quietQueue (quietGroup act tgt) = [])
    (hq : quietGroup act tgt < s.sort.queues.length) (sched : Bool) (cmds : List CmdRef) :
    (s.enqueue act tgt sched cmds).1.quietQueue (quietGroup act tgt) = [⟨act, tgt, sched, cmds, s.ridge.ticks, false⟩] ∧
      QuietOnly s (s.enqueue act tgt sched cmds).1 := by
  obtain ⟨t, ht, e⟩ : ∃ t : State, QuietOnly s t ∧ t.sort = s.sort ∧ (s.enqueue act tgt sched cmds).1 =
      t.setQueue (quietGroup act tgt) [⟨act, tgt, sched, cmds, t.ridge.ticks, false⟩] := by
    refine ⟨if (s.quietRun (quietGroup act tgt)).isSome || !([] : List SortEntry).isEmpty then
      s.inc F.SORT_CNT_DEFERRALS (quietGroup act tgt) else s, ?_, by split <;> rfl, ?_⟩
    · split
      · exact (QuietOnly.setSort s s.sort).wr (.head _) _ _
      · exact .setSort s s.sort
    · rw [enqueue, h]
      rfl
  rw [e.2]
  refine ⟨?_, ht.trans (.setQueue t _ _)⟩
  rw [quietQueue_setQueue (by rwa [e.1]), ht.ridge]

/-- The end of an activity that leaves its commands waiting concerns the quiet groups only. -/
theorem quietOnly_endEntry (q code r0 r1 : Nat) : QuietOnly s (s.endEntry q code r0 r1 false) := by
  unfold endEntry
  split
  · exact .setSort s s.sort
  · next e _ =>
    have h : QuietOnly s (s.setRun q none) := .setRun s q none
    dsimp only
    generalize s.setRun q none = t at h ⊢
    have h₁ := ((((h.wr (g := F.SORT_CNT_RUNS) (by simp [searchFlds]) (satU F.SORT_CNT_RUNS.w (t.rd F.SORT_CNT_RUNS q + 1)) q).wr
      (g := F.SORT_LAST_ACT) (by simp [searchFlds]) e.act 0).wr (g := F.SORT_LAST_TGT) (by simp [searchFlds]) e.tgt 0).wr
      (g := F.SORT_LAST_CODE) (by simp [searchFlds]) code 0).wr (g := F.SORT_LAST_GROUP) (by simp [searchFlds]) q 0
    have h₂ := h₁.wr (g := F.SORT_LAST_DUR_DUR) (by simp [searchFlds]) (satU F.SORT_LAST_DUR_DUR.w ((t.ridge.ticks - e.tick) / 1250)) 0
    rw [if_neg Bool.false_ne_true]
    split
    · exact h₂.wr (g := F.TDC_STAT_MAINT_ACTIVE) (by simp [searchFlds]) 0 0
    · exact h₂

/-- An activity that ends at once completes the commands behind it. -/
theorem endEntry_finishes (q code r0 r1 : Nat) : ∃ cmds : List CmdRef,
    s.endEntry q code r0 r1 true = cmds.foldl (fun s c => s.finish c code r0 r1) (s.endEntry q code r0 r1 false) := by
  unfold endEntry
  split
  · exact ⟨[], rfl⟩
  · next e _ => exact ⟨e.cmds, rfl⟩

theorem quietGroup_readapt {l : Nat} (h : l < 32) : quietGroup Act.readapt l = 2 + l / 4 := by
  have : l / 4 % 8 = l / 4 := by omega
  simp [quietGroup, Act.readapt, Act.tdcCal, Act.apllSearch, Act.remask, Act.keyRotate, this]

/-! ### Corrections of a lane (R284) -/

theorem ofS_mod (w : Nat) (i : Int) : ofS w i % 2 ^ w = ofS w i := by
  have h : (0 : Int) < (2 ^ w : Nat) := by exact_mod_cast Nat.two_pow_pos w
  have h₁ := Int.emod_lt_of_pos i h
  have h₂ := Int.emod_nonneg i (ne_of_gt h)
  exact Nat.mod_eq_of_lt (by unfold ofS; omega)

/-- A reload takes the two corrections of the lane, and nothing else shows of it; a fault may be raised. -/
theorem reloadLane_facts (l : Nat) (sk cdr : Int) :
    EthOnly s (s.reloadLane l sk cdr) [F.PM_LN_RXSKEW_VALUE, F.PM_LN_RXLAT_VALUE] ∧
    (s.reloadLane l sk cdr).regs = ((s.wrS F.PM_LN_RXSKEW_VALUE sk l).wrS F.PM_LN_RXLAT_VALUE ((s.lane l).lat0 + cdr) l).regs ∧
    (s.reloadLane l sk cdr).eth = (s.setLane l { s.lane l with reload := false }).eth := by
  unfold reloadLane
  extract_lets lat far s₁ x s₂
  have h : EthOnly s s₂ [F.PM_LN_RXSKEW_VALUE, F.PM_LN_RXLAT_VALUE] :=
    (((EthOnly.refl s _).wr (.head _) _ l).wr (.tail _ (.head _)) _ l).setLane l _
  split
  · exact ⟨h.raise 117 l, rfl, rfl⟩
  · exact ⟨h, rfl, rfl⟩

theorem rd_rxskew_reloadLane (l : Nat) (sk cdr : Int) :
    (s.reloadLane l sk cdr).rd F.PM_LN_RXSKEW_VALUE l = ofS F.PM_LN_RXSKEW_VALUE.w sk := by
  rw [rd_of_regs (reloadLane_facts l sk cdr).2.1, wrS_eq, rd_wr_other _ (by decide) (by decide) (by decide), wrS_eq, rd_wr_same, ofS_mod]

theorem rd_rxlat_reloadLane (l : Nat) (sk cdr : Int) :
    (s.reloadLane l sk cdr).rd F.PM_LN_RXLAT_VALUE l = ofS F.PM_LN_RXLAT_VALUE.w ((s.lane l).lat0 + cdr) := by
  rw [rd_of_regs (reloadLane_facts l sk cdr).2.1, wrS_eq, rd_wr_same, ofS_mod]

end State
end Sys2Proof.Machine
/-! ## Lanes, pauses and ESMC (R255 to R273, R284) -/

namespace Sys2Proof.Machine

theorem exec_adaptFreeze (l : Nat) (s : State) : exec (.adaptFreeze l) s = execAdaptFreeze l s := rfl
theorem exec_adaptResume (l : Nat) (s : State) : exec (.adaptResume l) s = execAdaptResume l s := rfl
theorem exec_eyeMeasure (l eye : Nat) (s : State) : exec (.eyeMeasure l eye) s = execEyeMeasure l eye s := rfl
theorem exec_readapt (req l w : Nat) (s : State) : exec (.readapt req l w) s = execReadapt req l w s := rfl
theorem exec_readaptDone (l : Nat) (sk cdr : Int) (ctle dfe : Nat) (s : State) :
    exec (.readaptDone l sk cdr ctle dfe) s = execReadaptDone l sk cdr ctle dfe s := rfl

/-! ### Adaptation (R255, R257 to R260) -/

namespace State
variable {s : State} {l : Nat}

/-- The eye result `eye` of lane `l` is shown (R257). -/
def eyeShown (s : State) (l eye : Nat) : State :=
  (s.wrSat F.SDS_LN_STAT_EYE eye l).wrB F.SDS_LN_STAT_EYE_LOW (decide (satU F.SDS_LN_STAT_EYE.w eye < s.rd F.SDS_LN_CTL_EYE_THR l)) l

theorem onlyRegs_eyeShown (eye : Nat) : OnlyRegs s (s.eyeShown l eye) [(F.SDS_LN_STAT_EYE, l), (F.SDS_LN_STAT_EYE_LOW, l)] :=
  ((OnlyRegs.refl s _).wr (.head _) _).wr (.tail _ (.head _)) _

theorem rd_eyeShown (eye : Nat) : (s.eyeShown l eye).rd F.SDS_LN_STAT_EYE l = satU F.SDS_LN_STAT_EYE.w eye := by
  rw [eyeShown, wrB_eq, rd_wr_other _ (by decide) (by decide) (by decide), wrSat_eq, rd_wr_same, satU_mod]

theorem on_low_eyeShown (eye : Nat) :
    (s.eyeShown l eye).on F.SDS_LN_STAT_EYE_LOW l = decide (satU F.SDS_LN_STAT_EYE.w eye < s.rd F.SDS_LN_CTL_EYE_THR l) := by
  rw [eyeShown, wrB_eq, on, rd_wr_same]
  cases decide (satU F.SDS_LN_STAT_EYE.w eye < s.rd F.SDS_LN_CTL_EYE_THR l) <;> rfl

/-- Away from a re-adaptation an eye result is shown, and counts among those that were low in a row (R257). -/
theorem eyeResult_settled (hf : (s.lane l).first = false) (eye : Nat) : s.eyeResult l eye =
    if !decide (satU F.SDS_LN_STAT_EYE.w eye < s.rd F.SDS_LN_CTL_EYE_THR l) then (s.eyeShown l eye).setLane l { s.lane l with low := 0 }
    else if (s.lane l).low + 1 < 4 ∨ !quietOver ((s.eyeShown l eye).rd F.RIDGE_BEAT_SEQ_SEQ) (s.lane l).quiet then
      (s.eyeShown l eye).setLane l { s.lane l with low := min 4 ((s.lane l).low + 1) }
    else ((((s.eyeShown l eye).setLane l { s.lane l with low := 0 }).raise 100 l).enqueue Act.readapt l false []).1 := by
  have h₁ : (s.wrSat F.SDS_LN_STAT_EYE eye l).rd F.SDS_LN_STAT_EYE l = satU F.SDS_LN_STAT_EYE.w eye := by
    rw [wrSat_eq, rd_wr_same, satU_mod]
  have h₂ : (s.wrSat F.SDS_LN_STAT_EYE eye l).rd F.SDS_LN_CTL_EYE_THR l = s.rd F.SDS_LN_CTL_EYE_THR l :=
    rd_wr_other s (by decide) (by decide) (by decide) _ l l
  have h₃ : ((s.wrSat F.SDS_LN_STAT_EYE eye l).wrB F.SDS_LN_STAT_EYE_LOW
    (decide (satU F.SDS_LN_STAT_EYE.w eye < s.rd F.SDS_LN_CTL_EYE_THR l)) l).lane l = s.lane l := rfl
  unfold eyeResult
  dsimp only
  rw [h₁, h₂, h₃, hf, if_neg (by decide)]
  rfl

/-- The fields of SDS_LN_CTL that take a word. -/
def laneCtlFlds : List Fld := [F.SDS_LN_CTL_EYE_THR, F.SDS_LN_CTL_PRBS_TX, F.SDS_LN_CTL_PRBS_RX, F.SDS_LN_CTL_TX_INV,
  F.SDS_LN_CTL_RX_INV, F.SDS_LN_CTL_ADAPT_HOLD]

/-- What the fields of SDS_LN_CTL[l] take of a write of `w`, and the rules that it breaks (R280). -/
def laneCtlFields (s : State) (l w : Nat) : State × List Nat :=
  s.fieldWrite (fun f => !(s.grpState (l / 4) == Grp.oos) && f.among [F.SDS_LN_CTL_PRBS_TX, F.SDS_LN_CTL_PRBS_RX]) inRange laneCtlFlds l w

theorem laneCtlWrite_readapt (a : Acs) (w : Nat) : s.laneCtlWrite a l (setBit w 4 true) =
    ((s.laneCtlFields l (setBit w 4 true)).1.enqueue Act.readapt l false []).1.conclude a (s.laneCtlFields l (setBit w 4 true)).2 := by
  have hb : bit (setBit w 4 true) 4 = true := by rw [bit_setBit, if_pos rfl]
  unfold laneCtlWrite
  dsimp only
  rw [if_pos hb]
  rfl

end State

section
variable {s : State} {l : Nat} (hl : l < 32)
include hl

theorem adaptFreeze_settles (hf : s.on F.SDS_LN_STAT_FROZEN l = false) : Settles (.adaptFreeze l) s (fun u =>
    u.on F.SDS_LN_STAT_FROZEN l = true ∧ u.rd F.SDS_LN_CNT_FREEZES l = satU F.SDS_LN_CNT_FREEZES.w (s.rd F.SDS_LN_CNT_FREEZES l + 1) ∧
    OnlyRegs s u [(F.SDS_LN_STAT_FROZEN, l), (F.SDS_LN_CNT_FREEZES, l)]) := by
  refine ⟨_, (exec_adaptFreeze l s).trans (if_pos ⟨hl, by rw [hf]; rfl⟩), ?_, ?_,
    ((OnlyRegs.refl s _).wr (.head _) 1).wr (.tail _ (.head _)) _⟩
  · refine State.on_of_rd ((State.rd_wr_other _ (by decide) (by decide) (by decide) _ l l).trans (State.rd_wr_same s _ 1 l))
  · rw [State.rd_inc, State.rd_wr_other _ (by decide) (by decide) (by decide)]

theorem adaptResume_settles (hh : s.on F.SDS_LN_CTL_ADAPT_HOLD l = false) : Settles (.adaptResume l) s (fun u =>
    u.on F.SDS_LN_STAT_FROZEN l = false ∧ OnlyRegs s u [(F.SDS_LN_STAT_FROZEN, l)]) :=
  ⟨_, (exec_adaptResume l s).trans (if_pos ⟨hl, by rw [hh]; rfl⟩), State.on_of_rd (State.rd_wr_same s _ 0 l),
    (OnlyRegs.refl s _).wr (.head _) 0⟩

section
variable {eye : Nat} (hz : s.on F.SDS_LN_STAT_FROZEN l = false) (ha : s.on F.SDS_LN_STAT_ADAPTING l = false)
  (hf : (s.lane l).first = false)
include hz ha

theorem execEyeMeasure_adapting : execEyeMeasure l eye s = done (s.eyeResult l eye) := by
  rw [execEyeMeasure, hz, ha, if_neg (by simp; omega)]

include hf

theorem eyeMeasure_good_settles (hn : s.eth.lane.length = 32) (he : s.rd F.SDS_LN_CTL_EYE_THR l ≤ satU F.SDS_LN_STAT_EYE.w eye) :
    Settles (.eyeMeasure l eye) s (fun u => u.rd F.SDS_LN_STAT_EYE l = satU F.SDS_LN_STAT_EYE.w eye ∧
      u.on F.SDS_LN_STAT_EYE_LOW l = false ∧ (u.lane l).low = 0 ∧ { s with regs := u.regs, eth := u.eth } = u ∧
      RegsBut s u [(F.SDS_LN_STAT_EYE, l), (F.SDS_LN_STAT_EYE_LOW, l)]) := by
  have hd : decide (satU F.SDS_LN_STAT_EYE.w eye < s.rd F.SDS_LN_CTL_EYE_THR l) = false := decide_eq_false (by omega)
  refine ⟨(s.eyeShown l eye).setLane l { s.lane l with low := 0 }, ?_, State.rd_eyeShown eye, ?_, ?_, ?_, ?_⟩
  · rw [exec_eyeMeasure, execEyeMeasure_adapting hl hz ha, State.eyeResult_settled hf, hd]
    rfl
  · exact (State.on_low_eyeShown eye).trans hd
  · rw [State.lane_setLane (by rw [State.eyeShown]; exact hn ▸ hl)]
  · rfl
  · exact (State.onlyRegs_eyeShown eye).2.same rfl

theorem eyeMeasure_fourth_settles (hc : (s.lane l).low = 3) (hq : (s.lane l).quiet = none)
    (he : satU F.SDS_LN_STAT_EYE.w eye < s.rd F.SDS_LN_CTL_EYE_THR l) (hn : s.sort.queues.length = 11)
    (hw : s.quietQueue (2 + l / 4) = []) : Settles (.eyeMeasure l eye) s (fun u => u.on F.SDS_LN_STAT_EYE_LOW l = true ∧
      u.staged 100 l ∧ u.quietQueue (2 + l / 4) = [⟨5, l, false, [], s.ridge.ticks, false⟩] ∧ u.mem = s.mem ∧ u.ridge = s.ridge) := by
  obtain ⟨t, ht⟩ : ∃ t, ((s.eyeShown l eye).setLane l { s.lane l with low := 0 }).raise 100 l = t := ⟨_, rfl⟩
  have hx : execEyeMeasure l eye s = done (t.enqueue Act.readapt l false []).1 := by
    rw [execEyeMeasure_adapting hl hz ha, State.eyeResult_settled hf, decide_eq_true he, if_neg (by decide), hc, hq,
      if_neg (by simp [quietOver]), ht]
  have hg := State.quietGroup_readapt hl
  have hs : t.sort = s.sort := by rw [← ht]; rfl
  obtain ⟨h₁, h₂⟩ := State.enqueue_empty (s := t) (act := Act.readapt) (tgt := l) (by rw [hg, State.quietQueue, hs]; exact hw)
    (by rw [hg, hs]; omega) false []
  refine ⟨_, (exec_eyeMeasure l eye s).trans hx, ?_, ?_, ?_, ?_, ?_⟩
  · exact (congrArg (· != 0) ((h₂.2 _ l rfl).trans (by rw [← ht]; rfl))).trans ((State.on_low_eyeShown eye).trans (decide_eq_true he))
  · rw [State.staged, ← h₂.1, ← ht]
    exact List.mem_append_right _ (.head _)
  · rw [hg] at h₁
    rw [h₁, ← ht]
    rfl
  · exact h₂.mem.trans (by rw [← ht]; rfl)
  · exact h₂.ridge.trans (by rw [← ht]; rfl)

end

theorem readapt_settles {req : Nat} (h : Admitted s req) (hn : s.sort.queues.length = 11) (hw : s.quietQueue (2 + l / 4) = []) (w : Nat) :
    Settles (.readapt req l w) s (fun u => u.quietQueue (2 + l / 4) = [⟨5, l, false, [], s.ridge.ticks, false⟩] ∧ u.mem = s.mem ∧
      u.ridge = s.ridge ∧ u.eth = s.eth) := by
  have hx : execReadapt req l w s = done (s.laneCtlWrite ⟨req, 0x16000 + 0x80 * l, 2, true⟩ l (setBit w 4 true)).1 := by
    rw [execReadapt, if_neg (by omega), State.put_admitted h]
  rw [State.laneCtlWrite_readapt] at hx
  have hf : OnlyRegs s (s.laneCtlFields l (setBit w 4 true)).1 _ := State.onlyRegs_fieldWrite _ _ State.laneCtlFlds l _
  generalize s.laneCtlFields l (setBit w 4 true) = r at hx hf
  have hg := State.quietGroup_readapt hl
  obtain ⟨h₁, h₂⟩ := State.enqueue_empty (s := r.1) (act := Act.readapt) (tgt := l) (by rw [hg, State.quietQueue, ← hf.1]; exact hw)
    (by rw [hg, ← hf.1]; exact hn ▸ (by omega)) false []
  have hc := State.onlyRegsFcu_conclude (s := (r.1.enqueue Act.readapt l false []).1) ⟨req, 0x16000 + 0x80 * l, 2, true⟩ r.2
  refine ⟨_, (exec_readapt req l w s).trans hx, ?_, ?_, ?_, ?_⟩
  · rw [hg, hf.ridge] at h₁
    rw [State.quietQueue, ← hc.1]
    exact h₁
  · exact hc.mem.trans (h₂.mem.trans hf.mem)
  · exact hc.ridge.trans (h₂.ridge.trans hf.ridge)
  · rw [← hc.1, ← h₂.1, ← hf.1]

end
end Sys2Proof.Machine

/-! ### The end of a re-adaptation (R259, R284) -/

namespace Sys2Proof.Machine
namespace State
variable {s : State} {l : Nat}

theorem regs_wr_of_regs {t u : State} (h : t.regs = u.regs) (f : Fld) (v i : Nat) : (t.wr f v i).regs = (u.wr f v i).regs :=
  congrArg (regsPut · f i v) h

/-- Lane `l` has left its re-adaptation: counted, with the corrections measured (R259). -/
def readapted (s : State) (l : Nat) (sk cdr : Int) : State :=
  ((((s.wr F.SDS_LN_STAT_ADAPTING 0 l).inc F.SDS_LN_CNT_READAPTS l)).reloadLane l sk cdr).bump F.PM_STAT_CORR_GEN (l / 4)

theorem regs_readapted (sk cdr : Int) : (s.readapted l sk cdr).regs =
    ((((s.wr F.SDS_LN_STAT_ADAPTING 0 l).inc F.SDS_LN_CNT_READAPTS l).wrS F.PM_LN_RXSKEW_VALUE sk l).wrS F.PM_LN_RXLAT_VALUE
      ((s.lane l).lat0 + cdr) l |>.bump F.PM_STAT_CORR_GEN (l / 4)).regs := by
  have h := (reloadLane_facts (s := (s.wr F.SDS_LN_STAT_ADAPTING 0 l).inc F.SDS_LN_CNT_READAPTS l) l sk cdr).2.1
  rw [readapted, bump_eq, bump_eq, rd_of_regs h]
  exact regs_wr_of_regs h _ _ _

theorem readapted_facts (sk cdr : Int) : (s.readapted l sk cdr).on F.SDS_LN_STAT_ADAPTING l = false ∧
    (s.readapted l sk cdr).rd F.SDS_LN_CNT_READAPTS l = satU F.SDS_LN_CNT_READAPTS.w (s.rd F.SDS_LN_CNT_READAPTS l + 1) ∧
    (s.readapted l sk cdr).rd F.SDS_LN_EQ_CTLE l = s.rd F.SDS_LN_EQ_CTLE l ∧
    (s.readapted l sk cdr).rd F.PM_LN_RXSKEW_VALUE l = ofS F.PM_LN_RXSKEW_VALUE.w sk := by
  have h (f : Fld) (i : Nat) := rd_of_regs (regs_readapted (s := s) (l := l) sk cdr) f i
  refine ⟨?_, ?_, ?_, ?_⟩ <;> simp (disch := decide) [on, h, rd_wr_other, satU_mod, ofS_mod]

theorem readapted_eth (sk cdr : Int) : (s.readapted l sk cdr).eth = (s.setLane l { s.lane l with reload := false }).eth :=
  (reloadLane_facts (s := (s.wr F.SDS_LN_STAT_ADAPTING 0 l).inc F.SDS_LN_CNT_READAPTS l) l sk cdr).2.2

theorem readapted_mem (sk cdr : Int) : (s.readapted l sk cdr).mem = s.mem :=
  (reloadLane_facts (s := (s.wr F.SDS_LN_STAT_ADAPTING 0 l).inc F.SDS_LN_CNT_READAPTS l) l sk cdr).1.mem

/-- A re-adaptation that runs leaves its lane waiting for the first eye result, and its group is free. -/
theorem readaptDone_eq (h : s.isRunning Act.readapt l = true) (sk cdr : Int) : ∃ cmds, s.readaptDone l sk cdr =
    ((s.readapted l sk cdr).setLane l { (s.readapted l sk cdr).lane l with first := true, low := 0, cmds := cmds }).endEntry
      (quietGroup Act.readapt l) Code.ok 0 0 false := by
  refine ⟨((s.readapted l sk cdr).lane l).cmds ++ (match (s.readapted l sk cdr).quietRun (quietGroup Act.readapt l) with
    | some e => e.cmds
    | none => []), ?_⟩
  rw [readaptDone, h, if_neg (by decide)]
  rfl

end State

theorem readaptDone_settles {s : State} {l : Nat} (hl : l < 32) (hr : s.isRunning 5 l = true) (hn : s.eth.lane.length = 32) (sk cdr : Int)
    (ctle dfe : Nat) : Settles (.readaptDone l sk cdr ctle dfe) s (fun u => u.on F.SDS_LN_STAT_ADAPTING l = false ∧
      u.rd F.SDS_LN_CNT_READAPTS l = satU F.SDS_LN_CNT_READAPTS.w (s.rd F.SDS_LN_CNT_READAPTS l + 1) ∧ (u.lane l).first = true ∧
      u.rd F.SDS_LN_EQ_CTLE l = ctle % 2 ^ F.SDS_LN_EQ_CTLE.w ∧ u.rd F.PM_LN_RXSKEW_VALUE l = ofS F.PM_LN_RXSKEW_VALUE.w sk ∧
      u.mem = s.mem) := by
  have hx : execReadaptDone l sk cdr ctle dfe s = done (((s.wr F.SDS_LN_EQ_CTLE ctle l).wr F.SDS_LN_EQ_DFE1 dfe l).readaptDone l sk cdr) :=
    if_neg (by rw [show s.isRunning Act.readapt l = true from hr]; simp; omega)
  obtain ⟨t, ht⟩ : ∃ t, (s.wr F.SDS_LN_EQ_CTLE ctle l).wr F.SDS_LN_EQ_DFE1 dfe l = t := ⟨_, rfl⟩
  have hcnt : t.rd F.SDS_LN_CNT_READAPTS l = s.rd F.SDS_LN_CNT_READAPTS l := by rw [← ht]; simp (disch := decide) [State.rd_wr_other]
  have hctle : t.rd F.SDS_LN_EQ_CTLE l = ctle % 2 ^ F.SDS_LN_EQ_CTLE.w := by rw [← ht]; simp (disch := decide) [State.rd_wr_other]
  obtain ⟨cmds, hd⟩ := State.readaptDone_eq (s := t) (l := l) (by rw [← ht]; exact hr) sk cdr
  have hq := State.quietOnly_endEntry (s :=
      (t.readapted l sk cdr).setLane l { (t.readapted l sk cdr).lane l with first := true, low := 0, cmds := cmds })
    (quietGroup Act.readapt l) Code.ok 0 0
  obtain ⟨h₁, h₂, h₃, h₄⟩ := State.readapted_facts (s := t) (l := l) sk cdr
  rw [ht, hd] at hx
  refine ⟨_, (exec_readaptDone l sk cdr ctle dfe s).trans hx, ?_, (hq.2 _ l rfl).trans (h₂.trans (by rw [hcnt])), ?_,
    (hq.2 _ l rfl).trans (h₃.trans hctle), (hq.2 _ l rfl).trans h₄, ?_⟩
  · exact (congrArg (· != 0) (hq.2 _ l rfl)).trans h₁
  · rw [State.lane_of_eth hq.eth, State.lane_setLane]
    rw [State.readapted_eth, State.setLane, List.length_set, ← ht]
    exact hn ▸ hl
  · rw [hq.mem]
    exact (State.readapted_mem sk cdr).trans (by rw [← ht]; rfl)

end Sys2Proof.Machine

/-! ## Pauses and ESMC (R266 to R273) -/

namespace Sys2Proof.Machine

theorem exec_pauseRx (p : Nat) (f : RxFrame) (s : State) : exec (.pauseRx p f) s = execPauseRx p f s := rfl
theorem exec_pauseExpire (p prio : Nat) (s : State) : exec (.pauseExpire p prio) s = execPauseExpire p prio s := rfl
theorem exec_pauseRepeat (p : Nat) (s : State) : exec (.pauseRepeat p) s = execPauseRepeat p s := rfl
theorem exec_esmcRx (p : Nat) (f : RxFrame) (s : State) : exec (.esmcRx p f) s = execEsmcRx p f s := rfl
theorem exec_esmcTimeout (g : Nat) (s : State) : exec (.esmcTimeout g) s = execEsmcTimeout g s := rfl
theorem exec_esmcTx (g : Nat) (event : Bool) (s : State) : exec (.esmcTx g event) s = execEsmcTx g event s := rfl

namespace State
variable {s : State} {p : Nat}

/-- The fields that show the pauses of port `p`. -/
def pauseFlds (p : Nat) : List (Fld × Nat) := [(F.MAC_STAT_PAUSED, p), (F.MAC_STAT_PFC_PAUSED, p)]

theorem onlyRegs_showPause : OnlyRegs s (s.showPause p) (pauseFlds p) :=
  ((OnlyRegs.refl s _).wr (.head _) _).wr (.tail _ (.head _)) _

theorem prt_showPause (q : Nat) : (s.showPause p).prt q = s.prt q := rfl

theorem on_paused_showPause : (s.showPause p).on F.MAC_STAT_PAUSED p = (s.prt p).pause.isSome := by
  rw [on, showPause, rd_wr_other _ (by decide) (by decide) (by decide), wrB_eq, rd_wr_same]
  cases (s.prt p).pause.isSome <;> rfl

/-- The pauses of the priorities that a PFC frame `b` names run anew (R267). -/
def pfcPauses (s : State) (p : Nat) (b : List Nat) : List (Option Nat) :=
  (s.prt p).pfc.zipIdx.map (fun q => if bit (be b 16 2) q.2 then s.pauseEnd p (be b (18 + 2 * q.2) 2) else q.1)

theorem getD_pfcPauses (b : List Nat) {i : Nat} (h : i < (s.prt p).pfc.length) : (s.pfcPauses p b).getD i none =
    if bit (be b 16 2) i then s.pauseEnd p (be b (18 + 2 * i) 2) else (s.prt p).pfc.getD i none := by
  simp [pfcPauses, List.getD_eq_getElem?_getD, h]

theorem pauseEnd_isSome (q : Nat) : (s.pauseEnd p q).isSome = (q != 0) := by
  unfold pauseEnd
  split <;> simp_all

/-- Port `p` takes the pauses `x`: counted and shown (R266, R267). -/
def pausedBy (s : State) (p : Nat) (x : PortSt) : State := ((s.inc F.MAC_CNT_PAUSE_RX_PAUSE_RX p).setPrt p x).showPause p

/-- Each PAUSE and PFC frame that is taken counts, and shows in the pauses of its port alone. -/
theorem pausedBy_facts (x : PortSt) :
    (s.pausedBy p x).rd F.MAC_CNT_PAUSE_RX_PAUSE_RX p = satU F.MAC_CNT_PAUSE_RX_PAUSE_RX.w (s.rd F.MAC_CNT_PAUSE_RX_PAUSE_RX p + 1) ∧
    { s with regs := (s.pausedBy p x).regs, eth := (s.pausedBy p x).eth } = s.pausedBy p x ∧
    RegsBut s (s.pausedBy p x) [(F.MAC_STAT_PAUSED, p), (F.MAC_STAT_PFC_PAUSED, p), (F.MAC_CNT_PAUSE_RX_PAUSE_RX, p)] := by
  refine ⟨?_, rfl, ?_⟩
  · rw [pausedBy, (onlyRegs_showPause.2).rd rfl p]
    exact rd_inc _ _ p
  · exact ((((RegsBut.refl s _).wr (.tail _ (.tail _ (.head _))) _).same rfl).wr (.head _) _).wr (.tail _ (.head _)) _

theorem prt_pausedBy (h : s.eth.port.length = 32) (hp : p < 32) (x : PortSt) : (s.pausedBy p x).prt p = x :=
  prt_setPrt (s := s.inc F.MAC_CNT_PAUSE_RX_PAUSE_RX p) (h ▸ hp) x

end State

section
variable {s : State} {p : Nat} {f : RxFrame} (hp : p < 32)
include hp

section
variable (hu : s.portState p = 4) (hf : f.fcsOk = true)
include hu hf

theorem execPauseRx_up : execPauseRx p f s = done (s.pauseRx p f.bytes) := if_pos ⟨hp, hu, hf⟩

theorem pauseRx_pause_settles (hm : isMacControl f.bytes 1 = true) (he : s.on F.MAC_CTL_PFC_EN p = false)
    (hi : s.on F.MAC_CTL_FC_IGN p = false) (hn : s.eth.port.length = 32) : Settles (.pauseRx p f) s (fun u =>
      (u.prt p).pause = s.pauseEnd p (be f.bytes 16 2) ∧ u.on F.MAC_STAT_PAUSED p = (be f.bytes 16 2 != 0) ∧
      u.rd F.MAC_CNT_PAUSE_RX_PAUSE_RX p = satU F.MAC_CNT_PAUSE_RX_PAUSE_RX.w (s.rd F.MAC_CNT_PAUSE_RX_PAUSE_RX p + 1) ∧
      { s with regs := u.regs, eth := u.eth } = u ∧
      RegsBut s u [(F.MAC_STAT_PAUSED, p), (F.MAC_STAT_PFC_PAUSED, p), (F.MAC_CNT_PAUSE_RX_PAUSE_RX, p)]) := by
  have hx : execPauseRx p f s = done (s.pausedBy p { s.prt p with pause := s.pauseEnd p (be f.bytes 16 2) }) := by
    rw [execPauseRx_up hp hu hf, State.pauseRx, hm, he, hi]
    rfl
  have hq := State.prt_pausedBy hn hp { s.prt p with pause := s.pauseEnd p (be f.bytes 16 2) }
  refine ⟨_, (exec_pauseRx p f s).trans hx, by rw [hq], ?_, State.pausedBy_facts _⟩
  rw [State.pausedBy, State.on_paused_showPause, ← State.prt_showPause, ← State.pausedBy, hq, State.pauseEnd_isSome]

theorem pauseRx_ignored_settles (hm : isMacControl f.bytes 1 = true) (h : s.on F.MAC_CTL_PFC_EN p = true ∨ s.on F.MAC_CTL_FC_IGN p = true) :
    Settles (.pauseRx p f) s (fun u =>
      u.rd F.MAC_CNT_PAUSE_IGN_PAUSE_IGN p = satU F.MAC_CNT_PAUSE_IGN_PAUSE_IGN.w (s.rd F.MAC_CNT_PAUSE_IGN_PAUSE_IGN p + 1) ∧
      OnlyRegs s u [(F.MAC_CNT_PAUSE_IGN_PAUSE_IGN, p)]) := by
  have hx : execPauseRx p f s = done (s.inc F.MAC_CNT_PAUSE_IGN_PAUSE_IGN p) := by
    rw [execPauseRx_up hp hu hf, State.pauseRx, hm, if_pos rfl, Bool.or_eq_true_iff.mpr h]
    rfl
  exact ⟨_, (exec_pauseRx p f s).trans hx, State.rd_inc _ _ p, (OnlyRegs.refl s _).wr (.head _) _⟩

theorem pauseRx_pfc_settles (hm : isMacControl f.bytes 1 = false) (hc : isMacControl f.bytes 0x101 = true)
    (he : s.on F.MAC_CTL_PFC_EN p = true) (hi : s.on F.MAC_CTL_PFC_IGN p = false) (hn : s.eth.port.length = 32)
    (hl : (s.prt p).pfc.length = 8) : Settles (.pauseRx p f) s (fun u =>
      (∀ i, i < 8 → (u.prt p).pfc.getD i none =
        (if bit (be f.bytes 16 2) i then s.pauseEnd p (be f.bytes (18 + 2 * i) 2) else (s.prt p).pfc.getD i none)) ∧
      u.rd F.MAC_CNT_PAUSE_RX_PAUSE_RX p = satU F.MAC_CNT_PAUSE_RX_PAUSE_RX.w (s.rd F.MAC_CNT_PAUSE_RX_PAUSE_RX p + 1) ∧
      { s with regs := u.regs, eth := u.eth } = u ∧
      RegsBut s u [(F.MAC_STAT_PAUSED, p), (F.MAC_STAT_PFC_PAUSED, p), (F.MAC_CNT_PAUSE_RX_PAUSE_RX, p)]) := by
  have hx : execPauseRx p f s = done (s.pausedBy p { s.prt p with pfc := s.pfcPauses p f.bytes }) := by
    rw [execPauseRx_up hp hu hf, State.pauseRx, hm, hc, he, hi]
    rfl
  refine ⟨_, (exec_pauseRx p f s).trans hx, fun i h => ?_, State.pausedBy_facts _⟩
  rw [State.prt_pausedBy hn hp]
  exact State.getD_pfcPauses f.bytes (hl ▸ h)

end

section
variable {prio : Nat} (hn : s.eth.port.length = 32)
include hn

/-- A pause of a port that ends shows, and nothing else has changed. -/
theorem pauseEnded_facts (x : PortSt) : ((s.setPrt p x).showPause p).prt p = x ∧
    { s with regs := ((s.setPrt p x).showPause p).regs, eth := ((s.setPrt p x).showPause p).eth } = (s.setPrt p x).showPause p ∧
    RegsBut s ((s.setPrt p x).showPause p) (State.pauseFlds p) :=
  ⟨State.prt_setPrt (hn ▸ hp) x, rfl, (RegsBut.refl s _).trans ((State.onlyRegs_showPause (s := s.setPrt p x)).2)⟩

theorem pauseExpire_link_settles (h : 8 ≤ prio) : Settles (.pauseExpire p prio) s (fun u => u.prt p = { s.prt p with pause := none } ∧
    u.on F.MAC_STAT_PAUSED p = false ∧ { s with regs := u.regs, eth := u.eth } = u ∧
    RegsBut s u [(F.MAC_STAT_PAUSED, p), (F.MAC_STAT_PFC_PAUSED, p)]) := by
  have hx : execPauseExpire p prio s = done ((s.setPrt p { s.prt p with pause := none }).showPause p) := by
    rw [execPauseExpire, if_neg (by omega)]
    dsimp only
    rw [if_neg (by omega)]
  obtain ⟨hq, hr, hb⟩ := pauseEnded_facts hp hn { s.prt p with pause := none }
  refine ⟨_, (exec_pauseExpire p prio s).trans hx, hq, ?_, hr, hb⟩
  rw [State.on_paused_showPause, ← State.prt_showPause, hq]
  rfl

theorem pauseExpire_prio_settles (h : prio < 8) : Settles (.pauseExpire p prio) s (fun u =>
    u.prt p = { s.prt p with pfc := (s.prt p).pfc.set prio none } ∧ { s with regs := u.regs, eth := u.eth } = u ∧
    RegsBut s u [(F.MAC_STAT_PAUSED, p), (F.MAC_STAT_PFC_PAUSED, p)]) := by
  have hx : execPauseExpire p prio s = done ((s.setPrt p { s.prt p with pfc := (s.prt p).pfc.set prio none }).showPause p) := by
    rw [execPauseExpire, if_neg (by omega)]
    dsimp only
    rw [if_pos h]
  exact ⟨_, (exec_pauseExpire p prio s).trans hx, pauseEnded_facts hp hn _⟩

end

theorem pauseRepeat_settles (hx : (s.prt p).xoff = true) (hs : s.portSends p = true) : Settles (.pauseRepeat p) s (fun u =>
    u.out = s.out ++ [.frame p (s.pauseFrame p (s.rd F.MAC_FC_QUANTA_TX p))] ∧
    u.rd F.MAC_CNT_TX_FRAMES_TX_FRAMES p = satU F.MAC_CNT_TX_FRAMES_TX_FRAMES.w (s.rd F.MAC_CNT_TX_FRAMES_TX_FRAMES p + 1) ∧
    { s with regs := u.regs, out := u.out } = u ∧ RegsBut s u [(F.MAC_CNT_TX_FRAMES_TX_FRAMES, p)]) := by
  have he : execPauseRepeat p s = done ((s.emit (.frame p (s.pauseFrame p (s.rd F.MAC_FC_QUANTA_TX p)))).inc F.MAC_CNT_TX_FRAMES_TX_FRAMES p) := by
    rw [execPauseRepeat, if_pos ⟨hp, hx⟩, State.sendFrame, if_pos hs]
  exact ⟨_, (exec_pauseRepeat p s).trans he, rfl, State.rd_inc _ _ p, rfl, (RegsBut.refl s _).wr (.head _) _⟩

end

/-! ### ESMC (R272, R273, Table ETH-5) -/

theorem qlIndex_lt (optII : Bool) (ssm : Nat) (essm : Option Nat) : qlIndex optII ssm essm < 16 := by
  unfold qlIndex
  split
  · split_ifs <;> decide
  · split <;> decide

namespace State
variable {s : State} {g q : Nat}

/-- QL_RX shows the index received, and a change of it counts and may stage FS 103 (R272). -/
theorem rd_qlRx_setQlRx (hq : q < 16) : (s.setQlRx g q).rd F.SDS_GRP_QL_QL_RX g = q := by
  unfold setQlRx
  split
  · assumption
  · rw [rd_raise, inc_eq, rd_wr_other _ (by decide) (by decide) (by decide), rd_wr_same]
    exact Nat.mod_eq_of_lt hq

theorem onlyRegsFcu_setQlRx : OnlyRegsFcu s (s.setQlRx g q) [(F.SDS_GRP_QL_QL_RX, g), (F.SDS_GRP_QL_RX_TIMEOUT, g), (F.SDS_GRP_CNT_QL_CHG, g)] := by
  unfold setQlRx
  split
  · exact ⟨rfl, .refl s _⟩
  · exact ⟨rfl, (((RegsBut.refl s _).wr (.head _) _).wr (.tail _ (.tail _ (.head _))) _).same rfl⟩

theorem onlyRegsFcu_wr_setQlRx (v : Nat) : OnlyRegsFcu s ((s.wr F.SDS_GRP_QL_RX_TIMEOUT v g).setQlRx g q)
    [(F.SDS_GRP_QL_QL_RX, g), (F.SDS_GRP_QL_RX_TIMEOUT, g), (F.SDS_GRP_CNT_QL_CHG, g)] :=
  onlyRegsFcu_trans (t := s.wr F.SDS_GRP_QL_RX_TIMEOUT v g) ⟨rfl, (RegsBut.refl s _).wr (.tail _ (.head _)) v⟩ onlyRegsFcu_setQlRx

theorem rd_timeout_setQlRx (i : Nat) : (s.setQlRx g q).rd F.SDS_GRP_QL_RX_TIMEOUT i = s.rd F.SDS_GRP_QL_RX_TIMEOUT i := by
  unfold setQlRx
  split
  · rfl
  · rw [rd_raise, inc_eq, rd_wr_other _ (by decide) (by decide) (by decide), rd_wr_other _ (by decide) (by decide) (by decide)]

theorem staged_setQlRx (h : s.rd F.SDS_GRP_QL_QL_RX g ≠ q) : (s.setQlRx g q).staged 103 (g + q * 256) := by
  rw [setQlRx, if_neg h]
  exact List.mem_append_right _ (.head _)

end State

theorem esmcRx_settles {s : State} {p : Nat} {f : RxFrame} (hp : p < 32) (hu : s.portState p = 4) (hf : f.fcsOk = true)
    (he : isEsmc f.bytes = true) (hr : s.rclkPort (p / 4) = p) (hb : be f.bytes 24 1 = 1) : Settles (.esmcRx p f) s (fun u =>
      u.rd F.SDS_GRP_QL_QL_RX (p / 4) = qlIndex (s.on F.SDS_GRP_QL_OPT_II (p / 4)) (be f.bytes 27 1 % 16)
        (if be f.bytes 28 1 = 2 then some (be f.bytes 31 1) else none) ∧
      u.on F.SDS_GRP_QL_RX_TIMEOUT (p / 4) = false ∧
      OnlyRegsFcu s u [(F.SDS_GRP_QL_QL_RX, p / 4), (F.SDS_GRP_QL_RX_TIMEOUT, p / 4), (F.SDS_GRP_CNT_QL_CHG, p / 4)]) := by
  have hx : execEsmcRx p f s = done ((s.wr F.SDS_GRP_QL_RX_TIMEOUT 0 (p / 4)).setQlRx (p / 4)
      (qlIndex (s.on F.SDS_GRP_QL_OPT_II (p / 4)) (be f.bytes 27 1 % 16) (if be f.bytes 28 1 = 2 then some (be f.bytes 31 1) else none))) := by
    rw [execEsmcRx, if_pos ⟨hp, hu, hf, he⟩, State.esmcRx, if_neg (by simp [hr, hb])]
  exact ⟨_, (exec_esmcRx p f s).trans hx, State.rd_qlRx_setQlRx (qlIndex_lt _ _ _),
    State.on_of_rd ((State.rd_timeout_setQlRx _).trans (State.rd_wr_same s _ 0 _)), State.onlyRegsFcu_wr_setQlRx 0⟩

theorem esmcTimeout_settles {s : State} {g : Nat} (hg : g < 8) : Settles (.esmcTimeout g) s (fun u => u.rd F.SDS_GRP_QL_QL_RX g = 1 ∧
    u.on F.SDS_GRP_QL_RX_TIMEOUT g = true ∧ u.staged 103 (g + 256) ∧
    OnlyRegsFcu s u [(F.SDS_GRP_QL_QL_RX, g), (F.SDS_GRP_QL_RX_TIMEOUT, g), (F.SDS_GRP_CNT_QL_CHG, g)]) := by
  obtain ⟨t, ht⟩ : ∃ t, s.wr F.SDS_GRP_QL_RX_TIMEOUT 1 g = t := ⟨_, rfl⟩
  have hx : execEsmcTimeout g s = if t.rd F.SDS_GRP_QL_QL_RX g = 1 then done (t.raise 103 (g + 256)) else done (t.setQlRx g 1) := by
    rw [execEsmcTimeout, if_neg (by omega), ← ht]
  have hv : t.rd F.SDS_GRP_QL_RX_TIMEOUT g = 1 := by rw [← ht]; exact State.rd_wr_same s _ 1 g
  by_cases h : t.rd F.SDS_GRP_QL_QL_RX g = 1
  · rw [if_pos h] at hx
    refine ⟨_, (exec_esmcTimeout g s).trans hx, h, State.on_of_rd hv, List.mem_append_right _ (.head _), ?_⟩
    rw [← ht]
    exact ⟨rfl, ((RegsBut.refl s _).wr (.tail _ (.head _)) 1).same rfl⟩
  · rw [if_neg h] at hx
    refine ⟨_, (exec_esmcTimeout g s).trans hx, State.rd_qlRx_setQlRx (by decide), State.on_of_rd ((State.rd_timeout_setQlRx g).trans hv),
      State.staged_setQlRx h, ?_⟩
    rw [← ht]
    exact State.onlyRegsFcu_wr_setQlRx 1

/-! ### The PDUs that a group sends (R273) -/

namespace State
variable {s t : State}

/-- The fields that a PDU is made of and that say whether a port sends. -/
def pduFlds : List Fld := [F.MAC_STAT_STATE, F.SDS_GRP_CTL_LB, F.MAC_ADDR_HI_ADDR, F.MAC_ADDR_LO_ADDR, F.SDS_GRP_QL_ENH]

/-- The fields in which a frame sent, or one dropped, counts. -/
def sentFlds : List Fld := [F.MAC_CNT_TX_FRAMES_TX_FRAMES, F.MAC_CNT_DROP_DROP]

theorem portSends_of_rd (h : ∀ f ∈ pduFlds, ∀ i, t.rd f i = s.rd f i) (p : Nat) : t.portSends p = s.portSends p := by
  rw [portSends, portSends, portState, portState, h _ (by simp [pduFlds]), h _ (by simp [pduFlds])]

theorem esmcPdu_of_rd (h : ∀ f ∈ pduFlds, ∀ i, t.rd f i = s.rd f i) (p c e : Nat) (event : Bool) :
    t.esmcPdu p c e event = s.esmcPdu p c e event := by
  rw [esmcPdu, esmcPdu, macAddr, macAddr, on, on, h _ (by simp [pduFlds]), h _ (by simp [pduFlds]), h F.SDS_GRP_QL_ENH (by simp [pduFlds])]

theorem off_sentFlds {f : Fld} (h : f ∈ pduFlds) : f.off sentFlds = true :=
  List.all_eq_true.mp (by decide : pduFlds.all (fun f => f.off sentFlds) = true) f h

/-- Port `4 g + i` sends its PDU when it is UP. -/
def esmcPort (g c e : Nat) (event : Bool) (s : State) (i : Nat) : State :=
  if s.portState (4 * g + i) = Port.up then s.sendFrame (4 * g + i) (s.esmcPdu (4 * g + i) c e event) else s

/-- What port `4 g + i` puts out as its group sends a PDU. -/
def esmcOut (s : State) (g c e : Nat) (event : Bool) (i : Nat) : Out := .frame (4 * g + i) (s.esmcPdu (4 * g + i) c e event)

/-- A port sends its PDU where it may send, and it shows in its counts alone. -/
theorem esmcPort_facts (g c e : Nat) (event : Bool) (i : Nat) :
    (s.esmcPort g c e event i).out = s.out ++ ([i].filter (fun i => s.portSends (4 * g + i))).map (s.esmcOut g c e event) ∧
    { s with regs := (s.esmcPort g c e event i).regs, out := (s.esmcPort g c e event i).out } = s.esmcPort g c e event i ∧
    (∀ f j, f.off sentFlds = true → (s.esmcPort g c e event i).rd f j = s.rd f j) := by
  unfold esmcPort
  by_cases hu : s.portState (4 * g + i) = Port.up
  · rw [if_pos hu, sendFrame]
    by_cases hs : s.portSends (4 * g + i) = true
    · rw [if_pos hs, show [i].filter (fun i => s.portSends (4 * g + i)) = [i] by simp [hs]]
      exact ⟨rfl, rfl, fun f j hf => rd_wr_off _ hf (.head _) _ _ _⟩
    · rw [if_neg hs, show [i].filter (fun i => s.portSends (4 * g + i)) = [] by simp [hs]]
      exact ⟨(List.append_nil _).symm, rfl, fun f j hf => rd_wr_off _ hf (.tail _ (.head _)) _ _ _⟩
  · have hs : ¬s.portSends (4 * g + i) = true := by simp [portSends, hu]
    rw [if_neg hu, show [i].filter (fun i => s.portSends (4 * g + i)) = [] by simp [hs]]
    exact ⟨(List.append_nil _).symm, rfl, fun _ _ _ => rfl⟩

theorem idxs_succ (k : Nat) (q : Nat → Bool) : idxs (k + 1) q = idxs k q ++ [k].filter q := by
  rw [idxs, List.range_succ, List.filter_append, idxs]

/-- Each of the first `k` ports of a group that may send has sent its PDU, in order. -/
theorem esmcPorts_facts (g c e : Nat) (event : Bool) (k : Nat) :
    (forN k s (esmcPort g c e event)).out = s.out ++ (idxs k (fun i => s.portSends (4 * g + i))).map (s.esmcOut g c e event) ∧
    { s with regs := (forN k s (esmcPort g c e event)).regs, out := (forN k s (esmcPort g c e event)).out } = forN k s (esmcPort g c e event) ∧
    (∀ f j, f.off sentFlds = true → (forN k s (esmcPort g c e event)).rd f j = s.rd f j) := by
  induction k with
  | zero => exact ⟨(List.append_nil _).symm, rfl, fun _ _ _ => rfl⟩
  | succ k ih =>
    obtain ⟨ho, hr, hf⟩ := ih
    obtain ⟨ko, kr, kf⟩ := esmcPort_facts (s := forN k s (esmcPort g c e event)) g c e event k
    have hd : ∀ f ∈ pduFlds, ∀ i, (forN k s (esmcPort g c e event)).rd f i = s.rd f i := fun f h i => hf f i (off_sentFlds h)
    rw [forN_succ]
    refine ⟨?_, by rw [← kr, ← hr], fun f j h => (kf f j h).trans (hf f j h)⟩
    have he : (forN k s (esmcPort g c e event)).esmcOut g c e event = s.esmcOut g c e event :=
      funext fun i => by rw [esmcOut, esmcOut, esmcPdu_of_rd hd]
    simp only [ko, ho, he, portSends_of_rd hd, idxs_succ, List.map_append, List.append_assoc]

end State

theorem esmcTx_settles {s : State} {g c e : Nat} (hg : g < 8) (event : Bool) (hm : s.rd F.SDS_GRP_QL_TX_MODE g ≠ 0)
    (hc : qlCode (s.on F.SDS_GRP_QL_OPT_II g) (s.qlTx g) = some (c, e)) : Settles (.esmcTx g event) s (fun u =>
      u.rd F.SDS_GRP_QL_QL_TX g = s.qlTx g % 2 ^ F.SDS_GRP_QL_QL_TX.w ∧
      u.out = s.out ++ (idxs 4 (fun i => s.portSends (4 * g + i))).map (fun i => Out.frame (4 * g + i) (s.esmcPdu (4 * g + i) c e event)) ∧
      { s with regs := u.regs, out := u.out } = u) := by
  obtain ⟨t, ht⟩ : ∃ t, s.wr F.SDS_GRP_QL_QL_TX (s.qlTx g) g = t := ⟨_, rfl⟩
  have hd : ∀ f, f.off [F.SDS_GRP_QL_QL_TX] = true → ∀ i, t.rd f i = s.rd f i := fun f h i => by
    rw [← ht]
    exact State.rd_wr_off s h (.head _) _ _ _
  have hp : ∀ f ∈ State.pduFlds, ∀ i, t.rd f i = s.rd f i := fun f h =>
    hd f (List.all_eq_true.mp (by decide : State.pduFlds.all (fun f => f.off [F.SDS_GRP_QL_QL_TX]) = true) f h)
  have hx : execEsmcTx g event s = done (forN 4 t (State.esmcPort g c e event)) := by
    rw [execEsmcTx, if_neg (by omega)]
    dsimp only
    rw [ht, State.on, hd _ rfl, ← State.on, hc]
    rfl
  obtain ⟨ho, hr, hf⟩ := State.esmcPorts_facts (s := t) g c e event 4
  refine ⟨_, (exec_esmcTx g event s).trans hx, ?_, ?_, ?_⟩
  · rw [hf _ _ rfl, ← ht, State.rd_wr_same]
  · rw [ho]
    simp only [State.portSends_of_rd hp]
    exact congrArg₂ (· ++ ·) (by rw [← ht]; rfl) (List.map_congr_left fun i _ => by rw [State.esmcOut, State.esmcPdu_of_rd hp])
  · rw [← hr, ← ht]
    rfl

/-- Settles O25: each clause is what its command does to the lane, the port or the group that it names. -/
theorem lanesAdaptAndPausesHold : Obligations.LanesAdaptAndPausesHold :=
  ⟨fun _ _ hl => adaptFreeze_settles hl,
   fun _ _ hl => adaptResume_settles hl,
   fun _ _ _ hl hz ha hf hn he => eyeMeasure_good_settles hl hz ha hf hn he,
   fun _ _ _ hl hz ha hf hc hq he hn hw => eyeMeasure_fourth_settles hl hz ha hf hc hq he hn hw,
   fun _ _ _ w h hl hn hw => readapt_settles hl h hn hw w,
   fun _ _ sk cdr ctle dfe hl hr hn => readaptDone_settles hl hr hn sk cdr ctle dfe,
   fun _ _ _ hp hu hf hm he hi hn => pauseRx_pause_settles hp hu hf hm he hi hn,
   fun _ _ _ hp hu hf hm h => pauseRx_ignored_settles hp hu hf hm h,
   fun _ _ _ hp hu hf hm hc he hi hn hl => pauseRx_pfc_settles hp hu hf hm hc he hi hn hl,
   fun _ _ _ hp h hn => pauseExpire_link_settles hp hn h,
   fun _ _ _ hp h hn => pauseExpire_prio_settles hp hn h,
   fun _ _ hp hx hs => pauseRepeat_settles hp hx hs,
   fun _ _ _ hp hu hf he hr hb => esmcRx_settles hp hu hf he hr hb,
   fun _ _ hg => esmcTimeout_settles hg,
   fun _ _ event _ _ hg hm hc => esmcTx_settles hg event hm hc⟩

end Sys2Proof.Machine

/-! ## Ports that move, start and stop (R250 to R254, R271, R276, Table ETH-3)

A move of a port shows in its state, and beyond it only in what follows the state of a port: its PTP states and the recovered clock of
its group. -/

namespace Sys2Proof.Machine

theorem OnlyRegs.foldl {α : Type} {f : State → α → State} {l : List (Fld × Nat)} (hf : ∀ t x, OnlyRegs t (f t x) l) (xs : List α)
    (s : State) : OnlyRegs s (xs.foldl f s) l := by
  induction xs generalizing s with
  | nil => exact .refl s l
  | cons x xs ih => exact (hf s x).trans (ih _)

namespace State
variable {s t : State} {p : Nat}

/-! ### What follows a port's state -/

/-- The fields of the PTP states of a port, and the one of its capability. -/
def ptpPortFlds (p : Nat) : List (Fld × Nat) := [(F.PTE_PORT_STAT_STATE0, p), (F.PTE_PORT_STAT_STATE1, p), (F.PTE_PORT_STAT_AS_CAPABLE, p)]

theorem onlyRegs_setPtpState (i st : Nat) : OnlyRegs s (s.setPtpState i p st) (ptpPortFlds p) := by
  unfold setPtpState
  split
  · exact (OnlyRegs.refl s _).wr (.head _) st
  · exact (OnlyRegs.refl s _).wr (.tail _ (.head _)) st

theorem onlyRegs_showPtpPort : OnlyRegs s (s.showPtpPort p) (ptpPortFlds p) := by
  unfold showPtpPort
  extract_lets up s₁
  have hs : OnlyRegs s s₁ (ptpPortFlds p) := .foldl (fun t i => by
    split_ifs
    · exact onlyRegs_setPtpState i 1
    · exact .refl t _
    · exact onlyRegs_setPtpState i 0) [0, 1] s
  split
  · exact hs
  · exact hs.wr (.tail _ (.tail _ (.head _))) 0

theorem condHolds_condOn_other {fs n : Nat} (h : fs ≠ n) (k q : Nat) : (s.condOn n k).condHolds fs q = s.condHolds fs q := by
  unfold condOn
  split
  · rfl
  · simp [condHolds, Ne.symm h]

theorem condHolds_condOff_other {fs n : Nat} (h : fs ≠ n) (k q : Nat) : (s.condOff n k).condHolds fs q = s.condHolds fs q := by
  rw [condHolds, condOff, List.any_filter]
  refine congrArg (s.fcu.conds.any ·) (funext fun c => ?_)
  by_cases hc : c.fs = fs
  · simp [hc, h]
  · simp [hc]

theorem condHolds_of_kept (h : FaultsKept s t) {fs q : Nat} (hc : s.condHolds fs q = true) : t.condHolds fs q = true := by
  obtain ⟨c, hm, he⟩ := List.any_eq_true.mp hc
  exact List.any_eq_true.mpr ⟨c, h.conds c hm, he⟩

/-- What follows the recovered clock of a group is its status, its count, and FS 104. -/
theorem showRclk_facts (g : Nat) : OnlyRegsFcu s (s.showRclk g) [(F.SDS_GRP_STAT_RCLK_OK, g), (F.SDS_GRP_CNT_RCLK_SQ, g)] ∧
    (∀ o ∈ s.fcu.occs, o ∈ (s.showRclk g).fcu.occs) ∧ ∀ q, (s.showRclk g).condHolds 96 q = s.condHolds 96 q := by
  unfold showRclk
  extract_lets was now s₁
  have h : OnlyRegs s s₁ [(F.SDS_GRP_STAT_RCLK_OK, g), (F.SDS_GRP_CNT_RCLK_SQ, g)] := (OnlyRegs.refl s _).wr (.head _) _
  have hf : s₁.fcu = s.fcu := rfl
  split_ifs
  · have k := h.wr (.tail _ (.head _)) (satU F.SDS_GRP_CNT_RCLK_SQ.w (s₁.rd F.SDS_GRP_CNT_RCLK_SQ g + 1))
    refine ⟨⟨by rw [← condOn_eq, inc_eq, ← k.1], k.2.same (condOn_regs _ _ _)⟩,
      (kept_condOn (s₁.inc F.SDS_GRP_CNT_RCLK_SQ g) 104 g).occs, fun q => ?_⟩
    rw [condHolds_condOn_other (by decide)]
    rfl
  · exact ⟨⟨by rw [← h.1]; rfl, h.2.same rfl⟩, fun _ ho => ho, fun q => condHolds_condOff_other (by decide) g q⟩
  · exact ⟨⟨by rw [← h.1], h.2⟩, fun _ ho => ho, fun _ => rfl⟩

/-! ### A move -/

/-- The fields that follow the state of a port. -/
def followFlds : List Fld := [F.FRANK_CNT_DISC_COUNT, F.PTE_PORT_STAT_STATE0, F.PTE_PORT_STAT_STATE1, F.PTE_PORT_STAT_AS_CAPABLE,
  F.SDS_GRP_STAT_RCLK_OK, F.SDS_GRP_CNT_RCLK_SQ]

/-- As port `p` leaves UP, its admitted answers fall (R362). -/
def portLeft (s : State) (p : Nat) : State := if s.portState p = Port.up then s.dropAnswers (fun a => a.port == p) else s

/-- Port `p` is in state `st`, and its event tells it. -/
def portTold (s : State) (p st : Nat) : State := (s.wr F.MAC_STAT_STATE st p).eventNow 0x000A 0 [p + st * 256]

/-- The link of port `p` is up, or is not wanted: FS 96 ends. -/
def portCleared (s : State) (p st : Nat) : State := if st = Port.up ∨ st = Port.disabled then s.condOff 96 p else s

theorem movePort_self {st : Nat} (h : s.portState p = st) : s.movePort p st = s := if_pos h

theorem movePort_of_ne {st : Nat} (h : s.portState p ≠ st) : s.movePort p st =
    ((((s.portLeft p).portTold p st).portCleared p st).showPtpPort p).showRclk (p / 4) := if_neg h

/-- Dropped answers show in their count and their faults only. -/
theorem dropAnswers_facts (f : Answer → Bool) : EthOnly s (s.dropAnswers f) followFlds ∧ (s.dropAnswers f).eth = s.eth ∧
    FaultsKept s (s.dropAnswers f) := by
  unfold dropAnswers
  dsimp only
  have h : EthOnly s { s with frank := { s.frank with answers := s.frank.answers.filter (fun a => !f a) } } followFlds :=
    (EthOnly.refl s _).same rfl
  have hk : FaultsKept s { s with frank := { s.frank with answers := s.frank.answers.filter (fun a => !f a) } } := .of_fcu rfl
  have he : ({ s with frank := { s.frank with answers := s.frank.answers.filter (fun a => !f a) } } : State).eth = s.eth := rfl
  generalize { s with frank := { s.frank with answers := s.frank.answers.filter (fun a => !f a) } } = t at h hk he
  generalize s.frank.answers.filter f = l
  induction l generalizing t with
  | nil => exact ⟨h, he, hk⟩
  | cons a l ih =>
    exact ih ((t.inc F.FRANK_CNT_DISC_COUNT).raise 133) ((h.wr (.head _) _ 0).raise 133 0)
      ((hk.trans (.of_fcu rfl : FaultsKept t (t.inc F.FRANK_CNT_DISC_COUNT))).raise 133 0) he

theorem portLeft_facts : EthOnly s (s.portLeft p) followFlds ∧ (s.portLeft p).eth = s.eth ∧ FaultsKept s (s.portLeft p) := by
  unfold portLeft
  split
  · exact dropAnswers_facts _
  · exact ⟨.refl s _, rfl, .of_fcu rfl⟩

theorem portTold_facts (st : Nat) : EthOnly s (s.portTold p st) (F.MAC_STAT_STATE :: followFlds) ∧ (s.portTold p st).eth = s.eth ∧
    FaultsKept s (s.portTold p st) ∧
    ∀ q, (s.portTold p st).portState q = if q = p then st % 2 ^ F.MAC_STAT_STATE.w else s.portState q := by
  have h : Answered (s.wr F.MAC_STAT_STATE st p) (s.portTold p st) := .eventNow _ _ _ _
  refine ⟨((EthOnly.refl s _).wr (.head _) st p).answered h, by rw [← h.1]; rfl,
    (FaultsKept.of_fcu rfl : FaultsKept s (s.wr F.MAC_STAT_STATE st p)).trans (.eventNow _ _ _ _), fun q => ?_⟩
  rw [portState, h.rd (by decide) (by simp [answerFlds, F.MAC_STAT_STATE]; decide)]
  split
  · next e => rw [e, rd_wr_same]
  · next e => exact rd_wr_index s (by decide) e st

theorem portCleared_facts (st : Nat) : EthOnly s (s.portCleared p st) [] ∧ (s.portCleared p st).eth = s.eth ∧
    (∀ o ∈ s.fcu.occs, o ∈ (s.portCleared p st).fcu.occs) := by
  unfold portCleared
  split
  · exact ⟨(EthOnly.refl s _).condOff 96 p, rfl, fun _ ho => ho⟩
  · exact ⟨.refl s _, rfl, fun _ ho => ho⟩

/-- What follows a port's state keeps the faults of the link. -/
theorem portFollowed_facts (g : Nat) : EthOnly s ((s.showPtpPort p).showRclk g) followFlds ∧ ((s.showPtpPort p).showRclk g).eth = s.eth ∧
    (∀ o ∈ s.fcu.occs, o ∈ ((s.showPtpPort p).showRclk g).fcu.occs) ∧
    ∀ q, ((s.showPtpPort p).showRclk g).condHolds 96 q = s.condHolds 96 q := by
  have h := onlyRegs_showPtpPort (s := s) (p := p)
  obtain ⟨k, ho, hc⟩ := showRclk_facts (s := s.showPtpPort p) g
  refine ⟨((EthOnly.of_onlyRegs h).mono (by simp [ptpPortFlds, followFlds])).trans ((EthOnly.of_onlyRegsFcu k).mono (by simp [followFlds])),
    ?_, ?_, fun q => (hc q).trans (condHolds_of_fcu (by rw [← h.1]) 96 q)⟩
  · rw [← k.1]
    show (s.showPtpPort p).eth = s.eth
    rw [← h.1]
  · have e : (s.showPtpPort p).fcu = s.fcu := by rw [← h.1]
    rwa [e] at ho

/-- A port that moves shows it, and what follows its state does; nothing else changes, and no fault is lost. -/
theorem movePort_facts {st : Nat} (h : st < 16) : EthOnly s (s.movePort p st) (F.MAC_STAT_STATE :: followFlds) ∧
    (s.movePort p st).eth = s.eth ∧ (∀ o ∈ s.fcu.occs, o ∈ (s.movePort p st).fcu.occs) ∧
    ∀ q, (s.movePort p st).portState q = if q = p then st else s.portState q := by
  by_cases hs : s.portState p = st
  · rw [movePort_self hs]
    refine ⟨.refl s _, rfl, fun _ ho => ho, fun q => ?_⟩
    split
    · next e => rw [e, hs]
    · rfl
  · obtain ⟨h₁, e₁, f₁⟩ := portLeft_facts (s := s) (p := p)
    obtain ⟨h₂, e₂, f₂, hq⟩ := portTold_facts (s := s.portLeft p) (p := p) st
    obtain ⟨h₃, e₃, f₃⟩ := portCleared_facts (s := (s.portLeft p).portTold p st) (p := p) st
    obtain ⟨h₄, e₄, f₄, -⟩ := portFollowed_facts (s := ((s.portLeft p).portTold p st).portCleared p st) (p := p) (p / 4)
    have hf : followFlds ⊆ F.MAC_STAT_STATE :: followFlds := List.subset_cons_self _ _
    rw [movePort_of_ne hs]
    refine ⟨(h₁.mono hf).trans (h₂.trans ((h₃.mono (List.nil_subset _)).trans (h₄.mono hf))), e₄.trans (e₃.trans (e₂.trans e₁)),
      fun o ho => f₄ o (f₃ o (f₂.occs o (f₁.occs o ho))), fun q => ?_⟩
    rw [portState, h₄.rd rfl, h₃.rd rfl, ← portState, hq, portState, h₁.rd rfl, ← portState,
      show st % 2 ^ F.MAC_STAT_STATE.w = st from Nat.mod_eq_of_lt h]

theorem movePort_ends {st : Nat} (hs : s.portState p ≠ st) (h : st = Port.up ∨ st = Port.disabled) :
    (s.movePort p st).condHolds 96 p = false := by
  obtain ⟨-, -, -, hc⟩ := portFollowed_facts (s := ((s.portLeft p).portTold p st).portCleared p st) (p := p) (p / 4)
  rw [movePort_of_ne hs, hc, portCleared, if_pos h, condHolds_condOff]

theorem movePort_keeps {st : Nat} (h : ¬(st = Port.up ∨ st = Port.disabled)) (hc : s.condHolds 96 p = true) :
    (s.movePort p st).condHolds 96 p = true := by
  by_cases hs : s.portState p = st
  · rwa [movePort_self hs]
  · obtain ⟨-, -, f₁⟩ := portLeft_facts (s := s) (p := p)
    obtain ⟨-, -, f₂, -⟩ := portTold_facts (s := s.portLeft p) (p := p) st
    obtain ⟨-, -, -, h₄⟩ := portFollowed_facts (s := ((s.portLeft p).portTold p st).portCleared p st) (p := p) (p / 4)
    rw [movePort_of_ne hs, h₄, portCleared, if_neg h]
    exact condHolds_of_kept (f₁.trans f₂) hc

end State
end Sys2Proof.Machine

namespace Sys2Proof.Machine
namespace State
variable {s t : State} {p : Nat}

/-! ### Bring-up and start -/

/-- The state in which the bring-up of port `p` begins (Table ETH-3). -/
def firstState (s : State) (p : Nat) : Nat := if s.rd F.SDS_GRP_STAT_PMD_RES (p / 4) ≤ 1 then 1 else 3

theorem firstState_cases (s : State) (p : Nat) : s.firstState p = 1 ∨ s.firstState p = 3 := by
  unfold firstState
  split
  · exact .inl rfl
  · exact .inr rfl

theorem bringUp_facts : EthOnly s (s.bringUp p) (F.MAC_STAT_STATE :: followFlds) ∧ (s.bringUp p).eth = s.eth ∧
    (∀ o ∈ s.fcu.occs, o ∈ (s.bringUp p).fcu.occs) ∧ ∀ q, (s.bringUp p).portState q = if q = p then s.firstState p else s.portState q :=
  movePort_facts (show s.firstState p < 16 by cases firstState_cases s p <;> omega)

/-- A port may start: it is DISABLED, enabled and present, and its group runs (R250). -/
def MayStart (s : State) (p : Nat) : Prop :=
  s.portState p = Port.disabled ∧ s.on F.MAC_CTL_EN p ∧ s.grpState (p / 4) = Grp.running ∧ !s.portAbsent p

theorem portStart_of_mayStart (h : s.MayStart p) :
    s.portStart p = (s.wr F.MAC_STAT_RATE (s.rd F.SDS_GRP_STAT_MODE_RES (p / 4)) p).bringUp p := if_pos h

theorem portStart_of_not (h : ¬s.MayStart p) : s.portStart p = s := if_neg h

/-- The fields of a port that starts. -/
def portStartFlds : List Fld := F.MAC_STAT_RATE :: F.MAC_STAT_STATE :: followFlds

/-- A port that may start begins bring-up at the rate of its group. -/
theorem portStart_starts (h : s.MayStart p) : (s.portStart p).portState p = s.firstState p ∧
    (s.portStart p).rd F.MAC_STAT_RATE p = s.rd F.SDS_GRP_STAT_MODE_RES (p / 4) % 4 := by
  obtain ⟨h₁, -, -, h₂⟩ := bringUp_facts (s := s.wr F.MAC_STAT_RATE (s.rd F.SDS_GRP_STAT_MODE_RES (p / 4)) p) (p := p)
  rw [portStart_of_mayStart h]
  refine ⟨(h₂ p).trans ((if_pos rfl).trans ?_), (h₁.rd rfl p).trans (rd_wr_same s _ _ p)⟩
  rw [firstState, firstState, rd_wr_other _ (by decide) (by decide) (by decide)]

/-- A start shows in the fields of its port; nothing else changes, and no port that is not DISABLED moves. -/
theorem portStart_facts : EthOnly s (s.portStart p) portStartFlds ∧ (s.portStart p).eth = s.eth ∧
    (∀ o ∈ s.fcu.occs, o ∈ (s.portStart p).fcu.occs) ∧
    ∀ q, s.portState q ≠ 0 ∨ q ≠ p → (s.portStart p).portState q = s.portState q ∧
      (s.portStart p).rd F.MAC_STAT_RATE q = s.rd F.MAC_STAT_RATE q := by
  by_cases h : s.MayStart p
  · obtain ⟨h₁, h₂, h₃, h₄⟩ := bringUp_facts (s := s.wr F.MAC_STAT_RATE (s.rd F.SDS_GRP_STAT_MODE_RES (p / 4)) p) (p := p)
    rw [portStart_of_mayStart h]
    refine ⟨((EthOnly.refl s _).wr (.head _) _ p).trans (h₁.mono (List.subset_cons_self _ _)), h₂, h₃, fun q hq => ?_⟩
    have hne : q ≠ p := hq.elim (fun hs e => hs (e ▸ h.1)) id
    refine ⟨(h₄ q).trans ((if_neg hne).trans (rd_wr_other s (by decide) (by decide) (by decide) _ p q)), ?_⟩
    exact (h₁.rd rfl q).trans (rd_wr_index s (by decide) hne _)
  · rw [portStart_of_not h]
    exact ⟨.refl s _, rfl, fun _ ho => ho, fun _ _ => ⟨rfl, rfl⟩⟩

/-- The first `k` ports of group `g` start that may. -/
def startFirst (s : State) (g k : Nat) : State := forN k s (fun s i => s.portStart (4 * g + i))

theorem startPorts_eq (g : Nat) : s.startPorts g = s.startFirst g 4 := rfl

/-- The ports of a group that start show it in their own fields; one that is not DISABLED stays as it is. -/
theorem startFirst_facts (g k : Nat) : EthOnly s (s.startFirst g k) portStartFlds ∧ (s.startFirst g k).eth = s.eth ∧
    (∀ o ∈ s.fcu.occs, o ∈ (s.startFirst g k).fcu.occs) ∧
    ∀ q, s.portState q ≠ 0 → (s.startFirst g k).portState q = s.portState q ∧
      (s.startFirst g k).rd F.MAC_STAT_RATE q = s.rd F.MAC_STAT_RATE q := by
  induction k with
  | zero => exact ⟨.refl s _, rfl, fun _ ho => ho, fun _ _ => ⟨rfl, rfl⟩⟩
  | succ k ih =>
    obtain ⟨h₁, h₂, h₃, h₄⟩ := ih
    obtain ⟨k₁, k₂, k₃, k₄⟩ := portStart_facts (s := s.startFirst g k) (p := 4 * g + k)
    rw [startFirst, forN_succ, ← startFirst]
    refine ⟨h₁.trans k₁, k₂.trans h₂, fun o ho => k₃ o (h₃ o ho), fun q hq => ?_⟩
    obtain ⟨hs, hr⟩ := h₄ q hq
    obtain ⟨ks, kr⟩ := k₄ q (.inl (hs ▸ hq))
    exact ⟨ks.trans hs, kr.trans hr⟩

/-! ### Stop -/

/-- The fields that show the pauses of a port. -/
def pausedFlds : List Fld := [F.MAC_STAT_PAUSED, F.MAC_STAT_PFC_PAUSED]

/-- The fields in which the loss of a lane's lock shows. -/
def laneLostFlds : List Fld := [F.SDS_LN_STAT_CDR_LOCK, F.SDS_LN_STAT_BLOCK_LOCK, F.SDS_LN_STAT_TRAINED]

/-- The status of a lane clears as the link is lost. -/
def dropLane (s : State) (l : Nat) : State :=
  ((s.wr F.SDS_LN_STAT_CDR_LOCK 0 l).wr F.SDS_LN_STAT_BLOCK_LOCK 0 l).wr F.SDS_LN_STAT_TRAINED 0 l

theorem dropLanes_eq (ls : List Nat) : s.dropLanes ls = ls.foldl dropLane s := rfl

theorem ethOnly_dropLane (l : Nat) : EthOnly s (s.dropLane l) laneLostFlds :=
  (((EthOnly.refl s _).wr (.head _) 0 l).wr (.tail _ (.head _)) 0 l).wr (.tail _ (.tail _ (.head _))) 0 l

/-- Where each lane of a list is given the value `v` in a field, that is what every one of them reads in the end. -/
theorem rd_foldl_lanes {step : State → Nat → State} {f : Fld} {v : Nat} (hs : ∀ t l, (step t l).rd f l = v)
    (ho : ∀ t l k, k ≠ l → (step t l).rd f k = t.rd f k) (ls : List Nat) (s : State) (k : Nat) :
    (ls.foldl step s).rd f k = if k ∈ ls then v else s.rd f k := by
  induction ls generalizing s with
  | nil => rfl
  | cons l ls ih =>
    rw [List.foldl_cons, ih]
    by_cases hk : k = l
    · rw [hk, hs]
      simp
    · rw [ho s l k hk]
      simp [hk]

/-- The lanes that are dropped change in registers only, and none of them is locked. -/
theorem dropLanes_facts (ls : List Nat) : EthOnly s (s.dropLanes ls) laneLostFlds ∧ (s.dropLanes ls).eth = s.eth ∧
    (s.dropLanes ls).fcu = s.fcu ∧ ∀ l ∈ ls, (s.dropLanes ls).on F.SDS_LN_STAT_CDR_LOCK l = false := by
  have hr : { s with regs := (s.dropLanes ls).regs } = s.dropLanes ls := by
    rw [dropLanes_eq]
    induction ls generalizing s with
    | nil => rfl
    | cons l ls ih => exact ih (s := s.dropLane l)
  refine ⟨.foldl (fun t l => ethOnly_dropLane l) ls s, by rw [← hr], by rw [← hr], fun l hl => on_of_rd (v := 0) ?_⟩
  rw [dropLanes_eq, rd_foldl_lanes (v := 0) _ _ ls s l, if_pos hl]
  · intro t l
    simp (disch := decide) [dropLane, rd_wr_other]
  · intro t l k hk
    simp (disch := decide) [dropLane, rd_wr_other]
    exact rd_wr_index t (by decide) hk 0

/-- The pauses of a port that end show, and nothing else changes. -/
theorem clearPause_facts : EthOnly s (s.clearPause p) pausedFlds ∧ (s.clearPause p).fcu = s.fcu ∧
    (s.clearPause p).on F.MAC_STAT_PAUSED p = false ∧ (p < s.eth.port.length → ((s.clearPause p).prt p).pause = none) := by
  refine ⟨?_, rfl, on_of_rd (v := 0) ?_, fun h => ?_⟩
  · exact (((EthOnly.refl s _).setPrt p _).wr (.head _) 0 p).wr (.tail _ (.head _)) 0 p
  · exact (rd_wr_other _ (by decide) (by decide) (by decide) 0 p p).trans (rd_wr_same _ _ 0 p)
  · exact congrArg PortSt.pause (prt_setPrt h { s.prt p with pause := none, pfc := List.replicate 8 none })

/-- The fields of a port that stops. -/
def portStopFlds : List Fld := F.MAC_STAT_STATE :: followFlds ++ (pausedFlds ++ laneLostFlds)

/-- A port that does not stand still stops (Table ETH-3). -/
theorem portStop_facts : EthOnly s (s.portStop p) portStopFlds ∧
    (∀ q, (s.portStop p).portState q = if q = p ∧ s.portState p ≠ 0 then 7 else s.portState q) := by
  unfold portStop
  dsimp only
  split
  · next h =>
    refine ⟨.refl s _, fun q => ?_⟩
    split
    · next hq => rw [hq.1]; exact h.resolve_left hq.2
    · rfl
  · next h =>
    obtain ⟨hc, -, -, -⟩ := clearPause_facts (s := s) (p := p)
    obtain ⟨hd, -, -, -⟩ := dropLanes_facts (s := s.clearPause p) (s.portLanes p)
    have h₁ := (hc.mono (List.subset_append_left _ _)).trans (hd.mono (List.subset_append_right pausedFlds _))
    obtain ⟨hm, -, -, hq⟩ := movePort_facts (s := (s.clearPause p).dropLanes (s.portLanes p)) (p := p) (st := Port.stopping) (by decide)
    refine ⟨(h₁.mono (List.subset_append_right _ _)).trans (hm.mono (List.subset_append_left _ _)), fun q => ?_⟩
    have hz : s.portState p ≠ 0 := fun e => h (.inl e)
    rw [hq, portState, h₁.rd rfl, ← portState]
    simp only [hz, and_true, ne_eq, not_false_eq_true]
    rfl

/-- A port that stops keeps no pause. -/
theorem portStop_pause (h : s.portState p = 4) (hp : p < s.eth.port.length) :
    ((s.portStop p).prt p).pause = none ∧ (s.portStop p).on F.MAC_STAT_PAUSED p = false := by
  obtain ⟨-, -, hon, hpause⟩ := clearPause_facts (s := s) (p := p)
  obtain ⟨hd, he, -, -⟩ := dropLanes_facts (s := s.clearPause p) (s.portLanes p)
  obtain ⟨hm, hme, -, -⟩ := movePort_facts (s := (s.clearPause p).dropLanes (s.portLanes p)) (p := p) (st := Port.stopping) (by decide)
  rw [portStop, if_neg (by rw [h]; decide)]
  exact ⟨by rw [prt_of_eth hme, prt_of_eth he]; exact hpause hp, (hm.on rfl p).trans ((hd.on rfl p).trans hon)⟩

end State
end Sys2Proof.Machine

/-! ## Port groups (R251, R254, R274) -/

namespace Sys2Proof.Machine

theorem EthOnly.cond {s u : State} {fs : List Fld} (h : EthOnly s u fs) (n : Nat) (b : Bool) (k : Nat) : EthOnly s (u.cond n b k) fs := by
  cases b
  · exact h.condOff n k
  · exact h.condOn n k

namespace State
variable {s : State} {p g : Nat}

/-! ### Ports that have stopped -/

/-- The fields of a port that has stopped. -/
def portStoppedFlds : List Fld := F.MAC_STAT_PENDING_ENABLE :: portStartFlds

theorem portStopped_of_ne (h : s.portState p ≠ 7) : s.portStopped p = s := if_pos h

theorem portStopped_of_stopping (h : s.portState p = 7) :
    s.portStopped p = ((s.movePort p Port.disabled).wr F.MAC_STAT_PENDING_ENABLE 0 p).portStart p := if_neg (fun k => k h)

/-- A port that has stopped is DISABLED, and no start of it is pending. -/
theorem disabled_facts : EthOnly s ((s.movePort p Port.disabled).wr F.MAC_STAT_PENDING_ENABLE 0 p) portStoppedFlds ∧
    ((s.movePort p Port.disabled).wr F.MAC_STAT_PENDING_ENABLE 0 p).on F.MAC_STAT_PENDING_ENABLE p = false ∧
    ∀ q, ((s.movePort p Port.disabled).wr F.MAC_STAT_PENDING_ENABLE 0 p).portState q = if q = p then 0 else s.portState q := by
  obtain ⟨h, -, -, hq⟩ := movePort_facts (s := s) (p := p) (st := Port.disabled) (by decide)
  refine ⟨(h.mono ?_).wr (.head _) 0 p, on_of_rd (v := 0) (rd_wr_same _ _ 0 p), fun q => ?_⟩
  · exact fun _ hf => .tail _ (.tail _ hf)
  · exact (rd_wr_other _ (by decide) (by decide) (by decide) 0 p q).trans (hq q)

theorem portStopped_facts : EthOnly s (s.portStopped p) portStoppedFlds ∧ (s.portStopped p).portState p ≠ 7 ∧
    ∀ q, q ≠ p → (s.portStopped p).portState q = s.portState q := by
  by_cases h : s.portState p = 7
  · obtain ⟨h₁, -, h₂⟩ := disabled_facts (s := s) (p := p)
    rw [portStopped_of_stopping h]
    generalize (s.movePort p Port.disabled).wr F.MAC_STAT_PENDING_ENABLE 0 p = t at h₁ h₂
    obtain ⟨k₁, -, -, k₂⟩ := portStart_facts (s := t) (p := p)
    refine ⟨h₁.trans (k₁.mono (List.subset_cons_self _ _)), ?_, fun q hq => ?_⟩
    · by_cases hm : t.MayStart p
      · rw [(portStart_starts hm).1]
        cases t.firstState_cases p <;> omega
      · rw [portStart_of_not hm, h₂, if_pos rfl]
        decide
    · rw [(k₂ q (.inr hq)).1, h₂, if_neg hq]
  · rw [portStopped_of_ne h]
    exact ⟨.refl s _, h, fun _ _ => rfl⟩

/-- The first `k` ports of group `g` stop. -/
def stopFirst (s : State) (g k : Nat) : State := forN k s (fun s i => s.portStop (4 * g + i))

theorem stopFirst_facts (k : Nat) : EthOnly s (s.stopFirst g k) portStopFlds ∧
    ∀ i, (s.stopFirst g k).portState (4 * g + i) = if i < k ∧ s.portState (4 * g + i) ≠ 0 then 7 else s.portState (4 * g + i) := by
  induction k with
  | zero => exact ⟨.refl s _, fun i => (if_neg (fun h => Nat.not_lt_zero i h.1)).symm⟩
  | succ k ih =>
    obtain ⟨h₁, h₂⟩ := ih
    obtain ⟨k₁, k₂⟩ := portStop_facts (s := s.stopFirst g k) (p := 4 * g + k)
    rw [stopFirst, forN_succ, ← stopFirst]
    refine ⟨h₁.trans k₁, fun i => ?_⟩
    rw [k₂, h₂, h₂]
    by_cases hi : i = k
    · simp [hi]
    · have : (i < k + 1) = (i < k) := by
        refine propext ⟨fun h => ?_, fun h => ?_⟩ <;> omega
      simp [hi, this]

/-- The first `k` ports of group `g` have stopped. -/
def stoppedFirst (s : State) (g k : Nat) : State := forN k s (fun s i => s.portStopped (4 * g + i))

theorem stoppedFirst_facts (k : Nat) : EthOnly s (s.stoppedFirst g k) portStoppedFlds ∧
    ∀ i, i < k → (s.stoppedFirst g k).portState (4 * g + i) ≠ 7 := by
  induction k with
  | zero => exact ⟨.refl s _, fun i h => absurd h (Nat.not_lt_zero i)⟩
  | succ k ih =>
    obtain ⟨h₁, h₂⟩ := ih
    obtain ⟨k₁, k₂, k₃⟩ := portStopped_facts (s := s.stoppedFirst g k) (p := 4 * g + k)
    rw [stoppedFirst, forN_succ, ← stoppedFirst]
    refine ⟨h₁.trans k₁, fun i hi => ?_⟩
    by_cases he : i = k
    · rwa [he]
    · rw [k₃ _ (by omega)]
      exact h₂ i (by omega)

/-! ### The start of a group -/

/-- The fields of a group that starts. -/
def grpStartFlds : List Fld := [F.SDS_GRP_STAT_PMD_RES, F.SDS_GRP_STAT_MODE_RES, F.SDS_GRP_STAT_FEC_RES, F.SDS_GRP_STAT_TX_REF_ACT,
  F.SDS_GRP_STAT_STATE] ++ portStartFlds

theorem grpStart_islandOff (h : s.islandOn (1 + g) = false) : s.grpStart g = (s.wr F.SDS_GRP_CTL_EN 0 g).raise 221 (1 + g) := by
  rw [grpStart, h]
  rfl

/-- A group that runs starts its ports; its state shows it. -/
theorem running_facts : EthOnly s ((s.wr F.SDS_GRP_STAT_STATE Grp.running g).startPorts g) grpStartFlds ∧
    ((s.wr F.SDS_GRP_STAT_STATE Grp.running g).startPorts g).grpState g = 2 := by
  obtain ⟨h, -, -, -⟩ := startFirst_facts (s := s.wr F.SDS_GRP_STAT_STATE Grp.running g) g 4
  rw [startPorts_eq]
  exact ⟨((EthOnly.refl s _).wr (by simp [grpStartFlds]) _ g).trans (h.mono (List.subset_append_right _ _)),
    (h.rd rfl g).trans (rd_wr_same s _ _ g)⟩

/-- A group that passes its check runs, or waits for its module (R251). -/
theorem grpStart_passes (hi : s.islandOn (1 + g) = true) (hc : s.grpCheck g = true) : EthOnly s (s.grpStart g) grpStartFlds ∧
    (s.grpStart g).grpState g = if s.rd F.SDS_GRP_CTL_PMD g = 2 ∧ s.rd F.SDS_GRP_CTL_FEC g = 3 then 1 else 2 := by
  unfold grpStart
  rw [hi, hc, if_neg (by decide), if_neg (by decide)]
  extract_lets mode pmd fec s₁ s₂ s₃ t byp s₄
  have h : EthOnly s s₄ grpStartFlds :=
    (((((EthOnly.refl s _).wr (by simp [grpStartFlds]) _ g).wr (by simp [grpStartFlds]) _ g).wr (by simp [grpStartFlds]) _ g).wr
      (g := F.SDS_GRP_STAT_TX_REF_ACT) (by simp [grpStartFlds]) byp.toNat g).cond 105 byp g
  split
  · exact ⟨h.wr (by simp [grpStartFlds]) _ g, rd_wr_same s₄ _ _ g⟩
  · exact ⟨h.trans running_facts.1, running_facts.2⟩

end State
end Sys2Proof.Machine

/-! ## Starting, stopping, dozing and waking (R250, R251, R254, R276, R277, R280) -/

namespace Sys2Proof.Machine

theorem exec_groupEnable (req g w : Nat) (s : State) : exec (.groupEnable req g w) s = execGroupEnable req g w s := rfl
theorem exec_groupDisable (req g w : Nat) (s : State) : exec (.groupDisable req g w) s = execGroupDisable req g w s := rfl
theorem exec_portStopDone (grp : Bool) (n : Nat) (s : State) : exec (.portStopDone grp n) s = execPortStopDone grp n s := rfl
theorem exec_moduleIdent (g mode fec : Nat) (s : State) : exec (.moduleIdent g mode fec) s = execModuleIdent g mode fec s := rfl
theorem exec_portEnable (req p w : Nat) (s : State) : exec (.portEnable req p w) s = execPortEnable req p w s := rfl
theorem exec_portDisable (req p w : Nat) (s : State) : exec (.portDisable req p w) s = execPortDisable req p w s := rfl
theorem exec_dozeEnter (req p w : Nat) (s : State) : exec (.dozeEnter req p w) s = execDozeEnter req p w s := rfl
theorem exec_dozeEntryDone (p : Nat) (s : State) : exec (.dozeEntryDone p) s = execDozeEntryDone p s := rfl
theorem exec_portWake (req p cause w : Nat) (s : State) : exec (.portWake req p cause w) s = execPortWake req p cause w s := rfl

namespace State
variable {s : State} {g p : Nat}

/-! ### The enable of a group -/

/-- The fields of SDS_GRP_CTL, EN last. -/
def grpCtlFlds : List Fld := [F.SDS_GRP_CTL_FEC, F.SDS_GRP_CTL_PMD, F.SDS_GRP_CTL_TX_REF, F.SDS_GRP_CTL_OOS, F.SDS_GRP_CTL_RCLK_LANE,
  F.SDS_GRP_CTL_RCLK_DIV, F.SDS_GRP_CTL_LB_TXON, F.SDS_GRP_CTL_LB, F.SDS_GRP_CTL_MODE, F.SDS_GRP_CTL_EN]

/-- What the fields of SDS_GRP_CTL[g] take of a write of `w`, and the rules that it breaks (R280). -/
def grpCtlFields (s : State) (g w : Nat) : State × List Nat :=
  s.fieldWrite (fun f => ((s.on F.SDS_GRP_CTL_EN g || s.grpState g == Grp.stopping) && f.no != F.SDS_GRP_CTL_EN.no) ||
    (s.on F.SDS_GRP_CTL_OOS g && f.no != F.SDS_GRP_CTL_OOS.no) || s.testing (0x40 + g)) inRange grpCtlFlds g w

/-- What follows when EN of group `g` has been written, EN having been `was` (R251, R254). -/
def followGrpEn (s : State) (was : Bool) (g : Nat) : State :=
  if s.on F.SDS_GRP_CTL_EN g && !was then
    (if s.grpState g = Grp.stopping then s.wr F.SDS_GRP_STAT_PENDING_ENABLE 1 g else s.grpStart g)
  else if was && !s.on F.SDS_GRP_CTL_EN g then
    if s.grpState g = Grp.stopping then s.wr F.SDS_GRP_STAT_PENDING_ENABLE 0 g
    else (s.stopFirst g 4).wr F.SDS_GRP_STAT_STATE Grp.stopping g
  else if s.grpState g = Grp.disabled ∨ s.grpState g = Grp.oos then s.grpIdle g
  else s

theorem grpCtlWrite_eq (a : Acs) (w : Nat) : s.grpCtlWrite a g w =
    ((s.grpCtlFields g w).1.followGrpEn (s.on F.SDS_GRP_CTL_EN g) g).conclude a (s.grpCtlFields g w).2 := rfl

theorem onlyRegs_grpCtlFields (w : Nat) : OnlyRegs s (s.grpCtlFields g w).1 (grpCtlFlds.map (·, g)) := onlyRegs_fieldWrite _ _ _ g w

theorem on_en_grpCtlFields (ho : s.on F.SDS_GRP_CTL_OOS g = false) (ht : s.testing (0x40 + g) = false) (w : Nat) (b : Bool) :
    (s.grpCtlFields g (setBit w 0 b)).1.on F.SDS_GRP_CTL_EN g = b :=
  on_fieldWrite_setBit_zero rfl ⟨rfl, rfl⟩ (by rw [bne_self_eq_false, Bool.and_false, ho, ht]; rfl) (fun _ => rfl) grpCtlFlds.dropLast g w b

/-- No field of SDS_GRP_CTL is locked while its group is DISABLED and not under test. -/
theorem grpCtlFields_open (he : s.on F.SDS_GRP_CTL_EN g = false) (ho : s.on F.SDS_GRP_CTL_OOS g = false) (hs : s.grpState g = 0)
    (ht : s.testing (0x40 + g) = false) (w : Nat) : s.grpCtlFields g w = s.fieldWrite noLock inRange grpCtlFlds g w := by
  rw [grpCtlFields, he, ho, hs, ht]
  rfl

theorem followGrpEn_starts (he : s.on F.SDS_GRP_CTL_EN g = true) (hs : s.grpState g = 0) : s.followGrpEn false g = s.grpStart g := by
  rw [followGrpEn, he, if_pos (show (true && !false) = true from rfl), if_neg (by rw [hs]; decide)]

theorem followGrpEn_stops (he : s.on F.SDS_GRP_CTL_EN g = false) (hs : s.grpState g = 2) :
    s.followGrpEn true g = (s.stopFirst g 4).wr F.SDS_GRP_STAT_STATE Grp.stopping g := by
  rw [followGrpEn, he, if_neg (by decide), if_pos (show (true && !false) = true from rfl), if_neg (by rw [hs]; decide)]

/-- The end of an access shows in the fields of refused accesses only. -/
theorem ethOnly_conclude (a : Acs) (codes : List Nat) : EthOnly s (s.conclude a codes).1 (accFlds.map Prod.fst) :=
  .of_onlyRegsFcu (onlyRegsFcu_conclude a codes)

end State

section
variable {s : State} {req g : Nat} (ha : Admitted s req) (hg : g < 8) (ho : s.on F.SDS_GRP_CTL_OOS g = false)
  (ht : s.testing (0x40 + g) = false)
include ha hg ho ht

section
variable (he : s.on F.SDS_GRP_CTL_EN g = false) (hs : s.grpState g = 0)
include he hs

/-- An enable of a DISABLED group takes the word, starts the group and concludes. -/
theorem execGroupEnable_starts (w : Nat) : execGroupEnable req g w s = done
    ((s.grpCtlFields g (setBit w 0 true)).1.grpStart g |>.conclude ⟨req, 0x17000 + 0x40 * g, 2, true⟩
      (s.grpCtlFields g (setBit w 0 true)).2).1 := by
  have h := State.onlyRegs_grpCtlFields (s := s) (g := g) (setBit w 0 true)
  rw [execGroupEnable, if_neg (by omega), State.put_admitted ha, State.grpCtlWrite_eq, he,
    State.followGrpEn_starts (State.on_en_grpCtlFields ho ht w true) ((h.2.rd rfl g).trans hs)]

theorem groupEnable_passes_settles (w : Nat) (hi : s.islandOn (1 + g) = true)
    (hc : ((s.fieldWrite noLock inRange State.grpCtlFlds g (setBit w 0 true)).1).grpCheck g = true) : Settles (.groupEnable req g w) s (fun u =>
      u.on F.SDS_GRP_CTL_EN g = true ∧ u.grpState g = (if u.rd F.SDS_GRP_CTL_PMD g = 2 ∧ u.rd F.SDS_GRP_CTL_FEC g = 3 then 1 else 2) ∧
      u.mem = s.mem ∧ u.ridge = s.ridge) := by
  have hx := execGroupEnable_starts ha hg ho ht he hs w
  rw [← State.grpCtlFields_open he ho hs ht] at hc
  have h := State.onlyRegs_grpCtlFields (s := s) (g := g) (setBit w 0 true)
  have hen := State.on_en_grpCtlFields (s := s) ho ht w true
  generalize s.grpCtlFields g (setBit w 0 true) = r at hx hc h hen
  obtain ⟨k, hst⟩ := State.grpStart_passes ((congrArg (· == 2) (h.2.rd rfl (1 + g))).trans hi) hc
  have hl := State.ethOnly_conclude (s := r.1.grpStart g) ⟨req, 0x17000 + 0x40 * g, 2, true⟩ r.2
  refine ⟨_, (exec_groupEnable req g w s).trans hx, (hl.on rfl g).trans ((k.on rfl g).trans hen), ?_,
    hl.mem.trans (k.mem.trans h.mem), hl.ridge.trans (k.ridge.trans h.ridge)⟩
  rw [hl.rd rfl, hl.rd rfl, k.rd rfl, k.rd rfl]
  exact (hl.rd rfl g).trans hst

theorem groupEnable_islandOff_settles (w : Nat) (hi : s.islandOn (1 + g) = false) : Settles (.groupEnable req g w) s (fun u =>
    u.on F.SDS_GRP_CTL_EN g = false ∧ u.grpState g = 0 ∧ u.staged 221 (1 + g) ∧ u.mem = s.mem ∧ u.ridge = s.ridge) := by
  have hx := execGroupEnable_starts ha hg ho ht he hs w
  have h := State.onlyRegs_grpCtlFields (s := s) (g := g) (setBit w 0 true)
  generalize s.grpCtlFields g (setBit w 0 true) = r at hx h
  rw [State.grpStart_islandOff ((congrArg (· == 2) (h.2.rd rfl (1 + g))).trans hi)] at hx
  have hl := State.ethOnly_conclude (s := (r.1.wr F.SDS_GRP_CTL_EN 0 g).raise 221 (1 + g)) ⟨req, 0x17000 + 0x40 * g, 2, true⟩ r.2
  refine ⟨_, (exec_groupEnable req g w s).trans hx, ?_, ?_, ?_, hl.mem.trans h.mem, hl.ridge.trans h.ridge⟩
  · exact (hl.on rfl g).trans (State.on_of_rd (State.rd_wr_same r.1 F.SDS_GRP_CTL_EN 0 g))
  · exact (hl.rd rfl g).trans ((State.rd_wr_other r.1 (f := F.SDS_GRP_CTL_EN) (by decide) (by decide) (by decide) 0 g g).trans
      ((h.2.rd rfl g).trans hs))
  · exact State.occs_conclude _ _ _ (List.mem_append_right _ (.head _))

end

theorem groupDisable_settles (he : s.on F.SDS_GRP_CTL_EN g = true) (hs : s.grpState g = 2) (w : Nat) : Settles (.groupDisable req g w) s (fun u =>
    u.on F.SDS_GRP_CTL_EN g = false ∧ u.grpState g = 4 ∧
    (∀ i, i < 4 → u.portState (4 * g + i) = (if s.portState (4 * g + i) = 0 then 0 else 7)) ∧ u.mem = s.mem ∧ u.ridge = s.ridge) := by
  have h := State.onlyRegs_grpCtlFields (s := s) (g := g) (setBit w 0 false)
  have hen := State.on_en_grpCtlFields (s := s) ho ht w false
  have hx : execGroupDisable req g w s = done (s.grpCtlWrite ⟨req, 0x17000 + 0x40 * g, 2, true⟩ g (setBit w 0 false)).1 := by
    rw [execGroupDisable, if_neg (by omega), State.put_admitted ha]
  rw [State.grpCtlWrite_eq, he, State.followGrpEn_stops hen ((h.2.rd rfl g).trans hs)] at hx
  generalize s.grpCtlFields g (setBit w 0 false) = r at hx h hen
  obtain ⟨k, hp⟩ := State.stopFirst_facts (s := r.1) (g := g) 4
  have k' : EthOnly r.1 ((r.1.stopFirst g 4).wr F.SDS_GRP_STAT_STATE Grp.stopping g) (F.SDS_GRP_STAT_STATE :: State.portStopFlds) :=
    (k.mono (List.subset_cons_self _ _)).wr (.head _) _ g
  have hl := State.ethOnly_conclude (s := (r.1.stopFirst g 4).wr F.SDS_GRP_STAT_STATE Grp.stopping g) ⟨req, 0x17000 + 0x40 * g, 2, true⟩ r.2
  refine ⟨_, (exec_groupDisable req g w s).trans hx, (hl.on rfl g).trans ((k'.on rfl g).trans hen),
    (hl.rd rfl g).trans (State.rd_wr_same _ _ _ g), fun i hi => ?_, hl.mem.trans (k'.mem.trans h.mem), hl.ridge.trans (k'.ridge.trans h.ridge)⟩
  rw [State.portState, hl.rd rfl, State.rd_wr_other _ (by decide) (by decide) (by decide), ← State.portState, hp, State.portState, h.2.rd rfl,
    ← State.portState]
  by_cases hz : s.portState (4 * g + i) = 0 <;> simp [hz, hi]

end
end Sys2Proof.Machine

namespace Sys2Proof.Machine

/-! ### The end of a stop, and a module's report -/

theorem portStopDone_port_settles {s : State} {p : Nat} (hp : p < 32) (hs : s.portState p = 7) (he : s.on F.MAC_CTL_EN p = false) :
    Settles (.portStopDone false p) s (fun u => u.portState p = 0 ∧ u.on F.MAC_STAT_PENDING_ENABLE p = false ∧
      u.condHolds 96 p = false ∧ u.mem = s.mem ∧ u.ridge = s.ridge) := by
  obtain ⟨h, hpe, hq⟩ := State.disabled_facts (s := s) (p := p)
  have hm : ¬((s.movePort p Port.disabled).wr F.MAC_STAT_PENDING_ENABLE 0 p).MayStart p := fun ⟨_, hen, _⟩ => by
    rw [h.on rfl, he] at hen
    exact absurd hen (by decide)
  have hx : execPortStopDone false p s = done ((s.movePort p Port.disabled).wr F.MAC_STAT_PENDING_ENABLE 0 p) := by
    rw [execPortStopDone, if_neg (by decide), if_pos hp, State.portStopped_of_stopping hs, State.portStart_of_not hm]
  exact ⟨_, (exec_portStopDone false p s).trans hx, (hq p).trans (if_pos rfl), hpe,
    State.movePort_ends (by rw [hs]; decide) (.inr rfl), h.mem, h.ridge⟩

theorem State.grpStopped_eq {s : State} {g : Nat} (h : s.grpState g = 4) : s.grpStopped g =
    if ((s.stoppedFirst g 4).grpIdle g).on F.SDS_GRP_STAT_PENDING_ENABLE g then
      (((s.stoppedFirst g 4).grpIdle g).wr F.SDS_GRP_STAT_PENDING_ENABLE 0 g).grpStart g
    else (s.stoppedFirst g 4).grpIdle g := if_neg (fun k => k h)

section
variable {s : State} {g : Nat} (hg : g < 8)
include hg

theorem portStopDone_group_settles (hs : s.grpState g = 4) (hn : s.on F.SDS_GRP_STAT_PENDING_ENABLE g = false) :
    Settles (.portStopDone true g) s (fun u => u.grpState g = (if s.on F.SDS_GRP_CTL_OOS g then 3 else 0) ∧
      (∀ i, i < 4 → u.portState (4 * g + i) ≠ 7) ∧ u.mem = s.mem ∧ u.ridge = s.ridge) := by
  obtain ⟨h, hp⟩ := State.stoppedFirst_facts (s := s) (g := g) 4
  have hx : execPortStopDone true g s = done (s.grpStopped g) := by rw [execPortStopDone, if_pos rfl, if_pos hg]
  rw [State.grpStopped_eq hs] at hx
  generalize s.stoppedFirst g 4 = t at h hp hx
  rw [State.grpIdle, if_neg (by
    rw [State.on, State.rd_wr_other _ (by decide) (by decide) (by decide), ← State.on, h.on rfl, hn]; decide)] at hx
  refine ⟨_, (exec_portStopDone true g s).trans hx, ?_, fun i hi => ?_, h.mem, h.ridge⟩
  · rw [State.grpState, State.rd_wr_same, h.on rfl]
    cases s.on F.SDS_GRP_CTL_OOS g <;> rfl
  · rw [State.portState, State.rd_wr_other _ (by decide) (by decide) (by decide)]
    exact hp i hi

section
variable {mode fec : Nat} (hs : s.grpState g = 1)
include hs

theorem moduleIdent_resolves_settles (hm : s.rd F.SDS_GRP_CTL_MODE g = 4) (hlt : mode < 4) : Settles (.moduleIdent g mode fec) s (fun u =>
    u.grpState g = 2 ∧ u.rd F.SDS_GRP_STAT_MODE_RES g = mode ∧ u.rd F.SDS_GRP_STAT_FEC_RES g = min fec 2 ∧
    u.on F.SDS_GRP_STAT_MOD_PRESENT g = true ∧ u.mem = s.mem ∧ u.ridge = s.ridge) := by
  obtain ⟨t, ht⟩ : ∃ t, ((s.wr F.SDS_GRP_STAT_MOD_PRESENT 1 g).wr F.SDS_GRP_STAT_MODE_RES mode g).wr F.SDS_GRP_STAT_FEC_RES (min fec 2) g = t :=
    ⟨_, rfl⟩
  have hs' : (s.wr F.SDS_GRP_STAT_MOD_PRESENT 1 g).grpState g = 1 :=
    (State.rd_wr_other s (by decide) (by decide) (by decide) 1 g g).trans hs
  have hm' : (s.wr F.SDS_GRP_STAT_MOD_PRESENT 1 g).rd F.SDS_GRP_CTL_MODE g = 4 :=
    (State.rd_wr_other s (by decide) (by decide) (by decide) 1 g g).trans hm
  have hx : execModuleIdent g mode fec s = done ((t.wr F.SDS_GRP_STAT_STATE Grp.running g).startPorts g) := by
    rw [execModuleIdent, if_neg (by omega)]
    dsimp only
    rw [if_neg (by rw [hs']; decide), if_neg (by omega), hm', if_pos rfl, ht]
  have hmode : t.rd F.SDS_GRP_STAT_MODE_RES g = mode := by
    rw [← ht, State.rd_wr_other _ (by decide) (by decide) (by decide), State.rd_wr_same]
    exact Nat.mod_eq_of_lt (show mode < 8 by omega)
  have hfec : t.rd F.SDS_GRP_STAT_FEC_RES g = min fec 2 := by
    rw [← ht, State.rd_wr_same]
    exact Nat.mod_eq_of_lt (show min fec 2 < 4 by omega)
  have hmod : t.on F.SDS_GRP_STAT_MOD_PRESENT g = true := by
    refine State.on_of_rd (v := 1) ?_
    rw [← ht, State.rd_wr_other _ (by decide) (by decide) (by decide), State.rd_wr_other _ (by decide) (by decide) (by decide)]
    exact State.rd_wr_same s _ 1 g
  obtain ⟨k, -, -, -⟩ := State.startFirst_facts (s := t.wr F.SDS_GRP_STAT_STATE Grp.running g) g 4
  have k' : EthOnly t ((t.wr F.SDS_GRP_STAT_STATE Grp.running g).startPorts g) (F.SDS_GRP_STAT_STATE :: State.portStartFlds) :=
    ((EthOnly.refl t _).wr (.head _) _ g).trans (k.mono (List.subset_cons_self _ _))
  refine ⟨_, (exec_moduleIdent g mode fec s).trans hx, (k.rd rfl g).trans (State.rd_wr_same _ _ _ g), (k'.rd rfl g).trans hmode,
    (k'.rd rfl g).trans hfec, (k'.on rfl g).trans hmod, k'.mem.trans ?_, k'.ridge.trans ?_⟩
  · rw [← ht]; rfl
  · rw [← ht]; rfl

theorem moduleIdent_unknown_settles (hm : 4 ≤ mode) : Settles (.moduleIdent g mode fec) s (fun u => u.grpState g = 1 ∧ u.staged 102 g ∧
    u.on F.SDS_GRP_STAT_MOD_PRESENT g = true ∧ OnlyRegsFcu s u [(F.SDS_GRP_STAT_MOD_PRESENT, g)]) := by
  have hs' : (s.wr F.SDS_GRP_STAT_MOD_PRESENT 1 g).grpState g = 1 :=
    (State.rd_wr_other s (by decide) (by decide) (by decide) 1 g g).trans hs
  have hx : execModuleIdent g mode fec s = done ((s.wr F.SDS_GRP_STAT_MOD_PRESENT 1 g).raise 102 g) := by
    rw [execModuleIdent, if_neg (by omega)]
    dsimp only
    rw [if_neg (by rw [hs']; decide), if_pos hm]
  exact ⟨_, (exec_moduleIdent g mode fec s).trans hx, hs', List.mem_append_right _ (.head _),
    State.on_of_rd (v := 1) (State.rd_wr_same s F.SDS_GRP_STAT_MOD_PRESENT 1 g), rfl, ((RegsBut.refl s _).wr (.head _) 1).same rfl⟩

end
end

/-! ### The enable of a port -/

namespace State
variable {s : State} {p : Nat}

/-- The fields of MAC_CTL, DOZE and EN last. -/
def macCtlFlds : List Fld := [F.MAC_CTL_MAXF, F.MAC_CTL_WAKE_SEL, F.MAC_CTL_QINQ, F.MAC_CTL_TAG_INS, F.MAC_CTL_TAG_STRIP, F.MAC_CTL_FC_TX_EN,
  F.MAC_CTL_PFC_EN, F.MAC_CTL_PFC_IGN, F.MAC_CTL_FC_IGN, F.MAC_CTL_DOZE, F.MAC_CTL_EN]

/-- What the fields of MAC_CTL[p] take of a write of `w`, and the rules that it breaks (R280). -/
def macCtlFields (s : State) (p w : Nat) : State × List Nat :=
  s.fieldWrite (fun f => (s.on F.MAC_CTL_EN p || s.portState p == Port.stopping) &&
    !f.among [F.MAC_CTL_EN, F.MAC_CTL_DOZE, F.MAC_CTL_FC_IGN, F.MAC_CTL_PFC_IGN, F.MAC_CTL_FC_TX_EN]) inRange macCtlFlds p w

/-- What follows when EN of port `p` has been written, EN having been `was` (R250, R254). -/
def followPortEn (s : State) (was : Bool) (p : Nat) : State :=
  if s.on F.MAC_CTL_EN p && !was then
    (if s.portState p = Port.stopping then (s.rstFlds macCounters p).wr F.MAC_STAT_PENDING_ENABLE 1 p else (s.rstFlds macCounters p).portStart p)
  else if was && !s.on F.MAC_CTL_EN p then
    if s.portState p = Port.stopping then s.wr F.MAC_STAT_PENDING_ENABLE 0 p else s.portStop p
  else s

/-- What follows when DOZE of port `p` has been written, DOZE having been `doze` (R276, R277). -/
def followDoze (s : State) (doze : Bool) (p : Nat) : State :=
  if s.on F.MAC_CTL_DOZE p && !doze then
    if s.portState p = Port.disabled ∨ s.portState p = Port.stopping ∨ s.portState p = Port.doze then s else s.dozeEnter p
  else if doze && !s.on F.MAC_CTL_DOZE p then s.dozeOff p
  else s

theorem macCtlWrite_eq (h : s.portAbsent p = false) (a : Acs) (w : Nat) : s.macCtlWrite a p w =
    (((s.macCtlFields p w).1.followPortEn (s.on F.MAC_CTL_EN p) p).followDoze (s.on F.MAC_CTL_DOZE p) p).conclude a (s.macCtlFields p w).2 := by
  rw [macCtlWrite, h]
  rfl

theorem onlyRegs_macCtlFields (w : Nat) : OnlyRegs s (s.macCtlFields p w).1 (macCtlFlds.map (·, p)) := onlyRegs_fieldWrite _ _ _ p w

theorem bits_one (w k : Nat) : (bits w k 1 != 0) = bit w k := by
  have h := Nat.mod_two_eq_zero_or_one (w / 2 ^ k)
  rw [bits, bit, Nat.pow_one]
  obtain h | h := h <;> rw [h] <;> rfl

/-- EN of a port is never locked: it takes bit 0 of the word. -/
theorem on_en_macCtlFields (w : Nat) : (s.macCtlFields p w).1.on F.MAC_CTL_EN p = bit w 0 := by
  have h : (s.macCtlFields p w).1.rd F.MAC_CTL_EN p = bits w 0 1 :=
    rd_fieldWrite_last (f := F.MAC_CTL_EN) rfl (Bool.and_false _) rfl macCtlFlds.dropLast p
  rw [on, h, bits_one]

/-- DOZE of a port is never locked: it takes bit 1 of the word. -/
theorem on_doze_macCtlFields (w : Nat) : (s.macCtlFields p w).1.on F.MAC_CTL_DOZE p = bit w 1 := by
  have h : (s.macCtlFields p w).1.rd F.MAC_CTL_DOZE p = bits w 1 1 :=
    (rd_fieldWrite_append (fs := macCtlFlds.dropLast) (gs := [F.MAC_CTL_EN]) rfl p w p).trans
      (rd_fieldWrite_last (f := F.MAC_CTL_DOZE) rfl (Bool.and_false _) rfl macCtlFlds.dropLast.dropLast p)
  rw [on, h, bits_one]

end State
end Sys2Proof.Machine

namespace Sys2Proof.Machine
namespace State
variable {s t : State} {p : Nat}

/-- The fields that say whether a port is present. -/
def presentFlds : List Fld := [F.SDS_GRP_STAT_STATE, F.SDS_GRP_STAT_MODE_RES, F.SDS_GRP_CTL_MODE]

/-- A change of other fields leaves a port present or absent. -/
theorem portAbsent_of_off {l : List Fld} (hl : presentFlds.all (fun f => f.off l) = true)
    (h : ∀ f i, f.off l = true → t.rd f i = s.rd f i) (p : Nat) : t.portAbsent p = s.portAbsent p := by
  have hf : ∀ f ∈ presentFlds, ∀ i, t.rd f i = s.rd f i := fun f hm i => h f i (List.all_eq_true.mp hl f hm)
  rw [portAbsent, portAbsent, grpState, grpState, hf _ (by simp [presentFlds]), hf F.SDS_GRP_STAT_MODE_RES (by simp [presentFlds]),
    hf F.SDS_GRP_CTL_MODE (by simp [presentFlds])]

theorem onlyRegs_rstFlds (l : List Fld) : OnlyRegs s (s.rstFlds l p) (l.map (·, p)) := by
  have h (t : State) : ∀ k : List Fld, k ⊆ l → OnlyRegs s t (l.map (·, p)) → OnlyRegs s (t.rstFlds k p) (l.map (·, p)) := by
    intro k
    induction k generalizing t with
    | nil => exact fun _ ht => ht
    | cons f k ih => exact fun hk ht => ih (t.rst f p) (fun _ hg => hk (.tail _ hg)) (ht.rst (List.mem_map_of_mem (hk (.head _))))
  exact h s l (List.Subset.refl l) (.refl s _)

/-- Each of several fields that are cleared, all different, reads its reset value. -/
theorem rd_rstFlds_mem {l : List Fld} (hl : l.Pairwise (fun f g => f.off [g] = true)) {f : Fld} (hf : f ∈ l) :
    (s.rstFlds l p).rd f p = f.rstAt p := by
  induction l generalizing s with
  | nil => exact absurd hf (List.not_mem_nil)
  | cons g l ih =>
    obtain ⟨hg, hl⟩ := List.pairwise_cons.mp hl
    by_cases h : f ∈ l
    · exact ih (s := s.rst g p) hl h
    · obtain rfl := (List.mem_cons.mp hf).resolve_right h
      refine ((onlyRegs_rstFlds (s := s.rst f p) (p := p) l).2 f p fun q hq => ?_).trans (rd_rst_same s f p)
      obtain ⟨k, hk, rfl⟩ := List.mem_map.mp hq
      have hn := Fld.ne_of_off (hg k hk) (.head _)
      exact Fld.key_ne hn.1 (Fld.lt_of_off (hg k hk)) (.inl hn.2)

theorem rstAt_macCounters (p : Nat) : ∀ f ∈ macCounters, f.rstAt p = 0 := by
  simp [macCounters, Fld.rstAt, F.MAC_CNT_RX_FRAMES_RX_FRAMES, F.MAC_CNT_TX_FRAMES_TX_FRAMES, F.MAC_CNT_RX_ERR_RX_ERR,
    F.MAC_CNT_PAUSE_RX_PAUSE_RX, F.MAC_CNT_PAUSE_IGN_PAUSE_IGN, F.MAC_CNT_DROP_DROP, F.MAC_CNT_FEC_CORR_FEC_CORR,
    F.MAC_CNT_FEC_UNCORR_FEC_UNCORR, F.MAC_CNT_LINK_DOWN_LINK_DOWN]

theorem rd_rstMac : ∀ f ∈ macCounters, (s.rstFlds macCounters p).rd f p = 0 := fun f hf =>
  (rd_rstFlds_mem (by decide) hf).trans (rstAt_macCounters p f hf)

/-! ### What a write of MAC_CTL sets off -/

theorem followPortEn_starts (he : s.on F.MAC_CTL_EN p = true) (hs : s.portState p = 0) :
    s.followPortEn false p = (s.rstFlds macCounters p).portStart p := by
  rw [followPortEn, he, if_pos (show (true && !false) = true from rfl), if_neg (by rw [hs]; decide)]

theorem followPortEn_stops (he : s.on F.MAC_CTL_EN p = false) (hs : s.portState p = 4) : s.followPortEn true p = s.portStop p := by
  rw [followPortEn, he, if_neg (by decide), if_pos (show (true && !false) = true from rfl), if_neg (by rw [hs]; decide)]

theorem followPortEn_keeps (he : s.on F.MAC_CTL_EN p = true) : s.followPortEn true p = s := by
  rw [followPortEn, he, if_neg (by decide), if_neg (by decide)]

theorem followDoze_none (hd : s.on F.MAC_CTL_DOZE p = false) : s.followDoze false p = s := by
  rw [followDoze, hd, if_neg (by decide), if_neg (by decide)]

theorem followDoze_enters (hd : s.on F.MAC_CTL_DOZE p = true) (hs : s.portState p = 4) : s.followDoze false p = s.dozeEnter p := by
  rw [followDoze, hd, if_pos (show (true && !false) = true from rfl), if_neg (by rw [hs]; decide)]

theorem followDoze_wakes (hd : s.on F.MAC_CTL_DOZE p = false) (hs : s.portState p = 6) (hz : (s.prt p).dozing = false) :
    s.followDoze true p = s.dozeWake p := by
  rw [followDoze, hd, if_neg (by decide), if_pos (show (true && !false) = true from rfl), dozeOff, if_neg (fun h => h hs), hz]
  rfl

/-! ### Doze (R276, R277) -/

/-- A port that dozes keeps neither its pauses nor its lanes' lock; FS 106 tells it (R276). -/
theorem dozeEnter_facts (hp : p < s.eth.port.length) : EthOnly s (s.dozeEnter p) portStopFlds ∧ (s.dozeEnter p).portState p = 6 ∧
    ((s.dozeEnter p).prt p).dozing = true ∧ (s.dozeEnter p).staged 106 p := by
  unfold dozeEnter
  dsimp only
  obtain ⟨hc, -, -, -⟩ := clearPause_facts (s := s) (p := p)
  obtain ⟨hd, he, -, -⟩ := dropLanes_facts (s := s.clearPause p) (s.portLanes p)
  have hlen : ((s.clearPause p).dropLanes (s.portLanes p)).eth.port.length = s.eth.port.length := by
    rw [he]
    exact List.length_set
  have h := (hc.mono (List.subset_append_left _ _)).trans (hd.mono (List.subset_append_right pausedFlds _))
  generalize (s.clearPause p).dropLanes (s.portLanes p) = t at h hlen
  obtain ⟨hm, hme, -, hq⟩ := movePort_facts (s := t.setPrt p { t.prt p with dozing := true }) (p := p) (st := Port.doze) (by decide)
  refine ⟨((h.mono (List.subset_append_right _ _)).setPrt p _).trans ((hm.mono (List.subset_append_left _ _)).raise 106 p),
    (hq p).trans (if_pos rfl), ?_, List.mem_append_right _ (.head _)⟩
  have hx := prt_setPrt (s := t) (hlen ▸ hp) { t.prt p with dozing := true }
  rw [← prt_of_eth hme] at hx
  exact congrArg PortSt.dozing hx

/-- A port that wakes is DISABLED, and may start again. -/
def woken (s : State) (p : Nat) : State :=
  ((s.setPrt p { s.prt p with dozing := false }).wr F.MAC_STAT_PENDING_ENABLE 0 p).movePort p Port.disabled

theorem dozeWake_eq : s.dozeWake p = (s.woken p).portStart p := rfl

theorem woken_facts : EthOnly s (s.woken p) portStoppedFlds ∧ (s.woken p).portState p = 0 := by
  obtain ⟨hm, -, -, hq⟩ :=
    movePort_facts (s := (s.setPrt p { s.prt p with dozing := false }).wr F.MAC_STAT_PENDING_ENABLE 0 p) (p := p) (st := Port.disabled) (by decide)
  exact ⟨(((EthOnly.refl s _).setPrt p _).wr (.head _) 0 p).trans (hm.mono fun _ hf => .tail _ (.tail _ hf)), (hq p).trans (if_pos rfl)⟩

/-- An enabled port of a running group that wakes begins bring-up (R277). -/
theorem dozeWake_facts (he : s.on F.MAC_CTL_EN p = true) (hg : s.grpState (p / 4) = 2) (hn : s.portAbsent p = false) :
    EthOnly s (s.dozeWake p) portStoppedFlds ∧ (s.dozeWake p).portState p = s.firstState p := by
  obtain ⟨h, hz⟩ := woken_facts (s := s) (p := p)
  have hm : (s.woken p).MayStart p := by
    refine ⟨hz, (h.on rfl p).trans he, (h.rd rfl _).trans hg, ?_⟩
    rw [portAbsent_of_off (s := s) (by decide) (fun f i hf => h.rd hf i), hn]
    rfl
  obtain ⟨k, -, -, -⟩ := portStart_facts (s := s.woken p) (p := p)
  rw [dozeWake_eq]
  refine ⟨h.trans (k.mono (List.subset_cons_self _ _)), (portStart_starts hm).1.trans ?_⟩
  rw [firstState, h.rd rfl, firstState]

end State
end Sys2Proof.Machine

/-! ### The commands of a port -/

namespace Sys2Proof.Machine

section
variable {s : State} {req p : Nat} (ha : Admitted s req) (hp : p < 32) (hn : s.portAbsent p = false)
include ha hn

/-- A write of MAC_CTL[p] of a present port takes the word, then what EN and DOZE ask for, and concludes. -/
theorem put_macCtl (w : Nat) : (s.put (macCtlAcs req p) (fun s a => s.macCtlWrite a p w)).1 =
    ((((s.macCtlFields p w).1.followPortEn (s.on F.MAC_CTL_EN p) p).followDoze (s.on F.MAC_CTL_DOZE p) p).conclude (macCtlAcs req p)
      (s.macCtlFields p w).2).1 := by
  rw [State.put_admitted (a := macCtlAcs req p) ha, State.macCtlWrite_eq hn]

include hp

theorem portEnable_settles (he : s.on F.MAC_CTL_EN p = false) (hd : s.on F.MAC_CTL_DOZE p = false) {w : Nat} (hb : bit w 1 = false)
    (hs : s.portState p = 0) (hg : s.grpState (p / 4) = 2) : Settles (.portEnable req p w) s (fun u => u.on F.MAC_CTL_EN p = true ∧
      u.portState p = (if s.rd F.SDS_GRP_STAT_PMD_RES (p / 4) ≤ 1 then 1 else 3) ∧
      u.rd F.MAC_STAT_RATE p = s.rd F.SDS_GRP_STAT_MODE_RES (p / 4) % 4 ∧ (∀ f ∈ macCounters, u.rd f p = 0) ∧ u.mem = s.mem ∧
      u.ridge = s.ridge) := by
  have h := State.onlyRegs_macCtlFields (s := s) (p := p) (setBit w 0 true)
  have hen : (s.macCtlFields p (setBit w 0 true)).1.on F.MAC_CTL_EN p = true := by
    rw [State.on_en_macCtlFields, bit_setBit, if_pos rfl]
  have hdz : (s.macCtlFields p (setBit w 0 true)).1.on F.MAC_CTL_DOZE p = false := by
    rw [State.on_doze_macCtlFields, bit_setBit, if_neg (by decide), hb]
  have hx : execPortEnable req p w s = done (s.put (macCtlAcs req p) (fun s a => s.macCtlWrite a p (setBit w 0 true))).1 := if_neg (by omega)
  rw [put_macCtl ha hn, he, hd, State.followPortEn_starts hen ((h.2.rd rfl p).trans hs)] at hx
  generalize s.macCtlFields p (setBit w 0 true) = r at hx h hen hdz
  have hc := State.onlyRegs_rstFlds (s := r.1) (p := p) macCounters
  have hm : (r.1.rstFlds macCounters p).MayStart p := by
    refine ⟨(hc.2.rd rfl p).trans ((h.2.rd rfl p).trans hs), (hc.2.on rfl p).trans hen, (hc.2.rd rfl _).trans ((h.2.rd rfl _).trans hg), ?_⟩
    rw [State.portAbsent_of_off (s := r.1) rfl (fun f i hf => hc.2.rd hf i),
      State.portAbsent_of_off (s := s) rfl (fun f i hf => h.2.rd hf i), hn]
    rfl
  obtain ⟨k, -, -, -⟩ := State.portStart_facts (s := r.1.rstFlds macCounters p) (p := p)
  obtain ⟨hst, hrate⟩ := State.portStart_starts hm
  rw [State.followDoze_none ((k.on rfl p).trans ((hc.2.on rfl p).trans hdz))] at hx
  have hl := State.ethOnly_conclude (s := (r.1.rstFlds macCounters p).portStart p) (macCtlAcs req p) r.2
  refine ⟨_, (exec_portEnable req p w s).trans hx, (hl.on rfl p).trans ((k.on rfl p).trans ((hc.2.on rfl p).trans hen)), ?_, ?_, ?_,
    hl.mem.trans (k.mem.trans (hc.mem.trans h.mem)), hl.ridge.trans (k.ridge.trans (hc.ridge.trans h.ridge))⟩
  · rw [State.portState, hl.rd rfl, ← State.portState, hst, State.firstState, hc.2.rd rfl, h.2.rd rfl]
  · rw [hl.rd rfl, hrate, hc.2.rd rfl, h.2.rd rfl]
  · intro f hf
    have ho := List.all_eq_true.mp (by decide : macCounters.all (fun f => f.off (answerFlds ++ State.accFlds.map Prod.fst) &&
      f.off (answerFlds ++ State.portStartFlds)) = true) f hf
    obtain ⟨ho₁, ho₂⟩ := Bool.and_eq_true_iff.mp ho
    rw [hl.rd ho₁, k.rd ho₂]
    exact State.rd_rstMac f hf

theorem portDisable_settles (he : s.on F.MAC_CTL_EN p = true) (hd : s.on F.MAC_CTL_DOZE p = false) {w : Nat} (hb : bit w 1 = false)
    (hs : s.portState p = 4) (hlen : s.eth.port.length = 32) : Settles (.portDisable req p w) s (fun u => u.on F.MAC_CTL_EN p = false ∧
      u.portState p = 7 ∧ (u.prt p).pause = none ∧ u.on F.MAC_STAT_PAUSED p = false ∧ u.mem = s.mem ∧ u.ridge = s.ridge) := by
  have h := State.onlyRegs_macCtlFields (s := s) (p := p) (setBit w 0 false)
  have hen : (s.macCtlFields p (setBit w 0 false)).1.on F.MAC_CTL_EN p = false := by
    rw [State.on_en_macCtlFields, bit_setBit, if_pos rfl]
  have hdz : (s.macCtlFields p (setBit w 0 false)).1.on F.MAC_CTL_DOZE p = false := by
    rw [State.on_doze_macCtlFields, bit_setBit, if_neg (by decide), hb]
  have hx : execPortDisable req p w s = done (s.put (macCtlAcs req p) (fun s a => s.macCtlWrite a p (setBit w 0 false))).1 := if_neg (by omega)
  rw [put_macCtl ha hn, he, hd, State.followPortEn_stops hen ((h.2.rd rfl p).trans hs)] at hx
  generalize s.macCtlFields p (setBit w 0 false) = r at hx h hen hdz
  obtain ⟨k, hq⟩ := State.portStop_facts (s := r.1) (p := p)
  have hs' : r.1.portState p = 4 := (h.2.rd rfl p).trans hs
  obtain ⟨hpause, hpaused⟩ := State.portStop_pause (s := r.1) (p := p) hs' (by rw [← h.1]; exact hlen ▸ hp)
  rw [State.followDoze_none ((k.on rfl p).trans hdz)] at hx
  have hcon := State.onlyRegsFcu_conclude (s := r.1.portStop p) (macCtlAcs req p) r.2
  have hl := State.ethOnly_conclude (s := r.1.portStop p) (macCtlAcs req p) r.2
  refine ⟨_, (exec_portDisable req p w s).trans hx, (hl.on rfl p).trans ((k.on rfl p).trans hen), (hl.rd rfl p).trans ((hq p).trans ?_), ?_,
    (hl.on rfl p).trans hpaused, hl.mem.trans (k.mem.trans h.mem), hl.ridge.trans (k.ridge.trans h.ridge)⟩
  · rw [if_pos ⟨rfl, by rw [hs']; decide⟩]
  · rw [State.prt_of_eth (s := r.1.portStop p) (by rw [← hcon.1])]
    exact hpause

theorem dozeEnter_settles (he : s.on F.MAC_CTL_EN p = true) {w : Nat} (hb : bit w 0 = true) (hd : s.on F.MAC_CTL_DOZE p = false)
    (hs : s.portState p = 4) (hlen : s.eth.port.length = 32) : Settles (.dozeEnter req p w) s (fun u => u.on F.MAC_CTL_DOZE p = true ∧
      u.portState p = 6 ∧ (u.prt p).dozing = true ∧ u.staged 106 p ∧ u.mem = s.mem ∧ u.ridge = s.ridge) := by
  have h := State.onlyRegs_macCtlFields (s := s) (p := p) (setBit w 1 true)
  have hen : (s.macCtlFields p (setBit w 1 true)).1.on F.MAC_CTL_EN p = true := by
    rw [State.on_en_macCtlFields, bit_setBit, if_neg (by decide), hb]
  have hdz : (s.macCtlFields p (setBit w 1 true)).1.on F.MAC_CTL_DOZE p = true := by
    rw [State.on_doze_macCtlFields, bit_setBit, if_pos rfl]
  have hx : execDozeEnter req p w s = done (s.put (macCtlAcs req p) (fun s a => s.macCtlWrite a p (setBit w 1 true))).1 := if_neg (by omega)
  rw [put_macCtl ha hn, he, hd, State.followPortEn_keeps hen, State.followDoze_enters hdz ((h.2.rd rfl p).trans hs)] at hx
  generalize s.macCtlFields p (setBit w 1 true) = r at hx h hen hdz
  obtain ⟨k, hst, hz, hf⟩ := State.dozeEnter_facts (s := r.1) (p := p) (by rw [← h.1]; exact hlen ▸ hp)
  have hcon := State.onlyRegsFcu_conclude (s := r.1.dozeEnter p) (macCtlAcs req p) r.2
  have hl := State.ethOnly_conclude (s := r.1.dozeEnter p) (macCtlAcs req p) r.2
  refine ⟨_, (exec_dozeEnter req p w s).trans hx, (hl.on rfl p).trans ((k.on rfl p).trans hdz), (hl.rd rfl p).trans hst, ?_,
    State.occs_conclude _ _ _ hf, hl.mem.trans (k.mem.trans h.mem), hl.ridge.trans (k.ridge.trans h.ridge)⟩
  rw [State.prt_of_eth (s := r.1.dozeEnter p) (by rw [← hcon.1])]
  exact hz

end

theorem dozeEntryDone_settles {s : State} {p : Nat} (hp : p < 32) (hlen : s.eth.port.length = 32) (hz : (s.prt p).dozing = true)
    (he : s.on F.MAC_STAT_PENDING_ENABLE p = false) : Settles (.dozeEntryDone p) s (fun u =>
      u = s.setPrt p { s.prt p with dozing := false } ∧ (u.prt p).dozing = false) := by
  have hx : execDozeEntryDone p s = done (s.setPrt p { s.prt p with dozing := false }) := by
    rw [execDozeEntryDone, hz, if_neg (by simp; omega)]
    exact if_neg (by rw [show (s.setPrt p { s.prt p with dozing := false }).on F.MAC_STAT_PENDING_ENABLE p = false from he]; decide)
  exact ⟨_, (exec_dozeEntryDone p s).trans hx, rfl, congrArg PortSt.dozing (State.prt_setPrt (hlen ▸ hp) { s.prt p with dozing := false })⟩

section
variable {s : State} {req p cause w : Nat} (hp : p < 32) (hs : s.portState p = 6) (hz : (s.prt p).dozing = false)
  (hg : s.grpState (p / 4) = 2) (hn : s.portAbsent p = false)
include hp hs hz hg hn

theorem portWake_pattern_settles (hc : cause < 2) (hw : s.rd F.MAC_CTL_WAKE_SEL p = cause) (he : s.on F.MAC_CTL_EN p = true) :
    Settles (.portWake req p cause w) s (fun u => u.on F.MAC_CTL_DOZE p = false ∧
      u.portState p = (if s.rd F.SDS_GRP_STAT_PMD_RES (p / 4) ≤ 1 then 1 else 3) ∧ u.mem = s.mem ∧ u.ridge = s.ridge) := by
  have hx : execPortWake req p cause w s = done ((s.wr F.MAC_CTL_DOZE 0 p).dozeWake p) := by
    rw [execPortWake, if_neg (by omega), if_neg (by omega), if_pos ⟨hs, by rw [hz]; rfl, hw⟩]
  have h : OnlyRegs s (s.wr F.MAC_CTL_DOZE 0 p) [(F.MAC_CTL_DOZE, p)] := (OnlyRegs.refl s _).wr (.head _) 0
  have ha : (s.wr F.MAC_CTL_DOZE 0 p).portAbsent p = false := (State.portAbsent_of_off rfl (fun f i hf => h.2.rd hf i) p).trans hn
  obtain ⟨k, hst⟩ := State.dozeWake_facts ((h.2.on rfl p).trans he) ((h.2.rd rfl _).trans hg) ha
  refine ⟨_, (exec_portWake req p cause w s).trans hx, (k.on rfl p).trans (State.on_of_rd (v := 0) (State.rd_wr_same s _ 0 p)), ?_,
    k.mem, k.ridge⟩
  rw [hst, State.firstState, h.2.rd rfl]

theorem portWake_write_settles (ha : Admitted s req) (hc : 2 ≤ cause) (he : s.on F.MAC_CTL_EN p = true) (hb : bit w 0 = true)
    (hd : s.on F.MAC_CTL_DOZE p = true) : Settles (.portWake req p cause w) s (fun u => u.on F.MAC_CTL_DOZE p = false ∧
      u.portState p = (if s.rd F.SDS_GRP_STAT_PMD_RES (p / 4) ≤ 1 then 1 else 3) ∧ u.mem = s.mem ∧ u.ridge = s.ridge) := by
  have h := State.onlyRegs_macCtlFields (s := s) (p := p) (setBit w 1 false)
  have hen : (s.macCtlFields p (setBit w 1 false)).1.on F.MAC_CTL_EN p = true := by
    rw [State.on_en_macCtlFields, bit_setBit, if_neg (by decide), hb]
  have hdz : (s.macCtlFields p (setBit w 1 false)).1.on F.MAC_CTL_DOZE p = false := by
    rw [State.on_doze_macCtlFields, bit_setBit, if_pos rfl]
  have hx : execPortWake req p cause w s = done (s.put (macCtlAcs req p) (fun s a => s.macCtlWrite a p (setBit w 1 false))).1 := by
    rw [execPortWake, if_neg (by omega), if_pos hc]
  rw [put_macCtl ha hn, he, hd, State.followPortEn_keeps hen, State.followDoze_wakes hdz ((h.2.rd rfl p).trans hs)
    (by rw [State.prt_of_eth (s := s) (by rw [← h.1])]; exact hz)] at hx
  generalize s.macCtlFields p (setBit w 1 false) = r at hx h hen hdz
  have ha' : r.1.portAbsent p = false := (State.portAbsent_of_off rfl (fun f i hf => h.2.rd hf i) p).trans hn
  obtain ⟨k, hst⟩ := State.dozeWake_facts hen ((h.2.rd rfl _).trans hg) ha'
  have hl := State.ethOnly_conclude (s := r.1.dozeWake p) (macCtlAcs req p) r.2
  refine ⟨_, (exec_portWake req p cause w s).trans hx, (hl.on rfl p).trans ((k.on rfl p).trans hdz), ?_,
    hl.mem.trans (k.mem.trans h.mem), hl.ridge.trans (k.ridge.trans h.ridge)⟩
  rw [State.portState, hl.rd rfl, ← State.portState, hst, State.firstState, h.2.rd rfl]

end

/-- Settles O23: each clause is what its command does to the group or the port that it names. -/
theorem ethernetGroupsAndPortsStartAndStop : Obligations.EthernetGroupsAndPortsStartAndStop :=
  ⟨fun _ _ _ w ha hg he ho hs ht hi hc => groupEnable_passes_settles ha hg ho ht he hs w hi hc,
   fun _ _ _ w ha hg he ho hs ht hi => groupEnable_islandOff_settles ha hg ho ht he hs w hi,
   fun _ _ _ w ha hg he ho hs ht => groupDisable_settles ha hg ho ht he hs w,
   fun _ _ hp hs he => portStopDone_port_settles hp hs he,
   fun _ _ hg hs hn => portStopDone_group_settles hg hs hn,
   fun _ _ _ _ hg hs hm hlt => moduleIdent_resolves_settles hg hs hm hlt,
   fun _ _ _ _ hg hs hm => moduleIdent_unknown_settles hg hs hm,
   fun _ _ _ _ ha hp hn he hd hb hs hg => portEnable_settles ha hp hn he hd hb hs hg,
   fun _ _ _ _ ha hp hn he hd hb hs hl => portDisable_settles ha hp hn he hd hb hs hl,
   fun _ _ _ _ ha hp hn he hb hd hs hl => dozeEnter_settles ha hp hn he hb hd hs hl,
   fun _ _ hp hl hz he => dozeEntryDone_settles hp hl hz he,
   fun _ _ _ _ _ hp hc hs hz hw he hg hn => portWake_pattern_settles hp hs hz hg hn hc hw he,
   fun _ _ _ _ _ ha hp hc hs hz he hb hd hg hn => portWake_write_settles hp hs hz hg hn ha hc he hb hd⟩

end Sys2Proof.Machine

/-! ## Links that come up and go down (R252, R253, R261, R262, R284) -/

namespace Sys2Proof.Machine

/-! ### Completions and the fault collector -/

namespace FaultsKept
variable {s t u : State}

theorem refl (s : State) : FaultsKept s s := .of_fcu rfl

theorem foldl {α : Type} {f : State → α → State} (hf : ∀ t x, FaultsKept t (f t x)) (xs : List α) (s : State) :
    FaultsKept s (xs.foldl f s) := by
  induction xs generalizing s with
  | nil => exact .refl s
  | cons x xs ih => exact (hf s x).trans (ih _)

theorem ringCpl (s : State) (c : Cpl) : FaultsKept s (s.ringCpl c) := by
  have hs (t : State) : FaultsKept t t.signalCpl := by
    unfold State.signalCpl
    dsimp only
    split <;> exact .of_fcu rfl
  unfold State.ringCpl
  dsimp only
  split
  · have h : FaultsKept s ({ s with host := { s.host with held := s.host.held ++ [c] } }.wr F.HOST_STAT_CPL_HELD 1 0) := .of_fcu rfl
    split
    · exact h.raise _ _
    · exact h
  · unfold State.writeCpl
    dsimp only
    refine FaultsKept.trans ?_ (hs _)
    exact .of_fcu rfl

theorem wr (h : FaultsKept s u) (f : Fld) (v i : Nat) : FaultsKept s (u.wr f v i) := h.trans (.of_fcu rfl)
theorem emit (h : FaultsKept s u) (o : Out) : FaultsKept s (u.emit o) := h.trans (.of_fcu rfl)

theorem mbxCpl (s : State) (c : Cpl) : FaultsKept s (s.mbxCpl c) := by
  have hw (w : List Nat) : FaultsKept s (forN 4 s fun s j => s.wr F.HOST_MBX_CPL_WORD (w.getD j 0) j) :=
    .of_fcu (forN_keeps State.fcu (fun _ _ => rfl) 4 s)
  have h := hw (cplWords 0 c)
  have hd := (h.wr F.HOST_MBX_CTL_BUSY 0 0).wr F.HOST_MBX_CTL_DONE 1 0
  unfold State.mbxCpl
  dsimp only
  split
  · exact hd
  · exact hd.emit _

theorem complete (s : State) (c : Cpl) : FaultsKept s (s.complete c) := by
  have hr (s : State) : FaultsKept s
      (match c.ref.src with
      | .ring => s.ringCpl c
      | .mailbox => if c.interim then s else s.mbxCpl c
      | .noryr => s.norOwn NorT.cpl c.ref.tag (cplWords 0 c)
      | .boot => if c.interim then s else { s with bootCpl := s.bootCpl ++ [c] }
      | .mirror => s) := by
    cases c.ref.src with
    | ring => exact .ringCpl s c
    | mailbox => dsimp only; split; exacts [.refl s, .mbxCpl s c]
    | noryr => exact .norOwn _ _ _ _
    | boot => dsimp only; split <;> exact .of_fcu rfl
    | mirror => exact .refl s
  unfold State.complete
  split
  · split <;> exact .of_fcu rfl
  · exact FaultsKept.trans (by split <;> exact .of_fcu rfl) (hr _)

theorem finish (s : State) (r : CmdRef) (code r0 r1 n : Nat) : FaultsKept s (s.finish r code r0 r1 n) := by
  unfold State.finish
  split <;> exact .complete _ _

theorem finishAll (s : State) (rs : List CmdRef) (code : Nat) : FaultsKept s (s.finishAll rs code) :=
  .foldl (fun t r => .finish t r code 0 0 0) rs s

end FaultsKept

namespace State
variable {s t : State} {p l : Nat}

/-! ### A re-adaptation that is given up (R261) -/

/-- The fields in which the end of a re-adaptation shows. -/
def adaptEndFlds : List Fld := F.SDS_LN_STAT_ADAPTING :: F.SORT_CNT_DEFERRALS :: searchFlds

theorem dequeue_facts (act tgt : Nat) : EthOnly s (s.dequeue act tgt) adaptEndFlds ∧ FaultsKept s (s.dequeue act tgt) := by
  unfold dequeue
  dsimp only
  have h : QuietOnly s (s.setQueue (quietGroup act tgt) ((s.quietQueue (quietGroup act tgt)).filter (fun e => !(e.act == act && e.tgt == tgt)))) :=
    .setQueue s _ _
  exact ⟨(h.ethOnly.mono (List.subset_cons_self _ _)).trans
      (.foldl (fun t (e : SortEntry) => (EthOnly.refl t _).answered (.finishAll t e.cmds _)) _ _),
    (FaultsKept.of_fcu h.fcu).trans (.foldl (fun t (e : SortEntry) => .finishAll t e.cmds _) _ _)⟩

theorem endEntry_keeps (q code r0 r1 : Nat) : EthOnly s (s.endEntry q code r0 r1 true) adaptEndFlds ∧
    FaultsKept s (s.endEntry q code r0 r1 true) := by
  have h := quietOnly_endEntry (s := s) q code r0 r1
  obtain ⟨cmds, e⟩ := endEntry_finishes (s := s) q code r0 r1
  rw [e]
  exact ⟨(h.ethOnly.mono (List.subset_cons_self _ _)).trans (.foldl (fun t c => (EthOnly.refl t _).answered (.finish t c code r0 r1 0)) _ _),
    (FaultsKept.of_fcu h.fcu).trans (.foldl (fun t c => .finish t c code r0 r1 0) _ _)⟩

/-- A re-adaptation that is given up shows in its lane and its quiet group; what is live stays so. -/
theorem abandonReadapt_facts : EthOnly s (s.abandonReadapt l) adaptEndFlds ∧ FaultsKept s (s.abandonReadapt l) := by
  unfold abandonReadapt
  extract_lets s₁ s₂ x s₃
  obtain ⟨h₁, k₁⟩ := dequeue_facts (s := s) Act.readapt l
  have h₃ : EthOnly s s₃ adaptEndFlds := (h₁.answered (.finishAll s₁ (s₁.lane l).cmds Code.badParam)).setLane l _
  have k₃ : FaultsKept s s₃ := (k₁.trans (.finishAll s₁ (s₁.lane l).cmds Code.badParam)).trans (.of_fcu rfl)
  split
  · have h₄ := (h₃.wr (g := F.SDS_LN_STAT_ADAPTING) (.head _) 0 l).raise 176 (Act.readapt + l * 256)
    have k₄ := (k₃.trans (.of_fcu rfl : FaultsKept s₃ (s₃.wr F.SDS_LN_STAT_ADAPTING 0 l))).raise 176 (Act.readapt + l * 256)
    obtain ⟨h₅, k₅⟩ := endEntry_keeps (s := (s₃.wr F.SDS_LN_STAT_ADAPTING 0 l).raise 176 (Act.readapt + l * 256))
      (quietGroup Act.readapt l) Code.badParam 0 0
    exact ⟨h₄.trans h₅, k₄.trans k₅⟩
  · exact ⟨h₃, k₃⟩

/-! ### Corrections that load (R284) -/

/-- The fields of the lanes' corrections. -/
def corrFlds : List Fld := [F.PM_LN_RXSKEW_VALUE, F.PM_LN_RXLAT_VALUE]

/-- A reload takes the corrections of the port's lanes, and the generation of its group advances (R284). -/
theorem reloadPort_facts (corr : List (Int × Int)) : EthOnly s (s.reloadPort p corr) (F.PM_STAT_CORR_GEN :: corrFlds) ∧
    (s.reloadPort p corr).rd F.PM_STAT_CORR_GEN (p / 4) = (s.rd F.PM_STAT_CORR_GEN (p / 4) + 1) % 2 ^ F.PM_STAT_CORR_GEN.w := by
  unfold reloadPort
  extract_lets s₁
  have h : EthOnly s s₁ corrFlds := .foldl (fun t (q : Nat × Nat) => by
    split
    · exact (reloadLane_facts q.1 _ _).1
    · exact .refl t _) _ s
  exact ⟨(h.mono (List.subset_cons_self _ _)).wr (.head _) _ _, by rw [bump_eq, rd_wr_same, h.rd rfl]⟩

end State
end Sys2Proof.Machine

/-! ## The commands of a link (R252, R253, R284, Table ETH-3) -/

namespace Sys2Proof.Machine

theorem exec_anResolved (p mode fec : Nat) (s : State) : exec (.anResolved p mode fec) s = execAnResolved p mode fec s := rfl
theorem exec_anTimeout (p : Nat) (s : State) : exec (.anTimeout p) s = execAnTimeout p s := rfl
theorem exec_trainingDone (p : Nat) (eq : List (List Nat)) (s : State) : exec (.trainingDone p eq) s = execTrainingDone p eq s := rfl
theorem exec_trainingTimeout (p : Nat) (s : State) : exec (.trainingTimeout p) s = execTrainingTimeout p s := rfl
theorem exec_alignLock (p : Nat) (corr : List (Int × Int)) (s : State) : exec (.alignLock p corr) s = execAlignLock p corr s := rfl
theorem exec_alignTimeout (p : Nat) (s : State) : exec (.alignTimeout p) s = execAlignTimeout p s := rfl
theorem exec_linkFaultRx (p : Nat) (remote : Bool) (s : State) : exec (.linkFaultRx p remote) s = execLinkFaultRx p remote s := rfl
theorem exec_linkFaultClear (p : Nat) (s : State) : exec (.linkFaultClear p) s = execLinkFaultClear p s := rfl
theorem exec_linkDown (p : Nat) (s : State) : exec (.linkDown p) s = execLinkDown p s := rfl
theorem exec_corrReload (p : Nat) (corr : List (Int × Int)) (s : State) : exec (.corrReload p corr) s = execCorrReload p corr s := rfl

namespace State
variable {s t : State} {p : Nat}

/-! ### A resolution takes effect -/

/-- What auto-negotiation resolves for the group of port `p` that leaves it open (R252). -/
def anApplied (s : State) (p mode fec : Nat) : State :=
  let s := if s.rd F.SDS_GRP_CTL_MODE (p / 4) = 4 then s.wr F.SDS_GRP_STAT_MODE_RES (min mode 3) (p / 4) else s
  if s.rd F.SDS_GRP_CTL_FEC (p / 4) = 3 then s.wr F.SDS_GRP_STAT_FEC_RES (min fec 2) (p / 4) else s

theorem anApplied_facts (mode fec : Nat) :
    OnlyRegs s (s.anApplied p mode fec) [(F.SDS_GRP_STAT_MODE_RES, p / 4), (F.SDS_GRP_STAT_FEC_RES, p / 4)] ∧
    (s.anApplied p mode fec).rd F.SDS_GRP_STAT_MODE_RES (p / 4) =
      (if s.rd F.SDS_GRP_CTL_MODE (p / 4) = 4 then min mode 3 else s.rd F.SDS_GRP_STAT_MODE_RES (p / 4)) ∧
    (s.anApplied p mode fec).rd F.SDS_GRP_STAT_FEC_RES (p / 4) =
      (if s.rd F.SDS_GRP_CTL_FEC (p / 4) = 3 then min fec 2 else s.rd F.SDS_GRP_STAT_FEC_RES (p / 4)) := by
  have hm : min mode 3 % 2 ^ F.SDS_GRP_STAT_MODE_RES.w = min mode 3 := Nat.mod_eq_of_lt (show min mode 3 < 8 by omega)
  have hf : min fec 2 % 2 ^ F.SDS_GRP_STAT_FEC_RES.w = min fec 2 := Nat.mod_eq_of_lt (show min fec 2 < 4 by omega)
  unfold anApplied
  extract_lets t
  have h : OnlyRegs s t [(F.SDS_GRP_STAT_MODE_RES, p / 4), (F.SDS_GRP_STAT_FEC_RES, p / 4)] := by
    dsimp only [t]
    split
    · exact (OnlyRegs.refl s _).wr (.head _) _
    · exact .refl s _
  have hmode : t.rd F.SDS_GRP_STAT_MODE_RES (p / 4) =
      if s.rd F.SDS_GRP_CTL_MODE (p / 4) = 4 then min mode 3 else s.rd F.SDS_GRP_STAT_MODE_RES (p / 4) := by
    dsimp only [t]
    split
    · rw [rd_wr_same, hm]
    · rfl
  have hfec : t.rd F.SDS_GRP_STAT_FEC_RES (p / 4) = s.rd F.SDS_GRP_STAT_FEC_RES (p / 4) := by
    dsimp only [t]
    split
    · exact rd_wr_other s (by decide) (by decide) (by decide) _ _ _
    · rfl
  rw [h.2.rd rfl (p / 4), ← hmode, ← hfec]
  clear_value t
  split
  · exact ⟨h.wr (.tail _ (.head _)) _, rd_wr_other t (by decide) (by decide) (by decide) _ _ _, by rw [rd_wr_same, hf]⟩
  · exact ⟨h, rfl, rfl⟩

/-- A port that negotiates goes on to training at the rate resolved; the other ports of its group may start. -/
def anResolvedAs (s : State) (p mode fec : Nat) : State :=
  ((s.anApplied p mode fec).wr F.MAC_STAT_RATE ((s.anApplied p mode fec).rd F.SDS_GRP_STAT_MODE_RES (p / 4)) p).movePort p Port.training

/-! ### Lanes that have trained, and lanes that lock -/

/-- The fields in which the training of a lane shows. -/
def trainFlds : List Fld := [F.SDS_LN_STAT_TRAINED, F.SDS_LN_EQ_CTLE, F.SDS_LN_EQ_DFE1, F.SDS_LN_EQ_TX_POST, F.SDS_LN_EQ_TX_PRE]

theorem ethOnly_laneTrained (eq : List (List Nat)) (first : Nat) (l : Nat) : EthOnly s (laneTrained eq first s l) trainFlds := by
  unfold laneTrained
  exact (((((EthOnly.refl s _).wr (by simp [trainFlds]) _ l).wr (by simp [trainFlds]) _ l).wr (by simp [trainFlds]) _ l).wr
    (by simp [trainFlds]) _ l).wr (by simp [trainFlds]) _ l

/-- Every lane that has trained is marked so, and nothing of a lane without a register has changed. -/
theorem lanesTrained_facts (eq : List (List Nat)) (first : Nat) (ls : List Nat) : EthOnly s (ls.foldl (laneTrained eq first) s) trainFlds ∧
    (ls.foldl (laneTrained eq first) s).eth = s.eth ∧ ∀ l ∈ ls, (ls.foldl (laneTrained eq first) s).on F.SDS_LN_STAT_TRAINED l = true := by
  refine ⟨.foldl (fun t l => ethOnly_laneTrained eq first l) ls s, ?_, fun l hl => on_of_rd (v := 1) ?_⟩
  · induction ls generalizing s with
    | nil => rfl
    | cons l ls ih => exact ih (s := laneTrained eq first s l)
  · rw [rd_foldl_lanes (v := 1) _ _ ls s l, if_pos hl]
    · intro t l
      simp (disch := decide) [laneTrained, rd_wr_other]
    · intro t l k hk
      simp (disch := decide) [laneTrained, rd_wr_other]
      exact rd_wr_index t (by decide) hk 1

/-- The status of a lane at lock. -/
def laneLocked (s : State) (l : Nat) : State :=
  ((s.wr F.SDS_LN_STAT_CDR_LOCK 1 l).wr F.SDS_LN_STAT_BLOCK_LOCK 1 l).wr F.SDS_LN_STAT_SIG_DET 1 l

/-- The fields in which the lock of a lane shows. -/
def laneLockFlds : List Fld := [F.SDS_LN_STAT_CDR_LOCK, F.SDS_LN_STAT_BLOCK_LOCK, F.SDS_LN_STAT_SIG_DET]

/-- Every lane that locks shows it. -/
theorem lanesLocked_facts (ls : List Nat) : EthOnly s (ls.foldl laneLocked s) laneLockFlds ∧
    ∀ l ∈ ls, (ls.foldl laneLocked s).on F.SDS_LN_STAT_CDR_LOCK l = true ∧ (ls.foldl laneLocked s).on F.SDS_LN_STAT_BLOCK_LOCK l = true := by
  refine ⟨.foldl (fun t l => (((EthOnly.refl t _).wr (.head _) 1 l).wr (.tail _ (.head _)) 1 l).wr (.tail _ (.tail _ (.head _))) 1 l) ls s,
    fun l hl => ⟨on_of_rd (v := 1) ?_, on_of_rd (v := 1) ?_⟩⟩
  all_goals
    rw [rd_foldl_lanes (v := 1) _ _ ls s l, if_pos hl]
    · intro t l
      simp (disch := decide) [laneLocked, rd_wr_other]
    · intro t l k hk
      have hi (t : State) {f : Fld} (hf : f.no < 1024) : (t.wr f 1 l).rd f k = t.rd f k := rd_wr_index t hf hk 1
      simp (disch := decide) [laneLocked, rd_wr_other, hi]

/-- The lanes of a port are the same as long as the mode of its group is. -/
theorem portLanes_of_rd (h : t.rd F.SDS_GRP_STAT_MODE_RES (p / 4) = s.rd F.SDS_GRP_STAT_MODE_RES (p / 4)) : t.portLanes p = s.portLanes p := by
  rw [portLanes, portLanes, h]

/-! ### A link that is lost (R253) -/

/-- No fault ordered set is shown on port `p`. -/
def faultsCleared (s : State) (p : Nat) : State := (s.wr F.MAC_STAT_REMOTE_FAULT 0 p).wr F.MAC_STAT_LOCAL_FAULT 0 p

/-- The link of port `p` is lost: counted, live, and without lock on its lanes. -/
def linkLost (s : State) (p : Nat) : State :=
  (((s.faultsCleared p).inc F.MAC_CNT_LINK_DOWN_LINK_DOWN p).condOn 96 p).dropLanes ((s.faultsCleared p).portLanes p)

/-- The fields in which a lost link shows at once. -/
def linkLostFlds : List Fld :=
  [F.MAC_STAT_REMOTE_FAULT, F.MAC_STAT_LOCAL_FAULT, F.MAC_CNT_LINK_DOWN_LINK_DOWN] ++ laneLostFlds

theorem linkLost_facts : EthOnly s (s.linkLost p) linkLostFlds ∧
    (s.linkLost p).rd F.MAC_CNT_LINK_DOWN_LINK_DOWN p =
      satU F.MAC_CNT_LINK_DOWN_LINK_DOWN.w (s.rd F.MAC_CNT_LINK_DOWN_LINK_DOWN p + 1) ∧
    (s.linkLost p).condHolds 96 p = true ∧ ∀ l ∈ s.portLanes p, (s.linkLost p).on F.SDS_LN_STAT_CDR_LOCK l = false := by
  obtain ⟨t, ht⟩ : ∃ t, ((s.faultsCleared p).inc F.MAC_CNT_LINK_DOWN_LINK_DOWN p).condOn 96 p = t := ⟨_, rfl⟩
  have h : EthOnly s t linkLostFlds := by
    rw [← ht]
    exact ((((EthOnly.refl s _).wr (by simp [linkLostFlds]) 0 p).wr (by simp [linkLostFlds]) 0 p).wr (by simp [linkLostFlds]) _ p).condOn 96 p
  have hcnt : t.rd F.MAC_CNT_LINK_DOWN_LINK_DOWN p =
      satU F.MAC_CNT_LINK_DOWN_LINK_DOWN.w (s.rd F.MAC_CNT_LINK_DOWN_LINK_DOWN p + 1) := by
    rw [← ht]
    simp (disch := decide) [faultsCleared, rd_wr_other, satU_mod]
  have hc : t.condHolds 96 p = true := by rw [← ht, condHolds_condOn]
  have hl : (s.faultsCleared p).portLanes p = s.portLanes p :=
    portLanes_of_rd (by simp (disch := decide) [faultsCleared, rd_wr_other])
  rw [linkLost, ht, hl]
  obtain ⟨k, -, kf, hl⟩ := dropLanes_facts (s := t) (s.portLanes p)
  exact ⟨h.trans (k.mono (List.subset_append_right _ _)), (k.rd rfl p).trans hcnt, (condHolds_of_fcu kf 96 p).trans hc, hl⟩

theorem bringUp_keeps (hc : s.condHolds 96 p = true) : (s.bringUp p).condHolds 96 p = true := by
  refine movePort_keeps ?_ hc
  split <;> decide

end State
end Sys2Proof.Machine

namespace Sys2Proof.Machine

section
variable {s : State} {p : Nat} (hp : p < 32)
include hp

/-! ### Negotiation and training -/

theorem execAnResolved_eq (mode fec : Nat) (hs : s.portState p = 1) : execAnResolved p mode fec s = done
    (if s.rd F.SDS_GRP_CTL_MODE (p / 4) = 4 then (s.anResolvedAs p mode fec).startPorts (p / 4) else s.anResolvedAs p mode fec) := by
  rw [execAnResolved, if_neg (not_or.mpr ⟨by omega, by rw [hs]; decide⟩), State.anResolvedAs, State.anApplied]

theorem anResolved_settles (mode fec : Nat) (hs : s.portState p = 1) : Settles (.anResolved p mode fec) s (fun u => u.portState p = 2 ∧
    u.rd F.MAC_STAT_RATE p = u.rd F.SDS_GRP_STAT_MODE_RES (p / 4) % 4 ∧
    u.rd F.SDS_GRP_STAT_MODE_RES (p / 4) = (if s.rd F.SDS_GRP_CTL_MODE (p / 4) = 4 then min mode 3 else s.rd F.SDS_GRP_STAT_MODE_RES (p / 4)) ∧
    u.rd F.SDS_GRP_STAT_FEC_RES (p / 4) = (if s.rd F.SDS_GRP_CTL_FEC (p / 4) = 3 then min fec 2 else s.rd F.SDS_GRP_STAT_FEC_RES (p / 4)) ∧
    u.mem = s.mem ∧ u.ridge = s.ridge) := by
  obtain ⟨h, hmode, hfec⟩ := State.anApplied_facts (s := s) (p := p) mode fec
  have hx := execAnResolved_eq hp mode fec hs
  rw [State.anResolvedAs] at hx
  generalize s.anApplied p mode fec = t at h hmode hfec hx
  obtain ⟨k, -, -, hq⟩ := State.movePort_facts (s := t.wr F.MAC_STAT_RATE (t.rd F.SDS_GRP_STAT_MODE_RES (p / 4)) p) (p := p) (st := Port.training)
    (by decide)
  have k' : EthOnly t ((t.wr F.MAC_STAT_RATE (t.rd F.SDS_GRP_STAT_MODE_RES (p / 4)) p).movePort p Port.training) State.portStartFlds :=
    ((EthOnly.refl t _).wr (.head _) _ p).trans (k.mono (List.subset_cons_self _ _))
  have hst := (hq p).trans (if_pos rfl)
  have hrate := (k.rd (f := F.MAC_STAT_RATE) rfl p).trans (State.rd_wr_same t _ _ p)
  generalize (t.wr F.MAC_STAT_RATE (t.rd F.SDS_GRP_STAT_MODE_RES (p / 4)) p).movePort p Port.training = v at k' hst hrate hx
  obtain ⟨j, -, -, hkeep⟩ := State.startFirst_facts (s := v) (p / 4) 4
  obtain ⟨hst', hrate'⟩ := hkeep p (by rw [hst]; decide)
  refine ⟨_, (exec_anResolved p mode fec s).trans hx, ?_⟩
  rw [← hmode, ← hfec]
  split
  · exact ⟨hst'.trans hst, hrate'.trans (hrate.trans (by rw [State.startPorts_eq, j.rd rfl, k'.rd rfl]; rfl)), (j.rd rfl _).trans (k'.rd rfl _),
      (j.rd rfl _).trans (k'.rd rfl _), j.mem.trans (k'.mem.trans h.mem), j.ridge.trans (k'.ridge.trans h.ridge)⟩
  · exact ⟨hst, hrate.trans (by rw [k'.rd rfl]; rfl), k'.rd rfl _, k'.rd rfl _, k'.mem.trans h.mem, k'.ridge.trans h.ridge⟩

theorem anTimeout_settles (hs : s.portState p = 1) : Settles (.anTimeout p) s (fun u => u.staged 98 p ∧ OnlyRegsFcu s u []) :=
  ⟨_, (exec_anTimeout p s).trans (if_pos ⟨hp, hs⟩), List.mem_append_right _ (.head _), rfl, (RegsBut.refl s _).same rfl⟩

theorem trainingDone_settles (eq : List (List Nat)) (hs : s.portState p = 2) : Settles (.trainingDone p eq) s (fun u => u.portState p = 3 ∧
    (∀ l ∈ s.portLanes p, u.on F.SDS_LN_STAT_TRAINED l = true) ∧ u.mem = s.mem ∧ u.ridge = s.ridge ∧ u.eth = s.eth) := by
  obtain ⟨h, he, ht⟩ := State.lanesTrained_facts (s := s) eq p (s.portLanes p)
  have hx : execTrainingDone p eq s = done (((s.portLanes p).foldl (State.laneTrained eq p) s).movePort p Port.align) := if_pos ⟨hp, hs⟩
  generalize (s.portLanes p).foldl (State.laneTrained eq p) s = t at h he ht hx
  obtain ⟨k, ke, -, hq⟩ := State.movePort_facts (s := t) (p := p) (st := Port.align) (by decide)
  exact ⟨_, (exec_trainingDone p eq s).trans hx, (hq p).trans (if_pos rfl), fun l hl => (k.on rfl l).trans (ht l hl), k.mem.trans h.mem,
    k.ridge.trans h.ridge, ke.trans he⟩

theorem trainingTimeout_settles (hs : s.portState p = 2) : Settles (.trainingTimeout p) s (fun u => u.portState p = 1 ∧ u.staged 98 p ∧
    u.mem = s.mem ∧ u.ridge = s.ridge ∧ u.eth = s.eth) := by
  obtain ⟨k, ke, ko, hq⟩ := State.movePort_facts (s := s.raise 98 p) (p := p) (st := Port.an) (by decide)
  exact ⟨_, (exec_trainingTimeout p s).trans (if_pos ⟨hp, hs⟩), (hq p).trans (if_pos rfl), ko _ (List.mem_append_right _ (.head _)),
    k.mem, k.ridge, ke⟩

/-! ### Lock -/

theorem alignLock_settles (corr : List (Int × Int)) (hs : s.portState p = 3) : Settles (.alignLock p corr) s (fun u => u.portState p = 4 ∧
    u.condHolds 96 p = false ∧
    (∀ l ∈ s.portLanes p, u.on F.SDS_LN_STAT_CDR_LOCK l = true ∧ u.on F.SDS_LN_STAT_BLOCK_LOCK l = true) ∧
    u.rd F.PM_STAT_CORR_GEN (p / 4) = (s.rd F.PM_STAT_CORR_GEN (p / 4) + 1) % 2 ^ F.PM_STAT_CORR_GEN.w ∧ u.mem = s.mem ∧ u.ridge = s.ridge) := by
  obtain ⟨h, hl⟩ := State.lanesLocked_facts (s := s) (s.portLanes p)
  have hx : execAlignLock p corr s = done ((((s.portLanes p).foldl State.laneLocked s).reloadPort p corr).movePort p Port.up) :=
    if_neg (not_or.mpr ⟨by omega, fun k => k hs⟩)
  generalize (s.portLanes p).foldl State.laneLocked s = t at h hl hx
  obtain ⟨k, hgen⟩ := State.reloadPort_facts (s := t) (p := p) corr
  generalize t.reloadPort p corr = v at k hgen hx
  obtain ⟨j, -, -, hq⟩ := State.movePort_facts (s := v) (p := p) (st := Port.up) (by decide)
  refine ⟨_, (exec_alignLock p corr s).trans hx, (hq p).trans (if_pos rfl), State.movePort_ends ?_ (.inl rfl), fun l hm => ?_, ?_,
    j.mem.trans (k.mem.trans h.mem), j.ridge.trans (k.ridge.trans h.ridge)⟩
  · rw [State.portState, k.rd rfl, h.rd rfl, ← State.portState, hs]
    decide
  · obtain ⟨hc, hb⟩ := hl l hm
    exact ⟨(j.on rfl l).trans ((k.on rfl l).trans hc), (j.on rfl l).trans ((k.on rfl l).trans hb)⟩
  · rw [j.rd rfl, hgen, h.rd rfl]

theorem alignTimeout_settles (hs : s.portState p = 3) : Settles (.alignTimeout p) s (fun u =>
    u.portState p = (if s.rd F.SDS_GRP_STAT_PMD_RES (p / 4) ≤ 1 then 1 else 3) ∧ u.mem = s.mem ∧ u.ridge = s.ridge ∧ u.eth = s.eth) := by
  obtain ⟨k, ke, -, hq⟩ := State.bringUp_facts (s := s) (p := p)
  exact ⟨_, (exec_alignTimeout p s).trans (if_pos ⟨hp, hs⟩), (hq p).trans (if_pos rfl), k.mem, k.ridge, ke⟩

/-! ### Faults, and the loss of the link -/

theorem linkFaultRx_settles (remote : Bool) (hs : s.portState p = 4) : Settles (.linkFaultRx p remote) s (fun u => u.portState p = 5 ∧
    u.on (if remote then F.MAC_STAT_REMOTE_FAULT else F.MAC_STAT_LOCAL_FAULT) p = true ∧ u.staged 97 p ∧ u.mem = s.mem ∧
    u.ridge = s.ridge ∧ u.eth = s.eth) := by
  obtain ⟨k, ke, -, hq⟩ := State.movePort_facts (s := s.wr (if remote then F.MAC_STAT_REMOTE_FAULT else F.MAC_STAT_LOCAL_FAULT) 1 p) (p := p)
    (st := Port.fault) (by decide)
  refine ⟨_, (exec_linkFaultRx p remote s).trans (if_neg (not_or.mpr ⟨by omega, fun h => h hs⟩)), (hq p).trans (if_pos rfl), ?_,
    List.mem_append_right _ (.head _), k.mem, k.ridge, ke⟩
  cases remote
  · exact (k.on (f := F.MAC_STAT_LOCAL_FAULT) rfl p).trans (State.on_of_rd (v := 1) (State.rd_wr_same s _ 1 p))
  · exact (k.on (f := F.MAC_STAT_REMOTE_FAULT) rfl p).trans (State.on_of_rd (v := 1) (State.rd_wr_same s _ 1 p))

theorem linkFaultClear_settles (hs : s.portState p = 5) : Settles (.linkFaultClear p) s (fun u => u.portState p = 4 ∧
    u.on F.MAC_STAT_REMOTE_FAULT p = false ∧ u.on F.MAC_STAT_LOCAL_FAULT p = false ∧ u.mem = s.mem ∧ u.ridge = s.ridge ∧ u.eth = s.eth) := by
  obtain ⟨k, ke, -, hq⟩ := State.movePort_facts (s := s.faultsCleared p) (p := p) (st := Port.up) (by decide)
  refine ⟨_, (exec_linkFaultClear p s).trans (if_neg (not_or.mpr ⟨by omega, fun h => h hs⟩)), (hq p).trans (if_pos rfl), ?_, ?_,
    k.mem, k.ridge, ke⟩
  · refine (k.on rfl p).trans (State.on_of_rd (v := 0) ?_)
    exact (State.rd_wr_other _ (by decide) (by decide) (by decide) 0 p p).trans (State.rd_wr_same s _ 0 p)
  · exact (k.on rfl p).trans (State.on_of_rd (v := 0) (State.rd_wr_same _ _ 0 p))

theorem linkDown_settles (hs : s.portState p = 4 ∨ s.portState p = 5) : Settles (.linkDown p) s (fun u =>
    u.portState p = (if s.rd F.SDS_GRP_STAT_PMD_RES (p / 4) ≤ 1 then 1 else 3) ∧
    u.rd F.MAC_CNT_LINK_DOWN_LINK_DOWN p = satU F.MAC_CNT_LINK_DOWN_LINK_DOWN.w (s.rd F.MAC_CNT_LINK_DOWN_LINK_DOWN p + 1) ∧
    u.condHolds 96 p = true ∧ (∀ l ∈ s.portLanes p, u.on F.SDS_LN_STAT_CDR_LOCK l = false) ∧ u.mem = s.mem ∧ u.ridge = s.ridge) := by
  obtain ⟨h, hcnt, hc, hl⟩ := State.linkLost_facts (s := s) (p := p)
  have hx : execLinkDown p s = done ((((s.linkLost p).portLanes p).foldl State.abandonReadapt (s.linkLost p)).clearPause p |>.bringUp p) :=
    if_neg (not_or.mpr ⟨by omega, by rcases hs with e | e <;> rw [e] <;> decide⟩)
  generalize s.linkLost p = t at h hcnt hc hl hx
  have k : EthOnly t ((t.portLanes p).foldl State.abandonReadapt t) State.adaptEndFlds :=
    .foldl (fun t l => State.abandonReadapt_facts.1) _ t
  have kf : FaultsKept t ((t.portLanes p).foldl State.abandonReadapt t) := .foldl (fun t l => State.abandonReadapt_facts.2) _ t
  generalize (t.portLanes p).foldl State.abandonReadapt t = v at k kf hx
  obtain ⟨j, jf, -, -⟩ := State.clearPause_facts (s := v) (p := p)
  obtain ⟨b, -, -, hq⟩ := State.bringUp_facts (s := v.clearPause p) (p := p)
  refine ⟨_, (exec_linkDown p s).trans hx, (hq p).trans ((if_pos rfl).trans ?_), ?_, ?_, fun l hm => ?_, ?_, ?_⟩
  · rw [State.firstState, j.rd rfl, k.rd rfl, h.rd rfl]
  · rw [b.rd rfl, j.rd rfl, k.rd rfl, hcnt]
  · have hv : (v.clearPause p).condHolds 96 p = true := (State.condHolds_of_fcu jf 96 p).trans (State.condHolds_of_kept kf hc)
    exact State.bringUp_keeps hv
  · rw [b.on rfl, j.on rfl, k.on rfl, hl l hm]
  · exact b.mem.trans (j.mem.trans (k.mem.trans h.mem))
  · exact b.ridge.trans (j.ridge.trans (k.ridge.trans h.ridge))

/-! ### Corrections -/

theorem corrReload_settles (sk cdr : Int) (hs : s.portState p = 4) (hm : s.rd F.SDS_GRP_STAT_MODE_RES (p / 4) ≠ 0) :
    Settles (.corrReload p [(sk, cdr)]) s (fun u => u.rd F.PM_LN_RXSKEW_VALUE p = ofS F.PM_LN_RXSKEW_VALUE.w sk ∧
      u.rd F.PM_LN_RXLAT_VALUE p = ofS F.PM_LN_RXLAT_VALUE.w ((s.lane p).lat0 + cdr) ∧
      u.rd F.PM_STAT_CORR_GEN (p / 4) = (s.rd F.PM_STAT_CORR_GEN (p / 4) + 1) % 2 ^ F.PM_STAT_CORR_GEN.w ∧
      RegsBut s u [(F.PM_LN_RXSKEW_VALUE, p), (F.PM_LN_RXLAT_VALUE, p), (F.PM_STAT_CORR_GEN, p / 4)] ∧ u.mem = s.mem) := by
  have hl : s.portLanes p = [p] := if_neg hm
  have hx : execCorrReload p [(sk, cdr)] s = done ((s.reloadLane p sk cdr).bump F.PM_STAT_CORR_GEN (p / 4)) := by
    rw [execCorrReload, if_pos ⟨hp, hs⟩, State.reloadPort, hl]
    rfl
  obtain ⟨h, hr, -⟩ := State.reloadLane_facts (s := s) p sk cdr
  have hb : RegsBut s (s.reloadLane p sk cdr) [(F.PM_LN_RXSKEW_VALUE, p), (F.PM_LN_RXLAT_VALUE, p), (F.PM_STAT_CORR_GEN, p / 4)] :=
    RegsBut.same (((RegsBut.refl s _).wr (.head _) _).wr (.tail _ (.head _)) _) hr
  refine ⟨_, (exec_corrReload p _ s).trans hx, ?_, ?_, ?_, hb.wr (.tail _ (.tail _ (.head _))) _, h.mem⟩
  · rw [State.bump_eq, State.rd_wr_other _ (by decide) (by decide) (by decide), State.rd_rxskew_reloadLane]
  · rw [State.bump_eq, State.rd_wr_other _ (by decide) (by decide) (by decide), State.rd_rxlat_reloadLane]
  · rw [State.bump_eq, State.rd_wr_same, h.rd rfl]

end
end Sys2Proof.Machine

/-! ## What a received frame leaves of its link (R253, R262)

A link is seen as the states of the ports and their counts of received frames, together with the Ridge. Whatever takes a received frame,
a unit of the device or the host, leaves this view as it is: the frame has been counted before. -/

namespace Sys2Proof.Machine

/-- The fields of a link that say its state and count the frames received. -/
def linkFlds : List Fld := [F.MAC_STAT_STATE, F.MAC_CNT_RX_FRAMES_RX_FRAMES, F.MAC_CNT_RX_ERR_RX_ERR]

/-- Field `f` is none of the fields of a link. -/
def Fld.offLink (f : Fld) : Bool := f.off linkFlds

/-- The entries of the fields of a link in a register store, by port. -/
def linkRegs (l : List (Nat × Nat)) (p : Nat) : List (Option Nat) := linkFlds.map (fun f => kvGet l (f.key p))

/-- The links: the Ridge that stamps their frames, and the entries of their fields. -/
structure LinkView where
  ridge : RidgeSt
  reg : Nat → List (Option Nat)

/-- The links as they stand in `s`. -/
def State.linkView (s : State) : LinkView := ⟨s.ridge, linkRegs s.regs⟩

theorem linkRegs_congr {l m : List (Nat × Nat)} (h : ∀ f ∈ linkFlds, ∀ p, kvGet l (f.key p) = kvGet m (f.key p)) : linkRegs l = linkRegs m :=
  funext fun p => List.map_congr_left fun f hf => h f hf p

theorem Fld.key_ne_of_offLink {f g : Fld} (hf : f.offLink = true) (hg : g ∈ linkFlds) (i p : Nat) : g.key p ≠ f.key i := by
  have h := Fld.ne_of_off hf hg
  exact Fld.key_ne (Fld.lt_of_off hf) h.1 (.inl (Ne.symm h.2))

namespace State
variable (s : State)

/-- What the view holds of a link's fields is what they read. -/
theorem rd_of_linkView {s t : State} (h : t.linkView = s.linkView) {f : Fld} (hf : f ∈ linkFlds) (p : Nat) : t.rd f p = s.rd f p := by
  have e : linkRegs t.regs p = linkRegs s.regs p := congrFun (congrArg LinkView.reg h) p
  have k : kvGet t.regs (f.key p) = kvGet s.regs (f.key p) := List.map_inj_left.mp e f hf
  rw [rd, rd, k]

theorem ridge_of_linkView {s t : State} (h : t.linkView = s.linkView) : t.ridge = s.ridge := congrArg LinkView.ridge h

/-- A state written out shows the links of the two parts that hold them. -/
@[simp ↓] theorem linkView_mk (a b c d e f g h i j k l m n o p q r t u v w x y z) :
    (State.mk a b c d e f g h i j k l m n o p q r t u v w x y z).linkView = ⟨l, linkRegs b⟩ := rfl

@[simp ↓] theorem mk_linkView : LinkView.mk s.ridge (linkRegs s.regs) = s.linkView := rfl

@[simp ↓] theorem linkView_ite (c : Prop) [Decidable c] (s t : State) :
    (if c then s else t).linkView = if c then s.linkView else t.linkView := apply_ite _ _ _ _

/-- Of a choice between two views simp looks at the views alone. -/
@[congr] theorem ite_linkView_congr {c : Prop} [Decidable c] {a a' b b' : LinkView} (h : a = a') (k : b = b') :
    (if c then a else b) = if c then a' else b' := by rw [h, k]

theorem linkView_foldl {α : Type} {f : State → α → State} (h : ∀ s x, (f s x).linkView = s.linkView) (l : List α) :
    (l.foldl f s).linkView = s.linkView := by
  induction l generalizing s with
  | nil => rfl
  | cons x t ih => exact (ih (f s x)).trans (h s x)

/-! ### The operations of the state -/

section
variable {f : Fld} (hf : f.offLink = true)
include hf

@[simp ↓] theorem linkView_wr (v i : Nat) : (s.wr f v i).linkView = s.linkView :=
  congrArg (LinkView.mk s.ridge) (linkRegs_congr fun _ hg p => kvGet_regsPut_ne _ (Fld.key_ne_of_offLink hf hg i p) v)

@[simp ↓] theorem linkView_wrB (b : Bool) (i : Nat) : (s.wrB f b i).linkView = s.linkView := linkView_wr s hf _ i
@[simp ↓] theorem linkView_wrSat (v i : Nat) : (s.wrSat f v i).linkView = s.linkView := linkView_wr s hf _ i
@[simp ↓] theorem linkView_inc (i n : Nat) : (s.inc f i n).linkView = s.linkView := linkView_wr s hf _ i

end

@[simp ↓] theorem linkView_mwr (a n v : Nat) : (s.mwr a n v).linkView = s.linkView := rfl
@[simp ↓] theorem linkView_emit (o : Out) : (s.emit o).linkView = s.linkView := rfl
@[simp ↓] theorem linkView_raise (fs n : Nat) : (s.raise fs n).linkView = s.linkView := rfl

@[simp ↓] theorem linkView_condOn (fs n : Nat) : (s.condOn fs n).linkView = s.linkView := by
  simp only [linkView, condOn_regs, condOn_ridge]

@[simp ↓] theorem linkView_mput (a : Nat) (l : List Nat) : (s.mput a l).linkView = s.linkView :=
  linkView_foldl s (f := fun s (b : Nat × Nat) => { s with mem := memPut s.mem (a + b.2) (BitVec.ofNat 8 b.1) }) (fun _ _ => rfl) _

@[simp ↓] theorem linkView_raiseOnce (fs p n : Nat) : (s.raiseOnce fs p n).linkView = s.linkView := by
  unfold raiseOnce
  simp

@[simp ↓] theorem linkView_setPrt (p : Nat) (x : PortSt) : (s.setPrt p x).linkView = s.linkView := rfl
@[simp ↓] theorem linkView_setPmg (g : Nat) (x : PmSt) : (s.setPmg g x).linkView = s.linkView := rfl
@[simp ↓] theorem linkView_setPdl (p : Nat) (x : PdelaySt) : (s.setPdl p x).linkView = s.linkView := rfl
@[simp ↓] theorem linkView_setCli (c : Nat) (x : ClientSt) : (s.setCli c x).linkView = s.linkView := rfl

/-! ### Frames that go out, and frames for the host (R263, R270, R427) -/

@[simp ↓] theorem linkView_sendFrame (p : Nat) (b : List Nat) : (s.sendFrame p b).linkView = s.linkView := by
  unfold sendFrame
  simp (disch := decide)

@[simp ↓] theorem linkView_flowControl (p : Nat) : (s.flowControl p).linkView = s.linkView := by
  unfold flowControl
  dsimp only
  simp

@[simp ↓] theorem linkView_rxServe (g : Nat) : (s.rxServe g).linkView = s.linkView := by
  unfold rxServe
  split
  · dsimp only
    simp (disch := decide)
  · rfl

@[simp ↓] theorem linkView_rxDrain (n g : Nat) : (rxDrain n s g).linkView = s.linkView := by
  induction n generalizing s with
  | zero => rfl
  | succ n ih =>
    unfold rxDrain
    split
    · rw [ih, linkView_rxServe]
    · rfl

@[simp ↓] theorem linkView_bufferFrame (p : Nat) (f : HostFrame) : (s.bufferFrame p f).linkView = s.linkView := by
  unfold bufferFrame
  dsimp only
  simp (disch := decide)

@[simp ↓] theorem linkView_postmark (g : Nat) (m : Postmark) : (s.postmark g m).linkView = s.linkView := by
  unfold postmark
  dsimp only
  simp (disch := decide)

@[simp ↓] theorem linkView_toHost (p : Nat) (f : RxFrame) (ev : Bool) : (s.toHost p f ev).linkView = s.linkView := by
  unfold toHost deliverHost
  dsimp only
  simp

end State
end Sys2Proof.Machine

namespace Sys2Proof.Machine
namespace State
variable (s : State)

/-! ### Pauses and ESMC -/

@[simp ↓] theorem linkView_showPause (p : Nat) : (s.showPause p).linkView = s.linkView := by
  unfold showPause
  simp (disch := decide)

@[simp ↓] theorem linkView_pauseRx (p : Nat) (l : List Nat) : (s.pauseRx p l).linkView = s.linkView := by
  unfold pauseRx
  dsimp only
  simp (disch := decide)

@[simp ↓] theorem linkView_setQlRx (g q : Nat) : (s.setQlRx g q).linkView = s.linkView := by
  unfold setQlRx
  simp (disch := decide)

@[simp ↓] theorem linkView_esmcRx (p : Nat) (l : List Nat) : (s.esmcRx p l).linkView = s.linkView := by
  unfold esmcRx
  dsimp only
  simp (disch := decide)

/-! ### Authentication and answers (R319 to R321, R336, R337, R388) -/

@[simp ↓] theorem linkView_countEvent (p : Nat) : (s.countEvent p).linkView = s.linkView := by
  unfold countEvent
  simp (disch := decide)

@[simp ↓] theorem linkView_incRec16 (a : Nat) : (s.incRec16 a).linkView = s.linkView := rfl

@[simp ↓] theorem linkView_learnPeer (n : Nat) (m : List Nat) : (s.learnPeer n m).linkView = s.linkView := by
  unfold learnPeer
  simp

@[simp ↓] theorem linkView_refuse (p : Nat) (sess : Option Nat) (fault : Bool) : (s.refuse p sess fault).linkView = s.linkView := by
  unfold refuse
  cases sess <;> simp (disch := decide)

/-- A message that fails authentication counts on its port and in its session's record. -/
@[simp ↓] theorem linkView_authRx (p : Nat) (sess : Option Nat) (req : Bool) (m : List Nat) : (s.authRx p sess req m).1.linkView = s.linkView := by
  unfold authRx
  extract_lets fail note
  have hf (t : State) : (fail t).1.linkView = t.linkView := by
    dsimp only [fail]
    cases sess <;> simp (disch := decide)
  have hn (t : State) (k : Option Nat) (o : Nat) : (note t k o).linkView = t.linkView := by
    cases k <;> rfl
  split
  · split
    · exact hf s
    · rfl
  · exact hn s _ 8
  · exact (hf _).trans (hn s _ 12)

@[simp ↓] theorem linkView_admitPtp (p kind i : Nat) (f : RxFrame) (sess : Option Nat) (sa : Nat) :
    (s.admitPtp p kind i f sess sa).linkView = s.linkView := rfl

@[simp ↓] theorem linkView_authWithheld (p k : Nat) : (s.authWithheld p k).linkView = s.linkView := by
  unfold authWithheld
  simp (disch := decide)

@[simp ↓] theorem linkView_sendPtp (p : Nat) (b : List Nat) : (s.sendPtp p b).linkView = s.linkView := by
  unfold sendPtp
  simp (disch := decide)

/-! ### Messages of the engine (R312, R313, R319, R320) -/

@[simp ↓] theorem linkView_delayReqRx (p : Nat) (f : RxFrame) (tr : Nat) (m : List Nat) (pred : Nat) :
    (s.delayReqRx p f tr m pred).linkView = s.linkView := by
  unfold delayReqRx
  dsimp only
  cases (s.countEvent p).instOf p tr m with
  | none => simp
  | some i =>
    dsimp only
    cases (s.countEvent p).dreqMatch p i tr f with
    | none => simp
    | some sess => cases sess <;> simp

@[simp ↓] theorem linkView_pdelayReqRx (p : Nat) (f : RxFrame) (tr : Nat) (m : List Nat) (pred : Nat) :
    (s.pdelayReqRx p f tr m pred).linkView = s.linkView := by
  unfold pdelayReqRx
  dsimp only
  cases (s.countEvent p).instOf p tr m <;> simp

@[simp ↓] theorem linkView_showPdelay (p : Nat) : (s.showPdelay p).linkView = s.linkView := by
  unfold showPdelay
  dsimp only
  simp (disch := decide)

@[simp ↓] theorem linkView_pdelayDone (p t1 t4 : Nat) (turn : Int) : (s.pdelayDone p t1 t4 turn).linkView = s.linkView := by
  unfold pdelayDone
  simp

@[simp ↓] theorem linkView_pdelayRespRx (p : Nat) (f : RxFrame) (m : List Nat) : (s.pdelayRespRx p f m).linkView = s.linkView := by
  unfold pdelayRespRx
  extract_lets type t x
  have ht : t.linkView = s.linkView := by
    dsimp only [t]
    simp
  clear_value t x
  cases x.out with
  | none => exact ht
  | some q =>
    dsimp only
    cases x.rsp <;> simp [ht]

@[simp ↓] theorem linkView_setPtpState (i p st : Nat) : (s.setPtpState i p st).linkView = s.linkView := by
  unfold setPtpState
  split <;> simp (disch := decide)

@[simp ↓] theorem linkView_foreignRx (i p : Nat) (m : List Nat) : (s.foreignRx i p m).linkView = s.linkView := by
  unfold foreignRx
  dsimp only
  simp (disch := decide)

/-! ### Clients (R338, R339, R367, Table PTP-10) -/

@[simp ↓] theorem linkView_cliAuth (c p : Nat) (m : List Nat) : (s.cliAuth c p m).1.linkView = s.linkView := by
  unfold cliAuth
  dsimp only
  split <;> simp

@[simp ↓] theorem linkView_setCliState (c st : Nat) : (s.setCliState c st).linkView = s.linkView := by
  unfold setCliState
  simp (disch := decide)

@[simp ↓] theorem linkView_cliListen (c : Nat) : (s.cliListen c).linkView = s.linkView := by
  unfold cliListen
  simp

@[simp ↓] theorem linkView_cliSend (c : Nat) (m : List Nat) : (s.cliSend c m).1.linkView = s.linkView := by
  unfold cliSend
  dsimp only
  split
  · rfl
  · split <;> simp

@[simp ↓] theorem linkView_cliSignal (c : Nat) (tlvs : List Nat) : (s.cliSignal c tlvs).linkView = s.linkView := by
  unfold cliSignal
  dsimp only
  simp

@[simp ↓] theorem linkView_cliAsk (c : Nat) (l : List Nat) : (s.cliAsk c l).linkView = s.linkView := by
  unfold cliAsk
  simp

@[simp ↓] theorem linkView_cliAnnounce (c p : Nat) (m : List Nat) : (s.cliAnnounce c p m).linkView = s.linkView := by
  unfold cliAnnounce
  dsimp only
  simp (disch := decide)

@[simp ↓] theorem linkView_cliMsg (c p : Nat) (f : RxFrame) (m : List Nat) : (s.cliMsg c p f m).linkView = s.linkView := by
  unfold cliMsg
  extract_lets type t r u x t2
  have ht : t.linkView = s.linkView := by
    dsimp only [t]
    simp
  have hu : u.linkView = s.linkView := (linkView_cliAuth t c p m).trans ht
  have hset (y : ClientSt) : (u.setCli c y).linkView = s.linkView := (linkView_setCli u c y).trans hu
  split_ifs
  · exact hu
  · exact hset _
  · exact hset _
  · split
    · split
      · exact hset _
      · exact hu
    · exact hu
  · exact hu
  · split
    · exact hset _
    · exact hu

@[simp ↓] theorem linkView_ntpResponse (c p : Nat) (f : RxFrame) (m : List Nat) : (s.ntpResponse c p f m).linkView = s.linkView := by
  unfold ntpResponse
  dsimp only
  split
  · rfl
  · simp (disch := decide)

/-! ### Negotiation (R330, R331) -/

@[simp ↓] theorem linkView_noteSess (n : Nat) : (s.noteSess n).linkView = s.linkView := by
  unfold noteSess
  simp

@[simp ↓] theorem linkView_setGrant (n t : Nat) (log : Int) (left : Nat) : (s.setGrant n t log left).linkView = s.linkView := by
  unfold setGrant
  simp

@[simp ↓] theorem linkView_endGrant (n t : Nat) : (s.endGrant n t).linkView = s.linkView := by
  unfold endGrant
  simp

@[simp ↓] theorem linkView_cliGrant (c : Nat) (m : List Nat) : (s.cliGrant c m).linkView = s.linkView := by
  unfold cliGrant
  refine linkView_foldl s (fun t o => ?_) _
  dsimp only
  split <;> simp

@[simp ↓] theorem linkView_cliCancelled (c : Nat) (m : List Nat) : (s.cliCancelled c m).linkView = s.linkView := by
  unfold cliCancelled
  refine (linkView_cliSignal _ c _).trans (linkView_foldl s (fun t q => ?_) _)
  split <;> simp

@[simp ↓] theorem linkView_advanceSig (n : Option Nat) : (s.advanceSig n).linkView = s.linkView := by
  cases n <;> rfl

@[simp ↓] theorem linkView_signalBack (i p tr : Nat) (f : RxFrame) (n : Option Nat) (tlvs : List Nat) :
    (s.signalBack i p tr f n tlvs).linkView = s.linkView := by
  unfold signalBack
  split
  · rfl
  · dsimp only
    split <;> simp

@[simp ↓] theorem linkView_sigAuth (i p tr : Nat) (f : RxFrame) (m : List Nat) : (s.sigAuth i p tr f m).1.linkView = s.linkView :=
  linkView_authRx s p _ _ m

@[simp ↓] theorem linkView_requestRx (p : Nat) (f : RxFrame) (tr : Nat) (m : List Nat) : (s.requestRx p f tr m).linkView = s.linkView := by
  unfold requestRx
  split
  · rfl
  · dsimp only
    simp

@[simp ↓] theorem linkView_cancelRx (p : Nat) (f : RxFrame) (tr : Nat) (m : List Nat) : (s.cancelRx p f tr m).linkView = s.linkView := by
  unfold cancelRx
  split
  · rfl
  · dsimp only
    split_ifs
    · rfl
    · exact linkView_sigAuth s _ p tr f m
    · exact (linkView_signalBack _ _ p tr f _ _).trans
        ((linkView_foldl _ (fun t q => by split <;> simp) _).trans (linkView_sigAuth s _ p tr f m))

/-! ### Requests of NTP and NTS (R343, R344, R354 to R360) -/

@[simp ↓] theorem linkView_ntpRefuse (p : Nat) : (s.ntpRefuse p).linkView = s.linkView := by
  unfold ntpRefuse
  simp (disch := decide)

@[simp ↓] theorem linkView_ntpOther (p : Nat) (f : RxFrame) : (s.ntpOther p f).linkView = s.linkView := by
  unfold ntpOther
  simp

@[simp ↓] theorem linkView_admitNtp (p kind d : Nat) (f : RxFrame) (keys : List (List Nat)) (uses : List (Nat × Nat)) :
    (s.admitNtp p kind d f keys uses).linkView = s.linkView := rfl

@[simp ↓] theorem linkView_ntsNak (p d : Nat) (f : RxFrame) (fs : Option Nat) : (s.ntsNak p d f fs).linkView = s.linkView := by
  unfold ntsNak
  cases fs <;> simp (disch := decide)

@[simp ↓] theorem linkView_ntsAdmit (p d : Nat) (f : RxFrame) (m : List Nat) (x : List Nat × List Nat × Nat × Nat) :
    (s.ntsAdmit p d f m x).linkView = s.linkView := by
  unfold ntsAdmit
  split
  · rfl
  · split
    · simp
    · split
      · simp
      · dsimp only
        split <;> simp

@[simp ↓] theorem linkView_ntpDatagram (p : Nat) (f : RxFrame) (u : Udp) (pred : Nat) : (s.ntpDatagram p f u pred).linkView = s.linkView := by
  unfold ntpDatagram
  split
  · simp
  · dsimp only
    split
    · simp
    · split
      · simp
      · simp
      · split <;> simp

/-! ### The frame (R262) -/

@[simp ↓] theorem linkView_ptpRx (p : Nat) (f : RxFrame) (tr : Nat) (m : List Nat) (pred : Nat) :
    (s.ptpRx p f tr m pred).linkView = s.linkView := by
  have hc : (s.clientRx p f tr m).linkView = s.linkView := by
    unfold clientRx
    split <;> simp
  have ha : (s.announceRx p f tr m).linkView = s.linkView := by
    unfold announceRx
    split
    · simp
    · split <;> simp
  have hs : (s.signalRx p f tr m).linkView = s.linkView := by
    unfold signalRx
    split <;> simp
  unfold ptpRx
  simp [hc, ha, hs]

@[simp ↓] theorem linkView_ntpRx (p : Nat) (f : RxFrame) (pred : Nat) : (s.ntpRx p f pred).linkView = s.linkView := by
  unfold ntpRx
  split <;> simp

/-- Whatever takes a good frame leaves the links as they are. -/
theorem linkView_goodRx (p : Nat) (f : RxFrame) (pred : Nat) : (s.goodRx p f pred).linkView = s.linkView := by
  unfold goodRx
  dsimp only
  split_ifs
  · simp
  · simp
  · simp
  · split
    · simp
    · split
      · simp
      · split <;> simp

end State
end Sys2Proof.Machine

/-! ### The count of received frames -/

namespace Sys2Proof.Machine

theorem exec_frameRx (p : Nat) (f : RxFrame) (pred : Nat) (s : State) : exec (.frameRx p f pred) s = execFrameRx p f pred s := rfl

section
variable {s : State} {p : Nat} {f : RxFrame} (hp : p < 32) (hs : s.portState p = 4)
include hp hs

theorem frameRx_bad_settles (hg : s.rxGood p f = false) (pred : Nat) : Settles (.frameRx p f pred) s (fun u =>
    u.rd F.MAC_CNT_RX_ERR_RX_ERR p = satU F.MAC_CNT_RX_ERR_RX_ERR.w (s.rd F.MAC_CNT_RX_ERR_RX_ERR p + 1) ∧
    OnlyRegs s u [(F.MAC_CNT_RX_ERR_RX_ERR, p)]) := by
  have hx : execFrameRx p f pred s = done (s.inc F.MAC_CNT_RX_ERR_RX_ERR p) := by
    rw [execFrameRx, if_neg (not_or.mpr ⟨by omega, fun h => h hs⟩), hg]
    rfl
  exact ⟨_, (exec_frameRx p f pred s).trans hx, State.rd_inc _ _ p, (OnlyRegs.refl s _).wr (.head _) _⟩

theorem frameRx_good_settles (hg : s.rxGood p f = true) (pred : Nat) : Settles (.frameRx p f pred) s (fun u =>
    u.rd F.MAC_CNT_RX_FRAMES_RX_FRAMES p = satU F.MAC_CNT_RX_FRAMES_RX_FRAMES.w (s.rd F.MAC_CNT_RX_FRAMES_RX_FRAMES p + 1) ∧
    u.rd F.MAC_CNT_RX_ERR_RX_ERR p = s.rd F.MAC_CNT_RX_ERR_RX_ERR p ∧ u.portState p = 4 ∧ u.ridge = s.ridge) := by
  have hx : execFrameRx p f pred s = done ((s.inc F.MAC_CNT_RX_FRAMES_RX_FRAMES p).goodRx p f pred) := by
    rw [execFrameRx, if_neg (not_or.mpr ⟨by omega, fun h => h hs⟩), hg]
    rfl
  have h := State.linkView_goodRx (s.inc F.MAC_CNT_RX_FRAMES_RX_FRAMES p) p f pred
  refine ⟨_, (exec_frameRx p f pred s).trans hx, ?_, ?_, ?_, (State.ridge_of_linkView h).trans rfl⟩
  · exact (State.rd_of_linkView h (.tail _ (.head _)) p).trans (State.rd_inc _ _ p)
  · exact (State.rd_of_linkView h (.tail _ (.tail _ (.head _))) p).trans (State.rd_wr_other s (by decide) (by decide) (by decide) _ p p)
  · exact (State.rd_of_linkView h (.head _) p).trans ((State.rd_wr_other s (by decide) (by decide) (by decide) _ p p).trans hs)

end

/-- Settles O24: each clause is what its command does to the port that it names and to the lanes of that port. -/
theorem ethernetLinksComeUpAndGoDown : Obligations.EthernetLinksComeUpAndGoDown :=
  ⟨fun _ _ mode fec hp hs => anResolved_settles hp mode fec hs,
   fun _ _ hp hs => anTimeout_settles hp hs,
   fun _ _ eq hp hs => trainingDone_settles hp eq hs,
   fun _ _ hp hs => trainingTimeout_settles hp hs,
   fun _ _ corr hp hs => alignLock_settles hp corr hs,
   fun _ _ hp hs => alignTimeout_settles hp hs,
   fun _ _ remote hp hs => linkFaultRx_settles hp remote hs,
   fun _ _ hp hs => linkFaultClear_settles hp hs,
   fun _ _ hp hs => linkDown_settles hp hs,
   fun _ _ sk cdr hp hs hm => corrReload_settles hp sk cdr hs hm,
   fun _ _ _ pred hp hs hg => frameRx_bad_settles hp hs hg pred,
   fun _ _ _ pred hp hs hg => frameRx_good_settles hp hs hg pred⟩

end Sys2Proof.Machine

/-! ## A launch entry over a byte that is listed twice

A cancelled entry has DONE_DELTA = 0 (R304), and in a window memory that is not of the canonical form a byte that is written 0 may still
read what an older entry of the list says. -/

namespace Sys2Proof.Machine

theorem exec_launchCancel (req g k w : Nat) (s : State) : exec (.launchCancel req g k w) s = execLaunchCancel req g k w s := rfl

/-- Before fuse load, whatever effect a command settles with, its table windows are those of the state the command makes. -/
theorem mem_of_settles {c : Instr} {s v : State} {P : State → Prop} (h : Settles c s P) (hv : exec c s = done v)
    (hr : v.ridge.running = false) : ∃ u, P u ∧ u.mem = v.mem := by
  obtain ⟨u, hu, hp⟩ := h
  have hc : u.close = v.close := Host.Outcome.next.inj (hu.symm.trans hv)
  refine ⟨u, hp, ?_⟩
  rw [← State.mem_close_stopped ((running_of_close hc).trans hr), hc, State.mem_close_stopped hr]

namespace State

/-- Slot 0 of launch queue 0 is armed, and the window memory lists the low byte of its DONE_DELTA twice. -/
def deltaListedTwice : State :=
  { State.reset with
    eth := { State.reset.eth with armed := [(0, 0)] }
    mem := [(lqAddr 0 0 + 24, 1), (lqAddr 0 0 + 24, 1)] }

/-- What a write of the CTL word of slot 0 with VALID = 0 makes of it. -/
def deltaCancelled : State :=
  (deltaListedTwice.put ⟨0, lqAddr 0 0 + 28, 2, true⟩ (fun s a => s.lqAccess a 0 0 28 (setBit 0 31 false))).1

theorem exec_launchCancel_deltaListedTwice : exec (.launchCancel 0 0 0 0) deltaListedTwice = done deltaCancelled := by
  rw [exec_launchCancel, execLaunchCancel, if_neg (by decide)]
  rfl

end State

/-- Refutes O26: the clause on a cancelled entry speaks of every window memory, in canonical form (`Memory.wf`) or not. Where the memory
lists the low byte of DONE_DELTA twice, the write of 0 removes the first entry alone, so the word still reads 1 where the clause
says 0. -/
theorem not_postmarksAndTimedLaunches : ¬ Obligations.PostmarksAndTimedLaunches := by
  unfold Obligations.PostmarksAndTimedLaunches
  rintro ⟨-, -, -, cancel, -⟩
  have h := cancel State.deltaListedTwice 0 0 0 0 (by decide) (by decide) (by decide) (by decide) (by decide)
  obtain ⟨u, ⟨-, -, -, h₀, -⟩, hm⟩ := mem_of_settles h State.exec_launchCancel_deltaListedTwice (by decide +kernel)
  have h₁ : State.deltaCancelled.lqw 0 0 24 = 1 := by decide +kernel
  have he : u.lqw 0 0 24 = State.deltaCancelled.lqw 0 0 24 := congrArg (fun m => memRead m (lqAddr 0 0 + 24) 4) hm
  rw [h₀, h₁] at he
  exact absurd he (by decide)

end Sys2Proof.Machine

/-! ## Packet timing: what it reads, and what it sends

The engine's messages, stamps and checks read the registers, the time and the windows, and never the counters in which its own work
shows. `Alike` says that two states differ in nothing that such a reading sees. -/

namespace Sys2Proof.Machine

/-- The fields in which the work of the engine and of its clients shows, and which nothing of it reads. -/
def tallyFlds : List Fld := [F.MAC_CNT_TX_FRAMES_TX_FRAMES, F.PTE_CNT_TX_COUNT, F.PTE_CNT_RX_COUNT, F.PTE_CLI_STAT_SELECTED,
  F.PTE_CLI_STAT_AUTH_OK]

/-- Time and every register field but those of `tallyFlds` read the same in `s` and `t`. -/
structure Alike (s t : State) : Prop where
  rd : ∀ f i, f.off tallyFlds = true → t.rd f i = s.rd f i
  was : t.was = s.was
  ridge : t.ridge = s.ridge

namespace Alike
variable {s t u : State}

theorem refl (s : State) : Alike s s := ⟨fun _ _ _ => rfl, rfl, rfl⟩

theorem trans (h : Alike s t) (k : Alike t u) : Alike s u :=
  ⟨fun f i hf => (k.rd f i hf).trans (h.rd f i hf), k.was.trans h.was, k.ridge.trans h.ridge⟩

theorem wr (h : Alike s t) {f : Fld} (hf : f ∈ tallyFlds) (v i : Nat) : Alike s (t.wr f v i) :=
  h.trans ⟨fun _ j hg => State.rd_wr_off t hg hf v j i, rfl, rfl⟩

/-- A change of what is neither register nor time is not seen. -/
theorem same (h : Alike s t) (hr : u.regs = t.regs) (hw : u.was = t.was) (hq : u.ridge = t.ridge) : Alike s u :=
  h.trans ⟨fun f i _ => State.rd_of_regs hr f i, hw, hq⟩

section
variable (h : Alike s t)
include h

theorem on {f : Fld} (hf : f.off tallyFlds = true) (i : Nat) : t.on f i = s.on f i := congrArg (· != 0) (h.rd f i hf)

theorem inF {f : Fld} (hf : f.off tallyFlds = true) (i : Nat) : t.inF f i = s.inF f i := by
  rw [State.inF, State.inF, h.was, h.rd f i hf]

theorem ptpDom (i : Nat) : t.ptpDom i = s.ptpDom i := by
  rw [State.ptpDom, State.ptpDom, State.classDom, State.classDom, h.rd _ _ rfl]

theorem epochOf (d c : Nat) : t.epochOf d c = s.epochOf d c := by
  simp (disch := decide) only [State.epochOf, State.anchorEpoch, h.rd]

theorem refStamp (d : Nat) (x : Int) : t.refStamp d x = s.refStamp d x := by
  simp (disch := decide) only [State.refStamp, State.count, State.dom, h.rd, h.on, h.ridge]

theorem rxStamp (p d : Nat) (f : RxFrame) : t.rxStamp p d f = s.rxStamp p d f := by
  simp (disch := decide) only [State.rxStamp, State.skewTerm, State.rdS, h.refStamp, h.rd]

theorem txStamp (p d : Nat) (x : TxPlace) : t.txStamp p d x = s.txStamp p d x := by
  simp (disch := decide) only [State.txStamp, State.skewTerm, State.rdS, h.refStamp, h.rd]

theorem cliStamp (p : Nat) (f : RxFrame) : t.cliStamp p f = s.cliStamp p f := by
  rw [State.cliStamp, State.cliStamp, h.rxStamp, h.epochOf]

theorem profile (i : Nat) : t.profile i = s.profile i := h.rd _ i rfl

theorem oneStepOn (i p : Nat) : t.oneStepOn i p = s.oneStepOn i p := by
  rw [State.oneStepOn, State.oneStepOn, h.on rfl, h.on rfl]

theorem ptpState (i p : Nat) : t.ptpState i p = s.ptpState i p := by
  rw [State.ptpState, State.ptpState, h.rd _ _ rfl, h.rd _ _ rfl]

theorem ptpRole (i p : Nat) : t.ptpRole i p = s.ptpRole i p := by
  rw [State.ptpRole, State.ptpRole, h.inF rfl, h.inF rfl]

theorem serves : t.serves = s.serves := by
  rw [State.serves, State.serves, State.notHolder, State.notHolder, h.on rfl, h.on rfl, h.rd _ _ rfl]

theorem withheld (d : Nat) : t.withheld d = s.withheld d := h.on rfl d

theorem admits (pred : Nat) : t.admits pred = s.admits pred := by rw [State.admits, State.admits, h.inF rfl]

theorem clkId : t.clkId = s.clkId := h.rd _ _ rfl

theorem instOf (p tr : Nat) (m : List Nat) : t.instOf p tr m = s.instOf p tr m := by
  simp (disch := decide) only [State.instOf, h.ptpState, h.profile, h.rd]

theorem cliState (c : Nat) : t.cliState c = s.cliState c := h.rd _ c rfl

end
end Alike

namespace State
variable {s : State}

/-! ### Messages that go out (R317, R337) -/

/-- A port that can send puts the frame out and counts it twice, as the port and as the engine do. -/
theorem sendPtp_eq {p : Nat} (h : s.portSends p = true) (b : List Nat) :
    s.sendPtp p b = ((s.emit (.frame p b)).inc F.MAC_CNT_TX_FRAMES_TX_FRAMES p).inc F.PTE_CNT_TX_COUNT p := by
  rw [sendPtp, sendFrame, if_pos h]

theorem alike_sendPtp {p : Nat} (h : s.portSends p = true) (b : List Nat) : Alike s (s.sendPtp p b) := by
  rw [sendPtp_eq h]
  exact (((Alike.refl s).same (u := s.emit (.frame p b)) rfl rfl rfl).wr (.head _) _ p).wr (.tail _ (.head _)) _ p

/-- A message that no association authenticates is finished by its length. -/
theorem finishNow_plain {sa : Nat} (h : s.saSends sa = false) (m : List Nat) : s.finishNow sa m = some (putLength m) := by
  rw [finishNow, finishMsg, h]
  rfl

/-! ### Messages that come in (R319, R336) -/

/-- Whether a message carries an authentication TLV is no matter of the state. -/
theorem verify_none_of (t : State) {m : List Nat} (h : s.verify m = none) : t.verify m = none := by
  have hm : (tlvsOf m).find? (fun x => x.1 == 0x8009) = none := by
    cases hm : (tlvsOf m).find? (fun x => x.1 == 0x8009) with
    | none => rfl
    | some x =>
      rw [verify, hm] at h
      dsimp only at h
      split at h <;> exact absurd h nofun
  rw [verify, hm]

/-- A message without the TLV passes where none is asked for. -/
theorem authRx_plain {m : List Nat} (h : s.verify m = none) (p : Nat) (sess : Option Nat) : s.authRx p sess false m = (s, true) := by
  rw [authRx, h]
  rfl

theorem alike_countEvent (p : Nat) : Alike s (s.countEvent p) := by
  unfold countEvent
  split
  · exact (Alike.refl s).wr (.tail _ (.tail _ (.head _))) _ p
  · exact .refl s

theorem onlyRegs_countEvent (p : Nat) : OnlyRegs s (s.countEvent p) [(F.PTE_CNT_RX_COUNT, p)] := by
  unfold countEvent
  split
  · exact (OnlyRegs.refl s _).wr (.head _) _
  · exact .refl s _

end State
end Sys2Proof.Machine

/-! ## PTP messages (R312, R313, R317 to R320) -/

namespace Sys2Proof.Machine

theorem exec_ptpMsgDue (k p kind sess : Nat) (place : TxPlace) (late : Bool) (s : State) :
    exec (.ptpMsgDue k p kind sess place late) s = execPtpMsgDue k p kind sess place late s := rfl
theorem exec_followUpSend (p : Nat) (s : State) : exec (.followUpSend p) s = execFollowUpSend p s := rfl
theorem exec_delayReqRx (p : Nat) (f : RxFrame) (pred : Nat) (s : State) : exec (.delayReqRx p f pred) s = execDelayReqRx p f pred s := rfl
theorem exec_pdelayReqRx (p : Nat) (f : RxFrame) (pred : Nat) (s : State) : exec (.pdelayReqRx p f pred) s = execPdelayReqRx p f pred s := rfl
theorem exec_pdelayReqDue (p : Nat) (place : TxPlace) (s : State) : exec (.pdelayReqDue p place) s = execPdelayReqDue p place s := rfl
theorem exec_pdelayRespRx (p : Nat) (f : RxFrame) (s : State) : exec (.pdelayRespRx p f) s = execPdelayRespRx p f s := rfl
theorem exec_announceRx (p : Nat) (f : RxFrame) (s : State) : exec (.announceRx p f) s = execAnnounceRx p f s := rfl
theorem exec_foreignTimeout (k p : Nat) (s : State) : exec (.foreignTimeout k p) s = execForeignTimeout k p s := rfl

theorem State.getD_set_same {α : Type} {l : List α} {i : Nat} (h : i < l.length) (x d : α) : (l.set i x).getD i d = x := by
  simp [List.getD_eq_getElem?_getD, h]

/-! ### Announce and Sync (R317, R318) -/

namespace State
variable {s : State}

/-- The state with one more Follow_Up to send. -/
def addFup (s : State) (x : FollowUp) : State := { s with ptp := { s.ptp with fups := s.ptp.fups ++ [x] } }

/-- The state after `k` of the two instances has sent its Sync on port `p`. -/
def syncSent (s : State) (k p : Nat) (place : TxPlace) : State :=
  (s.sendPtp p (s.msgFrame p none false (putLength (s.syncMsg k p none (s.ptpDom k) (s.epochOf (s.ptpDom k)
    (s.txStamp p (s.ptpDom k) place)))))).advanceSeq k p 1 none

theorem alike_syncSent {k p : Nat} (h : s.portSends p = true) (place : TxPlace) : Alike s (s.syncSent k p place) :=
  (alike_sendPtp h _).same rfl rfl rfl

end State

section
variable {s : State} {k p : Nat} {place : TxPlace}

theorem portSends_of_msgAllowed {kind : Nat} {sess : Option Nat} (h : s.msgAllowed k p kind sess = true) : s.portSends p = true := by
  simp only [State.msgAllowed, Bool.and_eq_true] at h
  exact h.1.2

variable (hk : k < 2) (hp : p < 32) (hw : s.withheld (s.ptpDom k) = false) (hs : s.saSends (s.msgSa p none) = false)
include hk hp hw hs

theorem execPtpMsgDue_announce (ha : s.msgAllowed k p 0 none = true) : execPtpMsgDue k p 0 8192 place false s = done
    (((s.sendPtp p (s.msgFrame p none false (putLength (s.announceMsg k p none (s.ptpDom k) (s.epochOf (s.ptpDom k)
      (s.txStamp p (s.ptpDom k) place)))))).advanceSeq k p 0 none).wr F.PTE_I_STAT_ACCURACY
      (s.ptpAccuracy k (s.ptpDom k) (s.rd F.MAC_STAT_RATE p)) k) := by
  unfold execPtpMsgDue
  extract_lets ss d st e sa
  have hss : ss = none := rfl
  clear_value ss
  subst hss
  rw [if_neg (by simp [ha]; omega), if_neg (by simp [d, hw]), if_pos rfl, State.finishNow_plain hs]
  rfl

/-- The Follow_Up that a two-step Sync leaves behind. -/
theorem execPtpMsgDue_sync (ha : s.msgAllowed k p 1 none = true) (ho : s.oneStepOn k p = false) :
    execPtpMsgDue k p 1 8192 place false s = done ((s.syncSent k p place).addFup ⟨k, p, none, s.msgSeqNo k p 1 none,
      s.txStamp p 0 place, s.txStamp p 1 place, ofS 8 (s.msgLog k p 1 none)⟩) := by
  have h := State.alike_syncSent (k := k) (portSends_of_msgAllowed ha) place
  unfold execPtpMsgDue
  extract_lets ss d st e sa
  have hss : ss = none := rfl
  clear_value ss
  subst hss
  rw [if_neg (by simp [ha]; omega), if_neg (by simp [d, hw]), if_neg (by decide), State.finishNow_plain hs]
  dsimp only
  rw [if_neg Nat.one_ne_zero, ← State.syncSent, if_pos ⟨rfl, by rw [h.oneStepOn, ho]; rfl⟩, h.txStamp, h.txStamp]
  rfl

theorem announceDue_settles (ha : s.msgAllowed k p 0 none = true) (hl : s.ptp.seqAnn.length = 64) :
    Settles (.ptpMsgDue k p 0 8192 place false) s (fun u =>
      u.out = s.out ++ [.frame p (s.msgFrame p none false (putLength (s.announceMsg k p none (s.ptpDom k) (s.epochOf (s.ptpDom k)
        (s.txStamp p (s.ptpDom k) place)))))] ∧
      u.ptp.seqAnn.getD (32 * k + p) 0 = (s.ptp.seqAnn.getD (32 * k + p) 0 + 1) % 2 ^ 16 ∧
      { s with regs := u.regs, ptp := { s.ptp with seqAnn := u.ptp.seqAnn }, out := u.out } = u ∧
      RegsBut s u [(F.MAC_CNT_TX_FRAMES_TX_FRAMES, p), (F.PTE_CNT_TX_COUNT, p), (F.PTE_I_STAT_ACCURACY, k)]) := by
  have hx := execPtpMsgDue_announce (place := place) hk hp hw hs ha
  rw [State.sendPtp_eq (portSends_of_msgAllowed ha)] at hx
  exact ⟨_, (exec_ptpMsgDue k p 0 8192 place false s).trans hx, rfl, State.getD_set_same (show 32 * k + p < s.ptp.seqAnn.length by omega) _ _, rfl,
    ((((RegsBut.refl s _).wr (.head _) _).wr (.tail _ (.head _)) _).same rfl).wr (.tail _ (.tail _ (.head _))) _⟩

theorem syncDue_settles (ha : s.msgAllowed k p 1 none = true) (ho : s.oneStepOn k p = false) (hl : s.ptp.seqSync.length = 64) :
    Settles (.ptpMsgDue k p 1 8192 place false) s (fun u => (∃ b, u.out = s.out ++ [.frame p b]) ∧
      (∃ x, u.ptp.fups = s.ptp.fups ++ [x] ∧ x.inst = k ∧ x.port = p ∧ x.seq = s.ptp.seqSync.getD (32 * k + p) 0 ∧
        x.stampA = s.txStamp p 0 place ∧ x.stampB = s.txStamp p 1 place) ∧
      u.ptp.seqSync.getD (32 * k + p) 0 = (s.ptp.seqSync.getD (32 * k + p) 0 + 1) % 2 ^ 16 ∧
      { s with regs := u.regs, ptp := u.ptp, out := u.out } = u ∧
      RegsBut s u [(F.MAC_CNT_TX_FRAMES_TX_FRAMES, p), (F.PTE_CNT_TX_COUNT, p)]) := by
  have hx := execPtpMsgDue_sync (place := place) hk hp hw hs ha ho
  rw [State.syncSent, State.sendPtp_eq (portSends_of_msgAllowed ha)] at hx
  exact ⟨_, (exec_ptpMsgDue k p 1 8192 place false s).trans hx, ⟨_, rfl⟩, ⟨_, rfl, rfl, rfl, rfl, rfl, rfl⟩,
    State.getD_set_same (show 32 * k + p < s.ptp.seqSync.length by omega) _ _, rfl, (((RegsBut.refl s _).wr (.head _) _).wr (.tail _ (.head _)) _).same rfl⟩

end

/-! ### Follow_Up (R318) -/

theorem followUp_settles {s : State} {p : Nat} {x : FollowUp} (hf : s.ptp.fups.find? (fun y => y.port == p) = some x)
    (hv : s.serves = true) (hp : s.portSends p = true) (hm : s.ptpState x.inst p = 1) (hw : s.withheld (s.ptpDom x.inst) = false)
    (hs : s.saSends (s.msgSa p x.sess) = false) : Settles (.followUpSend p) s (fun u =>
      u.out = s.out ++ [.frame p (s.msgFrame p x.sess false (putLength (s.fupMsg x)))] ∧ u.ptp.fups = s.ptp.fups.erase x ∧
      { s with regs := u.regs, ptp := { s.ptp with fups := u.ptp.fups }, out := u.out } = u ∧
      RegsBut s u [(F.MAC_CNT_TX_FRAMES_TX_FRAMES, p), (F.PTE_CNT_TX_COUNT, p)]) := by
  have hx : execFollowUpSend p s = done ({ s with ptp := { s.ptp with fups := s.ptp.fups.erase x } }.sendPtp p
      (s.msgFrame p x.sess false (putLength (s.fupMsg x)))) := by
    unfold execFollowUpSend
    rw [hf]
    dsimp -zeta only
    extract_lets src t sa
    have ht : (!t.serves || !t.portSends p || t.ptpState x.inst p != 1 || t.withheld (t.ptpDom x.inst)) = false := by
      show (!s.serves || !s.portSends p || s.ptpState x.inst p != 1 || s.withheld (s.ptpDom x.inst)) = false
      rw [hv, hp, hm, hw]
      rfl
    rw [ht, if_neg Bool.false_ne_true, State.finishNow_plain (show t.saSends sa = false from hs)]
    rfl
  rw [State.sendPtp_eq (s := { s with ptp := { s.ptp with fups := s.ptp.fups.erase x } }) hp] at hx
  exact ⟨_, (exec_followUpSend p s).trans hx, rfl, rfl, rfl, (((RegsBut.refl s _).same rfl).wr (.head _) _).wr (.tail _ (.head _)) _⟩

/-! ### Requests (R319, R320) -/

/-- The state with one more admitted request. -/
def State.addAnswer (s : State) (x : Answer) : State := { s with frank := { s.frank with answers := s.frank.answers ++ [x] } }

/-- An admitted request waits for its answer, with its receive stamp. -/
theorem State.admitPtp_eq (s : State) (p kind k : Nat) (f : RxFrame) (sess : Option Nat) (sa : Nat) :
    ∃ a : Answer, s.admitPtp p kind k f sess sa = s.addAnswer a ∧ a.port = p ∧ a.kind = kind ∧ a.inst = k ∧
      a.stamp = s.rxStamp p (s.ptpDom k) f ∧ a.req = f ∧ a.sess = sess :=
  ⟨_, rfl, rfl, rfl, rfl, rfl, rfl, rfl⟩

/-- A request that is counted and then admitted shows in its count and among the answers alone. -/
theorem addAnswer_facts {s t : State} {l : List (Fld × Nat)} (h : OnlyRegs s t l) (a : Answer) :
    (t.addAnswer a).frank.answers = s.frank.answers ++ [a] ∧
    { s with regs := (t.addAnswer a).regs, frank := { s.frank with answers := (t.addAnswer a).frank.answers } } = t.addAnswer a ∧
    RegsBut s (t.addAnswer a) l := by
  have hf : t.frank = s.frank := by rw [← h.1]
  refine ⟨congrArg (fun x : FrankSt => x.answers ++ [a]) hf, ?_, h.2.same rfl⟩
  rw [← h.1]
  rfl

section
variable {s : State} {p pred tr k : Nat} {f : RxFrame} {m : List Nat} (hf : ptpMsg f.bytes = some (tr, m)) (hg : s.rxGood p f = true)
  (hi : s.instOf p tr m = some k) (ht : (tagsOf f.bytes).length ≤ 2) (hm : s.ptpState k p = 1) (hv : s.serves = true)
  (hr : s.on F.PTE_I_CTL_AUTH_REQ k = false) (hn : s.verify m = none) (hd : s.admits pred = true)
include hf hg hi ht hm hv hr hn hd

theorem delayReqRx_settles (hy : msgType m = 1) (he : isP2p (s.profile k) = false) (hu : isUnicast f.bytes = false)
    (ho : s.ptpRole k p = 1) (hw : s.withheld (s.ptpDom k) = false) : Settles (.delayReqRx p f pred) s (fun u =>
      (∃ a, u.frank.answers = s.frank.answers ++ [a] ∧ a.port = p ∧ a.kind = 3 ∧ a.inst = k ∧ a.stamp = s.rxStamp p (s.ptpDom k) f ∧
        a.req = f ∧ a.sess = none) ∧
      { s with regs := u.regs, frank := { s.frank with answers := u.frank.answers } } = u ∧ RegsBut s u [(F.PTE_CNT_RX_COUNT, p)]) := by
  have h := State.alike_countEvent (s := s) p
  have hx : execDelayReqRx p f pred s = done ((s.countEvent p).admitPtp p 3 k f none ((s.countEvent p).msgSa p none)) := by
    unfold execDelayReqRx
    rw [hf]
    dsimp only
    rw [if_pos ⟨hg, hy⟩, State.delayReqRx]
    generalize s.countEvent p = t at h
    have hq : t.dreqMatch p k tr f = some none := by
      rw [State.dreqMatch, hu, h.ptpRole, ho]
      rfl
    dsimp only
    rw [h.instOf, hi]
    dsimp only
    rw [if_neg (by rw [h.profile, he]; simp; omega), if_neg (by rw [h.ptpState, hm, h.serves, hv]; decide), hq]
    dsimp only
    rw [h.on rfl, hr, State.authRx_plain (s.verify_none_of t hn)]
    dsimp only
    rw [if_neg (by rw [h.withheld, h.ptpDom, hw]; decide), h.admits, hd, if_neg (by decide), hu]
    rfl
  obtain ⟨a, e, hp, hk, hi, hs, hq, hn⟩ := State.admitPtp_eq (s.countEvent p) p 3 k f none ((s.countEvent p).msgSa p none)
  rw [e] at hx
  obtain ⟨ha, he, hl⟩ := addAnswer_facts (State.onlyRegs_countEvent (s := s) p) a
  exact ⟨_, (exec_delayReqRx p f pred s).trans hx, ⟨a, ha, hp, hk, hi, by rw [hs, h.rxStamp, h.ptpDom], hq, hn⟩, he, hl⟩

theorem pdelayReqRx_settles (hy : msgType m = 2) (he : isP2p (s.profile k) = true) : Settles (.pdelayReqRx p f pred) s (fun u =>
      (∃ a, u.frank.answers = s.frank.answers ++ [a] ∧ a.port = p ∧ a.kind = 4 ∧ a.inst = k ∧ a.stamp = s.rxStamp p (s.ptpDom k) f ∧
        a.req = f) ∧
      { s with regs := u.regs, frank := { s.frank with answers := u.frank.answers } } = u ∧ RegsBut s u [(F.PTE_CNT_RX_COUNT, p)]) := by
  have h := State.alike_countEvent (s := s) p
  have hx : execPdelayReqRx p f pred s = done ((s.countEvent p).admitPtp p 4 k f none
      (if isUnicast f.bytes then 0x3F else (s.countEvent p).msgSa p none)) := by
    unfold execPdelayReqRx
    rw [hf]
    dsimp only
    rw [if_pos ⟨hg, hy⟩, State.pdelayReqRx]
    generalize s.countEvent p = t at h
    dsimp only
    rw [h.instOf, hi]
    dsimp only
    rw [if_neg (by rw [h.profile, he]; simp; omega), if_neg (by rw [h.ptpState, hm, h.serves, hv]; decide), h.on rfl, hr,
      State.authRx_plain (s.verify_none_of t hn)]
    dsimp only
    rw [if_neg (by decide), h.admits, hd, if_neg (by decide)]
  obtain ⟨a, e, hp, hk, hi, hs, hq, -⟩ := State.admitPtp_eq (s.countEvent p) p 4 k f none
    (if isUnicast f.bytes then 0x3F else (s.countEvent p).msgSa p none)
  rw [e] at hx
  obtain ⟨ha, he, hl⟩ := addAnswer_facts (State.onlyRegs_countEvent (s := s) p) a
  exact ⟨_, (exec_pdelayReqRx p f pred s).trans hx, ⟨a, ha, hp, hk, hi, by rw [hs, h.rxStamp, h.ptpDom], hq⟩, he, hl⟩

end

/-! ### Peer delay (R320) -/

namespace State
variable {s : State}

theorem pdl_setPdl {p : Nat} (h : p < s.ptp.pdelay.length) (x : PdelaySt) : (s.setPdl p x).pdl p = x := getD_set_same h x {}

/-- The mean delay and the capability shown are the only trace of a new delay in the registers. -/
theorem onlyRegs_showPdelay (p : Nat) : OnlyRegs s (s.showPdelay p) [(F.PTE_PORT_PDLY_PDLY, p), (F.PTE_PORT_STAT_AS_CAPABLE, p)] :=
  ((OnlyRegs.refl s _).wr (.head _) _).wr (.tail _ (.head _)) _

/-- Peer delay after the request outstanding was answered with the delay `q`. -/
def delayTaken (x : PdelaySt) (q : Rat) : PdelaySt := { x.settle true with delays := (q :: x.delays).take 16 }

/-- An exchange that is complete enters the delays of its port. -/
theorem pdelayDone_facts {p : Nat} (h : p < s.ptp.pdelay.length) (t1 t4 : Nat) (turn : Int) :
    ((s.pdelayDone p t1 t4 turn).pdl p).delays = ((((ridgeDist t4 t1 - turn : Int) : Rat) / 2) :: (s.pdl p).delays).take 16 ∧
    { s with regs := (s.pdelayDone p t1 t4 turn).regs, ptp := { s.ptp with pdelay := (s.pdelayDone p t1 t4 turn).ptp.pdelay } } =
      s.pdelayDone p t1 t4 turn ∧
    RegsBut s (s.pdelayDone p t1 t4 turn) [(F.PTE_PORT_PDLY_PDLY, p), (F.PTE_PORT_STAT_AS_CAPABLE, p)] := by
  have e : s.pdelayDone p t1 t4 turn =
      (s.setPdl p (delayTaken (s.pdl p) (((ridgeDist t4 t1 - turn : Int) : Rat) / 2))).showPdelay p := rfl
  have k := onlyRegs_showPdelay (s := s.setPdl p (delayTaken (s.pdl p) (((ridgeDist t4 t1 - turn : Int) : Rat) / 2))) p
  rw [e]
  refine ⟨?_, ?_, ((RegsBut.refl s _).same rfl).trans k.2⟩
  · rw [← k.1]
    exact congrArg PdelaySt.delays (pdl_setPdl h _)
  · rw [← k.1]
    rfl

end State

theorem pdelayReqDue_settles {s : State} {p k : Nat} {place : TxPlace} (hk : s.p2pInst p = some k) (hp : p < 32) (hv : s.serves = true)
    (hs : s.portSends p = true) (ho : (s.pdl p).out = none) (ha : s.saSends (s.msgSa p none) = false) (hl : s.ptp.pdelay.length = 32) :
    Settles (.pdelayReqDue p place) s (fun u => (∃ b, u.out = s.out ++ [.frame p b]) ∧
      u.pdl p = { s.pdl p with seq := ((s.pdl p).seq + 1) % 2 ^ 16,
                               out := some ((s.pdl p).seq, k, s.ptpDom k, s.txStamp p (s.ptpDom k) place) } ∧
      { s with regs := u.regs, ptp := { s.ptp with pdelay := u.ptp.pdelay }, out := u.out } = u ∧
      RegsBut s u [(F.MAC_CNT_TX_FRAMES_TX_FRAMES, p), (F.PTE_CNT_TX_COUNT, p)]) := by
  obtain ⟨b, hx⟩ : ∃ b, execPdelayReqDue p place s = done ((s.sendPtp p b).setPdl p { s.pdl p with
      seq := ((s.pdl p).seq + 1) % 2 ^ 16, out := some ((s.pdl p).seq, k, s.ptpDom k, s.txStamp p (s.ptpDom k) place) }) := by
    unfold execPdelayReqDue
    rw [hk]
    dsimp only
    rw [if_neg (by rw [hv, hs]; simp; omega), ho, if_neg (show ¬(none : Option (Nat × Nat × Nat × Nat)).isSome = true by decide), State.finishNow_plain ha]
    exact ⟨_, rfl⟩
  rw [State.sendPtp_eq hs] at hx
  exact ⟨_, (exec_pdelayReqDue p place s).trans hx, ⟨b, rfl⟩, State.pdl_setPdl (show p < s.ptp.pdelay.length by omega) _, rfl,
    (((RegsBut.refl s _).wr (.head _) _).wr (.tail _ (.head _)) _).same rfl⟩

theorem pdelayRespRx_settles {s : State} {p tr k d t1 : Nat} {f : RxFrame} {m : List Nat} (hf : ptpMsg f.bytes = some (tr, m))
    (hg : s.rxGood p f = true) (hy : msgType m = 3) (ho : (s.pdl p).out = some (msgSeq m, k, d, t1))
    (hq : be m 44 10 = s.clkId * 2 ^ 16 + (p + 1)) (hv : s.serves = true) (hr : s.on F.PTE_I_CTL_AUTH_REQ k = false)
    (hn : s.verify m = none) (h2 : msgTwoStep m = false) (hl : s.ptp.pdelay.length = 32) (hp : p < 32) :
    Settles (.pdelayRespRx p f) s (fun u =>
      (u.pdl p).delays = ((((ridgeDist (s.rxStamp p d f) t1 - msgCorr m : Int) : Rat) / 2) :: (s.pdl p).delays).take 16 ∧
      { s with regs := u.regs, ptp := { s.ptp with pdelay := u.ptp.pdelay } } = u ∧
      RegsBut s u [(F.PTE_CNT_RX_COUNT, p), (F.PTE_PORT_PDLY_PDLY, p), (F.PTE_PORT_STAT_AS_CAPABLE, p)]) := by
  have h := State.alike_countEvent (s := s) p
  have hc := State.onlyRegs_countEvent (s := s) p
  obtain ⟨t, ht⟩ : ∃ t, s.countEvent p = t := ⟨_, rfl⟩
  rw [ht] at h hc
  have hpt : t.ptp = s.ptp := by rw [← hc.1]
  have hpd : t.pdl p = s.pdl p := by rw [State.pdl, hpt, ← State.pdl]
  have hx : execPdelayRespRx p f s = done (t.pdelayDone p t1 (s.rxStamp p d f) (msgCorr m)) := by
    unfold execPdelayRespRx
    rw [hf]
    dsimp only
    rw [if_pos ⟨hg, .inl hy⟩, State.pdelayRespRx]
    dsimp only
    rw [if_pos (show msgType m = Ptp.pdelayResp from hy), ht, hpd, ho]
    dsimp only
    rw [if_neg (by rw [h.clkId, h.serves, hv, hq]; simp), h.on rfl, hr, State.authRx_plain (s.verify_none_of t hn)]
    dsimp only
    rw [if_neg (by decide), if_pos (show msgType m = Ptp.pdelayResp from hy), h2, if_neg (by decide), h.rxStamp]
  obtain ⟨hd, he, hb⟩ := State.pdelayDone_facts (s := t) (p := p) (by rw [hpt]; omega) t1 (s.rxStamp p d f) (msgCorr m)
  refine ⟨_, (exec_pdelayRespRx p f s).trans hx, hpd ▸ hd, ?_, (hc.2.mono ?_).trans (hb.mono ?_)⟩
  · rw [← he, ← hc.1]
  · simp
  · simp

/-! ### Foreign masters (R312, R313) -/

theorem foreignAnnounce_settles {s : State} {p tr k : Nat} {f : RxFrame} {m : List Nat} (hf : ptpMsg f.bytes = some (tr, m))
    (hg : s.rxGood p f = true) (hy : msgType m = 11) (hc : s.cliOf p tr f m = none) (hi : s.instOf p tr m = some k)
    (hq : msgPort m / 2 ^ 16 ≠ s.clkId) (hr : s.on F.PTE_I_CTL_AUTH_REQ k = false) (hn : s.verify m = none)
    (ha : s.on F.PTE_PORT_CTL_FOREIGN_ACT p = false) : Settles (.announceRx p f) s (fun u =>
      u.rd F.PTE_PORT_STAT_FOREIGN p = satU F.PTE_PORT_STAT_FOREIGN.w (s.rd F.PTE_PORT_STAT_FOREIGN p + 1) ∧
      u.staged 124 (p + k * 256) ∧ OnlyRegsFcu s u [(F.PTE_PORT_STAT_FOREIGN, p)]) := by
  have hx : execAnnounceRx p f s = done ((s.inc F.PTE_PORT_STAT_FOREIGN p).raise 124 (p + k * 256)) := by
    unfold execAnnounceRx
    rw [hf]
    dsimp only
    rw [if_pos ⟨hg, hy⟩, State.announceRx, hc]
    dsimp only
    rw [hi]
    dsimp only
    rw [State.foreignRx]
    dsimp only
    rw [if_neg hq, hr, State.authRx_plain hn]
    dsimp only
    rw [if_neg (by decide), if_neg]
    rintro ⟨hact, -⟩
    rw [State.on, State.rd_raise, State.inc_eq, State.rd_wr_other _ (by decide) (by decide) (by decide), ← State.on, ha] at hact
    exact absurd hact (by decide)
  exact ⟨_, (exec_announceRx p f s).trans hx, State.rd_inc _ _ p, List.mem_append_right _ (.head _),
    State.onlyRegsFcu_wr_raise (.head _) _ 124 _⟩

/-- A port is in the state that it has moved to. -/
theorem State.ptpState_setPtpState (s : State) {st : Nat} (h : st < 4) (k p : Nat) : (s.setPtpState k p st).ptpState k p = st := by
  unfold State.setPtpState State.ptpState
  split
  · exact (State.rd_wr_same s F.PTE_PORT_STAT_STATE0 st p).trans (Nat.mod_eq_of_lt h)
  · exact (State.rd_wr_same s F.PTE_PORT_STAT_STATE1 st p).trans (Nat.mod_eq_of_lt h)

theorem foreignTimeout_settles {s : State} {k p : Nat} (hk : k < 2) (hp : p < 32) (hs : s.ptpState k p = 2) :
    Settles (.foreignTimeout k p) s (fun u => u.ptpState k p = 1 ∧
      { s with regs := u.regs, ptp := { s.ptp with foreign := s.ptp.foreign.set (32 * k + p) none } } = u ∧
      RegsBut s u [(if k = 0 then F.PTE_PORT_STAT_STATE0 else F.PTE_PORT_STAT_STATE1, p)]) := by
  have hx : execForeignTimeout k p s = done
      ({ s with ptp := { s.ptp with foreign := s.ptp.foreign.set (32 * k + p) none } }.setPtpState k p 1) := by
    rw [execForeignTimeout, if_neg (by omega)]
  exact ⟨_, (exec_foreignTimeout k p s).trans hx, State.ptpState_setPtpState _ (by decide) k p, rfl,
    ((RegsBut.refl s _).same rfl).wr (.head _) 1⟩

/-- Settles O28: each clause is what its message or its silence does to the port that it names. -/
theorem ptpMessagesAreSentAndAnswered : Obligations.PtpMessagesAreSentAndAnswered :=
  ⟨fun _ _ _ _ hk hp ha hw hs hl => announceDue_settles hk hp hw hs ha hl,
   fun _ _ _ _ hk hp ha hw hs ho hl => syncDue_settles hk hp hw hs ha ho hl,
   fun _ _ _ hf hv hp hm hw hs => followUp_settles hf hv hp hm hw hs,
   fun _ _ _ _ _ _ _ hf hg hy hi he ht hm hv hu ho hr hn hw hd => delayReqRx_settles hf hg hi ht hm hv hr hn hd hy he hu ho hw,
   fun _ _ _ _ _ _ _ hf hg hy hi he ht hm hv hr hn hd => pdelayReqRx_settles hf hg hi ht hm hv hr hn hd hy he,
   fun _ _ _ _ hk hp hv hs ho ha hl => pdelayReqDue_settles hk hp hv hs ho ha hl,
   fun _ _ _ _ _ _ _ _ hf hg hy ho hq hv hr hn h2 hl hp => pdelayRespRx_settles hf hg hy ho hq hv hr hn h2 hl hp,
   fun _ _ _ _ _ _ hf hg hy hc hi hq hr hn ha => foreignAnnounce_settles hf hg hy hc hi hq hr hn ha,
   fun _ _ _ hk hp hs => foreignTimeout_settles hk hp hs⟩

end Sys2Proof.Machine

/-! ## The engine, its instances and its clients: the rules of their state (R311, R315, R340, R341)

What the views of the engine and the writes of its enables change, each said once. -/

namespace Sys2Proof.Machine

/-- Between `s` and `u` the engine has changed the fields `fs` and what it keeps without a register; fields may have been staged, and
faults may have come of it. -/
structure PteOnly (s u : State) (fs : List Fld) : Prop where
  rest : { s with regs := u.regs, ptp := u.ptp, fcu := u.fcu, was := u.was } = u
  regs : ∀ f i, f.off fs = true → u.rd f i = s.rd f i

namespace PteOnly
variable {s t u : State} {fs : List Fld}

theorem refl (s : State) (fs : List Fld) : PteOnly s s fs := ⟨rfl, fun _ _ _ => rfl⟩

theorem trans (h : PteOnly s t fs) (k : PteOnly t u fs) : PteOnly s u fs :=
  ⟨by rw [← k.rest, ← h.rest], fun f i hf => (k.regs f i hf).trans (h.regs f i hf)⟩

theorem mono (h : PteOnly s u fs) {gs : List Fld} (hs : fs ⊆ gs) : PteOnly s u gs :=
  ⟨h.rest, fun f i hf => h.regs f i (Fld.off_of_subset hf hs)⟩

theorem wr (h : PteOnly s u fs) {g : Fld} (hg : g ∈ fs) (v j : Nat) : PteOnly s (u.wr g v j) fs :=
  h.trans ⟨rfl, fun _ i hf => State.rd_wr_off u hf hg v i j⟩

/-- A change of what is kept without a register keeps the frame. -/
theorem same (h : PteOnly s t fs) (e : { t with ptp := u.ptp, fcu := u.fcu, was := u.was } = u) : PteOnly s u fs :=
  h.trans ⟨by rw [← e], fun f i _ => State.rd_of_regs (by rw [← e]) f i⟩

theorem of_onlyRegsFcu {l : List (Fld × Nat)} (h : OnlyRegsFcu s u l) : PteOnly s u (l.map Prod.fst) :=
  ⟨by rw [← h.1], fun _ i hf => h.2.rd hf i⟩

theorem of_regs (h : { s with regs := u.regs } = u) (hr : ∀ f i, f.off fs = true → u.rd f i = s.rd f i) : PteOnly s u fs :=
  ⟨by rw [← h], hr⟩

theorem of_onlyRegs_at {i : Nat} (h : OnlyRegs s u (fs.map (·, i))) : PteOnly s u fs :=
  .of_regs h.1 fun _ j hf => h.2.rd (by simpa [Function.comp_def] using hf) j

theorem rd (h : PteOnly s u fs) {f : Fld} (hf : f.off fs = true) (i : Nat) : u.rd f i = s.rd f i := h.regs f i hf
theorem on (h : PteOnly s u fs) {f : Fld} (hf : f.off fs = true) (i : Nat) : u.on f i = s.on f i := congrArg (· != 0) (h.rd hf i)
theorem mem (h : PteOnly s u fs) : u.mem = s.mem := by rw [← h.rest]
theorem ridge (h : PteOnly s u fs) : u.ridge = s.ridge := by rw [← h.rest]
theorem out (h : PteOnly s u fs) : u.out = s.out := by rw [← h.rest]

end PteOnly

namespace State
variable {s t : State} {k w : Nat}

/-! ### What the engine shows (R322, Table PTP-1) -/

/-- The fields that show the quality of one of the instances. -/
def instShown : List Fld := [F.PTE_I_STAT_CLASS, F.PTE_I_STAT_ACCURACY, F.PTE_I_STAT_TIME_SOURCE, F.PTE_I_STAT_WITHHELD, F.PTE_I_STAT_TIME_TR,
  F.PTE_I_STAT_FREQ_TR, F.PTE_I_STAT_UTC_VALID, F.PTE_I_STAT_LEAP61, F.PTE_I_STAT_LEAP59]

theorem onlyRegs_showInst (i : Nat) : OnlyRegs s (s.showInst i) (instShown.map (·, i)) := by
  unfold showInst
  split
  · exact onlyRegs_rstFlds instShown
  · extract_lets d leap s₁ s₂ s₃
    have h₁ : OnlyRegs s s₁ (instShown.map (·, i)) :=
      ((OnlyRegs.refl s _).wr (g := F.PTE_I_STAT_CLASS) (by simp [instShown]) _).wr (g := F.PTE_I_STAT_TIME_SOURCE) (by simp [instShown]) _
    have h₂ : OnlyRegs s s₂ (instShown.map (·, i)) :=
      (h₁.wr (g := F.PTE_I_STAT_WITHHELD) (by simp [instShown]) _).wr (g := F.PTE_I_STAT_TIME_TR) (by simp [instShown]) _
    have h₃ : OnlyRegs s s₃ (instShown.map (·, i)) :=
      (h₂.wr (g := F.PTE_I_STAT_FREQ_TR) (by simp [instShown]) _).wr (g := F.PTE_I_STAT_UTC_VALID) (by simp [instShown]) _
    exact (h₃.wr (g := F.PTE_I_STAT_LEAP61) (by simp [instShown]) _).wr (g := F.PTE_I_STAT_LEAP59) (by simp [instShown]) _

/-- The fields that show the engine: its instances and the PTP states of the ports. -/
def ptpShown : List Fld := instShown ++ [F.PTE_PORT_STAT_STATE0, F.PTE_PORT_STAT_STATE1, F.PTE_PORT_STAT_AS_CAPABLE]

theorem ptp_of_regs {u : State} (h : { s with regs := u.regs } = u) : u.ptp = s.ptp := by rw [← h]

/-- What the engine shows follows without a change of what it does. -/
theorem showPtp_facts : PteOnly s s.showPtp ptpShown ∧ s.showPtp.ptp.stopping = s.ptp.stopping ∧ s.showPtp.ptp.fups = s.ptp.fups := by
  have h₀ := onlyRegs_showInst (s := s.noteUtc) 0
  have h₁ := onlyRegs_showInst (s := s.noteUtc.showInst 0) 1
  have hp := forN_regs (f := showPtpPort) (fun s p => (onlyRegs_showPtpPort (s := s) (p := p)).1) 32 ((s.noteUtc.showInst 0).showInst 1)
  rw [← showPtp] at hp
  have hr (f : Fld) (i : Nat) (hf : f.off ptpShown = true) : s.showPtp.rd f i = ((s.noteUtc.showInst 0).showInst 1).rd f i :=
    forN_keeps (fun s => s.rd f i) (fun s p => (onlyRegs_showPtpPort (s := s) (p := p)).2.rd (Fld.off_append hf).2 i) 32 _
  have hq : s.showPtp.ptp = s.noteUtc.ptp := (ptp_of_regs hp).trans ((ptp_of_regs h₁.1).trans (ptp_of_regs h₀.1))
  have hi : PteOnly s ((s.noteUtc.showInst 0).showInst 1) instShown :=
    (((PteOnly.refl s _).same (u := s.noteUtc) rfl).trans (.of_onlyRegs_at h₀)).trans (.of_onlyRegs_at h₁)
  exact ⟨(hi.mono (List.subset_append_left _ _)).trans (.of_regs hp hr), by rw [hq]; rfl, by rw [hq]; rfl⟩

/-! ### Writes that are staged (R340) -/

theorem keepOld_eq (fs : List Fld) (i : Nat) : { s with was := (s.keepOld fs i).was } = s.keepOld fs i := by
  unfold keepOld
  induction fs generalizing s with
  | nil => rfl
  | cons f fs ih => exact ih (s := { s with was := kvPut s.was (f.key i) (s.inF f i) })

theorem pteOnly_stagedWrite (lock : Fld → Bool) (ok : Fld → Nat → Bool) (fs : List Fld) (i w : Nat) :
    PteOnly s (s.stagedWrite lock ok fs i w).1 fs ∧ (s.stagedWrite lock ok fs i w).1.ptp = s.ptp := by
  have h := keepOld_eq (s := s) fs i
  have k := onlyRegs_fieldWrite (s := s.keepOld fs i) lock ok fs i w
  exact ⟨((PteOnly.refl s fs).same (u := s.keepOld fs i) (by rw [← h])).trans (.of_onlyRegs_at k),
    (ptp_of_regs k.1).trans (by rw [← h])⟩

/-- An enable in bit 0 that is not locked takes bit 0 of the word. -/
theorem on_fieldWrite_bit_zero {lock : Fld → Bool} {ok : Fld → Nat → Bool} {f : Fld} (ha : f.acc = .rw) (hp : f.lo = 0 ∧ f.w = 1)
    (hl : lock f = false) (hr : ∀ v, ok f v = true) (fs : List Fld) (i w : Nat) :
    (s.fieldWrite lock ok (fs ++ [f]) i w).1.on f i = bit w 0 := by
  rw [on, rd_fieldWrite_last ha hl (hr _), hp.1, hp.2, bits_one]

/-- A locked field keeps its value, whatever the word holds (R501). -/
theorem rd_fieldWrite_of_locked {lock : Fld → Bool} {ok : Fld → Nat → Bool} {f : Fld} (hl : lock f = true) {fs : List Fld} {i w : Nat}
    (hs : ∀ g ∈ fs, g = f ∨ f.off [g] = true) : (s.fieldWrite lock ok fs i w).1.rd f i = s.rd f i := by
  have h (r : State × List Nat) : ∀ l : List Fld, (∀ g ∈ l, g = f ∨ f.off [g] = true) →
      (l.foldl (State.fieldStep lock ok i w) r).1.rd f i = r.1.rd f i := by
    intro l
    induction l generalizing r with
    | nil => exact fun _ => rfl
    | cons g l ih =>
      intro hg
      refine (ih _ fun q hq => hg q (.tail _ hq)).trans ?_
      obtain rfl | ho := hg g (.head _)
      · unfold fieldStep
        split
        · dsimp only
          split
          · rfl
          · next hn =>
            rw [Bool.or_eq_true, not_or, hl, Bool.true_and, bne_iff_ne, not_not] at hn
            rw [rd_wr_same, bits_mod, hn.1]
        · rfl
      · obtain e | e := fieldStep_frame lock ok i w r g <;> rw [e]
        exact rd_wr_off r.1 ho (.head _) _ _ _
  exact h (s, []) fs hs

theorem pteOnly_conclude (a : Acs) (codes : List Nat) : PteOnly s (s.conclude a codes).1 (accFlds.map Prod.fst) :=
  .of_onlyRegsFcu (onlyRegsFcu_conclude a codes)

theorem ptp_conclude (a : Acs) (codes : List Nat) : (s.conclude a codes).1.ptp = s.ptp := by rw [← (onlyRegsFcu_conclude a codes).1]

/-! ### Stops -/

theorem ptpStopping_setPtpStop {b : Nat} (h : b < s.ptp.stopping.length) (stop pend : Bool) : (s.setPtpStop b stop pend).ptpStopping b = stop :=
  getD_set_same h stop false

theorem ptpStopping_of_ptp (h : t.ptp.stopping = s.ptp.stopping) (b : Nat) : t.ptpStopping b = s.ptpStopping b := by
  rw [ptpStopping, ptpStopping, h]

theorem lt_of_ptpStopping {b : Nat} (h : s.ptpStopping b = true) : b < s.ptp.stopping.length := by
  by_contra hb
  rw [ptpStopping, List.getD_eq_default _ _ (not_lt.mp hb)] at h
  exact absurd h (by decide)

/-! ### The engine -/

/-- The fields of PTE_CTL, EN last. -/
def pteCtlFlds : List Fld := [F.PTE_CTL_UNK_ANSWER, F.PTE_CTL_EAVES_ANN, F.PTE_CTL_EAVES_EVT, F.PTE_CTL_EN]

/-- What the fields of PTE_CTL take of a write of `w`, and the rules that it breaks (R340). -/
def pteCtlFields (s : State) (w : Nat) : State × List Nat := s.stagedWrite noLock inRange pteCtlFlds 0 w

theorem pteCtlFields_facts : PteOnly s (s.pteCtlFields w).1 pteCtlFlds ∧ (s.pteCtlFields w).1.ptp = s.ptp := pteOnly_stagedWrite _ _ _ 0 w

theorem on_en_pteCtlFields : (s.pteCtlFields w).1.on F.PTE_CTL_EN = bit w 0 :=
  on_fieldWrite_bit_zero (s := s.keepOld pteCtlFlds 0) (lock := noLock) rfl ⟨rfl, rfl⟩ rfl (fun _ => rfl) pteCtlFlds.dropLast 0 w

/-- What follows when EN of the engine has been written, EN having been `was` (R341). -/
def followPteEn (s : State) (was : Bool) : State :=
  if s.on F.PTE_CTL_EN && !was then (if s.ptpStopping 0 then (s.setPtpStop 0 true true).showPtePend else s.pteStart)
  else if was && !s.on F.PTE_CTL_EN then (if s.ptpStopping 0 then (s.setPtpStop 0 true false).showPtePend else s.pteStop)
  else s

theorem pteCtlWrite_eq (a : Acs) : s.pteCtlWrite a w =
    ((s.pteCtlFields w).1.followPteEn (s.on F.PTE_CTL_EN)).conclude a (s.pteCtlFields w).2 := rfl

theorem followPteEn_starts (he : s.on F.PTE_CTL_EN = true) (hs : s.ptpStopping 0 = false) : s.followPteEn false = s.pteStart := by
  simp [followPteEn, he, hs]

theorem followPteEn_stops (he : s.on F.PTE_CTL_EN = false) (hs : s.ptpStopping 0 = false) : s.followPteEn true = s.pteStop := by
  simp [followPteEn, he, hs]

/-- The counters of the engine at a port (Table PTP-13). -/
def pteCntFlds : List Fld := [F.PTE_CNT_TX_COUNT, F.PTE_CNT_RX_COUNT, F.PTE_CNT_REFUSED_COUNT, F.PTE_CNT_AUTH_COUNT]

/-- The counters of the first `n` ports return to 0. -/
def clearPteCnt (n : Nat) (s : State) : State := forN n s (fun s p => s.rstFlds pteCntFlds p)

theorem clearPteCnt_facts (n : Nat) : PteOnly s (clearPteCnt n s) pteCntFlds ∧
    ∀ f ∈ pteCntFlds, ∀ p < n, (clearPteCnt n s).rd f p = f.rstAt p := by
  induction n with
  | zero => exact ⟨.refl s _, fun _ _ p hp => absurd hp (Nat.not_lt_zero p)⟩
  | succ n ih =>
    obtain ⟨ho, hz⟩ := ih
    have e : clearPteCnt (n + 1) s = (clearPteCnt n s).rstFlds pteCntFlds n := forN_succ _ _ _
    have h := onlyRegs_rstFlds (s := clearPteCnt n s) (p := n) pteCntFlds
    have hno : ∀ f ∈ pteCntFlds, f.no < 1024 := by decide
    refine ⟨e ▸ ho.trans (.of_onlyRegs_at h), fun f hf p hp => ?_⟩
    rw [e]
    obtain rfl | hn := Nat.eq_or_lt_of_le (Nat.le_of_lt_succ hp)
    · exact rd_rstFlds_mem (by decide) hf
    · refine (h.2 f p fun x hx => ?_).trans (hz f hf p hn)
      obtain ⟨g, hg, rfl⟩ := List.mem_map.mp hx
      exact Fld.key_ne (hno g hg) (hno f hf) (.inr (by omega))

/-- The fields that the engine changes by starting or stopping. -/
def pteRunFlds : List Fld := F.PTE_STAT_RUNNING :: pteCntFlds ++ ptpShown

theorem pteStart_facts : PteOnly s s.pteStart pteRunFlds ∧ s.pteStart.on F.PTE_STAT_RUNNING = true ∧
    ∀ f ∈ pteCntFlds, ∀ p < 32, s.pteStart.rd f p = f.rstAt p := by
  obtain ⟨ho, hz⟩ := clearPteCnt_facts (s := s) 32
  have e : s.pteStart = ((clearPteCnt 32 s).wr F.PTE_STAT_RUNNING 1).showPtp := rfl
  rw [e]
  generalize clearPteCnt 32 s = t at ho hz
  obtain ⟨hs, -, -⟩ := showPtp_facts (s := t.wr F.PTE_STAT_RUNNING 1)
  have hoff : ∀ f ∈ pteCntFlds, f.off ptpShown = true ∧ f.off [F.PTE_STAT_RUNNING] = true := by decide
  refine ⟨((ho.mono fun _ hf => List.mem_append_left _ (.tail _ hf)).wr (.head _) 1 0).trans (hs.mono (List.subset_append_right _ _)),
    (hs.on rfl 0).trans (on_of_rd (rd_wr_same t F.PTE_STAT_RUNNING 1 0)), fun f hf p hp => ?_⟩
  obtain ⟨h₁, h₂⟩ := hoff f hf
  exact (hs.rd h₁ p).trans ((rd_wr_off t h₂ (.head _) 1 p 0).trans (hz f hf p hp))

theorem pteStop_facts (hl : 0 < s.ptp.stopping.length) : PteOnly s s.pteStop pteRunFlds ∧ s.pteStop.on F.PTE_STAT_RUNNING = false ∧
    s.pteStop.ptpStopping 0 = true ∧ s.pteStop.ptp.fups = [] := by
  obtain ⟨t, ht⟩ : ∃ t, { ((s.wr F.PTE_STAT_RUNNING 0).setPtpStop 0 true false) with
      ptp := { ((s.wr F.PTE_STAT_RUNNING 0).setPtpStop 0 true false).ptp with fups := [] } } = t := ⟨_, rfl⟩
  have e : s.pteStop = t.showPtp := by rw [← ht]; rfl
  rw [e]
  obtain ⟨hs, hstop, hf⟩ := showPtp_facts (s := t)
  have h : PteOnly s t pteRunFlds := by
    rw [← ht]
    exact ((PteOnly.refl s _).wr (.head _) 0 0).same rfl
  refine ⟨h.trans (hs.mono (List.subset_append_right _ _)), (hs.on rfl 0).trans ?_, (ptpStopping_of_ptp hstop 0).trans ?_, hf.trans ?_⟩
  · rw [← ht]
    exact on_of_rd (rd_wr_same s F.PTE_STAT_RUNNING 0 0)
  · rw [← ht]
    exact ptpStopping_setPtpStop (s := s.wr F.PTE_STAT_RUNNING 0) hl true false
  · rw [← ht]

/-! ### The instances -/

/-- The fields of PTE_I_CTL, EN last. -/
def instCtlFlds : List Fld := [F.PTE_I_CTL_MINOR_SDO, F.PTE_I_CTL_MAJOR_SDO, F.PTE_I_CTL_AUTH_REQ, F.PTE_I_CTL_ANN_STOP,
  F.PTE_I_CTL_ACC_DERIVE, F.PTE_I_CTL_PROFILE, F.PTE_I_CTL_EN]

/-- What the fields of PTE_I_CTL[k] take of a write of `w`, and the rules that it breaks (R340). -/
def instCtlFields (s : State) (k w : Nat) : State × List Nat :=
  s.stagedWrite (fun f => (s.on F.PTE_I_CTL_EN k || s.ptpStopping (1 + k)) &&
    !f.among [F.PTE_I_CTL_EN, F.PTE_I_CTL_ANN_STOP, F.PTE_I_CTL_ACC_DERIVE]) inRange instCtlFlds k w

/-- What follows when PTE_I_CTL[k].EN has been written, EN having been `was` (R341). -/
def followInstEn (s : State) (was : Bool) (k : Nat) : State :=
  if s.on F.PTE_I_CTL_EN k && !was then
    (if s.ptpStopping (1 + k) then (s.setPtpStop (1 + k) true true).wr F.PTE_I_STAT_PENDING_ENABLE 1 k else s.instStart k)
  else if was && !s.on F.PTE_I_CTL_EN k then
    (if s.ptpStopping (1 + k) then (s.setPtpStop (1 + k) true false).wr F.PTE_I_STAT_PENDING_ENABLE 0 k else s.instStop k)
  else s

theorem instCtlWrite_eq (a : Acs) : s.instCtlWrite a k w =
    ((s.instCtlFields k w).1.followInstEn (s.on F.PTE_I_CTL_EN k) k).conclude a (s.instCtlFields k w).2 := rfl

theorem followInstEn_starts (he : s.on F.PTE_I_CTL_EN k = true) (hs : s.ptpStopping (1 + k) = false) :
    s.followInstEn false k = s.instStart k := by
  simp [followInstEn, he, hs]

theorem followInstEn_stops (he : s.on F.PTE_I_CTL_EN k = false) (hs : s.ptpStopping (1 + k) = false) :
    s.followInstEn true k = s.instStop k := by
  simp [followInstEn, he, hs]

/-- No field of PTE_I_CTL[k] is locked while its EN is 0 and no stop of it runs. -/
theorem instCtlFields_open (he : s.on F.PTE_I_CTL_EN k = false) (hs : s.ptpStopping (1 + k) = false) :
    s.instCtlFields k w = s.stagedWrite noLock inRange instCtlFlds k w := by
  rw [instCtlFields, he, hs]
  rfl

theorem instCtlFields_facts : PteOnly s (s.instCtlFields k w).1 instCtlFlds ∧ (s.instCtlFields k w).1.ptp = s.ptp :=
  pteOnly_stagedWrite _ _ _ k w

theorem on_en_instCtlFields (b : Bool) : (s.instCtlFields k (setBit w 0 b)).1.on F.PTE_I_CTL_EN k = b :=
  on_fieldWrite_setBit_zero (s := s.keepOld instCtlFlds k) rfl ⟨rfl, rfl⟩ (Bool.and_false _) (fun _ => rfl) instCtlFlds.dropLast k w b

/-- The fields that change when one of the instances starts or stops. -/
def instRunFlds : List Fld := F.PTE_I_STAT_RUNNING :: ptpShown

theorem instStart_passes (h : s.instCheck k = none) :
    PteOnly s (s.instStart k) instRunFlds ∧ (s.instStart k).on F.PTE_I_STAT_RUNNING k = true := by
  obtain ⟨hs, -, -⟩ := showPtp_facts (s := s.wr F.PTE_I_STAT_RUNNING 1 k)
  rw [instStart, h]
  exact ⟨((PteOnly.refl s instRunFlds).wr (.head _) 1 k).trans (hs.mono (List.subset_cons_self _ _)),
    (hs.on rfl k).trans (on_of_rd (rd_wr_same s F.PTE_I_STAT_RUNNING 1 k))⟩

theorem instStart_refused {n : Nat} (h : s.instCheck k = some n) :
    s.instStart k = (s.wr F.PTE_I_CTL_EN 0 k).raise 127 (k + n * 256) := by
  rw [instStart, h]

theorem instStop_facts (hl : 1 + k < s.ptp.stopping.length) : PteOnly s (s.instStop k) instRunFlds ∧
    (s.instStop k).on F.PTE_I_STAT_RUNNING k = false ∧ (s.instStop k).ptpStopping (1 + k) = true ∧
    (s.instStop k).ptp.fups = s.ptp.fups.filter (fun f => f.inst != k) := by
  obtain ⟨t, ht⟩ : ∃ t, { ((s.wr F.PTE_I_STAT_RUNNING 0 k).setPtpStop (1 + k) true false) with
      ptp := { ((s.wr F.PTE_I_STAT_RUNNING 0 k).setPtpStop (1 + k) true false).ptp with
        fups := s.ptp.fups.filter (fun f => f.inst != k) } } = t := ⟨_, rfl⟩
  have e : s.instStop k = t.showPtp := by rw [← ht]; rfl
  rw [e]
  obtain ⟨hs, hstop, hf⟩ := showPtp_facts (s := t)
  have h : PteOnly s t instRunFlds := by
    rw [← ht]
    exact ((PteOnly.refl s _).wr (.head _) 0 k).same rfl
  refine ⟨h.trans (hs.mono (List.subset_cons_self _ _)), (hs.on rfl k).trans ?_, (ptpStopping_of_ptp hstop _).trans ?_, hf.trans ?_⟩
  · rw [← ht]
    exact on_of_rd (rd_wr_same s F.PTE_I_STAT_RUNNING 0 k)
  · rw [← ht]
    exact ptpStopping_setPtpStop (s := s.wr F.PTE_I_STAT_RUNNING 0 k) hl true false
  · rw [← ht]

/-! ### A client -/

/-- The fields of PTE_CLI_CTL, EN last. -/
def cliCtlFlds : List Fld := [F.PTE_CLI_CTL_SESS, F.PTE_CLI_CTL_DOMAIN_NUM, F.PTE_CLI_CTL_AUTH_REQ, F.PTE_CLI_CTL_NEG, F.PTE_CLI_CTL_PROTO,
  F.PTE_CLI_CTL_EN]

/-- What the fields of PTE_CLI_CTL[k] take of a write of `w`, and the rules that it breaks (R340). -/
def cliCtlFields (s : State) (k w : Nat) : State × List Nat :=
  s.fieldWrite (fun f => (s.on F.PTE_CLI_CTL_EN k || s.ptpStopping (3 + k)) && !f.among [F.PTE_CLI_CTL_EN]) inRange cliCtlFlds k w

/-- What follows when EN of client `k` has been written, EN having been `was` (R341). -/
def followCliEn (s : State) (was : Bool) (k : Nat) : State :=
  if s.on F.PTE_CLI_CTL_EN k && !was then (if s.ptpStopping (3 + k) then s.setPtpStop (3 + k) true true else s.cliStart k)
  else if was && !s.on F.PTE_CLI_CTL_EN k then (if s.ptpStopping (3 + k) then s.setPtpStop (3 + k) true false else s.cliStop k)
  else s

theorem cliCtlWrite_eq (a : Acs) : s.cliCtlWrite a k w =
    ((s.cliCtlFields k w).1.followCliEn (s.on F.PTE_CLI_CTL_EN k) k).showPtePend.conclude a (s.cliCtlFields k w).2 := rfl

theorem followCliEn_starts (he : s.on F.PTE_CLI_CTL_EN k = true) (hs : s.ptpStopping (3 + k) = false) :
    s.followCliEn false k = s.cliStart k := by
  simp [followCliEn, he, hs]

theorem followCliEn_stops (he : s.on F.PTE_CLI_CTL_EN k = false) (hs : s.ptpStopping (3 + k) = false) :
    s.followCliEn true k = s.cliStop k := by
  simp [followCliEn, he, hs]

/-- No field of PTE_CLI_CTL is locked while its client is off and not stopping. -/
theorem cliCtlFields_open (he : s.on F.PTE_CLI_CTL_EN k = false) (hs : s.ptpStopping (3 + k) = false) :
    s.cliCtlFields k w = s.fieldWrite noLock inRange cliCtlFlds k w := by
  rw [cliCtlFields, he, hs]
  rfl

theorem onlyRegs_cliCtlFields : OnlyRegs s (s.cliCtlFields k w).1 (cliCtlFlds.map (·, k)) := onlyRegs_fieldWrite _ _ _ k w

theorem on_en_cliCtlFields : (s.cliCtlFields k w).1.on F.PTE_CLI_CTL_EN k = bit w 0 :=
  on_fieldWrite_bit_zero rfl ⟨rfl, rfl⟩ (Bool.and_false _) (fun _ => rfl) cliCtlFlds.dropLast k w

/-- NEG of a client that is off and not stopping takes bit 2 of the word. -/
theorem on_neg_cliCtlFields_open (he : s.on F.PTE_CLI_CTL_EN k = false) (hs : s.ptpStopping (3 + k) = false) :
    (s.cliCtlFields k w).1.on F.PTE_CLI_CTL_NEG k = bit w 2 := by
  have h : (s.fieldWrite noLock inRange cliCtlFlds k w).1.rd F.PTE_CLI_CTL_NEG k = bits w 2 1 :=
    (rd_fieldWrite_append (fs := cliCtlFlds.take 4) (gs := cliCtlFlds.drop 4) rfl k w k).trans
      (rd_fieldWrite_last (fs := cliCtlFlds.take 3) rfl rfl rfl k)
  rw [cliCtlFields_open he hs, on, h, bits_one]

/-- NEG of a client that is on keeps its value. -/
theorem on_neg_cliCtlFields_locked (he : s.on F.PTE_CLI_CTL_EN k = true) :
    (s.cliCtlFields k w).1.on F.PTE_CLI_CTL_NEG k = s.on F.PTE_CLI_CTL_NEG k :=
  congrArg (· != 0) (rd_fieldWrite_of_locked (by rw [he]; rfl) (by decide))

/-- The fields that show what a client has learnt (Table PTP-10). -/
def cliLearnt : List Fld := [F.PTE_CLI_STAT_UP_CLASS, F.PTE_CLI_STAT_UP_ACC, F.PTE_CLI_STAT_SELECTED, F.PTE_CLI_STAT_EAVES_UP, F.PTE_CLI_STAT_AUTH_OK]

/-- The fields that a client changes by starting or stopping. -/
def cliRunFlds : List Fld := F.PTE_CLI_STAT_STATE :: cliLearnt

/-- A client that does not negotiate starts without a word to its server. -/
theorem cliStart_passes (hc : s.cliCheck k = true) (hn : s.on F.PTE_CLI_CTL_NEG k = false) :
    PteOnly s (s.cliStart k) cliRunFlds ∧ (s.cliStart k).cliState k = 1 := by
  have h := onlyRegs_rstFlds (s := s) (p := k) cliLearnt
  obtain ⟨t, ht⟩ : ∃ t, s.rstFlds cliLearnt k = t := ⟨_, rfl⟩
  rw [ht] at h
  obtain ⟨v, hv⟩ : ∃ v, (t.setCli k { seq := (t.cli k).seq, sigSeq := (t.cli k).sigSeq }).setCliState k Cli.listen = v := ⟨_, rfl⟩
  have e : s.cliStart k = v.cliAsk k [0] := by
    rw [← hv, ← ht, cliStart, hc]
    rfl
  have hvo : PteOnly s v cliRunFlds := by
    rw [← hv]
    exact (((PteOnly.of_onlyRegs_at h).mono (List.subset_cons_self _ _)).same rfl).wr (.head _) _ k
  rw [e, cliAsk, hvo.on rfl k, hn, if_neg (by decide)]
  refine ⟨hvo, ?_⟩
  rw [← hv]
  exact rd_wr_same _ F.PTE_CLI_STAT_STATE 1 k

theorem cliStart_refused (hc : s.cliCheck k = false) : s.cliStart k = (s.wr F.PTE_CLI_CTL_EN 0 k).raise 127 (0x10 + k) := by
  rw [cliStart, hc]
  rfl

theorem cliStop_facts (hl : 3 + k < s.ptp.stopping.length) (hn : s.on F.PTE_CLI_CTL_NEG k = false) :
    PteOnly s (s.cliStop k) cliRunFlds ∧ (s.cliStop k).cliState k = 4 ∧ (s.cliStop k).ptpStopping (3 + k) = true := by
  have e : s.cliStop k = (s.setCliState k Cli.stopping).setPtpStop (3 + k) true false := by
    rw [cliStop, cliCancel, hn]
    rfl
  rw [e]
  exact ⟨((PteOnly.refl s _).wr (.head _) _ k).same rfl, rd_wr_same s F.PTE_CLI_STAT_STATE 4 k,
    ptpStopping_setPtpStop (s := s.setCliState k Cli.stopping) hl true false⟩

/-- The fields in which the end of a write of PTE_CLI_CTL shows. -/
def cliEndFlds : List Fld := F.PTE_STAT_PENDING_ENABLE :: accFlds.map Prod.fst

theorem cliEnd_facts (a : Acs) (codes : List Nat) :
    PteOnly s (s.showPtePend.conclude a codes).1 cliEndFlds ∧ (s.showPtePend.conclude a codes).1.ptp = s.ptp :=
  ⟨((PteOnly.refl s _).wr (.head _) _ 0).trans ((pteOnly_conclude (s := s.showPtePend) a codes).mono (List.subset_cons_self _ _)),
    ptp_conclude (s := s.showPtePend) a codes⟩

/-- A check that fails takes the enable back and names its place (R311). -/
theorem pteOnly_enableRefused (f : Fld) (i n : Nat) : PteOnly s ((s.wr f 0 i).raise 127 n) [f] :=
  ((PteOnly.refl s _).wr (.head _) 0 i).same rfl

end State

theorem exec_pteEnable (req w : Nat) (s : State) : exec (.pteEnable req w) s = execPteEnable req w s := rfl
theorem exec_instanceEnable (req k w : Nat) (s : State) : exec (.instanceEnable req k w) s = execInstanceEnable req k w s := rfl
theorem exec_instanceDisable (req k w : Nat) (s : State) : exec (.instanceDisable req k w) s = execInstanceDisable req k w s := rfl
theorem exec_clientEnable (req k w : Nat) (s : State) : exec (.clientEnable req k w) s = execClientEnable req k w s := rfl
theorem exec_pteStopDone (b : Nat) (s : State) : exec (.pteStopDone b) s = execPteStopDone b s := rfl

/-! ### The writes of PTE_CTL.EN -/

section
variable {s : State} {req w : Nat} (ha : Admitted s req) (hs : s.ptpStopping 0 = false)
include ha hs

theorem pteEnable_starts_settles (he : s.on F.PTE_CTL_EN = false) (hw : bit w 0 = true) : Settles (.pteEnable req w) s (fun u =>
    u.on F.PTE_CTL_EN = true ∧ u.on F.PTE_STAT_RUNNING = true ∧ (∀ p, p < 32 → u.rd F.PTE_CNT_TX_COUNT p = 0 ∧
    u.rd F.PTE_CNT_RX_COUNT p = 0 ∧ u.rd F.PTE_CNT_REFUSED_COUNT p = 0 ∧ u.rd F.PTE_CNT_AUTH_COUNT p = 0) ∧
    u.mem = s.mem ∧ u.ridge = s.ridge) := by
  obtain ⟨h, hp⟩ := State.pteCtlFields_facts (s := s) (w := w)
  have hen := (State.on_en_pteCtlFields (s := s)).trans hw
  have hx : execPteEnable req w s = done (s.pteCtlWrite ⟨req, 0x14000, 2, true⟩ w).1 := by rw [execPteEnable, State.put_admitted ha]
  rw [State.pteCtlWrite_eq, he, State.followPteEn_starts hen ((State.ptpStopping_of_ptp (congrArg _ hp) 0).trans hs)] at hx
  generalize s.pteCtlFields w = r at hx h hen
  obtain ⟨k, hrun, hz⟩ := State.pteStart_facts (s := r.1)
  have hl := State.pteOnly_conclude (s := r.1.pteStart) ⟨req, 0x14000, 2, true⟩ r.2
  have hz' (f : Fld) (hf : f ∈ State.pteCntFlds) (ho : f.off (State.accFlds.map Prod.fst) = true) (p : Nat) (hp : p < 32) :
      (r.1.pteStart.conclude ⟨req, 0x14000, 2, true⟩ r.2).1.rd f p = f.rstAt p := (hl.rd ho p).trans (hz f hf p hp)
  exact ⟨_, (exec_pteEnable req w s).trans hx, (hl.on rfl 0).trans ((k.on rfl 0).trans hen), (hl.on rfl 0).trans hrun,
    fun p hp => ⟨hz' F.PTE_CNT_TX_COUNT (by decide) rfl p hp, hz' F.PTE_CNT_RX_COUNT (by decide) rfl p hp,
      hz' F.PTE_CNT_REFUSED_COUNT (by decide) rfl p hp, hz' F.PTE_CNT_AUTH_COUNT (by decide) rfl p hp⟩,
    hl.mem.trans (k.mem.trans h.mem), hl.ridge.trans (k.ridge.trans h.ridge)⟩

theorem pteEnable_stops_settles (he : s.on F.PTE_CTL_EN = true) (hlen : s.ptp.stopping.length = 7) (hw : bit w 0 = false) :
    Settles (.pteEnable req w) s (fun u => u.on F.PTE_CTL_EN = false ∧ u.on F.PTE_STAT_RUNNING = false ∧ u.ptpStopping 0 = true ∧
      u.ptp.fups = [] ∧ u.mem = s.mem ∧ u.ridge = s.ridge) := by
  obtain ⟨h, hp⟩ := State.pteCtlFields_facts (s := s) (w := w)
  have hen := (State.on_en_pteCtlFields (s := s)).trans hw
  have hx : execPteEnable req w s = done (s.pteCtlWrite ⟨req, 0x14000, 2, true⟩ w).1 := by rw [execPteEnable, State.put_admitted ha]
  rw [State.pteCtlWrite_eq, he, State.followPteEn_stops hen ((State.ptpStopping_of_ptp (congrArg _ hp) 0).trans hs)] at hx
  generalize s.pteCtlFields w = r at hx h hp hen
  obtain ⟨k, hrun, hstop, hf⟩ := State.pteStop_facts (s := r.1) (by rw [hp, hlen]; decide)
  have hl := State.pteOnly_conclude (s := r.1.pteStop) ⟨req, 0x14000, 2, true⟩ r.2
  have hlp := State.ptp_conclude (s := r.1.pteStop) ⟨req, 0x14000, 2, true⟩ r.2
  exact ⟨_, (exec_pteEnable req w s).trans hx, (hl.on rfl 0).trans ((k.on rfl 0).trans hen), (hl.on rfl 0).trans hrun,
    (State.ptpStopping_of_ptp (congrArg _ hlp) 0).trans hstop, (congrArg _ hlp).trans hf,
    hl.mem.trans (k.mem.trans h.mem), hl.ridge.trans (k.ridge.trans h.ridge)⟩

end

/-! ### The writes of PTE_I_CTL.EN -/

section
variable {s : State} {req k : Nat} (ha : Admitted s req) (hk : k < 2) (hs : s.ptpStopping (1 + k) = false)
include ha hk hs

/-- An enable while PTE_I_CTL[k].EN is 0 takes the word, starts what it names and concludes. -/
theorem execInstanceEnable_starts (he : s.on F.PTE_I_CTL_EN k = false) (w : Nat) : execInstanceEnable req k w s = done
    ((s.instCtlFields k (setBit w 0 true)).1.instStart k |>.conclude ⟨req, 0x14040 + 0x20 * k, 2, true⟩
      (s.instCtlFields k (setBit w 0 true)).2).1 := by
  obtain ⟨-, hp⟩ := State.instCtlFields_facts (s := s) (k := k) (w := setBit w 0 true)
  rw [execInstanceEnable, if_neg (by omega), State.put_admitted ha, State.instCtlWrite_eq, he,
    State.followInstEn_starts (State.on_en_instCtlFields true) ((State.ptpStopping_of_ptp (congrArg _ hp) _).trans hs)]

theorem instanceEnable_passes_settles (he : s.on F.PTE_I_CTL_EN k = false) (w : Nat)
    (hc : (s.stagedWrite noLock inRange State.instCtlFlds k (setBit w 0 true)).1.instCheck k = none) :
    Settles (.instanceEnable req k w) s (fun u =>
      u.on F.PTE_I_CTL_EN k = true ∧ u.on F.PTE_I_STAT_RUNNING k = true ∧ u.mem = s.mem ∧ u.ridge = s.ridge) := by
  have hx := execInstanceEnable_starts ha hk hs he w
  rw [← State.instCtlFields_open he hs] at hc
  obtain ⟨h, -⟩ := State.instCtlFields_facts (s := s) (k := k) (w := setBit w 0 true)
  have hen := State.on_en_instCtlFields (s := s) (k := k) (w := w) true
  generalize s.instCtlFields k (setBit w 0 true) = r at hx hc h hen
  obtain ⟨q, hrun⟩ := State.instStart_passes hc
  have hl := State.pteOnly_conclude (s := r.1.instStart k) ⟨req, 0x14040 + 0x20 * k, 2, true⟩ r.2
  exact ⟨_, (exec_instanceEnable req k w s).trans hx, (hl.on rfl k).trans ((q.on rfl k).trans hen), (hl.on rfl k).trans hrun,
    hl.mem.trans (q.mem.trans h.mem), hl.ridge.trans (q.ridge.trans h.ridge)⟩

theorem instanceEnable_refused_settles (he : s.on F.PTE_I_CTL_EN k = false) (w : Nat) {n : Nat}
    (hc : (s.stagedWrite noLock inRange State.instCtlFlds k (setBit w 0 true)).1.instCheck k = some n) :
    Settles (.instanceEnable req k w) s (fun u => u.on F.PTE_I_CTL_EN k = false ∧ u.staged 127 (k + n * 256) ∧ u.ptp = s.ptp ∧
      u.mem = s.mem ∧ u.ridge = s.ridge) := by
  have hx := execInstanceEnable_starts ha hk hs he w
  rw [← State.instCtlFields_open he hs] at hc
  obtain ⟨h, hp⟩ := State.instCtlFields_facts (s := s) (k := k) (w := setBit w 0 true)
  generalize s.instCtlFields k (setBit w 0 true) = r at hx hc h hp
  rw [State.instStart_refused hc] at hx
  have q := State.pteOnly_enableRefused (s := r.1) F.PTE_I_CTL_EN k (k + n * 256)
  have hl := State.pteOnly_conclude (s := (r.1.wr F.PTE_I_CTL_EN 0 k).raise 127 (k + n * 256)) ⟨req, 0x14040 + 0x20 * k, 2, true⟩ r.2
  exact ⟨_, (exec_instanceEnable req k w s).trans hx, (hl.on rfl k).trans (State.on_of_rd (State.rd_wr_same r.1 F.PTE_I_CTL_EN 0 k)),
    State.occs_conclude _ _ _ (List.mem_append_right _ (.head _)), (State.ptp_conclude _ _).trans hp,
    hl.mem.trans (q.mem.trans h.mem), hl.ridge.trans (q.ridge.trans h.ridge)⟩

theorem instanceDisable_settles (he : s.on F.PTE_I_CTL_EN k = true) (hlen : s.ptp.stopping.length = 7) (w : Nat) :
    Settles (.instanceDisable req k w) s (fun u => u.on F.PTE_I_CTL_EN k = false ∧ u.on F.PTE_I_STAT_RUNNING k = false ∧
      u.ptpStopping (1 + k) = true ∧ u.ptp.fups = s.ptp.fups.filter (fun f => f.inst != k) ∧ u.mem = s.mem ∧ u.ridge = s.ridge) := by
  obtain ⟨h, hp⟩ := State.instCtlFields_facts (s := s) (k := k) (w := setBit w 0 false)
  have hen := State.on_en_instCtlFields (s := s) (k := k) (w := w) false
  have hx : execInstanceDisable req k w s = done (s.instCtlWrite ⟨req, 0x14040 + 0x20 * k, 2, true⟩ k (setBit w 0 false)).1 := by
    rw [execInstanceDisable, if_neg (by omega), State.put_admitted ha]
  rw [State.instCtlWrite_eq, he, State.followInstEn_stops hen ((State.ptpStopping_of_ptp (congrArg _ hp) _).trans hs)] at hx
  generalize s.instCtlFields k (setBit w 0 false) = r at hx h hp hen
  obtain ⟨q, hrun, hstop, hf⟩ := State.instStop_facts (s := r.1) (k := k) (by rw [hp, hlen]; omega)
  have hl := State.pteOnly_conclude (s := r.1.instStop k) ⟨req, 0x14040 + 0x20 * k, 2, true⟩ r.2
  have hlp := State.ptp_conclude (s := r.1.instStop k) ⟨req, 0x14040 + 0x20 * k, 2, true⟩ r.2
  exact ⟨_, (exec_instanceDisable req k w s).trans hx, (hl.on rfl k).trans ((q.on rfl k).trans hen), (hl.on rfl k).trans hrun,
    (State.ptpStopping_of_ptp (congrArg _ hlp) _).trans hstop, (congrArg _ hlp).trans (hf.trans (by rw [hp])),
    hl.mem.trans (q.mem.trans h.mem), hl.ridge.trans (q.ridge.trans h.ridge)⟩

end

/-! ### The writes of PTE_CLI_CTL.EN -/

section
variable {s : State} {req k w : Nat} (ha : Admitted s req) (hk : k < 4) (hs : s.ptpStopping (3 + k) = false)
include ha hk hs

/-- An enable of a client that is off takes the word, starts the client and concludes. -/
theorem execClientEnable_starts (he : s.on F.PTE_CLI_CTL_EN k = false) (hw : bit w 0 = true) : execClientEnable req k w s = done
    (((s.cliCtlFields k w).1.cliStart k).showPtePend |>.conclude ⟨req, 0x14300 + 0x20 * k, 2, true⟩ (s.cliCtlFields k w).2).1 := by
  have hp := State.ptp_of_regs (State.onlyRegs_cliCtlFields (s := s) (k := k) (w := w)).1
  rw [execClientEnable, if_neg (by omega), State.put_admitted ha, State.cliCtlWrite_eq, he,
    State.followCliEn_starts (State.on_en_cliCtlFields.trans hw) ((State.ptpStopping_of_ptp (congrArg _ hp) _).trans hs)]

theorem clientEnable_passes_settles (he : s.on F.PTE_CLI_CTL_EN k = false) (hw : bit w 0 = true) (hn : bit w 2 = false)
    (hc : (s.fieldWrite noLock inRange State.cliCtlFlds k w).1.cliCheck k = true) : Settles (.clientEnable req k w) s (fun u =>
      u.on F.PTE_CLI_CTL_EN k = true ∧ u.cliState k = 1 ∧ u.mem = s.mem ∧ u.ridge = s.ridge ∧ u.out = s.out) := by
  have hx := execClientEnable_starts ha hk hs he hw
  rw [← State.cliCtlFields_open he hs] at hc
  have h := PteOnly.of_onlyRegs_at (State.onlyRegs_cliCtlFields (s := s) (k := k) (w := w))
  have hen := (State.on_en_cliCtlFields (s := s) (k := k) (w := w)).trans hw
  have hneg := (State.on_neg_cliCtlFields_open (w := w) he hs).trans hn
  generalize s.cliCtlFields k w = r at hx hc h hen hneg
  obtain ⟨q, hst⟩ := State.cliStart_passes hc hneg
  obtain ⟨hl, -⟩ := State.cliEnd_facts (s := r.1.cliStart k) ⟨req, 0x14300 + 0x20 * k, 2, true⟩ r.2
  exact ⟨_, (exec_clientEnable req k w s).trans hx, (hl.on rfl k).trans ((q.on rfl k).trans hen), (hl.rd rfl k).trans hst,
    hl.mem.trans (q.mem.trans h.mem), hl.ridge.trans (q.ridge.trans h.ridge), hl.out.trans (q.out.trans h.out)⟩

theorem clientEnable_refused_settles (he : s.on F.PTE_CLI_CTL_EN k = false) (hw : bit w 0 = true)
    (hc : (s.fieldWrite noLock inRange State.cliCtlFlds k w).1.cliCheck k = false) : Settles (.clientEnable req k w) s (fun u =>
      u.on F.PTE_CLI_CTL_EN k = false ∧ u.staged 127 (0x10 + k) ∧ u.cliState k = s.cliState k ∧ u.mem = s.mem ∧ u.ridge = s.ridge ∧
      u.out = s.out) := by
  have hx := execClientEnable_starts ha hk hs he hw
  rw [← State.cliCtlFields_open he hs] at hc
  have h := PteOnly.of_onlyRegs_at (State.onlyRegs_cliCtlFields (s := s) (k := k) (w := w))
  generalize s.cliCtlFields k w = r at hx hc h
  rw [State.cliStart_refused hc] at hx
  have q := State.pteOnly_enableRefused (s := r.1) F.PTE_CLI_CTL_EN k (0x10 + k)
  obtain ⟨hl, -⟩ := State.cliEnd_facts (s := (r.1.wr F.PTE_CLI_CTL_EN 0 k).raise 127 (0x10 + k)) ⟨req, 0x14300 + 0x20 * k, 2, true⟩ r.2
  exact ⟨_, (exec_clientEnable req k w s).trans hx, (hl.on rfl k).trans (State.on_of_rd (State.rd_wr_same r.1 F.PTE_CLI_CTL_EN 0 k)),
    State.occs_conclude _ _ _ (List.mem_append_right _ (.head _)), (hl.rd rfl k).trans ((q.rd rfl k).trans (h.rd rfl k)),
    hl.mem.trans (q.mem.trans h.mem), hl.ridge.trans (q.ridge.trans h.ridge), hl.out.trans (q.out.trans h.out)⟩

theorem clientDisable_settles (he : s.on F.PTE_CLI_CTL_EN k = true) (hlen : s.ptp.stopping.length = 7)
    (hn : s.on F.PTE_CLI_CTL_NEG k = false) (hw : bit w 0 = false) : Settles (.clientEnable req k w) s (fun u =>
      u.on F.PTE_CLI_CTL_EN k = false ∧ u.cliState k = 4 ∧ u.ptpStopping (3 + k) = true ∧ u.mem = s.mem ∧ u.ridge = s.ridge ∧
      u.out = s.out) := by
  have o := State.onlyRegs_cliCtlFields (s := s) (k := k) (w := w)
  have hp := State.ptp_of_regs o.1
  have h := PteOnly.of_onlyRegs_at o
  have hen := (State.on_en_cliCtlFields (s := s) (k := k) (w := w)).trans hw
  have hneg := (State.on_neg_cliCtlFields_locked (w := w) he).trans hn
  have hx : execClientEnable req k w s = done (s.cliCtlWrite ⟨req, 0x14300 + 0x20 * k, 2, true⟩ k w).1 := by
    rw [execClientEnable, if_neg (by omega), State.put_admitted ha]
  rw [State.cliCtlWrite_eq, he, State.followCliEn_stops hen ((State.ptpStopping_of_ptp (congrArg _ hp) _).trans hs)] at hx
  generalize s.cliCtlFields k w = r at hx h hp hen hneg
  obtain ⟨q, hst, hstop⟩ := State.cliStop_facts (s := r.1) (k := k) (by rw [hp, hlen]; omega) hneg
  obtain ⟨hl, hlp⟩ := State.cliEnd_facts (s := r.1.cliStop k) ⟨req, 0x14300 + 0x20 * k, 2, true⟩ r.2
  exact ⟨_, (exec_clientEnable req k w s).trans hx, (hl.on rfl k).trans ((q.on rfl k).trans hen), (hl.rd rfl k).trans hst,
    (State.ptpStopping_of_ptp (congrArg _ hlp) _).trans hstop,
    hl.mem.trans (q.mem.trans h.mem), hl.ridge.trans (q.ridge.trans h.ridge), hl.out.trans (q.out.trans h.out)⟩

end

/-! ### The end of a stop (R341) -/

/-- Block `b` has answered what it admitted: its stop ends, and so does what showed it. -/
def State.ptpStopped (s : State) (b : Nat) : State :=
  let s := (s.setPtpStop b false false).showPtePend
  let s := if b = 1 ∨ b = 2 then s.wr F.PTE_I_STAT_PENDING_ENABLE 0 (b - 1) else s
  if 3 ≤ b then s.setCliState (b - 3) Cli.disabled else s

theorem State.ptpStopped_facts {s : State} {b : Nat} (h : s.ptpStopping b = true) : (s.ptpStopped b).ptpStopping b = false ∧
    (3 ≤ b → (s.ptpStopped b).cliState (b - 3) = 0) ∧
    { s with regs := (s.ptpStopped b).regs, ptp := (s.ptpStopped b).ptp } = s.ptpStopped b := by
  have hf := State.ptpStopping_setPtpStop (State.lt_of_ptpStopping h) false false
  unfold ptpStopped
  refine ⟨?_, fun hb => ?_, ?_⟩
  · split_ifs <;> exact hf
  · simp only [if_pos hb]
    exact State.rd_wr_same _ F.PTE_CLI_STAT_STATE 0 (b - 3)
  · split_ifs <;> rfl

theorem pteStopDone_settles {s : State} {b : Nat} (hb : b < 7) (hs : s.ptpStopping b = true) (ha : s.frank.answers = [])
    (hp : s.ptp.pend.getD b false = false) : Settles (.pteStopDone b) s (fun u =>
      u.ptpStopping b = false ∧ (3 ≤ b → u.cliState (b - 3) = 0) ∧ { s with regs := u.regs, ptp := u.ptp } = u) := by
  have hx : execPteStopDone b s = done (s.ptpStopped b) := by
    rw [execPteStopDone, if_neg (by simp [hs, ha]; omega), hp]
    rfl
  exact ⟨_, (exec_pteStopDone b s).trans hx, State.ptpStopped_facts hs⟩

/-- Settles O27: the frame `PteOnly` of each start, stop and refusal carries the enable past it, and `showPtp` and `conclude` change nothing
that the clauses read. -/
theorem packetTimingEngineStartsAndStops : Obligations.PacketTimingEngineStartsAndStops :=
  ⟨fun _ _ _ ha he hs hw => pteEnable_starts_settles ha hs he hw, fun _ _ _ ha he hs hl hw => pteEnable_stops_settles ha hs he hl hw,
    fun _ _ _ w ha hk he hs hc => instanceEnable_passes_settles ha hk hs he w hc,
    fun _ _ _ w _ ha hk he hs hc => instanceEnable_refused_settles ha hk hs he w hc,
    fun _ _ _ w ha hk he hs hl => instanceDisable_settles ha hk hs he hl w, fun _ _ hb hs ha hp => pteStopDone_settles hb hs ha hp,
    fun _ _ _ _ ha hk he hs hw hn hc => clientEnable_passes_settles ha hk hs he hw hn hc,
    fun _ _ _ _ ha hk he hs hw hc => clientEnable_refused_settles ha hk hs he hw hc,
    fun _ _ _ _ ha hk he hs hl hn hw => clientDisable_settles ha hk hs he hl hn hw⟩

end Sys2Proof.Machine

/-! ## Packet clients (R337 to R341, R367, R368, Table PTP-10) -/

namespace Sys2Proof.Machine

theorem exec_clientDreqDue (k : Nat) (place : TxPlace) (s : State) : exec (.clientDreqDue k place) s = execClientDreqDue k place s := rfl
theorem exec_clientMsgRx (p : Nat) (f : RxFrame) (s : State) : exec (.clientMsgRx p f) s = execClientMsgRx p f s := rfl
theorem exec_ntpClientResponseRx (p : Nat) (f : RxFrame) (s : State) :
    exec (.ntpClientResponseRx p f) s = execNtpClientResponseRx p f s := rfl
theorem exec_clientWindowEnd (k : Nat) (s : State) : exec (.clientWindowEnd k) s = execClientWindowEnd k s := rfl
theorem exec_grantRenew (k : Nat) (s : State) : exec (.grantRenew k) s = execGrantRenew k s := rfl
theorem exec_clientAnnounceTimeout (k : Nat) (s : State) : exec (.clientAnnounceTimeout k) s = execClientAnnounceTimeout k s := rfl

namespace State
variable {s t : State} {k : Nat}

/-! ### The state of a client -/

theorem lt_of_cliRuns (h : s.cliRuns k = true) : k < 4 := by
  simp only [cliRuns, Bool.and_eq_true, decide_eq_true_eq] at h
  exact h.1.1.1

theorem cli_setCli (h : k < s.ptp.client.length) (x : ClientSt) : (s.setCli k x).cli k = x := getD_set_same h x {}

theorem cli_of_ptp (h : t.ptp = s.ptp) (k : Nat) : t.cli k = s.cli k := by rw [cli, cli, h]

theorem cliState_setCliState {st : Nat} (h : st < 8) : (s.setCliState k st).cliState k = st :=
  (rd_wr_same s F.PTE_CLI_STAT_STATE st k).trans (Nat.mod_eq_of_lt h)

/-! ### What a client sends -/

/-- A client whose port can send and whose message needs no key sends it to its server. -/
theorem cliSend_plain (hp : s.portSends (s.cliPort k) = true) (hs : s.saSends (s.msgSa (s.cliPort k) (some (s.cliSess k))) = false)
    (m : List Nat) : s.cliSend k m = (s.sendPtp (s.cliPort k) (s.msgFrame (s.cliPort k) (some (s.cliSess k)) false (putLength m)), true) := by
  unfold cliSend
  dsimp only
  rw [if_neg (by rw [hp]; decide), finishNow_plain hs]

/-- The Signaling of a client goes out with its next sequenceId. -/
theorem cliSignal_plain {tlvs : List Nat} (ht : tlvs ≠ []) (hp : s.portSends (s.cliPort k) = true)
    (hs : s.saSends (s.msgSa (s.cliPort k) (some (s.cliSess k))) = false) :
    ∃ b, s.cliSignal k tlvs = (s.sendPtp (s.cliPort k) b).setCli k { s.cli k with sigSeq := ((s.cli k).sigSeq + 1) % 2 ^ 16 } := by
  unfold cliSignal
  dsimp only
  rw [if_neg (by simpa using ht), cliSend_plain hp hs]
  exact ⟨_, rfl⟩

theorem requestTlv_ne_nil (t : Nat) (log : Int) (dur : Nat) : requestTlv t log dur ≠ [] := by
  simp [requestTlv]

/-- Requests for at least one grant make a message. -/
theorem cliRequests_ne_nil {l : List Nat} {t : Nat} (ht : t ∈ l) : (l.map (s.cliRequest k)).flatten ≠ [] := fun h =>
  requestTlv_ne_nil t _ _ (List.flatten_eq_nil_iff.mp h (s.cliRequest k t) (List.mem_map_of_mem ht))

/-! ### What a client receives -/

/-- The peer's identity is learned in its session's record alone. -/
theorem learnPeer_eq (n : Nat) (m : List Nat) : { s with mem := (s.learnPeer n m).mem } = s.learnPeer n m := by
  have hput (t : State) (b : List (Nat × Nat)) (a : Nat) : { t with
      mem := (b.foldl (fun s b => { s with mem := memPut s.mem (a + b.2) (BitVec.ofNat 8 b.1) }) t).mem } =
      b.foldl (fun s b => { s with mem := memPut s.mem (a + b.2) (BitVec.ofNat 8 b.1) }) t := by
    induction b generalizing t with
    | nil => rfl
    | cons x l ih => exact ih { t with mem := memPut t.mem (a + x.2) (BitVec.ofNat 8 x.1) }
  unfold learnPeer
  split
  · exact hput s _ _
  · rfl

end State

/-! ### Requests (R338, R367) -/

section
variable {s : State} {k : Nat} (hr : s.cliRuns k = true) (hl : s.ptp.client.length = 4)
include hr hl

theorem clientDreqDue_ptp_settles (place : TxPlace) (hn : s.cliNtp k = false) (hm : 2 ≤ s.cliState k)
    (hp : s.portSends (s.cliPort k) = true) (hs : s.saSends (s.msgSa (s.cliPort k) (some (s.cliSess k))) = false) :
    Settles (.clientDreqDue k place) s (fun u => (∃ b, u.out = s.out ++ [.frame (s.cliPort k) b]) ∧
      u.cli k = { s.cli k with seq := ((s.cli k).seq + 1) % 2 ^ 16,
                               out := (s.cli k).out ++ [((s.cli k).seq, s.epochOf 0 (s.txStamp (s.cliPort k) 0 place))] } ∧
      { s with regs := u.regs, ptp := { s.ptp with client := u.ptp.client }, out := u.out } = u ∧
      RegsBut s u [(F.MAC_CNT_TX_FRAMES_TX_FRAMES, s.cliPort k), (F.PTE_CNT_TX_COUNT, s.cliPort k)]) := by
  obtain ⟨b, hx⟩ : ∃ b, execClientDreqDue k place s = done ((s.sendPtp (s.cliPort k) b).setCli k { s.cli k with
      seq := ((s.cli k).seq + 1) % 2 ^ 16,
      out := (s.cli k).out ++ [((s.cli k).seq, s.epochOf 0 (s.txStamp (s.cliPort k) 0 place))] }) := by
    unfold execClientDreqDue
    dsimp only
    rw [if_neg (by rw [hr]; decide), hn, if_neg Bool.false_ne_true, if_neg (show ¬s.cliState k < Cli.measuring from Nat.not_lt.mpr hm),
      State.cliSend_plain hp hs]
    exact ⟨_, rfl⟩
  rw [State.sendPtp_eq hp] at hx
  have hk := State.lt_of_cliRuns hr
  exact ⟨_, (exec_clientDreqDue k place s).trans hx, ⟨b, rfl⟩, State.cli_setCli (show k < s.ptp.client.length by omega) _, rfl,
    (((RegsBut.refl s _).wr (.head _) _).wr (.tail _ (.head _)) _).same rfl⟩

theorem clientDreqDue_ntp_settles (place : TxPlace) (hn : s.cliNtp k = true) (hp : s.portSends (s.cliPort k) = true) :
    Settles (.clientDreqDue k place) s (fun u => (∃ b, u.out = s.out ++ [.frame (s.cliPort k) b]) ∧
      u.cli k = { s.cli k with out := (s.cli k).out ++ [(s.ntpTime (s.epochOf 0 (s.txStamp (s.cliPort k) 0 place)),
        s.epochOf 0 (s.txStamp (s.cliPort k) 0 place))] } ∧
      { s with regs := u.regs, ptp := { s.ptp with client := u.ptp.client }, out := u.out } = u ∧
      RegsBut s u [(F.MAC_CNT_TX_FRAMES_TX_FRAMES, s.cliPort k)]) := by
  obtain ⟨b, hx⟩ : ∃ b, execClientDreqDue k place s = done ((s.sendFrame (s.cliPort k) b).setCli k { s.cli k with
      out := (s.cli k).out ++ [(s.ntpTime (s.epochOf 0 (s.txStamp (s.cliPort k) 0 place)),
        s.epochOf 0 (s.txStamp (s.cliPort k) 0 place))] }) := by
    unfold execClientDreqDue
    dsimp only
    rw [if_neg (by rw [hr]; decide), hn, if_pos rfl, if_neg (by rw [hp]; decide)]
    exact ⟨_, rfl⟩
  rw [State.sendFrame, if_pos hp] at hx
  have hk := State.lt_of_cliRuns hr
  exact ⟨_, (exec_clientDreqDue k place s).trans hx, ⟨b, rfl⟩, State.cli_setCli (show k < s.ptp.client.length by omega) _, rfl,
    ((RegsBut.refl s _).wr (.head _) _).same rfl⟩

/-! ### Grants that are renewed (R338) -/

theorem grantRenew_settles (hn : s.on F.PTE_CLI_CTL_NEG k = true) (hg : s.grantOn (s.cliSess k) 0 = true)
    (hh : 2 * s.grantLeft (s.cliSess k) 0 ≤ (s.cli k).granted.getD 0 0) (hp : s.portSends (s.cliPort k) = true)
    (hs : s.saSends (s.msgSa (s.cliPort k) (some (s.cliSess k))) = false) : Settles (.grantRenew k) s (fun u =>
      (∃ b, u.out = s.out ++ [.frame (s.cliPort k) b]) ∧ u.cli k = { s.cli k with sigSeq := ((s.cli k).sigSeq + 1) % 2 ^ 16 } ∧
      u.mem = s.mem ∧ u.ridge = s.ridge) := by
  obtain ⟨b, hx⟩ : ∃ b, execGrantRenew k s = done ((s.sendPtp (s.cliPort k) b).setCli k
      { s.cli k with sigSeq := ((s.cli k).sigSeq + 1) % 2 ^ 16 }) := by
    have h0 : 0 ∈ [0, 1, 2].filter (fun t => s.grantOn (s.cliSess k) t && 2 * s.grantLeft (s.cliSess k) t ≤ (s.cli k).granted.getD t 0) :=
      List.mem_filter.mpr ⟨.head _, by simp only [hg, hh, decide_true, Bool.and_true]⟩
    obtain ⟨b, hb⟩ := State.cliSignal_plain (State.cliRequests_ne_nil (s := s) (k := k) h0) hp hs
    refine ⟨b, ?_⟩
    unfold execGrantRenew
    dsimp only
    rw [if_neg (by rw [hr]; decide), State.cliAsk, if_pos hn, hb]
  rw [State.sendPtp_eq hp] at hx
  have hk := State.lt_of_cliRuns hr
  exact ⟨_, (exec_grantRenew k s).trans hx, ⟨b, rfl⟩, State.cli_setCli (show k < s.ptp.client.length by omega) _, rfl, rfl⟩

end

/-! ### A silent server (Table PTP-10) -/

theorem clientAnnounceTimeout_settles {s : State} {k : Nat} (hr : s.cliRuns k = true) (hm : 2 ≤ s.cliState k) :
    Settles (.clientAnnounceTimeout k) s (fun u => u.cliState k = 1 ∧ (s.cliState k = 3 → u.staged 125 k) ∧
      OnlyRegsFcu s u [(F.PTE_CLI_STAT_STATE, k)]) := by
  have hx : execClientAnnounceTimeout k s = done ((if s.cliState k = 3 then s.raise 125 k else s).setCliState k 1) := by
    rw [execClientAnnounceTimeout, if_pos ⟨hr, hm⟩]
    rfl
  refine ⟨_, (exec_clientAnnounceTimeout k s).trans hx, State.cliState_setCliState (by decide), fun h => ?_, ?_⟩
  · rw [if_pos h]
    exact List.mem_append_right _ (.head _)
  · split
    · exact ⟨rfl, ((RegsBut.refl s _).same rfl).wr (.head _) 1⟩
    · exact ⟨rfl, (RegsBut.refl s _).wr (.head _) 1⟩

/-! ### Syncs and NTP answers (R339, R367) -/

theorem clientSyncRx_settles {s : State} {p tr k : Nat} {f : RxFrame} {m : List Nat} (hf : ptpMsg f.bytes = some (tr, m))
    (hg : s.rxGood p f = true) (hy : msgType m = 0) (hc : s.cliOf p tr f m = some k) (hr : s.on F.PTE_CLI_CTL_AUTH_REQ k = false)
    (hn : s.verify m = none) (hm : 2 ≤ s.cliState k) (h2 : msgTwoStep m = false) (hl : s.ptp.client.length = 4) :
    Settles (.clientMsgRx p f) s (fun u =>
      (u.cli k).last = some (s.cliStamp p f, s.cliStamp p f - msgTime m 34 - msgCorr m) ∧ (u.cli k).sync = none ∧
      (u.cli k).exch = (s.cli k).exch ∧ u.ridge = s.ridge ∧ u.out = s.out) := by
  have hk : k < 4 := List.mem_range.mp (List.mem_of_find?_eq_some hc)
  obtain ⟨w, h, hw, hx⟩ : ∃ w, Alike s w ∧ { s with regs := w.regs, mem := w.mem } = w ∧
      execClientMsgRx p f s = done (w.cliSync k (s.cliStamp p f) (s.cliStamp p f - msgTime m 34 - msgCorr m)) := by
    have ha := State.alike_countEvent (s := s) p
    have hc' := State.onlyRegs_countEvent (s := s) p
    have e := State.learnPeer_eq (s := s.countEvent p) ((s.countEvent p).cliSess k) m
    have h : Alike s ((s.countEvent p).learnPeer ((s.countEvent p).cliSess k) m) :=
      ha.same (by rw [← e]) (by rw [← e]) (by rw [← e])
    refine ⟨_, h, by rw [← e, ← hc'.1], ?_⟩
    unfold execClientMsgRx
    rw [hf]
    dsimp only
    rw [if_pos ⟨hg, by rw [hy]; rfl⟩, State.clientRx, hc]
    dsimp only
    rw [State.cliMsg]
    dsimp only
    rw [if_pos (show msgType m = Ptp.sync from hy), State.cliAuth, ha.on rfl, hr, State.authRx_plain (s.verify_none_of _ hn)]
    dsimp only
    rw [if_pos rfl]
    dsimp only
    rw [if_neg (by rw [h.cliState]; exact not_or.mpr ⟨Bool.false_ne_true, Nat.not_lt.mpr hm⟩), if_pos (show msgType m = Ptp.sync from hy), h2, if_neg Bool.false_ne_true,
      h.cliStamp]
  have hp : w.ptp = s.ptp := by rw [← hw]
  have he := State.cli_setCli (s := w) (k := k) (by rw [hp]; omega)
    { w.cli k with sync := none, last := some (s.cliStamp p f, s.cliStamp p f - msgTime m 34 - msgCorr m) }
  have hk' : (w.cli k).exch = (s.cli k).exch := congrArg ClientSt.exch (State.cli_of_ptp hp k)
  exact ⟨_, (exec_clientMsgRx p f s).trans hx, congrArg ClientSt.last he, congrArg ClientSt.sync he, (congrArg ClientSt.exch he).trans hk',
    by rw [← hw]; rfl, by rw [← hw]; rfl⟩

theorem be_one_lt (l : List Nat) (o : Nat) : be l o 1 < 256 := by
  simp only [be]
  omega

theorem ntpAnswerRx_settles {s : State} {p k : Nat} {f : RxFrame} {v : Udp} {q : Nat × Int} (hv : udpOf f.bytes = some v)
    (hc : s.ntpClientOf p f.bytes v = some k) (hg : s.rxGood p f = true) (h1 : v.src = 123) (hu : udpSumOk f.bytes v = true)
    (hq : (s.cli k).out.find? (fun q => q.1 == be (udpData f.bytes v) 24 8) = some q) (hs : 48 ≤ (udpData f.bytes v).length)
    (hb : bits (be (udpData f.bytes v) 0 1) 0 3 = 4 ∧ bits (be (udpData f.bytes v) 0 1) 3 3 = 4 ∧ bits (be (udpData f.bytes v) 0 1) 6 2 ≠ 3)
    (ht : 0 < be (udpData f.bytes v) 1 1 ∧ be (udpData f.bytes v) 1 1 ≤ s.rd F.PTE_CLI_RATE_CLASS_MAX k)
    (hl : s.ptp.client.length = 4) (hm : s.cliState k = 1) : Settles (.ntpClientResponseRx p f) s (fun u => u.cliState k = 2 ∧
      (u.cli k).out = (s.cli k).out.erase q ∧ (∃ e : Exchange, (u.cli k).exch = (s.cli k).exch ++ [e] ∧ e.t2 = s.cliStamp p f) ∧
      u.rd F.PTE_CLI_STAT_UP_CLASS k = be (udpData f.bytes v) 1 1 ∧ u.mem = s.mem ∧ u.ridge = s.ridge ∧ u.out = s.out) := by
  have hk : k < 4 := List.mem_range.mp (List.mem_of_find?_eq_some hc)
  obtain ⟨hb1, hb2, hb3⟩ := hb
  obtain ⟨ht1, ht2⟩ := ht
  obtain ⟨e, x, hx, hxo, hxe, he⟩ : ∃ (e : Exchange) (x : ClientSt), execNtpClientResponseRx p f s =
      done (((s.wr F.PTE_CLI_STAT_UP_CLASS (be (udpData f.bytes v) 1 1) k).setCli k x).setCliState k 2) ∧
      x.out = (s.cli k).out.erase q ∧ x.exch = (s.cli k).exch ++ [e] ∧ e.t2 = s.cliStamp p f := by
    unfold execNtpClientResponseRx
    rw [hv]
    dsimp only
    rw [hc]
    dsimp only
    rw [if_pos ⟨hg, h1, hu⟩, State.ntpResponse]
    generalize udpData f.bytes v = m at *
    have hm' (x : ClientSt) : ((s.wr F.PTE_CLI_STAT_UP_CLASS (be m 1 1) k).setCli k x).cliState k = Cli.listen :=
      (State.rd_wr_other s (by decide) (by decide) (by decide) _ k k).trans hm
    dsimp only
    rw [hq]
    dsimp only
    rw [if_neg (by simp only [not_or, not_lt]; exact ⟨hs, not_not.mpr hb1, not_not.mpr hb2, hb3, by omega, ht2⟩), if_pos (hm' _)]
    exact ⟨_, _, rfl, rfl, rfl, rfl⟩
  have hcl := State.cli_setCli (s := s.wr F.PTE_CLI_STAT_UP_CLASS (be (udpData f.bytes v) 1 1) k) (k := k)
    (show k < s.ptp.client.length by omega) x
  refine ⟨_, (exec_ntpClientResponseRx p f s).trans hx, State.cliState_setCliState (by decide), (congrArg ClientSt.out hcl).trans hxo,
    ⟨e, (congrArg ClientSt.exch hcl).trans hxe, he⟩, ?_, rfl, rfl, rfl⟩
  exact (State.rd_wr_other _ (by decide) (by decide) (by decide) _ k k).trans
    ((State.rd_wr_same s F.PTE_CLI_STAT_UP_CLASS _ k).trans (Nat.mod_eq_of_lt (be_one_lt _ 1)))

/-! ### The end of a window (R339) -/

namespace State
variable {s : State} {k : Nat}

/-- The exchanges of a client's window, as delay, t2 and offset. -/
def windowDelays (s : State) (k : Nat) : List (Rat × Rat × Rat) :=
  (s.cli k).exch.map (fun e => ((e.ms + e.sm) / 2, e.t2, (e.sm - e.ms) / 2 + (s.rdS F.PTE_CLI_ASYM_VALUE k : Rat)))

/-- The least delay of the exchanges `d`. -/
def leastDelay (d : List (Rat × Rat × Rat)) : Rat := (d.map (fun q => q.1)).foldl min ((d.head?.map (fun q => q.1)).getD 0)

/-- What a window of client `k` selects: t2 and offset of the exchanges within DLY_WIN of the least delay. -/
def windowSel (s : State) (k : Nat) : List (Rat × Rat) :=
  ((s.windowDelays k).filter (fun q => decide (q.1 ≤ leastDelay (s.windowDelays k) + s.rd F.PTE_CLI_FILT_DLY_WIN k * 65536))).map
    (fun q => (q.2.1, q.2.2))

/-- What client `k` keeps beyond the end of a window. -/
def windowKept (s : State) (k : Nat) : ClientSt :=
  { s.cli k with exch := [], last := none, sync := none, out := [], authFail := false,
                 hist := if s.cliState k = Cli.listen then (s.cli k).hist else (s.windowSel k :: (s.cli k).hist).take 16 }

/-- The state in which the window of client `k` has been shown and emptied. -/
def windowClosed (s : State) (k : Nat) : State :=
  ((s.wrSat F.PTE_CLI_STAT_SELECTED (s.windowSel k).length k).wrB F.PTE_CLI_STAT_AUTH_OK (!(s.cli k).authFail) k).setCli k (s.windowKept k)

theorem alike_windowClosed (k : Nat) : Alike s (s.windowClosed k) :=
  (((Alike.refl s).wr (f := F.PTE_CLI_STAT_SELECTED) (by simp [tallyFlds]) _ k).wr (f := F.PTE_CLI_STAT_AUTH_OK)
    (by simp [tallyFlds]) _ k).same rfl rfl rfl

theorem cli_windowClosed (h : k < s.ptp.client.length) : (s.windowClosed k).cli k = s.windowKept k :=
  cli_setCli (s := (s.wrSat F.PTE_CLI_STAT_SELECTED (s.windowSel k).length k).wrB F.PTE_CLI_STAT_AUTH_OK (!(s.cli k).authFail) k) h _

theorem rd_selected_windowClosed : (s.windowClosed k).rd F.PTE_CLI_STAT_SELECTED k = satU 8 (s.windowSel k).length % 2 ^ 8 :=
  (rd_wr_other _ (by decide) (by decide) (by decide) _ k k).trans (rd_wr_same s F.PTE_CLI_STAT_SELECTED _ k)

theorem rd_authOk_windowClosed : (s.windowClosed k).rd F.PTE_CLI_STAT_AUTH_OK k = (!(s.cli k).authFail).toNat % 2 ^ 1 :=
  rd_wr_same (s.wrSat F.PTE_CLI_STAT_SELECTED (s.windowSel k).length k) F.PTE_CLI_STAT_AUTH_OK _ k

/-- A single exchange is the one of least delay, and so is selected. -/
theorem length_windowSel_one {e : Exchange} (h : (s.cli k).exch = [e]) : (s.windowSel k).length = 1 := by
  simp [windowSel, windowDelays, leastDelay, h]

end State

theorem Alike.utcValid {s t : State} (h : Alike s t) (hs : t.ptp.utcSeen = s.ptp.utcSeen) (u : Nat) : t.utcValid u = s.utcValid u := by
  simp (disch := decide) only [State.utcValid, State.utcSrc, State.utcSource, h.inF, h.rd, h.on, hs]

/-- The end of a window leaves what is known of the client's server. -/
theorem State.cliUp_windowClosed {s : State} {k : Nat} (hk : k < s.ptp.client.length) : (s.windowClosed k).cliUp k = s.cliUp k := by
  have h := State.alike_windowClosed (s := s) k
  rw [State.cliUp, State.cliUp, State.cli_windowClosed hk, State.cliNtp, h.on rfl, h.rd _ _ rfl, h.utcValid rfl, ← State.cliNtp]
  rfl

/-! ### What a client delivers (R339) -/

namespace State
variable {s : State}

theorem cliFreq_eq (l : List (Rat × Rat)) : { s with free := (s.cliFreq l).2.free } = (s.cliFreq l).2 := by
  unfold cliFreq
  split <;> rfl

/-- A delivery goes to the ensemble and to Eaves; of the registers OFS alone shows it. -/
theorem cliDeliver_facts (k up : Nat) (sel : List (Rat × Rat)) :
    { s with regs := (s.cliDeliver k up sel).regs, free := (s.cliDeliver k up sel).free, ens := (s.cliDeliver k up sel).ens,
             eaves := (s.cliDeliver k up sel).eaves } = s.cliDeliver k up sel ∧
    RegsBut s (s.cliDeliver k up sel) [(F.PTE_CLI_OFS_OFS, k)] := by
  unfold cliDeliver
  extract_lets edge o om tm newest r freq ofs var gain sd u t age
  have hr : { s with free := r.2.free } = r.2 := cliFreq_eq _
  have ht : RegsBut s t [(F.PTE_CLI_OFS_OFS, k)] := ((RegsBut.refl s _).same (by rw [← hr])).wr (u := r.2) (.head _) _
  have hs : { s with regs := t.regs, free := t.free } = t := by
    show { s with regs := (r.2.wrS F.PTE_CLI_OFS_OFS ofs k).regs, free := r.2.free } = r.2.wrS F.PTE_CLI_OFS_OFS ofs k
    rw [← hr]
    rfl
  clear_value t
  exact ⟨by rw [← hs], ht.same rfl⟩

end State

section
variable {s : State} {k : Nat} (hr : s.cliRuns k = true) (hl : s.ptp.client.length = 4)
include hr hl

theorem length_client : k < s.ptp.client.length := by
  have := State.lt_of_cliRuns hr
  omega

theorem windowEnd_listen_settles (hm : s.cliState k = 1) : Settles (.clientWindowEnd k) s (fun u => u.cliState k = 1 ∧
    (u.cli k).exch = [] ∧ (u.cli k).out = [] ∧ (u.cli k).hist = (s.cli k).hist ∧ u.mem = s.mem ∧ u.ridge = s.ridge ∧ u.ens = s.ens) := by
  have hx : execClientWindowEnd k s = done (s.windowClosed k) := by
    unfold execClientWindowEnd
    rw [if_neg (by rw [hr]; decide)]
    exact if_pos hm
  have hc := State.cli_windowClosed (length_client hr hl)
  have hh : (s.windowKept k).hist = (s.cli k).hist := if_pos hm
  exact ⟨_, (exec_clientWindowEnd k s).trans hx, ((State.alike_windowClosed k).cliState k).trans hm, congrArg ClientSt.exch hc,
    congrArg ClientSt.out hc, (congrArg ClientSt.hist hc).trans hh, rfl, rfl, rfl⟩

theorem windowEnd_unknown_settles (hm : s.cliState k = 3) (hu : s.cliUp k = none) : Settles (.clientWindowEnd k) s (fun u =>
    u.cliState k = 2 ∧ u.staged 125 k ∧ (u.cli k).exch = [] ∧ u.mem = s.mem ∧ u.ridge = s.ridge ∧ u.ens = s.ens) := by
  have hk := length_client hr hl
  have hx : execClientWindowEnd k s = done (((s.windowClosed k).raise 125 k).setCliState k 2) := by
    unfold execClientWindowEnd
    rw [if_neg (by rw [hr]; decide)]
    extract_lets x st asym d least win sel s1 hist t
    have ht : t = s.windowClosed k := rfl
    rw [if_neg (by rw [show st = 3 from hm]; decide), ht, State.cliUp_windowClosed hk, hu]
    exact if_pos hm
  exact ⟨_, (exec_clientWindowEnd k s).trans hx, State.cliState_setCliState (by decide), List.mem_append_right _ (.head _),
    congrArg ClientSt.exch (State.cli_windowClosed hk), rfl, rfl, rfl⟩

theorem windowEnd_valid_settles {up : Nat} {e : Exchange} (hm : s.cliState k = 2) (hu : s.cliUp k = some up)
    (ha : (s.cli k).authFail = false) (he : (s.cli k).exch = [e]) (hn : s.rd F.PTE_CLI_FILT_MIN_EXCH k ≤ 1) :
    Settles (.clientWindowEnd k) s (fun u => u.cliState k = 3 ∧ (u.cli k).exch = [] ∧ u.rd F.PTE_CLI_STAT_SELECTED k = 1 ∧
      u.on F.PTE_CLI_STAT_AUTH_OK k = true ∧ u.mem = s.mem ∧ u.ridge = s.ridge) := by
  have hk := length_client hr hl
  have h := State.alike_windowClosed (s := s) k
  have hw := State.length_windowSel_one he
  have hx : execClientWindowEnd k s = done (((s.windowClosed k).cliDeliver k up (s.windowSel k)).setCliState k 3) := by
    unfold execClientWindowEnd
    rw [if_neg (by rw [hr]; decide)]
    extract_lets x st asym d least win sel s1 hist t
    have ht : t = s.windowClosed k := rfl
    rw [if_neg (by rw [show st = 2 from hm]; decide), ht, State.cliUp_windowClosed hk, hu]
    refine if_pos ⟨?_, by rw [show x.authFail = false from ha]; rfl⟩
    rw [h.rd _ _ rfl]
    exact hn.trans hw.ge
  obtain ⟨hd, hb⟩ := State.cliDeliver_facts (s := s.windowClosed k) k up (s.windowSel k)
  have hp : ((s.windowClosed k).cliDeliver k up (s.windowSel k)).ptp = (s.windowClosed k).ptp := by rw [← hd]
  refine ⟨_, (exec_clientWindowEnd k s).trans hx, State.cliState_setCliState (by decide),
    congrArg ClientSt.exch ((State.cli_of_ptp hp k).trans (State.cli_windowClosed hk)), ?_, State.on_of_rd (v := 1) ?_, by rw [← hd]; rfl,
    by rw [← hd]; rfl⟩
  · refine ((State.rd_wr_other _ (by decide) (by decide) (by decide) _ k k).trans (hb.rd rfl k)).trans ?_
    rw [State.rd_selected_windowClosed, hw]
    rfl
  · refine ((State.rd_wr_other _ (by decide) (by decide) (by decide) _ k k).trans (hb.rd rfl k)).trans ?_
    rw [State.rd_authOk_windowClosed, ha]
    rfl

end

/-- Settles O30: each clause is what its message, its window or its silence does to the client that it names. -/
theorem packetClientsMeasure : Obligations.PacketClientsMeasure :=
  ⟨fun _ _ place hr hn hm hp hs hl => clientDreqDue_ptp_settles hr hl place hn hm hp hs,
   fun _ _ place hr hn hp hl => clientDreqDue_ntp_settles hr hl place hn hp,
   fun _ _ _ _ _ _ hf hg hy hc hr hn hm h2 hl => clientSyncRx_settles hf hg hy hc hr hn hm h2 hl,
   fun _ _ _ _ _ _ hv hc hg h1 hu hq hs hb ht hl hm => ntpAnswerRx_settles hv hc hg h1 hu hq hs hb ht hl hm,
   fun _ _ hr hm hl => windowEnd_listen_settles hr hl hm,
   fun _ _ hr hm hu hl => windowEnd_unknown_settles hr hl hm hu,
   fun _ _ _ _ hr hm hu hl ha he hn => windowEnd_valid_settles hr hl hm hu ha he hn,
   fun _ _ hr hn hg hh hp hs hl => grantRenew_settles hr hl hn hg hh hp hs,
   fun _ _ hr hm => clientAnnounceTimeout_settles hr hm⟩

end Sys2Proof.Machine

/-! ## A session record over a byte that is listed twice

A window memory that is not of the canonical form may list a byte twice, and a byte of a session record that is written 0 then still
reads what the older entry of the list says. -/

namespace Sys2Proof.Machine

theorem exec_sessionApply (s : State) : exec .sessionApply s = execSessionApply s := rfl

/-- Before fuse load, whatever effect a command replies with, its table windows are those of the state the command makes. -/
theorem mem_of_replies {c : Instr} {s v : State} {r : CmdRef} {P : State → Prop} (h : Replies c s r P) (hv : exec c s = done v)
    (hr : v.ridge.running = false) : ∃ u, P u ∧ u.mem = v.mem := by
  obtain ⟨u, r0, r1, n, hu, hp⟩ := h
  obtain ⟨_, rfl, hm⟩ := mem_of_settles (P := fun w => w = u.finish r Code.ok r0 r1 n) ⟨_, hu, rfl⟩ hv hr
  exact ⟨u, hp, (Answered.finish u r Code.ok r0 r1 n).mem.symm.trans hm⟩

namespace State

/-- The command that names association 0 for session 0. -/
def saCmd : CmdRef := ⟨.mirror, 0, 1, 0⟩

/-- Session 0 is valid with association 1, the byte that says so is listed twice, and SESS_SA waits to name association 0. -/
def saListedTwice : State :=
  { State.reset with
    ptp := { State.reset.ptp with changes := [.setSa saCmd 0 0] }
    mem := [(sessAddr 0 + 33, 0x20), (sessAddr 0 + 33, 0x20), (sessAddr 0 + 35, 0x80)] }

end State

/-- Refutes O29: the clause on an applied SESS_SA speaks of every window memory, in canonical form (`Memory.wf`) or not. Where the memory
lists a byte of the session's word twice, the write of 0 removes the first entry alone, so the session keeps association 1 where the
clause says 0. -/
theorem not_sessionsAreGrantedAddedAndChanged : ¬ Obligations.SessionsAreGrantedAddedAndChanged := by
  unfold Obligations.SessionsAreGrantedAddedAndChanged
  rintro ⟨-, -, -, -, -, -, -, -, -, -, -, -, -, -, -, setSa, -⟩
  have h := setSa State.saListedTwice State.saCmd 0 0 rfl rfl (by decide) (by decide +kernel)
  obtain ⟨u, ⟨hw, -⟩, hm⟩ := mem_of_replies h (exec_sessionApply _) (by decide +kernel)
  have h₁ : State.saListedTwice.applySessions.sessWord 0 = 2 ^ 31 + 2 ^ 13 := by decide +kernel
  have h₀ : setBits (State.saListedTwice.sessWord 0) 13 6 0 = 2 ^ 31 := by decide +kernel
  have he : u.sessWord 0 = State.saListedTwice.applySessions.sessWord 0 := congrArg (fun m => memRead m (sessAddr 0 + 32) 4) hm
  rw [hw, h₀, h₁] at he
  exact absurd he (by decide)

end Sys2Proof.Machine
